-- ==== Sys2Proof/Word.lean ====
section
/-! DEFINITION. The 32-bit register word, the index types of R7 and the place of a field in a register. -/

namespace Sys2Proof

/-- A register is 32 bits wide (R63). -/
abbrev Word := BitVec 32

/-- One byte of a descriptor body, a token or a key. -/
abbrev Byte := BitVec 8

/-- Axis n, bank b, coil p and half-bridge h of R7. -/
abbrev Axis := Fin 32
abbrev Bank := Fin 4
abbrev Coil := Fin 64
abbrev HalfBridge := Fin 128

/-- Context k (R102), fault source s (R345), planner core (R13). -/
abbrev Ctx := Fin 64
abbrev Source := Fin 640
abbrev Core := Fin 5

/-- The two PCI Express ports (R11). -/
inductive Port where
  | A | B
deriving DecidableEq, Repr

def Port.other : Port → Port
  | .A => .B
  | .B => .A

def Port.num : Port → Nat
  | .A => 0
  | .B => 1

def portOf (n : Nat) : Port := if n % 2 = 0 then .A else .B

/-- A field REG.FIELD: the BAR0 offset of its register and its bits [hi:lo] (R9). -/
structure Fld where
  off : Nat
  hi : Nat
  lo : Nat
deriving DecidableEq, Repr

/-- A descriptor as fetched (R127), less its OPCODE byte, which the command's own name gives. The body is bytes 16 to 55;
phase is bit 7 of byte 63 (R104). -/
structure Desc where
  flags : Byte
  target : Byte
  cookie : Word
  start : BitVec 64
  body : Vector Byte 40
  group : BitVec 16
  phase : Bool
deriving DecidableEq, Repr

/-- What GDR and the channel measure of a half-bridge in one period (R216, R282): turn-off delays in taps (all ones when
saturated), BST - SW in 0.1 V and on-state VDS in 4 mV; none where the switch gave no reading. -/
structure HbMeas where
  hoff : Option (BitVec 16)
  loff : Option (BitVec 16)
  bst : Option Byte
  vdsH : Option Byte
  vdsL : Option Byte
deriving DecidableEq, Repr

/-- What the host programs into a function's configuration space when it brings a port up (R95): Bus Master Enable goes with
it; PTM Enable, MSI-X Enable and Function Mask, and the codes of Max_Read_Request_Size and Max_Payload_Size (128 bytes times
2 to the code). -/
structure PortCfg where
  ptm : Bool
  msix : Bool
  fmask : Bool
  maxRead : BitVec 3
  maxPay : BitVec 3
deriving DecidableEq, Repr

/-- A port and what its host programs in its configuration space. -/
structure PortSetup where
  port : Port
  cfg : PortCfg
deriving DecidableEq, Repr

/-- A link that has trained: its speed (0 for 2.5, 1 for 5.0, 2 for 8.0 GT/s), and what the host then programs. -/
structure Training where
  speed : Fin 3
  cfg : PortCfg
deriving DecidableEq, Repr

/-- What a PTM response carries (R42): the host's time at its receipt of the request, and the time in ns it held it. -/
structure PtmReply where
  host : BitVec 64
  wait : BitVec 32
deriving DecidableEq, Repr

/-- An edge of the STO inputs that their filters pass (R278): of STO_A (0), of STO_B (1) or of both at once (2), to the permit
level or to demand. -/
structure StoEdge where
  which : Fin 3
  permit : Bool
deriving DecidableEq, Repr

/-- A raw conversion: the 12-bit code and whether the amplifier in the path was overloaded (R308). -/
structure Raw where
  code : BitVec 12
  overload : Bool
deriving DecidableEq, Repr

/-- What a slice calibration finds (R295): offset in 1/16 LSB, gain error in 2^-20, skew trim in 0.5 ps, and whether the
verification mean lies within 2 LSB of the reference. -/
structure SliceCal where
  ofs : BitVec 16
  gerr : BitVec 16
  skew : Byte
  meanOk : Bool
deriving DecidableEq, Repr

/-- A word of the serial encoder as received (R322): the second marker bit, STAT, SEQ, position and CRC fields, the
measured line delay and the smallest sampling margin in taps, and the busy cycles. -/
structure SerialWord where
  mark : Bool
  stat : BitVec 2
  seq : BitVec 4
  pos : BitVec 40
  crc : BitVec 16
  ld : BitVec 14
  margin : BitVec 14
  busy : BitVec 16
deriving DecidableEq, Repr

/-- One current pulse of an identification (R207): its span from 0.1 I to 0.4 I in core clocks, the rise in mA over it and
the mean current in mA. -/
structure IdPulse where
  clocks : BitVec 20
  rise : BitVec 16
  mean : BitVec 16
deriving DecidableEq, Repr

/-- What an identification finds of a coil (R207, R208): whether the current reached I/2 in time, the mean coil voltages V1
and V2 in mV, the motor supply in mV, and the pulses that reached 0.4 I. -/
structure IdCoil where
  reached : Bool
  v1 : BitVec 20
  v2 : BitVec 20
  supply : BitVec 20
  pulses : List IdPulse
deriving DecidableEq, Repr

/-- What a self-test finds (R412 to R414): failed planner cores, failed items, banks with VGb out of range and with failed
analog items, and the FULL calibration of the banks. -/
structure SelfTest where
  cores : BitVec 5
  logic : Bool
  mem : Bool
  fcs : Bool
  banks : BitVec 4
  vgOut : BitVec 4
  clock : Bool
  sto : Bool
  crypto : Bool
  cals : List (Fin 4 × Fin 5 × SliceCal)
  offs : List (Fin 64 × BitVec 16)
deriving DecidableEq, Repr

/-- The bank of an axis, a coil and a half-bridge (R7). -/
def bankOfAxis (n : Axis) : Bank := ⟨n.val / 8, by omega⟩
def bankOfCoil (p : Coil) : Bank := ⟨p.val / 16, by omega⟩
def bankOfHb (h : HalfBridge) : Bank := ⟨h.val / 32, by omega⟩

/-- The axis of a coil and of a half-bridge (R7: p = 2n + c, h = 4n + 2c + l). -/
def axisOfCoil (p : Coil) : Axis := ⟨p.val / 2, by omega⟩
def axisOfHb (h : HalfBridge) : Axis := ⟨h.val / 4, by omega⟩
def coilOfHb (h : HalfBridge) : Coil := ⟨h.val / 2, by omega⟩

/-- The axes of a bank (R7). -/
def axesOfBank (b : Bank) : List Axis :=
  (List.finRange 8).map fun i => ⟨8 * b.val + i.val, by omega⟩

end Sys2Proof
end

