-- ==== Sys2Proof/Syntax.lean ====
section
/-! DEFINITION. The commands of the block, one constructor per row of spec/opcode_table.json. What the device measures
or receives in a command's course (a raw code, an edge, a returned page, the verdict of a check it cannot compute) is an
operand. -/

namespace Sys2Proof

/-- A command. Each constructor's docstring is the row it stands for and the rule of that row. -/
inductive Instr where
  /-- FRAME_TICK (R34). -/
  | frameTick (raws : List (Fin 64 × List Raw)) (offs : List (Coil × BitVec 16)) (missed : List Bank)
  /-- HALF_FRAME_TICK (R29). -/
  | halfFrameTick (missed : List Bank)
  /-- DOORBELL_PAGE_RETURN (R110). -/
  | doorbellPageReturn (p : Port) (page : Vector Word 64)
  /-- DOORBELL_READ_LATE (R109). -/
  | doorbellReadLate (p : Port)
  /-- PHASE_STALL (R105). -/
  | phaseStall (k : Ctx)
  /-- ADMISSION_CUTOFF (R35). -/
  | admissionCutoff
  /-- BAD_OPCODE (R129). -/
  | badOpcode (k : Ctx) (op : Byte) (d : Desc)
  /-- NOP (R145). -/
  | nop (k : Ctx) (d : Desc)
  /-- MOVE_ABS (R132). -/
  | moveAbs (k : Ctx) (d : Desc)
  /-- MOVE_REL (R132). -/
  | moveRel (k : Ctx) (d : Desc)
  /-- JOG (R132). -/
  | jog (k : Ctx) (d : Desc)
  /-- STOP (R133). -/
  | stop (k : Ctx) (d : Desc)
  /-- HOLD (R134). -/
  | hold (k : Ctx) (d : Desc)
  /-- RELEASE (R134). -/
  | release (k : Ctx) (d : Desc)
  /-- FOLLOW_STEP (R135). -/
  | followStep (k : Ctx) (d : Desc)
  /-- HOME (R136). -/
  | home (k : Ctx) (d : Desc)
  /-- BARRIER (R137). -/
  | barrier (k : Ctx) (d : Desc)
  /-- WAIT (R134). -/
  | wait (k : Ctx) (d : Desc)
  /-- CONFIG_AXIS (R138). -/
  | configAxis (k : Ctx) (d : Desc)
  /-- CONFIG_BANK (R138). -/
  | configBank (k : Ctx) (d : Desc)
  /-- BUDGET (R139). -/
  | budget (k : Ctx) (d : Desc)
  /-- QUOTA (R139). -/
  | quota (k : Ctx) (d : Desc)
  /-- TELEMETRY_START (R140). -/
  | telemetryStart (k : Ctx) (d : Desc)
  /-- TELEMETRY_STOP (R140). -/
  | telemetryStop (k : Ctx) (d : Desc)
  /-- SNAPSHOT (R141). -/
  | snapshot (k : Ctx) (d : Desc)
  /-- CONVERT (R142). -/
  | convert (k : Ctx) (d : Desc)
  /-- CALIBRATE_SLICE (R143). -/
  | calibrateSlice (k : Ctx) (d : Desc)
  /-- CALIBRATE_FULL (R143). -/
  | calibrateFull (k : Ctx) (d : Desc)
  /-- CALIBRATE_IDENTIFY (R207). -/
  | calibrateIdentify (k : Ctx) (d : Desc)
  /-- LEDGER_READ (R141). -/
  | ledgerRead (k : Ctx) (d : Desc)
  /-- FW_STAGE (R422). -/
  | fwStage (k : Ctx) (d : Desc)
  /-- FW_SWAP (R425). -/
  | fwSwap (k : Ctx) (d : Desc)
  /-- LC_TRANSIT (R144). -/
  | lcTransit (k : Ctx) (d : Desc)
  /-- SEGMENT_START (R168). -/
  | segmentStart (tag : Fin 1024)
  /-- SEGMENT_END (R59). -/
  | segmentEnd (tag : Fin 1024)
  /-- HOME_INDEX_FOUND (R167). -/
  | homeIndexFound (n : Axis)
  /-- HOME_HARD_STOP_FOUND (R244). -/
  | homeHardStopFound (n : Axis)
  /-- STOP_EFFECT (R133). -/
  | stopEffect (tag : Fin 1024)
  /-- BRAKING_STANDSTILL (R160). -/
  | brakingStandstill (n : Axis)
  /-- REVERSAL_BRAKE_STANDSTILL (R175). -/
  | reversalBrakeStandstill (n : Axis)
  /-- REVERSAL_END (R177). -/
  | reversalEnd (n : Axis)
  /-- CONFIG_APPLY (R87). -/
  | configApply (tag : Fin 1024)
  /-- BUDGET_APPLY (R184). -/
  | budgetApply (b : Bank)
  /-- QUOTA_APPLY (R112). -/
  | quotaApply (k : Ctx)
  /-- TELEMETRY_BLOCK (R118). -/
  | telemetryBlock (i : Fin 8)
  /-- SNAPSHOT_CAPTURE (R141). -/
  | snapshotCapture (tag : Fin 1024)
  /-- LEDGER_READ_DONE (R141). -/
  | ledgerReadDone (tag : Fin 1024)
  /-- FW_STAGE_DONE (R422). -/
  | fwStageDone (tag : Fin 1024) (header : Vector Byte 256) (digest : Vector Byte 32)
  /-- LC_TOKEN_CHECK (R419). -/
  | lcTokenCheck (tag : Fin 1024) (token : Vector Byte 192)
  /-- LIFECYCLE_TRANSITION (R418). -/
  | lifecycleTransition
  /-- SYNC_SAMPLE (R299). -/
  | syncSample (b : Bank) (j : Fin 8) (r1 : Raw) (r2 : Raw)
  /-- COIL_STEP (R195). -/
  | coilStep (p : Coil)
  /-- CARRIER_RELOAD (R213). -/
  | carrierReload (p : Coil) (m1 : HbMeas) (m2 : HbMeas)
  /-- LATCH_POINT (R34). -/
  | latchPoint
  /-- COMPARE_OUTPUT_PULSE (R341). -/
  | compareOutputPulse (n : Axis)
  /-- SERIAL_WORD_START (R322). -/
  | serialWordStart (n : Axis) (dataHigh : Bool)
  /-- SERIAL_WORD_DONE (R326). -/
  | serialWordDone (n : Axis) (w : SerialWord)
  /-- SERIAL_TIMEOUT (R326). -/
  | serialTimeout (n : Axis) (echo : Bool)
  /-- ENCODER_LOST (R337). -/
  | encoderLost (n : Axis)
  /-- QUAD_EDGE (R328). -/
  | quadEdge (n : Axis) (up : Bool) (illegal : Bool)
  /-- INDEX_EVENT (R329). -/
  | indexEvent (n : Axis)
  /-- INDEX_CORRECTION (R330). -/
  | indexCorrection (n : Axis)
  /-- STEP_EDGE (R332). -/
  | stepEdge (n : Axis) (dirHigh : Bool) (held : Bool) (enableHigh : Bool)
  /-- COIL_OVERCURRENT_TRIP (R262). -/
  | coilOvercurrentTrip (p : Coil)
  /-- SWITCH_SATURATION_TRIP (R263). -/
  | switchSaturationTrip (h : HalfBridge)
  /-- DIDT_TRIP (R264). -/
  | didtTrip (p : Coil)
  /-- BOOTSTRAP_UV_TRIP (R265). -/
  | bootstrapUvTrip (h : HalfBridge)
  /-- TRIP_INPUT (R276). -/
  | tripInput (b : Bank) (second : Bool)
  /-- TRIP_RELEASE (R220). -/
  | tripRelease (h : HalfBridge)
  /-- SOFT_TURNOFF_STEP2 (R267). -/
  | softTurnoffStep2 (h : HalfBridge)
  /-- GATE_PATH_FAULT (R256). -/
  | gatePathFault (h : HalfBridge)
  /-- INTERLOCK_ACTED (R259). -/
  | interlockActed (h : HalfBridge)
  /-- VG_UNDERVOLTAGE (R257). -/
  | vgUndervoltage (b : Bank)
  /-- VG_RECOVERED (R257). -/
  | vgRecovered (b : Bank)
  /-- PWM_EDGES_LOST (R261). -/
  | pwmEdgesLost (b : Bank)
  /-- MOTOR_SUPPLY_SAMPLE (R270). -/
  | motorSupplySample (b : Bank) (code : BitVec 10)
  /-- BRAKE_ON_TIME_EXCEEDED (R273). -/
  | brakeOnTimeExceeded (b : Bank)
  /-- NTC_SAMPLE (R277). -/
  | ntcSample (b : Bank) (uV : BitVec 21)
  /-- STO_DEMAND (R279). -/
  | stoDemand (e : StoEdge)
  /-- STO_PERMIT_RETURN (R280). -/
  | stoPermitReturn
  /-- STO_DISCREPANCY (R280). -/
  | stoDiscrepancy (second : Bool)
  /-- FAULT_TRIP (R346). -/
  | faultTrip (src : Source) (object : Option Axis)
  /-- SS1_DEMAND (R364). -/
  | ss1Demand (p : Port) (n : Axis)
  /-- SS1_BRAKING_START (R361). -/
  | ss1BrakingStart (n : Axis)
  /-- SS1_STANDSTILL (R361). -/
  | ss1Standstill (n : Axis)
  /-- SS1_TIMEOUT (R361). -/
  | ss1Timeout (n : Axis)
  /-- FAULT_CLEAR_REQUEST (R372). -/
  | faultClearRequest (p : Port) (src : Source)
  /-- FAULT_CLEAR_ALL_REQUEST (R372). -/
  | faultClearAllRequest (p : Port)
  /-- FAULT_CLEAR (R349). -/
  | faultClear
  /-- LOCKSTEP_MISMATCH (R368). -/
  | lockstepMismatch
  /-- FRAME_TICK_MISSING (R18). -/
  | frameTickMissing
  /-- ALIVE_A_EDGE (R366). -/
  | aliveAEdge
  /-- ALIVE_B_EDGE (R366). -/
  | aliveBEdge
  /-- ALIVE_WATCHDOG_EXPIRY (R367). -/
  | aliveWatchdogExpiry
  /-- ALIVE_RESTART (R367). -/
  | aliveRestart
  /-- LINK_TRAINED (R100). -/
  | linkTrained (p : Port) (x : Training)
  /-- LINK_DOWN (R121). -/
  | linkDown (p : Port) (lost : Nat)
  /-- FUNCTION_LEVEL_RESET (R122). -/
  | functionLevelReset (p : Port)
  /-- HOT_RESET (R122). -/
  | hotReset (p : Port) (lost : Nat)
  /-- LINK_DISABLE (R122). -/
  | linkDisable (p : Port) (lost : Nat)
  /-- PERST_ASSERT (R498). -/
  | perstAssert (p : Port) (lost : Nat)
  /-- BUS_MASTER_ENABLE (R122). -/
  | busMasterEnable (x : PortSetup)
  /-- HANDOVER (R101). -/
  | handover (p : Port)
  /-- CLAIM (R101). -/
  | claim (p : Port)
  /-- OWNERSHIP_CHANGE (R101). -/
  | ownershipChange
  /-- CQ_HEAD_WRITE (R106). -/
  | cqHeadWrite (p : Port) (k : Ctx) (head : Word)
  /-- EQ_HEAD_WRITE (R106). -/
  | eqHeadWrite (p : Port) (k : Ctx) (head : Word)
  /-- TLM_HEAD_WRITE (R119). -/
  | tlmHeadWrite (p : Port) (i : Fin 8) (head : Word)
  /-- EVENTS_LOST (R114). -/
  | eventsLost (k : Ctx)
  /-- MSIX_MODERATION_TIMEOUT (R115). -/
  | msixModerationTimeout (k : Ctx)
  /-- MSIX_VECTOR_UNMASK (R116). -/
  | msixVectorUnmask (p : Port) (vec : Option Ctx)
  /-- HOST_WATCHDOG_KICK (R123). -/
  | hostWatchdogKick (p : Port)
  /-- HOST_WATCHDOG_TIMEOUT_SET (R123). -/
  | hostWatchdogTimeoutSet (p : Port) (ms : BitVec 16)
  /-- HOST_WATCHDOG_EXPIRY (R123). -/
  | hostWatchdogExpiry (p : Port)
  /-- IND_ADDR_WRITE (R78). -/
  | indAddrWrite (p : Port) (w : Word)
  /-- IND_DATA_READ (R79). -/
  | indDataRead (p : Port)
  /-- IND_DATA_WRITE (R79). -/
  | indDataWrite (p : Port) (be : Fin 16) (w : Word)
  /-- IND_FETCH_DONE (R78). -/
  | indFetchDone (p : Port)
  /-- REGISTER_WRITE (R63). -/
  | registerWrite (p : Port) (off : BitVec 20) (be : Fin 16) (w : Word) (same : Bool)
  /-- STROBE_REQUEST (R81). -/
  | strobeRequest (p : Port)
  /-- STROBE_DISCARD (R81). -/
  | strobeDiscard (p : Port)
  /-- STROBE_APPLY (R83). -/
  | strobeApply
  /-- LOCK_REQUEST (R91). -/
  | lockRequest (p : Port)
  /-- UNLOCK_REQUEST (R93). -/
  | unlockRequest (p : Port)
  /-- LOCK_UP (R92). -/
  | lockUp
  /-- LOCK_UP_COMPLETE (R92). -/
  | lockUpComplete
  /-- UNLOCK (R93). -/
  | unlock
  /-- CONFIG_CHECK_PASS (R94). -/
  | configCheckPass
  /-- PWM_FORCE_WRITE (R223). -/
  | pwmForceWrite (p : Port) (h : HalfBridge) (w : Word)
  /-- OPEN_WIRE_TEST_REQUEST (R310). -/
  | openWireTestRequest (p : Port) (b : Bank)
  /-- OPEN_WIRE_TEST_START (R310). -/
  | openWireTestStart (b : Bank)
  /-- OPEN_WIRE_TEST_DONE (R310). -/
  | openWireTestDone (b : Bank) (above : BitVec 16)
  /-- COMPARE_ARM (R340). -/
  | compareArm (p : Port) (n : Axis)
  /-- INJECTED_WINDOW_OPEN (R305). -/
  | injectedWindowOpen (tag : Fin 1024)
  /-- INJECTED_RESULT_READY (R305). -/
  | injectedResultReady (tag : Fin 1024) (r : Raw)
  /-- INJECTED_DROP (R306). -/
  | injectedDrop (tag : Fin 1024)
  /-- SLICE_CALIBRATION_DONE (R296). -/
  | sliceCalibrationDone (b : Bank) (x : SliceCal)
  /-- SLICE_ROTATION (R291). -/
  | sliceRotation (b : Bank)
  /-- FULL_CALIBRATION_DONE (R298). -/
  | fullCalibrationDone (cals : List (Bank × Fin 5 × SliceCal)) (offs : List (Coil × BitVec 16))
  /-- IDENTIFY_DONE (R208). -/
  | identifyDone (tag : Fin 1024) (a : IdCoil) (b : IdCoil)
  /-- PTM_DIALOGUE_START (R42). -/
  | ptmDialogueStart
  /-- PTM_DIALOGUE_DONE (R42). -/
  | ptmDialogueDone (r : PtmReply)
  /-- PTM_DIALOGUE_FAILED (R44). -/
  | ptmDialogueFailed
  /-- GTC_STEP (R43). -/
  | gtcStep
  /-- SYNC_IN_EDGE (R47). -/
  | syncInEdge (late : Fin 4)
  /-- SYNC_LOST (R48). -/
  | syncLost
  /-- CLOCK_STOP_DETECTED (R377). -/
  | clockStopDetected (src : Fin 3)
  /-- CLOCK_MONITOR_WINDOW (R377). -/
  | clockMonitorWindow (src : Fin 3) (ppm : BitVec 20) (amp : Bool)
  /-- CLOCK_SWITCH_FORCED (R383). -/
  | clockSwitchForced
  /-- PLL_LOCKED (R380). -/
  | pllLocked
  /-- PLL_LOCK_LOST (R381). -/
  | pllLockLost
  /-- PLL_LOCK_RETRY (R381). -/
  | pllLockRetry
  /-- HOLDOVER_EXPIRY (R386). -/
  | holdoverExpiry
  /-- HELD_EXIT (R387). -/
  | heldExit
  /-- XO_RESTART (R375). -/
  | xoRestart (p : Port)
  /-- XO_START_TIMEOUT (R375). -/
  | xoStartTimeout
  /-- CLOCK_RETURN (R379). -/
  | clockReturn (p : Port)
  /-- PREF_RETURN (R379). -/
  | prefReturn
  /-- SUPPLY_OUT_OF_WINDOW (R391). -/
  | supplyOutOfWindow (rail : Fin 3)
  /-- RAILS_IN_WINDOW (R392). -/
  | railsInWindow
  /-- PWREN_TIMEOUT (R392). -/
  | pwrenTimeout
  /-- PWREN_RETRY (R392). -/
  | pwrenRetry
  /-- DOMAIN_POWER_GOOD_LOST (R393). -/
  | domainPowerGoodLost (dom : Fin 16)
  /-- DOMAIN_REQUEST_APPLY (R394). -/
  | domainRequestApply
  /-- DOMAIN_POWERED (R394). -/
  | domainPowered (dom : Fin 16) (cals : List (Bank × Fin 5 × SliceCal)) (offs : List (Coil × BitVec 16)) (items : Option Bool)
  /-- FALLOW_ENTER_REQUEST (R397). -/
  | fallowEnterRequest (p : Port)
  /-- FALLOW_DWELL_ELAPSED (R397). -/
  | fallowDwellElapsed
  /-- FALLOW_ENTRY (R398). -/
  | fallowEntry
  /-- WAKE_PIN (R401). -/
  | wakePin
  /-- TIMED_WAKE (R401). -/
  | timedWake
  /-- PMU_RESUME (R401). -/
  | pmuResume (p : Port)
  /-- FALLOW_RESUME (R402). -/
  | fallowResume
  /-- FALLOW_RESUME_DONE (R395). -/
  | fallowResumeDone
  /-- POWER_ON_RESET (R406). -/
  | powerOnReset
  /-- PIN_RESET (R406). -/
  | pinReset
  /-- COMMAND_RESET (R406). -/
  | commandReset (p : Port)
  /-- COMMAND_RESET_EXECUTE (R406). -/
  | commandResetExecute
  /-- FIRMWARE_VERIFICATION (R421). -/
  | firmwareVerification (active : Bool) (staged : Bool)
  /-- SELF_TEST_DONE (R414). -/
  | selfTestDone (t : SelfTest)
  /-- BOOT_READY (R409). -/
  | bootReady
  /-- SPARE_LOAD_DONE (R426). -/
  | spareLoadDone (good : Bool)
  /-- PLANNER_CORE_SWAP (R425). -/
  | plannerCoreSwap
  /-- PLANNER_CORE_FAILURE (R427). -/
  | plannerCoreFailure (q : Core) (memory : Bool)
  /-- PLANNER_CORE_REPLACE (R428). -/
  | plannerCoreReplace
  /-- FIRMWARE_COMMIT (R424). -/
  | firmwareCommit
  /-- DEBUG_HALT_REQUEST (R429). -/
  | debugHaltRequest (p : Port)
  /-- DEBUG_HALT (R225). -/
  | debugHalt
  /-- DEBUG_RESUME_REQUEST (R431). -/
  | debugResumeRequest (p : Port)
  /-- DEBUG_RESUME (R225). -/
  | debugResume
  /-- CND_EVALUATION (R435). -/
  | cndEvaluation (ring : Vector (BitVec 24) 5)
  /-- CND_REPLAN_APPLY (R439). -/
  | cndReplanApply
  /-- CND_APPROVE (R445). -/
  | cndApprove (p : Port) (w : Word)
  /-- CND_DECLINE (R445). -/
  | cndDecline (p : Port) (w : Word)
  /-- CND_LOOSEN_APPLY (R445). -/
  | cndLoosenApply
  /-- PROPOSAL_EXPIRY (R445). -/
  | proposalExpiry
  /-- REBASE (R437). -/
  | rebase (p : Port)
  /-- BASELINE_COMPLETE (R437). -/
  | baselineComplete
  /-- COUNTER_SNAPSHOT (R450). -/
  | counterSnapshot
  /-- LEDGER_SLOT_WRITE (R449). -/
  | ledgerSlotWrite (fails : Fin 4)
  /-- DEXCY_BUILD (R451). -/
  | dexcyBuild (p : Port)
  /-- DEXCY_BUILD_DONE (R451). -/
  | dexcyBuildDone
  /-- RESET_PIN_RELEASE (R409). -/
  | resetPinRelease
  /-- PWREN_ASSERT (R392). -/
  | pwrenAssert
  /-- POWER_LOSS (R260). -/
  | powerLoss
  /-- SUPPLY_BACK_IN_WINDOW (R391). -/
  | supplyBackInWindow (rail : Fin 3)
  /-- TRIP_INPUT_RELEASE (R276). -/
  | tripInputRelease (b : Bank) (second : Bool)
  /-- D3HOT_REQUEST (R374). -/
  | d3hotRequest
  /-- LINK_L1_ENTRY (R374). -/
  | linkL1Entry (p : Port)
  /-- LINK_L1_EXIT (R374). -/
  | linkL1Exit (p : Port)
  /-- HALT_REFRESH_NOTCH (R225). -/
  | haltRefreshNotch (h : HalfBridge)
  /-- DIE_TEMPERATURE_SAMPLE (R475). -/
  | dieTemperatureSample (banks : Vector (BitVec 16) 4) (others : List (BitVec 16))
  /-- CND_TREND_ENTRY (R448). -/
  | cndTrendEntry
  /-- TELEMETRY_STREAM_ACTIVATION (R140). -/
  | telemetryStreamActivation (i : Fin 8)
deriving DecidableEq, Repr

end Sys2Proof
end

