-- ==== Sys2Proof/Decode.lean ====
section
/-! DEFINITION. The command a table word spells. -/

namespace Sys2Proof

/-- The rows of spec/opcode_table.json carry no bits (a command is an event, a register access or a fetched descriptor), so
no word spells one. -/
def decodeTableWord (_nbits _w : Nat) : Option Instr := none

end Sys2Proof
end

