-- ==== Sys2Proof/Config.lean ====
section
/-! DEFINITION. What the spec leaves open, or gives only as a real-valued or cryptographic function that this model
does not compute: opaque constants with no body, so that nothing proved here can rest on a value of theirs. -/

namespace Sys2Proof.Config

/-- A free value: drawn by number, never evaluated (log entry 1). -/
opaque freeNat : Nat → Nat

/-- How far an entry of the sine table lies from the sine; used only within the bound of R198 (log entry 4). -/
opaque sineError : Nat → Rat

/-- The angle the device gives a vector of no length (R228, R239, log entry 4). -/
opaque zeroAngle : Nat

/-- 2π as the device has it; used only within 10⁻¹⁸ of it (log entry 4). -/
opaque twoPi : Rat

/-- The provisional integral gain of an identification in s⁻¹, by axis: R207 gives its L and its bandwidth, and no R (log
entry 121). -/
opaque identifyKi : Nat → Nat

/-- SHA-256, HMAC-SHA-256 under the device key, and ECDSA P-256 verification (R419, R421, R448, R451, log entry 5). -/
opaque sha256 : List Byte → List Byte
opaque hmac : List Byte → List Byte
opaque ecdsaVerify : List Byte → List Byte → Bool

/-- The vendor public key of R419, the factory device number of LCS_DEV_ID and the public part of the device key. -/
opaque vendorKey : List Byte
opaque deviceId : Nat
opaque deviceKey : Nat → Word

/-- The device's random source, by draw number (R432: LCS_LC_NONCE is drawn at boot). -/
opaque entropy : Nat → Nat

end Sys2Proof.Config
end

