-- ==== Sys2Proof/Machine/Bits.lean ====
section
/-! DEFINITION. Bit-field, sign and byte-order helpers (R6), exact integer square roots and the CRCs of the spec. -/

namespace Sys2Proof.Machine

/-- The bits [hi:lo] of a natural number. -/
def bits (hi lo w : Nat) : Nat := w / 2 ^ lo % 2 ^ (hi + 1 - lo)

def bit (i w : Nat) : Bool := w / 2 ^ i % 2 = 1

end Sys2Proof.Machine

namespace Sys2Proof

open Sys2Proof.Machine

/-- All bits of a register that a field covers. -/
def Fld.maskNat (f : Fld) : Nat := (2 ^ (f.hi + 1 - f.lo) - 1) * 2 ^ f.lo

/-- The value of a field in a word. -/
def Fld.get (f : Fld) (w : Word) : Nat := bits f.hi f.lo w.toNat

/-- A word with one field replaced; a value too wide for the field is cut to its low bits. -/
def Fld.put (f : Fld) (w : Word) (v : Nat) : Word :=
  BitVec.ofNat 32 (w.toNat - f.get w * 2 ^ f.lo + v % 2 ^ (f.hi + 1 - f.lo) * 2 ^ f.lo)

end Sys2Proof

namespace Sys2Proof.Machine

/-- Two's complement value of the low n bits. -/
def toSigned (n v : Nat) : Int :=
  let u := v % 2 ^ n
  if 2 * u < 2 ^ n then (u : Int) else (u : Int) - 2 ^ n

/-- The low n bits of an integer, two's complement. -/
def ofSigned (n : Nat) (i : Int) : Nat := (i % (2 ^ n : Int)).toNat

def clampInt (lo hi v : Int) : Int := if v < lo then lo else if hi < v then hi else v

def clampNat (lo hi v : Nat) : Nat := if v < lo then lo else if hi < v then hi else v

/-- Little-endian value of a list of bytes (R6). -/
def leNat : List Byte → Nat
  | [] => 0
  | b :: bs => b.toNat + 256 * leNat bs

/-- The n low bytes of a value, little-endian (R6). -/
def leBytes : Nat → Nat → List Byte
  | 0, _ => []
  | n + 1, v => BitVec.ofNat 8 v :: leBytes n (v / 256)

/-- The n low 32-bit words of a value, least significant first (R6). -/
def leWords : Nat → Nat → List Word
  | 0, _ => []
  | n + 1, v => BitVec.ofNat 32 v :: leWords n (v / 2 ^ 32)

def ceilDiv (a b : Nat) : Nat := if b = 0 then 0 else (a + b - 1) / b

/-- Bisection for the largest r in [lo, hi] whose square is at most n; fuel bounds the halvings. -/
def isqrtGo (n : Nat) : Nat → Nat → Nat → Nat
  | 0, lo, _ => lo
  | fuel + 1, lo, hi =>
    if hi ≤ lo then lo
    else
      let mid := (lo + hi + 1) / 2
      if mid * mid ≤ n then isqrtGo n fuel mid hi else isqrtGo n fuel lo (mid - 1)

/-- The integer square root, rounded down. -/
def isqrt (n : Nat) : Nat :=
  let top := 2 ^ ((Nat.log2 n + 2) / 2)
  isqrtGo n (Nat.log2 n + 3) 0 top

/-- The integer square root, rounded up. -/
def ceilSqrt (n : Nat) : Nat :=
  let r := isqrt n
  if r * r = n then r else r + 1

/-- Rounding of a rational to the nearest integer, halves away from zero (R204). -/
def roundRat (q : Rat) : Int :=
  if 0 ≤ q then (q + 1 / 2).floor else -((-q + 1 / 2).floor)

/-- One bit step of the reflected CRC-32C (R92). -/
def crc32cBit (c : Nat) : Nat := if c % 2 = 1 then Nat.xor (c / 2) 0x82F63B78 else c / 2

def crc32cByte (c : Nat) (b : Byte) : Nat :=
  (List.replicate 8 ()).foldl (fun a _ => crc32cBit a) (Nat.xor c b.toNat)

/-- CRC-32C with reflected polynomial 0x82F6_3B78, initial value and final exclusive-or 0xFFFF_FFFF (R92). -/
def crc32c (bs : List Byte) : Word :=
  BitVec.ofNat 32 (Nat.xor (bs.foldl crc32cByte 0xFFFFFFFF) 0xFFFFFFFF)

end Sys2Proof.Machine
end

