-- ==== Sys2Proof/Machine/Regs.lean ====
section
/-! DEFINITION. Every register of the map (R454 to R467): its place, domain (R454, R462, R465), update group (R80),
the bits of each access type (R9), the committed and the run-locked bits (R85, R89), the clips of its defining
chapter and its reset word. Written out by a script from the register tables of spec/. -/

namespace Sys2Proof.Machine

/-- Which power domain holds the register whose index is i: a fixed one; D8+b or D12+b with b = i div per (R454);
or the domain of the port whose view is used (D3, D4). -/
inductive DomK where
  | fixed (d : Nat) | bankDig (per : Nat) | bankAna (per : Nat) | port
deriving DecidableEq, Repr

/-- Which update group (mask bit of R80) the RWB fields of the register with index i belong to. -/
inductive GrpK where
  | none | fixed (g : Nat) | bank (per : Nat) | axis (per : Nat)
deriving DecidableEq, Repr

/-- A field whose written value is clipped into [min, max] by its defining chapter. -/
structure Clip where
  hi : Nat
  lo : Nat
  min : Nat
  max : Nat
deriving DecidableEq, Repr

/-- A counter field: its bits, and whether it wraps or saturates (R73). -/
structure CntF where
  hi : Nat
  lo : Nat
  wraps : Bool
deriving DecidableEq, Repr

/-- One register row of chapter 17: instances i < c1, j < c2 at base + s1 * i + s2 * j, with index i * c2 + j. -/
structure Row where
  base : Nat
  s1 : Nat
  c1 : Nat
  s2 : Nat
  c2 : Nat
  dom : DomK
  grp : GrpK
  mgmt : Bool
  rw : Nat
  rwb : Nat
  sqc : Nat
  cnts : List CntF
  committed : Nat
  runLocked : Nat
  clips : List Clip
  reset : Nat
deriving DecidableEq, Repr

namespace Reg

def GLB_ID : Nat := 0x0
def GLB_CAP : Nat := 0x4
def GLB_PORT : Nat := 0x8
def GLB_SCRATCH : Nat := 0xc
def GLB_SUMMARY : Nat := 0x10
def GLB_ENERG : Nat := 0x14
def GLB_TEMP : Nat := 0x18
def HIF_ACC_STAT : Nat := 0x1000
def HIF_ACC_ADDR : Nat := 0x1004
def HIF_MGMT : Nat := 0x1008
def HIF_IND_ADDR : Nat := 0x1010
def HIF_IND_CTRL : Nat := 0x1014
def HIF_IND_DATA : Nat := 0x1018
def HIF_IND_STAT : Nat := 0x101c
def HIF_DB_BASE_LO : Nat := 0x1020
def HIF_DB_BASE_HI : Nat := 0x1024
def HIF_PORT_STAT : Nat := 0x1028
def HIF_WDOG : Nat := 0x102c
def HIF_CTX_CFG (i : Nat) : Nat := 0x2000 + 0x40 * i
def HIF_CTX_QUOTA (i : Nat) : Nat := 0x2004 + 0x40 * i
def HIF_CTX_AXES (i : Nat) : Nat := 0x2008 + 0x40 * i
def HIF_CTX_PRIV (i : Nat) : Nat := 0x200c + 0x40 * i
def HIF_CTX_DQB_LO (i : Nat) : Nat := 0x2010 + 0x40 * i
def HIF_CTX_DQB_HI (i : Nat) : Nat := 0x2014 + 0x40 * i
def HIF_CTX_CQB_LO (i : Nat) : Nat := 0x2018 + 0x40 * i
def HIF_CTX_CQB_HI (i : Nat) : Nat := 0x201c + 0x40 * i
def HIF_CTX_EQB_LO (i : Nat) : Nat := 0x2020 + 0x40 * i
def HIF_CTX_EQB_HI (i : Nat) : Nat := 0x2024 + 0x40 * i
def HIF_CTX_MOD (i : Nat) : Nat := 0x2028 + 0x40 * i
def HIF_TLM_BASE_LO (i : Nat) : Nat := 0x3000 + 0x20 * i
def HIF_TLM_BASE_HI (i : Nat) : Nat := 0x3004 + 0x20 * i
def HIF_TLM_CFG (i : Nat) : Nat := 0x3008 + 0x20 * i
def HIF_TLM_HEAD (i : Nat) : Nat := 0x300c + 0x20 * i
def HIF_TLM_TAIL (i : Nat) : Nat := 0x3010 + 0x20 * i
def HIF_TLM_STAT (i : Nat) : Nat := 0x3014 + 0x20 * i
def TBS_FRAME : Nat := 0x4000
def TBS_FRAME_CNT : Nat := 0x4004
def TBS_GTC_LO : Nat := 0x4008
def TBS_GTC_HI : Nat := 0x400c
def TBS_TICK_GTC_LO : Nat := 0x4010
def TBS_TICK_GTC_HI : Nat := 0x4014
def TBS_GTC_RATE : Nat := 0x4018
def TBS_PTM_CTRL : Nat := 0x401c
def TBS_PTM_STAT : Nat := 0x4020
def TBS_PTM_OFFSET : Nat := 0x4024
def TBS_SYNC_CTRL : Nat := 0x4028
def TBS_SYNC_STAT : Nat := 0x402c
def TBS_ADMIT : Nat := 0x4030
def LCS_UPD_MASK_LO : Nat := 0x4400
def LCS_UPD_MASK_HI : Nat := 0x4404
def LCS_UPD_CTRL : Nat := 0x4408
def LCS_UPD_STAT : Nat := 0x440c
def LCS_UPD_PEND_LO : Nat := 0x4410
def LCS_UPD_PEND_HI : Nat := 0x4414
def LCS_UPD_LAST : Nat := 0x4418
def LCS_LOCK_MASK_LO : Nat := 0x4420
def LCS_LOCK_MASK_HI : Nat := 0x4424
def LCS_LOCK_CTRL : Nat := 0x4428
def LCS_PROOF_EXPECT : Nat := 0x442c
def LCS_PROOF : Nat := 0x4430
def LCS_LOCK_STAT : Nat := 0x4434
def LCS_LC_STAT : Nat := 0x4440
def LCS_RST_CAUSE : Nat := 0x4444
def LCS_RST_CTRL : Nat := 0x4448
def LCS_ST_RES : Nat := 0x444c
def LCS_FW_STAT : Nat := 0x4450
def LCS_FW_BUILD_ACT : Nat := 0x4454
def LCS_FW_BUILD_STG : Nat := 0x4458
def LCS_CORE_IMG : Nat := 0x445c
def LCS_DEV_ID_LO : Nat := 0x4460
def LCS_DEV_ID_HI : Nat := 0x4464
def LCS_LC_NONCE_LO : Nat := 0x4468
def LCS_LC_NONCE_HI : Nat := 0x446c
def LCS_DBG_CTRL : Nat := 0x4470
def LCS_DBG_STAT : Nat := 0x4474
def FCS_CASCADE : Nat := 0x4800
def FCS_CLR : Nat := 0x4804
def FCS_SS1_DEM : Nat := 0x4808
def FCS_STAT : Nat := 0x480c
def FCS_REC_CNT : Nat := 0x4810
def GDR_STO_CFG : Nat := 0x4900
def GDR_STO_STAT : Nat := 0x4904
def CKG_CFG : Nat := 0x4c00
def CKG_CLKOUT : Nat := 0x4c04
def CKG_CTRL : Nat := 0x4c08
def CLK_STAT : Nat := 0x4c0c
def PMU_CFG : Nat := 0x4d00
def PMU_DWELL : Nat := 0x4d04
def PMU_DOM_REQ : Nat := 0x4d08
def PMU_DOM_STAT : Nat := 0x4d0c
def PMU_CTRL : Nat := 0x4d10
def PMU_WAKE_AT_LO : Nat := 0x4d18
def PMU_WAKE_AT_HI : Nat := 0x4d1c
def PMU_WAKE_EN : Nat := 0x4d20
def PMU_STAT : Nat := 0x4d24
def PMU_RESUME_T : Nat := 0x4d28
def MPL_CORE_MAP : Nat := 0x4e00
def MPL_CFG : Nat := 0x4e04
def CND_CFG : Nat := 0x5000
def CND_ALIM : Nat := 0x5004
def CND_CTRL : Nat := 0x5008
def CND_APPROVE : Nat := 0x500c
def CND_STAT : Nat := 0x5010
def CND_DXC_CTRL : Nat := 0x5014
def CND_DXC_NONCE (i : Nat) : Nat := 0x5020 + 0x4 * i
def CND_LKEY (i : Nat) : Nat := 0x5040 + 0x4 * i
def CND_PROP_OFS (i : Nat) : Nat := 0x5100 + 0x10 * i
def CND_PROP_VAL (i : Nat) : Nat := 0x5104 + 0x10 * i
def CND_PROP_INFO (i : Nat) : Nat := 0x5108 + 0x10 * i
def FCS_SRC_CFG (i : Nat) : Nat := 0x6000 + 0x10 * i
def FCS_SRC_WIN (i : Nat) : Nat := 0x6004 + 0x10 * i
def FCS_SRC_STAT (i : Nat) : Nat := 0x6008 + 0x10 * i
def MPL_BUDGET_LIM (i : Nat) : Nat := 0x10000 + 0x2000 * i
def MPL_VCALC (i : Nat) : Nat := 0x10004 + 0x2000 * i
def MPL_P0 (i : Nat) : Nat := 0x10008 + 0x2000 * i
def MPL_BUDGET (i : Nat) : Nat := 0x1000c + 0x2000 * i
def MPL_DRAW (i : Nat) : Nat := 0x10010 + 0x2000 * i
def MPL_PEAK (i : Nat) : Nat := 0x10014 + 0x2000 * i
def MPL_CURT_STAT (i : Nat) : Nat := 0x10018 + 0x2000 * i
def GDR_DRV (i : Nat) : Nat := 0x10040 + 0x2000 * i
def GDR_SOFT (i : Nat) : Nat := 0x10044 + 0x2000 * i
def GDR_OC (i : Nat) : Nat := 0x10048 + 0x2000 * i
def GDR_VDS (i : Nat) : Nat := 0x1004c + 0x2000 * i
def GDR_DIDT (i : Nat) : Nat := 0x10050 + 0x2000 * i
def GDR_VMS_BRK (i : Nat) : Nat := 0x10054 + 0x2000 * i
def GDR_VMS_LIM (i : Nat) : Nat := 0x10058 + 0x2000 * i
def GDR_BRK_CFG (i : Nat) : Nat := 0x1005c + 0x2000 * i
def GDR_TRIP_CFG (i : Nat) : Nat := 0x10060 + 0x2000 * i
def GDR_NTC (i : Nat) : Nat := 0x10064 + 0x2000 * i
def GDR_NTC_LIM (i : Nat) : Nat := 0x10068 + 0x2000 * i
def GDR_TEMP (i : Nat) : Nat := 0x1006c + 0x2000 * i
def GDR_VMS (i : Nat) : Nat := 0x10070 + 0x2000 * i
def GDR_STAT (i : Nat) : Nat := 0x10074 + 0x2000 * i
def PWM_DT_LIM (i : Nat) : Nat := 0x10080 + 0x2000 * i
def PWM_NOTCH (i : Nat) : Nat := 0x10084 + 0x2000 * i
def PWM_MINP (i : Nat) : Nat := 0x10088 + 0x2000 * i
def PWM_OLEN (i : Nat) : Nat := 0x1008c + 0x2000 * i
def PWM_STAT (i : Nat) : Nat := 0x10090 + 0x2000 * i
def ADC_ROT (i : Nat) : Nat := 0x100c0 + 0x2000 * i
def ADC_STAT (i : Nat) : Nat := 0x100c4 + 0x2000 * i
def ADC_OWT (i : Nat) : Nat := 0x100c8 + 0x2000 * i
def ADC_OWT_STAT (i : Nat) : Nat := 0x100cc + 0x2000 * i
def CND_MARG (i : Nat) : Nat := 0x10100 + 0x2000 * i
def CND_DER_CFG (i : Nat) : Nat := 0x10104 + 0x2000 * i
def CND_BRK (i : Nat) : Nat := 0x10108 + 0x2000 * i
def CND_DER (i : Nat) : Nat := 0x1010c + 0x2000 * i
def CND_CAL (i : Nat) : Nat := 0x10110 + 0x2000 * i
def ADC_SLC_OG (i : Nat) : Nat := 0x10140 + 0x2000 * (i / 5) + 0x8 * (i % 5)
def ADC_SLC_SK (i : Nat) : Nat := 0x10144 + 0x2000 * (i / 5) + 0x8 * (i % 5)
def ADC_CS (i : Nat) : Nat := 0x10200 + 0x2000 * (i / 16) + 0x10 * (i % 16)
def ADC_SYNC (i : Nat) : Nat := 0x10204 + 0x2000 * (i / 16) + 0x10 * (i % 16)
def ADC_SEQ (i : Nat) : Nat := 0x10300 + 0x2000 * (i / 16) + 0x8 * (i % 16)
def ADC_AUX (i : Nat) : Nat := 0x10304 + 0x2000 * (i / 16) + 0x8 * (i % 16)
def PWM_CMP (i : Nat) : Nat := 0x10400 + 0x2000 * (i / 32) + 0x20 * (i % 32)
def PWM_SHD (i : Nat) : Nat := 0x10404 + 0x2000 * (i / 32) + 0x20 * (i % 32)
def PWM_DT (i : Nat) : Nat := 0x10408 + 0x2000 * (i / 32) + 0x20 * (i % 32)
def PWM_DT_MEAS (i : Nat) : Nat := 0x1040c + 0x2000 * (i / 32) + 0x20 * (i % 32)
def PWM_OLH (i : Nat) : Nat := 0x10410 + 0x2000 * (i / 32) + 0x20 * (i % 32)
def PWM_OLL (i : Nat) : Nat := 0x10414 + 0x2000 * (i / 32) + 0x20 * (i % 32)
def PWM_FORCE (i : Nat) : Nat := 0x10418 + 0x2000 * (i / 32) + 0x20 * (i % 32)
def GDR_MEAS (i : Nat) : Nat := 0x1041c + 0x2000 * (i / 32) + 0x20 * (i % 32)
def MPL_VMAX (i : Nat) : Nat := 0x20000 + 0x400 * i
def MPL_AMAX (i : Nat) : Nat := 0x20004 + 0x400 * i
def MPL_DMAX (i : Nat) : Nat := 0x20008 + 0x400 * i
def MPL_JMAX (i : Nat) : Nat := 0x2000c + 0x400 * i
def MPL_EMAX (i : Nat) : Nat := 0x20010 + 0x400 * i
def MPL_FMAX (i : Nat) : Nat := 0x20014 + 0x400 * i
def MPL_HDEC (i : Nat) : Nat := 0x20018 + 0x400 * i
def MPL_HJERK (i : Nat) : Nat := 0x2001c + 0x400 * i
def MPL_REV_DIST (i : Nat) : Nat := 0x20020 + 0x400 * i
def MPL_REV_VEL (i : Nat) : Nat := 0x20024 + 0x400 * i
def MPL_REV_CFG (i : Nat) : Nat := 0x20028 + 0x400 * i
def MPL_SCALE (i : Nat) : Nat := 0x2002c + 0x400 * i
def MPL_TRAVEL_MIN_LO (i : Nat) : Nat := 0x20030 + 0x400 * i
def MPL_TRAVEL_MIN_HI (i : Nat) : Nat := 0x20034 + 0x400 * i
def MPL_TRAVEL_MAX_LO (i : Nat) : Nat := 0x20038 + 0x400 * i
def MPL_TRAVEL_MAX_HI (i : Nat) : Nat := 0x2003c + 0x400 * i
def MPL_MASS (i : Nat) : Nat := 0x20040 + 0x400 * i
def MPL_KF (i : Nat) : Nat := 0x20044 + 0x400 * i
def MPL_FRIC (i : Nat) : Nat := 0x20048 + 0x400 * i
def MPL_IHOLD (i : Nat) : Nat := 0x2004c + 0x400 * i
def MPL_FOLLOW (i : Nat) : Nat := 0x20050 + 0x400 * i
def MPL_STAT (i : Nat) : Nat := 0x20054 + 0x400 * i
def CLP_CTRL (i : Nat) : Nat := 0x20080 + 0x400 * i
def CLP_ILOOP (i : Nat) : Nat := 0x20084 + 0x400 * i
def CLP_VLOOP (i : Nat) : Nat := 0x20088 + 0x400 * i
def CLP_PLOOP (i : Nat) : Nat := 0x2008c + 0x400 * i
def CLP_FERR (i : Nat) : Nat := 0x20090 + 0x400 * i
def CLP_KE (i : Nat) : Nat := 0x20094 + 0x400 * i
def CLP_DETENT (i : Nat) : Nat := 0x20098 + 0x400 * i
def CLP_IMS (i : Nat) : Nat := 0x2009c + 0x400 * i
def CLP_ID_CFG (i : Nat) : Nat := 0x200a0 + 0x400 * i
def CLP_STAT (i : Nat) : Nat := 0x200a4 + 0x400 * i
def CLP_RL (i : Nat) : Nat := 0x200a8 + 0x400 * (i / 2) + 0x4 * (i % 2)
def CLP_ID (i : Nat) : Nat := 0x200b0 + 0x400 * (i / 2) + 0x4 * (i % 2)
def LES_CFG (i : Nat) : Nat := 0x20100 + 0x400 * i
def LES_VMIN (i : Nat) : Nat := 0x20104 + 0x400 * i
def LES_PLAUS (i : Nat) : Nat := 0x20108 + 0x400 * i
def LES_STALL (i : Nat) : Nat := 0x2010c + 0x400 * i
def LES_BLOCK (i : Nat) : Nat := 0x20110 + 0x400 * i
def LES_SL (i : Nat) : Nat := 0x20114 + 0x400 * i
def LES_STAT (i : Nat) : Nat := 0x20118 + 0x400 * i
def LES_FORCE (i : Nat) : Nat := 0x2011c + 0x400 * i
def LES_LOAD (i : Nat) : Nat := 0x20120 + 0x400 * i
def LES_EST_LO (i : Nat) : Nat := 0x20128 + 0x400 * i
def LES_EST_HI (i : Nat) : Nat := 0x2012c + 0x400 * i
def LES_DIFF (i : Nat) : Nat := 0x20130 + 0x400 * i
def FBK_CFG (i : Nat) : Nat := 0x20180 + 0x400 * i
def FBK_RATIO (i : Nat) : Nat := 0x20184 + 0x400 * i
def FBK_OFS_LO (i : Nat) : Nat := 0x20188 + 0x400 * i
def FBK_OFS_HI (i : Nat) : Nat := 0x2018c + 0x400 * i
def FBK_SER_CFG (i : Nat) : Nat := 0x20190 + 0x400 * i
def FBK_SER_CRC (i : Nat) : Nat := 0x20194 + 0x400 * i
def FBK_SER_TIM (i : Nat) : Nat := 0x20198 + 0x400 * i
def FBK_IDX_CFG (i : Nat) : Nat := 0x2019c + 0x400 * i
def FBK_IDX_PER (i : Nat) : Nat := 0x201a0 + 0x400 * i
def FBK_IDX_POS (i : Nat) : Nat := 0x201a4 + 0x400 * i
def FBK_SPD (i : Nat) : Nat := 0x201a8 + 0x400 * i
def FBK_POS_LO (i : Nat) : Nat := 0x201b0 + 0x400 * i
def FBK_POS_HI (i : Nat) : Nat := 0x201b4 + 0x400 * i
def FBK_ADJ_LO (i : Nat) : Nat := 0x201b8 + 0x400 * i
def FBK_ADJ_HI (i : Nat) : Nat := 0x201bc + 0x400 * i
def FBK_SPEED (i : Nat) : Nat := 0x201c0 + 0x400 * i
def FBK_STEP (i : Nat) : Nat := 0x201c4 + 0x400 * i
def FBK_LINK (i : Nat) : Nat := 0x201c8 + 0x400 * i
def FBK_STAT (i : Nat) : Nat := 0x201cc + 0x400 * i
def FBK_IDX_STAT (i : Nat) : Nat := 0x201d0 + 0x400 * i
def FBK_CMP_LO (i : Nat) : Nat := 0x201d8 + 0x400 * i
def FBK_CMP_HI (i : Nat) : Nat := 0x201dc + 0x400 * i
def FBK_CMP_SPACE (i : Nat) : Nat := 0x201e0 + 0x400 * i
def FBK_CMP_CTRL (i : Nat) : Nat := 0x201e4 + 0x400 * i
def FBK_CMP_NEXT_LO (i : Nat) : Nat := 0x201e8 + 0x400 * i
def FBK_CMP_NEXT_HI (i : Nat) : Nat := 0x201ec + 0x400 * i
def FBK_CMP_HITS (i : Nat) : Nat := 0x201f0 + 0x400 * i
def FBK_CMP_STAT (i : Nat) : Nat := 0x201f4 + 0x400 * i
def FCS_SS1_CFG (i : Nat) : Nat := 0x20200 + 0x400 * i
def FCS_SS1_VEL (i : Nat) : Nat := 0x20204 + 0x400 * i
def HIF_CTX_DB (i : Nat) : Nat := 0x40000 + 0x1000 * i
def HIF_CTX_CQ_HEAD (i : Nat) : Nat := 0x40004 + 0x1000 * i
def HIF_CTX_EQ_HEAD (i : Nat) : Nat := 0x40008 + 0x1000 * i
def HIF_CTX_CONS (i : Nat) : Nat := 0x4000c + 0x1000 * i
def HIF_CTX_CQ_TAIL (i : Nat) : Nat := 0x40010 + 0x1000 * i
def HIF_CTX_EQ_TAIL (i : Nat) : Nat := 0x40014 + 0x1000 * i
def HIF_CTX_INFL (i : Nat) : Nat := 0x40018 + 0x1000 * i
def HIF_CTX_STAT (i : Nat) : Nat := 0x4001c + 0x1000 * i

end Reg

namespace F

def GLB_ID_PART : Fld := ⟨Reg.GLB_ID, 15, 0⟩
def GLB_ID_REV : Fld := ⟨Reg.GLB_ID, 23, 16⟩
def GLB_ID_MAP : Fld := ⟨Reg.GLB_ID, 31, 24⟩
def GLB_CAP_AXES : Fld := ⟨Reg.GLB_CAP, 7, 0⟩
def GLB_CAP_BANKS : Fld := ⟨Reg.GLB_CAP, 11, 8⟩
def GLB_CAP_CORES : Fld := ⟨Reg.GLB_CAP, 15, 12⟩
def GLB_CAP_CONTEXTS : Fld := ⟨Reg.GLB_CAP, 23, 16⟩
def GLB_CAP_STREAMS : Fld := ⟨Reg.GLB_CAP, 27, 24⟩
def GLB_CAP_PKG : Fld := ⟨Reg.GLB_CAP, 31, 28⟩
def GLB_PORT_THIS : Fld := ⟨Reg.GLB_PORT, 0, 0⟩
def GLB_SCRATCH_DATA : Fld := ⟨Reg.GLB_SCRATCH, 31, 0⟩
def GLB_SUMMARY_DEVOFF : Fld := ⟨Reg.GLB_SUMMARY, 0, 0⟩
def GLB_SUMMARY_HELD : Fld := ⟨Reg.GLB_SUMMARY, 1, 1⟩
def GLB_SUMMARY_READY : Fld := ⟨Reg.GLB_SUMMARY, 2, 2⟩
def GLB_SUMMARY_LOCKED : Fld := ⟨Reg.GLB_SUMMARY, 3, 3⟩
def GLB_SUMMARY_HALTED : Fld := ⟨Reg.GLB_SUMMARY, 4, 4⟩
def GLB_SUMMARY_DEVFLT : Fld := ⟨Reg.GLB_SUMMARY, 5, 5⟩
def GLB_SUMMARY_BANKFLT : Fld := ⟨Reg.GLB_SUMMARY, 9, 6⟩
def GLB_SUMMARY_STO : Fld := ⟨Reg.GLB_SUMMARY, 10, 10⟩
def GLB_SUMMARY_ALERT : Fld := ⟨Reg.GLB_SUMMARY, 11, 11⟩
def GLB_SUMMARY_PSTATE : Fld := ⟨Reg.GLB_SUMMARY, 18, 16⟩
def GLB_ENERG_AXES : Fld := ⟨Reg.GLB_ENERG, 31, 0⟩
def GLB_TEMP_TJ : Fld := ⟨Reg.GLB_TEMP, 15, 0⟩
def HIF_ACC_STAT_OFF : Fld := ⟨Reg.HIF_ACC_STAT, 0, 0⟩
def HIF_ACC_STAT_MGMT : Fld := ⟨Reg.HIF_ACC_STAT, 1, 1⟩
def HIF_ACC_STAT_RANGE : Fld := ⟨Reg.HIF_ACC_STAT, 2, 2⟩
def HIF_ACC_STAT_SEQ : Fld := ⟨Reg.HIF_ACC_STAT, 31, 24⟩
def HIF_ACC_ADDR_ADDR : Fld := ⟨Reg.HIF_ACC_ADDR, 31, 0⟩
def HIF_MGMT_OWNER : Fld := ⟨Reg.HIF_MGMT, 0, 0⟩
def HIF_MGMT_HANDOVER : Fld := ⟨Reg.HIF_MGMT, 1, 1⟩
def HIF_MGMT_CLAIM : Fld := ⟨Reg.HIF_MGMT, 2, 2⟩
def HIF_MGMT_REFUSED : Fld := ⟨Reg.HIF_MGMT, 3, 3⟩
def HIF_MGMT_SEQ : Fld := ⟨Reg.HIF_MGMT, 31, 24⟩
def HIF_IND_ADDR_ADDR : Fld := ⟨Reg.HIF_IND_ADDR, 31, 2⟩
def HIF_IND_CTRL_INC : Fld := ⟨Reg.HIF_IND_CTRL, 0, 0⟩
def HIF_IND_DATA_DATA : Fld := ⟨Reg.HIF_IND_DATA, 31, 0⟩
def HIF_IND_STAT_READY : Fld := ⟨Reg.HIF_IND_STAT, 0, 0⟩
def HIF_DB_BASE_LO_BASE : Fld := ⟨Reg.HIF_DB_BASE_LO, 31, 8⟩
def HIF_DB_BASE_HI_BASE : Fld := ⟨Reg.HIF_DB_BASE_HI, 31, 0⟩
def HIF_PORT_STAT_LINK_UP : Fld := ⟨Reg.HIF_PORT_STAT, 0, 0⟩
def HIF_PORT_STAT_SPEED : Fld := ⟨Reg.HIF_PORT_STAT, 2, 1⟩
def HIF_PORT_STAT_L1 : Fld := ⟨Reg.HIF_PORT_STAT, 3, 3⟩
def HIF_PORT_STAT_LOST : Fld := ⟨Reg.HIF_PORT_STAT, 4, 4⟩
def HIF_PORT_STAT_DB_LATE : Fld := ⟨Reg.HIF_PORT_STAT, 15, 8⟩
def HIF_PORT_STAT_SEQ : Fld := ⟨Reg.HIF_PORT_STAT, 31, 24⟩
def HIF_WDOG_TIMEOUT : Fld := ⟨Reg.HIF_WDOG, 15, 0⟩
def HIF_WDOG_KICK : Fld := ⟨Reg.HIF_WDOG, 31, 31⟩
def HIF_CTX_CFG_EN (i : Nat) : Fld := ⟨Reg.HIF_CTX_CFG i, 0, 0⟩
def HIF_CTX_CFG_PORT (i : Nat) : Fld := ⟨Reg.HIF_CTX_CFG i, 1, 1⟩
def HIF_CTX_CFG_DB_MODE (i : Nat) : Fld := ⟨Reg.HIF_CTX_CFG i, 2, 2⟩
def HIF_CTX_CFG_DQ_LOG (i : Nat) : Fld := ⟨Reg.HIF_CTX_CFG i, 7, 4⟩
def HIF_CTX_CFG_CQ_LOG (i : Nat) : Fld := ⟨Reg.HIF_CTX_CFG i, 11, 8⟩
def HIF_CTX_CFG_EQ_LOG (i : Nat) : Fld := ⟨Reg.HIF_CTX_CFG i, 15, 12⟩
def HIF_CTX_CFG_FETCH_MAX (i : Nat) : Fld := ⟨Reg.HIF_CTX_CFG i, 21, 16⟩
def HIF_CTX_QUOTA_QUOTA (i : Nat) : Fld := ⟨Reg.HIF_CTX_QUOTA i, 10, 0⟩
def HIF_CTX_AXES_AXES (i : Nat) : Fld := ⟨Reg.HIF_CTX_AXES i, 31, 0⟩
def HIF_CTX_PRIV_MOTION (i : Nat) : Fld := ⟨Reg.HIF_CTX_PRIV i, 0, 0⟩
def HIF_CTX_PRIV_CONFIG (i : Nat) : Fld := ⟨Reg.HIF_CTX_PRIV i, 1, 1⟩
def HIF_CTX_PRIV_BUDGET (i : Nat) : Fld := ⟨Reg.HIF_CTX_PRIV i, 2, 2⟩
def HIF_CTX_PRIV_TELEMETRY (i : Nat) : Fld := ⟨Reg.HIF_CTX_PRIV i, 3, 3⟩
def HIF_CTX_PRIV_CALIB (i : Nat) : Fld := ⟨Reg.HIF_CTX_PRIV i, 4, 4⟩
def HIF_CTX_PRIV_LEDGER (i : Nat) : Fld := ⟨Reg.HIF_CTX_PRIV i, 5, 5⟩
def HIF_CTX_DQB_LO_BASE (i : Nat) : Fld := ⟨Reg.HIF_CTX_DQB_LO i, 31, 12⟩
def HIF_CTX_DQB_HI_BASE (i : Nat) : Fld := ⟨Reg.HIF_CTX_DQB_HI i, 31, 0⟩
def HIF_CTX_CQB_LO_BASE (i : Nat) : Fld := ⟨Reg.HIF_CTX_CQB_LO i, 31, 12⟩
def HIF_CTX_CQB_HI_BASE (i : Nat) : Fld := ⟨Reg.HIF_CTX_CQB_HI i, 31, 0⟩
def HIF_CTX_EQB_LO_BASE (i : Nat) : Fld := ⟨Reg.HIF_CTX_EQB_LO i, 31, 12⟩
def HIF_CTX_EQB_HI_BASE (i : Nat) : Fld := ⟨Reg.HIF_CTX_EQB_HI i, 31, 0⟩
def HIF_CTX_MOD_COUNT (i : Nat) : Fld := ⟨Reg.HIF_CTX_MOD i, 7, 0⟩
def HIF_CTX_MOD_TIME (i : Nat) : Fld := ⟨Reg.HIF_CTX_MOD i, 23, 8⟩
def HIF_CTX_MOD_URGENT (i : Nat) : Fld := ⟨Reg.HIF_CTX_MOD i, 24, 24⟩
def HIF_TLM_BASE_LO_BASE (i : Nat) : Fld := ⟨Reg.HIF_TLM_BASE_LO i, 31, 12⟩
def HIF_TLM_BASE_HI_BASE (i : Nat) : Fld := ⟨Reg.HIF_TLM_BASE_HI i, 31, 0⟩
def HIF_TLM_CFG_LOG (i : Nat) : Fld := ⟨Reg.HIF_TLM_CFG i, 4, 0⟩
def HIF_TLM_HEAD_HEAD (i : Nat) : Fld := ⟨Reg.HIF_TLM_HEAD i, 31, 0⟩
def HIF_TLM_TAIL_TAIL (i : Nat) : Fld := ⟨Reg.HIF_TLM_TAIL i, 31, 0⟩
def HIF_TLM_STAT_DROP (i : Nat) : Fld := ⟨Reg.HIF_TLM_STAT i, 15, 0⟩
def HIF_TLM_STAT_ACTIVE (i : Nat) : Fld := ⟨Reg.HIF_TLM_STAT i, 16, 16⟩
def TBS_FRAME_PERIOD : Fld := ⟨Reg.TBS_FRAME, 14, 0⟩
def TBS_FRAME_PROFILE : Fld := ⟨Reg.TBS_FRAME, 17, 16⟩
def TBS_FRAME_CNT_FRAME : Fld := ⟨Reg.TBS_FRAME_CNT, 31, 0⟩
def TBS_GTC_LO_GTC : Fld := ⟨Reg.TBS_GTC_LO, 31, 0⟩
def TBS_GTC_HI_GTC : Fld := ⟨Reg.TBS_GTC_HI, 31, 0⟩
def TBS_TICK_GTC_LO_GTC : Fld := ⟨Reg.TBS_TICK_GTC_LO, 31, 0⟩
def TBS_TICK_GTC_HI_GTC : Fld := ⟨Reg.TBS_TICK_GTC_HI, 31, 0⟩
def TBS_GTC_RATE_RATE : Fld := ⟨Reg.TBS_GTC_RATE, 15, 0⟩
def TBS_PTM_CTRL_EN : Fld := ⟨Reg.TBS_PTM_CTRL, 0, 0⟩
def TBS_PTM_CTRL_PORT : Fld := ⟨Reg.TBS_PTM_CTRL, 1, 1⟩
def TBS_PTM_CTRL_INTERVAL : Fld := ⟨Reg.TBS_PTM_CTRL, 15, 8⟩
def TBS_PTM_CTRL_STEP_THR : Fld := ⟨Reg.TBS_PTM_CTRL, 31, 16⟩
def TBS_PTM_STAT_LOCK : Fld := ⟨Reg.TBS_PTM_STAT, 0, 0⟩
def TBS_PTM_STAT_LOST : Fld := ⟨Reg.TBS_PTM_STAT, 1, 1⟩
def TBS_PTM_STAT_MISSED : Fld := ⟨Reg.TBS_PTM_STAT, 15, 8⟩
def TBS_PTM_STAT_SEQ : Fld := ⟨Reg.TBS_PTM_STAT, 31, 24⟩
def TBS_PTM_OFFSET_OFFSET : Fld := ⟨Reg.TBS_PTM_OFFSET, 31, 0⟩
def TBS_SYNC_CTRL_MODE : Fld := ⟨Reg.TBS_SYNC_CTRL, 1, 0⟩
def TBS_SYNC_CTRL_DELAY : Fld := ⟨Reg.TBS_SYNC_CTRL, 15, 8⟩
def TBS_SYNC_STAT_LOCK : Fld := ⟨Reg.TBS_SYNC_STAT, 0, 0⟩
def TBS_SYNC_STAT_LOST : Fld := ⟨Reg.TBS_SYNC_STAT, 1, 1⟩
def TBS_SYNC_STAT_MISMATCH : Fld := ⟨Reg.TBS_SYNC_STAT, 2, 2⟩
def TBS_SYNC_STAT_PHASE : Fld := ⟨Reg.TBS_SYNC_STAT, 15, 8⟩
def TBS_SYNC_STAT_SEQ : Fld := ⟨Reg.TBS_SYNC_STAT, 31, 24⟩
def TBS_ADMIT_HORIZON : Fld := ⟨Reg.TBS_ADMIT, 15, 0⟩
def LCS_UPD_MASK_LO_MASK : Fld := ⟨Reg.LCS_UPD_MASK_LO, 31, 0⟩
def LCS_UPD_MASK_HI_MASK : Fld := ⟨Reg.LCS_UPD_MASK_HI, 31, 0⟩
def LCS_UPD_CTRL_GO : Fld := ⟨Reg.LCS_UPD_CTRL, 0, 0⟩
def LCS_UPD_CTRL_DISCARD : Fld := ⟨Reg.LCS_UPD_CTRL, 1, 1⟩
def LCS_UPD_STAT_BUSY : Fld := ⟨Reg.LCS_UPD_STAT, 0, 0⟩
def LCS_UPD_STAT_DONE : Fld := ⟨Reg.LCS_UPD_STAT, 1, 1⟩
def LCS_UPD_STAT_REFUSED : Fld := ⟨Reg.LCS_UPD_STAT, 2, 2⟩
def LCS_UPD_STAT_REASON : Fld := ⟨Reg.LCS_UPD_STAT, 5, 4⟩
def LCS_UPD_STAT_GROUP : Fld := ⟨Reg.LCS_UPD_STAT, 13, 8⟩
def LCS_UPD_STAT_SEQ : Fld := ⟨Reg.LCS_UPD_STAT, 31, 24⟩
def LCS_UPD_PEND_LO_PEND : Fld := ⟨Reg.LCS_UPD_PEND_LO, 31, 0⟩
def LCS_UPD_PEND_HI_PEND : Fld := ⟨Reg.LCS_UPD_PEND_HI, 31, 0⟩
def LCS_UPD_LAST_FRAME : Fld := ⟨Reg.LCS_UPD_LAST, 31, 0⟩
def LCS_LOCK_MASK_LO_MASK : Fld := ⟨Reg.LCS_LOCK_MASK_LO, 31, 0⟩
def LCS_LOCK_MASK_HI_MASK : Fld := ⟨Reg.LCS_LOCK_MASK_HI, 31, 0⟩
def LCS_LOCK_CTRL_LOCK : Fld := ⟨Reg.LCS_LOCK_CTRL, 0, 0⟩
def LCS_LOCK_CTRL_UNLOCK : Fld := ⟨Reg.LCS_LOCK_CTRL, 1, 1⟩
def LCS_LOCK_CTRL_EXPECT_EN : Fld := ⟨Reg.LCS_LOCK_CTRL, 2, 2⟩
def LCS_PROOF_EXPECT_EXPECT : Fld := ⟨Reg.LCS_PROOF_EXPECT, 31, 0⟩
def LCS_PROOF_PROOF : Fld := ⟨Reg.LCS_PROOF, 31, 0⟩
def LCS_LOCK_STAT_LOCKED : Fld := ⟨Reg.LCS_LOCK_STAT, 0, 0⟩
def LCS_LOCK_STAT_REFUSED : Fld := ⟨Reg.LCS_LOCK_STAT, 1, 1⟩
def LCS_LOCK_STAT_MISMATCH : Fld := ⟨Reg.LCS_LOCK_STAT, 2, 2⟩
def LCS_LOCK_STAT_REASON : Fld := ⟨Reg.LCS_LOCK_STAT, 5, 4⟩
def LCS_LOCK_STAT_PASSES : Fld := ⟨Reg.LCS_LOCK_STAT, 15, 8⟩
def LCS_LOCK_STAT_SEQ : Fld := ⟨Reg.LCS_LOCK_STAT, 31, 24⟩
def LCS_LC_STAT_STATE : Fld := ⟨Reg.LCS_LC_STAT, 2, 0⟩
def LCS_LC_STAT_HELD : Fld := ⟨Reg.LCS_LC_STAT, 3, 3⟩
def LCS_LC_STAT_CAUSE : Fld := ⟨Reg.LCS_LC_STAT, 7, 4⟩
def LCS_LC_STAT_READY : Fld := ⟨Reg.LCS_LC_STAT, 8, 8⟩
def LCS_LC_STAT_HALTED : Fld := ⟨Reg.LCS_LC_STAT, 9, 9⟩
def LCS_RST_CAUSE_POR : Fld := ⟨Reg.LCS_RST_CAUSE, 0, 0⟩
def LCS_RST_CAUSE_PIN : Fld := ⟨Reg.LCS_RST_CAUSE, 1, 1⟩
def LCS_RST_CAUSE_CMD : Fld := ⟨Reg.LCS_RST_CAUSE, 2, 2⟩
def LCS_RST_CAUSE_FALLOW1 : Fld := ⟨Reg.LCS_RST_CAUSE, 3, 3⟩
def LCS_RST_CAUSE_TRANSIT : Fld := ⟨Reg.LCS_RST_CAUSE, 4, 4⟩
def LCS_RST_CAUSE_FALLOW0 : Fld := ⟨Reg.LCS_RST_CAUSE, 5, 5⟩
def LCS_RST_CAUSE_SEQ : Fld := ⟨Reg.LCS_RST_CAUSE, 31, 24⟩
def LCS_RST_CTRL_KEY : Fld := ⟨Reg.LCS_RST_CTRL, 15, 0⟩
def LCS_ST_RES_CORE : Fld := ⟨Reg.LCS_ST_RES, 4, 0⟩
def LCS_ST_RES_LOGIC : Fld := ⟨Reg.LCS_ST_RES, 5, 5⟩
def LCS_ST_RES_MEM : Fld := ⟨Reg.LCS_ST_RES, 6, 6⟩
def LCS_ST_RES_FCS : Fld := ⟨Reg.LCS_ST_RES, 7, 7⟩
def LCS_ST_RES_BANK : Fld := ⟨Reg.LCS_ST_RES, 11, 8⟩
def LCS_ST_RES_UNTESTED : Fld := ⟨Reg.LCS_ST_RES, 15, 12⟩
def LCS_ST_RES_CLOCK : Fld := ⟨Reg.LCS_ST_RES, 16, 16⟩
def LCS_ST_RES_STO : Fld := ⟨Reg.LCS_ST_RES, 17, 17⟩
def LCS_ST_RES_CRYPTO : Fld := ⟨Reg.LCS_ST_RES, 18, 18⟩
def LCS_ST_RES_SHORT : Fld := ⟨Reg.LCS_ST_RES, 19, 19⟩
def LCS_FW_STAT_ACT_SVN : Fld := ⟨Reg.LCS_FW_STAT, 5, 0⟩
def LCS_FW_STAT_STG_SVN : Fld := ⟨Reg.LCS_FW_STAT, 13, 8⟩
def LCS_FW_STAT_MIN_SVN : Fld := ⟨Reg.LCS_FW_STAT, 21, 16⟩
def LCS_FW_STAT_STG_VALID : Fld := ⟨Reg.LCS_FW_STAT, 24, 24⟩
def LCS_FW_STAT_MIXED : Fld := ⟨Reg.LCS_FW_STAT, 25, 25⟩
def LCS_FW_STAT_LOADING : Fld := ⟨Reg.LCS_FW_STAT, 26, 26⟩
def LCS_FW_BUILD_ACT_BUILD : Fld := ⟨Reg.LCS_FW_BUILD_ACT, 31, 0⟩
def LCS_FW_BUILD_STG_BUILD : Fld := ⟨Reg.LCS_FW_BUILD_STG, 31, 0⟩
def LCS_CORE_IMG_STG : Fld := ⟨Reg.LCS_CORE_IMG, 4, 0⟩
def LCS_DEV_ID_LO_ID : Fld := ⟨Reg.LCS_DEV_ID_LO, 31, 0⟩
def LCS_DEV_ID_HI_ID : Fld := ⟨Reg.LCS_DEV_ID_HI, 31, 0⟩
def LCS_LC_NONCE_LO_NONCE : Fld := ⟨Reg.LCS_LC_NONCE_LO, 31, 0⟩
def LCS_LC_NONCE_HI_NONCE : Fld := ⟨Reg.LCS_LC_NONCE_HI, 31, 0⟩
def LCS_DBG_CTRL_HALT : Fld := ⟨Reg.LCS_DBG_CTRL, 0, 0⟩
def LCS_DBG_CTRL_RESUME : Fld := ⟨Reg.LCS_DBG_CTRL, 1, 1⟩
def LCS_DBG_STAT_REFUSED : Fld := ⟨Reg.LCS_DBG_STAT, 0, 0⟩
def LCS_DBG_STAT_REASON : Fld := ⟨Reg.LCS_DBG_STAT, 2, 1⟩
def LCS_DBG_STAT_SEQ : Fld := ⟨Reg.LCS_DBG_STAT, 31, 24⟩
def FCS_CASCADE_CWIN : Fld := ⟨Reg.FCS_CASCADE, 13, 0⟩
def FCS_CLR_SRC : Fld := ⟨Reg.FCS_CLR, 9, 0⟩
def FCS_CLR_GO : Fld := ⟨Reg.FCS_CLR, 16, 16⟩
def FCS_CLR_ALL : Fld := ⟨Reg.FCS_CLR, 17, 17⟩
def FCS_SS1_DEM_AXES : Fld := ⟨Reg.FCS_SS1_DEM, 31, 0⟩
def FCS_STAT_DEVOFF : Fld := ⟨Reg.FCS_STAT, 0, 0⟩
def FCS_STAT_ALIVE_A : Fld := ⟨Reg.FCS_STAT, 1, 1⟩
def FCS_STAT_ALIVE_B : Fld := ⟨Reg.FCS_STAT, 2, 2⟩
def FCS_STAT_LOCKSTEP : Fld := ⟨Reg.FCS_STAT, 3, 3⟩
def FCS_STAT_CLR_REF : Fld := ⟨Reg.FCS_STAT, 4, 4⟩
def FCS_STAT_REC_OVF : Fld := ⟨Reg.FCS_STAT, 5, 5⟩
def FCS_STAT_LAST : Fld := ⟨Reg.FCS_STAT, 17, 8⟩
def FCS_STAT_SEQ : Fld := ⟨Reg.FCS_STAT, 31, 24⟩
def FCS_REC_CNT_RECS : Fld := ⟨Reg.FCS_REC_CNT, 31, 0⟩
def GDR_STO_CFG_DISC : Fld := ⟨Reg.GDR_STO_CFG, 7, 0⟩
def GDR_STO_STAT_A : Fld := ⟨Reg.GDR_STO_STAT, 0, 0⟩
def GDR_STO_STAT_B : Fld := ⟨Reg.GDR_STO_STAT, 1, 1⟩
def GDR_STO_STAT_EN : Fld := ⟨Reg.GDR_STO_STAT, 2, 2⟩
def GDR_STO_STAT_DEMAND : Fld := ⟨Reg.GDR_STO_STAT, 3, 3⟩
def GDR_STO_STAT_DISC : Fld := ⟨Reg.GDR_STO_STAT, 4, 4⟩
def GDR_STO_STAT_SEQ : Fld := ⟨Reg.GDR_STO_STAT, 31, 24⟩
def CKG_CFG_PREF : Fld := ⟨Reg.CKG_CFG, 0, 0⟩
def CKG_CFG_REC_EN : Fld := ⟨Reg.CKG_CFG, 1, 1⟩
def CKG_CFG_AUTO_RET : Fld := ⟨Reg.CKG_CFG, 2, 2⟩
def CKG_CFG_XO_BYP : Fld := ⟨Reg.CKG_CFG, 3, 3⟩
def CKG_CFG_XO_TMO : Fld := ⟨Reg.CKG_CFG, 13, 8⟩
def CKG_CLKOUT_SEL : Fld := ⟨Reg.CKG_CLKOUT, 2, 0⟩
def CKG_CLKOUT_DIV : Fld := ⟨Reg.CKG_CLKOUT, 15, 8⟩
def CKG_CTRL_XO_RESTART : Fld := ⟨Reg.CKG_CTRL, 0, 0⟩
def CKG_CTRL_RETURN : Fld := ⟨Reg.CKG_CTRL, 1, 1⟩
def CLK_STAT_REF : Fld := ⟨Reg.CLK_STAT, 1, 0⟩
def CLK_STAT_CORE : Fld := ⟨Reg.CLK_STAT, 2, 2⟩
def CLK_STAT_LOCK : Fld := ⟨Reg.CLK_STAT, 3, 3⟩
def CLK_STAT_HOLD : Fld := ⟨Reg.CLK_STAT, 4, 4⟩
def CLK_STAT_XO : Fld := ⟨Reg.CLK_STAT, 6, 5⟩
def CLK_STAT_REC : Fld := ⟨Reg.CLK_STAT, 8, 7⟩
def CLK_STAT_FORCED : Fld := ⟨Reg.CLK_STAT, 9, 9⟩
def CLK_STAT_SWITCH : Fld := ⟨Reg.CLK_STAT, 10, 10⟩
def CLK_STAT_RCF : Fld := ⟨Reg.CLK_STAT, 11, 11⟩
def CLK_STAT_SWCNT : Fld := ⟨Reg.CLK_STAT, 23, 16⟩
def CLK_STAT_SEQ : Fld := ⟨Reg.CLK_STAT, 31, 24⟩
def PMU_CFG_LAT : Fld := ⟨Reg.PMU_CFG, 23, 0⟩
def PMU_CFG_DEEPEST : Fld := ⟨Reg.PMU_CFG, 26, 24⟩
def PMU_CFG_AUTO : Fld := ⟨Reg.PMU_CFG, 27, 27⟩
def PMU_DWELL_DWELL : Fld := ⟨Reg.PMU_DWELL, 15, 0⟩
def PMU_DOM_REQ_REQ : Fld := ⟨Reg.PMU_DOM_REQ, 15, 0⟩
def PMU_DOM_STAT_PG : Fld := ⟨Reg.PMU_DOM_STAT, 15, 0⟩
def PMU_CTRL_ENTER : Fld := ⟨Reg.PMU_CTRL, 0, 0⟩
def PMU_CTRL_RESUME : Fld := ⟨Reg.PMU_CTRL, 1, 1⟩
def PMU_WAKE_AT_LO_AT : Fld := ⟨Reg.PMU_WAKE_AT_LO, 31, 0⟩
def PMU_WAKE_AT_HI_AT : Fld := ⟨Reg.PMU_WAKE_AT_HI, 31, 0⟩
def PMU_WAKE_EN_WEN : Fld := ⟨Reg.PMU_WAKE_EN, 0, 0⟩
def PMU_STAT_STATE : Fld := ⟨Reg.PMU_STAT, 2, 0⟩
def PMU_STAT_WAKE : Fld := ⟨Reg.PMU_STAT, 6, 4⟩
def PMU_STAT_ENTRY_REF : Fld := ⟨Reg.PMU_STAT, 8, 8⟩
def PMU_STAT_DOM_REF : Fld := ⟨Reg.PMU_STAT, 9, 9⟩
def PMU_STAT_PWRFAIL : Fld := ⟨Reg.PMU_STAT, 10, 10⟩
def PMU_STAT_REASON : Fld := ⟨Reg.PMU_STAT, 14, 12⟩
def PMU_STAT_SEQ : Fld := ⟨Reg.PMU_STAT, 31, 24⟩
def PMU_RESUME_T_T : Fld := ⟨Reg.PMU_RESUME_T, 31, 0⟩
def MPL_CORE_MAP_BANK0 : Fld := ⟨Reg.MPL_CORE_MAP, 2, 0⟩
def MPL_CORE_MAP_BANK1 : Fld := ⟨Reg.MPL_CORE_MAP, 6, 4⟩
def MPL_CORE_MAP_BANK2 : Fld := ⟨Reg.MPL_CORE_MAP, 10, 8⟩
def MPL_CORE_MAP_BANK3 : Fld := ⟨Reg.MPL_CORE_MAP, 14, 12⟩
def MPL_CORE_MAP_SPARE : Fld := ⟨Reg.MPL_CORE_MAP, 18, 16⟩
def MPL_CORE_MAP_FAILED : Fld := ⟨Reg.MPL_CORE_MAP, 28, 24⟩
def MPL_CFG_BIN : Fld := ⟨Reg.MPL_CFG, 1, 0⟩
def CND_CFG_EN : Fld := ⟨Reg.CND_CFG, 0, 0⟩
def CND_CFG_REPLAN : Fld := ⟨Reg.CND_CFG, 1, 1⟩
def CND_CFG_EVAL : Fld := ⟨Reg.CND_CFG, 15, 8⟩
def CND_CFG_TREND : Fld := ⟨Reg.CND_CFG, 23, 16⟩
def CND_CFG_PROP_TMO : Fld := ⟨Reg.CND_CFG, 31, 24⟩
def CND_ALIM_RDS_PCT : Fld := ⟨Reg.CND_ALIM, 7, 0⟩
def CND_ALIM_RC_PCT : Fld := ⟨Reg.CND_ALIM, 15, 8⟩
def CND_ALIM_BST_LIM : Fld := ⟨Reg.CND_ALIM, 23, 16⟩
def CND_ALIM_AGE_LIM : Fld := ⟨Reg.CND_ALIM, 31, 24⟩
def CND_CTRL_REBASE : Fld := ⟨Reg.CND_CTRL, 0, 0⟩
def CND_APPROVE_IDX : Fld := ⟨Reg.CND_APPROVE, 3, 0⟩
def CND_APPROVE_DECLINE : Fld := ⟨Reg.CND_APPROVE, 4, 4⟩
def CND_APPROVE_GO : Fld := ⟨Reg.CND_APPROVE, 5, 5⟩
def CND_APPROVE_NUM : Fld := ⟨Reg.CND_APPROVE, 31, 16⟩
def CND_STAT_ALERT : Fld := ⟨Reg.CND_STAT, 0, 0⟩
def CND_STAT_GAP : Fld := ⟨Reg.CND_STAT, 1, 1⟩
def CND_STAT_APR_REF : Fld := ⟨Reg.CND_STAT, 2, 2⟩
def CND_STAT_SUPP : Fld := ⟨Reg.CND_STAT, 3, 3⟩
def CND_STAT_PROPS : Fld := ⟨Reg.CND_STAT, 15, 8⟩
def CND_STAT_QUEUE : Fld := ⟨Reg.CND_STAT, 23, 16⟩
def CND_STAT_SEQ : Fld := ⟨Reg.CND_STAT, 31, 24⟩
def CND_DXC_CTRL_GO : Fld := ⟨Reg.CND_DXC_CTRL, 0, 0⟩
def CND_DXC_CTRL_DONE : Fld := ⟨Reg.CND_DXC_CTRL, 1, 1⟩
def CND_DXC_CTRL_SEQ : Fld := ⟨Reg.CND_DXC_CTRL, 31, 24⟩
def CND_DXC_NONCE_NONCE (i : Nat) : Fld := ⟨Reg.CND_DXC_NONCE i, 31, 0⟩
def CND_LKEY_KEY (i : Nat) : Fld := ⟨Reg.CND_LKEY i, 31, 0⟩
def CND_PROP_OFS_OFS (i : Nat) : Fld := ⟨Reg.CND_PROP_OFS i, 31, 0⟩
def CND_PROP_VAL_VAL (i : Nat) : Fld := ⟨Reg.CND_PROP_VAL i, 31, 0⟩
def CND_PROP_INFO_NUM (i : Nat) : Fld := ⟨Reg.CND_PROP_INFO i, 15, 0⟩
def CND_PROP_INFO_APPROVED (i : Nat) : Fld := ⟨Reg.CND_PROP_INFO i, 16, 16⟩
def FCS_SRC_CFG_SCOPE (i : Nat) : Fld := ⟨Reg.FCS_SRC_CFG i, 2, 0⟩
def FCS_SRC_CFG_N (i : Nat) : Fld := ⟨Reg.FCS_SRC_CFG i, 11, 4⟩
def FCS_SRC_CFG_ALV (i : Nat) : Fld := ⟨Reg.FCS_SRC_CFG i, 12, 12⟩
def FCS_SRC_CFG_RPT (i : Nat) : Fld := ⟨Reg.FCS_SRC_CFG i, 13, 13⟩
def FCS_SRC_WIN_W (i : Nat) : Fld := ⟨Reg.FCS_SRC_WIN i, 31, 0⟩
def FCS_SRC_STAT_COUNT (i : Nat) : Fld := ⟨Reg.FCS_SRC_STAT i, 7, 0⟩
def FCS_SRC_STAT_SEVERE (i : Nat) : Fld := ⟨Reg.FCS_SRC_STAT i, 8, 8⟩
def FCS_SRC_STAT_ACTIVE (i : Nat) : Fld := ⟨Reg.FCS_SRC_STAT i, 9, 9⟩
def FCS_SRC_STAT_SEC (i : Nat) : Fld := ⟨Reg.FCS_SRC_STAT i, 10, 10⟩
def FCS_SRC_STAT_TOTAL (i : Nat) : Fld := ⟨Reg.FCS_SRC_STAT i, 23, 16⟩
def MPL_BUDGET_LIM_LIM (i : Nat) : Fld := ⟨Reg.MPL_BUDGET_LIM i, 23, 0⟩
def MPL_VCALC_VCALC (i : Nat) : Fld := ⟨Reg.MPL_VCALC i, 16, 0⟩
def MPL_P0_P0 (i : Nat) : Fld := ⟨Reg.MPL_P0 i, 15, 0⟩
def MPL_BUDGET_BUDGET (i : Nat) : Fld := ⟨Reg.MPL_BUDGET i, 23, 0⟩
def MPL_DRAW_DRAW (i : Nat) : Fld := ⟨Reg.MPL_DRAW i, 23, 0⟩
def MPL_PEAK_PEAK (i : Nat) : Fld := ⟨Reg.MPL_PEAK i, 23, 0⟩
def MPL_CURT_STAT_ACTIVE (i : Nat) : Fld := ⟨Reg.MPL_CURT_STAT i, 0, 0⟩
def MPL_CURT_STAT_STARTED (i : Nat) : Fld := ⟨Reg.MPL_CURT_STAT i, 1, 1⟩
def MPL_CURT_STAT_COUNT (i : Nat) : Fld := ⟨Reg.MPL_CURT_STAT i, 15, 8⟩
def MPL_CURT_STAT_SEQ (i : Nat) : Fld := ⟨Reg.MPL_CURT_STAT i, 31, 24⟩
def GDR_DRV_ISRC (i : Nat) : Fld := ⟨Reg.GDR_DRV i, 2, 0⟩
def GDR_DRV_ISNK (i : Nat) : Fld := ⟨Reg.GDR_DRV i, 6, 4⟩
def GDR_SOFT_LEVEL (i : Nat) : Fld := ⟨Reg.GDR_SOFT i, 3, 0⟩
def GDR_SOFT_DUR (i : Nat) : Fld := ⟨Reg.GDR_SOFT i, 7, 4⟩
def GDR_OC_OCTH (i : Nat) : Fld := ⟨Reg.GDR_OC i, 7, 0⟩
def GDR_OC_OC_FILT (i : Nat) : Fld := ⟨Reg.GDR_OC i, 15, 8⟩
def GDR_VDS_VDSTH (i : Nat) : Fld := ⟨Reg.GDR_VDS i, 7, 0⟩
def GDR_VDS_VBLANK (i : Nat) : Fld := ⟨Reg.GDR_VDS i, 15, 8⟩
def GDR_DIDT_THR (i : Nat) : Fld := ⟨Reg.GDR_DIDT i, 5, 0⟩
def GDR_DIDT_FILT (i : Nat) : Fld := ⟨Reg.GDR_DIDT i, 11, 8⟩
def GDR_DIDT_EN (i : Nat) : Fld := ⟨Reg.GDR_DIDT i, 15, 15⟩
def GDR_DIDT_BLANK (i : Nat) : Fld := ⟨Reg.GDR_DIDT i, 23, 16⟩
def GDR_VMS_BRK_ON (i : Nat) : Fld := ⟨Reg.GDR_VMS_BRK i, 9, 0⟩
def GDR_VMS_BRK_OFF (i : Nat) : Fld := ⟨Reg.GDR_VMS_BRK i, 25, 16⟩
def GDR_VMS_LIM_OV (i : Nat) : Fld := ⟨Reg.GDR_VMS_LIM i, 9, 0⟩
def GDR_VMS_LIM_UV (i : Nat) : Fld := ⟨Reg.GDR_VMS_LIM i, 25, 16⟩
def GDR_BRK_CFG_MAXON (i : Nat) : Fld := ⟨Reg.GDR_BRK_CFG i, 15, 0⟩
def GDR_TRIP_CFG_FILTA (i : Nat) : Fld := ⟨Reg.GDR_TRIP_CFG i, 7, 0⟩
def GDR_TRIP_CFG_POLA (i : Nat) : Fld := ⟨Reg.GDR_TRIP_CFG i, 8, 8⟩
def GDR_TRIP_CFG_MODEA (i : Nat) : Fld := ⟨Reg.GDR_TRIP_CFG i, 9, 9⟩
def GDR_TRIP_CFG_ENA (i : Nat) : Fld := ⟨Reg.GDR_TRIP_CFG i, 10, 10⟩
def GDR_TRIP_CFG_FILTB (i : Nat) : Fld := ⟨Reg.GDR_TRIP_CFG i, 23, 16⟩
def GDR_TRIP_CFG_POLB (i : Nat) : Fld := ⟨Reg.GDR_TRIP_CFG i, 24, 24⟩
def GDR_TRIP_CFG_MODEB (i : Nat) : Fld := ⟨Reg.GDR_TRIP_CFG i, 25, 25⟩
def GDR_TRIP_CFG_ENB (i : Nat) : Fld := ⟨Reg.GDR_TRIP_CFG i, 26, 26⟩
def GDR_NTC_RNOM (i : Nat) : Fld := ⟨Reg.GDR_NTC i, 15, 0⟩
def GDR_NTC_BETA (i : Nat) : Fld := ⟨Reg.GDR_NTC i, 31, 16⟩
def GDR_NTC_LIM_OT (i : Nat) : Fld := ⟨Reg.GDR_NTC_LIM i, 15, 0⟩
def GDR_NTC_LIM_EN (i : Nat) : Fld := ⟨Reg.GDR_NTC_LIM i, 16, 16⟩
def GDR_TEMP_TEMP (i : Nat) : Fld := ⟨Reg.GDR_TEMP i, 15, 0⟩
def GDR_VMS_VM (i : Nat) : Fld := ⟨Reg.GDR_VMS i, 9, 0⟩
def GDR_VMS_BRK (i : Nat) : Fld := ⟨Reg.GDR_VMS i, 10, 10⟩
def GDR_VMS_OV (i : Nat) : Fld := ⟨Reg.GDR_VMS i, 11, 11⟩
def GDR_VMS_UV (i : Nat) : Fld := ⟨Reg.GDR_VMS i, 12, 12⟩
def GDR_VMS_MAXON (i : Nat) : Fld := ⟨Reg.GDR_VMS i, 13, 13⟩
def GDR_VMS_BRKCNT (i : Nat) : Fld := ⟨Reg.GDR_VMS i, 23, 16⟩
def GDR_VMS_SEQ (i : Nat) : Fld := ⟨Reg.GDR_VMS i, 31, 24⟩
def GDR_STAT_OC (i : Nat) : Fld := ⟨Reg.GDR_STAT i, 0, 0⟩
def GDR_STAT_DIDT (i : Nat) : Fld := ⟨Reg.GDR_STAT i, 1, 1⟩
def GDR_STAT_BST (i : Nat) : Fld := ⟨Reg.GDR_STAT i, 2, 2⟩
def GDR_STAT_VDS (i : Nat) : Fld := ⟨Reg.GDR_STAT i, 3, 3⟩
def GDR_STAT_GATE (i : Nat) : Fld := ⟨Reg.GDR_STAT i, 4, 4⟩
def GDR_STAT_ILK (i : Nat) : Fld := ⟨Reg.GDR_STAT i, 5, 5⟩
def GDR_STAT_TRIPA (i : Nat) : Fld := ⟨Reg.GDR_STAT i, 6, 6⟩
def GDR_STAT_TRIPB (i : Nat) : Fld := ⟨Reg.GDR_STAT i, 7, 7⟩
def GDR_STAT_VGUV (i : Nat) : Fld := ⟨Reg.GDR_STAT i, 8, 8⟩
def GDR_STAT_OT (i : Nat) : Fld := ⟨Reg.GDR_STAT i, 9, 9⟩
def GDR_STAT_EDGE (i : Nat) : Fld := ⟨Reg.GDR_STAT i, 10, 10⟩
def GDR_STAT_LAST_H (i : Nat) : Fld := ⟨Reg.GDR_STAT i, 22, 16⟩
def GDR_STAT_SEQ (i : Nat) : Fld := ⟨Reg.GDR_STAT i, 31, 24⟩
def PWM_DT_LIM_FLOOR (i : Nat) : Fld := ⟨Reg.PWM_DT_LIM i, 8, 0⟩
def PWM_DT_LIM_GUARD (i : Nat) : Fld := ⟨Reg.PWM_DT_LIM i, 23, 16⟩
def PWM_NOTCH_EN (i : Nat) : Fld := ⟨Reg.PWM_NOTCH i, 0, 0⟩
def PWM_NOTCH_EVERY (i : Nat) : Fld := ⟨Reg.PWM_NOTCH i, 6, 1⟩
def PWM_MINP_MINP (i : Nat) : Fld := ⟨Reg.PWM_MINP i, 7, 0⟩
def PWM_OLEN_OLEN (i : Nat) : Fld := ⟨Reg.PWM_OLEN i, 7, 0⟩
def PWM_STAT_SPLIT (i : Nat) : Fld := ⟨Reg.PWM_STAT i, 0, 0⟩
def PWM_STAT_BOTH (i : Nat) : Fld := ⟨Reg.PWM_STAT i, 1, 1⟩
def PWM_STAT_FREJ (i : Nat) : Fld := ⟨Reg.PWM_STAT i, 2, 2⟩
def PWM_STAT_LAST_H (i : Nat) : Fld := ⟨Reg.PWM_STAT i, 14, 8⟩
def PWM_STAT_SEQ (i : Nat) : Fld := ⟨Reg.PWM_STAT i, 31, 24⟩
def ADC_ROT_REST (i : Nat) : Fld := ⟨Reg.ADC_ROT i, 2, 0⟩
def ADC_ROT_INSVC (i : Nat) : Fld := ⟨Reg.ADC_ROT i, 12, 8⟩
def ADC_ROT_FAILED (i : Nat) : Fld := ⟨Reg.ADC_ROT i, 20, 16⟩
def ADC_STAT_CLIP (i : Nat) : Fld := ⟨Reg.ADC_STAT i, 0, 0⟩
def ADC_STAT_SLICE (i : Nat) : Fld := ⟨Reg.ADC_STAT i, 1, 1⟩
def ADC_STAT_OWT_DONE (i : Nat) : Fld := ⟨Reg.ADC_STAT i, 2, 2⟩
def ADC_STAT_INJDROP (i : Nat) : Fld := ⟨Reg.ADC_STAT i, 23, 8⟩
def ADC_STAT_SEQ (i : Nat) : Fld := ⟨Reg.ADC_STAT i, 31, 24⟩
def ADC_OWT_GO (i : Nat) : Fld := ⟨Reg.ADC_OWT i, 0, 0⟩
def ADC_OWT_STAT_OPEN (i : Nat) : Fld := ⟨Reg.ADC_OWT_STAT i, 15, 0⟩
def ADC_OWT_STAT_SKIP (i : Nat) : Fld := ⟨Reg.ADC_OWT_STAT i, 31, 16⟩
def CND_MARG_DTM (i : Nat) : Fld := ⟨Reg.CND_MARG i, 7, 0⟩
def CND_MARG_FRM (i : Nat) : Fld := ⟨Reg.CND_MARG i, 15, 8⟩
def CND_MARG_LINK_MIN (i : Nat) : Fld := ⟨Reg.CND_MARG i, 23, 16⟩
def CND_MARG_HYS_D (i : Nat) : Fld := ⟨Reg.CND_MARG i, 31, 24⟩
def CND_DER_CFG_TKNEE (i : Nat) : Fld := ⟨Reg.CND_DER_CFG i, 7, 0⟩
def CND_DER_CFG_DSLOPE (i : Nat) : Fld := ⟨Reg.CND_DER_CFG i, 15, 8⟩
def CND_DER_CFG_DER_MIN (i : Nat) : Fld := ⟨Reg.CND_DER_CFG i, 26, 16⟩
def CND_BRK_RBRK (i : Nat) : Fld := ⟨Reg.CND_BRK i, 15, 0⟩
def CND_BRK_ESR_REF (i : Nat) : Fld := ⟨Reg.CND_BRK i, 31, 16⟩
def CND_DER_DER (i : Nat) : Fld := ⟨Reg.CND_DER i, 10, 0⟩
def CND_CAL_CALINT (i : Nat) : Fld := ⟨Reg.CND_CAL i, 15, 0⟩
def CND_CAL_CALMAX (i : Nat) : Fld := ⟨Reg.CND_CAL i, 31, 16⟩
def ADC_SLC_OG_OFS (i : Nat) : Fld := ⟨Reg.ADC_SLC_OG i, 15, 0⟩
def ADC_SLC_OG_GERR (i : Nat) : Fld := ⟨Reg.ADC_SLC_OG i, 31, 16⟩
def ADC_SLC_SK_SKEW (i : Nat) : Fld := ⟨Reg.ADC_SLC_SK i, 7, 0⟩
def ADC_SLC_SK_AGE (i : Nat) : Fld := ⟨Reg.ADC_SLC_SK i, 31, 16⟩
def ADC_CS_SHUNT (i : Nat) : Fld := ⟨Reg.ADC_CS i, 15, 0⟩
def ADC_CS_GAIN (i : Nat) : Fld := ⟨Reg.ADC_CS i, 17, 16⟩
def ADC_SYNC_RESULT (i : Nat) : Fld := ⟨Reg.ADC_SYNC i, 31, 0⟩
def ADC_SEQ_SRC (i : Nat) : Fld := ⟨Reg.ADC_SEQ i, 5, 0⟩
def ADC_SEQ_EN (i : Nat) : Fld := ⟨Reg.ADC_SEQ i, 6, 6⟩
def ADC_SEQ_FMT (i : Nat) : Fld := ⟨Reg.ADC_SEQ i, 7, 7⟩
def ADC_SEQ_SMP (i : Nat) : Fld := ⟨Reg.ADC_SEQ i, 12, 8⟩
def ADC_SEQ_GAIN (i : Nat) : Fld := ⟨Reg.ADC_SEQ i, 14, 13⟩
def ADC_SEQ_FLT (i : Nat) : Fld := ⟨Reg.ADC_SEQ i, 17, 16⟩
def ADC_AUX_RESULT (i : Nat) : Fld := ⟨Reg.ADC_AUX i, 31, 0⟩
def PWM_CMP_CMP (i : Nat) : Fld := ⟨Reg.PWM_CMP i, 19, 0⟩
def PWM_CMP_SAT (i : Nat) : Fld := ⟨Reg.PWM_CMP i, 20, 20⟩
def PWM_CMP_HIZ (i : Nat) : Fld := ⟨Reg.PWM_CMP i, 21, 21⟩
def PWM_CMP_BOTH (i : Nat) : Fld := ⟨Reg.PWM_CMP i, 22, 22⟩
def PWM_SHD_SHD (i : Nat) : Fld := ⟨Reg.PWM_SHD i, 19, 0⟩
def PWM_DT_DT_INT (i : Nat) : Fld := ⟨Reg.PWM_DT i, 8, 0⟩
def PWM_DT_DT_FRAC (i : Nat) : Fld := ⟨Reg.PWM_DT i, 13, 9⟩
def PWM_DT_ADAPT (i : Nat) : Fld := ⟨Reg.PWM_DT i, 14, 14⟩
def PWM_DT_MEAS_HOFF (i : Nat) : Fld := ⟨Reg.PWM_DT_MEAS i, 15, 0⟩
def PWM_DT_MEAS_LOFF (i : Nat) : Fld := ⟨Reg.PWM_DT_MEAS i, 31, 16⟩
def PWM_OLH_HCMP (i : Nat) : Fld := ⟨Reg.PWM_OLH i, 19, 0⟩
def PWM_OLL_LCMP (i : Nat) : Fld := ⟨Reg.PWM_OLL i, 19, 0⟩
def PWM_OLL_INDEP (i : Nat) : Fld := ⟨Reg.PWM_OLL i, 31, 31⟩
def PWM_FORCE_HON (i : Nat) : Fld := ⟨Reg.PWM_FORCE i, 0, 0⟩
def PWM_FORCE_LON (i : Nat) : Fld := ⟨Reg.PWM_FORCE i, 1, 1⟩
def PWM_FORCE_EN (i : Nat) : Fld := ⟨Reg.PWM_FORCE i, 2, 2⟩
def GDR_MEAS_BST (i : Nat) : Fld := ⟨Reg.GDR_MEAS i, 7, 0⟩
def GDR_MEAS_VDSH (i : Nat) : Fld := ⟨Reg.GDR_MEAS i, 15, 8⟩
def GDR_MEAS_VDSL (i : Nat) : Fld := ⟨Reg.GDR_MEAS i, 23, 16⟩
def GDR_MEAS_TRIPS (i : Nat) : Fld := ⟨Reg.GDR_MEAS i, 31, 24⟩
def MPL_VMAX_VMAX (i : Nat) : Fld := ⟨Reg.MPL_VMAX i, 31, 0⟩
def MPL_AMAX_AMAX (i : Nat) : Fld := ⟨Reg.MPL_AMAX i, 31, 0⟩
def MPL_DMAX_DMAX (i : Nat) : Fld := ⟨Reg.MPL_DMAX i, 31, 0⟩
def MPL_JMAX_JMAX (i : Nat) : Fld := ⟨Reg.MPL_JMAX i, 31, 0⟩
def MPL_EMAX_EMAX (i : Nat) : Fld := ⟨Reg.MPL_EMAX i, 31, 0⟩
def MPL_FMAX_FMAX (i : Nat) : Fld := ⟨Reg.MPL_FMAX i, 15, 0⟩
def MPL_FMAX_IMAX (i : Nat) : Fld := ⟨Reg.MPL_FMAX i, 31, 16⟩
def MPL_HDEC_HDEC (i : Nat) : Fld := ⟨Reg.MPL_HDEC i, 31, 0⟩
def MPL_HJERK_HJERK (i : Nat) : Fld := ⟨Reg.MPL_HJERK i, 31, 0⟩
def MPL_REV_DIST_REV_DIST (i : Nat) : Fld := ⟨Reg.MPL_REV_DIST i, 31, 0⟩
def MPL_REV_VEL_REV_VEL (i : Nat) : Fld := ⟨Reg.MPL_REV_VEL i, 31, 0⟩
def MPL_REV_CFG_PARTNER (i : Nat) : Fld := ⟨Reg.MPL_REV_CFG i, 4, 0⟩
def MPL_REV_CFG_PEN (i : Nat) : Fld := ⟨Reg.MPL_REV_CFG i, 5, 5⟩
def MPL_SCALE_SCALE (i : Nat) : Fld := ⟨Reg.MPL_SCALE i, 31, 0⟩
def MPL_TRAVEL_MIN_LO_MIN (i : Nat) : Fld := ⟨Reg.MPL_TRAVEL_MIN_LO i, 31, 0⟩
def MPL_TRAVEL_MIN_HI_MIN (i : Nat) : Fld := ⟨Reg.MPL_TRAVEL_MIN_HI i, 31, 0⟩
def MPL_TRAVEL_MAX_LO_MAX (i : Nat) : Fld := ⟨Reg.MPL_TRAVEL_MAX_LO i, 31, 0⟩
def MPL_TRAVEL_MAX_HI_MAX (i : Nat) : Fld := ⟨Reg.MPL_TRAVEL_MAX_HI i, 31, 0⟩
def MPL_MASS_MASS (i : Nat) : Fld := ⟨Reg.MPL_MASS i, 23, 0⟩
def MPL_KF_KF (i : Nat) : Fld := ⟨Reg.MPL_KF i, 31, 0⟩
def MPL_FRIC_FRIC (i : Nat) : Fld := ⟨Reg.MPL_FRIC i, 15, 0⟩
def MPL_FRIC_FLOOR (i : Nat) : Fld := ⟨Reg.MPL_FRIC i, 31, 16⟩
def MPL_IHOLD_IHOLD (i : Nat) : Fld := ⟨Reg.MPL_IHOLD i, 15, 0⟩
def MPL_FOLLOW_LAG (i : Nat) : Fld := ⟨Reg.MPL_FOLLOW i, 31, 0⟩
def MPL_STAT_STATE (i : Nat) : Fld := ⟨Reg.MPL_STAT i, 2, 0⟩
def MPL_STAT_HOMED (i : Nat) : Fld := ⟨Reg.MPL_STAT i, 3, 3⟩
def MPL_STAT_CLAMP (i : Nat) : Fld := ⟨Reg.MPL_STAT i, 4, 4⟩
def MPL_STAT_GALLEY (i : Nat) : Fld := ⟨Reg.MPL_STAT i, 13, 8⟩
def CLP_CTRL_MODE (i : Nat) : Fld := ⟨Reg.CLP_CTRL i, 0, 0⟩
def CLP_CTRL_COMM_OFF (i : Nat) : Fld := ⟨Reg.CLP_CTRL i, 31, 16⟩
def CLP_ILOOP_BWI (i : Nat) : Fld := ⟨Reg.CLP_ILOOP i, 12, 0⟩
def CLP_VLOOP_KPV (i : Nat) : Fld := ⟨Reg.CLP_VLOOP i, 15, 0⟩
def CLP_VLOOP_KIV (i : Nat) : Fld := ⟨Reg.CLP_VLOOP i, 31, 16⟩
def CLP_PLOOP_KPP (i : Nat) : Fld := ⟨Reg.CLP_PLOOP i, 15, 0⟩
def CLP_FERR_FERR (i : Nat) : Fld := ⟨Reg.CLP_FERR i, 31, 0⟩
def CLP_KE_KE (i : Nat) : Fld := ⟨Reg.CLP_KE i, 15, 0⟩
def CLP_DETENT_A2 (i : Nat) : Fld := ⟨Reg.CLP_DETENT i, 7, 0⟩
def CLP_DETENT_PH2 (i : Nat) : Fld := ⟨Reg.CLP_DETENT i, 15, 8⟩
def CLP_DETENT_A4 (i : Nat) : Fld := ⟨Reg.CLP_DETENT i, 23, 16⟩
def CLP_DETENT_PH4 (i : Nat) : Fld := ⟨Reg.CLP_DETENT i, 31, 24⟩
def CLP_IMS_IMS (i : Nat) : Fld := ⟨Reg.CLP_IMS i, 15, 0⟩
def CLP_ID_CFG_IID (i : Nat) : Fld := ⟨Reg.CLP_ID_CFG i, 15, 0⟩
def CLP_STAT_VSAT (i : Nat) : Fld := ⟨Reg.CLP_STAT i, 0, 0⟩
def CLP_STAT_ILIM (i : Nat) : Fld := ⟨Reg.CLP_STAT i, 1, 1⟩
def CLP_STAT_MISS (i : Nat) : Fld := ⟨Reg.CLP_STAT i, 2, 2⟩
def CLP_STAT_MISSCNT (i : Nat) : Fld := ⟨Reg.CLP_STAT i, 15, 8⟩
def CLP_STAT_SEQ (i : Nat) : Fld := ⟨Reg.CLP_STAT i, 31, 24⟩
def CLP_RL_RES (i : Nat) : Fld := ⟨Reg.CLP_RL i, 15, 0⟩
def CLP_RL_IND (i : Nat) : Fld := ⟨Reg.CLP_RL i, 31, 16⟩
def CLP_ID_RES (i : Nat) : Fld := ⟨Reg.CLP_ID i, 15, 0⟩
def CLP_ID_IND (i : Nat) : Fld := ⟨Reg.CLP_ID i, 31, 16⟩
def LES_CFG_AVG (i : Nat) : Fld := ⟨Reg.LES_CFG i, 2, 0⟩
def LES_CFG_OBS_N (i : Nat) : Fld := ⟨Reg.LES_CFG i, 6, 4⟩
def LES_CFG_PLL_BW (i : Nat) : Fld := ⟨Reg.LES_CFG i, 15, 8⟩
def LES_CFG_PL_N (i : Nat) : Fld := ⟨Reg.LES_CFG i, 23, 16⟩
def LES_CFG_ACQ (i : Nat) : Fld := ⟨Reg.LES_CFG i, 31, 24⟩
def LES_VMIN_VMIN (i : Nat) : Fld := ⟨Reg.LES_VMIN i, 31, 0⟩
def LES_PLAUS_TOL (i : Nat) : Fld := ⟨Reg.LES_PLAUS i, 15, 0⟩
def LES_PLAUS_LOW_TOL (i : Nat) : Fld := ⟨Reg.LES_PLAUS i, 31, 16⟩
def LES_STALL_EMF_PCT (i : Nat) : Fld := ⟨Reg.LES_STALL i, 7, 0⟩
def LES_STALL_STALL_N (i : Nat) : Fld := ⟨Reg.LES_STALL i, 15, 8⟩
def LES_STALL_ANG (i : Nat) : Fld := ⟨Reg.LES_STALL i, 31, 16⟩
def LES_BLOCK_BERR (i : Nat) : Fld := ⟨Reg.LES_BLOCK i, 23, 0⟩
def LES_BLOCK_BLK_N (i : Nat) : Fld := ⟨Reg.LES_BLOCK i, 31, 24⟩
def LES_SL_ISL (i : Nat) : Fld := ⟨Reg.LES_SL i, 15, 0⟩
def LES_STAT_VALID (i : Nat) : Fld := ⟨Reg.LES_STAT i, 0, 0⟩
def LES_STAT_FVALID (i : Nat) : Fld := ⟨Reg.LES_STAT i, 1, 1⟩
def LES_STAT_LOWSPD (i : Nat) : Fld := ⟨Reg.LES_STAT i, 2, 2⟩
def LES_STAT_BOUND (i : Nat) : Fld := ⟨Reg.LES_STAT i, 3, 3⟩
def LES_STAT_STALL (i : Nat) : Fld := ⟨Reg.LES_STAT i, 4, 4⟩
def LES_STAT_OBS (i : Nat) : Fld := ⟨Reg.LES_STAT i, 5, 5⟩
def LES_STAT_PLAUS (i : Nat) : Fld := ⟨Reg.LES_STAT i, 6, 6⟩
def LES_STAT_OBSCNT (i : Nat) : Fld := ⟨Reg.LES_STAT i, 15, 8⟩
def LES_STAT_SEQ (i : Nat) : Fld := ⟨Reg.LES_STAT i, 31, 24⟩
def LES_FORCE_FX (i : Nat) : Fld := ⟨Reg.LES_FORCE i, 31, 0⟩
def LES_LOAD_DELTA (i : Nat) : Fld := ⟨Reg.LES_LOAD i, 15, 0⟩
def LES_LOAD_LOAD (i : Nat) : Fld := ⟨Reg.LES_LOAD i, 23, 16⟩
def LES_EST_LO_EST (i : Nat) : Fld := ⟨Reg.LES_EST_LO i, 31, 0⟩
def LES_EST_HI_EST (i : Nat) : Fld := ⟨Reg.LES_EST_HI i, 31, 0⟩
def LES_DIFF_DIFF (i : Nat) : Fld := ⟨Reg.LES_DIFF i, 31, 0⟩
def FBK_CFG_MODE (i : Nat) : Fld := ⟨Reg.FBK_CFG i, 1, 0⟩
def FBK_CFG_INV (i : Nat) : Fld := ⟨Reg.FBK_CFG i, 2, 2⟩
def FBK_CFG_FILT (i : Nat) : Fld := ⟨Reg.FBK_CFG i, 5, 3⟩
def FBK_CFG_ERR_N (i : Nat) : Fld := ⟨Reg.FBK_CFG i, 15, 8⟩
def FBK_CFG_AVG (i : Nat) : Fld := ⟨Reg.FBK_CFG i, 18, 16⟩
def FBK_CFG_STEP_SRC (i : Nat) : Fld := ⟨Reg.FBK_CFG i, 26, 24⟩
def FBK_CFG_STEP_POL (i : Nat) : Fld := ⟨Reg.FBK_CFG i, 28, 28⟩
def FBK_CFG_ENA_EN (i : Nat) : Fld := ⟨Reg.FBK_CFG i, 29, 29⟩
def FBK_CFG_ENA_POL (i : Nat) : Fld := ⟨Reg.FBK_CFG i, 30, 30⟩
def FBK_CFG_CMP_OUT (i : Nat) : Fld := ⟨Reg.FBK_CFG i, 31, 31⟩
def FBK_RATIO_RATIO (i : Nat) : Fld := ⟨Reg.FBK_RATIO i, 31, 0⟩
def FBK_OFS_LO_OFFSET (i : Nat) : Fld := ⟨Reg.FBK_OFS_LO i, 31, 0⟩
def FBK_OFS_HI_OFFSET (i : Nat) : Fld := ⟨Reg.FBK_OFS_HI i, 31, 0⟩
def FBK_SER_CFG_PER (i : Nat) : Fld := ⟨Reg.FBK_SER_CFG i, 9, 0⟩
def FBK_SER_CFG_POSLEN (i : Nat) : Fld := ⟨Reg.FBK_SER_CFG i, 15, 10⟩
def FBK_SER_CFG_CRCLEN (i : Nat) : Fld := ⟨Reg.FBK_SER_CFG i, 20, 16⟩
def FBK_SER_CFG_CRCINV (i : Nat) : Fld := ⟨Reg.FBK_SER_CFG i, 21, 21⟩
def FBK_SER_CFG_TIMEOUT (i : Nat) : Fld := ⟨Reg.FBK_SER_CFG i, 31, 24⟩
def FBK_SER_CRC_POLY (i : Nat) : Fld := ⟨Reg.FBK_SER_CRC i, 15, 0⟩
def FBK_SER_CRC_SEED (i : Nat) : Fld := ⟨Reg.FBK_SER_CRC i, 31, 16⟩
def FBK_SER_TIM_LEAD (i : Nat) : Fld := ⟨Reg.FBK_SER_TIM i, 11, 0⟩
def FBK_SER_TIM_DE_LEAD (i : Nat) : Fld := ⟨Reg.FBK_SER_TIM i, 15, 12⟩
def FBK_SER_TIM_PER_MAX (i : Nat) : Fld := ⟨Reg.FBK_SER_TIM i, 25, 16⟩
def FBK_SER_TIM_RQ (i : Nat) : Fld := ⟨Reg.FBK_SER_TIM i, 29, 26⟩
def FBK_IDX_CFG_TOL (i : Nat) : Fld := ⟨Reg.FBK_IDX_CFG i, 15, 0⟩
def FBK_IDX_CFG_EN (i : Nat) : Fld := ⟨Reg.FBK_IDX_CFG i, 16, 16⟩
def FBK_IDX_CFG_GATE (i : Nat) : Fld := ⟨Reg.FBK_IDX_CFG i, 17, 17⟩
def FBK_IDX_CFG_FIX (i : Nat) : Fld := ⟨Reg.FBK_IDX_CFG i, 18, 18⟩
def FBK_IDX_PER_PERIOD (i : Nat) : Fld := ⟨Reg.FBK_IDX_PER i, 31, 0⟩
def FBK_IDX_POS_PHASE0 (i : Nat) : Fld := ⟨Reg.FBK_IDX_POS i, 31, 0⟩
def FBK_SPD_SST (i : Nat) : Fld := ⟨Reg.FBK_SPD i, 15, 0⟩
def FBK_POS_LO_POS (i : Nat) : Fld := ⟨Reg.FBK_POS_LO i, 31, 0⟩
def FBK_POS_HI_POS (i : Nat) : Fld := ⟨Reg.FBK_POS_HI i, 31, 0⟩
def FBK_ADJ_LO_ADJ (i : Nat) : Fld := ⟨Reg.FBK_ADJ_LO i, 31, 0⟩
def FBK_ADJ_HI_ADJ (i : Nat) : Fld := ⟨Reg.FBK_ADJ_HI i, 31, 0⟩
def FBK_SPEED_SPEED (i : Nat) : Fld := ⟨Reg.FBK_SPEED i, 31, 0⟩
def FBK_STEP_STEP (i : Nat) : Fld := ⟨Reg.FBK_STEP i, 31, 0⟩
def FBK_LINK_LD (i : Nat) : Fld := ⟨Reg.FBK_LINK i, 13, 0⟩
def FBK_LINK_MARGIN (i : Nat) : Fld := ⟨Reg.FBK_LINK i, 29, 16⟩
def FBK_STAT_VALID (i : Nat) : Fld := ⟨Reg.FBK_STAT i, 0, 0⟩
def FBK_STAT_LOST (i : Nat) : Fld := ⟨Reg.FBK_STAT i, 1, 1⟩
def FBK_STAT_CRC (i : Nat) : Fld := ⟨Reg.FBK_STAT i, 2, 2⟩
def FBK_STAT_TMO (i : Nat) : Fld := ⟨Reg.FBK_STAT i, 3, 3⟩
def FBK_STAT_LATE (i : Nat) : Fld := ⟨Reg.FBK_STAT i, 4, 4⟩
def FBK_STAT_ERRBIT (i : Nat) : Fld := ⟨Reg.FBK_STAT i, 5, 5⟩
def FBK_STAT_WARN (i : Nat) : Fld := ⟨Reg.FBK_STAT i, 6, 6⟩
def FBK_STAT_QERR (i : Nat) : Fld := ⟨Reg.FBK_STAT i, 7, 7⟩
def FBK_STAT_STILL (i : Nat) : Fld := ⟨Reg.FBK_STAT i, 8, 8⟩
def FBK_STAT_ENA (i : Nat) : Fld := ⟨Reg.FBK_STAT i, 9, 9⟩
def FBK_STAT_STEPREJ (i : Nat) : Fld := ⟨Reg.FBK_STAT i, 10, 10⟩
def FBK_STAT_STALE (i : Nat) : Fld := ⟨Reg.FBK_STAT i, 11, 11⟩
def FBK_STAT_MARK (i : Nat) : Fld := ⟨Reg.FBK_STAT i, 12, 12⟩
def FBK_STAT_ERRCNT (i : Nat) : Fld := ⟨Reg.FBK_STAT i, 23, 16⟩
def FBK_STAT_SEQ (i : Nat) : Fld := ⟨Reg.FBK_STAT i, 31, 24⟩
def FBK_IDX_STAT_DEV (i : Nat) : Fld := ⟨Reg.FBK_IDX_STAT i, 15, 0⟩
def FBK_IDX_STAT_CORR (i : Nat) : Fld := ⟨Reg.FBK_IDX_STAT i, 23, 16⟩
def FBK_IDX_STAT_SKIP (i : Nat) : Fld := ⟨Reg.FBK_IDX_STAT i, 31, 24⟩
def FBK_CMP_LO_CMP (i : Nat) : Fld := ⟨Reg.FBK_CMP_LO i, 31, 0⟩
def FBK_CMP_HI_CMP (i : Nat) : Fld := ⟨Reg.FBK_CMP_HI i, 31, 0⟩
def FBK_CMP_SPACE_SPACE (i : Nat) : Fld := ⟨Reg.FBK_CMP_SPACE i, 31, 0⟩
def FBK_CMP_CTRL_ARM (i : Nat) : Fld := ⟨Reg.FBK_CMP_CTRL i, 0, 0⟩
def FBK_CMP_CTRL_EN (i : Nat) : Fld := ⟨Reg.FBK_CMP_CTRL i, 1, 1⟩
def FBK_CMP_NEXT_LO_NEXT (i : Nat) : Fld := ⟨Reg.FBK_CMP_NEXT_LO i, 31, 0⟩
def FBK_CMP_NEXT_HI_NEXT (i : Nat) : Fld := ⟨Reg.FBK_CMP_NEXT_HI i, 31, 0⟩
def FBK_CMP_HITS_HITS (i : Nat) : Fld := ⟨Reg.FBK_CMP_HITS i, 31, 0⟩
def FBK_CMP_STAT_ARMED (i : Nat) : Fld := ⟨Reg.FBK_CMP_STAT i, 0, 0⟩
def FBK_CMP_STAT_BEHIND (i : Nat) : Fld := ⟨Reg.FBK_CMP_STAT i, 1, 1⟩
def FBK_CMP_STAT_HIT (i : Nat) : Fld := ⟨Reg.FBK_CMP_STAT i, 2, 2⟩
def FBK_CMP_STAT_MISSED (i : Nat) : Fld := ⟨Reg.FBK_CMP_STAT i, 15, 8⟩
def FBK_CMP_STAT_SEQ (i : Nat) : Fld := ⟨Reg.FBK_CMP_STAT i, 31, 24⟩
def FCS_SS1_CFG_TOL (i : Nat) : Fld := ⟨Reg.FCS_SS1_CFG i, 7, 0⟩
def FCS_SS1_CFG_RMON (i : Nat) : Fld := ⟨Reg.FCS_SS1_CFG i, 8, 8⟩
def FCS_SS1_CFG_TMAX (i : Nat) : Fld := ⟨Reg.FCS_SS1_CFG i, 31, 16⟩
def FCS_SS1_VEL_SSV (i : Nat) : Fld := ⟨Reg.FCS_SS1_VEL i, 31, 0⟩
def HIF_CTX_DB_PROD (i : Nat) : Fld := ⟨Reg.HIF_CTX_DB i, 31, 0⟩
def HIF_CTX_CQ_HEAD_HEAD (i : Nat) : Fld := ⟨Reg.HIF_CTX_CQ_HEAD i, 31, 0⟩
def HIF_CTX_EQ_HEAD_HEAD (i : Nat) : Fld := ⟨Reg.HIF_CTX_EQ_HEAD i, 31, 0⟩
def HIF_CTX_CONS_CONS (i : Nat) : Fld := ⟨Reg.HIF_CTX_CONS i, 31, 0⟩
def HIF_CTX_CQ_TAIL_TAIL (i : Nat) : Fld := ⟨Reg.HIF_CTX_CQ_TAIL i, 31, 0⟩
def HIF_CTX_EQ_TAIL_TAIL (i : Nat) : Fld := ⟨Reg.HIF_CTX_EQ_TAIL i, 31, 0⟩
def HIF_CTX_INFL_INFL (i : Nat) : Fld := ⟨Reg.HIF_CTX_INFL i, 10, 0⟩
def HIF_CTX_STAT_OVERRUN (i : Nat) : Fld := ⟨Reg.HIF_CTX_STAT i, 0, 0⟩
def HIF_CTX_STAT_HEAD_ERR (i : Nat) : Fld := ⟨Reg.HIF_CTX_STAT i, 1, 1⟩
def HIF_CTX_STAT_WRONG_PORT (i : Nat) : Fld := ⟨Reg.HIF_CTX_STAT i, 2, 2⟩
def HIF_CTX_STAT_PHASE_WAIT (i : Nat) : Fld := ⟨Reg.HIF_CTX_STAT i, 3, 3⟩
def HIF_CTX_STAT_CQ_WAIT (i : Nat) : Fld := ⟨Reg.HIF_CTX_STAT i, 4, 4⟩
def HIF_CTX_STAT_HELD (i : Nat) : Fld := ⟨Reg.HIF_CTX_STAT i, 5, 5⟩
def HIF_CTX_STAT_EV_DROP (i : Nat) : Fld := ⟨Reg.HIF_CTX_STAT i, 15, 8⟩
def HIF_CTX_STAT_SEQ (i : Nat) : Fld := ⟨Reg.HIF_CTX_STAT i, 31, 24⟩

end F

/-- The rows of the window [0x0, 0x2000). -/
def rows_glbHif : List Row := [
  ⟨Reg.GLB_ID, 1048576, 1, 4, 1, .fixed 5, .none, false, 0x0, 0x0, 0x0, [], 0x0, 0x0, [], 0x1b03212⟩,
  ⟨Reg.GLB_CAP, 1048576, 1, 4, 1, .fixed 5, .none, false, 0x0, 0x0, 0x0, [], 0x0, 0x0, [], 0x18405420⟩,
  ⟨Reg.GLB_PORT, 1048576, 1, 4, 1, .fixed 5, .none, false, 0x0, 0x0, 0x0, [], 0x0, 0x0, [], 0x0⟩,
  ⟨Reg.GLB_SCRATCH, 1048576, 1, 4, 1, .fixed 5, .none, false, 0xffffffff, 0x0, 0x0, [], 0x0, 0x0, [], 0x0⟩,
  ⟨Reg.GLB_SUMMARY, 1048576, 1, 4, 1, .fixed 5, .none, false, 0x0, 0x0, 0x0, [], 0x0, 0x0, [], 0x10400⟩,
  ⟨Reg.GLB_ENERG, 1048576, 1, 4, 1, .fixed 5, .none, false, 0x0, 0x0, 0x0, [], 0x0, 0x0, [], 0x0⟩,
  ⟨Reg.GLB_TEMP, 1048576, 1, 4, 1, .fixed 5, .none, false, 0x0, 0x0, 0x0, [], 0x0, 0x0, [], 0x8000⟩,
  ⟨Reg.HIF_ACC_STAT, 1048576, 1, 4, 1, .port, .none, false, 0x0, 0x0, 0x7, [], 0x0, 0x0, [], 0x0⟩,
  ⟨Reg.HIF_ACC_ADDR, 1048576, 1, 4, 1, .port, .none, false, 0x0, 0x0, 0x0, [], 0x0, 0x0, [], 0x0⟩,
  ⟨Reg.HIF_MGMT, 1048576, 1, 4, 1, .fixed 5, .none, false, 0x6, 0x0, 0x8, [], 0x0, 0x0, [], 0x0⟩,
  ⟨Reg.HIF_IND_ADDR, 1048576, 1, 4, 1, .port, .none, false, 0xfffffffc, 0x0, 0x0, [], 0x0, 0x0, [], 0x0⟩,
  ⟨Reg.HIF_IND_CTRL, 1048576, 1, 4, 1, .port, .none, false, 0x1, 0x0, 0x0, [], 0x0, 0x0, [], 0x0⟩,
  ⟨Reg.HIF_IND_DATA, 1048576, 1, 4, 1, .port, .none, false, 0xffffffff, 0x0, 0x0, [], 0x0, 0x0, [], 0x0⟩,
  ⟨Reg.HIF_IND_STAT, 1048576, 1, 4, 1, .port, .none, false, 0x0, 0x0, 0x0, [], 0x0, 0x0, [], 0x0⟩,
  ⟨Reg.HIF_DB_BASE_LO, 1048576, 1, 4, 1, .port, .none, true, 0xffffff00, 0x0, 0x0, [], 0x0, 0x0, [], 0x0⟩,
  ⟨Reg.HIF_DB_BASE_HI, 1048576, 1, 4, 1, .port, .none, true, 0xffffffff, 0x0, 0x0, [], 0x0, 0x0, [], 0x0⟩,
  ⟨Reg.HIF_PORT_STAT, 1048576, 1, 4, 1, .port, .none, false, 0x0, 0x0, 0x10, [⟨15, 8, false⟩], 0x0, 0x0, [], 0x0⟩,
  ⟨Reg.HIF_WDOG, 1048576, 1, 4, 1, .port, .none, false, 0xffff, 0x0, 0x0, [], 0x0, 0x0, [], 0x0⟩]

/-- The rows of the window [0x2000, 0x3000). -/
def rows_ctxCfg : List Row := [
  ⟨Reg.HIF_CTX_CFG 0, 0x40, 64, 64, 1, .fixed 5, .fixed 1, true, 0x0, 0x3ffff7, 0x0, [], 0x3ffff7, 0xfff7, [⟨7, 4, 4, 12⟩, ⟨11, 8, 4, 12⟩, ⟨15, 12, 4, 12⟩, ⟨21, 16, 1, 33⟩], 0x84440⟩,
  ⟨Reg.HIF_CTX_QUOTA 0, 0x40, 64, 64, 1, .fixed 5, .fixed 1, true, 0x0, 0x7ff, 0x0, [], 0x7ff, 0x0, [⟨10, 0, 0, 1024⟩], 0x40⟩,
  ⟨Reg.HIF_CTX_AXES 0, 0x40, 64, 64, 1, .fixed 5, .fixed 1, true, 0x0, 0xffffffff, 0x0, [], 0xffffffff, 0xffffffff, [], 0x0⟩,
  ⟨Reg.HIF_CTX_PRIV 0, 0x40, 64, 64, 1, .fixed 5, .fixed 1, true, 0x0, 0x3f, 0x0, [], 0x3f, 0x3f, [], 0x0⟩,
  ⟨Reg.HIF_CTX_DQB_LO 0, 0x40, 64, 64, 1, .fixed 5, .fixed 1, true, 0x0, 0xfffff000, 0x0, [], 0xfffff000, 0xfffff000, [], 0x0⟩,
  ⟨Reg.HIF_CTX_DQB_HI 0, 0x40, 64, 64, 1, .fixed 5, .fixed 1, true, 0x0, 0xffffffff, 0x0, [], 0xffffffff, 0xffffffff, [], 0x0⟩,
  ⟨Reg.HIF_CTX_CQB_LO 0, 0x40, 64, 64, 1, .fixed 5, .fixed 1, true, 0x0, 0xfffff000, 0x0, [], 0xfffff000, 0xfffff000, [], 0x0⟩,
  ⟨Reg.HIF_CTX_CQB_HI 0, 0x40, 64, 64, 1, .fixed 5, .fixed 1, true, 0x0, 0xffffffff, 0x0, [], 0xffffffff, 0xffffffff, [], 0x0⟩,
  ⟨Reg.HIF_CTX_EQB_LO 0, 0x40, 64, 64, 1, .fixed 5, .fixed 1, true, 0x0, 0xfffff000, 0x0, [], 0xfffff000, 0xfffff000, [], 0x0⟩,
  ⟨Reg.HIF_CTX_EQB_HI 0, 0x40, 64, 64, 1, .fixed 5, .fixed 1, true, 0x0, 0xffffffff, 0x0, [], 0xffffffff, 0xffffffff, [], 0x0⟩,
  ⟨Reg.HIF_CTX_MOD 0, 0x40, 64, 64, 1, .fixed 5, .none, false, 0x1ffffff, 0x0, 0x0, [], 0x0, 0x0, [⟨7, 0, 1, 255⟩], 0x1000001⟩]

/-- The rows of the window [0x3000, 0x4000). -/
def rows_tlm : List Row := [
  ⟨Reg.HIF_TLM_BASE_LO 0, 0x20, 8, 32, 1, .fixed 5, .none, false, 0xfffff000, 0x0, 0x0, [], 0x0, 0x0, [], 0x0⟩,
  ⟨Reg.HIF_TLM_BASE_HI 0, 0x20, 8, 32, 1, .fixed 5, .none, false, 0xffffffff, 0x0, 0x0, [], 0x0, 0x0, [], 0x0⟩,
  ⟨Reg.HIF_TLM_CFG 0, 0x20, 8, 32, 1, .fixed 5, .none, false, 0x1f, 0x0, 0x0, [], 0x0, 0x0, [⟨4, 0, 12, 22⟩], 0xc⟩,
  ⟨Reg.HIF_TLM_HEAD 0, 0x20, 8, 32, 1, .fixed 5, .none, false, 0xffffffff, 0x0, 0x0, [], 0x0, 0x0, [], 0x0⟩,
  ⟨Reg.HIF_TLM_TAIL 0, 0x20, 8, 32, 1, .fixed 5, .none, false, 0x0, 0x0, 0x0, [], 0x0, 0x0, [], 0x0⟩,
  ⟨Reg.HIF_TLM_STAT 0, 0x20, 8, 32, 1, .fixed 5, .none, false, 0x0, 0x0, 0x0, [⟨15, 0, false⟩], 0x0, 0x0, [], 0x0⟩]

/-- The rows of the window [0x4000, 0x4400). -/
def rows_tbs : List Row := [
  ⟨Reg.TBS_FRAME, 1048576, 1, 4, 1, .fixed 5, .fixed 0, false, 0x0, 0x37fff, 0x0, [], 0x37fff, 0x37fff, [], 0x1186a⟩,
  ⟨Reg.TBS_FRAME_CNT, 1048576, 1, 4, 1, .fixed 5, .none, false, 0x0, 0x0, 0x0, [], 0x0, 0x0, [], 0x0⟩,
  ⟨Reg.TBS_GTC_LO, 1048576, 1, 4, 1, .fixed 5, .none, false, 0x0, 0x0, 0x0, [], 0x0, 0x0, [], 0x0⟩,
  ⟨Reg.TBS_GTC_HI, 1048576, 1, 4, 1, .fixed 5, .none, false, 0x0, 0x0, 0x0, [], 0x0, 0x0, [], 0x0⟩,
  ⟨Reg.TBS_TICK_GTC_LO, 1048576, 1, 4, 1, .fixed 5, .none, false, 0x0, 0x0, 0x0, [], 0x0, 0x0, [], 0x0⟩,
  ⟨Reg.TBS_TICK_GTC_HI, 1048576, 1, 4, 1, .fixed 5, .none, false, 0x0, 0x0, 0x0, [], 0x0, 0x0, [], 0x0⟩,
  ⟨Reg.TBS_GTC_RATE, 1048576, 1, 4, 1, .fixed 5, .none, false, 0xffff, 0x0, 0x0, [], 0x0, 0x0, [], 0x0⟩,
  ⟨Reg.TBS_PTM_CTRL, 1048576, 1, 4, 1, .fixed 5, .none, false, 0xffffff03, 0x0, 0x0, [], 0x0, 0x0, [⟨15, 8, 1, 255⟩], 0x3e80a00⟩,
  ⟨Reg.TBS_PTM_STAT, 1048576, 1, 4, 1, .fixed 5, .none, false, 0x0, 0x0, 0x2, [⟨15, 8, false⟩], 0x0, 0x0, [], 0x0⟩,
  ⟨Reg.TBS_PTM_OFFSET, 1048576, 1, 4, 1, .fixed 5, .none, false, 0x0, 0x0, 0x0, [], 0x0, 0x0, [], 0x0⟩,
  ⟨Reg.TBS_SYNC_CTRL, 1048576, 1, 4, 1, .fixed 5, .fixed 0, false, 0x0, 0xff03, 0x0, [], 0xff03, 0xff03, [], 0x0⟩,
  ⟨Reg.TBS_SYNC_STAT, 1048576, 1, 4, 1, .fixed 5, .none, false, 0x0, 0x0, 0x6, [], 0x0, 0x0, [], 0x0⟩,
  ⟨Reg.TBS_ADMIT, 1048576, 1, 4, 1, .fixed 5, .none, false, 0xffff, 0x0, 0x0, [], 0x0, 0x0, [⟨15, 0, 1, 65535⟩], 0x2710⟩]

/-- The rows of the window [0x4400, 0x4800). -/
def rows_lcs_0 : List Row := [
  ⟨Reg.LCS_UPD_MASK_LO, 1048576, 1, 4, 1, .fixed 5, .none, true, 0xf7f, 0x0, 0x0, [], 0x0, 0x0, [], 0x0⟩,
  ⟨Reg.LCS_UPD_MASK_HI, 1048576, 1, 4, 1, .fixed 5, .none, true, 0xffffffff, 0x0, 0x0, [], 0x0, 0x0, [], 0x0⟩,
  ⟨Reg.LCS_UPD_CTRL, 1048576, 1, 4, 1, .fixed 5, .none, true, 0x3, 0x0, 0x0, [], 0x0, 0x0, [], 0x0⟩,
  ⟨Reg.LCS_UPD_STAT, 1048576, 1, 4, 1, .fixed 5, .none, true, 0x0, 0x0, 0x6, [], 0x0, 0x0, [], 0x0⟩,
  ⟨Reg.LCS_UPD_PEND_LO, 1048576, 1, 4, 1, .fixed 5, .none, true, 0x0, 0x0, 0x0, [], 0x0, 0x0, [], 0x0⟩,
  ⟨Reg.LCS_UPD_PEND_HI, 1048576, 1, 4, 1, .fixed 5, .none, true, 0x0, 0x0, 0x0, [], 0x0, 0x0, [], 0x0⟩,
  ⟨Reg.LCS_UPD_LAST, 1048576, 1, 4, 1, .fixed 5, .none, true, 0x0, 0x0, 0x0, [], 0x0, 0x0, [], 0x0⟩,
  ⟨Reg.LCS_LOCK_MASK_LO, 1048576, 1, 4, 1, .fixed 5, .none, true, 0xf7f, 0x0, 0x0, [], 0x0, 0x0, [], 0x0⟩,
  ⟨Reg.LCS_LOCK_MASK_HI, 1048576, 1, 4, 1, .fixed 5, .none, true, 0xffffffff, 0x0, 0x0, [], 0x0, 0x0, [], 0x0⟩,
  ⟨Reg.LCS_LOCK_CTRL, 1048576, 1, 4, 1, .fixed 5, .none, true, 0x7, 0x0, 0x0, [], 0x0, 0x0, [], 0x0⟩,
  ⟨Reg.LCS_PROOF_EXPECT, 1048576, 1, 4, 1, .fixed 5, .none, true, 0xffffffff, 0x0, 0x0, [], 0x0, 0x0, [], 0x0⟩,
  ⟨Reg.LCS_PROOF, 1048576, 1, 4, 1, .fixed 5, .none, true, 0x0, 0x0, 0x0, [], 0x0, 0x0, [], 0x0⟩,
  ⟨Reg.LCS_LOCK_STAT, 1048576, 1, 4, 1, .fixed 5, .none, true, 0x0, 0x0, 0x6, [⟨15, 8, true⟩], 0x0, 0x0, [], 0x0⟩,
  ⟨Reg.LCS_LC_STAT, 1048576, 1, 4, 1, .fixed 5, .none, false, 0x0, 0x0, 0x0, [], 0x0, 0x0, [], 0x0⟩,
  ⟨Reg.LCS_RST_CAUSE, 1048576, 1, 4, 1, .fixed 0, .none, false, 0x0, 0x0, 0x3f, [], 0x0, 0x0, [], 0x0⟩,
  ⟨Reg.LCS_RST_CTRL, 1048576, 1, 4, 1, .fixed 5, .none, true, 0x0, 0x0, 0x0, [], 0x0, 0x0, [], 0x0⟩,
  ⟨Reg.LCS_ST_RES, 1048576, 1, 4, 1, .fixed 5, .none, false, 0x0, 0x0, 0x0, [], 0x0, 0x0, [], 0x0⟩,
  ⟨Reg.LCS_FW_STAT, 1048576, 1, 4, 1, .fixed 5, .none, false, 0x0, 0x0, 0x0, [], 0x0, 0x0, [], 0x0⟩,
  ⟨Reg.LCS_FW_BUILD_ACT, 1048576, 1, 4, 1, .fixed 5, .none, false, 0x0, 0x0, 0x0, [], 0x0, 0x0, [], 0x0⟩,
  ⟨Reg.LCS_FW_BUILD_STG, 1048576, 1, 4, 1, .fixed 5, .none, false, 0x0, 0x0, 0x0, [], 0x0, 0x0, [], 0x0⟩,
  ⟨Reg.LCS_CORE_IMG, 1048576, 1, 4, 1, .fixed 5, .none, false, 0x0, 0x0, 0x0, [], 0x0, 0x0, [], 0x0⟩,
  ⟨Reg.LCS_DEV_ID_LO, 1048576, 1, 4, 1, .fixed 5, .none, false, 0x0, 0x0, 0x0, [], 0x0, 0x0, [], 0x0⟩,
  ⟨Reg.LCS_DEV_ID_HI, 1048576, 1, 4, 1, .fixed 5, .none, false, 0x0, 0x0, 0x0, [], 0x0, 0x0, [], 0x0⟩,
  ⟨Reg.LCS_LC_NONCE_LO, 1048576, 1, 4, 1, .fixed 5, .none, false, 0x0, 0x0, 0x0, [], 0x0, 0x0, [], 0x0⟩]
def rows_lcs_1 : List Row := [
  ⟨Reg.LCS_LC_NONCE_HI, 1048576, 1, 4, 1, .fixed 5, .none, false, 0x0, 0x0, 0x0, [], 0x0, 0x0, [], 0x0⟩,
  ⟨Reg.LCS_DBG_CTRL, 1048576, 1, 4, 1, .fixed 5, .none, true, 0x3, 0x0, 0x0, [], 0x0, 0x0, [], 0x0⟩,
  ⟨Reg.LCS_DBG_STAT, 1048576, 1, 4, 1, .fixed 5, .none, false, 0x0, 0x0, 0x1, [], 0x0, 0x0, [], 0x0⟩]
def rows_lcs : List Row := rows_lcs_0 ++ rows_lcs_1

/-- The rows of the window [0x4800, 0x5000). -/
def rows_fcsCkgPmu : List Row := [
  ⟨Reg.FCS_CASCADE, 1048576, 1, 4, 1, .fixed 1, .fixed 2, false, 0x0, 0x3fff, 0x0, [], 0x3fff, 0x0, [⟨13, 0, 0, 10000⟩], 0x7d0⟩,
  ⟨Reg.FCS_CLR, 1048576, 1, 4, 1, .fixed 1, .none, true, 0x303ff, 0x0, 0x0, [], 0x0, 0x0, [], 0x0⟩,
  ⟨Reg.FCS_SS1_DEM, 1048576, 1, 4, 1, .fixed 1, .none, true, 0xffffffff, 0x0, 0x0, [], 0x0, 0x0, [], 0x0⟩,
  ⟨Reg.FCS_STAT, 1048576, 1, 4, 1, .fixed 1, .none, false, 0x0, 0x0, 0x30, [], 0x0, 0x0, [], 0x0⟩,
  ⟨Reg.FCS_REC_CNT, 1048576, 1, 4, 1, .fixed 1, .none, false, 0x0, 0x0, 0x0, [⟨31, 0, true⟩], 0x0, 0x0, [], 0x0⟩,
  ⟨Reg.GDR_STO_CFG, 1048576, 1, 4, 1, .fixed 1, .fixed 2, false, 0x0, 0xff, 0x0, [], 0xff, 0x0, [⟨7, 0, 1, 255⟩], 0x14⟩,
  ⟨Reg.GDR_STO_STAT, 1048576, 1, 4, 1, .fixed 1, .none, false, 0x0, 0x0, 0x18, [], 0x0, 0x0, [], 0x0⟩,
  ⟨Reg.CKG_CFG, 1048576, 1, 4, 1, .fixed 2, .fixed 3, false, 0x0, 0x3f0f, 0x0, [], 0x3f0f, 0x0, [⟨13, 8, 1, 50⟩], 0xa04⟩,
  ⟨Reg.CKG_CLKOUT, 1048576, 1, 4, 1, .fixed 2, .fixed 3, false, 0x0, 0xff07, 0x0, [], 0xff07, 0x0, [], 0x0⟩,
  ⟨Reg.CKG_CTRL, 1048576, 1, 4, 1, .fixed 2, .none, false, 0x3, 0x0, 0x0, [], 0x0, 0x0, [], 0x0⟩,
  ⟨Reg.CLK_STAT, 1048576, 1, 4, 1, .fixed 2, .none, false, 0x0, 0x0, 0xe00, [⟨23, 16, false⟩], 0x0, 0x0, [], 0x4⟩,
  ⟨Reg.PMU_CFG, 1048576, 1, 4, 1, .fixed 0, .fixed 4, false, 0x0, 0xfffffff, 0x0, [], 0x0, 0x0, [⟨26, 24, 0, 4⟩], 0x0⟩,
  ⟨Reg.PMU_DWELL, 1048576, 1, 4, 1, .fixed 0, .fixed 4, false, 0x0, 0xffff, 0x0, [], 0x0, 0x0, [⟨15, 0, 1, 65535⟩], 0x3e8⟩,
  ⟨Reg.PMU_DOM_REQ, 1048576, 1, 4, 1, .fixed 0, .fixed 4, false, 0x0, 0xffff, 0x0, [], 0x0, 0x0, [], 0xffff⟩,
  ⟨Reg.PMU_DOM_STAT, 1048576, 1, 4, 1, .fixed 0, .none, false, 0x0, 0x0, 0x0, [], 0x0, 0x0, [], 0x0⟩,
  ⟨Reg.PMU_CTRL, 1048576, 1, 4, 1, .fixed 0, .none, false, 0x3, 0x0, 0x0, [], 0x0, 0x0, [], 0x0⟩,
  ⟨Reg.PMU_WAKE_AT_LO, 1048576, 1, 4, 1, .fixed 0, .none, false, 0xffffffff, 0x0, 0x0, [], 0x0, 0x0, [], 0x0⟩,
  ⟨Reg.PMU_WAKE_AT_HI, 1048576, 1, 4, 1, .fixed 0, .none, false, 0xffffffff, 0x0, 0x0, [], 0x0, 0x0, [], 0x0⟩,
  ⟨Reg.PMU_WAKE_EN, 1048576, 1, 4, 1, .fixed 0, .none, false, 0x1, 0x0, 0x0, [], 0x0, 0x0, [], 0x0⟩,
  ⟨Reg.PMU_STAT, 1048576, 1, 4, 1, .fixed 0, .none, false, 0x0, 0x0, 0x700, [], 0x0, 0x0, [], 0x1⟩,
  ⟨Reg.PMU_RESUME_T, 1048576, 1, 4, 1, .fixed 0, .none, false, 0x0, 0x0, 0x0, [], 0x0, 0x0, [], 0x0⟩,
  ⟨Reg.MPL_CORE_MAP, 1048576, 1, 4, 1, .fixed 6, .none, false, 0x0, 0x0, 0x0, [], 0x0, 0x0, [], 0x43210⟩,
  ⟨Reg.MPL_CFG, 1048576, 1, 4, 1, .fixed 6, .fixed 6, false, 0x0, 0x3, 0x0, [], 0x3, 0x3, [], 0x2⟩]

/-- The rows of the window [0x5000, 0x6000). -/
def rows_cnd : List Row := [
  ⟨Reg.CND_CFG, 1048576, 1, 4, 1, .fixed 5, .fixed 5, false, 0x0, 0xffffff03, 0x0, [], 0xffffff03, 0x0, [⟨15, 8, 1, 255⟩, ⟨23, 16, 1, 255⟩, ⟨31, 24, 1, 255⟩], 0x48183c03⟩,
  ⟨Reg.CND_ALIM, 1048576, 1, 4, 1, .fixed 5, .fixed 5, false, 0x0, 0xffffffff, 0x0, [], 0xffffffff, 0x0, [], 0x3214141e⟩,
  ⟨Reg.CND_CTRL, 1048576, 1, 4, 1, .fixed 5, .none, true, 0x1, 0x0, 0x0, [], 0x0, 0x0, [], 0x0⟩,
  ⟨Reg.CND_APPROVE, 1048576, 1, 4, 1, .fixed 5, .none, true, 0xffff003f, 0x0, 0x0, [], 0x0, 0x0, [], 0x0⟩,
  ⟨Reg.CND_STAT, 1048576, 1, 4, 1, .fixed 5, .none, false, 0x0, 0x0, 0xf, [], 0x0, 0x0, [], 0x0⟩,
  ⟨Reg.CND_DXC_CTRL, 1048576, 1, 4, 1, .fixed 5, .none, true, 0x1, 0x0, 0x2, [], 0x0, 0x0, [], 0x0⟩,
  ⟨Reg.CND_DXC_NONCE 0, 0x4, 4, 4, 1, .fixed 5, .none, true, 0xffffffff, 0x0, 0x0, [], 0x0, 0x0, [], 0x0⟩,
  ⟨Reg.CND_LKEY 0, 0x4, 8, 4, 1, .fixed 5, .none, false, 0x0, 0x0, 0x0, [], 0x0, 0x0, [], 0x0⟩,
  ⟨Reg.CND_PROP_OFS 0, 0x10, 16, 16, 1, .fixed 5, .none, false, 0x0, 0x0, 0x0, [], 0x0, 0x0, [], 0x0⟩,
  ⟨Reg.CND_PROP_VAL 0, 0x10, 16, 16, 1, .fixed 5, .none, false, 0x0, 0x0, 0x0, [], 0x0, 0x0, [], 0x0⟩,
  ⟨Reg.CND_PROP_INFO 0, 0x10, 16, 16, 1, .fixed 5, .none, false, 0x0, 0x0, 0x0, [], 0x0, 0x0, [], 0x0⟩]

/-- The rows of the window [0x6000, 0x10000). -/
def rows_src : List Row := [
  ⟨Reg.FCS_SRC_CFG 0, 0x10, 640, 16, 1, .fixed 1, .fixed 2, false, 0x0, 0x3ff7, 0x0, [], 0x3ff7, 0x0, [⟨2, 0, 0, 4⟩, ⟨11, 4, 1, 255⟩], 0x0⟩,
  ⟨Reg.FCS_SRC_WIN 0, 0x10, 640, 16, 1, .fixed 1, .fixed 2, false, 0x0, 0xffffffff, 0x0, [], 0xffffffff, 0x0, [⟨31, 0, 1, 4294967295⟩], 0x0⟩,
  ⟨Reg.FCS_SRC_STAT 0, 0x10, 640, 16, 1, .fixed 1, .none, false, 0x0, 0x0, 0x0, [], 0x0, 0x0, [], 0x0⟩]

/-- The rows of the window [0x10000, 0x20000). -/
def rows_bankBlk_0 : List Row := [
  ⟨Reg.MPL_BUDGET_LIM 0, 0x2000, 4, 8192, 1, .fixed 6, .bank 1, false, 0x0, 0xffffff, 0x0, [], 0xffffff, 0x0, [], 0x0⟩,
  ⟨Reg.MPL_VCALC 0, 0x2000, 4, 8192, 1, .fixed 6, .bank 1, false, 0x0, 0x1ffff, 0x0, [], 0x1ffff, 0x1ffff, [], 0x1f40⟩,
  ⟨Reg.MPL_P0 0, 0x2000, 4, 8192, 1, .fixed 6, .bank 1, false, 0x0, 0xffff, 0x0, [], 0xffff, 0xffff, [], 0x0⟩,
  ⟨Reg.MPL_BUDGET 0, 0x2000, 4, 8192, 1, .fixed 6, .none, false, 0x0, 0x0, 0x0, [], 0x0, 0x0, [], 0x0⟩,
  ⟨Reg.MPL_DRAW 0, 0x2000, 4, 8192, 1, .fixed 6, .none, false, 0x0, 0x0, 0x0, [], 0x0, 0x0, [], 0x0⟩,
  ⟨Reg.MPL_PEAK 0, 0x2000, 4, 8192, 1, .fixed 6, .none, false, 0x0, 0x0, 0x0, [], 0x0, 0x0, [], 0x0⟩,
  ⟨Reg.MPL_CURT_STAT 0, 0x2000, 4, 8192, 1, .fixed 6, .none, false, 0x0, 0x0, 0x2, [⟨15, 8, false⟩], 0x0, 0x0, [], 0x0⟩,
  ⟨Reg.GDR_DRV 0, 0x2000, 4, 8192, 1, .bankAna 1, .bank 1, false, 0x0, 0x77, 0x0, [], 0x77, 0x77, [], 0x53⟩,
  ⟨Reg.GDR_SOFT 0, 0x2000, 4, 8192, 1, .bankAna 1, .bank 1, false, 0x0, 0xff, 0x0, [], 0xff, 0xff, [⟨3, 0, 0, 10⟩], 0x46⟩,
  ⟨Reg.GDR_OC 0, 0x2000, 4, 8192, 1, .bankAna 1, .bank 1, false, 0x0, 0xffff, 0x0, [], 0xffff, 0xffff, [], 0xae0⟩,
  ⟨Reg.GDR_VDS 0, 0x2000, 4, 8192, 1, .bankAna 1, .bank 1, false, 0x0, 0xffff, 0x0, [], 0xffff, 0xffff, [], 0x193c⟩,
  ⟨Reg.GDR_DIDT 0, 0x2000, 4, 8192, 1, .bankAna 1, .bank 1, false, 0x0, 0xff8f3f, 0x0, [], 0xff8f3f, 0xff8f3f, [⟨11, 8, 1, 15⟩], 0x328509⟩,
  ⟨Reg.GDR_VMS_BRK 0, 0x2000, 4, 8192, 1, .bankAna 1, .bank 1, false, 0x0, 0x3ff03ff, 0x0, [], 0x3ff03ff, 0x3ff03ff, [], 0x3e803f2⟩,
  ⟨Reg.GDR_VMS_LIM 0, 0x2000, 4, 8192, 1, .bankAna 1, .bank 1, false, 0x0, 0x3ff03ff, 0x0, [], 0x3ff03ff, 0x3ff03ff, [], 0x5b03ff⟩,
  ⟨Reg.GDR_BRK_CFG 0, 0x2000, 4, 8192, 1, .bankAna 1, .bank 1, false, 0x0, 0xffff, 0x0, [], 0xffff, 0xffff, [], 0x1f4⟩,
  ⟨Reg.GDR_TRIP_CFG 0, 0x2000, 4, 8192, 1, .bankAna 1, .bank 1, false, 0x0, 0x7ff07ff, 0x0, [], 0x7ff07ff, 0x7ff07ff, [], 0x190019⟩,
  ⟨Reg.GDR_NTC 0, 0x2000, 4, 8192, 1, .bankAna 1, .bank 1, false, 0x0, 0xffffffff, 0x0, [], 0xffffffff, 0xffffffff, [], 0xd6b03e8⟩,
  ⟨Reg.GDR_NTC_LIM 0, 0x2000, 4, 8192, 1, .bankAna 1, .bank 1, false, 0x0, 0x1ffff, 0x0, [], 0x1ffff, 0x1ffff, [], 0x3e8⟩,
  ⟨Reg.GDR_TEMP 0, 0x2000, 4, 8192, 1, .bankAna 1, .none, false, 0x0, 0x0, 0x0, [], 0x0, 0x0, [], 0x8000⟩,
  ⟨Reg.GDR_VMS 0, 0x2000, 4, 8192, 1, .bankAna 1, .none, false, 0x0, 0x0, 0x3800, [⟨23, 16, false⟩], 0x0, 0x0, [], 0x0⟩,
  ⟨Reg.GDR_STAT 0, 0x2000, 4, 8192, 1, .bankAna 1, .none, false, 0x0, 0x0, 0x7ff, [], 0x0, 0x0, [], 0x0⟩,
  ⟨Reg.PWM_DT_LIM 0, 0x2000, 4, 8192, 1, .bankDig 1, .bank 1, false, 0x0, 0xff01ff, 0x0, [], 0xff01ff, 0xff01ff, [], 0x50000⟩,
  ⟨Reg.PWM_NOTCH 0, 0x2000, 4, 8192, 1, .bankDig 1, .bank 1, false, 0x0, 0x7f, 0x0, [], 0x7f, 0x7f, [], 0xf⟩,
  ⟨Reg.PWM_MINP 0, 0x2000, 4, 8192, 1, .bankDig 1, .bank 1, false, 0x0, 0xff, 0x0, [], 0xff, 0xff, [], 0x19⟩]
def rows_bankBlk_1 : List Row := [
  ⟨Reg.PWM_OLEN 0, 0x2000, 4, 8192, 1, .bankDig 1, .bank 1, false, 0x0, 0xff, 0x0, [], 0xff, 0x0, [], 0x0⟩,
  ⟨Reg.PWM_STAT 0, 0x2000, 4, 8192, 1, .bankDig 1, .none, false, 0x0, 0x0, 0x7, [], 0x0, 0x0, [], 0x0⟩,
  ⟨Reg.ADC_ROT 0, 0x2000, 4, 8192, 1, .bankAna 1, .none, false, 0x0, 0x0, 0x0, [], 0x0, 0x0, [], 0xf04⟩,
  ⟨Reg.ADC_STAT 0, 0x2000, 4, 8192, 1, .bankAna 1, .none, false, 0x0, 0x0, 0x7, [⟨23, 8, false⟩], 0x0, 0x0, [], 0x0⟩,
  ⟨Reg.ADC_OWT 0, 0x2000, 4, 8192, 1, .bankAna 1, .none, false, 0x1, 0x0, 0x0, [], 0x0, 0x0, [], 0x0⟩,
  ⟨Reg.ADC_OWT_STAT 0, 0x2000, 4, 8192, 1, .bankAna 1, .none, false, 0x0, 0x0, 0x0, [], 0x0, 0x0, [], 0x0⟩,
  ⟨Reg.CND_MARG 0, 0x2000, 4, 8192, 1, .fixed 5, .fixed 5, false, 0x0, 0xffffffff, 0x0, [], 0xffffffff, 0x0, [⟨31, 24, 1, 255⟩], 0x7100a14⟩,
  ⟨Reg.CND_DER_CFG 0, 0x2000, 4, 8192, 1, .fixed 5, .fixed 5, false, 0x0, 0x7ffffff, 0x0, [], 0x7ffffff, 0x0, [], 0x2001446⟩,
  ⟨Reg.CND_BRK 0, 0x2000, 4, 8192, 1, .fixed 5, .fixed 5, false, 0x0, 0xffffffff, 0x0, [], 0xffffffff, 0x0, [], 0x0⟩,
  ⟨Reg.CND_DER 0, 0x2000, 4, 8192, 1, .fixed 5, .fixed 5, false, 0x0, 0x7ff, 0x0, [], 0x0, 0x0, [⟨10, 0, 0, 1024⟩], 0x400⟩,
  ⟨Reg.CND_CAL 0, 0x2000, 4, 8192, 1, .fixed 5, .fixed 5, false, 0x0, 0xffffffff, 0x0, [], 0xffff0000, 0x0, [⟨15, 0, 1, 65535⟩], 0x2d002d0⟩,
  ⟨Reg.ADC_SLC_OG 0, 0x2000, 4, 0x8, 5, .bankAna 5, .none, false, 0x0, 0x0, 0x0, [], 0x0, 0x0, [], 0x0⟩,
  ⟨Reg.ADC_SLC_SK 0, 0x2000, 4, 0x8, 5, .bankAna 5, .none, false, 0x0, 0x0, 0x0, [], 0x0, 0x0, [], 0x0⟩,
  ⟨Reg.ADC_CS 0, 0x2000, 4, 0x10, 16, .bankAna 16, .axis 2, false, 0x0, 0x3ffff, 0x0, [], 0x3ffff, 0x3ffff, [], 0x20000⟩,
  ⟨Reg.ADC_SYNC 0, 0x2000, 4, 0x10, 16, .bankAna 16, .none, false, 0x0, 0x0, 0x0, [], 0x0, 0x0, [], 0xc0000000⟩,
  ⟨Reg.ADC_SEQ 0, 0x2000, 4, 0x8, 16, .bankAna 16, .bank 16, false, 0x0, 0x37fff, 0x0, [], 0x37fff, 0x0, [⟨12, 8, 0, 23⟩], 0x0⟩,
  ⟨Reg.ADC_AUX 0, 0x2000, 4, 0x8, 16, .bankAna 16, .none, false, 0x0, 0x0, 0x0, [], 0x0, 0x0, [], 0xc0000000⟩,
  ⟨Reg.PWM_CMP 0, 0x2000, 4, 0x20, 32, .bankDig 32, .none, false, 0x0, 0x0, 0x0, [], 0x0, 0x0, [], 0x200000⟩,
  ⟨Reg.PWM_SHD 0, 0x2000, 4, 0x20, 32, .bankDig 32, .none, false, 0x0, 0x0, 0x0, [], 0x0, 0x0, [], 0x0⟩,
  ⟨Reg.PWM_DT 0, 0x2000, 4, 0x20, 32, .bankDig 32, .bank 32, false, 0x0, 0x7fff, 0x0, [], 0x0, 0x0, [], 0x7d⟩,
  ⟨Reg.PWM_DT_MEAS 0, 0x2000, 4, 0x20, 32, .bankDig 32, .none, false, 0x0, 0x0, 0x0, [], 0x0, 0x0, [], 0x0⟩,
  ⟨Reg.PWM_OLH 0, 0x2000, 4, 0x20, 32, .bankDig 32, .bank 32, false, 0x0, 0xfffff, 0x0, [], 0xfffff, 0x0, [], 0x0⟩,
  ⟨Reg.PWM_OLL 0, 0x2000, 4, 0x20, 32, .bankDig 32, .bank 32, false, 0x0, 0x800fffff, 0x0, [], 0x800fffff, 0x0, [], 0x0⟩,
  ⟨Reg.PWM_FORCE 0, 0x2000, 4, 0x20, 32, .bankDig 32, .none, false, 0x7, 0x0, 0x0, [], 0x0, 0x0, [], 0x0⟩]
def rows_bankBlk_2 : List Row := [
  ⟨Reg.GDR_MEAS 0, 0x2000, 4, 0x20, 32, .bankAna 32, .none, false, 0x0, 0x0, 0x0, [⟨31, 24, false⟩], 0x0, 0x0, [], 0x0⟩]
def rows_bankBlk : List Row := rows_bankBlk_0 ++ rows_bankBlk_1 ++ rows_bankBlk_2

/-- The rows of the window [0x20000, 0x40000). -/
def rows_axis_0 : List Row := [
  ⟨Reg.MPL_VMAX 0, 0x400, 32, 1024, 1, .fixed 6, .axis 1, false, 0x0, 0xffffffff, 0x0, [], 0xffffffff, 0xffffffff, [], 0x0⟩,
  ⟨Reg.MPL_AMAX 0, 0x400, 32, 1024, 1, .fixed 6, .axis 1, false, 0x0, 0xffffffff, 0x0, [], 0xffffffff, 0xffffffff, [], 0x0⟩,
  ⟨Reg.MPL_DMAX 0, 0x400, 32, 1024, 1, .fixed 6, .axis 1, false, 0x0, 0xffffffff, 0x0, [], 0xffffffff, 0xffffffff, [], 0x0⟩,
  ⟨Reg.MPL_JMAX 0, 0x400, 32, 1024, 1, .fixed 6, .axis 1, false, 0x0, 0xffffffff, 0x0, [], 0xffffffff, 0xffffffff, [], 0x0⟩,
  ⟨Reg.MPL_EMAX 0, 0x400, 32, 1024, 1, .fixed 6, .axis 1, false, 0x0, 0xffffffff, 0x0, [], 0xffffffff, 0xffffffff, [], 0x0⟩,
  ⟨Reg.MPL_FMAX 0, 0x400, 32, 1024, 1, .fixed 6, .axis 1, false, 0x0, 0xffffffff, 0x0, [], 0xffffffff, 0xffffffff, [], 0x0⟩,
  ⟨Reg.MPL_HDEC 0, 0x400, 32, 1024, 1, .fixed 6, .axis 1, false, 0x0, 0xffffffff, 0x0, [], 0xffffffff, 0xffffffff, [], 0x0⟩,
  ⟨Reg.MPL_HJERK 0, 0x400, 32, 1024, 1, .fixed 6, .axis 1, false, 0x0, 0xffffffff, 0x0, [], 0xffffffff, 0xffffffff, [], 0x0⟩,
  ⟨Reg.MPL_REV_DIST 0, 0x400, 32, 1024, 1, .fixed 6, .axis 1, false, 0x0, 0xffffffff, 0x0, [], 0xffffffff, 0xffffffff, [], 0x0⟩,
  ⟨Reg.MPL_REV_VEL 0, 0x400, 32, 1024, 1, .fixed 6, .axis 1, false, 0x0, 0xffffffff, 0x0, [], 0xffffffff, 0xffffffff, [], 0x0⟩,
  ⟨Reg.MPL_REV_CFG 0, 0x400, 32, 1024, 1, .fixed 6, .axis 1, false, 0x0, 0x3f, 0x0, [], 0x3f, 0x3f, [], 0x0⟩,
  ⟨Reg.MPL_SCALE 0, 0x400, 32, 1024, 1, .fixed 6, .axis 1, false, 0x0, 0xffffffff, 0x0, [], 0xffffffff, 0xffffffff, [], 0x0⟩,
  ⟨Reg.MPL_TRAVEL_MIN_LO 0, 0x400, 32, 1024, 1, .fixed 6, .axis 1, false, 0x0, 0xffffffff, 0x0, [], 0xffffffff, 0xffffffff, [], 0x0⟩,
  ⟨Reg.MPL_TRAVEL_MIN_HI 0, 0x400, 32, 1024, 1, .fixed 6, .axis 1, false, 0x0, 0xffffffff, 0x0, [], 0xffffffff, 0xffffffff, [], 0x0⟩,
  ⟨Reg.MPL_TRAVEL_MAX_LO 0, 0x400, 32, 1024, 1, .fixed 6, .axis 1, false, 0x0, 0xffffffff, 0x0, [], 0xffffffff, 0xffffffff, [], 0x0⟩,
  ⟨Reg.MPL_TRAVEL_MAX_HI 0, 0x400, 32, 1024, 1, .fixed 6, .axis 1, false, 0x0, 0xffffffff, 0x0, [], 0xffffffff, 0xffffffff, [], 0x0⟩,
  ⟨Reg.MPL_MASS 0, 0x400, 32, 1024, 1, .fixed 6, .axis 1, false, 0x0, 0xffffff, 0x0, [], 0xffffff, 0xffffff, [], 0x0⟩,
  ⟨Reg.MPL_KF 0, 0x400, 32, 1024, 1, .fixed 6, .axis 1, false, 0x0, 0xffffffff, 0x0, [], 0xffffffff, 0xffffffff, [], 0x0⟩,
  ⟨Reg.MPL_FRIC 0, 0x400, 32, 1024, 1, .fixed 6, .axis 1, false, 0x0, 0xffffffff, 0x0, [], 0xffff0000, 0xffff0000, [], 0x0⟩,
  ⟨Reg.MPL_IHOLD 0, 0x400, 32, 1024, 1, .fixed 6, .axis 1, false, 0x0, 0xffff, 0x0, [], 0xffff, 0xffff, [], 0x0⟩,
  ⟨Reg.MPL_FOLLOW 0, 0x400, 32, 1024, 1, .fixed 6, .axis 1, false, 0x0, 0xffffffff, 0x0, [], 0xffffffff, 0xffffffff, [], 0x0⟩,
  ⟨Reg.MPL_STAT 0, 0x400, 32, 1024, 1, .fixed 6, .none, false, 0x0, 0x0, 0x0, [], 0x0, 0x0, [], 0x0⟩,
  ⟨Reg.CLP_CTRL 0, 0x400, 32, 1024, 1, .bankDig 8, .axis 1, false, 0x0, 0xffff0001, 0x0, [], 0xffff0001, 0xffff0001, [], 0x0⟩,
  ⟨Reg.CLP_ILOOP 0, 0x400, 32, 1024, 1, .bankDig 8, .axis 1, false, 0x0, 0x1fff, 0x0, [], 0x1fff, 0x1fff, [], 0x0⟩]
def rows_axis_1 : List Row := [
  ⟨Reg.CLP_VLOOP 0, 0x400, 32, 1024, 1, .bankDig 8, .axis 1, false, 0x0, 0xffffffff, 0x0, [], 0xffffffff, 0xffffffff, [], 0x0⟩,
  ⟨Reg.CLP_PLOOP 0, 0x400, 32, 1024, 1, .bankDig 8, .axis 1, false, 0x0, 0xffff, 0x0, [], 0xffff, 0xffff, [], 0x0⟩,
  ⟨Reg.CLP_FERR 0, 0x400, 32, 1024, 1, .bankDig 8, .axis 1, false, 0x0, 0xffffffff, 0x0, [], 0xffffffff, 0xffffffff, [], 0x0⟩,
  ⟨Reg.CLP_KE 0, 0x400, 32, 1024, 1, .bankDig 8, .axis 1, false, 0x0, 0xffff, 0x0, [], 0xffff, 0xffff, [], 0x0⟩,
  ⟨Reg.CLP_DETENT 0, 0x400, 32, 1024, 1, .bankDig 8, .axis 1, false, 0x0, 0xffffffff, 0x0, [], 0xffffffff, 0xffffffff, [], 0x0⟩,
  ⟨Reg.CLP_IMS 0, 0x400, 32, 1024, 1, .bankDig 8, .axis 1, false, 0x0, 0xffff, 0x0, [], 0xffff, 0xffff, [], 0x0⟩,
  ⟨Reg.CLP_ID_CFG 0, 0x400, 32, 1024, 1, .bankDig 8, .axis 1, false, 0x0, 0xffff, 0x0, [], 0xffff, 0xffff, [], 0x0⟩,
  ⟨Reg.CLP_STAT 0, 0x400, 32, 1024, 1, .bankDig 8, .none, false, 0x0, 0x0, 0x4, [⟨15, 8, false⟩], 0x0, 0x0, [], 0x0⟩,
  ⟨Reg.CLP_RL 0, 0x400, 32, 0x4, 2, .bankDig 16, .axis 2, false, 0x0, 0xffffffff, 0x0, [], 0xffffffff, 0xffffffff, [], 0x0⟩,
  ⟨Reg.CLP_ID 0, 0x400, 32, 0x4, 2, .bankDig 16, .none, false, 0x0, 0x0, 0x0, [], 0x0, 0x0, [], 0x0⟩,
  ⟨Reg.LES_CFG 0, 0x400, 32, 1024, 1, .fixed 6, .axis 1, false, 0x0, 0xffffff77, 0x0, [], 0xffffff77, 0xffffff77, [⟨2, 0, 0, 6⟩, ⟨6, 4, 1, 7⟩, ⟨15, 8, 1, 255⟩, ⟨23, 16, 1, 255⟩, ⟨31, 24, 8, 255⟩], 0x20081424⟩,
  ⟨Reg.LES_VMIN 0, 0x400, 32, 1024, 1, .fixed 6, .axis 1, false, 0x0, 0xffffffff, 0x0, [], 0xffffffff, 0xffffffff, [], 0x40000⟩,
  ⟨Reg.LES_PLAUS 0, 0x400, 32, 1024, 1, .fixed 6, .axis 1, false, 0x0, 0xffffffff, 0x0, [], 0xffffffff, 0xffffffff, [], 0x80004000⟩,
  ⟨Reg.LES_STALL 0, 0x400, 32, 1024, 1, .fixed 6, .axis 1, false, 0x0, 0xffffffff, 0x0, [], 0xffffffff, 0xffffffff, [⟨7, 0, 0, 100⟩, ⟨15, 8, 1, 255⟩], 0x30001028⟩,
  ⟨Reg.LES_BLOCK 0, 0x400, 32, 1024, 1, .fixed 6, .axis 1, false, 0x0, 0xffffffff, 0x0, [], 0xffffffff, 0xffffffff, [⟨31, 24, 1, 255⟩], 0x8000000⟩,
  ⟨Reg.LES_SL 0, 0x400, 32, 1024, 1, .fixed 6, .axis 1, false, 0x0, 0xffff, 0x0, [], 0xffff, 0xffff, [], 0x0⟩,
  ⟨Reg.LES_STAT 0, 0x400, 32, 1024, 1, .fixed 6, .none, false, 0x0, 0x0, 0x70, [⟨15, 8, false⟩], 0x0, 0x0, [], 0x6⟩,
  ⟨Reg.LES_FORCE 0, 0x400, 32, 1024, 1, .fixed 6, .none, false, 0x0, 0x0, 0x0, [], 0x0, 0x0, [], 0x0⟩,
  ⟨Reg.LES_LOAD 0, 0x400, 32, 1024, 1, .fixed 6, .none, false, 0x0, 0x0, 0x0, [], 0x0, 0x0, [], 0x0⟩,
  ⟨Reg.LES_EST_LO 0, 0x400, 32, 1024, 1, .fixed 6, .none, false, 0x0, 0x0, 0x0, [], 0x0, 0x0, [], 0x0⟩,
  ⟨Reg.LES_EST_HI 0, 0x400, 32, 1024, 1, .fixed 6, .none, false, 0x0, 0x0, 0x0, [], 0x0, 0x0, [], 0x0⟩,
  ⟨Reg.LES_DIFF 0, 0x400, 32, 1024, 1, .fixed 6, .none, false, 0x0, 0x0, 0x0, [], 0x0, 0x0, [], 0x0⟩,
  ⟨Reg.FBK_CFG 0, 0x400, 32, 1024, 1, .bankDig 8, .axis 1, false, 0x0, 0xf707ff3f, 0x0, [], 0xf707ff3f, 0xf707ff3f, [⟨15, 8, 1, 255⟩, ⟨18, 16, 0, 4⟩], 0x20310⟩,
  ⟨Reg.FBK_RATIO 0, 0x400, 32, 1024, 1, .bankDig 8, .axis 1, false, 0x0, 0xffffffff, 0x0, [], 0xffffffff, 0xffffffff, [], 0x0⟩]
def rows_axis_2 : List Row := [
  ⟨Reg.FBK_OFS_LO 0, 0x400, 32, 1024, 1, .bankDig 8, .axis 1, false, 0x0, 0xffffffff, 0x0, [], 0xffffffff, 0xffffffff, [], 0x0⟩,
  ⟨Reg.FBK_OFS_HI 0, 0x400, 32, 1024, 1, .bankDig 8, .axis 1, false, 0x0, 0xffffffff, 0x0, [], 0xffffffff, 0xffffffff, [], 0x0⟩,
  ⟨Reg.FBK_SER_CFG 0, 0x400, 32, 1024, 1, .bankDig 8, .axis 1, false, 0x0, 0xff3fffff, 0x0, [], 0xff3ffc00, 0xff3ffc00, [⟨9, 0, 25, 1000⟩, ⟨15, 10, 8, 40⟩, ⟨20, 16, 3, 16⟩, ⟨31, 24, 1, 255⟩], 0x14086064⟩,
  ⟨Reg.FBK_SER_CRC 0, 0x400, 32, 1024, 1, .bankDig 8, .axis 1, false, 0x0, 0xffffffff, 0x0, [], 0xffffffff, 0xffffffff, [], 0x2f⟩,
  ⟨Reg.FBK_SER_TIM 0, 0x400, 32, 1024, 1, .bankDig 8, .axis 1, false, 0x0, 0x3fffffff, 0x0, [], 0x3fffffff, 0x3fffffff, [⟨29, 26, 2, 8⟩], 0x86450fa⟩,
  ⟨Reg.FBK_IDX_CFG 0, 0x400, 32, 1024, 1, .bankDig 8, .axis 1, false, 0x0, 0x7ffff, 0x0, [], 0x7ffff, 0x7ffff, [], 0x4⟩,
  ⟨Reg.FBK_IDX_PER 0, 0x400, 32, 1024, 1, .bankDig 8, .axis 1, false, 0x0, 0xffffffff, 0x0, [], 0xffffffff, 0xffffffff, [], 0x0⟩,
  ⟨Reg.FBK_IDX_POS 0, 0x400, 32, 1024, 1, .bankDig 8, .axis 1, false, 0x0, 0xffffffff, 0x0, [], 0xffffffff, 0xffffffff, [], 0x0⟩,
  ⟨Reg.FBK_SPD 0, 0x400, 32, 1024, 1, .bankDig 8, .axis 1, false, 0x0, 0xffff, 0x0, [], 0xffff, 0xffff, [⟨15, 0, 1, 65535⟩], 0x2710⟩,
  ⟨Reg.FBK_POS_LO 0, 0x400, 32, 1024, 1, .bankDig 8, .none, false, 0x0, 0x0, 0x0, [], 0x0, 0x0, [], 0x0⟩,
  ⟨Reg.FBK_POS_HI 0, 0x400, 32, 1024, 1, .bankDig 8, .none, false, 0x0, 0x0, 0x0, [], 0x0, 0x0, [], 0x0⟩,
  ⟨Reg.FBK_ADJ_LO 0, 0x400, 32, 1024, 1, .bankDig 8, .none, false, 0x0, 0x0, 0x0, [], 0x0, 0x0, [], 0x0⟩,
  ⟨Reg.FBK_ADJ_HI 0, 0x400, 32, 1024, 1, .bankDig 8, .none, false, 0x0, 0x0, 0x0, [], 0x0, 0x0, [], 0x0⟩,
  ⟨Reg.FBK_SPEED 0, 0x400, 32, 1024, 1, .bankDig 8, .none, false, 0x0, 0x0, 0x0, [], 0x0, 0x0, [], 0x0⟩,
  ⟨Reg.FBK_STEP 0, 0x400, 32, 1024, 1, .bankDig 8, .none, false, 0x0, 0x0, 0x0, [], 0x0, 0x0, [], 0x0⟩,
  ⟨Reg.FBK_LINK 0, 0x400, 32, 1024, 1, .bankDig 8, .none, false, 0x0, 0x0, 0x0, [], 0x0, 0x0, [], 0x0⟩,
  ⟨Reg.FBK_STAT 0, 0x400, 32, 1024, 1, .bankDig 8, .none, false, 0x0, 0x0, 0x1cbe, [⟨23, 16, false⟩], 0x0, 0x0, [], 0x0⟩,
  ⟨Reg.FBK_IDX_STAT 0, 0x400, 32, 1024, 1, .bankDig 8, .none, false, 0x0, 0x0, 0x0, [⟨23, 16, false⟩, ⟨31, 24, false⟩], 0x0, 0x0, [], 0x0⟩,
  ⟨Reg.FBK_CMP_LO 0, 0x400, 32, 1024, 1, .bankDig 8, .none, false, 0xffffffff, 0x0, 0x0, [], 0x0, 0x0, [], 0x0⟩,
  ⟨Reg.FBK_CMP_HI 0, 0x400, 32, 1024, 1, .bankDig 8, .none, false, 0xffffffff, 0x0, 0x0, [], 0x0, 0x0, [], 0x0⟩,
  ⟨Reg.FBK_CMP_SPACE 0, 0x400, 32, 1024, 1, .bankDig 8, .none, false, 0xffffffff, 0x0, 0x0, [], 0x0, 0x0, [], 0x0⟩,
  ⟨Reg.FBK_CMP_CTRL 0, 0x400, 32, 1024, 1, .bankDig 8, .none, false, 0x3, 0x0, 0x0, [], 0x0, 0x0, [], 0x0⟩,
  ⟨Reg.FBK_CMP_NEXT_LO 0, 0x400, 32, 1024, 1, .bankDig 8, .none, false, 0x0, 0x0, 0x0, [], 0x0, 0x0, [], 0x0⟩,
  ⟨Reg.FBK_CMP_NEXT_HI 0, 0x400, 32, 1024, 1, .bankDig 8, .none, false, 0x0, 0x0, 0x0, [], 0x0, 0x0, [], 0x0⟩]
def rows_axis_3 : List Row := [
  ⟨Reg.FBK_CMP_HITS 0, 0x400, 32, 1024, 1, .bankDig 8, .none, false, 0x0, 0x0, 0x0, [⟨31, 0, true⟩], 0x0, 0x0, [], 0x0⟩,
  ⟨Reg.FBK_CMP_STAT 0, 0x400, 32, 1024, 1, .bankDig 8, .none, false, 0x0, 0x0, 0x4, [⟨15, 8, false⟩], 0x0, 0x0, [], 0x0⟩,
  ⟨Reg.FCS_SS1_CFG 0, 0x400, 32, 1024, 1, .fixed 1, .fixed 2, false, 0x0, 0xffff01ff, 0x0, [], 0xffff01ff, 0x0, [⟨7, 0, 0, 50⟩], 0x7d00114⟩,
  ⟨Reg.FCS_SS1_VEL 0, 0x400, 32, 1024, 1, .fixed 1, .fixed 2, false, 0x0, 0xffffffff, 0x0, [], 0xffffffff, 0x0, [], 0x10000⟩]
def rows_axis : List Row := rows_axis_0 ++ rows_axis_1 ++ rows_axis_2 ++ rows_axis_3

/-- The rows of the window [0x40000, 0x80000). -/
def rows_ctxPage : List Row := [
  ⟨Reg.HIF_CTX_DB 0, 0x1000, 64, 4096, 1, .fixed 5, .none, false, 0xffffffff, 0x0, 0x0, [], 0x0, 0x0, [], 0x0⟩,
  ⟨Reg.HIF_CTX_CQ_HEAD 0, 0x1000, 64, 4096, 1, .fixed 5, .none, false, 0xffffffff, 0x0, 0x0, [], 0x0, 0x0, [], 0x0⟩,
  ⟨Reg.HIF_CTX_EQ_HEAD 0, 0x1000, 64, 4096, 1, .fixed 5, .none, false, 0xffffffff, 0x0, 0x0, [], 0x0, 0x0, [], 0x0⟩,
  ⟨Reg.HIF_CTX_CONS 0, 0x1000, 64, 4096, 1, .fixed 5, .none, false, 0x0, 0x0, 0x0, [], 0x0, 0x0, [], 0x0⟩,
  ⟨Reg.HIF_CTX_CQ_TAIL 0, 0x1000, 64, 4096, 1, .fixed 5, .none, false, 0x0, 0x0, 0x0, [], 0x0, 0x0, [], 0x0⟩,
  ⟨Reg.HIF_CTX_EQ_TAIL 0, 0x1000, 64, 4096, 1, .fixed 5, .none, false, 0x0, 0x0, 0x0, [], 0x0, 0x0, [], 0x0⟩,
  ⟨Reg.HIF_CTX_INFL 0, 0x1000, 64, 4096, 1, .fixed 5, .none, false, 0x0, 0x0, 0x0, [], 0x0, 0x0, [], 0x0⟩,
  ⟨Reg.HIF_CTX_STAT 0, 0x1000, 64, 4096, 1, .fixed 5, .none, false, 0x0, 0x0, 0x7, [⟨15, 8, false⟩], 0x0, 0x0, [], 0x0⟩]

/-- The rows of the window an offset lies in (R454). -/
def rowsAt (off : Nat) : List Row :=
  if off < 0x2000 then rows_glbHif
  else if off < 0x3000 then rows_ctxCfg
  else if off < 0x4000 then rows_tlm
  else if off < 0x4400 then rows_tbs
  else if off < 0x4800 then rows_lcs
  else if off < 0x5000 then rows_fcsCkgPmu
  else if off < 0x6000 then rows_cnd
  else if off < 0x10000 then rows_src
  else if off < 0x20000 then rows_bankBlk
  else if off < 0x40000 then rows_axis
  else if off < 0x80000 then rows_ctxPage
  else []

/-- Every row of the map. -/
def allRows : List Row :=
  rows_glbHif ++ rows_ctxCfg ++ rows_tlm ++ rows_tbs ++ rows_lcs ++ rows_fcsCkgPmu ++ rows_cnd ++ rows_src ++ rows_bankBlk ++ rows_axis ++ rows_ctxPage

/-- The index of the instance of row r that lies at off, if one does (R455). -/
def Row.index? (r : Row) (off : Nat) : Option Nat :=
  let d := off - r.base
  let i := d / r.s1
  let j := d % r.s1 / r.s2
  if r.base ≤ off ∧ d % r.s1 % r.s2 = 0 ∧ i < r.c1 ∧ j < r.c2 then some (i * r.c2 + j) else none

def findRow : List Row → Nat → Option (Row × Nat)
  | [], _ => none
  | r :: rs, off =>
    match r.index? off with
    | some i => some (r, i)
    | none => findRow rs off

/-- The register at an offset and its index; none at a reserved offset (R456). -/
def rowOf (off : Nat) : Option (Row × Nat) := findRow (rowsAt off) off

/-- The offset of instance i of a row (R455). -/
def Row.offset (r : Row) (i : Nat) : Nat := r.base + r.s1 * (i / r.c2) + r.s2 * (i % r.c2)

/-- How many instances a row has. -/
def Row.count (r : Row) : Nat := r.c1 * r.c2

def DomK.dom (k : DomK) (i : Nat) (p : Port) : Nat :=
  match k with
  | .fixed d => d
  | .bankDig per => 8 + i / per
  | .bankAna per => 12 + i / per
  | .port => 3 + p.num

/-- The mask bit of the update group of instance i (R80). -/
def GrpK.bit? (k : GrpK) (i : Nat) : Option Nat :=
  match k with
  | .none => Option.none
  | .fixed g => some g
  | .bank per => some (8 + i / per)
  | .axis per => some (32 + i / per)

end Sys2Proof.Machine
end

