-- ==== Sys2Proof/Machine/ResetWords.lean ====
section
/-! DEFINITION. The reset word of every register (R454 to R466) and the default classification of every fault
source (R345). -/

namespace Sys2Proof.Machine

/-- Threshold N, window W in µs, scope code of R350 (0 NOTE, 1 AXIS_STOP, 2 AXIS_OFF, 3 BANK_OFF, 4 DEVICE_OFF) and
the code of the least scope the host may set (the floor column of R345). -/
structure SrcRow where
  n : Nat
  w : Nat
  scope : Nat
  floor : Nat
deriving DecidableEq, Repr

/-- Device-level sources 0 to 63 of R345. -/
def devSource (s : Nat) : Option SrcRow :=
  if s = 8 ∨ s = 9 ∨ s = 11 then some ⟨1, 1000000, 0, 0⟩
  else if s = 10 then some ⟨1, 1000000, 4, 4⟩
  else if s = 16 ∨ s = 17 then some ⟨1, 1000000, 0, 0⟩
  else if s = 18 ∨ s = 19 then some ⟨1, 1000000, 1, 0⟩
  else if 20 ≤ s ∧ s ≤ 22 then some ⟨1, 1000000, 0, 0⟩
  else if s = 23 then some ⟨1, 1000000, 1, 1⟩
  else if s = 24 then some ⟨1, 1000000, 4, 1⟩
  else if s = 25 then some ⟨1, 1000000, 4, 4⟩
  else if s = 26 then some ⟨1, 1000000, 1, 0⟩
  else if 27 ≤ s ∧ s ≤ 29 then some ⟨1, 1000000, 4, 4⟩
  else if s = 30 then some ⟨1, 1000000, 1, 0⟩
  else if s = 31 then some ⟨1, 1000000, 0, 0⟩
  else if 32 ≤ s ∧ s ≤ 34 then some ⟨1, 1000000, 4, 4⟩
  else if s = 35 then some ⟨1, 1000000, 4, 1⟩
  else if s = 36 then some ⟨1, 1000000, 2, 2⟩
  else if 40 ≤ s ∧ s ≤ 44 then some ⟨1, 1000000, 0, 0⟩
  else none

/-- Bank-level sources 64 + 16b + i of R345. -/
def bankSource (i : Nat) : Option SrcRow :=
  if i = 0 then some ⟨1, 1000000, 4, 3⟩
  else if i = 1 then some ⟨1, 1000000, 1, 0⟩
  else if i = 2 ∨ i = 3 then some ⟨1, 1000000, 3, 0⟩
  else if i = 4 ∨ i = 5 then some ⟨1, 1000000, 1, 0⟩
  else if i = 6 then some ⟨1, 1000000, 3, 3⟩
  else if i = 7 then some ⟨1, 1000000, 0, 0⟩
  else if i = 8 then some ⟨1, 1000000, 3, 3⟩
  else if i = 9 then some ⟨1, 1000000, 0, 0⟩
  else if i = 10 then some ⟨1, 1000000, 3, 3⟩
  else if i = 11 then some ⟨1, 1000000, 0, 0⟩
  else if i = 12 then some ⟨1, 1000000, 3, 3⟩
  else none

/-- Axis-level sources 128 + 16n + i of R345. -/
def axisSource (i : Nat) : Option SrcRow :=
  if i = 0 then some ⟨3, 10000, 2, 2⟩
  else if i = 1 then some ⟨2, 10000, 2, 2⟩
  else if i = 2 then some ⟨16, 100000, 2, 0⟩
  else if i = 3 then some ⟨1, 1000000, 2, 2⟩
  else if i = 4 ∨ i = 5 ∨ i = 6 then some ⟨1, 1000000, 1, 0⟩
  else if i = 7 then some ⟨1, 1000000, 0, 0⟩
  else if i = 8 ∨ i = 9 then some ⟨1, 1000000, 1, 1⟩
  else if i = 10 ∨ i = 11 then some ⟨1, 1000000, 1, 0⟩
  else some ⟨1, 1000000, 0, 0⟩

/-- The row of R345 for source s; none for a source that is not used. -/
def sourceRow (s : Nat) : Option SrcRow :=
  if s < 64 then devSource s
  else if s < 128 then bankSource ((s - 64) % 16)
  else if s < 640 then axisSource ((s - 128) % 16)
  else none

/-- Port B's copies of the port registers stand at their offset plus this. -/
def portBBase : Nat := 0x10000000

/-- Where a port's copy of a port register (or of the MSI-X table) is kept. -/
def portOff (p : Port) (off : Nat) : Nat :=
  match p with
  | .A => off
  | .B => off + portBBase

/-- The reset word of the register kept at off (R458 to R466, R102 for context 0); a vector of the MSI-X table is
masked at reset (PRESUMED: PCI Express Base Specification, log entry 14). -/
def resetWord (off0 : Nat) : Word :=
  let off := off0 % portBBase
  if off = 0x2000 then 0x00084441#32
  else if off = 0x2008 then 0xFFFFFFFF#32
  else if off = 0x200C then 0x000000FF#32
  else if 0x6000 ≤ off ∧ off < 0x8800 then
    match sourceRow ((off - 0x6000) / 16) with
    | none => 0#32
    | some r =>
      if off % 16 = 0 then BitVec.ofNat 32 (16 * r.n + r.scope)
      else if off % 16 = 4 then BitVec.ofNat 32 r.w
      else 0#32
  else if 0x20000 ≤ off ∧ off < 0x28000 ∧ off % 0x400 = 0x180 then
    BitVec.ofNat 32 (0x00020310 + 0x01000000 * ((off - 0x20000) / 0x400 % 8))
  else if 0x80000 ≤ off ∧ off < 0x80400 then
    if off % 16 = 12 then 1#32 else 0#32
  else
    match rowOf off with
    | some (r, _) => BitVec.ofNat 32 r.reset
    | none => 0#32

end Sys2Proof.Machine
end

