-- ==== Sys2Proof/Machine/State.lean ====
section
/-! DEFINITION. The state of the block as plain data, the reasons a step can stop, and the state right after reset. -/

namespace Sys2Proof.Machine

/-- The state of an axis (R169). -/
inductive AxState where
  | off | standing | moving | following | braking | reversing | curtailing | ss1
deriving DecidableEq, Repr

/-- The STATE code of MPL_STAT (R169). -/
def AxState.code : AxState → Nat
  | .off => 0 | .standing => 1 | .moving => 2 | .following => 3
  | .braking => 4 | .reversing => 5 | .curtailing => 6 | .ss1 => 7

/-- One phase of a profile: its duration in seconds (for a profile a multiple of 4 ns, R165) and its constant jerk in
counts/s³ (R162). -/
structure Phase where
  dt : Rat
  j : Rat
deriving DecidableEq, Repr

/-- A position reference: from GTC t0 (ns) it starts at (x0, v0, a0), runs the phases, and rests at xEnd after them. -/
structure Motion where
  t0 : Nat
  x0 : Rat
  v0 : Rat
  a0 : Rat
  phases : List Phase
  xEnd : Rat
deriving DecidableEq, Repr

def Motion.still (x : Rat) : Motion := ⟨0, x, 0, 0, [], x⟩

/-- Why an axis leaves its segment early (R160); a reversal carries the force estimate of the tripping axis. -/
inductive Cause where
  | stop (tag : Nat)
  | fault (src : Nat)
  | ss1Host
  | sto (which : Nat)
  | reversal (force : Nat)
  | curtail (budget : Nat)
deriving DecidableEq, Repr

/-- A galley entry (R155): an accepted operation on one axis. t2 none is an open end (R134, R135). vPeak is the peak
speed, fLim the segment's force limit in 0.1 N. Once the segment has begun, mo is the motion it runs. -/
structure Seg where
  tag : Nat
  op : Nat
  ctx : Ctx
  d : Desc
  t1 : Nat
  t2 : Option Nat
  begun : Bool
  mo : Motion
  vPeak : Rat
  fLim : Nat
deriving DecidableEq, Repr

/-- A share of the bank timeline (R180): mA from t0 until t1, or into the tail. -/
structure Booking where
  t0 : Nat
  t1 : Option Nat
  mA : Nat
deriving DecidableEq, Repr

/-- An early leaving (R160, R161): its cause, whether braking has begun, the clock from which the first half-frame tick
begins it, whether the gate enables go at standstill (R361), the reversal end x_r while it is still to be moved to (R175),
and whether an obstruction was set aside (R25). -/
structure Leaving where
  cause : Cause
  begun : Bool
  due : Nat
  gatesOff : Bool
  revTo : Option Rat
  opening : Bool
  skipped : Bool
deriving DecidableEq, Repr

/-- The step follower of R190: the step count taken last, the target position, the reference state (x, v, a) and whether it
lags. -/
structure Follow where
  base : Int
  target : Rat
  x : Rat
  v : Rat
  a : Rat
  lagging : Bool
deriving DecidableEq, Repr

/-- A safe stop 1 in progress (R361, R362): the clock of its request and of its mark, t_b in core clocks, |v_ref| and a_f
at t_b, the consecutive half-frames outside the envelope and those at or below SSV. -/
structure Ss1 where
  asked : Nat
  begun : Option Nat
  v0 : Rat
  af : Rat
  bad : Nat
  slow : Nat
deriving DecidableEq, Repr

/-- The planner's part of an axis. -/
structure AxisPlan where
  st : AxState
  ref : Motion
  galley : List Seg
  leave : Option Leaving
  book : List Booking
  follow : Option Follow
  homed : Bool
  holdMa : Nat
  stopRamp : Motion
  travelOut : Bool
  useLes : Bool
deriving DecidableEq, Repr

/-- An operation that holds a tag (R111): its descriptor, the axes it names, its planned start and end; left holds the
axes a STOP still waits for (R133), unaligned that PTM lock was lost after its acceptance (R59), data what its own
steps keep (R142, R143, R422). -/
structure Op where
  tag : Nat
  ctx : Ctx
  op : Nat
  d : Desc
  index : Nat
  axes : List Axis
  t1 : Nat
  t2 : Option Nat
  begun : Bool
  deferred : Bool
  left : List Axis
  unaligned : Bool
  data : List Nat
deriving DecidableEq, Repr

/-- DMA traffic classes of R97, highest first. -/
inductive Dma where
  | page | fetch | completion | event | telemetry
deriving DecidableEq, Repr

/-- What the device has sent on its ports, oldest first. A record write carries its context and ring index, a telemetry block
its stream and whether it completes a block (R118), a message the address and data of its table entry (R116). -/
inductive Out where
  | read (p : Port) (cls : Dma) (addr len : Nat)
  | record (p : Port) (k : Ctx) (cls : Dma) (index addr : Nat) (words : List Word)
  | data (p : Port) (addr : Nat) (words : List Word)
  | block (p : Port) (i : Fin 8) (last : Bool) (addr : Nat) (words : List Word)
  | msix (p : Port) (k : Ctx) (addr : Nat) (data : Word)
  | ptm (p : Port)
  | cmpPulse (n : Axis)
  | alive (a : Bool) (high : Bool)
  | value (p : Port) (w : Word)
deriving DecidableEq, Repr

/-- A record or a data write held for a port (R124). -/
inductive Held where
  | record (k : Ctx) (cls : Dma) (index addr : Nat) (words : List Word)
  | data (addr : Nat) (words : List Word)
deriving DecidableEq, Repr

/-- One port: whether its link has trained since reset, what its configuration space holds (bus mastering, PTM, the MSI-X
enable and function mask, the codes of Max_Read_Request_Size and Max_Payload_Size, D3hot), the clock its link last came up or
went down, whether its page is out or MMIO contexts wait for the boundary's changes (R107), its watchdog, its indirect window
with the clock of the latest access to it and of the latest fetch, and its held records. -/
structure PortS where
  everUp : Bool
  master : Bool
  ptmOn : Bool
  msixOn : Bool
  fmask : Bool
  maxRead : Nat
  maxPay : Nat
  d3 : Bool
  downAt : Nat
  page : Bool
  mmio : Bool
  dogRun : Bool
  dogAt : Nat
  fetching : Bool
  winAt : Nat
  doneAt : Option Nat
  held : List Held
deriving DecidableEq, Repr

/-- A member of a barrier group held undecided (R137): its opcode, descriptor and ring index. -/
structure Member where
  op : Nat
  d : Desc
  index : Nat
deriving DecidableEq, Repr

/-- One context: what the frame tick snapshot gave (R110), descriptors still to arrive, phase waiting, barrier members,
decision records kept back for ring order (R150), lost events, unsignalled records with the TIME in force for them (R115),
and a quota accepted for the next frame tick with the clock of its decision. -/
structure CtxS where
  snapDb : Nat
  snapF : Nat
  snapI : Nat
  due : Nat
  waits : Nat
  stalled : Bool
  overrunAt : Option Nat
  lost : Nat
  unsig : Nat
  unsigAt : Nat
  modTime : Nat
  members : List Member
  kept : List (Nat × List Word)
  quota : Option (Nat × Nat)
deriving DecidableEq, Repr

/-- One write of a telemetry block: whether it completes the block, its address and its words (R118). -/
structure BlockPart where
  last : Bool
  addr : Nat
  words : List Word
deriving DecidableEq, Repr

/-- A telemetry block not yet issued: its port, the bytes TAIL moves by, and its writes, filler first (R118). -/
structure Block where
  port : Port
  bytes : Nat
  parts : List BlockPart
deriving DecidableEq, Repr

/-- One telemetry stream (R117, R140), with the block that waits to be issued (R118). -/
structure StreamS where
  owner : Option Ctx
  startAt : Nat
  decim : Nat
  axes : Nat
  asig : Nat
  bsig : Nat
  count : Nat
  seq : Nat
  gap : Bool
  wait : Option Block
deriving DecidableEq, Repr

/-- A request that waits for a frame boundary (R82), listed with the clock it was made at. -/
inductive Req where
  | strobe | clearSrc (n : Nat) | clearAll | lockUp | unlock | handover | claim (p : Port) | owt (b : Bank)
  | clkReturn | fallowEnter | halt | resume | cmdReset | gtcStep (ns : Nat)
deriving DecidableEq, Repr

/-- What the sequencer keeps of a source that has tripped (R346, R347): its latch, the stamps of its counted trips in core
clocks, the scope launched, and the trips since the latest record. -/
structure SrcS where
  src : Nat
  severe : Bool
  active : Bool
  sec : Bool
  total : Nat
  stamps : List Nat
  scope : Nat
  recAt : Nat
  since : Nat
  recorded : Bool
  object : Option Nat
deriving DecidableEq, Repr

/-- An open cascade window (R354): its cause, the core clock of its opening, its length, the axes its cause acts on and
the secondary sources it has a record of (R357). -/
structure Win where
  src : Nat
  t0 : Nat
  len : Nat
  axes : Nat
  seen : List Nat
deriving DecidableEq, Repr

/-- The safety island (R16, R359, R361, R366): tripped sources, windows, the record store and the number of records since
reset, the axes under SS1, the ALIVE outputs (level and clock of the latest edge), and of the STO inputs the clock of their
latest change and whether a discrepancy keeps the enables away (R278 to R280). -/
structure FcsS where
  srcs : List SrcS
  wins : List Win
  recs : List (List Word)
  recN : Nat
  ss1 : Vector (Option Ss1) 32
  levelA : Bool
  levelB : Bool
  edgeA : Nat
  edgeB : Nat
  stoAt : Nat
  discWait : Bool
deriving DecidableEq, Repr

/-- A soft turn-off in progress (R267): the clock of step 2. -/
structure Soft where
  step2 : Nat
deriving DecidableEq, Repr

/-- A half-bridge (R212 to R225, R257 to R261): the clock of its cycle-by-cycle trip with the reload points since, and
whether it fell into a notch whose end is then no rising edge (R269); the holds of a reaction, of lost edges, of the gate
supply and of the interlock; its soft turn-off; the latest writes of its compare shadow and of its open-loop low-side
shadow, with the values before them; consecutive saturated periods, and whether the low-side pulse around the coming or
present valley and the high-side one around the peak are left out (R212); whether the period is notched; the compare value
of the half-carrier before, and the independent low-side on-times of this one and that one; whether its present request for
both switches was reported; the level it holds in debug halt with the clock of its latest refresh notch there; whether the
bootstrap comparator tripped in this period; the force word in effect since a reload, with the gate that was on before it
(R223); and the level it keeps after a change of PERIOD until its first reload (R214). -/
structure HbS where
  trip : Option (Nat × Nat)
  noRise : Bool
  react : Bool
  edge : Bool
  vg : Bool
  ilk : Bool
  soft : Option Soft
  shdAt : Nat
  shdOld : Nat
  ollAt : Nat
  ollOld : Word
  sat : Nat
  lowSup : Bool
  highSup : Bool
  notched : Bool
  prev : Nat
  low : Option Nat
  lowPrev : Option Nat
  bothSeen : Bool
  frozen : Option Bool
  bst : Bool
  haltAt : Nat
  force : Nat
  was : Option Bool
  kept : Option (Option Bool)
deriving DecidableEq, Repr

/-- A current sample on its way to CLP (R195, R299): hold clock, the value in mA and whether it is valid. -/
structure Sample where
  hold : Nat
  mA : Rat
  ok : Bool
deriving DecidableEq, Repr

/-- A coil: the clock of its latest reload and sample, what ADC_SYNC showed before that sample's result was there, the
sample waiting for its coil step, the latest two valid currents, the latest two voltage commands and three back-EMF values
(R227), the currents in the rotor frame, the latest two torque currents in the frame of the active source (R235) and the run
of samples not usable (R24). -/
structure CoilS where
  reload : Nat
  valley : Bool
  sampledAt : Nat
  syncOld : Word
  doneAt : Nat
  waiting : Option Sample
  mA : Rat
  mAOld : Rat
  volt : Rat
  voltOld : Rat
  emf : Rat
  emfOld : Rat
  emfOld2 : Rat
  iq : Rat
  id : Rat
  iqAct : Rat
  iqOld : Rat
  bad : Nat
deriving DecidableEq, Repr

/-- The datapath's part of an axis (R195 to R203): the setpoint of the half-frame with the offset of a planned start in it,
in 4 ns units (R168), the latest two latched positions and speeds of the active source (R198), the integrators, and what the
latest half-frame did: whether CLP delivered signals (R234) and whether a coil A step ran (R206). -/
structure ClpS where
  start : Option Nat
  xRef : Rat
  vRef : Rat
  aRef : Rat
  iff : Rat
  xLat : Rat
  vLat : Rat
  tLat : Nat
  xLatOld : Rat
  vLatOld : Rat
  tLatOld : Nat
  iv : Rat
  zd : Rat
  zq : Rat
  vd : Rat
  vq : Rat
  idRef : Rat
  iqRef : Rat
  zd0 : Rat
  zq0 : Rat
  fresh : Bool
  ran : Bool
deriving DecidableEq, Repr

/-- The estimator's part of an axis (R228 to R246). phi is the angle of the tracking loop while VALID is clear (R230); onAt
the clock at which the axis was energised; win holds, newest first, k_F i_q in mN and the speed of the active source of each
half-frame; past is an armed segment that has ended in the half-frame in progress (R241); the counters are runs of
half-frames. -/
structure LesS where
  xEst : Rat
  theta : Rat
  phi : Rat
  onAt : Nat
  w : Rat
  acq : Nat
  off : Nat
  live : Nat
  moved : Nat
  blind : Nat
  win : List (Rat × Rat)
  obsN : Nat
  blkN : Nat
  past : Option Seg
  emfN : Nat
  angN : Nat
  plN : Nat
  good : Int
  stall : Bool
  failed : Bool
  noSrc : Bool
  /-- CLP delivered no signals in the last half-frame in which the axis was energised (R234). -/
  sigLost : Bool
  lostF : Bool
  plaus : Bool
deriving DecidableEq, Repr

/-- The feedback part of an axis (R320 to R341): the raw count u, whether an error has come since the latest latch point,
and whether the half-frame of that latch point was an error half-frame, the serial word in progress, the good words kept for
the speed, quadrature timing, the index and the compare. -/
structure FbkS where
  u : Int
  err : Bool
  bad : Bool
  errRun : Nat
  goodRun : Nat
  word : Option Nat
  seqNo : Option Nat
  errBit : Bool
  words : List (Int × Rat)
  fresh : Option Rat
  margins : List Nat
  eLast : Option (Int × Nat)
  eRef : Option (Int × Nat)
  edgeAt : Option Nat
  dir : Int
  vEdge : Rat
  phase : Option Nat
  idxSeen : Bool
  fix : Option Int
  homeIdx : Option Int
  homeHit : Option Rat
  steps : Int
  xPrev : Rat
  hit : Bool
deriving DecidableEq, Repr

/-- The bank analog block (R257, R261, R270 to R277): supply-monitor runs and re-arming, the brake's on time, the codes of
the half-frame and the mean of the preceding one, and the inputs. -/
structure GdrS where
  ovRun : Nat
  uvRun : Nat
  ovOut : Bool
  uvOut : Bool
  ovSafe : Nat
  uvSafe : Nat
  uvArmed : Bool
  uvGood : Nat
  brkAt : Option Nat
  brkOver : Bool
  vgLow : Bool
  markAt : Nat
  edgeLost : Bool
  ntcOut : Bool
  inA : Bool
  inB : Bool
  sum : Nat
  cnt : Nat
  mean : Option Rat
deriving DecidableEq, Repr

/-- The converter of a bank (R291 to R310): the LFSR, the clock until which each slice is busy and the one its coefficients
were latched at, the start of the resting slice's calibration, whether it has passed and waits to be put in service, the
start of a FULL calibration, whether coefficients are valid, the amplifier offsets (1/16 LSB), the frame ticks each coil's
axis has been de-energised for, up to 2, settling results left per coil and per entry, the results an entry's filter holds,
the clock from which the sequence may go on with the entry and slice of each conversion it has started in this frame (R290,
R301), and the open-wire test: its start and coils. -/
structure AdcS where
  lfsr : Nat
  busy : Vector Nat 5
  latched : Vector Nat 5
  calAt : Nat
  calDone : Bool
  full : Option Nat
  valid : Bool
  offset : Vector Int 16
  offAt : Vector (Option Nat) 16
  settle : Vector Nat 16
  auxSettle : Vector Nat 16
  aux : Vector (List Int) 16
  auxAt : Nat
  auxPicks : List (Nat × Nat)
  owt : Option (Nat × Nat)
deriving DecidableEq, Repr

/-- A bank's planner (R139, R184 to R186, R427): the budget accepted for the next frame tick with the clock of its decision,
the axes a curtailment still brakes, consecutive half-frames without setpoints, and whether the budget has left its reset
value. -/
structure BankS where
  budgetNext : Option (Nat × Nat)
  curtailed : List Axis
  missRun : Nat
  budgetSet : Bool
deriving DecidableEq, Repr

/-- A ledger entry (R448): its number, type, time and data, and the fault source it is for. -/
structure LedEntry where
  seq : Nat
  typ : Nat
  gtc : Nat
  data : List Word
  src : Option Nat
deriving DecidableEq, Repr

/-- The ledger and its queue (R446, R449): the words stored (an unlisted word is zero), the queue in D5, the reserve of
fault entries, entries that wait for room, the number dropped with the type of the latest, bad slots, and whether the
latest counter snapshot was written at an end (R450). -/
structure LedgerS where
  store : List (Nat × Word)
  nextSeq : Nat
  queue : List LedEntry
  reserve : List LedEntry
  waits : List LedEntry
  dropped : Nat
  lastType : Nat
  bad : List Nat
  ended : Bool
deriving DecidableEq, Repr

/-- The time base (R42 to R48): core clocks added to the frame in progress, the phase error still to be removed, the rise of
SYNC_OUT, the follower's run of good frames with the number of the latest, the frames without a usable edge, the times (in
ns of core clocks) of the latest edge and of the latest one used, and the PTM dialogues: clock of the latest one with the
GTC of its request, whether one is open, whether the next success is a first one, the offset before, the runs of good and
failed ones, and a slew in progress. -/
structure TbsS where
  trim : Int
  syncErr : Int
  syncRise : Option Nat
  syncGood : Nat
  syncGoodNo : Nat
  syncMiss : Nat
  syncEdge : Option Nat
  syncUsed : Option Nat
  edgeSeen : Bool
  ptmAt : Nat
  ptmT1 : Nat
  ptmBusy : Bool
  ptmPort : Nat
  ptmFirst : Bool
  ptmPrev : Int
  ptmGood : Nat
  ptmBad : Nat
  slew : Bool
deriving DecidableEq, Repr

/-- Clock generation (R373 to R388): the start of the XO, the good windows of XO and REC, since when each has been VALID,
the switch in progress (target, clock of its request, whether the outgoing clock had stopped), the start of holdover,
whether it has expired, the clock of the latest loss or retry of PLL lock, the RC trim kept in D0, whether a further switch
waits for the one in progress, the clock in which a failure last started a switch (R388), and CLKOUT's latest change of
setting: SEL and DIV before it, and its clock (R389). -/
structure CkgS where
  xoAt : Nat
  xoGood : Nat
  xoSince : Nat
  recGood : Nat
  recSince : Nat
  sw : Option (Nat × Nat × Bool)
  holdAt : Nat
  expired : Bool
  retryAt : Nat
  trimmed : Bool
  waits : Bool
  failAt : Option Nat
  outOld : Nat × Nat
  outAt : Nat
deriving DecidableEq, Repr

/-- Power management (R391 to R403): the rails inside their windows, VAON above its threshold and since when, PWREN, whether
it waits for a retry, and the clock of its latest rise or fall, domains on their way to power-good with the clock of their
request, the target whose conditions hold and since when, the state being entered, a wake event and its clock, a resume in
progress, and the GTC shadow's start. -/
structure PmuS where
  vaon : Bool
  vaonAt : Nat
  vdd : Bool
  vdda : Bool
  vioh : Bool
  pwren : Bool
  retry : Bool
  pwrenAt : Nat
  rails : Bool
  rising : List (Nat × Nat)
  since : Option (Nat × Nat)
  dwelt : Bool
  entering : Option Nat
  wake : Option (Nat × Nat)
  resuming : Bool
  shadow : Option (Nat × Nat)
deriving DecidableEq, Repr

/-- A firmware image of one slot (R421): its LENGTH, SVN and BUILD, and whether the digest recorded in D7 is its own. -/
structure Image where
  len : Nat
  svn : Nat
  build : Nat
  noted : Bool
deriving DecidableEq, Repr

/-- The configuration store (R416): the lock mask, the applied words of every register of its groups, the proof word. -/
structure Store where
  mask : Nat
  words : List (Nat × Word)
  proof : Word
deriving DecidableEq, Repr

/-- What LCS keeps (R92 to R94, R406 to R432): outstanding causes of HELD, RST_N low, the boot in progress (its start,
whether it is the short one, and its steps done), the configuration store, the proof word of the latest LOCKUP entry,
the freeze (mask and clock of the boundary), the mask under lock-up, the start of the running check, keys, images,
the load of a spare (core and clock of its start), random draws, the clock at which a command reset takes place, and an
authorised life-cycle transition: its target, its planned start and the owner key it brings. -/
structure LcsS where
  causes : List Nat
  rstLow : Bool
  bootAt : Nat
  booting : Bool
  short : Bool
  verified : Bool
  tested : Bool
  restored : Bool
  store : Option Store
  lockEntry : Option Word
  freeze : Option (Nat × Nat)
  locked : Nat
  passAt : Nat
  ownerKey : List Byte
  devKey : Option Nat
  active : Option Image
  staged : Option Image
  load : Option (Nat × Nat)
  draws : Nat
  nonce : Nat
  cmdAt : Option Nat
  transit : Option (Nat × Nat × List Byte)
deriving DecidableEq, Repr

/-- A place of a working field (R440): the register's offset and its kind 1 DT, 6 FRIC, 7 PER, 12 DER, 10 CALINT. -/
structure Target where
  off : Nat
  kind : Nat
  value : Nat
  prop : Nat
deriving DecidableEq, Repr

/-- A proposal (R444, R445): its entry, number, the place and value proposed, when it was posted, and its approval. -/
structure Prop_ where
  idx : Nat
  num : Nat
  off : Nat
  kind : Nat
  value : Nat
  made : Nat
  ok : Bool
deriving DecidableEq, Repr

/-- The condition monitor (R433 to R451). acc holds the readings of the interval, trend the trended values with the clock of
their latest reading, each by quantity and object; base the baseline; baseAt the latest REBASE; hist the evaluations a
baseline is taken over, and starts the clock from which an object's 24 hours run (R437). -/
structure CndS where
  acc : List (Nat × Nat × Int)
  trend : List (Nat × Nat × Int × Nat)
  base : List (Nat × Nat × Int)
  baseAt : Option Nat
  baseGtc : Nat
  hist : List (Nat × Nat × Int)
  starts : List (Nat × Nat × Nat)
  alerts : List (Nat × Nat)
  gaps : List (Nat × Nat)
  looser : List (Nat × Nat × Nat)
  declined : List (Nat × Nat × Nat)
  props : List Prop_
  nextNum : Nat
  wants : List Target
  evalAt : Nat
  trendAt : Nat
  snapAt : Nat
  fric : List (Nat × List Int)
  spans : List (Nat × Nat × Rat × Rat)
  motion : List (Nat × Nat × Rat)
  drops : List (Nat × Rat)
  before : List (Nat × Nat × Nat)
  lastOfs : List (Nat × Int × Nat)
  corrs : List (Nat × Nat × Nat)
  counts : List (Nat × Nat)
  minute : Nat
  travel : List (Nat × Rat)
  dexAt : Option Nat
  dexcy : List Byte
deriving DecidableEq, Repr

/-- The block has no fault of its own that stops it: every fault of the spec is an effect on the state (R344 to R372).
The one constructor stands for a reason no command raises. -/
inductive Fault where
  /-- Raised by no command. Safe: it is never answered. -/
  | none
deriving DecidableEq, Repr

/-- Why a command has no meaning. -/
inductive Refusal where
  /-- Raised by the dispatcher alone, for a command not modelled. Safe: the run stops. -/
  | notModelled (mnemonic : String)
deriving DecidableEq, Repr

/-- A buffered copy written in the present clock: its register, the bits written, and the copy and its marks before. -/
structure LateWrite where
  off : Nat
  mask : Nat
  buf : Word
  dirty : Word
deriving DecidableEq, Repr

/-- A trip that the present row has detected and not yet run (R50): a source, whether its condition persists, the object of a
record of source 36, and whether it also acted cycle-by-cycle. -/
structure TripReq where
  src : Nat
  active : Bool
  object : Option Nat
  loc : Bool
deriving DecidableEq, Repr

/-- What is noted within one core clock to settle accesses that fall into it: GO bits that software set (R71, R74), buffered
copies written (R82), the words registers had before it (R82, R107), the register each port accessed (R66), the bits of
FCS_SS1_DEM that hardware cleared (R372), and trips detected. -/
structure InClk where
  go : List (Nat × Word)
  late : List LateWrite
  words : List (Nat × Word)
  accA : Option Nat
  accB : Option Nat
  dem : Nat
  trips : List TripReq
deriving DecidableEq, Repr

structure State where
  pending : List Instr
  regs : List (Nat × Word)
  bufs : List (Nat × Word)
  dirty : List (Nat × Word)
  loHeld : List (Nat × Word)
  seqDone : List (Nat × Word)
  cntNow : List (Nat × Nat × Nat)
  inClk : InClk
  clk : Nat
  gtc : Nat
  gtcRuns : Bool
  ticking : Bool
  tickClk : Nat
  tickGtc : Nat
  half : Bool
  latches : Nat
  horizon : Nat
  cutoff : Bool
  reqs : List (Req × Nat)
  portA : PortS
  portB : PortS
  ctxs : Vector CtxS 64
  streams : Vector StreamS 8
  sent : List Out
  ops : List Op
  plans : Vector AxisPlan 32
  banks : Vector BankS 4
  fcs : FcsS
  hbs : Vector HbS 128
  coils : Vector CoilS 64
  clps : Vector ClpS 32
  less : Vector LesS 32
  fbks : Vector FbkS 32
  gdrs : Vector GdrS 4
  adcs : Vector AdcS 4
  ledger : LedgerS
  tbs : TbsS
  ckg : CkgS
  pmu : PmuS
  lcs : LcsS
  cnd : CndS
  freeCtr : Nat
deriving DecidableEq, Repr

/-! ### Reset

Every part of the state as it stands after a reset that wipes it (R408, R23); the values the spec does not give are zero or empty
(log entry 3). -/

def PortS.init : PortS :=
  ⟨false, false, false, false, false, 2, 0, false, 0, false, false, false, 0, true, 0, none, []⟩
def CtxS.init : CtxS := ⟨0, 0, 0, 0, 0, false, none, 0, 0, 0, 0, [], [], none⟩
def StreamS.init : StreamS := ⟨none, 0, 0, 0, 0, 0, 0, 0, false, none⟩
def InClk.init : InClk := ⟨[], [], [], none, none, 0, []⟩
def AxisPlan.init : AxisPlan :=
  ⟨.off, Motion.still 0, [], none, [], none, false, 0, Motion.still 0, false, false⟩
def BankS.init : BankS := ⟨none, [], 0, false⟩
def FcsS.init : FcsS := ⟨[], [], [], 0, Vector.replicate 32 none, false, false, 0, 0, 0, false⟩
def HbS.init : HbS :=
  ⟨none, false, false, false, false, false, none, 0, 0, 0, 0#32, 0, false, true, false, 0, none, none, false, none, false, 0, 0,
   none, none⟩
def CoilS.init : CoilS := ⟨0, false, 0, 0xC0000000#32, 0, none, 0, 0, 0, 0, 0, 0, 0, 0, 0, 0, 0, 0⟩
def ClpS.init : ClpS := ⟨none, 0, 0, 0, 0, 0, 0, 0, 0, 0, 0, 0, 0, 0, 0, 0, 0, 0, 0, 0, false, false⟩
def LesS.init : LesS := ⟨0, 0, 0, 0, 0, 0, 0, 0, 0, 0, [], 0, 0, none, 0, 0, 0, 0, false, false, false, false, false, false⟩
def FbkS.init : FbkS :=
  ⟨0, false, false, 0, 0, none, none, false, [], none, [], none, none, none, 0, 0, none, false, none, none, none, 0, 0, false⟩
def GdrS.init : GdrS := ⟨0, 0, false, false, 0, 0, false, 0, none, false, false, 0, false, false, false, false, 0, 0, none⟩

/-- The converter of a bank as D12+b is powered: the LFSR takes its seed (R292). -/
def AdcS.init (b : Nat) : AdcS :=
  ⟨Nat.xor 0x5A5A b, Vector.replicate 5 0, Vector.replicate 5 0, 0, false, none, false, Vector.replicate 16 0,
   Vector.replicate 16 none, Vector.replicate 16 0, Vector.replicate 16 0, Vector.replicate 16 [], 0, [], none⟩

def LedgerS.init : LedgerS := ⟨[], 1, [], [], [], 0, 0, [], false⟩
def TbsS.init : TbsS := ⟨0, 0, none, 0, 0, 0, none, none, false, 0, 0, false, 0, true, 0, 0, 0, false⟩
def CkgS.init : CkgS := ⟨0, 0, 0, 0, 0, none, 0, false, 0, false, false, none, (0, 0), 0⟩
def PmuS.init : PmuS :=
  ⟨true, 0, false, false, true, false, false, 0, false, [], none, false, none, none, false, none⟩
def LcsS.init : LcsS :=
  ⟨[], true, 0, false, false, false, false, false, none, none, none, 0, 0, [], none, some ⟨4096, 0, 0, true⟩, none, none, 0,
   0, none, none⟩
def CndS.init : CndS :=
  ⟨[], [], [], none, 0, [], [], [], [], [], [], [], 1, [], 0, 0, 0, [], [], [], [], [], [], [], [], 0, [], none, []⟩

/-- The machine right after a power-on reset: VAON has passed its threshold (time 0 of R392), D0 alone is powered, PWREN
is low, the XO starts and LCS_RST_CAUSE.POR is set (R375, R406); every other register holds its reset word (R458 to R466) and
nothing is stored. The life-cycle state is BLANK and the ACTIVE slot holds an image of BUILD 0 and SVN 0 (log entry 3). -/
def State.reset : State where
  pending := []
  regs := [(0x4444, 0x01000001#32), (0x4C0C, 0x00000024#32), (0x4D0C, 0x00000001#32)]
  bufs := []
  dirty := []
  loHeld := []
  seqDone := []
  cntNow := []
  inClk := InClk.init
  clk := 0
  gtc := 0
  gtcRuns := false
  ticking := false
  tickClk := 0
  tickGtc := 0
  half := false
  latches := 0
  horizon := 10000
  cutoff := false
  reqs := []
  portA := PortS.init
  portB := PortS.init
  ctxs := Vector.replicate 64 CtxS.init
  streams := Vector.replicate 8 StreamS.init
  sent := []
  ops := []
  plans := Vector.replicate 32 AxisPlan.init
  banks := Vector.replicate 4 BankS.init
  fcs := FcsS.init
  hbs := Vector.replicate 128 HbS.init
  coils := Vector.replicate 64 CoilS.init
  clps := Vector.replicate 32 ClpS.init
  less := Vector.replicate 32 LesS.init
  fbks := Vector.replicate 32 FbkS.init
  gdrs := Vector.replicate 4 GdrS.init
  adcs := Vector.ofFn fun b => AdcS.init b.val
  ledger := LedgerS.init
  tbs := TbsS.init
  ckg := CkgS.init
  pmu := PmuS.init
  lcs := LcsS.init
  cnd := CndS.init
  freeCtr := 0

end Sys2Proof.Machine
end

