-- ==== Sys2Proof/Machine/Ops.lean ====
section
/-! DEFINITION. The named operations: register reads and writes, the status fields with sequence numbers, counters,
and the passing of time. -/

namespace Sys2Proof.Machine

/-! ### Register words -/

/-- A file of words in canonical form: offsets strictly rising, no entry equal to its reset word. -/
def fileGet (dflt : Nat → Word) (f : List (Nat × Word)) (off : Nat) : Word :=
  match f.lookup off with
  | some w => w
  | none => dflt off

def fileIns (off : Nat) (w : Word) : List (Nat × Word) → List (Nat × Word)
  | [] => [(off, w)]
  | (k, v) :: t => if off < k then (off, w) :: (k, v) :: t else (k, v) :: fileIns off w t

def fileDel (off : Nat) : List (Nat × Word) → List (Nat × Word)
  | [] => []
  | (k, v) :: t => if k = off then fileDel off t else (k, v) :: fileDel off t

def filePut (dflt : Nat → Word) (f : List (Nat × Word)) (off : Nat) (w : Word) : List (Nat × Word) :=
  if w = dflt off then fileDel off f else fileIns off w (fileDel off f)

/-- The word a register holds (its applied value). -/
def State.reg (s : State) (off : Nat) : Word := fileGet resetWord s.regs off

def State.setReg (s : State) (off : Nat) (w : Word) : State := { s with regs := filePut resetWord s.regs off w }

/-- The buffered copy of a register with RWB fields (R80). -/
def State.buf (s : State) (off : Nat) : Word := fileGet resetWord s.bufs off

def State.setBuf (s : State) (off : Nat) (w : Word) : State := { s with bufs := filePut resetWord s.bufs off w }

/-- The bits of a register's RWB fields written since its group was last applied or discarded (R81). -/
def State.dirtyBits (s : State) (off : Nat) : Word := fileGet (fun _ => 0#32) s.dirty off

def State.setDirty (s : State) (off : Nat) (w : Word) : State :=
  { s with dirty := filePut (fun _ => 0#32) s.dirty off w }

/-- The applied value of a field. -/
def State.rd (s : State) (f : Fld) : Nat := f.get (s.reg f.off)

/-- A field that is one bit. -/
def State.flag (s : State) (f : Fld) : Bool := s.rd f % 2 = 1

/-- A field read as a signed number. -/
def State.rdS (s : State) (f : Fld) : Int := toSigned (f.hi + 1 - f.lo) (s.rd f)

/-- Hardware's write of a field. -/
def State.wr (s : State) (f : Fld) (v : Nat) : State := s.setReg f.off (f.put (s.reg f.off) v)

def State.wrB (s : State) (f : Fld) (v : Bool) : State := s.wr f (if v then 1 else 0)

def State.wrS (s : State) (f : Fld) (v : Int) : State := s.wr f (ofSigned (f.hi + 1 - f.lo) v)

/-- A 64-bit value in a pair of registers (R76), the LO register's offset given. -/
def State.rd64 (s : State) (lo : Nat) : Nat := (s.reg lo).toNat + 2 ^ 32 * (s.reg (lo + 4)).toNat

def State.rdS64 (s : State) (lo : Nat) : Int := toSigned 64 (s.rd64 lo)

def State.wr64 (s : State) (lo : Nat) (v : Nat) : State :=
  (s.setReg lo (BitVec.ofNat 32 v)).setReg (lo + 4) (BitVec.ofNat 32 (v / 2 ^ 32))

def State.wrS64 (s : State) (lo : Nat) (v : Int) : State := s.wr64 lo (ofSigned 64 v)

/-! ### Time -/

/-- One GTC step per core clock, in 2^-24 ns (R39). -/
def State.gtcInc (s : State) : Nat := ((2 ^ 26 : Int) + s.rdS F.TBS_GTC_RATE_RATE).toNat

/-- The GTC in whole ns, as registers and stamps carry it (R39). -/
def State.now (s : State) : Nat := s.gtc / 2 ^ 24 % 2 ^ 64

/-- Core clocks pass until clock c; time does not go back (log entry 2). The GTC runs only while it counts (R23). -/
def State.advTo (s : State) (c : Nat) : State :=
  if c ≤ s.clk then s
  else
    { s with clk := c,
             gtc := if s.gtcRuns then s.gtc + (c - s.clk) * s.gtcInc else s.gtc,
             seqDone := [], cntNow := [], inClk := InClk.init }

/-- Core clocks pass until the GTC reads at least t ns. -/
def State.advToGtc (s : State) (t : Nat) : State :=
  if t * 2 ^ 24 ≤ s.gtc ∨ s.gtcRuns = false then s
  else s.advTo (s.clk + ceilDiv (t * 2 ^ 24 - s.gtc) s.gtcInc)

/-- The length of the frame in progress in core clocks: PERIOD (R36), and what a SYNC follower adds to it (R47). -/
def State.period (s : State) : Nat := ((s.rd F.TBS_FRAME_PERIOD : Int) + s.tbs.trim).toNat

/-- The frame period TF in ns. -/
def State.tfNs (s : State) : Nat := 4 * s.rd F.TBS_FRAME_PERIOD

/-- The GTC of the latest frame tick, in ns (T_dec of R56 within the frame). -/
def State.tickNs (s : State) : Nat := s.tickGtc / 2 ^ 24 % 2 ^ 64

/-- The boundary of the frame: no clock has passed since the frame tick (R27). -/
def State.atTick (s : State) : Bool := s.clk = s.tickClk && s.ticking

/-- Milliseconds and microseconds of core clocks (R52). -/
def msClk (n : Nat) : Nat := 250000 * n
def usClk (n : Nat) : Nat := 250 * n

/-! ### Requests that wait for a frame boundary -/

/-- Post a request, stamped with the present clock (R82). -/
def State.post (s : State) (r : Req) : State := { s with reqs := s.reqs ++ [(r, s.clk)] }

def State.has (s : State) (r : Req) : Bool := s.reqs.any fun x => x.1 = r

/-- The request was made by the end of the core clock before the frame tick (R82). -/
def State.ripe (s : State) (r : Req) : Bool := s.reqs.any fun x => x.1 = r && x.2 < s.tickClk

/-- The request is taken at the frame tick; one made in the tick's own clock waits for the next (R82). -/
def State.drop (s : State) (r : Req) : State :=
  { s with reqs := s.reqs.filter fun x => x.1 ≠ r || s.tickClk ≤ x.2 }

/-- Hardware clears a GO bit whose function was taken at this tick, but where software has set it again meanwhile (R74). -/
def State.goDone (s : State) (r : Req) (f : Fld) : State := if s.has r then s else s.wr f 0

/-- Software set this GO bit in the present clock. -/
def State.goNow (s : State) (f : Fld) : Bool := bit f.lo ((s.inClk.go.lookup f.off).getD 0#32).toNat

/-- Hardware clears a GO bit as its function ends; software's set in the same clock wins, and `again` starts the function a
second time (R71, R74). -/
def State.goEnd (s : State) (f : Fld) (again : State → State) : State := if s.goNow f then again s else s.wr f 0

/-- The word of a register at the end of the core clock before the present one, as far as software has written it since
(R82, R107). -/
def State.before (s : State) (off : Nat) : Word := (s.inClk.words.lookup off).getD (s.reg off)

/-! ### Trips detected within a row (R50) -/

/-- A trip is detected; it runs with the others of its row, lowest source first (State.runTrips). -/
def State.detect (s : State) (src : Nat) (active : Bool := false) (object : Option Nat := none) (loc : Bool := false) :
    State :=
  { s with inClk := { s.inClk with trips := s.inClk.trips ++ [⟨src, active, object, loc⟩] } }

/-- A free value is drawn by number: nothing constrains it (log entry 1). -/
def State.drawn (s : State) : Nat := Config.freeNat s.freeCtr

def State.draw (s : State) : State := { s with freeCtr := s.freeCtr + 1 }

/-- What the device sends on a port. -/
def State.emit (s : State) (o : Out) : State := { s with sent := s.sent ++ [o] }

/-! ### Updates of one element of the state -/

def State.port (s : State) (p : Port) : PortS := match p with | .A => s.portA | .B => s.portB

def State.setPort (s : State) (p : Port) (x : PortS) : State :=
  match p with
  | .A => { s with portA := x }
  | .B => { s with portB := x }

def State.ctx (s : State) (k : Ctx) : CtxS := s.ctxs[k]
def State.setCtx (s : State) (k : Ctx) (x : CtxS) : State := { s with ctxs := s.ctxs.set k x }
def State.plan (s : State) (n : Axis) : AxisPlan := s.plans[n]
def State.setPlan (s : State) (n : Axis) (x : AxisPlan) : State := { s with plans := s.plans.set n x }
def State.stream (s : State) (i : Fin 8) : StreamS := s.streams[i]
def State.setStream (s : State) (i : Fin 8) (x : StreamS) : State := { s with streams := s.streams.set i x }
def State.bank (s : State) (b : Bank) : BankS := s.banks[b]
def State.setBank (s : State) (b : Bank) (x : BankS) : State := { s with banks := s.banks.set b x }

def State.hb (s : State) (h : HalfBridge) : HbS := s.hbs[h]
def State.setHb (s : State) (h : HalfBridge) (x : HbS) : State := { s with hbs := s.hbs.set h x }
def State.coil (s : State) (p : Coil) : CoilS := s.coils[p]
def State.setCoil (s : State) (p : Coil) (x : CoilS) : State := { s with coils := s.coils.set p x }
def State.clp (s : State) (n : Axis) : ClpS := s.clps[n]
def State.setClp (s : State) (n : Axis) (x : ClpS) : State := { s with clps := s.clps.set n x }
def State.les (s : State) (n : Axis) : LesS := s.less[n]
def State.setLes (s : State) (n : Axis) (x : LesS) : State := { s with less := s.less.set n x }
def State.fbk (s : State) (n : Axis) : FbkS := s.fbks[n]
def State.setFbk (s : State) (n : Axis) (x : FbkS) : State := { s with fbks := s.fbks.set n x }
def State.gdr (s : State) (b : Bank) : GdrS := s.gdrs[b]
def State.setGdr (s : State) (b : Bank) (x : GdrS) : State := { s with gdrs := s.gdrs.set b x }
def State.adc (s : State) (b : Bank) : AdcS := s.adcs[b]
def State.setAdc (s : State) (b : Bank) (x : AdcS) : State := { s with adcs := s.adcs.set b x }
def State.ss1 (s : State) (n : Axis) : Option Ss1 := s.fcs.ss1[n]
def State.setSs1 (s : State) (n : Axis) (x : Option Ss1) : State :=
  { s with fcs := { s.fcs with ss1 := s.fcs.ss1.set n x } }

/-- The half-bridges and coils of an axis and of a bank (R7). -/
def hbsOfAxis (n : Axis) : List HalfBridge := (List.finRange 4).map fun i => ⟨4 * n.val + i.val, by omega⟩
def coilsOfAxis (n : Axis) : List Coil := (List.finRange 2).map fun i => ⟨2 * n.val + i.val, by omega⟩
def hbsOfBank (b : Bank) : List HalfBridge := (List.finRange 32).map fun i => ⟨32 * b.val + i.val, by omega⟩
def hbsOfCoil (p : Coil) : List HalfBridge := (List.finRange 2).map fun i => ⟨2 * p.val + i.val, by omega⟩

/-- Run an update for every element of a list, in order. -/
def each {α : Type} (l : List α) (f : State → α → State) (s : State) : State := l.foldl f s

def allAxes : List Axis := List.finRange 32
def allBanks : List Bank := List.finRange 4
def allCtxs : List Ctx := List.finRange 64

/-- The axes whose bits are set in a mask (R102, R133). -/
def axesOfMask (m : Nat) : List Axis := allAxes.filter fun n => bit n.val m

def maskOfAxes (l : List Axis) : Nat := l.foldl (fun m n => if bit n.val m then m else m + 2 ^ n.val) 0

/-- An axis is energised while its state is not OFF (R475). -/
def State.energised (s : State) (n : Axis) : Bool := (s.plan n).st ≠ .off

def State.anyEnergised (s : State) : Bool := allAxes.any s.energised

def State.bankEnergised (s : State) (b : Bank) : Bool := (axesOfBank b).any s.energised

/-- Power domain d is powered (R20, R391); D0 is while VAON is above its threshold. -/
def State.powered (s : State) (d : Nat) : Bool := if d = 0 then s.pmu.vaon else bit d (s.rd F.PMU_DOM_STAT_PG)

/-- The wake events of R401 that act in a power state: 1 WAKE pin, 2 timer, 3 RESUME, 4 context page, 5 refused
descriptor, 6 LAT lowered. State 5 stands for FALLOW-0 (log entry 40). -/
def wakes (code st : Nat) : Bool :=
  if code = 1 then 2 ≤ st
  else if code = 2 then 2 ≤ st && st ≤ 4
  else if code = 3 || code = 6 then st = 2 || st = 3
  else if code = 4 then st = 3
  else code = 5 && st = 2

/-- A wake event arrives (R401, R403): in a Fallow state or during an entry, which it ends. Of events in one clock the
first row of the table counts. -/
def State.wakeEvent (s : State) (code : Nat) : State :=
  let st := match s.pmu.entering with | some t => t | none => s.rd F.PMU_STAT_STATE
  if wakes code st then
    match s.pmu.wake with
    | none => { s with pmu := { s.pmu with wake := some (code, s.clk) } }
    | some (c, t) => if t = s.clk && code < c then { s with pmu := { s.pmu with wake := some (code, t) } } else s
  else s

/-! ### Counters (R450) -/

/-- Counters by place (R450): a sparse list in rising byte offset; each saturates at 2^32 - 1. -/
def putCount (o v : Nat) : List (Nat × Nat) → List (Nat × Nat)
  | [] => [(o, v)]
  | (a, w) :: t => if o < a then (o, v) :: (a, w) :: t else if o = a then (o, v) :: t else (a, w) :: putCount o v t

def State.counter (s : State) (o : Nat) : Nat := (s.cnd.counts.lookup o).getD 0

def State.setCounter (s : State) (o v : Nat) : State :=
  { s with cnd := { s.cnd with counts := putCount o (min v (2 ^ 32 - 1)) s.cnd.counts } }

def State.addCounter (s : State) (o : Nat) (n : Nat := 1) : State := s.setCounter o (s.counter o + n)

/-- A part of a counter not yet whole, by place: cm of travel, minutes energised (R450). -/
def State.addPart (s : State) (o : Nat) (q : Rat) : State :=
  let v := (s.cnd.travel.lookup o).getD 0 + q
  let n := v.floor.toNat
  let s := { s with cnd := { s.cnd with
    travel := (s.cnd.travel.filter fun x : Nat × Rat => x.1 ≠ o) ++ [(o, v - (n : Rat))] } }
  if n = 0 then s else s.addCounter o n

end Sys2Proof.Machine
end

