-- ==== Sys2Proof/Machine/Operands.lean ====
section
/-! DEFINITION. The operand forms: descriptor fields (R127 to R144), byte enables and clipped values. -/

namespace Sys2Proof.Machine

end Sys2Proof.Machine

namespace Sys2Proof

open Sys2Proof.Machine

/-- The bytes i to i + n - 1 of a descriptor, i counted from byte 0 of the descriptor, little-endian (R6, R127). -/
def Desc.num (d : Desc) (i n : Nat) : Nat := leNat ((d.body.toList.drop (i - 16)).take n)

def Desc.u8 (d : Desc) (i : Nat) : Nat := d.num i 1
def Desc.u16 (d : Desc) (i : Nat) : Nat := d.num i 2
def Desc.u32 (d : Desc) (i : Nat) : Nat := d.num i 4
def Desc.i32 (d : Desc) (i : Nat) : Int := toSigned 32 (d.num i 4)
def Desc.u64 (d : Desc) (i : Nat) : Nat := d.num i 8
def Desc.i64 (d : Desc) (i : Nat) : Int := toSigned 64 (d.num i 8)

/-- The FLAGS bits of R128. -/
def Desc.asap (d : Desc) : Bool := bit 0 d.flags.toNat
def Desc.chain (d : Desc) : Bool := bit 1 d.flags.toNat
def Desc.closing (d : Desc) : Bool := bit 2 d.flags.toNat
def Desc.grouped (d : Desc) : Bool := bit 3 d.flags.toNat

end Sys2Proof

namespace Sys2Proof.Machine

/-- The mask of the bits a 4-bit byte enable selects (R63). -/
def beMask (be : Nat) : Nat :=
  (if bit 0 be then 0xFF else 0) + (if bit 1 be then 0xFF00 else 0) +
  (if bit 2 be then 0xFF0000 else 0) + (if bit 3 be then 0xFF000000 else 0)

/-- The bits of `new` selected by the mask laid over `old`. -/
def mergeMask (m : Nat) (old new : Word) : Word :=
  (old &&& ~~~(BitVec.ofNat 32 m)) ||| (new &&& BitVec.ofNat 32 m)

/-- One clip of a defining chapter applied to a word. -/
def clipWord (c : Clip) (w : Word) : Word :=
  let f : Fld := ⟨0, c.hi, c.lo⟩
  f.put w (clampNat c.min c.max (f.get w))

def applyClips (cs : List Clip) (w : Word) : Word := cs.foldl (fun w c => clipWord c w) w

end Sys2Proof.Machine
end

