-- ==== Sys2Proof/Machine/Plan.lean ====
section
/-! DEFINITION. Profiles, the Headland, the load model and predicted draws (R162 to R181): exact arithmetic on
rationals, durations rounded up to whole core clocks (R165). -/

namespace Sys2Proof.Machine

/-- Core clocks per second (R52). -/
def clkHz : Nat := 250000000

/-- The state (x, v, a) after τ seconds in a phase of jerk j (R162). -/
def phaseStep (x v a j τ : Rat) : Rat × Rat × Rat :=
  (x + v * τ + a * τ * τ / 2 + j * τ * τ * τ / 6, v + a * τ + j * τ * τ / 2, a + j * τ)

def walkPhases : List Phase → Rat → Rat → Rat → Rat → Rat → Rat × Rat × Rat
  | [], _, _, _, xEnd, _ => (xEnd, 0, 0)
  | ph :: ps, x, v, a, xEnd, τ =>
    if τ < ph.dt then phaseStep x v a ph.j τ
    else
      let s := phaseStep x v a ph.j ph.dt
      walkPhases ps s.1 s.2.1 s.2.2 xEnd (τ - ph.dt)

/-- The reference (x, v, a) of a motion at GTC t in ns. -/
def motionAt (m : Motion) (t : Nat) : Rat × Rat × Rat :=
  if t < m.t0 then (m.x0, m.v0, m.a0)
  else walkPhases m.phases m.x0 m.v0 m.a0 m.xEnd (((t - m.t0 : Nat) : Rat) / 1000000000)

def phasesTime (ps : List Phase) : Rat := (ps.map (·.dt)).foldl (· + ·) 0

/-- The time, in ns, a list of phases takes, rounded up (R170). -/
def phasesNs (ps : List Phase) : Nat := (phasesTime ps * 1000000000).ceil.toNat

/-- The (x, v, a) at the start of each phase and at the end. -/
def boundaryStates : List Phase → Rat → Rat → Rat → List (Rat × Rat × Rat)
  | [], x, v, a => [(x, v, a)]
  | ph :: ps, x, v, a =>
    let s := phaseStep x v a ph.j ph.dt
    (x, v, a) :: boundaryStates ps s.1 s.2.1 s.2.2

/-- t1 (phases 1 and 3) and t2 (phase 2) of a ramp, in core clocks, rounded up (R163, R165). -/
def rampClocks (v a j : Nat) : Nat × Nat :=
  if a * a ≤ v * j then (ceilDiv (a * clkHz) j, ceilDiv ((v * j - a * a) * clkHz) (a * j))
  else (ceilSqrt (ceilDiv (v * clkHz * clkHz) j), 0)

/-- d_r of R163 as r + m √s with rational r: (r, m, s). -/
def rampDist (v a j : Nat) : Rat × Rat × Rat :=
  if a * a ≤ v * j then ((v : Rat) * ((v : Rat) * j + (a : Rat) * a) / (2 * a * j), 0, 0)
  else (0, v, (v : Rat) / j)

/-- d_r(v, a) + d_r(v, d) ≤ l, decided exactly. -/
def rampsFit (v a d j : Nat) (l : Rat) : Bool :=
  let x := rampDist v a j
  let y := rampDist v d j
  let r := x.1 + y.1
  let m := x.2.1 + y.2.1
  let q := max x.2.2 y.2.2
  r ≤ l && m * m * q ≤ (l - r) * (l - r)

/-- Bisection for the largest value of [lo, hi] that passes a test which holds at lo (R164). -/
def bisectUp (ok : Nat → Bool) : Nat → Nat → Nat → Nat
  | 0, lo, _ => lo
  | fuel + 1, lo, hi =>
    if hi ≤ lo then lo
    else
      let mid := (lo + hi + 1) / 2
      if ok mid then bisectUp ok fuel mid hi else bisectUp ok fuel lo (mid - 1)

/-- The peak velocity of a move of distance l (R164). -/
def peakVel (v a d j : Nat) (l : Rat) : Nat :=
  if rampsFit v a d j l then v else bisectUp (fun u => rampsFit u a d j l) 40 0 v

/-- The cruise clocks: the least n for which the cruise at vp covers what the two ramps leave of l, rounded up (R165). -/
def cruiseClocks (vp a d j : Nat) (l : Rat) : Nat :=
  if vp = 0 then 0
  else
    let x := rampDist vp a j
    let y := rampDist vp d j
    let r := x.1 + y.1
    let m := x.2.1 + y.2.1
    let q := max x.2.2 y.2.2
    let long := fun n : Nat =>
      let g := l - r - (n : Rat) * vp / clkHz
      g ≤ 0 || g * g ≤ m * m * q
    let top := (((l - r) * clkHz / vp).ceil).toNat
    if long 0 then 0 else top - bisectUp (fun k => long (top - k)) 70 0 top

def clkSec (n : Nat) : Rat := (n : Rat) / clkHz

/-- The phases of a rest-to-rest profile whose durations are fixed and whose peak velocity is v (R165), signed by dir. -/
def profilePhases (dir : Rat) (v : Rat) (ra : Nat × Nat) (t4 : Nat) (rd : Nat × Nat) : List Phase :=
  let ja := dir * v / (clkSec ra.1 * (clkSec ra.1 + clkSec ra.2))
  let jd := dir * v / (clkSec rd.1 * (clkSec rd.1 + clkSec rd.2))
  [⟨clkSec ra.1, ja⟩, ⟨clkSec ra.2, 0⟩, ⟨clkSec ra.1, -ja⟩, ⟨clkSec t4, 0⟩,
   ⟨clkSec rd.1, -jd⟩, ⟨clkSec rd.2, 0⟩, ⟨clkSec rd.1, jd⟩]

/-- A planned motion: its reference, the peak velocity found before rounding and its duration in ns. -/
structure Planned where
  mo : Motion
  vPeak : Nat
  durNs : Nat
deriving DecidableEq, Repr

def signRat (q : Rat) : Rat := if q < 0 then -1 else if 0 < q then 1 else 0

def absRat (q : Rat) : Rat := if q < 0 then -q else q

/-- A move from x0 to x1 under the limits V, A, D and J (R163 to R165); none when no peak of at least 1 count/s fits. -/
def planMove (t1 : Nat) (x0 x1 : Rat) (v a d j : Nat) : Option Planned :=
  let l := absRat (x1 - x0)
  if l = 0 then some ⟨⟨t1, x0, 0, 0, [], x0⟩, 0, 0⟩
  else
    let vp := peakVel v a d j l
    if vp = 0 then none
    else
      let ra := rampClocks vp a j
      let rd := rampClocks vp d j
      let t4 := cruiseClocks vp a d j l
      let v' := l / (clkSec ra.1 + clkSec ra.2 / 2 + clkSec t4 + clkSec rd.1 + clkSec rd.2 / 2)
      some ⟨⟨t1, x0, 0, 0, profilePhases (signRat (x1 - x0)) v' ra t4 rd, x1⟩, vp,
        4 * (2 * ra.1 + ra.2 + t4 + 2 * rd.1 + rd.2)⟩

/-- A JOG from x0 at signed velocity vel for us microseconds of cruise (R166, R165). -/
def planJog (t1 : Nat) (x0 : Rat) (vel : Int) (us a d j : Nat) : Planned :=
  let v := vel.natAbs
  let ra := rampClocks v a j
  let rd := rampClocks v d j
  let t4 := usClk us
  let dist := (v : Rat) * (clkSec ra.1 + clkSec ra.2 / 2 + clkSec t4 + clkSec rd.1 + clkSec rd.2 / 2)
  let dir : Rat := if vel < 0 then -1 else 1
  ⟨⟨t1, x0, 0, 0, profilePhases dir v ra t4 rd, x0 + dir * dist⟩, v,
    4 * (2 * ra.1 + ra.2 + t4 + 2 * rd.1 + rd.2)⟩

/-! ### The Headland -/

/-- The square root of a rational, rounded up in steps of 2^-20 over its denominator (log entry 6). -/
def sqrtUp (q : Rat) : Rat :=
  if q ≤ 0 then 0
  else (ceilSqrt (q.num.toNat * q.den * 2 ^ 40) : Rat) / ((q.den : Rat) * 2 ^ 20)

/-- The braking phases of R174 from (v, a) along the direction of travel, v not negative. -/
def brakePhases (v0 a0 d j : Rat) : List Phase :=
  if j ≤ 0 ∨ d ≤ 0 then []
  else
    let pre : List Phase := if 0 < a0 then [⟨a0 / j, -j⟩] else []
    let v := if 0 < a0 then v0 + a0 * a0 / (2 * j) else v0
    let g := if 0 < a0 then 0 else -a0
    if v ≤ g * g / (2 * j) then
      pre ++ [⟨(g - sqrtUp (g * g - 2 * j * v)) / j, j⟩]
    else
      let dp := if d ≤ g then g
        else if (2 * d * d - g * g) / (2 * j) ≤ v then d
        else sqrtUp ((2 * j * v + g * g) / 2)
      pre ++ [⟨(dp - g) / j, -j⟩,
        ⟨max 0 ((v - (2 * dp * dp - g * g) / (2 * j)) / dp), 0⟩,
        ⟨dp / j, j⟩]

/-- Where phases lead from (x, v, a), less the velocity left at the end, which is taken as zero. -/
def endPos (ps : List Phase) (x v a : Rat) : Rat :=
  match (boundaryStates ps x v a).getLast? with
  | some s => s.1
  | none => x

/-- The braking part of the Headland from the reference state (x, v, a), begun at GTC t (R174). -/
def headland (t : Nat) (x v a d j : Rat) : Motion :=
  let dir : Rat := if v < 0 ∨ (v = 0 ∧ a < 0) then -1 else 1
  let ps := (brakePhases (dir * v) (dir * a) d j).map fun p => { p with j := dir * p.j }
  ⟨t, x, v, a, ps, endPos ps x v a⟩

/-- The Headland distance from (v, a), unsigned (R174). -/
def headlandDist (v a d j : Rat) : Rat := absRat (endPos (brakePhases v a d j) 0 v a)

/-! ### The load model (R169, R170) -/

structure Load where
  scale : Nat
  mass : Nat
  kf : Nat
  fric : Nat
  res : Nat
  p0 : Nat
  vcalc : Nat
deriving DecidableEq, Repr

def State.load (s : State) (n : Axis) : Load :=
  let b := (bankOfAxis n).val
  { scale := s.rd (F.MPL_SCALE_SCALE n), mass := s.rd (F.MPL_MASS_MASS n), kf := s.rd (F.MPL_KF_KF n),
    fric := s.rd (F.MPL_FRIC_FRIC n),
    res := max (s.rd (F.CLP_RL_RES (2 * n.val))) (s.rd (F.CLP_RL_RES (2 * n.val + 1))),
    p0 := s.rd (F.MPL_P0_P0 b), vcalc := s.rd (F.MPL_VCALC_VCALC b) }

/-- A force in mN at |a| counts/s², rounded up: m a / 1,000 + F_fr (R170). -/
def Load.forceMn (l : Load) (a : Rat) : Nat :=
  ((l.mass : Rat) * absRat a * l.scale / 1000000000000).ceil.toNat + 100 * l.fric

/-- Coil current in mA for a force in mN, rounded up (R170). -/
def Load.currentMa (l : Load) (mN : Nat) : Nat := ceilDiv (mN * 65536) l.kf

/-- P_cu in mW of a coil current in mA, rounded up (R179); RES is in 10 mΩ. -/
def Load.copperMw (l : Load) (mA : Nat) : Nat := ceilDiv (mA * mA * l.res) 100000

/-- A draw in mA from the power in mW (R179), rounded up. -/
def Load.drawMa (l : Load) (mW : Nat) : Nat := ceilDiv (mW * 1000) l.vcalc

/-- The draw of a phase whose largest |a| and |v| are given; a decelerating phase has no mechanical part (R179). -/
def Load.phaseDraw (l : Load) (a v : Rat) (decel : Bool) : Nat :=
  let f := l.forceMn a
  let mech := if decel then 0 else ((f : Rat) * absRat v * l.scale / 1000000000000).ceil.toNat
  l.drawMa (mech + l.copperMw (l.currentMa f) + l.p0)

/-- The draw of a standing axis that holds mA (R179). -/
def Load.standDraw (l : Load) (mA : Nat) : Nat := l.drawMa (l.copperMw mA + l.p0)

/-- Kinetic energy in mJ at v counts/s, rounded up (R170). -/
def Load.energyMj (l : Load) (v : Rat) : Nat :=
  ((l.mass : Rat) * (v * l.scale) * (v * l.scale) / 2000000000000000000000000).ceil.toNat

/-- The bookings of a profile's phases (R179, R181). -/
def phaseBookings (l : Load) : List Phase → Rat → Rat → Rat → Rat → List Booking
  | [], _, _, _, _ => []
  | ph :: ps, t, x, v, a =>
    let s := phaseStep x v a ph.j ph.dt
    let am := max (absRat a) (absRat s.2.2)
    let vm := max (absRat v) (absRat s.2.1)
    let decel := absRat s.2.1 < absRat v
    let rest := phaseBookings l ps (t + ph.dt * 1000000000) s.1 s.2.1 s.2.2
    if ph.dt = 0 then rest
    else ⟨t.floor.toNat, some (t + ph.dt * 1000000000).ceil.toNat, l.phaseDraw am vm decel⟩ :: rest

/-! ### The bank timeline (R180 to R182) -/

/-- The bin width in ns (R183). -/
def State.binNs (s : State) : Nat := 1000000 * 2 ^ s.rd F.MPL_CFG_BIN

def Booking.overlaps (k : Booking) (lo hi : Nat) : Bool :=
  k.t0 < hi && (match k.t1 with | none => true | some e => lo < e)

/-- An axis's largest draw at any instant of [lo, hi). -/
def bookMax (bs : List Booking) (lo hi : Nat) : Nat :=
  bs.foldl (fun m k => if k.overlaps lo hi then max m k.mA else m) 0

/-- An axis's draw in the tail. -/
def bookTail (bs : List Booking) : Nat :=
  bs.foldl (fun m k => if k.t1 = none then max m k.mA else m) 0

/-- The content of the bin that holds GTC t, over the bank's books, from the present instant on (R180). -/
def binSum (books : List (List Booking)) (w now t : Nat) : Nat :=
  let lo := max now (t / w * w)
  let hi := (t / w + 1) * w
  (books.map fun b => bookMax b lo hi).foldl (· + ·) 0

/-- The largest content of any bin from the present one on, and of the tail. Only the present bin and the bins in which
some booking begins need be looked at: any other bin holds no more than the one before it. -/
def peakDraw (books : List (List Booking)) (w now : Nat) : Nat :=
  let starts := now :: (books.flatMap fun b => (b.filter fun k => now < k.t0).map (·.t0))
  let m := starts.foldl (fun m t => max m (binSum books w now t)) 0
  max m ((books.map bookTail).foldl (· + ·) 0)

def State.books (s : State) (b : Bank) : List (List Booking) := (axesOfBank b).map fun n => (s.plan n).book

/-- A finite booking reaches past the last of the 16,384 bins (R182). -/
def pastLastBin (bs : List Booking) (w now : Nat) : Bool :=
  bs.any fun k => match k.t1 with | none => false | some e => (now / w + 16384) * w < e

/-- Cut an axis's book at t: what is booked before t stays. -/
def cutBook (bs : List Booking) (t : Nat) : List Booking :=
  (bs.filter fun k => k.t0 < t).map fun k =>
    match k.t1 with
    | none => { k with t1 := some t }
    | some e => if t < e then { k with t1 := some t } else k

/-- Cut only the open bookings at t (a new segment's start replaces an open end, R134). -/
def closeBook (bs : List Booking) (t : Nat) : List Booking :=
  (bs.filter fun k => k.t1 ≠ none ∨ k.t0 < t).map fun k =>
    match k.t1 with
    | none => { k with t1 := some t }
    | some _ => k

end Sys2Proof.Machine
end

