-- ==== Sys2Proof/Machine/Angle.lean ====
section
/-! DEFINITION. The real-valued functions of the spec over rationals: sine and cosine from the table of R198, 2π, the angle
of a vector (R228, R239), and the temperature of the NTC equation (R277). Where the spec bounds an error the value is free
within the bound; where it gives a formula alone the value is computed from a series, to better than one part in 10⁹ (log
entry 4). -/

namespace Sys2Proof.Machine

def clampRat (lo hi v : Rat) : Rat := if v < lo then lo else if hi < v then hi else v

/-- 2π: what the device takes for it, to eighteen decimals. -/
def twoPi : Rat :=
  clampRat (6283185307179586476 / 1000000000000000000) (6283185307179586477 / 1000000000000000000) Config.twoPi

/-- π and ln 2 as the series below use them. -/
def piRat : Rat := 3141592653589793 / 1000000000000000
def ln2Rat : Rat := 693147180559945 / 1000000000000000

/-- The sine of x in [0, π/2]: its Taylor polynomial of degree 13. -/
def sinQuarter (x : Rat) : Rat :=
  x * [156, 110, 72, 42, 20, 6].foldl (fun (p : Rat) (k : Nat) => 1 - x * x / k * p) 1

/-- The sine of a number of turns. -/
def sinTurn (q : Rat) : Rat :=
  let r := q - q.floor
  let u := if 1 / 2 ≤ r then r - 1 / 2 else r
  let v := sinQuarter (2 * piRat * (if 1 / 4 < u then 1 / 2 - u else u))
  if 1 / 2 ≤ r then -v else v

/-- An entry of the 1,024-entry table. The spec bounds the error of the interpolated value by 2⁻¹⁵; interpolation takes 5 ×
10⁻⁶ of that, and an entry is free within 25 × 10⁻⁶ (R198). -/
def sineEntry (k : Nat) : Rat :=
  clampRat (-1) 1 (sinTurn ((k : Rat) / 1024) + clampRat (-1 / 40000) (1 / 40000) (Config.sineError k))

/-- Sine and cosine of an angle in units of 2^-16 turn, interpolated between two entries (R197, R198). -/
def sinA (θ : Int) : Rat :=
  let t := (θ % 65536).toNat
  let i := t / 64
  let f : Rat := ((t % 64 : Nat) : Rat) / 64
  (1 - f) * sineEntry i + f * sineEntry ((i + 1) % 1024)

def cosA (θ : Int) : Rat := sinA (θ + 16384)

/-- The arc tangent of z in [0, 5/12], in turns. -/
def atanSmall (z : Rat) : Rat :=
  z * [21, 19, 17, 15, 13, 11, 9, 7, 5, 3, 1].foldl (fun (p : Rat) (k : Nat) => 1 / (k : Rat) - z * z * p) (1 / 23) /
    (2 * piRat)

/-- The arc tangent of z in [0, 1], in turns. -/
def atanTurn (z : Rat) : Rat := if z ≤ 5 / 12 then atanSmall z else 1 / 8 - atanSmall ((1 - z) / (1 + z))

/-- The angle of the vector (x, y) in units of 2^-16 turn (R228, R239); a vector of no length has none, and it is free. -/
def angleOf (x y : Rat) : Rat :=
  let ax := if x < 0 then -x else x
  let ay := if y < 0 then -y else y
  if ax = 0 ∧ ay = 0 then (Config.zeroAngle % 65536 : Nat)
  else
    let a := if ay ≤ ax then atanTurn (ay / ax) else 1 / 4 - atanTurn (ax / ay)
    let b := if x < 0 then 1 / 2 - a else a
    let c := if y < 0 then 1 - b else b
    65536 * (if c = 1 then 0 else c)

/-- The natural logarithm of q > 0: q is brought into [2/3, 4/3] by halving or doubling. -/
def lnRat (q : Rat) : Rat :=
  let n : Int := (Nat.log2 q.num.natAbs : Int) - (Nat.log2 q.den : Int)
  let m := if 0 ≤ n then q / (2 ^ n.toNat : Nat) else q * (2 ^ (-n).toNat : Nat)
  let k : Int := if m < 2 / 3 then -1 else if 4 / 3 < m then 1 else 0
  let m := if k = 0 then m else if k = 1 then m / 2 else 2 * m
  let z := (m - 1) / (m + 1)
  (n + k : Int) * ln2Rat + 2 * z * [13, 11, 9, 7, 5, 3, 1].foldl (fun (p : Rat) (j : Nat) => 1 / (j : Rat) + z * z * p) (1 / 15)

/-- The temperature of R277 in 0.1 °C, rounded to the nearest, for a pin voltage in µV at 50 µA; none where the equation has
no value. -/
def ntcTenths (uV rnom beta : Nat) : Option Int :=
  if uV = 0 ∨ rnom = 0 ∨ beta = 0 then none
  else
    let inv : Rat := 20 / 5963 + lnRat ((uV : Rat) / (500 * rnom : Nat)) / beta
    if inv ≤ 0 then none else some (roundRat (10 / inv - 5463 / 2))

end Sys2Proof.Machine
end

