-- ==== Sys2Proof/Machine/Flags.lean ====
section
/-! DEFINITION. Status fields with sequence numbers and counters (R71 to R73). -/

namespace Sys2Proof.Machine

/-- Hardware sets SQC bits (a mask) of a register: SEQ rises once per core clock in which it does (R72). The bits set in
the present clock are kept, since a hardware set wins over a clear in the same clock (R71). -/
def State.sqcMask (s : State) (off : Nat) (m : Nat) : State :=
  let w := s.reg off
  let set := w ||| BitVec.ofNat 32 m
  match s.seqDone.lookup off with
  | some b =>
    { s.setReg off set with
      seqDone := (off, b ||| BitVec.ofNat 32 m) :: s.seqDone.filter fun x : Nat × Word => x.1 ≠ off }
  | none =>
    let seq := (bits 31 24 w.toNat + 1) % 256
    { s.setReg off (Fld.put ⟨off, 31, 24⟩ set seq) with seqDone := (off, BitVec.ofNat 32 m) :: s.seqDone }

/-- Hardware sets one SQC field (R72). -/
def State.sqc (s : State) (f : Fld) : State := s.sqcMask f.off (2 ^ f.lo)

/-- The increments of a counter field in the present clock, by register and lowest bit, with the value they start from (R71,
R73). -/
def State.noteCnt (s : State) (f : Fld) (n : Nat) : State :=
  let key := 64 * f.off + f.lo
  let x := (s.cntNow.lookup key).getD (s.rd f, 0)
  { s with cntNow := (key, x.1, x.2 + n) :: s.cntNow.filter fun y => y.1 ≠ key }

/-- A saturating counter takes n increments (R73). -/
def State.cnt (s : State) (f : Fld) (n : Nat := 1) : State :=
  (s.noteCnt f n).wr f (min (s.rd f + n) (2 ^ (f.hi + 1 - f.lo) - 1))

/-- A wrapping counter takes n increments (R73). -/
def State.cntWrap (s : State) (f : Fld) (n : Nat := 1) : State :=
  (s.noteCnt f n).wr f ((s.rd f + n) % 2 ^ (f.hi + 1 - f.lo))

/-- A software write reaches a counter field: the value written, over the one the clock began with, takes the increments of
the clock as well (R71, R73). -/
def State.cntWrite (s : State) (f : Fld) (wraps : Bool) (m : Nat) (w : Word) : State :=
  let key := 64 * f.off + f.lo
  let x := (s.cntNow.lookup key).getD (s.rd f, 0)
  let v := f.get (mergeMask m (f.put (s.reg f.off) x.1) w)
  let size := 2 ^ (f.hi + 1 - f.lo)
  State.wr { s with cntNow := (key, v, x.2) :: s.cntNow.filter fun y => y.1 ≠ key } f
    (if wraps then (v + x.2) % size else min (v + x.2) (size - 1))

/-- A software write to a register with SQC fields, the byte enables in `be` (R63, R72): the fields written as 1 clear if
the written SEQ equals the one the clock began with, but for the fields that hardware sets in that clock (R71). -/
def sqcWrite (sqcMask : Nat) (setNow : Option Word) (old new : Word) (be : Nat) : Word :=
  let seq := bits 31 24 old.toNat
  let seq := if setNow.isSome then (seq + 255) % 256 else seq
  if bit 3 be && bits 31 24 new.toNat = seq then
    old &&& ~~~(new &&& BitVec.ofNat 32 sqcMask &&& ~~~(setNow.getD 0#32) &&& BitVec.ofNat 32
      ((if bit 0 be then 0xFF else 0) + (if bit 1 be then 0xFF00 else 0) + (if bit 2 be then 0xFF0000 else 0)))
  else old

end Sys2Proof.Machine
end

