-- ==== Sys2Proof/Machine/Records.lean ====
section
/-! DEFINITION. Completion and event records, their rings, MSI-X signalling and the held records (R96, R104, R113 to
R116, R124, R146 to R152). -/

namespace Sys2Proof.Machine

/-- The STATUS codes of R148. -/
inductive Status where
  | accepted | done | stopped | curtailed | reversed | fault | safeOff | cancelled | applied | notApplied | notFound
  | dropped | authFail | rollback
  | format | badOpcode | privilege | axisUnbound | noTag | quota | galleyFull | startTooSoon | beyondHorizon
  | timeUnaligned | limit | headland | power | decisionLate | noSlot | state | busy | barrier | estimate | locked | range
deriving DecidableEq, Repr

def statusCode : Status → Nat
  | .accepted => 0x00 | .done => 0x01 | .stopped => 0x02 | .curtailed => 0x03 | .reversed => 0x04 | .fault => 0x05
  | .safeOff => 0x06 | .cancelled => 0x07 | .applied => 0x08 | .notApplied => 0x09 | .notFound => 0x0A
  | .dropped => 0x0B | .authFail => 0x0C | .rollback => 0x0D
  | .format => 0x40 | .badOpcode => 0x41 | .privilege => 0x42 | .axisUnbound => 0x43 | .noTag => 0x44
  | .quota => 0x45 | .galleyFull => 0x46 | .startTooSoon => 0x47 | .beyondHorizon => 0x48 | .timeUnaligned => 0x49
  | .limit => 0x4A | .headland => 0x4B | .power => 0x4C | .decisionLate => 0x4D | .noSlot => 0x4E | .state => 0x4F
  | .busy => 0x50 | .barrier => 0x51 | .estimate => 0x52 | .locked => 0x53 | .range => 0x54

/-- The port a context is bound to; context 0 follows management ownership (R100, R102). -/
def State.ctxPort (s : State) (k : Ctx) : Port :=
  if k.val = 0 then portOf (s.rd F.HIF_MGMT_OWNER) else portOf (s.rd (F.HIF_CTX_CFG_PORT k))

def State.ctxOn (s : State) (k : Ctx) : Bool := k.val = 0 || s.flag (F.HIF_CTX_CFG_EN k)

/-- A port's own copy of one of its fields (R98). -/
def onPort (p : Port) (f : Fld) : Fld := { f with off := portOff p f.off }

def State.linkUp (s : State) (p : Port) : Bool := s.flag (onPort p F.HIF_PORT_STAT_LINK_UP)

/-- Records reach host memory: the link is up, the function is in D0 and may master the bus (R95, R122, R124), and the boot
has ended in READY or HELD; until then they are held (R410). -/
def State.canSend (s : State) (p : Port) : Bool :=
  s.linkUp p && (s.port p).master && !(s.port p).d3 && (s.flag F.LCS_LC_STAT_READY || s.flag F.LCS_LC_STAT_HELD)

/-! ### Requests of the endpoint (R95) -/

/-- The largest read request and the largest write in bytes: what is programmed, within what the port supports. -/
def readMax (s : State) (p : Port) : Nat := min 512 (128 * 2 ^ (s.port p).maxRead)
def payMax (s : State) (p : Port) : Nat := min 256 (128 * 2 ^ (s.port p).maxPay)

/-- A read of len bytes of host memory, in requests no larger than the programmed size. -/
def State.readHost (s : State) (p : Port) (cls : Dma) (addr len : Nat) : State :=
  let m := readMax s p
  each (List.range (ceilDiv len m)) (fun s i => s.emit (.read p cls (addr + m * i) (min m (len - m * i)))) s

/-- The writes that carry words to host memory, none larger than the programmed payload: address and words of each. -/
def packets (s : State) (p : Port) (addr : Nat) (ws : List Word) : List (Nat × List Word) :=
  let m := payMax s p / 4
  (List.range (ceilDiv ws.length m)).map fun i => (addr + 4 * m * i, (ws.drop (m * i)).take m)

def cqSize (s : State) (k : Ctx) : Nat := 2 ^ s.rd (F.HIF_CTX_CFG_CQ_LOG k)
def eqSize (s : State) (k : Ctx) : Nat := 2 ^ s.rd (F.HIF_CTX_CFG_EQ_LOG k)
def dqSize (s : State) (k : Ctx) : Nat := 2 ^ s.rd (F.HIF_CTX_CFG_DQ_LOG k)

/-- The difference of two free-running 32-bit indices (R106). -/
def idxDiff (a b : Nat) : Nat := (a + 2 ^ 32 - b % 2 ^ 32) % 2 ^ 32

/-- The phase bit of the record or descriptor at an index (R104). -/
def phaseBit (i size : Nat) : Bool := i / size % 2 = 0

/-- Set bit 7 of the last byte of a 32-byte record (R104). -/
def withPhase (ph : Bool) (ws : List Word) : List Word :=
  ws.take 7 ++ (ws.drop 7).map fun w => if ph then w ||| 0x80000000#32 else w

/-- The eight words of a completion record, phase bit clear (R146). -/
def cplWords (tag : Option Nat) (dec fin : Bool) (st : Status) (op : Nat) (cookie : Word) (t1 t2 detail index : Nat)
    (rflags : Nat) : List Word :=
  let tagw := (match tag with | some t => t % 1024 + 0x2000 | none => 0) +
    (if dec then 0x4000 else 0) + (if fin then 0x8000 else 0)
  [BitVec.ofNat 32 (tagw + statusCode st * 2 ^ 16 + op % 256 * 2 ^ 24), cookie] ++ leWords 2 t1 ++ leWords 2 t2 ++
  [BitVec.ofNat 32 detail, BitVec.ofNat 32 (index % 2 ^ 16 + rflags % 256 * 2 ^ 16)]

/-- An event record before it is placed in a ring (R151). -/
structure Event where
  kind : Nat
  source : Nat
  d0 : Nat
  stamp : Nat
  d1 : Nat
  d2 : Nat
  tag : Option Nat
  fault : Bool
deriving DecidableEq, Repr

/-- The eight words of an event record, phase bit clear (R151). -/
def eventWords (e : Event) : List Word :=
  [BitVec.ofNat 32 (e.kind % 2 ^ 16 + e.source % 1024 * 2 ^ 16), BitVec.ofNat 32 e.d0] ++ leWords 2 e.stamp ++
  leWords 2 e.d1 ++
  [BitVec.ofNat 32 e.d2,
   BitVec.ofNat 32 ((match e.tag with | some t => t % 1024 + 0x2000 | none => 0) + (if e.fault then 2 ^ 16 else 0))]

/-! ### MSI-X (R115, R116) -/

/-- The vector control word of vector k in a port's MSI-X table, and the word of the pending-bit array it lies in. -/
def msixCtl (p : Port) (k : Ctx) : Fld := ⟨portOff p (0x80000 + 16 * k.val + 12), 0, 0⟩
def msixPend (p : Port) (k : Ctx) : Fld := ⟨portOff p (0x81000 + 4 * (k.val / 32)), k.val % 32, k.val % 32⟩

/-- The message of vector k on a port: the address and data of its table entry (R116). -/
def msixOut (s : State) (p : Port) (k : Ctx) : Out :=
  .msix p k (s.rd64 (portOff p (0x80000 + 16 * k.val))) (s.reg (portOff p (0x80000 + 16 * k.val + 8)))

/-- No message of vector k goes out: its mask bit or the function mask is set, or MSI-X is not enabled (R116, log entry 25).
-/
def msixHeld (s : State) (p : Port) (k : Ctx) : Bool :=
  s.flag (msixCtl p k) || (s.port p).fmask || !(s.port p).msixOn

/-- The message of context k is sent, and its records are signalled (R115). -/
def State.message (s : State) (p : Port) (k : Ctx) : State :=
  (if s.ctxPort k = p then s.setCtx k { s.ctx k with unsig := 0 } else s).emit (msixOut s p k)

/-- The message of context k is due: it is sent, or its pending bit sets on a masked vector (R116). -/
def State.signal (s : State) (k : Ctx) : State :=
  let p := s.ctxPort k
  if msixHeld s p k then s.wr (msixPend p k) 1 else s.message p k

/-- A record of context k has been issued: count it, and signal under R115. The moderation written last is in force from
this record on. -/
def State.issued (s : State) (k : Ctx) (urgent : Bool) : State :=
  let c := s.ctx k
  let time := s.rd (F.HIF_CTX_MOD_TIME k)
  let c := { c with unsig := c.unsig + 1, unsigAt := if c.unsig = 0 then s.clk else c.unsigAt, modTime := time }
  let s := s.setCtx k c
  if s.rd (F.HIF_CTX_MOD_COUNT k) ≤ c.unsig ∨ c.unsigAt + usClk time ≤ s.clk ∨
      (urgent ∧ s.flag (F.HIF_CTX_MOD_URGENT k)) then s.signal k
  else s

/-! ### Rings -/

/-- A record of context k to its slot, or into the port's buffer while it cannot be written (R124, R125). -/
def State.place (s : State) (k : Ctx) (cls : Dma) (index addr : Nat) (ws : List Word) (urgent : Bool) : State :=
  let p := s.ctxPort k
  if s.canSend p then
    (s.emit (.record p k cls index addr ws)).issued k urgent
  else
    (s.setPort p { s.port p with held := (s.port p).held ++ [.record k cls index addr ws] }).wr
      (F.HIF_CTX_STAT_HELD k) 1

/-- The next completion record of context k (R96, R104). -/
def State.complete (s : State) (k : Ctx) (ws : List Word) : State :=
  let i := s.rd (F.HIF_CTX_CQ_TAIL_TAIL k)
  let size := cqSize s k
  let addr := s.rd64 (Reg.HIF_CTX_CQB_LO k) + 32 * (i % size)
  (s.wr (F.HIF_CTX_CQ_TAIL_TAIL k) ((i + 1) % 2 ^ 32)).place k .completion i addr (withPhase (phaseBit i size) ws) false

def eqFree (s : State) (k : Ctx) : Nat :=
  eqSize s k - idxDiff (s.rd (F.HIF_CTX_EQ_TAIL_TAIL k)) (s.rd (F.HIF_CTX_EQ_HEAD_HEAD k))

def heldEvents (s : State) (p : Port) : Nat :=
  ((s.port p).held.filter fun h => match h with | .record _ cls _ _ _ => cls = .event | .data _ _ => false).length

/-- An event finds no room and is dropped for the context (R114). -/
def State.dropEvent (s : State) (k : Ctx) : State :=
  (s.cnt (F.HIF_CTX_STAT_EV_DROP k)).setCtx k { s.ctx k with lost := (s.ctx k).lost + 1 }

/-- The next event record of context k, which has room (R96, R104). -/
def State.putEvent (s : State) (k : Ctx) (e : Event) : State :=
  let i := s.rd (F.HIF_CTX_EQ_TAIL_TAIL k)
  let size := eqSize s k
  let addr := s.rd64 (Reg.HIF_CTX_EQB_LO k) + 32 * (i % size)
  (s.wr (F.HIF_CTX_EQ_TAIL_TAIL k) ((i + 1) % 2 ^ 32)).place k .event i addr
    (withPhase (phaseBit i size) (eventWords e)) e.fault

/-- Room for one more event: in the ring, and in the port's buffer while the link is down (R114, R124). -/
def State.eventRoom (s : State) (k : Ctx) : Bool :=
  0 < eqFree s k && (s.canSend (s.ctxPort k) || heldEvents s (s.ctxPort k) < 256)

/-- The EVENTS_LOST record that goes first once there is room again (R114). -/
def State.flushLost (s : State) (k : Ctx) : State :=
  if 0 < (s.ctx k).lost && s.eventRoom k then
    (s.setCtx k { s.ctx k with lost := 0 }).putEvent k
      ⟨0x000A, 672 + k.val, (s.ctx k).lost, s.now, 0, 0, none, false⟩
  else s

/-- An event for context k (R113, R114). -/
def State.eventTo (k : Ctx) (e : Event) (s : State) : State :=
  if s.ctxOn k then
    let s := s.flushLost k
    if s.eventRoom k then s.putEvent k e else s.dropEvent k
  else s

/-- A device event: to context 0 (R113). -/
def State.devEvent (s : State) (kind d0 d1 d2 : Nat) (fault : Bool) : State :=
  s.eventTo 0 ⟨kind, 736, d0, s.now, d1, d2, none, fault⟩

/-- An axis event: to each enabled context whose AXES includes the axis (R113). -/
def State.axisEvent (s : State) (n : Axis) (kind d1 d2 : Nat) (tag : Option Nat) (fault : Bool) : State :=
  each (allCtxs.filter fun k => s.ctxOn k && bit n.val (s.rd (F.HIF_CTX_AXES_AXES k)))
    (fun s k => s.eventTo k ⟨kind, 640 + n.val, n.val, s.now, d1, d2, tag, fault⟩) s

/-- A bank event: to context 0 and each enabled context with an axis of the bank (R113). -/
def State.bankEvent (s : State) (b : Bank) (kind d1 d2 : Nat) : State :=
  each (allCtxs.filter fun k => k.val = 0 ||
      (s.ctxOn k && bits (8 * b.val + 7) (8 * b.val) (s.rd (F.HIF_CTX_AXES_AXES k)) ≠ 0))
    (fun s k => s.eventTo k ⟨kind, 737 + b.val, b.val, s.now, d1, d2, none, false⟩) s

/-- The held records of a port are written to their slots ahead of new ones (R124). -/
def State.flushHeld (s : State) (p : Port) : State :=
  let hs := if s.canSend p then (s.port p).held else []
  let s := if s.canSend p then s.setPort p { s.port p with held := [] } else s
  each hs (fun s h =>
    match h with
    | .record k cls i addr ws =>
      ((s.emit (.record p k cls i addr ws)).wr (F.HIF_CTX_STAT_HELD k) 0).issued k
        (cls = .event && bit 16 (ws.getLastD 0#32).toNat)
    | .data addr ws => s.emit (.data p addr ws)) s

/-- Data written in the telemetry class, held while the link is down (R97, R141). -/
def State.writeData (s : State) (p : Port) (addr : Nat) (ws : List Word) : State :=
  each (packets s p addr ws) (fun s x =>
    if s.canSend p then s.emit (.data p x.1 x.2)
    else s.setPort p { s.port p with held := (s.port p).held ++ [.data x.1 x.2] }) s

/-- A block of stream i is dropped and counted; the next one written carries GAP (R118). -/
def State.dropBlock (s : State) (i : Fin 8) : State :=
  (s.cnt (F.HIF_TLM_STAT_DROP i)).setStream i { s.stream i with gap := true }

/-! ### Tags and operations (R111, R147, R149) -/

def State.opOf (s : State) (tag : Nat) : Option Op := s.ops.find? fun o => o.tag = tag

def State.infl (s : State) (k : Ctx) : Nat := (s.ops.filter fun o => o.ctx = k).length

def State.tagFree (s : State) (t : Nat) : Bool := !(s.ops.any fun o => o.tag = t)

/-- The lowest-numbered free tag (R111). -/
def State.freeTag (s : State) : Option Nat := (List.range 1024).find? s.tagFree

def State.setOp (s : State) (o : Op) : State :=
  { s with ops := s.ops.map fun x => if x.tag = o.tag then o else x }

/-- A decision record: in ring order, so kept back while barrier members of the context are undecided (R150, R145). -/
def State.decide (s : State) (k : Ctx) (index : Nat) (ws : List Word) : State :=
  if (s.ctx k).members = [] then s.complete k ws
  else s.setCtx k { s.ctx k with kept := (s.ctx k).kept ++ [(index, ws)] }

/-- Decision records kept back are written once no member is held (R137, R150). -/
def State.flushKept (s : State) (k : Ctx) : State :=
  if (s.ctx k).members = [] then
    let ks := (s.ctx k).kept
    each ks (fun s x => s.complete k x.2) (s.setCtx k { s.ctx k with kept := [] })
  else s

/-- The counters of R450 that a final record moves: CLOSING galley motions ended DONE or REVERSED, and reversals. -/
def State.countEnd (s : State) (o : Op) (st : Status) : State :=
  let motion := o.op = 1 || o.op = 2 || o.op = 3 || o.op = 7 || o.op = 8
  let s := if motion && o.d.closing && (st = .done || st = .reversed) then
      each o.axes (fun s n => s.addCounter (64 + 12 * n.val)) s else s
  if st = .reversed then each o.axes (fun s n => s.addCounter (72 + 12 * n.val)) s else s

/-- The final record of the operation that holds a tag; the tag and its galley entries are freed (R111, R149, R155). -/
def State.finish (s : State) (tag : Nat) (st : Status) (t1 t2 detail rflags : Nat) : State :=
  match s.opOf tag with
  | none => s
  | some o =>
    let fl := rflags + (if o.unaligned then 1 else 0) + (if o.deferred then 8 else 0)
    let s := s.countEnd o st
    let s := { s with ops := s.ops.filter (fun x => x.tag ≠ tag),
                      plans := s.plans.map fun a : AxisPlan => { a with galley := a.galley.filter fun g => g.tag ≠ tag } }
    s.complete o.ctx (cplWords (some tag) false true st o.op o.d.cookie t1 t2 detail o.index fl)

/-! ### The order of what one row writes (R50, R97, R150) -/

/-- The source number of an operation's final record: its lowest axis, or its context (R150). -/
def opSource (o : Op) : Nat := match o.axes with | [] => 672 + o.ctx.val | n :: t => 640 + (t.foldl min n).val

/-- The place of a record among those of its context and class: its stamp, or T2, and its source number (R50, R150). The
operations are those in flight before the row. -/
def recordKey (ops : List Op) (cls : Dma) (ws : List Word) : Nat × Nat :=
  let w := fun i => (ws.getD i 0#32).toNat
  if cls = .event then (w 2 + 2 ^ 32 * w 3, bits 25 16 (w 0))
  else
    (w 4 + 2 ^ 32 * w 5,
      match ops.find? fun o => o.tag = w 0 % 1024 with
      | some o => opSource o
      | none => 1023)

/-- Records that keep their place: decision records (R150), and EVENTS_LOST with what precedes it (R114). -/
def recordMoves (cls : Dma) (ws : List Word) : Bool :=
  let w := (ws.getD 0 0#32).toNat
  if cls = .event then decide (w % 65536 ≠ 0x000A) else bit 15 w && !bit 14 w

/-- Words under their keys, lowest first; equal keys keep their order. -/
def sortKeyed (key : List Word → Nat × Nat) (l : List (List Word)) : List (List Word) :=
  l.insertionSort fun a b => decide ((key a).1 < (key b).1) || ((key a).1 = (key b).1 && decide ((key a).2 ≤ (key b).2))

/-- The records of one context and class in the order of R50 and R150: sorted between the ones that keep their place. -/
def sortRuns (key : List Word → Nat × Nat) (moves : List Word → Bool) (run : List (List Word)) :
    List (List Word) → List (List Word)
  | [] => sortKeyed key run
  | w :: t => if moves w then sortRuns key moves (run ++ [w]) t else sortKeyed key run ++ w :: sortRuns key moves [] t

/-- The phase bit of a slot stays with the slot (R104). -/
def inSlot (slot ws : List Word) : List Word := withPhase (bit 31 (slot.getLastD 0#32).toNat)
  (ws.take 7 ++ (ws.drop 7).map fun w => w &&& 0x7FFFFFFF#32)

/-- Words are dealt out to the slots of a list, in order. -/
def refill {α : Type} (get : α → Option (List Word)) (set : α → List Word → α) : List α → List (List Word) → List α
  | [], _ => []
  | x :: t, ws =>
    match get x, ws with
    | some slot, w :: rest => set x (inSlot slot w) :: refill get set t rest
    | _, _ => x :: refill get set t ws

/-- What a list of writes holds of records: the context and class of one, and its words. -/
def Out.stream : Out → Option (Ctx × Dma) | .record _ k cls _ _ _ => some (k, cls) | _ => none
def Out.words : Out → List Word | .record _ _ _ _ _ ws => ws | _ => []
def Out.withWords : Out → List Word → Out | .record p k cls i a _, ws => .record p k cls i a ws | o, _ => o
def Held.stream : Held → Option (Ctx × Dma) | .record k cls _ _ _ => some (k, cls) | .data _ _ => none
def Held.words : Held → List Word | .record _ _ _ _ ws => ws | .data _ _ => []
def Held.withWords : Held → List Word → Held | .record k cls i a _, ws => .record k cls i a ws | h, _ => h

/-- Every stream of records among the writes of a row stands in its order, each in the slots of its own ring. -/
def orderStreams {α : Type} (stream : α → Option (Ctx × Dma)) (words : α → List Word) (set : α → List Word → α)
    (ops : List Op) (l : List α) : List α :=
  (l.filterMap stream).dedup.foldl (fun l x =>
    let get := fun a => if stream a = some x then some (words a) else none
    refill get set l (sortRuns (recordKey ops x.2) (recordMoves x.2) [] (l.filterMap get))) l

/-- The class of a transfer on its port (R97); a message follows the records it announces (R96). -/
def Out.rank : Out → Nat
  | .read _ .page _ _ => 0
  | .read _ _ _ _ => 1
  | .record _ _ .completion _ _ _ => 2
  | .record _ _ _ _ _ _ => 3
  | .msix _ _ _ _ => 4
  | .data _ _ _ => 5
  | .block _ _ _ _ _ => 5
  | _ => 0

/-- What a row has sent since state s0, in one core clock: each stream of records in the order of R50, and the classes of R97
in theirs. Records that a port has come to hold follow R50 too (R126). -/
def State.arranged (s0 s : State) : State :=
  let out := fun l : List Out =>
    (orderStreams Out.stream Out.words Out.withWords s0.ops l).insertionSort fun a b => a.rank ≤ b.rank
  let hold := fun p0 p : PortS => { p with
    held := p.held.take p0.held.length ++
      orderStreams Held.stream Held.words Held.withWords s0.ops (p.held.drop p0.held.length) }
  { s with
    sent := s.sent.take s0.sent.length ++ out (s.sent.drop s0.sent.length)
    portA := hold s0.portA s.portA
    portB := hold s0.portB s.portB }

end Sys2Proof.Machine
end

