-- ==== Sys2Proof/Machine/Admit.lean ====
section
/-! DEFINITION. Admission: the format, privilege and binding checks (R103, R129) and the checks of R55. -/

namespace Sys2Proof.Machine

/-- A refusal: its status and DETAIL (R148). -/
abbrev Refuse := Status × Nat

/-- The "motion" opcodes of R130. -/
def isMotion (op : Nat) : Bool := op = 1 || op = 2 || op = 3 || op = 7 || op = 8

/-- The opcodes that occupy a galley entry on each axis they name (R130). -/
def isGalley (op : Nat) : Bool := isMotion op || op = 5 || op = 6 || op = 0xA || op = 0x10 || op = 0x11

def isConfig (op : Nat) : Bool := op = 0x10 || op = 0x11

/-- The opcodes whose TARGET is an axis, and those whose TARGET is a bank (R130, R143). -/
def targetsAxis (op scope : Nat) : Bool :=
  isMotion op || op = 5 || op = 6 || op = 0xA || op = 0x10 || (op = 0x1B && scope = 2)

def targetsBank (op scope : Nat) : Bool :=
  op = 0x11 || op = 0x12 || op = 0x1A || op = 0x29 || (op = 0x1B && scope = 0)

end Sys2Proof.Machine

namespace Sys2Proof

/-- TARGET as an axis, once the format checks have passed (R127). -/
def Desc.axis (d : Desc) : Axis := ⟨d.target.toNat % 32, by omega⟩

/-- TARGET as a bank, once the format checks have passed (R127). -/
def Desc.bank (d : Desc) : Bank := ⟨d.target.toNat % 4, by omega⟩

end Sys2Proof

namespace Sys2Proof.Machine

/-- The group of a register that CONFIG_AXIS or CONFIG_BANK may name (R138). -/
def groupOf (off : Nat) : Option Nat :=
  match rowOf off with
  | some (r, i) => r.grp.bit? i
  | none => none

/-- The mask bit of the group a CONFIG descriptor changes (R138). -/
def configGroup (op : Nat) (d : Desc) : Nat := if op = 0x10 then 32 + d.axis.val else 8 + d.bank.val

/-- The OFFSET and VALUE pairs in use, with the byte offset of each (R138). -/
def configPairs (d : Desc) : List (Nat × Nat × Word) :=
  ((List.range (min 4 (d.u8 48))).map fun i =>
    (16 + 8 * i, d.u32 (16 + 8 * i), BitVec.ofNat 32 (d.u32 (20 + 8 * i))))

/-- The first pair that names a register outside the group or one already named (R138). -/
def badPair (g : Nat) : List (Nat × Nat × Word) → List Nat → Option Nat
  | [], _ => none
  | (at_, off, _) :: ps, seen =>
    if groupOf off ≠ some g ∨ seen.contains off then some at_ else badPair g ps (off :: seen)

/-- The first of a list of tests that fails gives the DETAIL. -/
def firstBad : List (Bool × Nat) → Option Nat
  | [] => none
  | (bad, d) :: ts => if bad then some d else firstBad ts

/-- The body checks of each opcode, in ascending byte offset (R129, R132 to R144). -/
def bodyFormat (op : Nat) (d : Desc) : Option Nat :=
  match op with
  | 1 | 2 => firstBad [(7 < d.u8 46, 46)]
  | 3 => firstBad [(d.i32 16 = 0, 16), (d.u32 20 = 0, 20), (7 < d.u8 46, 46)]
  | 4 => firstBad [(d.u32 16 = 0, 16), (1 < d.u8 20, 20)]
  | 5 => firstBad [(d.u16 16 = 0, 16)]
  | 6 => firstBad [(1000000 < d.u32 16, 16)]
  | 7 => firstBad [(d.u32 16 = 0 || 65536 < d.u32 16, 16)]
  | 8 => firstBad [(d.u8 24 ≤ 1 && d.i32 16 = 0, 16), (2 < d.u8 24, 24)]
  | 9 => firstBad [(d.u8 20 < 2 || 32 < d.u8 20, 20), (d.group = 0#16, 56)]
  | 0xA => firstBad [(d.u32 16 = 0, 16)]
  | 0x10 | 0x11 =>
    match badPair (configGroup op d) (configPairs d) [] with
    | some a => some a
    | none => firstBad [(4 < d.u8 48, 48)]
  | 0x13 => firstBad [(d.u8 16 = 0 || 63 < d.u8 16, 16), (1024 < d.u32 20, 20)]
  -- DECIM counts only for a start: the spec does not say whether a stop must carry one (DESIGN CHOICE, log entry 109)
  | 0x18 => firstBad [(7 < d.u8 16, 16), (1 < d.u8 17, 17), (d.u8 17 = 1 && d.u16 18 = 0, 18)]
  | 0x19 => firstBad [(d.u64 32 % 16 ≠ 0, 32)]
  | 0x1A => firstBad [(63 < d.u8 16, 16), (3 < d.u8 17, 17), (23 < d.u8 18, 18)]
  | 0x1B => firstBad [(2 < d.u8 16, 16)]
  | 0x20 => firstBad [(d.u32 16 % 64 ≠ 0 || 65472 < d.u32 16, 16),
      (d.u32 20 % 64 ≠ 0 || d.u32 20 < 64 || 65536 < d.u32 16 + d.u32 20, 20), (d.u64 24 % 64 ≠ 0, 24)]
  | 0x28 => firstBad [(d.u64 16 % 4096 ≠ 0, 16),
      (d.u32 24 % 4096 ≠ 0 || d.u32 24 < 4096 || 524288 < d.u32 24, 24)]
  | 0x2A => firstBad [(5 < d.u8 16, 16), (d.u64 24 % 64 ≠ 0, 24)]
  | _ => none

/-- The DETAIL of a FORMAT refusal, if the descriptor has one (R129): flag combinations, TARGET, the body, GROUP. -/
def formatCheck (op : Nat) (d : Desc) : Option Nat :=
  if d.asap && d.chain then some 1
  else if !isMotion op && (d.chain || d.closing || d.grouped) then some 1
  else if targetsAxis op (d.u8 16) && 31 < d.target.toNat then some 2
  else if targetsBank op (d.u8 16) && 3 < d.target.toNat then some 2
  else
    match bodyFormat op d with
    | some x => some x
    | none => if d.grouped && d.group = 0#16 then some 56 else none

/-- The axes an opcode names, in TARGET, in its body or as those of its bank (R103, R130). -/
def axesNamed (op : Nat) (d : Desc) : List Axis :=
  if isMotion op || op = 5 || op = 6 || op = 0xA || op = 0x10 then [d.axis]
  else if op = 0x11 then axesOfBank d.bank
  else if op = 4 || op = 9 then axesOfMask (d.u32 16)
  else if op = 0x18 || op = 0x19 then axesOfMask (d.u32 20)
  else if op = 0x1B && d.u8 16 = 2 then [d.axis]
  else []

/-- The privilege bit an opcode needs: none for NOP, 8 for an opcode of context 0 (R130, R148). -/
def privilegeOf (op : Nat) : Option Nat :=
  if op = 0 then none
  else if op ≤ 0xA then some 0
  else if isConfig op then some 1
  else if op = 0x12 then some 2
  else if op = 0x18 || op = 0x19 then some 3
  else if op = 0x1A || op = 0x1B then some 4
  else if op = 0x20 then some 5
  else some 8

/-- The privilege and binding checks of R103, and context 0 only (R129). -/
def contextCheck (s : State) (k : Ctx) (op : Nat) (d : Desc) : Option Refuse :=
  let priv : Option Refuse :=
    match privilegeOf op with
    | none => none
    | some 8 => if k.val = 0 then none else some (.privilege, 8)
    | some b => if k.val = 0 || bit b (s.reg (Reg.HIF_CTX_PRIV k)).toNat then none else some (.privilege, b)
  match priv with
  | some r => some r
  | none =>
    match (axesNamed op d).find? fun n => !(k.val = 0 || bit n.val (s.rd (F.HIF_CTX_AXES_AXES k))) with
    | some n => some (.axisUnbound, n.val)
    | none => none

/-- The checks before those of R55 (R103, R129). -/
def preCheck (s : State) (k : Ctx) (op : Nat) (d : Desc) : Option Refuse :=
  match formatCheck op d with
  | some x => some (.format, x)
  | none => contextCheck s k op d

/-- Checks 1 and 2 of R55: the lowest free tag, sixteen kept for context 0, and the quota (R111, R112). -/
def tagCheck (s : State) (k : Ctx) : Except Refuse Nat :=
  let free := 1024 - s.ops.length
  match s.freeTag with
  | none => .error (.noTag, 0)
  | some t =>
    if k.val ≠ 0 ∧ free ≤ 16 - s.infl 0 then .error (.noTag, 0)
    else if s.rd (F.HIF_CTX_QUOTA_QUOTA k) ≤ s.infl k then .error (.quota, s.rd (F.HIF_CTX_QUOTA_QUOTA k))
    else .ok t

/-- Check 3 of R55: galley space on every axis named (R155). -/
def galleyCheck (s : State) (op : Nat) (d : Desc) : Option Refuse :=
  if isGalley op then
    match (axesNamed op d).find? fun n => 32 ≤ (s.plan n).galley.length with
    | some n => some (.galleyFull, n.val)
    | none => none
  else none

/-- The open end of R134. -/
def openEnd : Nat := 0xFFFFFFFFFFFFFFFF

/-- The effective start (R56, R128). -/
def effStart (s : State) (op : Nat) (d : Desc) : Nat :=
  if d.asap then s.tickNs + s.tfNs
  else if d.chain then
    match (s.plan d.axis).galley.getLast? with
    | some g => g.t2.getD openEnd
    | none => d.start.toNat
  else if op = 0 then s.tickNs
  else d.start.toNat

/-- Tests 1 to 3 of check 4: alignment, too soon, horizon (R55 to R57). -/
def startTests (s : State) (d : Desc) (t : Nat) : Option Refuse :=
  if !d.asap && s.flag F.TBS_PTM_CTRL_EN && !s.flag F.TBS_PTM_STAT_LOCK then some (.timeUnaligned, 0)
  else if !d.asap && t < s.tickNs + 2 * s.tfNs then some (.startTooSoon, 0)
  else if s.tickNs + 1000000 * s.horizon < t then some (.beyondHorizon, s.horizon)
  else none

/-- The least start the axis's galley allows (R157); the start of an open-ended entry bounds what may replace its end. -/
def galleyFreeAt (s : State) (n : Axis) : Nat :=
  match (s.plan n).galley.getLast? with
  | some g => g.t2.getD g.t1
  | none => 0

/-- A STOP accepted for the axis, whose planned end has not come, or a leaving in progress (R133, R161). -/
def stopBlocks (s : State) (n : Axis) (t : Nat) : Bool :=
  (s.plan n).leave.isSome ||
  s.ops.any fun o => o.op = 4 && o.axes.contains n &&
    ((match o.t2 with | some e => t < e | none => true) || (o.t1 ≤ s.now && o.left.contains n))

/-- An IDENTIFY accepted for the axis that ends after t (R208). -/
def identifyBlocks (s : State) (n : Axis) (t : Nat) : Bool :=
  s.ops.any fun o => o.op = 0x1B && o.axes.contains n && (match o.t2 with | some e => t < e | none => true)

def behindFollow (s : State) (n : Axis) : Bool :=
  match (s.plan n).galley.getLast? with
  | some g => g.op = 7 && g.t2.isNone
  | none => false

/-- Check 4 of R55, its tests in the order that R55 gives. -/
def startCheck (s : State) (op : Nat) (d : Desc) (t : Nat) : Option Refuse :=
  match startTests s d t with
  | some r => some r
  | none =>
    let axes := if isGalley op then axesNamed op d else []
    if !isConfig op && axes.any fun n => t < galleyFreeAt s n then some (.startTooSoon, 0)
    else if axes.any fun n => stopBlocks s n t then some (.state, 1)
    else if (op = 2 || op = 3) && axes.any fun n => behindFollow s n then some (.state, 4)
    else if (isMotion op || op = 5) && axes.any fun n => identifyBlocks s n t then some (.state, 4)
    else none

/-! ### Check 5 to 7 for galley motions and HOLD -/

def limit (n : Axis) (d : Nat) : Refuse := (.limit, d + 256 * n.val)

/-- A limit in force: the descriptor's field, or the committed limit where the field is 0 (R132). -/
def inForce (field committed : Nat) : Nat := if field = 0 then committed else field

/-- The limits of a motion: V, A, D in counts, J in counts/s³, EMAX in mJ, FMAX in 0.1 N (R132, R135, R136, R166). -/
structure Limits where
  v : Nat
  a : Nat
  d : Nat
  j : Nat
  e : Nat
  f : Nat
  /-- the DETAIL of a field above its committed limit -/
  tooHigh : Option Nat
deriving DecidableEq, Repr

def limitsOf (s : State) (n : Axis) (op : Nat) (d : Desc) : Limits :=
  let cv := s.rd (F.MPL_VMAX_VMAX n)
  let ca := s.rd (F.MPL_AMAX_AMAX n)
  let cd := s.rd (F.MPL_DMAX_DMAX n)
  let cj := s.rd (F.MPL_JMAX_JMAX n)
  let ce := s.rd (F.MPL_EMAX_EMAX n)
  let cf := s.rd (F.MPL_FMAX_FMAX n)
  if op = 7 then
    let v := d.u32 20
    let a := d.u32 24
    ⟨inForce v cv, inForce a ca, inForce a ca, 256 * cj, ce, cf,
      if cv < v then some 1 else if ca < a then some 2 else none⟩
  else if op = 8 then
    let a := d.u32 20
    ⟨cv, inForce a ca, cd, 256 * cj, ce, cf, if ca < a then some 2 else none⟩
  else
    let v := if op = 3 then 0 else d.u32 24
    let a := d.u32 28
    let dd := d.u32 32
    let j := d.u32 36
    let e := d.u32 40
    let f := d.u16 44
    ⟨inForce v cv, inForce a ca, inForce dd cd, 256 * inForce j cj, inForce e ce, inForce f cf,
      if cv < v then some 1 else if ca < a then some 2 else if cd < dd then some 2
      else if cj < j then some 3 else if ce < e then some 5 else if cf < f then some 6 else none⟩

/-- The start position of a galley motion: the end of the last segment, or the setpoint (R156). -/
def startPos (s : State) (n : Axis) : Rat :=
  match (s.plan n).galley.getLast? with
  | some g => g.mo.xEnd
  | none => (motionAt (s.plan n).ref s.now).1

def travelMin (s : State) (n : Axis) : Int := s.rdS64 (Reg.MPL_TRAVEL_MIN_LO n)
def travelMax (s : State) (n : Axis) : Int := s.rdS64 (Reg.MPL_TRAVEL_MAX_LO n)

def inTravel (s : State) (n : Axis) (x : Rat) : Bool := (travelMin s n : Rat) ≤ x && x ≤ (travelMax s n : Rat)

/-- The travel limit farther from a target: where a move behind an open-ended FOLLOW_STEP is planned from (R157). -/
def fartherLimit (s : State) (n : Axis) (x : Rat) : Rat :=
  let lo : Rat := travelMin s n
  let hi : Rat := travelMax s n
  if absRat (x - lo) < absRat (hi - x) then hi else lo

/-- The profile of a galley motion under its limits (R156, R164, R166, R191); none when no peak velocity fits. -/
def planOf (s : State) (n : Axis) (op : Nat) (d : Desc) (t1 : Nat) (l : Limits) : Option Planned :=
  let x0 := startPos s n
  match op with
  | 1 =>
    let x1 : Rat := d.i64 16
    planMove t1 (if behindFollow s n then fartherLimit s n x1 else x0) x1 l.v l.a l.d l.j
  | 2 => planMove t1 x0 (x0 + (d.i64 16 : Rat)) l.v l.a l.d l.j
  | 3 => some (planJog t1 x0 (d.i32 16) (d.u32 20) l.a l.d l.j)
  | 7 => some ⟨⟨t1, x0, 0, 0, [], x0⟩, l.v, 1000 * d.u32 28⟩
  | _ =>
    if d.u8 24 = 2 then some ⟨⟨t1, x0, 0, 0, [], (d.i64 32 : Rat)⟩, 0, s.tfNs⟩
    else
      let dir : Rat := if d.i32 16 < 0 then -1 else 1
      planMove t1 x0 (x0 + dir * (d.u32 28 : Rat)) (min (d.i32 16).natAbs l.v) l.a l.d l.j

/-- The speed the velocity row of R171 looks at: what the descriptor asks for. -/
def askedVel (op : Nat) (d : Desc) (p : Planned) : Nat :=
  if op = 3 then (d.i32 16).natAbs
  else if op = 8 && d.u8 24 ≠ 2 then (d.i32 16).natAbs
  else p.vPeak

/-- The current a coil can carry is known and sensed: RES, IND, BWI and SHUNT are not zero (R205, R288). -/
def coilsReady (s : State) (n : Axis) : Bool :=
  [2 * n.val, 2 * n.val + 1].all (fun p =>
    s.rd (F.CLP_RL_RES p) ≠ 0 && s.rd (F.CLP_RL_IND p) ≠ 0 && s.rd (F.ADC_CS_SHUNT p) ≠ 0) &&
  s.rd (F.CLP_ILOOP_BWI n) ≠ 0

/-- The axis has no position source at all (R232). -/
def noSource (s : State) (n : Axis) : Bool :=
  (s.rd (F.FBK_CFG_MODE n) = 0 || s.rd (F.FBK_CFG_MODE n) = 3) &&
  (s.rd (F.CLP_KE_KE n) = 0 || [2 * n.val, 2 * n.val + 1].any (fun p =>
    s.rd (F.CLP_RL_RES p) = 0 || s.rd (F.CLP_RL_IND p) = 0))

/-- The axis whose pins feed the step count (R319). -/
def stepSource (s : State) (n : Axis) : Nat := 8 * (n.val / 8) + s.rd (F.FBK_CFG_STEP_SRC n)

/-- Whether the axis is energised once the entries g have run (R134, R138, R159). -/
def State.endsOn (s : State) (n : Axis) (g : List Seg) : Bool :=
  g.foldl (fun (on : Bool) (x : Seg) =>
    if x.op = 6 then false
    else if isConfig x.op then bit 0 (x.d.u8 49)
    else on || x.op = 5 || isMotion x.op) (s.energised n)

/-- The book of axis n once the CONFIG of the tag is taken out of its galley (R160): the axis stands through its time if
it is energised then, until the bookings of what follows. -/
def bookWithout (s : State) (n : Axis) (tag t1 : Nat) : List Booking :=
  let p := s.plan n
  let before := p.galley.takeWhile fun (g : Seg) => g.tag ≠ tag
  let after := (p.galley.dropWhile fun (g : Seg) => g.tag ≠ tag).drop 1
  let later := match after.head? with
    | some g => p.book.filter fun (b : Booking) => g.t1 ≤ b.t0
    | none => []
  let until_ := (later.map fun (b : Booking) => b.t0).min?
  let stand := (s.load n).standDraw (s.rd (F.MPL_IHOLD_IHOLD n))
  cutBook p.book t1 ++ (if s.endsOn n before then [⟨t1, until_, stand⟩] else []) ++ later

/-- Check 5 of R55 (R171), giving the planned profile. -/
def motionCheck (s : State) (n : Axis) (op : Nat) (d : Desc) (t1 : Nat) : Except Refuse (Planned × Limits) :=
  let l := limitsOf s n op d
  let ld := s.load n
  if d.closing && !s.flag (F.LES_STAT_FVALID n) then .error (.estimate, n.val)
  else if op = 7 && (s.rd (F.MPL_FOLLOW_LAG n) = 0 || s.rd (F.FBK_CFG_MODE (stepSource s n)) ≠ 3) then
    .error (limit n 4)
  else if op = 8 && d.u8 24 = 0 && (s.rd (F.FBK_CFG_MODE n) ≠ 2 || s.rd (F.FBK_IDX_PER_PERIOD n) = 0) then
    .error (limit n 4)
  else if ld.scale = 0 || ld.mass = 0 || ld.kf = 0 then .error (limit n 5)
  else
    match l.tooHigh with
    | some x => .error (limit n x)
    | none =>
      if l.v = 0 then .error (limit n 1)
      else if l.a = 0 || l.d = 0 then .error (limit n 2)
      else if l.j = 0 then .error (limit n 3)
      else
        match planOf s n op d t1 l with
        | none => .error (limit n 1)
        | some p =>
          let pts := boundaryStates p.mo.phases p.mo.x0 0 0
          let f := ld.forceMn (max l.a l.d : Nat)
          if l.v < askedVel op d p then .error (limit n 1)
          else if op ≠ 8 && !((s.plan n).homed && pts.all (fun x => inTravel s n x.1) && inTravel s n p.mo.xEnd) then
            .error (limit n 4)
          else if l.e < ld.energyMj p.vPeak then .error (limit n 5)
          else if 100 * l.f < f then .error (limit n 6)
          else if s.rd (F.MPL_FMAX_IMAX n) < ld.currentMa f || s.rd (F.MPL_FMAX_IMAX n) < s.rd (F.MPL_IHOLD_IHOLD n) ||
              !coilsReady s n || noSource s n then .error (limit n 7)
          else .ok (p, l)

/-- HDEC and HJERK in counts (R169). -/
def hdec (s : State) (n : Axis) : Nat := s.rd (F.MPL_HDEC_HDEC n)
def hjerk (s : State) (n : Axis) : Nat := 256 * s.rd (F.MPL_HJERK_HJERK n)

/-- Check 6 of R55 (R176, R191, R193). The stop point is looked at from every phase boundary: between two of them it
lies between the start and the target (log entry 7). -/
def headlandCheck (s : State) (n : Axis) (op : Nat) (d : Desc) (p : Planned) (l : Limits) : Option Refuse :=
  let stops : List Rat :=
    if op = 7 then
      let h := headlandDist l.v l.a (hdec s n) (hjerk s n)
      [(travelMin s n : Rat) + h, (travelMax s n : Rat) - h]
    else (boundaryStates p.mo.phases p.mo.x0 0 0).map fun x =>
      (headland 0 x.1 x.2.1 x.2.2 (hdec s n) (hjerk s n)).xEnd
  let ld := s.load n
  let f := ld.forceMn (hdec s n)
  if op ≠ 8 && !(stops.all (inTravel s n)) then some (.headland, n.val)
  else if d.closing && 100 * l.f < f then some (.headland, n.val)
  else if d.closing && s.rd (F.MPL_FMAX_IMAX n) < ld.currentMa f then some (.headland, n.val)
  else none

/-- Braking from the peak velocity and the reversal, in ns: how long past the planned end the latest Headland of a
CLOSING segment lasts (R181). -/
def latestHeadlandNs (s : State) (n : Axis) (vPeak : Nat) : Nat :=
  let brake := phasesNs (brakePhases vPeak 0 (hdec s n) (hjerk s n))
  let dist := s.rd (F.MPL_REV_DIST_REV_DIST n)
  let rev := if dist = 0 then 0
    else match planMove 0 0 dist (s.rd (F.MPL_REV_VEL_REV_VEL n)) (hdec s n) (hdec s n) (hjerk s n) with
      | some p => p.durNs
      | none => 0
  brake + rev

/-- The peak Headland draw (R179, R181) of an axis that may begin to brake while it accelerates at a, reaching v before it
slows: of its first phase, in which the speed still rises, of the braking, and of a reversal. -/
def headlandDraw (s : State) (n : Axis) (rev : Bool) (a v : Rat) : Nat :=
  let ld := s.load n
  let first := if 0 < a then ld.phaseDraw a v false else 0
  let back := if rev then ld.phaseDraw (hdec s n) (s.rd (F.MPL_REV_VEL_REV_VEL n)) false else 0
  max first (max (ld.phaseDraw (hdec s n) 0 true) back)

/-- The largest acceleration along the way and the largest speed of a profile. -/
def profilePeaks (m : Motion) : Rat × Rat :=
  let dir := signRat (m.xEnd - m.x0)
  (boundaryStates m.phases m.x0 m.v0 m.a0).foldl
    (fun (p : Rat × Rat) x => (if 0 < dir * x.2.1 then max p.1 (dir * x.2.2) else p.1, max p.2 (absRat x.2.1))) (0, 0)

/-- A CLOSING segment's Headland has a reversal part (R175). -/
def hasReversal (s : State) (n : Axis) (closing : Bool) : Bool := closing && s.rd (F.MPL_REV_DIST_REV_DIST n) ≠ 0

/-- The bookings of a galley motion, its standing draw into the tail last (R158, R180, R181, R191). The draw of the peak
Headland is that of the largest acceleration together with the largest speed (log entry 110). -/
def motionBook (s : State) (n : Axis) (op : Nat) (d : Desc) (p : Planned) (l : Limits) (t1 : Nat) : List Booking :=
  let ld := s.load n
  let stand := ld.standDraw (s.rd (F.MPL_IHOLD_IHOLD n))
  let rev := hasReversal s n d.closing
  if op = 7 then
    let w := max (ld.phaseDraw l.a l.v false) (headlandDraw s n rev l.a l.v)
    if d.u32 28 = 0 then [⟨t1, none, w⟩]
    else [⟨t1, some (t1 + p.durNs + (if d.closing then latestHeadlandNs s n l.v else 0)), w⟩,
          ⟨t1 + p.durNs, none, stand⟩]
  else if p.mo.phases = [] then [⟨t1, none, stand⟩]
  else
    let late := t1 + p.durNs + (if d.closing then latestHeadlandNs s n p.vPeak else 0)
    let k := profilePeaks p.mo
    phaseBookings ld p.mo.phases t1 p.mo.x0 0 0 ++ [⟨t1, some late, headlandDraw s n rev k.1 k.2⟩] ++
    [⟨t1 + p.durNs, none, stand⟩]

/-- The budget check 7 compares with: the lower of the budget in force, one accepted this frame, and LIM derated
(R182, R441). -/
def budgetFor (s : State) (b : Bank) : Nat :=
  let now := s.rd (F.MPL_BUDGET_BUDGET b)
  let next := match (s.bank b).budgetNext with | some x => min now x.1 | none => now
  let der := s.rd (F.CND_DER_DER b)
  if der < 1024 then min next (s.rd (F.MPL_BUDGET_LIM_LIM b) * der / 1024) else next

/-- Check 7 of R55 for an axis's book as it would stand (R182). -/
def powerCheck (s : State) (n : Axis) (book : List Booking) : Option Refuse :=
  let b := bankOfAxis n
  let w := s.binNs
  let books := (axesOfBank b).map fun m => if m = n then book else (s.plan m).book
  let peak := peakDraw books w s.now
  if pastLastBin book w s.now then some (.power, b.val * 2 ^ 24 + 0xFFFFFF)
  else if budgetFor s b < peak then some (.power, b.val * 2 ^ 24 + min (peak - budgetFor s b) 0xFFFFFF)
  else none

/-- The scope with which a latched source covers axis n: 1 AXIS_STOP, 2 AXIS_OFF, 3 BANK_OFF, 4 DEVICE_OFF (R350). -/
def srcCovers (src scope : Nat) (n : Axis) : Bool :=
  if scope = 0 then false
  else if src = 36 then false
  else if scope = 4 ∨ src < 64 then true
  else if src < 128 then (src - 64) / 16 = n.val / 8
  else if scope = 3 then (src - 128) / 16 / 8 = n.val / 8
  else (src - 128) / 16 = n.val

/-- A latched source of scope AXIS_STOP or wider covers the axis (R353). -/
def State.covered (s : State) (n : Axis) : Bool :=
  s.fcs.srcs.any fun x => x.severe && (srcCovers x.src x.scope n || (x.src = 36 && 0 < x.scope && x.object = some n.val))

def State.inHeld (s : State) : Bool := s.flag F.LCS_LC_STAT_HELD
def State.halted (s : State) : Bool := s.flag F.LCS_LC_STAT_HALTED

/-- Life-cycle states (R417). -/
def lcBlank : Nat := 0
def lcProvisioned : Nat := 1
def lcCommissioning : Nat := 2
def lcOperational : Nat := 3
def lcService : Nat := 4
def lcRetired : Nat := 5

def State.lcState (s : State) : Nat := s.rd F.LCS_LC_STAT_STATE

/-- The life-cycle states in which galley operations and IDENTIFY are admitted (R417). -/
def State.lcWorks (s : State) : Bool :=
  s.lcState = lcCommissioning || s.lcState = lcOperational || s.lcState = lcService

/-- The life-cycle states that permit lock-up, forcing and debug halt (R417). -/
def State.lcOpen (s : State) : Bool := s.lcState = lcCommissioning || s.lcState = lcService

/-- The core that serves bank b (R154); 7 for none. -/
def coreOf (s : State) (b : Bank) : Nat := bits (4 * b.val + 2) (4 * b.val) (s.reg Reg.MPL_CORE_MAP).toNat

def coreFailed (s : State) (q : Nat) : Bool := bit q (s.rd F.MPL_CORE_MAP_FAILED)

/-- A working core serves bank b (R24, R428). -/
def coreWorks (s : State) (b : Bank) : Bool := coreOf s b ≠ 7 && !coreFailed s (coreOf s b)

/-- D12+b is powered and its bank was tested (R22, R414). -/
def bankReady (s : State) (b : Bank) : Bool :=
  s.powered (12 + b.val) && !(bit b.val (s.rd F.LCS_ST_RES_UNTESTED))

/-- The axis is driven from the open-loop registers (R222). -/
def openLoopBit (s : State) (n : Axis) : Bool := bit (n.val % 8) (s.rd (F.PWM_OLEN_OLEN (n.val / 8)))

/-- In HELD and in debug halt the descriptors that are still decided (R415, R430). -/
def modeCheck (s : State) (k : Ctx) (op : Nat) (d : Desc) : Option Refuse :=
  if s.halted && !(op = 0 || op = 0x20) then some (.state, 8)
  else if s.inHeld &&
      !(k.val = 0 && (op = 0 || op = 0x20 || op = 0x28 ||
        (op = 0x2A && s.rd F.LCS_LC_STAT_CAUSE = 3 && (d.u8 16 = 2 || d.u8 16 = 4)))) then some (.state, 8)
  else none

/-- The STATE refusals of check 8 for operations on an axis (R22, R131, R222, R353, R417). `energises` marks the
galley motions, HOLD, IDENTIFY and a CONFIG with RESTART. -/
def axisStateCheck (s : State) (n : Axis) (energises : Bool) : Option Refuse :=
  if !s.lcWorks then some (.state, 6)
  else if coreOf s (bankOfAxis n) = 7 then some (.state, 9)
  else if energises && s.covered n then some (.state, 3)
  else if energises && !bankReady s (bankOfAxis n) then some (.state, 2)
  else if energises && openLoopBit s n then some (.state, 4)
  else none

/-! ### Acceptance -/

def mkOp (tag : Nat) (k : Ctx) (op : Nat) (d : Desc) (index : Nat) (axes : List Axis) (t1 : Nat) (t2 : Option Nat) : Op :=
  { tag, ctx := k, op, d, index, axes, t1, t2, begun := false, deferred := false, left := axes, unaligned := false,
    data := [] }

/-- The galley takes an entry behind those it holds; an open end before it closes at its start (R134, R135, R155). -/
def enqueue (g : List Seg) (x : Seg) : List Seg :=
  (g.map fun y => if y.t2 = none then { y with t2 := some x.t1 } else y) ++ [x]

/-- An accepted galley operation on one axis: the entry, and the axis's book. -/
def State.takeEntry (s : State) (n : Axis) (x : Seg) (book : List Booking) : State :=
  s.setPlan n { s.plan n with galley := enqueue (s.plan n).galley x, book := book }

/-- The decision record of an accepted operation (R147). -/
def acceptWords (o : Op) : List Word :=
  cplWords (some o.tag) true false .accepted o.op o.d.cookie o.t1 (o.t2.getD openEnd) 0 o.index 0

/-- A single record, decision and final in one: the tag is free again at once (R111, R147). -/
def singleWords (tag : Nat) (st : Status) (op : Nat) (d : Desc) (t1 t2 index : Nat) : List Word :=
  cplWords (some tag) true true st op d.cookie t1 t2 0 index 0

def refuseWords (s : State) (op : Nat) (d : Desc) (index : Nat) (r : Refuse) : List Word :=
  cplWords none true true r.1 op d.cookie s.tickNs 0 r.2 index 0

/-- Admission of a galley motion at effective start t (checks 3 to 8), the tag given: the state with it accepted. -/
def admitMotion (s : State) (k : Ctx) (op : Nat) (d : Desc) (index tag t : Nat) : Except Refuse (State × Op) :=
  let n := d.axis
  match motionCheck s n op d t with
  | .error r => .error r
  | .ok (p, l) =>
    match headlandCheck s n op d p l with
    | some r => .error r
    | none =>
      let book := closeBook (s.plan n).book t ++ motionBook s n op d p l t
      match powerCheck s n book with
      | some r => .error r
      | none =>
        match (modeCheck s k op d).or (axisStateCheck s n true) with
        | some r => .error r
        | none =>
          let t2 := if op = 7 && d.u32 28 = 0 then none else some (t + p.durNs)
          let o := mkOp tag k op d index [n] t t2
          let x : Seg := ⟨tag, op, k, d, t, t2, false, p.mo, p.vPeak, l.f⟩
          .ok (State.takeEntry { s with ops := s.ops ++ [o] } n x book, o)

/-- Admission of HOLD, RELEASE and WAIT at effective start t (R134). -/
def admitStand (s : State) (k : Ctx) (op : Nat) (d : Desc) (index tag t : Nat) : Except Refuse (State × Op) :=
  let n := d.axis
  let ld := s.load n
  let x0 := startPos s n
  let stand := ld.standDraw (s.rd (F.MPL_IHOLD_IHOLD n))
  let closed := closeBook (s.plan n).book t
  let wasOn := s.endsOn n (s.plan n).galley
  let dur := if op = 5 then d.u32 20 else d.u32 16
  let t2 := if op = 5 && dur = 0 then none else some (t + 1000 * dur)
  let book :=
    if op = 5 then
      let w := ld.standDraw (d.u16 16)
      match t2 with
      | none => closed ++ [⟨t, none, w⟩]
      | some e => closed ++ [⟨t, some e, w⟩, ⟨e, none, stand⟩]
    else if op = 6 then closed ++ (if wasOn then [⟨t, t2, stand⟩] else [])
    else closed ++ (if wasOn then [⟨t, none, stand⟩] else [])
  if op = 5 && (s.rd (F.MPL_FMAX_IMAX n) < d.u16 16 || !coilsReady s n || noSource s n) then .error (limit n 7)
  else
    match (if op = 5 then powerCheck s n book else none) with
    | some r => .error r
    | none =>
      match (modeCheck s k op d).or (axisStateCheck s n (op = 5)) with
      | some r => .error r
      | none =>
        let o := mkOp tag k op d index [n] t t2
        let x : Seg := ⟨tag, op, k, d, t, t2, false, ⟨t, x0, 0, 0, [], x0⟩, 0, 0⟩
        .ok (State.takeEntry { s with ops := s.ops ++ [o] } n x book, o)

end Sys2Proof.Machine
end

