-- ==== Sys2Proof/Machine/Bridge.lean ====
section
/-! DEFINITION. What drives a half-bridge, what holds it off, and the soft turn-off (R220 to R224, R257 to R269). -/

namespace Sys2Proof.Machine

/-- What drives a half-bridge (R222, R223). -/
inductive Drive where
  | none | clp | openLoop | force
deriving DecidableEq, Repr

/-- The conditions of R222 for the axis. -/
def olPermit (s : State) (n : Axis) : Bool := s.lcOpen && (s.plan n).st = .off

def State.drive (s : State) (h : HalfBridge) : Drive :=
  let n := axisOfHb h
  if olPermit s n && bit 2 (s.hb h).force then .force
  else if olPermit s n && openLoopBit s n then .openLoop
  else if s.energised n then .clp
  else .none

/-- The present request asks for both switches at once (R224): the force word in effect, or the open-loop values in effect.
-/
def asksBoth (s : State) (h : HalfBridge) : Bool :=
  match s.drive h with
  | .force => bit 0 (s.hb h).force && bit 1 (s.hb h).force
  | .openLoop =>
    match (s.hb h).low with
    | some l => 32 * s.period < s.rd (F.PWM_CMP_CMP h) + l
    | none => false
  | _ => false

/-- Held off at the channel or the gate stage (R220, R221, R224, R257, R259, R261). -/
def State.held (s : State) (h : HalfBridge) : Bool :=
  let x := s.hb h
  x.trip.isSome || x.react || x.edge || x.vg || x.ilk || s.flag (F.PWM_CMP_BOTH h)

/-- Both gates are off: no drive, a hold, the enables removed or the bank analog domain off (PWM_CMP.HIZ, R226). -/
def State.hiz (s : State) (h : HalfBridge) : Bool :=
  !s.powered (12 + (bankOfHb h).val) || !s.flag F.GDR_STO_STAT_EN || s.drive h = .none || s.held h

/-! ### Where the edges of a half-bridge lie (R209 to R218) -/

/-- The dead time of a half-bridge in taps, at most 2,044 ns (R215). -/
def dtTaps (s : State) (h : HalfBridge) : Nat :=
  min 16352 (32 * s.rd (F.PWM_DT_DT_INT h) + s.rd (F.PWM_DT_DT_FRAC h))

/-- The dead time that follows the turn-off of one switch, the high side's or the low side's (R215 to R217): in adaptive mode
its latest measured delay and GUARD, between FLOOR and DT; DT where the gate had not fallen by then. -/
def deadAfter (s : State) (h : HalfBridge) (high : Bool) : Nat :=
  let b := bankOfHb h
  if s.flag (F.PWM_DT_ADAPT h) then
    let m := if high then s.rd (F.PWM_DT_MEAS_HOFF h) else s.rd (F.PWM_DT_MEAS_LOFF h)
    if m = 0xFFFF then dtTaps s h
    else clampNat (32 * s.rd (F.PWM_DT_LIM_FLOOR b)) (dtTaps s h) (m + 32 * s.rd (F.PWM_DT_LIM_GUARD b))
  else dtTaps s h

/-- Half a carrier period in taps. -/
def State.halfTaps (s : State) : Nat := 16 * s.period

/-- The commands of one half-carrier (R210, R222), in taps: a compare value and, where it is independent, the low-side
on-time. -/
structure Cmd where
  cmp : Nat
  low : Option Nat
deriving DecidableEq, Repr

/-- After the valley: when the high side's command goes on, and the low side's off. -/
def Cmd.highOn (c : Cmd) (half : Nat) : Nat := half - min half ((c.cmp + 1) / 2)
def Cmd.lowOff (c : Cmd) (half : Nat) : Nat :=
  match c.low with
  | none => c.highOn half
  | some l => min half (l / 2)

/-- After the peak: when the high side's command goes off, and the low side's on. -/
def Cmd.highOff (c : Cmd) (half : Nat) : Nat := min half (c.cmp / 2)
def Cmd.lowOn (c : Cmd) (half : Nat) : Nat :=
  match c.low with
  | none => c.highOff half
  | some l => half - min half ((l + 1) / 2)

/-- The gate turns on once its command is on and the dead time after the other's turn-off is over (R215). -/
def Cmd.lowUp (c : Cmd) (half dt : Nat) : Nat := max (c.lowOn half) (c.highOff half + dt)
def Cmd.highUp (c : Cmd) (half dt : Nat) : Nat := max (c.highOn half) (c.lowOff half + dt)

/-- The length of the low-side pulse around a valley, formed by the half-carrier before it and the one after it (R212). -/
def lowPulse (half dt : Nat) (fall rise : Cmd) : Int := (half : Int) - fall.lowUp half dt + rise.lowOff half

/-- The length of the high-side pulse around a peak. -/
def highPulse (half dt : Nat) (rise fall : Cmd) : Int := (half : Int) - rise.highUp half dt + fall.highOff half

/-- A pulse shorter than MINP is suppressed (R212). -/
def tooShort (s : State) (h : HalfBridge) (len : Int) : Bool :=
  let m := 32 * s.rd (F.PWM_MINP_MINP (bankOfHb h))
  0 < m && decide (len < (m : Int))

/-- No low-side pulse comes around the valley between two half-carriers: no command, or one too short (R210, R212). -/
def lowLess (s : State) (h : HalfBridge) (fall rise : Cmd) : Bool :=
  let half := s.halfTaps
  (half ≤ fall.lowOn half && rise.lowOff half = 0) || tooShort s h (lowPulse half (deadAfter s h true) fall rise)

/-- No high-side pulse comes around the peak between two half-carriers. -/
def highLess (s : State) (h : HalfBridge) (rise fall : Cmd) : Bool :=
  let half := s.halfTaps
  (half ≤ rise.highOn half && fall.highOff half = 0) || tooShort s h (highPulse half (deadAfter s h false) rise fall)

/-- The commands of the half-carrier in progress, and of the one before. -/
def cmdNow (s : State) (h : HalfBridge) : Cmd := ⟨s.rd (F.PWM_CMP_CMP h), (s.hb h).low⟩
def cmdPrev (s : State) (h : HalfBridge) : Cmd := ⟨(s.hb h).prev, (s.hb h).lowPrev⟩

/-- Taps from the latest valley of a coil's carrier to the present clock (R209). -/
def carrierTaps (s : State) (p : Coil) : Nat :=
  let per := 2 * s.halfTaps
  (32 * (s.clk - s.tickClk) + per - p.val % 16 * 2 * s.period % per) % per

/-- The notch of a notched period takes in the present clock (R218): 150 ns and the dead time on either side of the valley.
-/
def inNotch (s : State) (h : HalfBridge) : Bool :=
  let t := carrierTaps s (coilOfHb h)
  (s.hb h).notched && !s.halted && (t < 1200 + deadAfter s h false || 2 * s.halfTaps < t + 1200 + deadAfter s h true)

/-- The gate that is on in a running carrier (R210 to R218), `wait` telling whether a turn-on still waits out its dead time:
some true for the high side's, some false for the low side's. -/
def carrierLevel (s : State) (h : HalfBridge) (wait : Bool) : Option Bool :=
  let x := s.hb h
  let half := s.halfTaps
  let t := carrierTaps s (coilOfHb h)
  let dtL := if wait then deadAfter s h true else 0
  let dtH := if wait then deadAfter s h false else 0
  let now := cmdNow s h
  let prev := cmdPrev s h
  if inNotch s h then
    if t < 1200 || 2 * half < t + 1200 then some false
    else if wait then none
    else if t < half then some true else some false
  else if t < half then
    let fixed := x.lowSup && now.low.isNone
    let high := fixed || (!x.highSup && now.highUp half dtH ≤ t)
    let low := !x.lowSup && prev.lowUp half dtL ≤ t + half && (t < now.lowOff half || (x.highSup && now.low.isNone))
    if high then some true else if low then some false else none
  else
    let u := t - half
    let fixed := x.highSup && now.low.isNone
    let low := fixed || (!x.lowSup && now.lowUp half dtL ≤ u)
    let high := !x.highSup && prev.highUp half dtH ≤ t && (u < now.highOff half || (x.lowSup && now.low.isNone))
    if low then some false else if high then some true else none

/-- The level a force word asks for (R223). -/
def forceLevel (f : Nat) : Option Bool := if bit 0 f then some true else if bit 1 f then some false else none

/-- The gate of a forced half-bridge: a change of switch passes through the dead time, from the reload that took it (R223).
-/
def forcedGate (s : State) (h : HalfBridge) (wait : Bool) : Option Bool :=
  let x := s.hb h
  match forceLevel x.force with
  | none => none
  | some l =>
    if wait && x.was = some (!l) && 32 * (s.clk - (s.coil (coilOfHb h)).reload) < deadAfter s h (!l) then none else some l

/-- The gate of a half-bridge frozen by a debug halt (R225): its level, and a refresh notch from its latest one on. -/
def frozenGate (s : State) (h : HalfBridge) : Option Bool :=
  let x := s.hb h
  let u := 32 * (s.clk - x.haltAt)
  let off := deadAfter s h true
  if x.notched && u < off + 2400 + deadAfter s h false then (if off ≤ u && u < off + 2400 then some false else none)
  else x.frozen

/-- The gate of a half-bridge that is on (R214, R223, R225): held off, held through a debug halt, kept from before a change
of PERIOD, forced, or as its carrier has it. -/
def State.gate (s : State) (h : HalfBridge) : Option Bool :=
  let x := s.hb h
  if s.hiz h then none
  else if s.halted then frozenGate s h
  else
    match x.kept with
    | some l => l
    | none =>
      if s.drive h = .force then forcedGate s h true
      else carrierLevel s h true

/-- A gate of the half-bridge has not fallen (R267). -/
def gateOn (s : State) (h : HalfBridge) : Bool := (s.gate h).isSome

/-- Step 1 begins on a half-bridge with a gate that has not fallen; a sequence in progress goes on (R267 to R269). The
step is taken in the launching core clock (log entry 20). -/
def State.softStart (s : State) (h : HalfBridge) : State :=
  if gateOn s h && (s.hb h).soft.isNone then
    let dur := 50 * (s.rd (F.GDR_SOFT_DUR (bankOfHb h)) + 1)
    s.setHb h { s.hb h with soft := some ⟨s.clk + dur⟩ }
  else s

/-- STO during step 1: step 2 at the earlier of the two times (R269). -/
def State.softSto (s : State) (h : HalfBridge) : State :=
  match (s.hb h).soft with
  | some x =>
    let dur := 50 * (s.rd (F.GDR_SOFT_DUR (bankOfHb h)) + 1)
    s.setHb h { s.hb h with soft := some { x with step2 := min x.step2 (s.clk + dur) } }
  | none => s.softStart h

/-- A reaction turns the half-bridge off in two steps and holds it (R221, R267). -/
def State.reactOff (s : State) (h : HalfBridge) : State :=
  let s := s.softStart h
  s.setHb h { s.hb h with react := true }

/-- A cycle-by-cycle trip (R220, R266): commands off, soft turn-off, the half-bridge's trip count. The high side of a notch
in progress does not turn on (R269). -/
def State.tripHb (s : State) (h : HalfBridge) : State :=
  let notch := inNotch s h
  let s := s.softStart h
  (s.setHb h { s.hb h with trip := some (s.clk, 0), noRise := (s.hb h).noRise || notch }).cnt (F.GDR_MEAS_TRIPS h)

end Sys2Proof.Machine
end

