-- ==== Sys2Proof/Machine/Leave.lean ====
section
/-! DEFINITION. Energising and de-energising an axis, and leaving a segment early (R159 to R161, R174, R175, R185, R506). -/

namespace Sys2Proof.Machine

/-! ### The active position source (R19, R317) -/

/-- An encoder is configured: MODE is SERIAL or QUAD (R317). -/
def encoder (s : State) (n : Axis) : Bool := s.rd (F.FBK_CFG_MODE n) = 1 || s.rd (F.FBK_CFG_MODE n) = 2

/-- LES is the active source. -/
def actLes (s : State) (n : Axis) : Bool := !encoder s n || (s.plan n).useLes

/-- Position and speed of the active source, as latched. -/
def actX (s : State) (n : Axis) : Rat :=
  if actLes s n then (s.les n).xEst else (s.rdS64 (Reg.FBK_POS_LO n) : Rat)

def actV (s : State) (n : Axis) : Rat :=
  if actLes s n then (s.les n).w else (s.rdS (F.FBK_SPEED_SPEED n) : Rat)

/-- An absolute encoder is the active source (R193). -/
def absActive (s : State) (n : Axis) : Bool := !actLes s n && s.rd (F.FBK_CFG_MODE n) = 1

/-! ### The reference -/

/-- The reference (x, v, a) of an axis now (R162, R190). -/
def refNow (s : State) (n : Axis) : Rat × Rat × Rat :=
  match (s.plan n).follow with
  | some f => (f.x, f.v, f.a)
  | none => motionAt (s.plan n).ref s.now

/-- The segment in progress (R160). -/
def inProg (s : State) (n : Axis) : Option Seg := (s.plan n).galley.find? (·.begun)

def closingNow (s : State) (n : Axis) : Bool :=
  match inProg s n with
  | some g => g.d.closing && isMotion g.op
  | none => false

/-! ### Energising (R159, R231, R272) -/

/-- The estimator as an axis is energised (R231): from the encoder where one is configured and valid. -/
def lesStart (s : State) (n : Axis) : LesS :=
  let l := s.les n
  let x : Rat := if encoder s n && s.flag (F.FBK_STAT_VALID n) then (s.rdS64 (Reg.FBK_POS_LO n) : Rat) else l.xEst
  let theta : Rat := ((x.floor + s.rd (F.CLP_CTRL_COMM_OFF n)) % 65536 : Int)
  { l with xEst := x, theta, phi := theta, onAt := s.clk, w := 0, acq := 0, off := 0,
           live := 0, blind := 0, win := [], obsN := 0, blkN := 0, past := none, emfN := 0, angN := 0, plN := 0, stall := false,
           failed := false, noSrc := false, lostF := false, plaus := false }

/-- x_est moves by a step, and θ̂ with it: (x_est + COMM_OFF) mod 65,536 stays θ̂ (R228). -/
def LesS.shift (l : LesS) (step : Rat) : LesS :=
  let turn := fun q : Rat => q - 65536 * (q / 65536).floor
  { l with xEst := l.xEst + step, theta := turn (l.theta + step), phi := turn (l.phi + step) }

/-- A switch of the active source is no motion: the compare's x_p moves by the same step (R341). s0 is the state before. -/
def State.sourceMoved (s0 s : State) (n : Axis) : State :=
  s.setFbk n { s.fbk n with xPrev := (s.fbk n).xPrev + (actX s n - actX s0 n) }

/-- An axis is energised: it stands at its setpoint, its reaction holds end (R221), the supply monitor arms (R272) and
CLP takes the encoder again where it is valid (R19). Without the bank's analog domain it stays de-energised (R22). -/
def State.energise (s : State) (n : Axis) : State :=
  if s.energised n || !s.powered (12 + (bankOfAxis n).val) then s
  else
    let les := lesStart s n
    let b := bankOfAxis n
    let s0 := s
    let s := (s.setLes n les).setClp n
      { s.clp n with iv := 0, zd := 0, zq := 0 }
    let s := (s.wr (F.LES_STAT_VALID n) 0).wr (F.LES_STAT_LOWSPD n) 1
    let s := s.setGdr b { s.gdr b with uvArmed := true }
    let s := each (hbsOfAxis n) (fun s h => s.setHb h { s.hb h with react := false }) s
    s0.sourceMoved (s.setPlan n { s.plan n with st := .standing, holdMa := s.rd (F.MPL_IHOLD_IHOLD n), travelOut := false,
                                                useLes := encoder s n && !s.flag (F.FBK_STAT_VALID n) }) n

/-- An axis is de-energised: HOMED clears with an incremental source active (R193), a pending SS1 demand is cleared
(R364). What is booked for it stays: work accepted behind a RELEASE or a CONFIG keeps its draw (R180). -/
def State.deenergise (s : State) (n : Axis) : State :=
  let p := s.plan n
  let x := (refNow s n).1
  let s := s.setPlan n { p with st := .off, ref := Motion.still x, follow := none, homed := p.homed && absActive s n, leave := none }
  let s := s.setLes n { s.les n with stall := false, noSrc := false, past := none }
  let s := s.setClp n { s.clp n with fresh := false }
  let dem := s.rd F.FCS_SS1_DEM_AXES
  let s := if bit n.val dem then
      { s.wr F.FCS_SS1_DEM_AXES (dem - 2 ^ n.val) with
        inClk := { s.inClk with dem := Nat.lor s.inClk.dem (2 ^ n.val) } }
    else s
  s.setSs1 n none

/-- The axis draws nothing from now on: what was booked for it is gone with the work it was for (R180). -/
def State.unbook (s : State) (n : Axis) : State := s.setPlan n { s.plan n with book := cutBook (s.plan n).book s.now }

/-! ### Records of an early leaving (R160) -/

def causeRank : Cause → Nat
  | .sto _ => 1
  | .stop _ => 3
  | .fault _ => 3
  | .ss1Host => 3
  | .reversal _ => 4
  | .curtail _ => 5

/-- Status and DETAIL of the segment in progress (R160). -/
def causeOwn : Cause → Status × Nat
  | .stop t => (.stopped, t)
  | .fault src => (.fault, src)
  | .ss1Host => (.stopped, 0xFFFFFFFF)
  | .sto w => (.safeOff, w)
  | .reversal f => (.reversed, f)
  | .curtail b => (.curtailed, b)

/-- Status and DETAIL of each queued segment, the tag of the segment in progress given (R160). -/
def causeQueued (own : Nat) : Cause → Status × Nat
  | .stop t => (.cancelled, t)
  | .fault src => (.cancelled, src + 2 ^ 31)
  | .ss1Host => (.cancelled, 0x8000000B)
  | .sto w => (.safeOff, w)
  | .reversal _ => (.cancelled, own)
  | .curtail b => (.curtailed, b)

/-- A queued CONFIG that one of its axes cancels no longer acts on the others: their books lose it. -/
def State.unbookOthers (s : State) (n : Axis) (tag : Nat) : State :=
  match s.opOf tag with
  | none => s
  | some o =>
    if isConfig o.op then
      each (o.axes.filter fun m => m ≠ n) (fun s m => s.setPlan m { s.plan m with book := bookWithout s m tag o.t1 }) s
    else s

/-- Every queued segment gets its record, in galley order (R160). -/
def State.cancelQueued (s : State) (n : Axis) (c : Cause) : State :=
  let own := match inProg s n with | some g => g.tag | none => 0
  let r := causeQueued own c
  each ((s.plan n).galley.filter fun g => !g.begun)
    (fun s g => (s.unbookOthers n g.tag).finish g.tag r.1 0 s.now r.2 0) s

/-- The segment in progress gets its record. -/
def State.endProg (s : State) (n : Axis) (c : Cause) (t2 fl : Nat) : State :=
  match inProg s n with
  | none => s
  | some g => s.finish g.tag (causeOwn c).1 g.t1 t2 (causeOwn c).2 fl

/-- An axis named in a STOP in effect stands or is de-energised: the STOP ends with DONE once its last one does (R133). -/
def State.stopStood (s : State) (n : Axis) (t2 : Nat) : State :=
  each (s.ops.filter fun o => o.op = 4 && o.begun && o.left.contains n)
    (fun s o =>
      let left := o.left.filter (· ≠ n)
      let s := s.setOp { o with left := left }
      if left = [] then s.finish o.tag .done o.t1 t2 0 0 else s) s

/-- A curtailment ends with its last axis, once every bin and the tail lie within the budget (R186). -/
def State.curtSettle (s : State) (b : Bank) : State :=
  if s.flag (F.MPL_CURT_STAT_ACTIVE b) && (s.bank b).curtailed = [] &&
      peakDraw (s.books b) s.binNs s.now ≤ s.rd (F.MPL_BUDGET_BUDGET b) then
    s.wr (F.MPL_CURT_STAT_ACTIVE b) 0
  else s

def State.uncurtail (s : State) (n : Axis) : State :=
  let b := bankOfAxis n
  (s.setBank b { s.bank b with curtailed := (s.bank b).curtailed.filter (· ≠ n) }).curtSettle b

/-! ### Turn-off: rank 1 and 2 (R25, R160) -/

/-- An axis is turned off at once: its segment in progress and its queue end now, its half-bridges turn off in two steps,
and it is de-energised. A reaction holds its half-bridges (R221); STO acts on the enables. -/
def State.turnOff (s : State) (n : Axis) (c : Cause) : State :=
  let isSto := match c with | .sto _ => true | _ => false
  let prog := inProg s n
  let s := match prog with
    | some g => s.finish g.tag (causeOwn c).1 g.t1 s.now (causeOwn c).2 0
    | none => s
  let own := match prog with | some g => g.tag | none => 0
  let r := causeQueued own c
  let s := each ((s.plan n).galley.filter fun g => !g.begun) (fun s g => s.finish g.tag r.1 0 s.now r.2 0) s
  let s := each (hbsOfAxis n) (fun s h => if isSto then s.softSto h else s.reactOff h) s
  let s := (s.deenergise n).unbook n
  (s.stopStood n s.now).uncurtail n

/-! ### Leaving along the Headland: rank 3 to 5 -/

/-- The LES counts of an axis are cleared as it starts to leave (R242). -/
def State.clearObs (s : State) (n : Axis) : State := s.setLes n { s.les n with obsN := 0, blkN := 0 }

/-- A cause reaches an axis (R25, R161, R178, R506): the first one of a rank stands; a higher one replaces a reversal or
a curtailment and brakes from the state it finds. -/
def State.reach (s : State) (n : Axis) (c : Cause) (gatesOff : Bool) (due : Nat) : State :=
  let p := s.plan n
  let fresh : Leaving := ⟨c, false, due, gatesOff, none, false, false⟩
  match p.leave with
  | none => (s.setPlan n { p with leave := some fresh }).clearObs n
  | some l =>
    if causeRank l.cause ≤ causeRank c then
      if causeRank c = 3 then s.setPlan n { p with leave := some { l with gatesOff := l.gatesOff || gatesOff } }
      else if causeRank c = 4 && !l.begun then s.setPlan n { p with leave := some { l with skipped := true } }
      else s
    else
      let skipped := causeRank l.cause = 4 && !l.begun
      s.setPlan n { p with leave := some { fresh with skipped := skipped } }

/-- The direction of a segment (R236): of its target against its start, or of VEL for HOME METHOD 1. -/
def segDir (s : State) (n : Axis) (g : Seg) : Rat :=
  let target := match (s.plan n).follow with | some f => f.target | none => g.mo.xEnd
  if g.op = 8 then (if g.d.i32 16 < 0 then -1 else 1)
  else if g.mo.x0 < target then 1 else -1

/-- The end of a reversal: REV_DIST opening-wise from the stop, no further than the segment's start (R175). -/
def revEnd (s : State) (n : Axis) (g : Seg) (xs : Rat) : Rat :=
  let dist : Rat := s.rd (F.MPL_REV_DIST_REV_DIST n)
  if segDir s n g = 1 then max (min g.mo.x0 xs) (xs - dist) else min (max g.mo.x0 xs) (xs + dist)

/-- The state an axis takes while it leaves (R169). -/
def leaveState (l : Leaving) : AxState :=
  match l.cause with
  | .reversal _ => .reversing
  | .curtail _ => .curtailing
  | .fault _ => .braking
  | _ => if l.gatesOff then .ss1 else .braking

/-- The peak draw of the Headland from the axis's reference (R179). -/
def headlandNow (s : State) (n : Axis) (rev : Bool) : Nat :=
  let r := refNow s n
  let a := if r.2.1 < 0 then -r.2.2 else r.2.2
  let j := hjerk s n
  headlandDraw s n rev (max 0 a) (absRat r.2.1 + (if 0 < a ∧ 0 < j then a * a / (2 * j) else 0))

/-- The bookings of an axis that leaves: braking, the reversal where it has one, then standing or nothing (R185). -/
def leaveBook (s : State) (n : Axis) (t brakeNs : Nat) (opening : Nat) (gatesOff : Bool) : List Booking :=
  let ld := s.load n
  let w := headlandNow s n (0 < opening)
  let e := t + brakeNs + opening
  cutBook (s.plan n).book t ++ [⟨t, some e, w⟩] ++
    (if gatesOff then [] else [⟨e, none, ld.standDraw (s.rd (F.MPL_IHOLD_IHOLD n))⟩])

/-- How long the opening move of a reversal takes, in ns. -/
def openingNs (s : State) (n : Axis) (xs xr : Rat) : Nat :=
  match planMove 0 xs xr (s.rd (F.MPL_REV_VEL_REV_VEL n)) (hdec s n) (hdec s n) (hjerk s n) with
  | some p => p.durNs
  | none => 0

def headFlags (l : Leaving) : Nat := 2 + (if l.skipped then 4 else 0)

/-- Standstill of an axis that leaves and stays energised (R160). -/
def State.standstill (s : State) (n : Axis) (t2 : Nat) : State :=
  match (s.plan n).leave with
  | none => s
  | some l =>
    let x := (refNow s n).1
    let s := s.endProg n l.cause t2 (headFlags l)
    let s := s.setPlan n { s.plan n with leave := none, st := .standing, ref := Motion.still x,
                                         holdMa := s.rd (F.MPL_IHOLD_IHOLD n) }
    (s.stopStood n t2).uncurtail n

/-- Gate removal at the standstill of an SS1 (R361): two soft steps, and the axis is de-energised (R159). -/
def State.ss1Off (s : State) (n : Axis) : State :=
  match (s.plan n).leave with
  | none => s
  | some l =>
    let s := s.endProg n l.cause s.now (headFlags l)
    let s := each (hbsOfAxis n) (fun s h => s.softStart h) s
    let s := (s.deenergise n).unbook n
    (s.stopStood n s.now).uncurtail n

/-- Leaving begins (R160, R174): the queue ends and the axis brakes from its reference; an axis that is de-energised, or
that stands and keeps its enables, has reached standstill already. -/
def State.beginLeave (s : State) (n : Axis) : State :=
  match (s.plan n).leave with
  | none => s
  | some l =>
    if l.begun then s
    else
      let s := s.cancelQueued n l.cause
      let prog := inProg s n
      if !s.energised n then
        let s := s.endProg n l.cause s.now (if l.skipped then 4 else 0)
        let s := (s.deenergise n).unbook n
        (s.stopStood n s.now).uncurtail n
      else
        let r := refNow s n
        let m := headland s.now r.1 r.2.1 r.2.2 (hdec s n) (hjerk s n)
        let isRev := match l.cause with | .reversal _ => true | _ => false
        let rev := if isRev then prog.map fun g => revEnd s n g m.xEnd else none
        let opening := match rev with | some x => openingNs s n m.xEnd x | none => 0
        let p := s.plan n
        let s := s.setPlan n { p with
          st := leaveState l, ref := m, follow := none,
          leave := some { l with begun := true, revTo := rev },
          book := leaveBook s n s.now (phasesNs m.phases) opening l.gatesOff }
        let s := s.clearObs n
        if m.phases = [] && !l.gatesOff && !isRev then s.standstill n s.now else s

/-- The GTC at which the braking in progress ends. -/
def brakeEnd (s : State) (n : Axis) : Nat := (s.plan n).ref.t0 + phasesNs (s.plan n).ref.phases

/-- An axis is marked for SS1 (R351, R361, R506): its monitor starts, and it brakes from the first half-frame tick 1.0 µs
later. -/
def State.markSs1 (s : State) (n : Axis) (c : Cause) : State :=
  let s := if s.energised n && (s.ss1 n).isNone then s.setSs1 n (some ⟨s.clk, none, 0, 0, 0, 0⟩) else s
  s.reach n c true (s.clk + usClk 1)

end Sys2Proof.Machine
end

