-- ==== Sys2Proof/Machine/Ledger.lean ====
section
/-! DEFINITION. The queue of ledger entries (R448, R449). -/

namespace Sys2Proof.Machine

def State.ledFull (s : State) : Bool := 256 ≤ s.ledger.queue.length

/-- An entry takes its number and enters the queue (R449). -/
def State.ledEnter (s : State) (e : LedEntry) : State :=
  let l := s.ledger
  { s with ledger := { l with queue := l.queue ++ [{ e with seq := l.nextSeq }], nextSeq := l.nextSeq + 1 } }

/-- The types that are dropped when the queue is full; a FAULT entry of kind SEVERE or WIDENED has its reserve place, and
every other type waits (R449). -/
def ledDrops (typ : Nat) : Bool := typ = 9 || typ = 0xA || typ = 0xC

/-- An entry is made: into the queue, the reserve, the waiting list or nowhere (R449). In BLANK and RETIRED the ledger is not
written (R433). -/
def State.ledPush (s : State) (typ : Nat) (data : List Word) (src : Option Nat := none) : State :=
  let e : LedEntry := ⟨0, typ, s.now, data, src⟩
  let l := s.ledger
  if s.rd F.LCS_LC_STAT_STATE = 0 || s.rd F.LCS_LC_STAT_STATE = 5 then s
  else if !s.ledFull && l.reserve = [] && l.waits = [] then s.ledEnter e
  else if src.isSome then { s with ledger := { l with reserve := l.reserve ++ [e] } }
  else if ledDrops typ then
    State.sqc { s with ledger := { l with dropped := l.dropped + 1, lastType := typ } } F.CND_STAT_SUPP
  else { s with ledger := { l with waits := l.waits ++ [e] } }

/-- As a place frees: reserve entries first, then those that wait, then one SUPPRESSED entry (R449). -/
def State.ledRefill (s : State) : State :=
  if s.ledFull then s
  else
    let l := s.ledger
    match l.reserve with
    | e :: es => State.ledEnter { s with ledger := { l with reserve := es } } e
    | [] =>
      match l.waits with
      | e :: es => State.ledEnter { s with ledger := { l with waits := es } } e
      | [] =>
        if l.dropped = 0 then s
        else State.ledEnter { s with ledger := { l with dropped := 0 } }
          ⟨0, 0xB, s.now, [BitVec.ofNat 32 l.dropped, BitVec.ofNat 32 l.lastType, 0#32, 0#32], none⟩

/-- An entry of the source still waits to be written (R349). -/
def State.ledWaiting (s : State) (src : Nat) : Bool :=
  s.ledger.queue.any (fun e => e.src = some src) || s.ledger.reserve.any (fun e => e.src = some src)

end Sys2Proof.Machine
end

