-- ==== Sys2Proof/Machine/Fcs.lean ====
section
/-! DEFINITION. The reaction sequencer: classification, launch, cascade windows and fault records (R344 to R359). -/

namespace Sys2Proof.Machine

def noSrc (src : Nat) : SrcS := ⟨src, false, false, false, 0, [], 0, 0, 0, false, none⟩

def State.src (s : State) (src : Nat) : SrcS :=
  match s.fcs.srcs.find? fun x => x.src = src with
  | some x => x
  | none => noSrc src

/-- Sources in rising order, so that equal sets of trips are equal data. -/
def putSrc (x : SrcS) : List SrcS → List SrcS
  | [] => [x]
  | y :: t => if x.src < y.src then x :: y :: t else if x.src = y.src then x :: t else y :: putSrc x t

def State.setSrc (s : State) (x : SrcS) : State := { s with fcs := { s.fcs with srcs := putSrc x s.fcs.srcs } }

/-- The condition of a source has gone, or its excursion has re-armed (R349). -/
def State.inactive (s : State) (src : Nat) : State :=
  if (s.src src).active then s.setSrc { s.src src with active := false } else s

def srcScope (s : State) (src : Nat) : Nat := s.rd (F.FCS_SRC_CFG_SCOPE src)
def srcN (s : State) (src : Nat) : Nat := s.rd (F.FCS_SRC_CFG_N src)

/-- W in core clocks (R52, R345). -/
def srcW (s : State) (src : Nat) : Nat := usClk (s.rd (F.FCS_SRC_WIN_W src))

/-- The axes of a source's home (R350): its axis, its bank's, or all; source 36 has the axis of its record. -/
def homeAxes (src : Nat) (object : Option Nat) : List Axis :=
  if src = 36 then allAxes.filter fun n => object = some n.val
  else if src < 64 then allAxes
  else if src < 128 then allAxes.filter fun n => n.val / 8 = (src - 64) / 16
  else allAxes.filter fun n => n.val = (src - 128) / 16

/-- The axes a scope acts on (R350). -/
def scopeAxes (src scope : Nat) (object : Option Nat) : List Axis :=
  if scope = 0 then []
  else if scope = 4 then allAxes
  else if scope = 3 then
    let h := homeAxes src object
    allAxes.filter fun n => h.any fun m => m.val / 8 = n.val / 8
  else homeAxes src object

/-- The widest scope in force on an axis (R352). -/
def inForceOn (s : State) (n : Axis) : Nat :=
  s.fcs.srcs.foldl (fun m x => if x.severe && (scopeAxes x.src x.scope x.object).contains n then max m x.scope else m) 0

/-- DEVICE_OFF is in force (R350). -/
def State.devOff (s : State) : Bool := s.fcs.srcs.any fun x => x.severe && x.scope = 4

/-- A reason to keep the ALIVE outputs low (R367). -/
def State.aliveStop (s : State) : Bool :=
  !s.powered 1 || s.inHeld || s.devOff || s.halted || !s.flag F.LCS_LC_STAT_READY ||
  s.fcs.srcs.any fun x => x.severe && (s.flag (F.FCS_SRC_CFG_ALV x.src) || x.src = 32)

/-- FCS_STAT follows the latches (R372). -/
def State.fcsStat (s : State) : State :=
  let s := (s.wrB F.FCS_STAT_DEVOFF s.devOff).wrB F.FCS_STAT_LOCKSTEP (s.src 32).severe
  if s.aliveStop then (s.wr F.FCS_STAT_ALIVE_A 0).wr F.FCS_STAT_ALIVE_B 0 else s

/-- A scope is launched (R350, R351): axes are marked for SS1, or turned off in two steps with every channel in scope. -/
def State.launch (s : State) (src scope : Nat) (object : Option Nat) : State :=
  let axes := scopeAxes src scope object
  if scope = 0 then s
  else if scope = 1 then each axes (fun s n => s.markSs1 n (.fault src)) s
  else each axes (fun s n => s.turnOff n (.fault src)) s

/-! ### Cascade windows (R354 to R356) -/

/-- The sources that turning off or stopping axis n makes likely: T(n) (R355). -/
def likely (axes : Nat) (src : Nat) : Bool :=
  if 128 ≤ src then 4 ≤ src % 16 && src % 16 ≤ 11 && bit ((src - 128) / 16) axes
  else 64 ≤ src && (src % 16 = 0 || src % 16 = 9) && bits (8 * ((src - 64) / 16) + 7) (8 * ((src - 64) / 16)) axes ≠ 0

/-- The window's row contains the source (R355). -/
def Win.expects (s : State) (w : Win) (src : Nat) : Bool :=
  let c := w.src
  likely w.axes src ||
  ((c = 8 || c = 9) && src = 17 - c) ||
  ((c = 16 || c = 17) && (src = c + 2 || (src = 21 && s.rd F.TBS_PTM_CTRL_PORT = c - 16))) ||
  (c = 23 && (src = 20 || src = 21 || src = 22 || src = 35)) ||
  (64 ≤ c && c < 128 && c % 16 = 1 && 128 ≤ src && src % 16 = 2 && (src - 128) / 16 / 8 = (c - 64) / 16) ||
  (64 ≤ c && c < 128 && (c % 16 = 6 || c % 16 = 10) && 128 ≤ src && src % 16 = 3 &&
    (src - 128) / 16 / 8 = (c - 64) / 16) ||
  (128 ≤ c && c % 16 = 13 && (src = c - 6 || src = c + 1 || src = c + 2))

def Win.open (w : Win) (clk : Nat) : Bool := w.t0 < clk && clk < w.t0 + w.len

/-- The earliest-opened window that expects the source; a trip in the clock of the cause is never expected (R355, R356). -/
def State.windowFor (s : State) (src : Nat) : Option Win :=
  s.fcs.wins.find? fun w => w.open s.clk && w.expects s src

/-- A cascade window opens at the present clock (R354); the axes are those its cause acts on. -/
def State.openWindow (s : State) (src : Nat) (axes : List Axis) : State :=
  let len := usClk (s.rd F.FCS_CASCADE_CWIN)
  if len = 0 then s
  else { s with fcs := { s.fcs with
    wins := (s.fcs.wins.filter fun w => s.clk < w.t0 + w.len) ++ [⟨src, s.clk, len, maskOfAxes axes, []⟩] } }

def State.markSeen (s : State) (w : Win) (src : Nat) : State :=
  { s with fcs := { s.fcs with wins := s.fcs.wins.map fun x => if x = w then { x with seen := src :: x.seen } else x } }

/-! ### Records (R357 to R359) -/

structure FaultRec where
  kind : Nat
  widened : Bool
  loc : Bool
  count : Nat
  primary : Nat
  scope : Nat
  tag : Option Nat
deriving DecidableEq, Repr

/-- The classification word (R358). -/
def classWord (s : State) (src : Nat) (object : Option Nat) (r : FaultRec) : Nat :=
  r.kind + (if r.widened then 4 else 0) + (if r.loc then 8 else 0) + 16 * min r.count 255 + 4096 * srcN s src +
  (match object with | some n => 2 ^ 20 + 2 ^ 21 * n | none => 0)

/-- A fault record is written: to context 0, to the store and, for a SEVERE or WIDENED one, to the ledger. The lockstep
cores write none once they are held (R357, R359, R368). -/
def State.faultRecord (s : State) (src : Nat) (object : Option Nat) (r : FaultRec) : State :=
  if (s.src 32).severe then s
  else
    let d0 := classWord s src object r
    let e : Event := ⟨1, src, d0, s.now, r.primary, r.scope, r.tag, true⟩
    let i := s.fcs.recN
    let ws := withPhase (i / 256 % 2 = 0) (eventWords e)
    let full := 256 ≤ s.fcs.recs.length
    let s := { s with fcs := { s.fcs with recs := (if full then s.fcs.recs.drop 1 else s.fcs.recs) ++ [ws], recN := i + 1 } }
    let s := if full then s.sqc F.FCS_STAT_REC_OVF else s
    let s := (s.cntWrap F.FCS_REC_CNT_RECS).wr F.FCS_STAT_LAST src
    let s := s.eventTo 0 e
    if r.kind = 1 || r.widened then
      s.ledPush 5 [BitVec.ofNat 32 src, BitVec.ofNat 32 d0, BitVec.ofNat 32 r.primary, BitVec.ofNat 32 r.scope] (some src)
    else s

/-- The tag of the segment in progress on the axis concerned (R357). -/
def tagOn (s : State) (src : Nat) (object : Option Nat) : Option Nat :=
  if 128 ≤ src || src = 36 then
    match (homeAxes src object).head? with
    | some n => (inProg s n).map (·.tag)
    | none => none
  else none

/-- The counted trips of a source inside its window, the one now included, newest first (R346). The stamps held are those of
the latest N; a lower N lets go of the others at the next trip (R348). -/
def counted (s : State) (x : SrcS) : List Nat := s.clk :: x.stamps.filter fun t => s.clk - t < srcW s x.src

/-- What became of a trip, to say whether it opens a window: the state, and whether it was a launch. -/
def tripPrimary (s : State) (x : SrcS) (object : Option Nat) (loc : Bool) : State :=
  let src := x.src
  let tag := tagOn s src object
  let count := (counted s x).length
  let st := (counted s x).take (max 1 (srcN s src))
  if srcN s src ≤ count then
    let scope := srcScope s src
    let s := s.setSrc { x with stamps := st, sec := false, severe := true, scope, since := 0, recorded := false, object }
    let s := (s.openWindow src (scopeAxes src scope object)).launch src scope object
    s.faultRecord src object ⟨1, false, loc, count, src, scope, tag⟩
  else
    let s := s.setSrc { x with stamps := st, sec := false }
    if count = 1 && s.flag (F.FCS_SRC_CFG_RPT src) then
      s.faultRecord src object ⟨0, false, loc, count, src, 0, tag⟩
    else s

/-- A secondary trip (R356): not counted; it widens when its scope is wider on some object of its home. -/
def tripSecondary (s : State) (x : SrcS) (w : Win) (object : Option Nat) (loc : Bool) : State :=
  let src := x.src
  let tag := tagOn s src object
  let scope := srcScope s src
  let axes := scopeAxes src scope object
  if axes.any fun n => inForceOn s n < scope then
    let s := s.setSrc { x with sec := true, severe := true, scope, since := 0, recorded := false, object }
    let s := ((s.markSeen w src).openWindow src axes).launch src scope object
    s.faultRecord src object ⟨2, true, loc, 0, w.src, scope, tag⟩
  else
    let s := s.setSrc { x with sec := true }
    if w.seen.contains src then s
    else (s.markSeen w src).faultRecord src object ⟨2, false, loc, 0, w.src, 0, tag⟩

/-- A further trip of a latched source (R347). -/
def tripLatched (s : State) (x : SrcS) (object : Option Nat) (loc : Bool) : State :=
  let since := min (x.since + 1) 255
  if !x.recorded || srcW s x.src ≤ s.clk - x.recAt then
    (s.setSrc { x with since := 0, recAt := s.clk, recorded := true }).faultRecord x.src object
      ⟨0, false, loc, since, x.src, 0, tagOn s x.src object⟩
  else s.setSrc { x with since }

/-- Every trip of 8, 9 and 11 opens a window, whether it launches or not, on the axes demanded beside those its launch acts
on (R354, R355). s is the state before the trip. -/
def demandWindow (s s' : State) (src : Nat) : State :=
  let axes := if src = 11 then s.rd F.FCS_SS1_DEM_AXES else maskOfAxes allAxes
  let mine := fun w : Win => w.src = src && w.t0 = s.clk
  if src ≠ 8 && src ≠ 9 && src ≠ 11 then s'
  else if s'.fcs.wins.any mine then
    { s' with fcs := { s'.fcs with
      wins := s'.fcs.wins.map fun w => if mine w then { w with axes := Nat.lor w.axes axes } else w } }
  else s'.openWindow src (axesOfMask axes)

/-- Source src trips at the present clock (R346): active says whether its condition persists, object is the axis of a
record of source 36, loc that it also acted cycle-by-cycle. Sources not used are never raised (R344). -/
def State.trip (s : State) (src : Nat) (active : Bool := false) (object : Option Nat := none) (loc : Bool := false) :
    State :=
  if (sourceRow src).isNone || !s.powered 1 then s
  else
    let x := s.src src
    let x := { x with total := min 255 (x.total + 1), active := active }
    let s' :=
      if x.severe then
        tripLatched s { x with sec := (s.windowFor src).isSome } object loc
      else
        match s.windowFor src with
        | some w => tripSecondary s x w object loc
        | none => tripPrimary s x object loc
    State.arranged s (demandWindow s s' src).fcsStat

/-- The trips that a row has detected run, the lowest source first (R50). -/
def State.runTrips (s : State) : State :=
  each (s.inClk.trips.insertionSort fun a b => a.src ≤ b.src) (fun s x => s.trip x.src x.active x.object x.loc)
    { s with inClk := { s.inClk with trips := [] } }

/-- What a row detects acts together, after all of it has been found (R50). -/
def State.finding (find : State → State) (s : State) : State :=
  (find { s with inClk := { s.inClk with trips := [] } }).runTrips

/-! ### Clears (R349) -/

/-- The first reason of R349 to refuse the clear of a source, if one holds. -/
def clearRefused (s : State) (src : Nat) : Bool :=
  let x := s.src src
  !x.severe || x.active || src = 32 || s.ledWaiting src

/-- A latch is cleared: held stamps go (R349). Channels under open-loop or force control are released at their next reload,
once no reaction covers them (R221). -/
def State.clearSrc (s : State) (src : Nat) : State :=
  let x := s.src src
  let s := s.setSrc { x with severe := false, stamps := [], scope := 0, since := 0, recorded := false }
  let s := s.faultRecord src x.object ⟨3, false, false, 0, src, 0, tagOn s src x.object⟩
  s.fcsStat

end Sys2Proof.Machine
end

