-- ==== Sys2Proof/Machine/Les.lean ====
section
/-! DEFINITION. Load estimation (R227 to R252): what LES hands MPL at a half-frame tick, axis by axis. -/

namespace Sys2Proof.Machine

/-- The half-frame in seconds. -/
def State.halfSec (s : State) : Rat := (2 * s.tfNs : Nat) / (4000000000 : Rat)

/-- The current-loop bandwidth limit of the frame profile, Hz (R31). -/
def State.bwLimit (s : State) : Nat := 8000 / 2 ^ s.rd F.TBS_FRAME_PROFILE

/-- The residue in -32,768 .. 32,767 counts (R228). -/
def wrap16 (q : Rat) : Rat := q - 65536 * ((q + 32768) / 65536).floor

def wrapTurn (q : Rat) : Rat := q - 65536 * (q / 65536).floor

/-- A coil's values that LES may use at the tick: the latest step that completed 150 ns before it (R233). -/
def lesReady (s : State) (p : Coil) : Bool := (s.coil p).doneAt + 38 ≤ s.clk

def lesIq (s : State) (p : Coil) : Rat := if lesReady s p then (s.coil p).iqAct else (s.coil p).iqOld
def lesMa (s : State) (p : Coil) : Rat := if lesReady s p then (s.coil p).mA else (s.coil p).mAOld

/-- The two latest back-EMF values of a coil that LES may use, the latest first. -/
def lesEmf (s : State) (p : Coil) : Rat × Rat :=
  let k := s.coil p
  if lesReady s p then (k.emf, k.emfOld) else (k.emfOld, k.emfOld2)

def coilA (n : Axis) : Coil := ⟨2 * n.val, by omega⟩
def coilB (n : Axis) : Coil := ⟨2 * n.val + 1, by omega⟩

/-- The back-EMF pair, coil B, sampled TF/16 later, aligned to coil A's interval between its two latest values (R227). -/
def emfPair (s : State) (n : Axis) : Rat × Rat :=
  let b := lesEmf s (coilB n)
  ((lesEmf s (coilA n)).1, b.1 - (b.1 - b.2) / 8)

/-- The axis has the constants an estimate needs (R232). -/
def lesAble (s : State) (n : Axis) : Bool :=
  s.rd (F.CLP_KE_KE n) ≠ 0 && [2 * n.val, 2 * n.val + 1].all fun p =>
    s.rd (F.CLP_RL_RES p) ≠ 0 && s.rd (F.CLP_RL_IND p) ≠ 0

/-- What the tracking loop finds against an angle θ (R228): for a speed below zero the back-EMF lies the other way. -/
def trackError (s : State) (n : Axis) (θ w : Rat) : Rat :=
  let e := emfPair s n
  wrap16 (angleOf e.2 (-e.1) - θ - (if w < 0 then 32768 else 0))

/-- 2π × PLL_BW × 10 × TF/2, PLL_BW limited to half the bandwidth limit of the profile (R228). -/
def trackRate (s : State) (n : Axis) : Rat :=
  twoPi * min (10 * s.rd (F.LES_CFG_PLL_BW n)) (s.bwLimit / 2) * s.halfSec

/-- One half-frame of the loop while VALID is set (R228, R229). -/
def trackValid (s : State) (n : Axis) : State :=
  let l := s.les n
  let h := s.halfSec
  let wn := trackRate s n
  let eps := trackError s n l.theta l.w
  let w := l.w + wn * wn / h * eps
  let step := w * h + 2 * wn * eps
  let off := if 8192 ≤ absRat eps then l.off + 1 else 0
  let lose := absRat w < (s.rd (F.LES_VMIN_VMIN n) : Rat) * 7 / 8 || 4 ≤ off || !lesAble s n
  let theta := wrapTurn (l.theta + step)
  let s := s.setLes n { l with w, theta, phi := theta, xEst := l.xEst + wrap16 step, off := if lose then 0 else off, acq := 0,
                               blind := 0 }
  if lose then (s.wr (F.LES_STAT_VALID n) 0).wr (F.LES_STAT_LOWSPD n) 1 else s

/-- One half-frame of the low-speed regime (R229, R230). x_est and θ̂ advance by v_ref. From VMIN on the loop seeks the
angle of the back-EMF from there, its speed that of the setpoint; once VALID sets, x_est takes that angle within its cycle,
up to half a cycle away (log entry 120). -/
def trackBlind (s : State) (n : Axis) : State :=
  let l := s.les n
  let vRef := (s.clp n).vRef
  let move := vRef * s.halfSec
  let theta := wrapTurn (l.theta + move)
  let fast := (s.rd (F.LES_VMIN_VMIN n) : Rat) ≤ absRat vRef
  let eps := trackError s n l.phi vRef
  let phi := if fast && lesAble s n then wrapTurn (l.phi + move + 2 * trackRate s n * eps) else theta
  let acq := if fast && absRat eps < 2048 && lesAble s n then l.acq + 1 else 0
  let blind := if fast then l.blind + 1 else 0
  if s.rd (F.LES_CFG_ACQ n) ≤ acq then
    ((s.setLes n { l with w := vRef, theta := phi, phi, xEst := l.xEst + move + wrap16 (phi - theta), acq := 0, off := 0,
                          blind := 0 }).wr (F.LES_STAT_VALID n) 1).wr (F.LES_STAT_LOWSPD n) 0
  else s.setLes n { l with w := vRef, theta, phi, xEst := l.xEst + move, acq, blind }

/-- The tracking loop and the validity of the estimate over one half-frame (R228 to R230, R232). -/
def lesTrack (s : State) (n : Axis) : State := if s.flag (F.LES_STAT_VALID n) then trackValid s n else trackBlind s n

/-- The estimator's position as its register shows it. -/
def lesShow (s : State) (n : Axis) : State := s.wrS64 (Reg.LES_EST_LO n) (s.les n).xEst.floor

/-- |i|, rounded up (R237, R239). -/
def coilMag (s : State) (n : Axis) : Rat :=
  let a := lesMa s (coilA n)
  let b := lesMa s (coilB n)
  sqrtUp (a * a + b * b)

/-- k_F in mN/mA (R170). -/
def kf (s : State) (n : Axis) : Rat := (s.rd (F.MPL_KF_KF n) : Rat) / 65536

/-- m a in mN for an acceleration in counts/s² (R170, R235). -/
def massForce (s : State) (n : Axis) (a : Rat) : Rat :=
  (s.rd (F.MPL_MASS_MASS n) : Rat) * a * s.rd (F.MPL_SCALE_SCALE n) / 1000000000000

def truncRat (q : Rat) : Int := if 0 ≤ q then q.floor else -((-q).floor)

/-- The force window takes the half-frame, and F_x is formed (R235). -/
def lesForce (s : State) (n : Axis) : State :=
  let l := s.les n
  let m : Nat := 2 ^ min 6 (s.rd (F.LES_CFG_AVG n))
  let iq := (lesIq s (coilA n) + lesIq s (coilB n)) / 2
  let win := ((kf s n * iq, actV s n) :: l.win).take (m + 1)
  let sum : Rat := (win.take m).foldl (fun (x : Rat) (y : Rat × Rat) => x + y.1) 0
  let mean : Rat := sum / ((win.take m).length : Rat)
  let a : Rat := match win[m]? with
    | some old => (actV s n - old.2) / (m * s.halfSec)
    | none => 0
  let vRef := (s.clp n).vRef
  let fr := 100 * (s.rd (F.MPL_FRIC_FLOOR n) : Rat) * signRat vRef
  let fx := mean - fr - massForce s n a
  let s := s.setLes n { l with win, live := l.live + 1, moved := l.moved + 1 }
  s.wrS (F.LES_FORCE_FX n) (clampInt (-2147483647) 2147483647 (truncRat fx))

/-- The bound form is in use (R237). -/
def lesBound (s : State) (n : Axis) : Bool :=
  let m : Nat := 2 ^ min 6 (s.rd (F.LES_CFG_AVG n))
  (actLes s n && s.flag (F.LES_STAT_LOWSPD n)) || (s.les n).moved ≤ m || (s.les n).live ≤ m

/-- F_res in mN (R236, R237). -/
def resForce (s : State) (n : Axis) (dir : Rat) : Rat :=
  if lesBound s n then kf s n * coilMag s n + absRat (massForce s n (s.clp n).aRef)
  else dir * s.rdS (F.LES_FORCE_FX n)

/-- FVALID of an energised axis (R238). -/
def lesFvalid (s : State) (n : Axis) : Bool :=
  !(s.les n).sigLost && s.rd (F.MPL_SCALE_SCALE n) ≠ 0 && s.rd (F.MPL_MASS_MASS n) ≠ 0 && s.rd (F.MPL_KF_KF n) ≠ 0 &&
  !(actLes s n && s.rd (F.LES_CFG_ACQ n) < (s.les n).blind)

/-- The armed segment whose half-frame this was (R173, R241, R242): a closing segment, or a HOME that seeks its stop. -/
def armedSeg (s : State) (n : Axis) : Option Seg :=
  if (s.plan n).leave.isSome || !s.energised n then none
  else
    match inProg s n with
    | none => none
    | some g =>
      let began := s.now < (match g.t2 with | some e => e + 2 * s.period | none => s.now + 1)
      if g.d.closing && isMotion g.op && began && (g.mo.phases ≠ [] || g.op = 7) then some g
      else none

/-- A HOME METHOD 1 still searching for its stop (R244). -/
def stopSeek (s : State) (n : Axis) : Option Seg :=
  if (s.plan n).leave.isSome || !s.energised n then none
  else
    match inProg s n with
    | some g =>
      let stood := match s.opOf g.tag with | some o => o.data ≠ [] | none => false
      if g.op = 8 && g.d.u8 24 = 1 && (s.fbk n).homeHit.isNone && !stood then some g else none
    | none => none

/-- The partner of a reversal (R175): a closing segment in progress under no action of rank 1 to 3, reversed in the same
half-frame with the force estimate of the tripping axis. -/
def State.reversePartner (s : State) (n : Axis) (f : Nat) : State :=
  if s.flag (F.MPL_REV_CFG_PEN n) then
    let m : Axis := ⟨s.rd (F.MPL_REV_CFG_PARTNER n) % 32, by omega⟩
    let free := match (s.plan m).leave with
      | none => true
      | some l => causeRank l.cause = 5
    if closingNow s m && s.energised m && free then (s.reach m (.reversal f) false (s.clk + 1)).clearObs m else s
  else s

/-- An obstruction flag is raised (R173, R177, R240, R241): its event, and the reversal while the segment is armed. -/
def State.obstruct (s : State) (n : Axis) (g : Seg) (f : Nat) : State :=
  let s := (s.sqc (F.LES_STAT_OBS n)).cnt (F.LES_STAT_OBSCNT n)
  let pos := (refNow s n).1.floor
  let s := s.axisEvent n 0x11 (ofSigned 64 pos) f (some g.tag) true
  let ended := (s.les n).past.isSome
  let s := s.clearObs n
  if !ended && s.now < g.t2.getD (s.now + 1) then
    (s.reach n (.reversal f) false (s.clk + 1)).reversePartner n f
  else s

/-- The obstruction criteria of an armed segment (R240), of one that ended in this half-frame too (R241), after which the
counts start anew (R242), and the force criterion of a HOME METHOD 1 (R244). Answers whether one completed. -/
def lesObstruct (s : State) (n : Axis) : State × Bool :=
  match stopSeek s n with
  | some g =>
    let met := 100 * (g.d.u16 25 : Rat) < resForce s n (segDir s n g)
    let l := s.les n
    let k := if met then l.obsN + 1 else 0
    if s.rd (F.LES_CFG_OBS_N n) ≤ k then
      let s := s.setLes n { l with obsN := 0 }
      (s.setFbk n { s.fbk n with homeHit := some (actX s n) }, true)
    else (s.setLes n { l with obsN := k }, false)
  | none =>
    match (s.les n).past.or (armedSeg s n) with
    | none => (s.clearObs n, false)
    | some g =>
      let l := s.les n
      let dir := segDir s n g
      let f := resForce s n dir
      let lag := dir * ((s.clp n).xRef - actX s n)
      let berr := s.rd (F.LES_BLOCK_BERR n)
      let k := if 100 * (g.fLim : Rat) < f then l.obsN + 1 else 0
      let b := if berr ≠ 0 && s.flag (F.CLP_STAT_ILIM n) && (berr : Rat) < lag then l.blkN + 1 else 0
      let s := s.setLes n { l with obsN := k, blkN := b }
      if s.rd (F.LES_CFG_OBS_N n) ≤ k ∨ s.rd (F.LES_BLOCK_BLK_N n) ≤ b then
        (s.obstruct n g (ofSigned 32 (truncRat (f / 100))), true)
      else (if l.past.isSome then s.clearObs n else s, false)

/-- The active source gives a position (R229, R337). -/
def actValid (s : State) (n : Axis) : Bool :=
  if actLes s n then s.flag (F.LES_STAT_VALID n) else s.flag (F.FBK_STAT_VALID n)

/-- Load and load angle (R239). -/
def lesLoad (s : State) (n : Axis) : State :=
  let i := coilMag s n
  let imax := s.rd (F.MPL_FMAX_IMAX n)
  let load := if imax = 0 then s.drawn % 256 else min 255 (100 * i / (imax : Rat)).floor.toNat
  let s := if imax = 0 then s.draw else s
  let cur := angleOf (lesMa s (coilA n)) (lesMa s (coilB n))
  let rotor : Option Rat :=
    if actValid s n then some (actX s n + s.rd (F.CLP_CTRL_COMM_OFF n))
    else if s.flag (F.LES_STAT_VALID n) then some (s.les n).theta
    else none
  let delta := match rotor with | some r => (wrapTurn (cur - r)).floor.toNat | none => 0
  (s.wr (F.LES_LOAD_DELTA n) delta).wr (F.LES_LOAD_LOAD n) load

/-- The stall criteria met in this half-frame: back-EMF collapse, pull-out and acquisition failure (R245). -/
def stallMet (s : State) (n : Axis) : Bool × Bool × Bool :=
  let vRef := absRat (s.clp n).vRef
  let fast := (s.rd (F.LES_VMIN_VMIN n) : Rat) ≤ vRef
  let e := emfPair s n
  let bound := (s.rd (F.LES_STALL_EMF_PCT n) : Rat) / 100 * s.rd (F.CLP_KE_KE n) * vRef / 1000000000
  let collapse := fast && s.rd (F.LES_STALL_EMF_PCT n) ≠ 0 && decide (e.1 * e.1 + e.2 * e.2 < bound * bound)
  let d := s.rd (F.LES_LOAD_DELTA n) % 32768
  let away := min d (32768 - d)
  let pull := s.flag (F.CLP_CTRL_MODE n) && !actLes s n && s.rd (F.LES_STALL_ANG n) ≠ 0 &&
    decide (s.rd (F.LES_STALL_ANG n) < away)
  let acq := actLes s n && fast && (s.les n).blind = s.rd (F.LES_CFG_ACQ n) && !s.flag (F.LES_STAT_VALID n)
  (collapse, pull, acq)

/-- The stall flag (R243, R245): outside an armed segment, where alone the criteria run, and not in the half-frame of an
obstruction; once until the axis is de-energised or a segment begins with no criterion met. -/
def lesStall (s : State) (n : Axis) (obs : Bool) : State :=
  let l := s.les n
  let m := stallMet s n
  let out := !obs && l.past.isNone && (armedSeg s n).isNone
  let ek := if out && m.1 then l.emfN + 1 else 0
  let ak := if out && m.2.1 then l.angN + 1 else 0
  let s := s.setLes n { l with emfN := ek, angN := ak, failed := l.failed || m.2.2 }
  let k := s.rd (F.LES_STALL_STALL_N n)
  let met := k ≤ ek || k ≤ ak || m.2.2
  if met && out && !l.stall then
    let s := s.setLes n { s.les n with stall := true }
    let s := s.sqc (F.LES_STAT_STALL n)
    let s := s.axisEvent n 0x10 (ofSigned 64 (actX s n).floor) (s.rd (F.LES_LOAD_DELTA n)) ((inProg s n).map (·.tag)) true
    s.detect (128 + 16 * n.val + 6)
  else s

/-- CLP takes LES as the active source (R19, R246): one SOURCE_SWITCH event with the position x_est had at the latch point;
the compare moves with it (R341). -/
def State.switchToLes (s : State) (n : Axis) (x : Rat) : State :=
  if actLes s n then s
  else
    let old := actX s n
    let s := s.setPlan n { s.plan n with useLes := true }
    let s := s.setFbk n { s.fbk n with xPrev := (s.fbk n).xPrev + (x - old) }
    let s := s.setLes n { s.les n with moved := 0, obsN := 0, blkN := 0 }
    s.axisEvent n 0x14 (ofSigned 64 x.floor) (ofSigned 32 (s.les n).good) ((inProg s n).map (·.tag)) true

/-- The two positions compared, x the estimate at the latch point (R246), and plausibility where the estimator has a position
(R232). -/
def lesCompare (s : State) (n : Axis) (x : Rat) : State :=
  if !encoder s n || (s.fbk n).bad then s
  else
    let l := s.les n
    let diff := s.rdS64 (Reg.FBK_POS_LO n) - x.floor
    let s := s.wrS (F.LES_DIFF_DIFF n) (clampInt (-2147483647) 2147483647 diff)
    let tol := if s.flag (F.LES_STAT_VALID n) then s.rd (F.LES_PLAUS_TOL n) else s.rd (F.LES_PLAUS_LOW_TOL n)
    let k := if lesAble s n && tol < diff.natAbs then l.plN + 1 else 0
    let s := s.setLes n { l with good := diff, plN := k, plaus := l.plaus && k ≠ 0 }
    if s.rd (F.LES_CFG_PL_N n) ≤ k && !(s.les n).plaus then
      let s := (s.setLes n { s.les n with plaus := true }).sqc (F.LES_STAT_PLAUS n)
      (s.switchToLes n x).detect (128 + 16 * n.val + 7)
    else s

/-- Neither source is valid on an energised axis (R248), once until it is de-energised. -/
def lesNoSource (s : State) (n : Axis) : State :=
  let l := s.les n
  let fast := (s.rd (F.LES_VMIN_VMIN n) : Rat) ≤ absRat (s.clp n).vRef
  let failed := encoder s n && !s.flag (F.FBK_STAT_VALID n) && (s.plan n).useLes
  if s.energised n && failed && !s.flag (F.LES_STAT_VALID n) && (fast || l.failed) && !l.noSrc then
    (s.setLes n { l with noSrc := true }).detect (128 + 16 * n.val + 8)
  else s

/-- FVALID and source 9 on an armed closing segment (R238). -/
def lesValidity (s : State) (n : Axis) : State :=
  let ok := lesFvalid s n
  let s := s.wrB (F.LES_STAT_FVALID n) ok
  let l := s.les n
  if !ok && (armedSeg s n).isSome && !l.lostF then
    (s.setLes n { l with lostF := true }).detect (128 + 16 * n.val + 9)
  else if ok && l.lostF then s.setLes n { l with lostF := false }
  else s

/-- The hand-off of one axis at a half-frame tick (R233 to R248). Signals are lost where CLP delivered none in a half-frame
that the axis was energised for; a de-energised axis keeps its estimate and its validity (R231, R234). -/
def lesHandoff (s : State) (n : Axis) : State :=
  if !s.powered 6 then s
  else
    let x := (s.les n).xEst
    if s.energised n then
      let whole := decide ((s.les n).onAt + s.period / 2 ≤ s.clk)
      let s := s.setLes n { s.les n with sigLost := whole && !(s.clp n).fresh }
      let s := lesShow (lesTrack s n) n
      let s := lesLoad (lesForce s n) n
      let s := s.wrB (F.LES_STAT_BOUND n) (lesBound s n)
      let s := lesValidity s n
      let r := lesObstruct s n
      let s := lesStall r.1 n r.2
      let s := lesNoSource (lesCompare s n x) n
      let s := if (s.les n).past.isSome then s.setLes n { s.les n with past := none } else s
      s.setClp n { s.clp n with fresh := false }
    else lesCompare (lesShow s n) n x

end Sys2Proof.Machine
end

