-- ==== Sys2Proof/Machine/Readings.lean ====
section
/-! DEFINITION. The readings the condition monitor gathers as the device runs (R434). Units the spec does not give are
chosen in log entry 31: quantity 2 in 10 µΩ, 4 in 0.1 mΩ, 10 in 1/1000 LSB per hour. -/

namespace Sys2Proof.Machine

/-- Entries in rising (quantity, object), one for each. -/
def putReading (q o : Nat) (v : Int) : List (Nat × Nat × Int) → List (Nat × Nat × Int)
  | [] => [(q, o, v)]
  | (a, b, w) :: t =>
    if q < a ∨ (q = a ∧ o < b) then (q, o, v) :: (a, b, w) :: t
    else if q = a ∧ o = b then (q, o, v) :: t
    else (a, b, w) :: putReading q o v t

def findReading (q o : Nat) (l : List (Nat × Nat × Int)) : Option Int :=
  (l.find? fun x => x.1 = q && x.2.1 = o).map (·.2.2)

/-- CND measures (R433): EN, a life-cycle state that runs it, no HELD, no debug halt, no Fallow state. -/
def State.cndRuns (s : State) : Bool :=
  s.flag F.CND_CFG_EN && s.lcWorks && !s.inHeld && !s.halted && s.rd F.PMU_STAT_STATE < 2

/-- A reading of quantity q on object o (R434): the latest of the interval, or the largest. -/
def State.reading (s : State) (q o : Nat) (v : Int) (largest : Bool := false) : State :=
  if s.cndRuns then
    let v := if largest then (match findReading q o s.cnd.acc with | some w => max v w | none => v) else v
    { s with cnd := { s.cnd with acc := putReading q o v s.cnd.acc } }
  else s

/-- Quantity 1: a turn-off delay in taps; a saturated one counts as DT + 1 tap. -/
def State.readDelay (s : State) (k : Nat) (dt : Nat) (m : Option (BitVec 16)) : State :=
  match m with
  | some x => s.reading 1 k (if x.toNat = 0xFFFF then (dt + 1 : Nat) else x.toNat) true
  | none => s

/-- Quantity 2: VDS / |i| in 10 µΩ, normalised to 25 °C, where |i| is at least IMAX / 4. -/
def State.readRds (s : State) (k : Nat) (n : Axis) (mA : Rat) (m : Option Byte) : State :=
  match m with
  | some x =>
    let i := absRat mA
    let t := s.rd (F.GDR_TEMP_TEMP (bankOfAxis n))
    if t = 0x8000 ∨ i = 0 ∨ i < (s.rd (F.MPL_FMAX_IMAX n) : Rat) / 4 then s
    else
      let tc : Rat := (toSigned 16 t : Rat) / 10
      let r : Rat := 4 * (x.toNat : Rat) * 100000 / i
      let den : Rat := 1 + (tc - 25) / 250
      if den ≤ 0 then s else s.reading 2 k (roundRat (r / den))
  | none => s

/-- VGb in 0.1 V from the first enabled entry of source 49 with a valid result (R302, R309). -/
def gateSupply (s : State) (b : Bank) : Option Rat :=
  ((List.range 16).find? fun k =>
    let e := 16 * b.val + k
    s.flag (F.ADC_SEQ_EN e) && s.rd (F.ADC_SEQ_SRC e) = 49 && (s.reg (Reg.ADC_AUX e)).toNat / 2 ^ 30 = 0).map fun k =>
      let e := 16 * b.val + k
      let v : Rat := ((s.reg (Reg.ADC_AUX e)).toNat % 65536 : Nat)
      let wide := s.rd F.TBS_FRAME_PROFILE = 2
      let full : Rat := if s.flag (F.ADC_SEQ_FMT e) then 65536 else if wide then 16384 else 4096
      v * 200 / full / (2 ^ s.rd (F.ADC_SEQ_GAIN e) : Nat)

/-- Quantity 3: VGb - (BST - SW) in 0.1 V. -/
def State.readDroop (s : State) (h : HalfBridge) (m : Option Byte) : State :=
  match m, gateSupply s (bankOfHb h) with
  | some x, some v => s.reading 3 h.val (roundRat (v - x.toNat))
  | _, _ => s

/-- Quantity 5: Σ(v i) / Σ(i²) over a span in which the axis stands with no speed for at least 100 ms, in 10 mΩ. -/
def State.readLoop (s : State) (p : Coil) (still : Bool) (v mA : Rat) : State :=
  let span := s.cnd.spans.find? fun x => x.1 = p.val
  let rest := s.cnd.spans.filter fun x => x.1 ≠ p.val
  match span with
  | none =>
    if still && s.cndRuns then
      { s with cnd := { s.cnd with spans := rest ++ [(p.val, s.clk, v * mA / 1000, mA * mA / 1000000)] } }
    else s
  | some (_, t, vi, ii) =>
    if still then
      let vi := vi + v * mA / 1000
      let ii := ii + mA * mA / 1000000
      let s := { s with cnd := { s.cnd with spans := rest ++ [(p.val, t, vi, ii)] } }
      if t + msClk 100 ≤ s.clk ∧ 0 < ii then s.reading 5 p.val (roundRat (vi / ii * 100)) else s
    else { s with cnd := { s.cnd with spans := rest } }

/-- Quantity 10: the change of an offset per hour since the one before, in 1/1000 LSB; objects 0 to 19 are slices, 20 to 83
amplifiers. The largest of the interval counts. -/
def State.readDrift (s : State) (o : Nat) (v16 : Int) : State :=
  let prev := s.cnd.lastOfs.find? fun x => x.1 = o
  let s1 := { s with cnd := { s.cnd with lastOfs := (s.cnd.lastOfs.filter fun x : Nat × Int × Nat => x.1 ≠ o) ++ [(o, v16, s.clk)] } }
  match prev with
  | some (_, w, t) =>
    if t < s.clk then
      let hours : Rat := ((s.clk - t : Nat) : Rat) / (250000000 * 3600 : Nat)
      s1.reading 10 o ((((v16 - w).natAbs : Rat) * 1000 / 16 / hours).ceil) true
    else s1
  | none => s1

/-- Quantity 6 (R434): F_x over phase 4 of a galley motion that lasts at least 100 ms. The mean of sgn(v) F_x + FLOOR is one
sample, in 0.1 N rounded up; a leaving drops it. -/
def State.readFriction (s : State) (n : Axis) : State :=
  let cur := s.cnd.motion.find? fun x => x.1 = n.val
  let rest := s.cnd.motion.filter fun x => x.1 ≠ n.val
  let drop := { s with cnd := { s.cnd with motion := rest } }
  match inProg s n with
  | some g =>
    let t0 := g.t1 + phasesNs (g.mo.phases.take 3)
    let len := phasesNs ((g.mo.phases.drop 3).take 1)
    if (s.plan n).leave.isSome || !isMotion g.op || len < 100000000 then (if cur.isSome then drop else s)
    else if s.now < t0 then s
    else if s.now < t0 + len then
      let f := signRat (s.clp n).vRef * (s.rdS (F.LES_FORCE_FX n) : Rat)
      let x := match cur with | some (_, k, q) => (n.val, k + 1, q + f) | none => (n.val, 1, f)
      { s with cnd := { s.cnd with motion := rest ++ [x] } }
    else
      match cur with
      | some (_, k, q) =>
        let v := (q / k / 100 + s.rd (F.MPL_FRIC_FLOOR n)).ceil
        let old := s.cnd.fric.lookup n.val
        let s := { s with cnd := { s.cnd with
          motion := rest,
          fric := (s.cnd.fric.filter fun x : Nat × List Int => x.1 ≠ n.val) ++ [(n.val, (v :: old.getD []).take 16)] } }
        s.reading 6 n.val v
      | none => s
  | none => if cur.isSome then drop else s

end Sys2Proof.Machine
end

