-- ==== Sys2Proof/Machine/Clp.lean ====
section
/-! DEFINITION. The coil step and the carrier reload (R195 to R220). -/

namespace Sys2Proof.Machine

/-- V_M in volts: the mean code of the preceding half-frame, else the latest code (R203, R270). -/
def motorVolts (s : State) (b : Bank) : Rat :=
  match (s.gdr b).mean with
  | some m => m * 90 / 1024
  | none => (s.rd (F.GDR_VMS_VM b) : Rat) * 90 / 1024

/-- FMAX × 100 / k_F of the segment in progress, while it is a closing one (R172). -/
def closingClamp (s : State) (n : Axis) : Option Rat :=
  match inProg s n with
  | some g => if g.d.closing && isMotion g.op && kf s n ≠ 0 then some (100 * (g.fLim : Rat) / kf s n) else none
  | none => none

/-- The current that limits a standing axis (R158, R134): its holding current, ramped to zero by a RELEASE and over the
first frame of a CONFIG (R138). -/
def standLimit (s : State) (n : Axis) : Rat :=
  let h : Rat := (s.plan n).holdMa
  match inProg s n with
  | some g =>
    let len : Rat := if g.op = 6 then 1000 * g.d.u32 16 else s.tfNs
    if g.op = 6 || isConfig g.op then
      if len = 0 then 0 else clampRat 0 h (h * (1 - ((s.now - g.t1 : Nat) : Rat) / len))
    else h
  | none => h

/-- Commutation from the reference position: MICROSTEP mode, or LES active in the low-speed regime (R199, R247). -/
def fromRef (s : State) (n : Axis) : Bool :=
  s.flag (F.CLP_CTRL_MODE n) || (actLes s n && s.flag (F.LES_STAT_LOWSPD n))

/-- Position, speed and clock of the latch that precedes a hold instant (R198). -/
def latchAt (s : State) (n : Axis) (hold : Nat) : Rat × Rat × Nat :=
  let c := s.clp n
  if c.tLat ≤ hold then (c.xLat, c.vLat, c.tLat) else (c.xLatOld, c.vLatOld, c.tLatOld)

/-- The position CLP uses at a hold instant (R198): truncated to whole counts. -/
def posAt (s : State) (n : Axis) (hold : Nat) : Int :=
  let l := latchAt s n hold
  truncRat (l.1 + l.2.1 * ((hold - l.2.2 : Nat) : Rat) / clkHz)

/-- The speed of the active source as latched before a hold instant. -/
def speedAt (s : State) (n : Axis) (hold : Nat) : Rat := (latchAt s n hold).2.1

/-- The electrical angle of a position (R197). -/
def angleAt (s : State) (n : Axis) (x : Int) : Int := (x + s.rd (F.CLP_CTRL_COMM_OFF n)) % 65536

def thetaAt (s : State) (n : Axis) (hold : Nat) : Int :=
  angleAt s n (if fromRef s n then truncRat (s.clp n).xRef else posAt s n hold)

/-- i_det (R201). -/
def detent (s : State) (n : Axis) (θ : Int) : Rat :=
  2 * (s.rd (F.CLP_DETENT_A2 n) : Rat) * sinA (2 * θ + 256 * s.rd (F.CLP_DETENT_PH2 n)) +
  2 * (s.rd (F.CLP_DETENT_A4 n) : Rat) * sinA (4 * θ + 256 * s.rd (F.CLP_DETENT_PH4 n))

/-- The torque current after the limits of R201, and whether one acted. -/
def limitIq (s : State) (n : Axis) (i : Rat) : Rat × Bool :=
  let imax : Rat := s.rd (F.MPL_FMAX_IMAX n)
  let a := clampRat (-imax) imax i
  let b := if (s.plan n).st = .standing then clampRat (-(standLimit s n)) (standLimit s n) a else a
  let c := match closingClamp s n with | some k => clampRat (-k) k b | none => b
  (c, decide (c ≠ i))

/-- Step 3 of the coil A step: the position and velocity loops and the current references (R199, R200, R201, R247). A current
along the reference position keeps below the holding current while the axis stands (R158). -/
def outerLoops (s : State) (n : Axis) (hold : Nat) : State :=
  let c := s.clp n
  if fromRef s n then
    let i : Rat := if s.flag (F.CLP_CTRL_MODE n) then s.rd (F.CLP_IMS_IMS n)
      else if s.rd (F.LES_SL_ISL n) = 0 then s.rd (F.MPL_IHOLD_IHOLD n) else s.rd (F.LES_SL_ISL n)
    let j := if (s.plan n).st = .standing then min i (standLimit s n) else i
    let j := match closingClamp s n with | some k => min k j | none => j
    (s.setClp n { c with idRef := j, iqRef := 0 }).wrB (F.CLP_STAT_ILIM n) (j ≠ i)
  else
    let ex := c.xRef - posAt s n hold
    let kpv : Rat := s.rd (F.CLP_VLOOP_KPV n)
    let ev := c.vRef + s.rd (F.CLP_PLOOP_KPP n) * ex / 16 - speedAt s n hold
    let iv := c.iv + s.rd (F.CLP_VLOOP_KIV n) * kpv * ev * s.halfSec / 4096
    let r := limitIq s n (c.iff + kpv * ev / 4096 + iv + detent s n (thetaAt s n hold))
    let s := s.setClp n { c with idRef := 0, iqRef := r.1, iv := if r.2 then c.iv else iv }
    let s := s.wrB (F.CLP_STAT_ILIM n) r.2
    let ferr := s.rd (F.CLP_FERR_FERR n)
    if ferr ≠ 0 ∧ (ferr : Rat) < absRat ex then s.trip (128 + 16 * n.val + 5) else s

/-- R̄ in ohms and L̄ in henries (R202). -/
def meanR (s : State) (n : Axis) : Rat :=
  ((s.rd (F.CLP_RL_RES (2 * n.val)) + s.rd (F.CLP_RL_RES (2 * n.val + 1)) : Nat) : Rat) / 200
def meanL (s : State) (n : Axis) : Rat :=
  ((s.rd (F.CLP_RL_IND (2 * n.val)) + s.rd (F.CLP_RL_IND (2 * n.val + 1)) : Nat) : Rat) / 200000

/-- Step 4: the currents of both coils in amperes in the frame of an angle: along it and across it (R202). -/
def rotorFrame (s : State) (n : Axis) (θ : Int) : Rat × Rat :=
  let ia := (s.coil (coilA n)).mA / 1000
  let ib := (s.coil (coilB n)).mA / 1000
  (ia * cosA θ + ib * sinA θ, -(ia * sinA θ) + ib * cosA θ)

/-- What the current controller works with: references in amperes, gains, and the speed of the feed-forward terms. -/
structure Gains where
  idRef : Rat
  iqRef : Rat
  kp : Rat
  ki : Rat
  ell : Rat
  v : Rat
  emf : Rat
deriving DecidableEq, Repr

/-- Steps 4 to 6 in the frame of an angle: the rotor-frame currents, the current controller, the voltage limit and the
back-transform (R202, R203). -/
def innerLoop (s : State) (n : Axis) (p : Coil) (θ : Int) (g : Gains) : State :=
  let c := s.clp n
  let isA := p.val % 2 = 0
  let i := rotorFrame s n θ
  let h := s.halfSec
  let ed := g.idRef - i.1
  let eq := g.iqRef - i.2
  let zd := if isA then c.zd + g.ki * ed * h else c.zd
  let zq := if isA then c.zq + g.ki * eq * h else c.zq
  let w := twoPi * g.v / 65536
  let vd0 := g.kp * (ed + zd) - w * g.ell * i.2
  let vq0 := g.kp * (eq + zq) + w * g.ell * i.1 + g.emf
  let vm := motorVolts s (bankOfAxis n)
  let vd := clampRat (-vm) vm vd0
  let room := sqrtUp (vm * vm - vd * vd)
  let vq := clampRat (-room) room vq0
  let sat := decide (vd ≠ vd0 ∨ vq ≠ vq0)
  let z0d := if isA then c.zd else c.zd0
  let z0q := if isA then c.zq else c.zq0
  let s := s.setClp n { c with vd, vq, zd0 := z0d, zq0 := z0q, zd := if sat then z0d else zd, zq := if sat then z0q else zq }
  let s := s.wrB (F.CLP_STAT_VSAT n) (sat || (!isA && s.flag (F.CLP_STAT_VSAT n)))
  let k := s.coil p
  let v := if isA then vd * cosA θ - vq * sinA θ else vd * sinA θ + vq * cosA θ
  s.setCoil p { k with iq := i.2 * 1000, id := i.1 * 1000, voltOld := k.volt, volt := v }

/-- The controller of a running axis (R202): gains from BWI and the means of both coils. -/
def runGains (s : State) (n : Axis) (hold : Nat) : Gains :=
  let c := s.clp n
  let l := meanL s n
  let v := speedAt s n hold
  { idRef := c.idRef / 1000, iqRef := c.iqRef / 1000,
    kp := twoPi * min (s.rd (F.CLP_ILOOP_BWI n)) s.bwLimit * l, ki := if l = 0 then 0 else meanR s n / l,
    ell := l, v, emf := s.rd (F.CLP_KE_KE n) * v / 1000000000 }

/-- The current loop of a running axis, and the torque current in the frame of the active source (R195, R235). -/
def runLoop (s : State) (n : Axis) (p : Coil) (hold : Nat) : State :=
  let s := innerLoop s n p (thetaAt s n hold) (runGains s n hold)
  let k := s.coil p
  s.setCoil p { k with iqOld := k.iqAct, iqAct := (rotorFrame s n (angleAt s n (posAt s n hold))).2 * 1000 }

/-- A shadow compare is written (R213): the value before it is kept for a reload in the same clock. -/
def State.setShadow (s : State) (h : HalfBridge) (v : Nat) : State :=
  let old := s.rd (F.PWM_SHD_SHD h)
  let x := s.hb h
  let x := if x.shdAt = s.clk then x else { x with shdAt := s.clk, shdOld := old }
  (s.setHb h x).wr (F.PWM_SHD_SHD h) v

/-- The compare value of one leg (R204); with no motor supply, or no IMAX, the spec gives no value: it is free. The dead
time is that before the turn-on of the switch that the current waits for: the high side's where it flows out of the leg (log
entry 117). -/
def legCompare (s : State) (n : Axis) (p : Coil) (h : HalfBridge) (leg1 : Bool) : Nat × Bool :=
  let top : Int := 32 * s.period
  let vm := motorVolts s (bankOfAxis n)
  let imax : Rat := s.rd (F.MPL_FMAX_IMAX n)
  if vm ≤ 0 || imax = 0 then (s.drawn % (32 * s.period + 1), true)
  else
    let v := (s.coil p).volt
    let d : Rat := if leg1 then 1 / 2 + v / (2 * vm) else 1 / 2 - v / (2 * vm)
    let i := (s.coil p).mA
    let c := roundRat (deadAfter s h (decide (i < 0) = leg1) * clampRat (-1) 1 (i * 50 / imax))
    ((clampInt 0 top (roundRat (d * top) + (if leg1 then c else -c))).toNat, false)

def legs (p : Coil) : HalfBridge × HalfBridge := (⟨2 * p.val, by omega⟩, ⟨2 * p.val + 1, by omega⟩)

/-- Steps 7 and 8: both compare values to their shadows (R195, R204). -/
def writeLegs (s : State) (n : Axis) (p : Coil) : State :=
  let h := legs p
  let a := legCompare s n p h.1 true
  let s := if a.2 then s.draw else s
  let b := legCompare s n p h.2 false
  let s := if b.2 then s.draw else s
  (s.setShadow h.1 a.1).setShadow h.2 b.1

/-- The back-EMF of the interval that ends with the fresh sample (R227). -/
def backEmf (s : State) (p : Coil) (mA : Rat) : Rat :=
  let k := s.coil p
  let r : Rat := (s.rd (F.CLP_RL_RES p) : Rat) / 100
  let l : Rat := (s.rd (F.CLP_RL_IND p) : Rat) / 100000
  k.voltOld - r * (k.mA + mA) / 2000 - l * (mA - k.mA) / 1000 / s.halfSec

/-- An IDENTIFY that has begun on the axis (R207). -/
def identifying (s : State) (n : Axis) : Bool := s.ops.any fun o => o.op = 0x1B && o.begun && o.axes.contains n

/-- Core clocks since time 0 of the identification of an axis (R207). -/
def identifyClk (s : State) (n : Axis) : Nat :=
  match s.ops.find? fun o => o.op = 0x1B && o.begun && o.axes.contains n with
  | some o => s.clk - o.data.headD s.clk
  | none => 0

/-- The current of an identification, I, in mA (R207). -/
def identifyMa (s : State) (n : Axis) : Nat :=
  let i := s.rd (F.CLP_ID_CFG_IID n)
  if i = 0 then s.rd (F.MPL_FMAX_IMAX n) / 2 else i

/-- What the timetable of R207 asks for t core clocks after the coil's own time 0: a current in mA to regulate to, or the
number of a pulse. The pulses lie 375 µs apart, which fills the span given for sixteen of them (log entry 121). -/
inductive IdStep where
  | regulate (mA : Rat)
  | pulse (i : Nat)
deriving DecidableEq, Repr

def identifyStep (i : Rat) (t : Nat) : IdStep :=
  if t < msClk 22 then .regulate (i / 2)
  else if t < msClk 42 then .regulate i
  else if t < msClk 44 then .regulate (i * ((msClk 44 - t : Nat) : Rat) / (msClk 2 : Nat))
  else if t < msClk 50 then .pulse ((t - msClk 44) / usClk 375)
  else .regulate 0

/-- A pulse of ±0.25 V_M is over once its coil's current has reached I/2, or after 300 µs (R207). -/
def pulseOver (s : State) (n : Axis) (p : Coil) (i t : Nat) : Bool :=
  let mA := (s.coil p).mA
  let want : Rat := (identifyMa s n : Rat) / 2
  (if i % 2 = 0 then decide (want ≤ mA) else decide (mA ≤ -want)) || decide (usClk 300 ≤ (t - msClk 44) % usClk 375)

/-- The current loop of an identification (R207): the coil under test, A for 50 ms and then B, is regulated at a fixed
angle, its own, so that the other carries no current; gains are those of 200 Hz and 10 mH. -/
def identifyLoop (s : State) (n : Axis) (p : Coil) : State :=
  let t := identifyClk s n
  let onB := decide (msClk 50 ≤ t)
  let mine := decide (p.val % 2 = 1) = onB
  let t := if onB then t - msClk 50 else t
  let θ : Int := if onB then 16384 else 0
  let own := if onB then coilB n else coilA n
  let loop := fun (mA : Rat) =>
    innerLoop s n p θ { idRef := mA / 1000, iqRef := 0, kp := twoPi * 200 / 100, ki := (Config.identifyKi n.val : Rat),
                        ell := 1 / 100, v := 0, emf := 0 }
  match identifyStep (identifyMa s n) t with
  | .regulate mA => loop mA
  | .pulse i =>
    if pulseOver s n own i t then loop 0
    else
      let k := s.coil p
      let q := motorVolts s (bankOfAxis n) / 4
      s.setCoil p { k with voltOld := k.volt, volt := if mine then (if i % 2 = 0 then q else -q) else 0 }

/-- The back-EMF values move on by one interval. -/
def CoilS.shiftEmf (k : CoilS) (e : Rat) : CoilS := { k with emfOld2 := k.emfOld, emfOld := k.emf, emf := e }

/-- A sample that is not usable (R24, R195): the previous voltage command is used again, nothing integrates and no limit of
the voltage acts; the second in a row raises axis source 4. -/
def badSample (s : State) (n : Axis) (p : Coil) : State :=
  let s := (s.sqc (F.CLP_STAT_MISS n)).cnt (F.CLP_STAT_MISSCNT n)
  let k := s.coil p
  let s := s.setCoil p { k.shiftEmf k.emf with bad := k.bad + 1, voltOld := k.volt, iqOld := k.iqAct, mAOld := k.mA }
  let c := s.clp n
  let s := if p.val % 2 = 0 then (s.setClp n { c with zd0 := c.zd, zq0 := c.zq }).wr (F.CLP_STAT_VSAT n) 0 else s
  if k.bad = 1 then s.trip (128 + 16 * n.val + 4) else s

/-- A coil step on sample x (R195). -/
def coilStep (s : State) (p : Coil) (x : Sample) : State :=
  let n := axisOfCoil p
  let s := if p.val % 2 = 0 then
      let s := if identifying s n then s else outerLoops s n x.hold
      s.setClp n { s.clp n with ran := true }
    else s
  let s :=
    if x.ok then
      let k := s.coil p
      let e := if k.bad = 0 then backEmf s p x.mA else k.emf
      let s := s.setCoil p { k.shiftEmf e with mA := x.mA, mAOld := k.mA, bad := 0 }
      if identifying s n then identifyLoop s n p else runLoop s n p x.hold
    else badSample s n p
  let s := if x.ok ∧ s.energised n then s.setClp n { s.clp n with fresh := true } else s
  let still := x.ok && (s.plan n).st = .standing && speedAt s n x.hold = 0 && !identifying s n
  let s := s.readLoop p still (s.coil p).voltOld (s.coil p).mA
  writeLegs s n p

/-- COIL_STEP (R195, R196): the step ends 152 core clocks after the hold for the lower coil of the pair, 204 for the
other. CLP stops computing in debug halt (R225); a channel under open-loop or force control has no coil step. -/
def execCoilStep (p : Coil) (s : State) : Host.Outcome State Fault Refusal :=
  .next (
    match (s.coil p).waiting with
    | none => s
    | some x =>
      let n := axisOfCoil p
      let s := s.advTo (x.hold + (if p.val % 16 < 8 then 152 else 204))
      let s := s.setCoil p { s.coil p with waiting := none, doneAt := s.clk }
      let live := s.energised n || (hbsOfAxis n).any fun h => (s.hb h).react
      if live && !s.halted && s.powered (8 + (bankOfAxis n).val) then coilStep s p x else s)

/-! ### Reload (R209 to R218, R224) -/

/-- The reload clocks of a coil in the frame, valley and peak (R209). -/
def valleyClk (s : State) (p : Coil) : Nat := s.tickClk + p.val % 16 * 2 * s.period / 32
def peakClk (s : State) (p : Coil) : Nat := s.tickClk + (p.val % 16 * 2 * s.period + 16 * s.period) % (32 * s.period) / 32

/-- The next reload point of a coil that has not been served in this frame: its clock and whether it is a valley. -/
def nextReload (s : State) (p : Coil) : Option (Nat × Bool) :=
  let v := valleyClk s p
  let k := peakClk s p
  let a := if v < k then (v, true) else (k, false)
  let b := if v < k then (k, false) else (v, true)
  let done := (s.coil p).reload
  if !s.ticking then none
  else if done < a.1 then some a
  else if done < b.1 then some b
  else none

/-- A request for both switches is refused at the reload, reported once for the request, and left at the first reload
that no longer asks for both (R224). -/
def reloadBoth (s : State) (h : HalfBridge) : State :=
  let x := s.hb h
  let b := (bankOfHb h).val
  if asksBoth s h then
    let s := s.wr (F.PWM_CMP_BOTH h) 1
    if x.bothSeen then s
    else
      let s := s.setHb h { x with bothSeen := true }
      let s := (s.sqc (F.PWM_STAT_BOTH b)).wr (F.PWM_STAT_LAST_H b) h.val
      s.trip (64 + 16 * b + 7)
  else (s.setHb h { x with bothSeen := false }).wr (F.PWM_CMP_BOTH h) 0

/-- The shadows a reload takes are those at the end of the clock before (R213). A channel under open-loop control takes the
open-loop registers, and its shadow shows them (R222). -/
def takeShadow (s : State) (h : HalfBridge) : State :=
  let x := s.hb h
  let open_ := s.drive h = .openLoop
  let raced := x.shdAt = s.clk
  let hcmp := s.rd (F.PWM_OLH_HCMP h)
  let cmp := if raced then x.shdOld else if open_ then hcmp else s.rd (F.PWM_SHD_SHD h)
  let oll := if x.ollAt = s.clk then x.ollOld else s.reg (Reg.PWM_OLL h)
  let indep := (F.PWM_OLL_INDEP h).get oll % 2 = 1
  let low := if open_ && indep then some ((F.PWM_OLL_LCMP h).get oll) else none
  let force := (s.before (Reg.PWM_FORCE h)).toNat % 8
  let was := s.gate h
  let s := if open_ && !raced && s.rd (F.PWM_SHD_SHD h) ≠ hcmp then s.wr (F.PWM_SHD_SHD h) hcmp else s
  let s := s.setHb h { x with prev := s.rd (F.PWM_CMP_CMP h), lowPrev := x.low, low, force, was, kept := none, ilk := false }
  s.wr (F.PWM_CMP_CMP h) cmp

/-- The pulses that R212 leaves out, saturated periods and the notch (R210, R212, R218). A period runs from a peak to the
next, about its valley. Whether the pulse around the coming valley or peak is left out is settled at the reload before it,
by the value then in force, and again at the reload in its middle, by both (log entry 116). -/
def reloadPulses (s : State) (h : HalfBridge) (valley : Bool) : State :=
  let x := s.hb h
  let b := bankOfHb h
  let now := cmdNow s h
  let prev := cmdPrev s h
  if valley then s.setHb h { x with lowSup := x.lowSup && lowLess s h prev now, highSup := highLess s h now now }
  else
    let full := fun (low : Bool) (c : Cmd) => low && (c.low.isNone || decide (2 * s.halfTaps ≤ c.cmp))
    let ended := full x.lowSup prev
    let low := lowLess s h now now
    let count := if ended && s.flag (F.PWM_NOTCH_EN b) then x.sat + 1 else 0
    let notch := full low now && s.flag (F.PWM_NOTCH_EN b) && (count + 1) % (s.rd (F.PWM_NOTCH_EVERY b) + 1) = 0
    (s.setHb h { x with sat := count, lowSup := low, highSup := x.highSup && highLess s h prev now, notched := notch,
                        noRise := false, bst := false }).wrB (F.PWM_CMP_SAT h) ended

/-- The high side follows a command that rises: it comes from a carrier (R220). -/
def carrierDriven (s : State) (h : HalfBridge) : Bool := s.drive h ≠ .force

/-- A detector that is still asserted keeps the commands off past a release (R266): a trip input in CYCLE mode (R276). -/
def stillTripped (s : State) (h : HalfBridge) : Bool :=
  let b := bankOfHb h
  (s.gdr b).inA && s.flag (F.GDR_TRIP_CFG_ENA b) && s.flag (F.GDR_TRIP_CFG_MODEA b) ||
  (s.gdr b).inB && s.flag (F.GDR_TRIP_CFG_ENB b) && s.flag (F.GDR_TRIP_CFG_MODEB b)

/-- A cycle-by-cycle trip ends (R220), unless its detector holds on. -/
def State.release (s : State) (h : HalfBridge) : State :=
  s.setHb h { s.hb h with trip := if stillTripped s h then some (s.clk, 0) else none }

/-- A tripped half-bridge at a reload point (R220): the second one after the trip releases it, and so does the valley of a
saturated period that has no notch. -/
def reloadTrip (s : State) (h : HalfBridge) (valley : Bool) : State :=
  let x := s.hb h
  match x.trip with
  | none => s
  | some (t, k) =>
    let rising := valley && carrierDriven s h && x.lowSup && x.low.isNone && !x.notched && !x.noRise
    if t = s.clk then s
    else if 1 ≤ k || rising then s.release h
    else s.setHb h { x with trip := some (t, k + 1) }

/-- Holds that end at a reload: the gate supply's once it has recovered (R257), and a reaction's on a channel under
open-loop or force control once the reaction is cleared (R221). -/
def reloadHolds (s : State) (h : HalfBridge) : State :=
  let x := s.hb h
  let n := axisOfHb h
  let mine := s.drive h = .openLoop || s.drive h = .force
  s.setHb h { x with vg := x.vg && (s.gdr (bankOfHb h)).vgLow, react := x.react && !(mine && inForceOn s n < 2) }

/-- A turn-off delay as stored: one that reaches the dead time is a saturated reading (R216, R259). -/
def measured (s : State) (h : HalfBridge) (m : Option (BitVec 16)) : Option (BitVec 16) :=
  m.map fun x => if dtTaps s h ≤ x.toNat then 0xFFFF#16 else x

/-- What was measured of a half-bridge in the period (R216, R282, R434). -/
def reloadMeas (s : State) (h : HalfBridge) (m : HbMeas) : State :=
  let put := fun (s : State) (f : Fld) (v : Option Nat) => match v with | some w => s.wr f w | none => s
  let hoff := measured s h m.hoff
  let loff := measured s h m.loff
  let s := put s (F.PWM_DT_MEAS_HOFF h) (hoff.map (·.toNat))
  let s := put s (F.PWM_DT_MEAS_LOFF h) (loff.map (·.toNat))
  let s := put s (F.GDR_MEAS_BST h) (m.bst.map (·.toNat))
  let s := put s (F.GDR_MEAS_VDSH h) (m.vdsH.map (·.toNat))
  let s := put s (F.GDR_MEAS_VDSL h) (m.vdsL.map (·.toNat))
  let mA := (s.coil (coilOfHb h)).mA
  let n := axisOfHb h
  let s := (s.readDelay (2 * h.val) (dtTaps s h) hoff).readDelay (2 * h.val + 1) (dtTaps s h) loff
  ((s.readRds (2 * h.val) n mA m.vdsH).readRds (2 * h.val + 1) n mA m.vdsL).readDroop h m.bst

/-- One half-bridge at a reload point (R212, R213, R216, R218, R220, R221, R224, R257). -/
def reloadHb (s : State) (h : HalfBridge) (valley : Bool) (m : HbMeas) : State :=
  let s := reloadPulses (reloadBoth (takeShadow s h) h) h valley
  reloadMeas (reloadHolds (reloadTrip s h valley) h) h m

/-- CARRIER_RELOAD (R213): at the coil's next reload point both half-bridges take their shadows, with what was measured in
the period (R216, R282). PWM counters stand still in debug halt (R225). -/
def execCarrierReload (p : Coil) (m1 m2 : HbMeas) (s : State) : Host.Outcome State Fault Refusal :=
  .next (
    if s.halted || !s.powered (8 + (bankOfCoil p).val) then s
    else
      match nextReload s p with
      | none => s
      | some (c, valley) =>
        let s := s.advTo c
        let h := legs p
        let s := reloadHb (reloadHb s h.1 valley m1) h.2 valley m2
        s.setCoil p { s.coil p with reload := c, valley := valley })

/-- The clock of the coming rising edge of a half-bridge's high-side command in the half-carrier in progress (R210, R218,
R220): in one that begins at a valley ceil(CMP/2) taps before the peak, in a notched period the end of the notch. None where
there is no edge: the high side forced, on already or left out, or no edge placed since a change of PERIOD (R214). -/
def nextRise (s : State) (h : HalfBridge) : Option Nat :=
  let x := s.hb h
  let k := s.coil (coilOfHb h)
  if s.halted || !k.valley || !carrierDriven s h || x.kept.isSome then none
  else if x.notched then (if x.noRise then none else some (k.reload + (1200 + deadAfter s h false + 31) / 32))
  else if x.lowSup && x.low.isNone || x.highSup then none
  else some (k.reload + (cmdNow s h).highOn s.halfTaps / 32)

/-- TRIP_RELEASE (R220): the next rising edge of the high-side command releases a tripped half-bridge. -/
def execTripRelease (h : HalfBridge) (s : State) : Host.Outcome State Fault Refusal :=
  .next (
    match (s.hb h).trip, nextRise s h with
    | some (t, _), some c => if c ≤ t then s else (s.advTo c).release h
    | _, _ => s)

end Sys2Proof.Machine
end

