-- ==== Sys2Proof/Machine/Adc.lean ====
section
/-! DEFINITION. Conversion (R287 to R310): result records, the synchronous and injected paths, calibration and the
open-wire test. -/

namespace Sys2Proof.Machine

/-! ### Slices -/

def slice (b : Bank) (q : Nat) : Nat := 5 * b.val + q

/-- One advance of the 15-bit LFSR of polynomial x^15 + x^14 + 1 (R292). -/
def lfsrNext (l : Nat) : Nat := (2 * l + (if bit 14 l ≠ bit 13 l then 1 else 0)) % 32768

def inService (s : State) (b : Bank) : List (Fin 5) :=
  (List.finRange 5).filter fun q => bit q.val (s.rd (F.ADC_ROT_INSVC b))

/-- The in-service slices free from clock c on. -/
def freeSlices (s : State) (b : Bank) (c : Nat) : List (Fin 5) :=
  (inService s b).filter fun q => (s.adc b).busy[q] ≤ c

/-- One conversion start: the LFSR advances and picks among the eligible slices, which is busy until `until_` (R292). -/
def pickSlice (s : State) (b : Bank) (e : List (Fin 5)) (until_ : Nat) : State × Option (Fin 5) :=
  let a := s.adc b
  let l := lfsrNext a.lfsr
  match e[l % max 1 e.length]? with
  | none => (s, none)
  | some q => (s.setAdc b { a with lfsr := l, busy := a.busy.set q until_ }, some q)

/-- A raw code corrected with a slice's coefficients, in 1/16 LSB (R294). -/
def corrected (s : State) (b : Bank) (q : Fin 5) (c : Nat) : Int :=
  let ofs := s.rdS (F.ADC_SLC_OG_OFS (slice b q))
  let gerr := s.rdS (F.ADC_SLC_OG_GERR (slice b q))
  roundRat (((16 * c : Nat) - ofs : Rat) * (1 + (gerr : Rat) / 1048576))

/-! ### Reservations (R293) -/

/-- The slices that stay for a conversion's priorities at clock t: two while a sync instant's reservation, 80 ns before to
320 ns after it, runs and its pair has not been sampled. -/
def syncNeed (s : State) (b : Bank) (t : Nat) : Nat :=
  if s.ticking && (List.range 34).any (fun i =>
      let hold := s.tickClk + i * 2 * s.period / 32
      hold - 20 ≤ t && t < hold + 80 && (s.coil ⟨16 * b.val + i % 8, by omega⟩).sampledAt < hold) then 2
  else 0

/-- The 400 ns windows of the bank's accepted CONVERTs that have not begun, as the clocks they open at (R305). -/
def windowsOf (s : State) (b : Bank) : List Nat :=
  (s.ops.filter fun o => o.op = 0x1A && !o.begun && o.d.bank = b).map fun o => max s.clk (s.advToGtc o.t1).clk

def windowNeed (wins : List Nat) (t : Nat) : Nat := (wins.filter fun w => w ≤ t && t < w + 100).length

/-- The clocks of [c, e) at which what a conversion over it must leave free can grow: its start, and each reservation and
window that opens inside it. -/
def needPoints (s : State) (wins : List Nat) (c e : Nat) : List Nat :=
  c :: ((List.range 34).map (fun i => s.tickClk + i * 2 * s.period / 32 - 20) ++ wins).filter fun t => c < t && t < e

/-- A slice can be given to a conversion over [c, e): one is free at c, and each clock keeps the slices that higher
priorities need there (R293). -/
def roomFor (s : State) (b : Bank) (wins : List Nat) (c e : Nat) : Bool :=
  (needPoints s wins c e).all fun t => syncNeed s b t + windowNeed wins t < (freeSlices s b t).length

/-! ### Result records (R308, R309) -/

def absentWord (src : Nat) : Nat := 3 * 2 ^ 30 + src % 64 * 2 ^ 24

def resultWord (tag src : Nat) (value : Int) : Nat := tag * 2 ^ 30 + src % 64 * 2 ^ 24 + ofSigned 16 value

def clippedRaw (r : Raw) : Bool := r.code = 0#12 || r.code = 4095#12 || r.overload

def satSigned (v : Int) : Int := clampInt (-32768) 32767 v

/-- The signed form from 1/16 LSB units (R309). -/
def signedValue (c16 offset : Int) : Int := satSigned (c16 - 32768 - offset)

/-- The bank's converter gives results: D12+b is powered and no FULL calibration runs (R298). -/
def adcLive (s : State) (b : Bank) : Bool := s.powered (12 + b.val) && (s.adc b).full.isNone

/-! ### The synchronous path (R299, R300) -/

/-- The open-wire test in progress covers a coil: its axis was de-energised at the tick, and is still (R310). -/
def owtCovers (s : State) (p : Coil) : Bool :=
  match (s.adc (bankOfCoil p)).owt with
  | some (_, m) => bit (p.val % 16) m && !s.energised (axisOfCoil p)
  | none => false

def ampGain (s : State) (p : Coil) : Nat := 4 * 2 ^ s.rd (F.ADC_CS_GAIN p)

/-- One coil's synchronous result: the record, and the sample for CLP (R299, R300). With SHUNT zero the spec gives no
current: it is free. -/
def syncCoil (s : State) (p : Coil) (q : Option (Fin 5)) (hold : Nat) (r : Raw) : State :=
  let b := bankOfCoil p
  let i : Fin 16 := ⟨p.val % 16, by omega⟩
  match q with
  | none =>
    (s.setReg (Reg.ADC_SYNC p) (BitVec.ofNat 32 (absentWord i))).setCoil p
      { s.coil p with sampledAt := hold, syncOld := s.reg (Reg.ADC_SYNC p), waiting := some ⟨hold, 0, false⟩ }
  | some q =>
    let a := s.adc b
    let old := s.reg (Reg.ADC_SYNC p)
    let v := signedValue (corrected s b q r.code.toNat) a.offset[i]
    let settling := 0 < a.settle[i]
    let tag := if clippedRaw r then 2 else if settling then 1 else 0
    let s := s.setAdc b { s.adc b with settle := (s.adc b).settle.set i (a.settle[i] - 1) }
    let s := if tag = 2 then s.sqc (F.ADC_STAT_CLIP b) else s
    let s := s.setReg (Reg.ADC_SYNC p) (BitVec.ofNat 32 (resultWord tag i v))
    let den := 32768 * ampGain s p * s.rd (F.ADC_CS_SHUNT p)
    let mA : Rat := if den = 0 then (s.drawn : Rat) else (v : Rat) * 100000000 / den
    let s := if den = 0 then s.draw else s
    s.setCoil p { s.coil p with sampledAt := hold, syncOld := old, waiting := some ⟨hold, mA, tag = 0⟩ }

/-- The hold instant of pair j that has not been sampled in this frame (R30, R209). -/
def nextSync (s : State) (p : Coil) : Option Nat :=
  let j := p.val % 8
  let a := s.tickClk + j * 2 * s.period / 32
  let b := s.tickClk + (j * 2 + 16) * s.period / 32
  let done := (s.coil p).sampledAt
  if !s.ticking then none else if done < a then some a else if done < b then some b else none

/-! ### The schedule of the auxiliary sequence (R290, R293, R301) -/

/-- The slots of a conversion whose sampling time code is smp (R290). -/
def slotsOf (smp : Nat) : Nat := ceilDiv (80 + 40 * smp + 320) 400

/-- The conversions of one entry in one frame: one, or four in PRECISE (R301). -/
def auxTimes (s : State) : Nat := if s.rd F.TBS_FRAME_PROFILE = 2 then 4 else 1

/-- Entry k of the bank, numbered 16b + k (R301). -/
def entryOf (b : Bank) (k : Fin 16) : Fin 64 := ⟨16 * b.val + k.val, by omega⟩

/-- The slots of the enabled entries (R303). -/
def seqCost (s : State) (b : Bank) : Nat :=
  (((List.finRange 16).filter fun k => s.flag (F.ADC_SEQ_EN (entryOf b k))).map fun k =>
    slotsOf (s.rd (F.ADC_SEQ_SMP (entryOf b k)))).sum * auxTimes s

/-- The conversions of a frame in their order: the enabled entries in ascending k (R301). -/
def auxWork (s : State) (b : Bank) : List (Fin 16) :=
  ((List.finRange 16).filter fun k => s.flag (F.ADC_SEQ_EN (entryOf b k))).flatMap (List.replicate (auxTimes s))

/-- The clocks at which room can appear from c on: c itself, and each later end of a conversion, a reservation or a window. -/
def roomPoints (s : State) (b : Bank) (wins : List Nat) (c : Nat) : List Nat :=
  c :: ((s.adc b).busy.toList ++ (List.range 34).map (fun i => s.tickClk + i * 2 * s.period / 32 + 80) ++
    wins.map (· + 100)).filter fun t => c < t

/-- The next auxiliary conversion, of entry k, in the earliest capacity left before clock lim (R293, R301). Its slice is busy
for t_s + 320 ns (R290). -/
def auxStart (wins : List Nat) (b : Bank) (lim : Nat) (s : State) (k : Fin 16) : State :=
  let ts := 20 + 10 * s.rd (F.ADC_SEQ_SMP (entryOf b k))
  let c := max (s.adc b).auxAt s.tickClk
  let at_ := (roomPoints s b wins c).filter fun t => t < lim && roomFor s b wins t (t + ts + 80)
  match at_ with
  | [] => s.setAdc b { s.adc b with auxAt := lim }
  | t :: l =>
    let t := l.foldl min t
    let x := pickSlice s b (freeSlices s b t) (t + ts + 80)
    match x.2 with
    | none => s
    | some q => x.1.setAdc b { x.1.adc b with auxAt := t, auxPicks := (x.1.adc b).auxPicks ++ [(k.val, q.val)] }

/-- The sequence runs until clock lim: every conversion of the frame that starts before it (R301). -/
def auxRun (s : State) (b : Bank) (lim : Nat) : State :=
  if s.ticking && adcLive s b && 4 ≤ (inService s b).length then
    ((auxWork s b).drop (s.adc b).auxPicks.length).foldl (auxStart (windowsOf s b) b lim) s
  else s

/-- SYNC_SAMPLE (R299, R30): at the pair's next sample instant two slices hold and convert coils 16b + j and 16b + j + 8. -/
def execSyncSample (b : Bank) (j : Fin 8) (r1 r2 : Raw) (s : State) : Host.Outcome State Fault Refusal :=
  let p1 : Coil := ⟨16 * b.val + j.val, by omega⟩
  let p2 : Coil := ⟨16 * b.val + j.val + 8, by omega⟩
  .next (
    match nextSync s p1 with
    | none => s
    | some hold =>
      if !s.powered (12 + b.val) then s
      else
        let s := (auxRun s b (hold - 20)).advTo hold
        let ok := adcLive s b && 3 ≤ (inService s b).length
        let e1 := freeSlices s b (hold - 20)
        let x := if ok then pickSlice s b e1 (hold + 80) else (s, none)
        let e2 := match x.2 with | some q => e1.filter (· ≠ q) | none => e1
        let y := if ok then pickSlice x.1 b e2 (hold + 80) else (x.1, none)
        let q1 := if owtCovers s p1 then none else x.2
        let q2 := if owtCovers s p2 then none else y.2
        syncCoil (syncCoil y.1 p1 q1 hold r1) p2 q2 hold r2)

/-! ### The auxiliary sequence (R301 to R304) -/

/-- The slices that served entry k in the ending frame. -/
def servedBy (s : State) (b : Bank) (k : Fin 16) : List (Fin 5) :=
  ((s.adc b).auxPicks.filter fun x => x.1 = k.val).map fun x => ⟨x.2 % 5, by omega⟩

/-- One entry's result for the ending frame (R301, R304, R308, R309), from its raw codes: one, or four in PRECISE. A code
not given is free. An entry whose conversions found no time in the frame, in which the bank's converter came to life, has no
result. -/
def auxEntry (raws : List (Fin 64 × List Raw)) (s : State) (e : Fin 64) : State :=
  let b : Bank := ⟨e.val / 16, by omega⟩
  let k : Fin 16 := ⟨e.val % 16, by omega⟩
  let src := s.rd (F.ADC_SEQ_SRC e)
  let put := fun (s : State) (w : Nat) => s.setReg (Reg.ADC_AUX e) (BitVec.ofNat 32 w)
  if !s.flag (F.ADC_SEQ_EN e) || !adcLive s b || (inService s b).length < 4 then put s (absentWord src)
  else if 53 < src || (servedBy s b k).length < auxTimes s then put s (absentWord src)
  else
    let precise := s.rd F.TBS_FRAME_PROFILE = 2
    let n := auxTimes s
    let given := (raws.lookup e).getD []
    let codes := (List.range n).map fun i => given.getD i ⟨BitVec.ofNat 12 (Config.freeNat (s.freeCtr + i)), false⟩
    let s := if given.length < n then { s with freeCtr := s.freeCtr + n } else s
    let conv : Int := ((servedBy s b k).zip codes).foldl (fun v x => v + corrected s b x.1 x.2.code.toNat) 0
    let a := s.adc b
    let clip := codes.any clippedRaw
    let diff := src < 16
    let sum := if diff then conv - (n : Int) * a.offset[(⟨src % 16, by omega⟩ : Fin 16)] else conv
    let len := 2 ^ s.rd (F.ADC_SEQ_FLT e)
    let hist := (sum :: a.aux[k]).take len
    let mean := roundRat (((hist.foldl (· + ·) 0 : Int) : Rat) / (hist.length : Rat))
    let top := if precise then 16383 else 4095
    let code := clampInt 0 top (roundRat ((mean : Rat) / 16))
    let value : Int :=
      if diff then (if precise then satSigned (roundRat ((mean - 131072 : Int) / 4)) else satSigned (mean - 32768))
      else if s.flag (F.ADC_SEQ_FMT e) then (if precise then code * 4 else code * 16) else code
    let settling := 0 < a.auxSettle[k]
    let s := s.setAdc b { a with aux := a.aux.set k hist, auxSettle := a.auxSettle.set k (a.auxSettle[k] - 1) }
    put s (resultWord (if clip then 2 else if settling then 1 else 0) src value)

/-- All results of the ending frame become visible together, and the sequence starts again (R301). -/
def auxPublish (raws : List (Fin 64 × List Raw)) (s : State) : State :=
  each allBanks (fun s b => s.setAdc b { s.adc b with auxPicks := [] }) ((List.finRange 64).foldl (auxEntry raws) s)

/-- Amplifier offsets are taken in the first frame after an axis has been de-energised for a whole frame (R289): what was
measured, in 1/16 LSB. -/
def takeOffsets (offs : List (Coil × BitVec 16)) (s : State) : State :=
  each (List.finRange 64) (fun s (p : Coil) =>
    let b := bankOfCoil p
    let i : Fin 16 := ⟨p.val % 16, by omega⟩
    let a := s.adc b
    if s.energised (axisOfCoil p) then s.setAdc b { a with offAt := a.offAt.set i none }
    else
      match a.offAt[i] with
      | none => s.setAdc b { a with offAt := a.offAt.set i (some 0) }
      | some t =>
        let s := s.setAdc b { a with offAt := a.offAt.set i (some (min 2 (t + 1))) }
        match offs.lookup p with
        | some v =>
          if t = 1 then
            let a := s.adc b
            (s.setAdc b { a with offset := a.offset.set i (toSigned 16 v.toNat) }).readDrift (20 + p.val) (toSigned 16 v.toNat)
          else s
        | none => s) s

/-! ### Injected requests (R305, R306) -/

/-- A slice can be given to an injected conversion over [c, e): the reservations alone come before it (R293). -/
def injectable (s : State) (b : Bank) (c e : Nat) : Bool := roomFor s b [] c e

/-- INJECTED_WINDOW_OPEN (R305): from the planned start, the first clock of the 400 ns window at which a slice is free for
the whole conversion. The operation keeps the slice, the start and the hold instant; none where no clock served. -/
def execInjectedWindowOpen (tag : Fin 1024) (s : State) : Host.Outcome State Fault Refusal :=
  .next (
    match s.opOf tag with
    | none => s
    | some o =>
      if o.op ≠ 0x1A || o.begun then s
      else
        let b := o.d.bank
        let s := (auxRun s b (s.advToGtc o.t1).clk).advToGtc o.t1
        let ts := 20 + 10 * o.d.u8 18
        let ok := adcLive s b && 4 ≤ (inService s b).length
        match (if ok then (List.range 100).find? fun i => injectable s b (s.clk + i) (s.clk + i + ts + 80) else none) with
        | none => s.setOp { o with begun := true, data := [] }
        | some i =>
          let s := (auxRun s b (s.clk + i)).advTo (s.clk + i)
          let x := pickSlice s b (freeSlices s b s.clk) (s.clk + ts + 80)
          x.1.setOp { o with begun := true, data := [match x.2 with | some q => q.val | none => 0, s.now, s.clk + ts] })

/-- An injected result (R302, R308, R309): its gain and kind; single-ended results are right-aligned. -/
def injectedWord (s : State) (b : Bank) (src : Nat) (q : Fin 5) (r : Raw) : Nat :=
  if 53 < src then absentWord src
  else
    let c := corrected s b q r.code.toNat
    let v : Int := if src < 16 then signedValue c (s.adc b).offset[(⟨src % 16, by omega⟩ : Fin 16)]
      else clampInt 0 4095 (roundRat ((c : Rat) / 16))
    resultWord (if clippedRaw r then 2 else 0) src v

/-- INJECTED_RESULT_READY (R305, R142): 400 ns after the hold. -/
def execInjectedResultReady (tag : Fin 1024) (r : Raw) (s : State) : Host.Outcome State Fault Refusal :=
  .next (
    match s.opOf tag with
    | none => s
    | some o =>
      match o.data with
      | [q, t1, hold] =>
        if o.op ≠ 0x1A || !o.begun then s
        else
          let s := s.advTo (hold + 100)
          if s.powered (12 + o.d.bank.val) then
            s.finish tag .done t1 s.now (injectedWord s o.d.bank (o.d.u8 16) ⟨q % 5, by omega⟩ r) 0
          else s
      | _ => s)

/-- INJECTED_DROP (R306): the window closes with no slice found, or the domain has lost power. -/
def execInjectedDrop (tag : Fin 1024) (s : State) : Host.Outcome State Fault Refusal :=
  .next (
    match s.opOf tag with
    | none => s
    | some o =>
      if o.op = 0x1A && o.begun && (o.data = [] || !s.powered (12 + o.d.bank.val)) then
        let s := s.advToGtc (o.t1 + 400)
        (s.cnt (F.ADC_STAT_INJDROP o.d.bank)).finish tag .dropped o.t1 s.now (absentWord (o.d.u8 16)) 0
      else s)

/-! ### Calibration (R295 to R298) -/

/-- A slice passes its calibration (R296). -/
def sliceOk (x : SliceCal) : Bool :=
  (toSigned 16 x.ofs.toNat).natAbs ≤ 512 && (toSigned 16 x.gerr.toNat).natAbs ≤ 20971 &&
  (toSigned 8 x.skew.toNat).natAbs < 127 && x.meanOk

/-- Coefficients are latched (R294, R295). -/
def latchSlice (s : State) (b : Bank) (q : Fin 5) (x : SliceCal) : State :=
  let s := (s.wr (F.ADC_SLC_OG_OFS (slice b q)) x.ofs.toNat).wr (F.ADC_SLC_OG_GERR (slice b q)) x.gerr.toNat
  let s := s.wr (F.ADC_SLC_SK_SKEW (slice b q)) x.skew.toNat
  let s := s.setAdc b { s.adc b with latched := (s.adc b).latched.set q s.clk }
  s.readDrift (slice b q) (toSigned 16 x.ofs.toNat)

/-- A slice fails (R296, R297): it does not return to service. -/
def failSlice (s : State) (b : Bank) (q : Fin 5) : State :=
  let m := s.rd (F.ADC_ROT_FAILED b)
  let i := s.rd (F.ADC_ROT_INSVC b)
  let s := s.wr (F.ADC_ROT_FAILED b) (if bit q m then m else m + 2 ^ q.val)
  let s := s.wr (F.ADC_ROT_INSVC b) (if bit q i then i - 2 ^ q.val else i)
  let s := s.sqc (F.ADC_STAT_SLICE b)
  (s.wr (F.ADC_ROT_REST b) 7).trip (64 + 16 * b.val + 11)

def resting (s : State) (b : Bank) : Option (Fin 5) :=
  let r := s.rd (F.ADC_ROT_REST b)
  if r < 5 then some ⟨r % 5, by omega⟩ else none

/-- A CALIBRATE SLICE of the bank that has begun ends (R298). -/
def endSliceOp (s : State) (b : Bank) : State :=
  match s.ops.find? fun o => o.op = 0x1B && o.d.u8 16 = 0 && o.d.bank = b && o.begun with
  | some o => s.finish o.tag .done o.t1 s.now 0 0
  | none => s

/-- SLICE_CALIBRATION_DONE (R295, R296): 4.1 ms after the slice left service. On a bank with a failed slice a slice taken by
command goes back to service, and there is no rotation. -/
def execSliceCalibrationDone (b : Bank) (x : SliceCal) (s : State) : Host.Outcome State Fault Refusal :=
  .next (
    match resting s b with
    | none => s
    | some q =>
      if !adcLive s b || (s.adc b).calDone then s
      else
        let s := s.advTo ((s.adc b).calAt + 1025000)
        let s :=
          if sliceOk x then
            let s := latchSlice s b q x
            if s.rd (F.ADC_ROT_FAILED b) = 0 then s.setAdc b { s.adc b with calDone := true }
            else (s.wr (F.ADC_ROT_INSVC b) (s.rd (F.ADC_ROT_INSVC b) + 2 ^ q.val)).wr (F.ADC_ROT_REST b) 7
          else failSlice s b q
        endSliceOp s b)

/-- SLICE_ROTATION (R291): the calibrated slice replaces the next one, modulo 5, once that one is idle. -/
def execSliceRotation (b : Bank) (s : State) : Host.Outcome State Fault Refusal :=
  .next (
    match resting s b with
    | none => s
    | some q =>
      let out : Fin 5 := ⟨(q.val + 1) % 5, by omega⟩
      if !adcLive s b || !(s.adc b).calDone then s
      else
        let s := auxRun s b s.clk
        let s := (auxRun s b (s.adc b).busy[out]).advTo (s.adc b).busy[out]
        let i := s.rd (F.ADC_ROT_INSVC b)
        let s := s.wr (F.ADC_ROT_INSVC b) (i + 2 ^ q.val - 2 ^ out.val)
        let s := s.wr (F.ADC_ROT_REST b) out.val
        s.setAdc b { s.adc b with calDone := false, calAt := s.clk })

/-- The slices of a bank after a FULL calibration (R298): FAILED clears for every slice that passes. -/
def fullBank (cals : List (Bank × Fin 5 × SliceCal)) (offs : List (Coil × BitVec 16)) (s : State) (b : Bank) : State :=
  let rest0 := s.rd (F.ADC_ROT_REST b)
  let find := fun q : Fin 5 => (cals.find? fun c => c.1 = b && c.2.1 = q).map (·.2.2)
  let good := (List.finRange 5).filter fun q => match find q with | some x => sliceOk x | none => false
  let s := each good (fun s q => match find q with | some x => latchSlice s b q x | none => s) s
  let keep := if good.length = 5 then (if rest0 < 5 then rest0 else 4) else 7
  let mask := good.foldl (fun m q => if q.val = keep then m else m + 2 ^ q.val) 0
  let s := ((s.wr (F.ADC_ROT_FAILED b) 0).wr (F.ADC_ROT_INSVC b) mask).wr (F.ADC_ROT_REST b) keep
  let s := each ((List.finRange 5).filter fun q => !good.contains q) (fun s q => failSlice s b q) s
  let s := s.setAdc b { s.adc b with full := none, valid := good.length = 5, calAt := s.clk, calDone := false, auxAt := s.clk }
  each (List.finRange 16) (fun s (i : Fin 16) =>
    match offs.lookup ⟨16 * b.val + i.val, by omega⟩ with
    | some v =>
      (s.setAdc b { s.adc b with offset := (s.adc b).offset.set i (toSigned 16 v.toNat) }).readDrift
        (20 + 16 * b.val + i.val) (toSigned 16 v.toNat)
    | none => s) s

/-- FULL_CALIBRATION_DONE (R298): 5.2 ms after its frame tick; what was measured of every slice and amplifier. -/
def execFullCalibrationDone (cals : List (Bank × Fin 5 × SliceCal)) (offs : List (Coil × BitVec 16)) (s : State) :
    Host.Outcome State Fault Refusal :=
  .next (
    match s.ops.find? fun o => o.op = 0x1B && o.d.u8 16 = 1 && o.begun with
    | none => s
    | some o =>
      let start := allBanks.foldl (fun m b => max m ((s.adc b).full.getD 0)) 0
      let s := s.advTo (start + 1300000)
      let s := each (allBanks.filter fun b => s.powered (12 + b.val)) (fullBank cals offs) s
      s.finish o.tag .done o.t1 s.now 0 0)

/-! ### The open-wire test (R310) -/

/-- OPEN_WIRE_TEST_START (R310): at the frame tick, on each coil whose axis is de-energised. -/
def execOpenWireTestStart (b : Bank) (s : State) : Host.Outcome State Fault Refusal :=
  .next (
    if s.atTick && s.ripe (.owt b) && s.powered (12 + b.val) then
      let idle := (List.finRange 16).filter fun i : Fin 16 => !s.energised ⟨(16 * b.val + i.val) / 2, by omega⟩
      let mask := idle.foldl (fun m i => m + 2 ^ i.val) 0
      let s := s.drop (.owt b)
      let s := (s.wr (F.ADC_OWT_STAT_SKIP b) (65535 - mask)).wr (F.ADC_OWT_STAT_OPEN b) 0
      s.setAdc b { s.adc b with owt := some (s.clk, mask) }
    else s)

/-- OPEN_WIRE_TEST_DONE (R310): at 100 µs; which inputs stood above 50 mV. A coil whose axis was energised meanwhile is
abandoned. -/
def execOpenWireTestDone (b : Bank) (above : BitVec 16) (s : State) : Host.Outcome State Fault Refusal :=
  .next (
    match (s.adc b).owt with
    | none => s
    | some (t, mask) =>
      let s := s.advTo (t + usClk 100)
      let tested := (List.finRange 16).filter fun i : Fin 16 =>
        bit i.val mask && !s.energised ⟨(16 * b.val + i.val) / 2, by omega⟩
      let wide := tested.filter fun i => bit i.val above.toNat
      let sum := fun l : List (Fin 16) => l.foldl (fun m i => m + 2 ^ i.val) 0
      let settle := tested.foldl (fun v i => v.set i 2) (s.adc b).settle
      let s := s.setAdc b { s.adc b with owt := none, settle }
      let s := (s.wr (F.ADC_OWT_STAT_SKIP b) (65535 - sum tested)).wr (F.ADC_OWT_STAT_OPEN b) (sum wide)
      let s := (s.sqc (F.ADC_STAT_OWT_DONE b)).goEnd (F.ADC_OWT_GO b) fun s => s.post (.owt b)
      each wide (fun s i => s.trip (128 + 16 * ((16 * b.val + i.val) / 2) + 12)) s)

end Sys2Proof.Machine
end

