-- ==== Sys2Proof/Machine/Fetch.lean ====
section
/-! DEFINITION. Fetching and deciding descriptors: doorbells, phase waits, ring order, barrier groups and the admission
cut-off (R54, R104 to R110, R137, R188). -/

namespace Sys2Proof.Machine

/-- A refusal record (R53, R147). One under R22 is a wake event (R400, R401). -/
def State.refuse (s : State) (k : Ctx) (op : Nat) (d : Desc) (index : Nat) (r : Refuse) : State :=
  let s := s.decide k index (refuseWords s op d index r)
  if r = (.state, 2) then s.wakeEvent 5 else s

/-- Members that cannot be decided are refused, each in ring order, and the records kept behind them follow (R137). -/
def State.refuseMembers (s : State) (k : Ctx) (r : Refuse) : State :=
  let ms := (s.ctx k).members
  let s := s.setCtx k { s.ctx k with members := [] }
  (each ms (fun s m => s.complete k (refuseWords s m.op m.d m.index r)) s).flushKept k

/-- The frame's fetching of a context has ended: members without their BARRIER are refused (R137). -/
def State.fetchEnd (s : State) (k : Ctx) : State :=
  if (s.ctx k).due = 0 ∧ (s.ctx k).members ≠ [] then s.refuseMembers k (.barrier, 0xFFFFFFFF) else s

/-- The fetch count of a context is still to come in this frame: its port's page is out, or its MMIO contexts wait for the
changes of the boundary (R107, R110). -/
def State.counting (s : State) (k : Ctx) : Bool :=
  s.ctxOn k && !s.half && ((s.port (s.ctxPort k)).page || (s.port (s.ctxPort k)).mmio)

/-- The descriptor the device takes next is one of context k: contexts are served in ascending number, over both ports, so
that tags and quotas go in the device-wide order of R54 (R110, R111). -/
def State.expects (s : State) (k : Ctx) : Bool :=
  0 < (s.ctx k).due && allCtxs.all fun j => k.val ≤ j.val || ((s.ctx j).due = 0 && !s.counting j)

/-- A descriptor arrives (R104, R105, R35): one not asked for has no effect; one whose phase bit disagrees does not
count as fetched and ends the context's fetching for the frame; otherwise it is decided by `f` at its ring index, or
refused after the admission cut-off. -/
def descriptor (k : Ctx) (op : Nat) (d : Desc) (f : State → Nat → State) (s : State) : State :=
  if s.expects k then
    let i := s.rd (F.HIF_CTX_CONS_CONS k)
    let c := s.ctx k
    if phaseBit i (dqSize s k) = d.phase then
      let s := (s.wr (F.HIF_CTX_STAT_PHASE_WAIT k) 0).wr (F.HIF_CTX_CONS_CONS k) ((i + 1) % 2 ^ 32)
      let s := s.setCtx k { c with due := c.due - 1, waits := 0, stalled := false }
      (if s.cutoff then s.refuse k op d i (.decisionLate, 0) else f s i).fetchEnd k
    else
      ((s.wr (F.HIF_CTX_STAT_PHASE_WAIT k) 1).setCtx k { c with due := 0, waits := c.waits + 1 }).fetchEnd k
  else s

/-- Decide one descriptor: the checks before R55, checks 1 to 4, then `adm`, which is given the tag and the effective
start and answers the state with the work accepted and the record to write (R53, R55). -/
def decideWith (k : Ctx) (op : Nat) (d : Desc) (useStart : Bool)
    (adm : State → Nat → Nat → Except Refuse (State × List Word)) (s : State) (i : Nat) : State :=
  let t := effStart s op d
  let verdict : Except Refuse (State × List Word) :=
    match preCheck s k op d with
    | some r => .error r
    | none =>
      match tagCheck s k with
      | .error r => .error r
      | .ok tag =>
        match galleyCheck s op d with
        | some r => .error r
        | none =>
          match (if useStart then startCheck s op d t else none) with
          | some r => .error r
          | none => adm s tag t
  match verdict with
  | .error r => s.refuse k op d i r
  | .ok (s', ws) => s'.decide k i ws

/-- A galley motion outside a group is decided at once; a member of a group waits for its BARRIER (R137). -/
def decideMotion (k : Ctx) (op : Nat) (d : Desc) (s : State) (i : Nat) : State :=
  if d.grouped ∧ d.group ≠ 0#16 then
    s.setCtx k { s.ctx k with members := (s.ctx k).members ++ [⟨op, d, i⟩] }
  else
    decideWith k op d true
      (fun s tag t =>
        match admitMotion s k op d i tag t with
        | .error r => .error r
        | .ok (s', o) => .ok (s', acceptWords o)) s i

def decideStand (k : Ctx) (op : Nat) (d : Desc) (s : State) (i : Nat) : State :=
  decideWith k op d true
    (fun s tag t =>
      match admitStand s k op d i tag t with
      | .error r => .error r
      | .ok (s', o) => .ok (s', acceptWords o)) s i

/-! ### Barrier groups (R137, R188, R189) -/

/-- All checks of one member at the group's start t. -/
def memberAdmit (s : State) (k : Ctx) (t : Nat) (m : Member) : Except Refuse (State × Op) :=
  let op := m.op
  let d := m.d
  let n := d.axis
  match tagCheck s k with
  | .error r => .error r
  | .ok tag =>
    match galleyCheck s op d with
    | some r => .error r
    | none =>
      if t < galleyFreeAt s n then .error (.startTooSoon, 0)
      else if stopBlocks s n t then .error (.state, 1)
      else if (op = 2 || op = 3) && behindFollow s n then .error (.state, 4)
      else if identifyBlocks s n t then .error (.state, 4)
      else admitMotion s k op d m.index tag t

/-- One member more, on what the members before it gave; after the first that fails nothing more is decided. -/
def memberNext (k : Ctx) (t : Nat) (x : Except (Nat × Refuse) (State × List Op)) (m : Member) :
    Except (Nat × Refuse) (State × List Op) :=
  match x with
  | .error e => .error e
  | .ok y =>
    match memberAdmit y.1 k t m with
    | .error r => .error (m.index, r)
    | .ok z => .ok (z.1, y.2 ++ [z.2])

/-- Members decided in ring order, each seeing the ones before it: all accepted, or the first that fails. -/
def membersAdmit (k : Ctx) (t : Nat) (ms : List Member) (s : State) : Except (Nat × Refuse) (State × List Op) :=
  ms.foldl (memberNext k t) (.ok (s, []))

/-- Every member is refused with BARRIER, but the failing one with its own reason (R137). -/
def refuseGroup (s : State) (ms : List Member) (own : Nat) (r : Refuse) (k : Ctx) : State :=
  each ms (fun s m =>
    s.complete k (refuseWords s m.op m.d m.index (if m.index = own then r else (.barrier, own)))) s

/-- A BARRIER decides its group (R137): its own format, privilege and binding checks, the match of the set, the members'
checks before R55, the start, then the members in ring order and the BARRIER's own tag and quota. -/
def decideBarrier (k : Ctx) (d : Desc) (s : State) (i : Nat) : State :=
  let mine := (s.ctx k).members.filter fun m => m.d.group = d.group
  let s0 := s.setCtx k { s.ctx k with members := (s.ctx k).members.filter fun m => m.d.group ≠ d.group }
  let t := effStart s 9 d
  let axes := mine.map fun m => m.d.axis
  let ownFail := fun r : Refuse =>
    let s := each mine (fun s m => s.complete k (refuseWords s m.op m.d m.index (.barrier, i))) s0
    s.refuse k 9 d i r
  let groupFail := fun (x : Nat) (r : Refuse) => (refuseGroup s0 mine x r k).refuse k 9 d i (.barrier, x)
  let done :=
    match preCheck s k 9 d with
    | some r => ownFail r
    | none =>
      if mine.length ≠ d.u8 20 ∨ maskOfAxes axes ≠ d.u32 16 ∨ ¬ axes.Nodup ∨
          mine.any (fun m => decide (31 < m.d.target.toNat)) then
        (each mine (fun s m => s.complete k (refuseWords s m.op m.d m.index (.barrier, 0))) s0).refuse k 9 d i (.barrier, 0)
      else
        match mine.findSome? fun m : Member => (preCheck s k m.op m.d).map fun r => (m.index, r) with
        | some (x, r) => groupFail x r
        | none =>
          match startTests s d t with
          | some r => ownFail r
          | none =>
            match membersAdmit k t mine s0 with
            | .error (x, r) => groupFail x r
            | .ok (s1, os) =>
              match tagCheck s1 k with
              | .error r => ownFail r
              | .ok tag =>
                match modeCheck s1 k 9 d with
                | some r => ownFail r
                | none =>
                  (each os (fun s o => s.complete k (acceptWords o)) s1).decide k i
                    (singleWords tag .done 9 d t t i)
  done.flushKept k

/-! ### Doorbells -/

/-- The producer index taken for the frame (R107). -/
def producer (s : State) (k : Ctx) (page : Vector Word 64) : Nat :=
  if s.flag (F.HIF_CTX_CFG_DB_MODE k) then (s.ctx k).snapDb else page[k].toNat

/-- At most once per 1,024 frames for each context (R108). -/
def overrunDue (s : State) (k : Ctx) : Bool :=
  match (s.ctx k).overrunAt with
  | none => true
  | some f => 1024 ≤ idxDiff (s.rd F.TBS_FRAME_CNT_FRAME) f

/-- The fetch count of one context, and its descriptor reads (R108, R110). An overrun of context 0 itself gives it one
record, not two (DESIGN CHOICE, log entry 99). -/
def serveCtx (p : Port) (page : Vector Word 64) (s : State) (k : Ctx) : State :=
  let prod := producer s k page
  let cons := s.rd (F.HIF_CTX_CONS_CONS k)
  let a := idxDiff prod cons
  let size := dqSize s k
  let room := ((s.ctx k).snapF - (s.ctx k).snapI) / 2
  let want := min a (s.rd (F.HIF_CTX_CFG_FETCH_MAX k))
  if size < a then
    let s1 := s.sqc (F.HIF_CTX_STAT_OVERRUN k)
    if overrunDue s k then
      let e : Event := ⟨0x0008, 672 + k.val, k.val, s.now, prod, cons, none, false⟩
      let s2 := (s1.eventTo 0 e).setCtx k
        { (s1.eventTo 0 e).ctx k with overrunAt := some (s.rd F.TBS_FRAME_CNT_FRAME) }
      if k.val = 0 then s2 else s2.eventTo k e
    else s1
  else
    let m := min want room
    let base := s.rd64 (Reg.HIF_CTX_DQB_LO k)
    let s := s.wrB (F.HIF_CTX_STAT_CQ_WAIT k) (0 < a && room < want)
    let s := s.setCtx k { s.ctx k with due := m }
    each (List.range m) (fun s j => s.emit (.read p .fetch (base + 64 * ((cons + j) % 2 ^ 32 % size)) 64)) s

def servePort (p : Port) (page : Vector Word 64) (only : State → Ctx → Bool) (s : State) : State :=
  State.arranged s (each (allCtxs.filter fun k => s.ctxOn k && s.ctxPort k = p && only s k) (serveCtx p page) s)

/-- Fetching is possible on a port: its link is up and it may master the bus (R121, R122). -/
def State.fetches (s : State) (p : Port) : Bool := s.canSend p

def dbBase (s : State) (p : Port) : Nat := s.rd64 (portOff p Reg.HIF_DB_BASE_LO)

/-- DOORBELL_PAGE_RETURN (R108, R110): the page of port p returns before TF/2. -/
def doorbellPageReturn (p : Port) (page : Vector Word 64) (s : State) : State :=
  if (s.port p).page && !s.half && s.fetches p then
    servePort p page (fun _ _ => true) (s.setPort p { s.port p with page := false })
  else s

/-! ### The boundary's changes and contexts in MMIO mode -/

/-- A strobe may apply: after READY or in HELD, and not during a debug halt (R410, R430). -/
def strobeRuns (s : State) : Bool := (s.flag F.LCS_LC_STAT_READY || s.inHeld) && !s.halted

/-- A CONFIG has stopped its function and not yet been applied: this is the tick after its planned start's. -/
def configDue (s : State) (o : Op) : Bool :=
  isConfig o.op && o.begun && o.left ≠ [] && s.atTick && s.tfNs ≤ 2 * (s.now - o.t1)

/-- A rank-1 change still waits at this boundary (R27, R101): what ranks after it does not act yet. -/
def firstPending (s : State) : Bool :=
  (s.ripe .strobe && strobeRuns s) || s.ripe .handover || s.ripe (.claim .A) || s.ripe (.claim .B) ||
  s.ops.any (configDue s)

/-- Ports that read no page fetch for their MMIO contexts at the tick, once the changes of the boundary are in force (R27,
R107). -/
def State.mmioServe (s : State) : State :=
  if firstPending s then s
  else
    each [Port.A, Port.B] (fun s p =>
      if (s.port p).mmio then
        servePort p (Vector.replicate 64 0#32) (fun s k => s.flag (F.HIF_CTX_CFG_DB_MODE k))
          (s.setPort p { s.port p with mmio := false })
      else s) s

/-- DOORBELL_READ_LATE (R109): a page not returned by TF/2 is not used. -/
def doorbellReadLate (p : Port) (s : State) : State :=
  if (s.port p).page then
    let s := s.advTo (s.tickClk + s.period / 2)
    (s.setPort p { s.port p with page := false }).cnt (onPort p F.HIF_PORT_STAT_DB_LATE)
  else s

/-- PHASE_STALL (R105): one event after 16 consecutive frames of disagreement. -/
def phaseStall (k : Ctx) (s : State) : State :=
  if 16 ≤ (s.ctx k).waits && !(s.ctx k).stalled then
    (s.setCtx k { s.ctx k with stalled := true }).eventTo k
      ⟨0x0009, 672 + k.val, s.rd (F.HIF_CTX_CONS_CONS k), s.now, 0, 0, none, false⟩
  else s

/-- ADMISSION_CUTOFF (R35, R188): at TF - 1.5 us, members still undecided are refused with DECISION_LATE; what arrives
later in the frame is refused too. -/
def admissionCutoff (s : State) : State :=
  if s.ticking && !s.cutoff then
    let s := s.advTo (s.tickClk + s.period - 375)
    each allCtxs (fun s k => if (s.ctx k).members = [] then s else s.refuseMembers k (.decisionLate, 0))
      { s with cutoff := true }
  else s

end Sys2Proof.Machine
end

