-- ==== Sys2Proof/Machine/Rest.lean ====
section
/-! DEFINITION. The Fallow target and the dwell (R395 to R397). -/

namespace Sys2Proof.Machine

/-- The entry condition of FALLOW-3 (R396). -/
def fallow3Ok (s : State) : Bool :=
  !s.anyEnergised && (allAxes.all fun n => (s.plan n).galley = []) &&
  !(allAxes.any fun n => olPermit s n && openLoopBit s n) &&
  !(s.ops.any fun o => o.op = 0x1A || o.op = 0x1B) &&
  (allBanks.all fun b => (s.adc b).owt.isNone && !s.has (.owt b)) && !s.halted

/-- What FALLOW-2 adds (R396). -/
def fallow2Ok (s : State) : Bool :=
  s.ops = [] && ((List.finRange 8).all fun i => (s.stream i).owner.isNone) && !s.has .strobe && !s.has .lockUp &&
  s.lcs.freeze.isNone && (s.rd F.CLK_STAT_REF ≠ 2 || s.rd F.CLK_STAT_XO = 2)

/-- What FALLOW-1 and FALLOW-0 add (R396). -/
def fallow1Ok (s : State) : Bool :=
  !([Port.A, Port.B].any fun p => s.linkUp p && allCtxs.any fun k => k.val ≠ 0 && s.ctxOn k && s.ctxPort k = p)

/-- The first refusal code of R396 that holds against Fallow state d (1 FALLOW-3 to 4 FALLOW-0); 0 for none. -/
def fallowCode (s : State) (d : Nat) : Nat :=
  if !fallow3Ok s then 1 else if 2 ≤ d && !fallow2Ok s then 2 else if 3 ≤ d && !fallow1Ok s then 3 else 0

/-- The resume latency of a Fallow state in µs (R395). -/
def fallowLatency (d : Nat) : Nat := if d = 1 then 120 else if d = 2 then 1500 else if d = 3 then 40000 else 250000

/-- The candidates of R397, deepest first. -/
def fallowCandidates (s : State) : List Nat :=
  [4, 3, 2, 1].filter fun d => d ≤ s.rd F.PMU_CFG_DEEPEST && fallowLatency d ≤ s.rd F.PMU_CFG_LAT

/-- The target of R397; none for IDLE. -/
def fallowTarget (s : State) : Option Nat := (fallowCandidates s).find? fun d => fallowCode s d = 0

/-- Since when the target's conditions hold, seen at each frame tick (R397, log entry 42). -/
def State.dwellTick (s : State) : State :=
  let t := fallowTarget s
  let since :=
    match t, s.pmu.since with
    | none, _ => none
    | some d, some (e, c) => if d = e then some (e, c) else some (d, s.clk)
    | some d, none => some (d, s.clk)
  { s with pmu := { s.pmu with since := since } }

end Sys2Proof.Machine
end

