-- ==== Sys2Proof/Machine/Fbk.lean ====
section
/-! DEFINITION. Position feedback (R317 to R341): latching, serial words, quadrature, index, steps and the compare. -/

namespace Sys2Proof.Machine

/-- x_enc for a raw position u (R320). -/
def xEnc (s : State) (n : Axis) (u : Int) : Int :=
  s.rdS64 (Reg.FBK_OFS_LO n) + s.rdS64 (Reg.FBK_ADJ_LO n) + (s.rd (F.FBK_RATIO_RATIO n) : Int) * u / 65536

def isSerial (s : State) (n : Axis) : Bool := s.rd (F.FBK_CFG_MODE n) = 1
def isQuad (s : State) (n : Axis) : Bool := s.rd (F.FBK_CFG_MODE n) = 2

/-- FBK of the axis runs: D8+b is powered (R321). -/
def fbkOn (s : State) (n : Axis) : Bool := s.powered (8 + (bankOfAxis n).val)

/-- ADJ is set so that x_enc at raw position u equals x (R320, R244). -/
def State.setAdj (s : State) (n : Axis) (u : Int) (x : Int) : State :=
  let s0 := s.wrS64 (Reg.FBK_ADJ_LO n) 0
  s0.wrS64 (Reg.FBK_ADJ_LO n) (x - xEnc s0 n u)

/-- The quadrature count restarts (R321, R335): u and its timing start again, PHASE is not known, ADJ makes x_enc the
setpoint position, which the latched position then shows with the compare's x_p moved by the step (log entry 123), VALID sets
(R337), and HOMED stays clear until a HOME (R193). -/
def State.restartQuad (s : State) (n : Axis) : State :=
  let s := s.setFbk n { s.fbk n with u := 0, errRun := 0, err := false, eLast := none, eRef := none, edgeAt := none,
                                     vEdge := 0, phase := none, fix := none }
  let s := (s.setAdj n 0 (refNow s n).1.floor).setPlan n { s.plan n with homed := false }
  let x := xEnc s n 0
  let step : Rat := if actLes s n then 0 else (x - s.rdS64 (Reg.FBK_POS_LO n) : Int)
  let s := s.setFbk n { s.fbk n with xPrev := (s.fbk n).xPrev + step }
  (s.wrS64 (Reg.FBK_POS_LO n) x).wr (F.FBK_STAT_VALID n) 1

/-! ### The serial word (R322 to R327) -/

/-- The latch instant still to come in this frame, in core clocks (R34, R198). -/
def nextLatch (s : State) : Option Nat :=
  if !s.ticking then none
  else if s.latches = 0 then some (s.tickClk + s.period / 2 - 250)
  else if s.latches = 1 then some (s.tickClk + s.period - 250)
  else none

def serPer (s : State) (n : Axis) : Nat := s.rd (F.FBK_SER_CFG_PER n)

/-- The latch edge of the word in progress: the end of its request pulse (R322). -/
def latchEdge (s : State) (n : Axis) (start : Nat) : Nat := start + s.rd (F.FBK_SER_TIM_RQ n) * serPer s n

/-- The core clock in which the bit of clock cycle k is sampled (R322, R323). -/
def cycleAt (s : State) (n : Axis) (start : Nat) (w : SerialWord) (k : Nat) : Nat :=
  let per := serPer s n
  latchEdge s n start + (per + 1) / 2 + (k - 1) * per + ceilDiv (w.ld.toNat + 16 * per) 32

/-- The core clock in which the last CRC bit is sampled (R322). -/
def wordEnd (s : State) (n : Axis) (start : Nat) (w : SerialWord) : Nat :=
  cycleAt s n start w (w.busy.toNat + 9 + s.rd (F.FBK_SER_CFG_POSLEN n) + s.rd (F.FBK_SER_CFG_CRCLEN n))

/-- The core clock of a word's timeout: 2 µs after the echo edge without an echo, or TIMEOUT after the latch edge without a
marker (R322, R326). -/
def timeoutAt (s : State) (n : Axis) (start : Nat) (echo : Bool) : Nat :=
  let e := latchEdge s n start
  if echo then e + (serPer s n + 1) / 2 + 500 else e + usClk (s.rd (F.FBK_SER_CFG_TIMEOUT n))

/-- The timeout a word runs into: an echo later than 2 µs, 16,000 taps, or a marker later than TIMEOUT. -/
def wordTimeout (s : State) (n : Axis) (start : Nat) (w : SerialWord) : Option Nat :=
  if 16000 < w.ld.toNat then some (timeoutAt s n start true)
  else if timeoutAt s n start false < cycleAt s n start w (w.busy.toNat + 2) then some (timeoutAt s n start false)
  else none

def bitsLsb (k v : Nat) : List Bool := (List.range k).map fun i => bit i v

/-- The CRC of R325 over the covered bits. -/
def serialCrc (len poly seed : Nat) (d : List Bool) : Nat :=
  d.foldl (fun c b =>
    let fb := bit (len - 1) c ≠ b
    let c := 2 * c % 2 ^ len
    if fb then Nat.xor c (poly % 2 ^ len) else c) (seed % 2 ^ len)

def crcOk (s : State) (n : Axis) (w : SerialWord) : Bool :=
  let len := s.rd (F.FBK_SER_CFG_CRCLEN n)
  let st := w.stat.toNat
  let d := [bit 1 st, bit 0 st] ++ bitsLsb 4 w.seq.toNat ++ bitsLsb (s.rd (F.FBK_SER_CFG_POSLEN n)) w.pos.toNat
  let rx := w.crc.toNat % 2 ^ len
  let rx := if s.flag (F.FBK_SER_CFG_CRCINV n) then Nat.xor rx (2 ^ len - 1) else rx
  serialCrc len (s.rd (F.FBK_SER_CRC_POLY n)) (s.rd (F.FBK_SER_CRC_SEED n)) d = rx

/-- The raw position of a word, with INV (R320). -/
def wordPos (s : State) (n : Axis) (w : SerialWord) : Nat :=
  let len := s.rd (F.FBK_SER_CFG_POSLEN n)
  let raw := w.pos.toNat % 2 ^ len
  if s.flag (F.FBK_CFG_INV n) then 2 ^ len - 1 - raw else raw

/-- The half-frame is an error half-frame, and the word is over. -/
def State.wordError (s : State) (n : Axis) : State :=
  s.setFbk n { s.fbk n with err := true, goodRun := 0, word := none, fresh := none }

/-- The request has failed, or its echo or marker has not come (R326). -/
def State.wordTmo (s : State) (n : Axis) : State := (s.sqc (F.FBK_STAT_TMO n)).wordError n

/-- SERIAL_WORD_START (R322, R324, R326): LEAD before the latch point the request starts; with DATA not high it fails. -/
def execSerialWordStart (n : Axis) (dataHigh : Bool) (s : State) : Host.Outcome State Fault Refusal :=
  .next (
    match nextLatch s with
    | none => s
    | some l =>
      if !isSerial s n || !fbkOn s n || (s.fbk n).word.isSome then s
      else
        let start := l - 10 * s.rd (F.FBK_SER_TIM_LEAD n)
        let s := s.advTo start
        if dataHigh then s.setFbk n { s.fbk n with word := some start }
        else s.wordTmo n)

/-- A good word (R327, R334, R337): its position and latch instant, the line delay and the margin over 256 words. The speed
window starts again where VALID sets. -/
def goodWord (s : State) (n : Axis) (start : Nat) (w : SerialWord) : State :=
  let f := s.fbk n
  let u : Int := wordPos s n w
  let tEnc : Rat := (latchEdge s n start : Rat) + (w.ld.toNat : Rat) / 64
  let margins := (w.margin.toNat :: f.margins).take 256
  let rises := !s.flag (F.FBK_STAT_VALID n) && 8 ≤ f.goodRun + 1
  let words := ((xEnc s n u, tEnc) :: if rises then [] else f.words).take (2 ^ s.rd (F.FBK_CFG_AVG n) + 1)
  let s := s.setFbk n { f with u, word := none, seqNo := some w.seq.toNat, errBit := false, words, fresh := some tEnc,
                               margins, goodRun := f.goodRun + 1 }
  let s := (s.wr (F.FBK_LINK_LD n) w.ld.toNat).wr (F.FBK_LINK_MARGIN n) (margins.foldl min 16383)
  let s := s.wrB (F.FBK_STAT_WARN n) (bit 0 w.stat.toNat)
  if 8 ≤ f.goodRun + 1 then s.wr (F.FBK_STAT_VALID n) 1 else s

/-- SERIAL_WORD_DONE (R326): the word is classified. One that is still open at the latch point is left for the latch point to
abandon. -/
def execSerialWordDone (n : Axis) (w : SerialWord) (s : State) : Host.Outcome State Fault Refusal :=
  .next (
    match (s.fbk n).word, nextLatch s with
    | some start, some l =>
      let late := wordTimeout s n start w
      let ends := late.getD (if w.mark then cycleAt s n start w (w.busy.toNat + 3) else wordEnd s n start w)
      if !fbkOn s n || l < ends then s
      else
        let s := s.advTo ends
        if late.isSome then s.wordTmo n
        else if w.mark then (s.sqc (F.FBK_STAT_MARK n)).wordError n
        else if !crcOk s n w then (s.sqc (F.FBK_STAT_CRC n)).wordError n
        else
          let bad := bit 1 w.stat.toNat
          let stale := (s.fbk n).seqNo = some w.seq.toNat
          if bad || stale then
            let first := bad && !(s.fbk n).errBit
            let s := if bad then s.sqc (F.FBK_STAT_ERRBIT n) else s
            let s := if stale then s.sqc (F.FBK_STAT_STALE n) else s
            let s := s.wordError n
            let s := s.setFbk n { s.fbk n with errBit := bad }
            if first then s.trip (128 + 16 * n.val + 15) else s
          else goodWord s n start w
    | _, _ => s)

/-- SERIAL_TIMEOUT (R326): no echo 2 µs after the echo edge, or no marker TIMEOUT after the latch edge. -/
def execSerialTimeout (n : Axis) (echo : Bool) (s : State) : Host.Outcome State Fault Refusal :=
  .next (
    match (s.fbk n).word, nextLatch s with
    | some start, some l =>
      let t := timeoutAt s n start echo
      if !fbkOn s n || l < t then s else (s.advTo t).wordTmo n
    | _, _ => s)

/-- ENCODER_LOST (R337, R19): ERR_N consecutive error half-frames. -/
def execEncoderLost (n : Axis) (s : State) : Host.Outcome State Fault Refusal :=
  .next (
    if encoder s n && fbkOn s n && s.flag (F.FBK_STAT_VALID n) && s.rd (F.FBK_CFG_ERR_N n) ≤ (s.fbk n).errRun then
      let s := (s.wr (F.FBK_STAT_VALID n) 0).sqc (F.FBK_STAT_LOST n)
      let s := s.setFbk n { s.fbk n with words := [], goodRun := 0 }
      (s.switchToLes n (s.les n).xEst).trip (128 + 16 * n.val + 13)
    else s)

/-! ### Quadrature, index, steps (R328 to R333, R335) -/

/-- QUAD_EDGE (R328, R335): an accepted edge counts up or down, INV reversing it; both inputs in one clock is an illegal
transition, which makes the half-frame up to the next latch point an error half-frame: a home index found in it is not used
(R167, log entry 115). A reversal edge is no timing point. -/
def execQuadEdge (n : Axis) (up illegal : Bool) (s : State) : Host.Outcome State Fault Refusal :=
  .next (
    if !isQuad s n || !fbkOn s n then s
    else if illegal then (s.sqc (F.FBK_STAT_QERR n)).setFbk n { s.fbk n with err := true, homeIdx := none }
    else
      let f := s.fbk n
      let d : Int := if up = s.flag (F.FBK_CFG_INV n) then -1 else 1
      let u := f.u + d
      if f.dir ≠ 0 ∧ f.dir ≠ d then
        s.setFbk n { f with u, dir := d, edgeAt := some s.clk, eRef := none, eLast := none }
      else s.setFbk n { f with u, dir := d, edgeAt := some s.clk, eLast := some (u, s.clk) })

/-- The search of a HOME has found its home point and the axis brakes (R167, R244). -/
def homeStood (s : State) (g : Seg) : Bool :=
  match s.opOf g.tag with
  | some o => o.data ≠ []
  | none => false

/-- A HOME METHOD 0 that still searches, and whether it is past the end of phase 3, where its index counts (R167). -/
def indexSeek (s : State) (n : Axis) : Option (Seg × Bool) :=
  if (s.plan n).leave.isSome then none
  else
    match inProg s n with
    | some g =>
      let t : Rat := phasesTime (g.mo.phases.take 3)
      if g.op = 8 && g.d.u8 24 = 0 && !homeStood s g then
        some (g, decide (t * 1000000000 ≤ ((s.now - g.mo.t0 : Nat) : Rat)))
      else none
    | none => none

/-- The deviation of R330. -/
def indexDev (per phase : Nat) (u : Int) : Int := (u - phase + per / 2) % per - per / 2

/-- INDEX_EVENT (R329 to R331, R167): only the first event between two frame ticks can be checked. A HOME METHOD 0 ignores
index events until its peak velocity; the first one after that, in no error half-frame as far as is known by then, is its
home index, and the next ones are checked. -/
def execIndexEvent (n : Axis) (s : State) : Host.Outcome State Fault Refusal :=
  .next (
    if !isQuad s n || !fbkOn s n then s
    else
      let f := s.fbk n
      let per := s.rd (F.FBK_IDX_PER_PERIOD n)
      let seek := (indexSeek s n).map (·.2)
      if seek = some false then s
      else if seek = some true && !f.err && f.homeIdx.isNone then s.setFbk n { f with homeIdx := some f.u, idxSeen := true }
      else
        let known := if s.flag (F.FBK_IDX_CFG_FIX n) then some (s.rd (F.FBK_IDX_POS_PHASE0 n)) else f.phase
        let en := s.flag (F.FBK_IDX_CFG_EN n) && per ≠ 0
        let skip := en && (f.idxSeen || f.err)
        let s := s.setFbk n { f with idxSeen := true, phase := if known.isNone && per ≠ 0 then some (f.u % per).toNat else f.phase }
        if skip then s.cnt (F.FBK_IDX_STAT_SKIP n)
        else
          match known with
          | none => s
          | some ph =>
            let d := indexDev per ph f.u
            let s := if en then s.wrS (F.FBK_IDX_STAT_DEV n) d else s
            if !en || d = 0 then s
            else if d.natAbs ≤ s.rd (F.FBK_IDX_CFG_TOL n) then s.setFbk n { s.fbk n with fix := some d }
            else s.trip (128 + 16 * n.val + 14))

/-- INDEX_CORRECTION (R330, R341): at the next frame tick u := u - d, with its event; the compare moves with it. -/
def execIndexCorrection (n : Axis) (s : State) : Host.Outcome State Fault Refusal :=
  .next (
    match (s.fbk n).fix with
    | none => s
    | some d =>
      if !s.atTick || !fbkOn s n then s
      else
        let f := s.fbk n
        let x := xEnc s n f.u
        let y := xEnc s n (f.u - d)
        let move : Rat := if actLes s n then 0 else ((y - x : Int) : Rat)
        let s := s.setFbk n { f with u := f.u - d, fix := none, xPrev := f.xPrev + move }
        (s.cnt (F.FBK_IDX_STAT_CORR n)).axisEvent n 0x12 (ofSigned 64 x) (ofSigned 32 (y - x))
          ((inProg s n).map (·.tag)) false)

/-- STEP_EDGE (R332, R333): an edge that held its levels is counted in the direction of DIR while ENABLE permits; others
are rejected. -/
def execStepEdge (n : Axis) (dirHigh held enableHigh : Bool) (s : State) : Host.Outcome State Fault Refusal :=
  .next (
    if s.rd (F.FBK_CFG_MODE n) ≠ 3 || !fbkOn s n then s
    else
      let ena := enableHigh ≠ s.flag (F.FBK_CFG_ENA_POL n)
      let s := s.wrB (F.FBK_STAT_ENA n) ena
      if !held then s.sqc (F.FBK_STAT_STEPREJ n)
      else if s.flag (F.FBK_CFG_ENA_EN n) && !ena then s
      else
        let d : Int := if dirHigh = s.flag (F.FBK_CFG_INV n) then -1 else 1
        let s := s.advTo (s.clk + 25)
        s.wrS (F.FBK_STEP_STEP n) (s.rdS (F.FBK_STEP_STEP n) + d))

/-! ### The latch point (R327, R334 to R340) -/

/-- Speed in SERIAL mode, counts/s (R334). -/
def serialSpeed (ws : List (Int × Rat)) : Rat :=
  match ws.head?, ws.getLast? with
  | some k, some j => if k.2 = j.2 then 0 else (k.1 - j.1 : Int) * clkHz / (k.2 - j.2)
  | _, _ => 0

/-- Speed in QUAD mode at a latch point, edges/s (R335): the new feedback part and whether the standstill timeout holds. -/
def quadSpeed (f : FbkS) (t sst : Nat) : FbkS × Option Bool :=
  let idle := match f.edgeAt with | some e => decide (e + sst ≤ t) | none => true
  if idle then ({ f with vEdge := 0, eRef := f.eLast }, some true)
  else
    match f.eRef, f.eLast with
    | some r, some l =>
      if r.2 < l.2 then
        ({ f with vEdge := (l.1 - r.1 : Int) * clkHz / ((l.2 - r.2 : Nat) : Rat), eRef := f.eLast }, some false)
      else
        let w : Rat := f.dir * clkHz / ((t - l.2 : Nat) : Rat)
        let v := if absRat w < absRat f.vEdge ∨ signRat w ≠ signRat f.vEdge then w else f.vEdge
        ({ f with vEdge := v, eRef := f.eLast }, none)
    | _, _ => ({ f with eRef := f.eLast }, none)

def satSpeed (q : Rat) : Int := clampInt (-2147483648) 2147483647 (roundRat q)

/-- In an error half-frame the position latched last goes on at the speed latched last, over half a frame (R327, log entry
123). -/
def State.carryOn (s : State) (n : Axis) (pos : Int) : State :=
  s.wrS64 (Reg.FBK_POS_LO n) (roundRat (pos + (s.rdS (F.FBK_SPEED_SPEED n) : Rat) * s.halfSec))

/-- FBK latches position and speed of one axis (R327, R334 to R337); a word still unfinished is abandoned as LATE (R326). -/
def latchAxis (s : State) (n : Axis) : State :=
  let pos := s.rdS64 (Reg.FBK_POS_LO n)
  if isSerial s n then
    let s := if (s.fbk n).word.isSome then (s.sqc (F.FBK_STAT_LATE n)).wordError n else s
    let f := s.fbk n
    match f.fresh with
    | some t =>
      let v := serialSpeed f.words
      let x : Int := match f.words.head? with | some w => w.1 | none => pos
      let p := roundRat (x + v * ((s.clk : Rat) - t) / clkHz)
      let s := (s.wrS64 (Reg.FBK_POS_LO n) p).wrS (F.FBK_SPEED_SPEED n) (satSpeed v)
      s.setFbk n { f with fresh := none, errRun := 0, err := false, bad := false }
    | none =>
      ((s.carryOn n pos).setFbk n { f with errRun := f.errRun + 1, err := false, bad := true }).cnt (F.FBK_STAT_ERRCNT n)
  else if isQuad s n then
    let r := quadSpeed (s.fbk n) s.clk (usClk (s.rd (F.FBK_SPD_SST n)))
    let f := r.1
    let s := match r.2 with | some b => s.wrB (F.FBK_STAT_STILL n) b | none => s
    if f.err then
      let f := { f with vEdge := (s.fbk n).vEdge, errRun := f.errRun + 1, err := false, bad := true }
      (s.carryOn n pos).setFbk n f |>.cnt (F.FBK_STAT_ERRCNT n)
    else
      let v := f.vEdge * s.rd (F.FBK_RATIO_RATIO n) / 65536
      let s := (s.wrS64 (Reg.FBK_POS_LO n) (xEnc s n f.u)).wrS (F.FBK_SPEED_SPEED n) (satSpeed v)
      s.setFbk n { f with errRun := 0, bad := false }
  else s

/-- The hits of one latch (R339): how many positions next, next + d space, … lie in the crossing from xp to x. -/
def hitCount (xp x : Rat) (next : Int) (space : Nat) : Nat :=
  let c : Rat := next
  if xp < x then
    if xp < c ∧ c ≤ x then (if space = 0 then 1 else ((x - c) / space).floor.toNat + 1) else 0
  else if x < xp then
    if c ≤ xp ∧ x < c then (if space = 0 then 1 else ((c - x) / space).ceil.toNat) else 0
  else 0

/-- The compare at a latch point, armed or evaluated (R339, R340); t0 is the GTC of the latch before. ARM set in the clock of
the latch point stays set for the next one (R74). -/
def compareAxis (s : State) (n : Axis) (t0 : Nat) : State :=
  let x := actX s n
  let xp := (s.fbk n).xPrev
  let en := s.flag (F.FBK_CMP_CTRL_EN n)
  let s := s.setFbk n { s.fbk n with xPrev := x, hit := false }
  if s.flag (F.FBK_CMP_CTRL_ARM n) then
    let s := s.goEnd (F.FBK_CMP_CTRL_ARM n) id
    if !en then s.wr (F.FBK_CMP_STAT_ARMED n) 0
    else
      let next := s.rdS64 (Reg.FBK_CMP_LO n)
      let v := actV s n
      let s := (s.wrS64 (Reg.FBK_CMP_NEXT_LO n) next).wr (F.FBK_CMP_STAT_ARMED n) 1
      s.wrB (F.FBK_CMP_STAT_BEHIND n) (decide ((0 < v ∧ (next : Rat) ≤ x) ∨ (v < 0 ∧ x < next)))
  else if !en then s.wr (F.FBK_CMP_STAT_ARMED n) 0
  else if !s.flag (F.FBK_CMP_STAT_ARMED n) then s
  else
    let next := s.rdS64 (Reg.FBK_CMP_NEXT_LO n)
    let space := s.rd (F.FBK_CMP_SPACE_SPACE n)
    let k := hitCount xp x next space
    if k = 0 then s
    else
      let d : Int := if xp < x then 1 else -1
      let hits := s.rd (F.FBK_CMP_HITS_HITS n)
      let s := each (List.range (min k 4)) (fun s i =>
        let c := next + d * (i * space : Nat)
        let at_ := t0 + (((c : Rat) - xp) / (x - xp) * (2 * s.period : Nat)).floor.toNat
        each (allCtxs.filter fun k => s.ctxOn k && bit n.val (s.rd (F.HIF_CTX_AXES_AXES k)))
          (fun s k => s.eventTo k ⟨0x13, 640 + n.val, n.val, at_, ofSigned 64 c, (hits + i + 1) % 2 ^ 32,
            (inProg s n).map (·.tag), false⟩) s) s
      let s := s.cntWrap (F.FBK_CMP_HITS_HITS n) k
      let s := s.cnt (F.FBK_CMP_STAT_MISSED n) (k - 4)
      let s := (s.sqc (F.FBK_CMP_STAT_HIT n)).wr (F.FBK_CMP_STAT_BEHIND n) 0
      let s := s.setFbk n { s.fbk n with hit := true }
      if space = 0 then s.wr (F.FBK_CMP_STAT_ARMED n) 0
      else s.wrS64 (Reg.FBK_CMP_NEXT_LO n) (next + d * (k * space : Nat))

/-- The soft travel limits (R194): raised once per crossing, while HOMED (R193). -/
def travelAxis (s : State) (n : Axis) : State :=
  let out := s.energised n && (s.plan n).homed && !inTravel s n (actX s n)
  let was := (s.plan n).travelOut
  let s := s.setPlan n { s.plan n with travelOut := out }
  if out && !was then s.detect (128 + 16 * n.val + 10) else s

/-- The SS1 envelope at a latch point (R362), and the run of half-frames at or below SSV (R361). -/
def ss1Axis (s : State) (n : Axis) : State :=
  match s.ss1 n with
  | none => s
  | some x =>
    match x.begun with
    | none => s
    | some tb =>
      let v := absRat (actV s n)
      let ssv : Rat := s.rd (F.FCS_SS1_VEL_SSV n)
      let slow := if v ≤ ssv then x.slow + 1 else 0
      let j : Rat := hjerk s n
      let hd : Rat := hdec s n
      let t : Rat := ((s.clk - tb : Nat) : Rat) / clkHz
      let v0 := if j = 0 then x.v0 else x.v0 + x.af * x.af / (2 * j)
      let d := (if j = 0 then 0 else (x.af + hd) / j) + 2 * s.halfSec
      let env := if t < d then v0 else max ssv (v0 - hd * (1 - (s.rd (F.FCS_SS1_CFG_TOL n) : Rat) / 100) * (t - d))
      let bad := if s.flag (F.FCS_SS1_CFG_RMON n) && decide (env < v) then x.bad + 1 else 0
      let s := s.setSs1 n (some { x with slow, bad })
      if bad = 2 then s.detect 36 false (some n.val) else s

/-- An absolute encoder that is the active source references the axis (R193). -/
def homedByAbsolute (s : State) (n : Axis) : State :=
  if absActive s n && s.flag (F.FBK_STAT_VALID n) then s.setPlan n { s.plan n with homed := true } else s

/-- One axis at a latch point: FBK latches, CLP takes position and speed, then the compare and the limits (R198, R333,
R339). -/
def latchOne (t0 : Nat) (s : State) (n : Axis) : State :=
  if !fbkOn s n then s
  else
    let s := homedByAbsolute (latchAxis s n) n
    let s := s.setFbk n { s.fbk n with steps := s.rdS (F.FBK_STEP_STEP n) }
    let c := s.clp n
    let s := s.setClp n { c with xLat := actX s n, vLat := actV s n, tLat := s.clk,
                                 xLatOld := c.xLat, vLatOld := c.vLat, tLatOld := c.tLat }
    ss1Axis (travelAxis (compareAxis s n t0) n) n

/-- LATCH_POINT (R34, R198, R333, R339, R194, R362): 1.0 µs before the half-frame tick. The sources found act together, and
the records stand in the order of R50. -/
def execLatchPoint (s : State) : Host.Outcome State Fault Refusal :=
  .next (
    match nextLatch s with
    | none => s
    | some l =>
      let u := s.advTo l
      let t0 := u.now - 2 * u.period
      State.arranged s (State.finding (fun u => each allAxes (latchOne t0) u) { u with latches := u.latches + 1 }))

/-- The half-frame tick that follows a latch point. -/
def halfAfter (s : State) : Nat := if s.latches = 0 then s.clk else s.tickClk + s.latches * s.period / 2

/-- COMPARE_OUTPUT_PULSE (R341): X2 is driven high for 1 µs from the half-frame tick after a latch with hits. -/
def execCompareOutputPulse (n : Axis) (s : State) : Host.Outcome State Fault Refusal :=
  .next (
    if (s.fbk n).hit && s.flag (F.FBK_CFG_CMP_OUT n) && fbkOn s n then
      let s := s.advTo (halfAfter s)
      (s.emit (.cmpPulse n)).setFbk n { s.fbk n with hit := false }
    else s)

end Sys2Proof.Machine
end

