-- ==== Sys2Proof/Machine/Segment.lean ====
section
/-! DEFINITION. Galley operations as they run: starts, ends, homing, stops and reversals (R133 to R138, R156 to R168, R175,
R177, R190, R361). -/

namespace Sys2Proof.Machine

/-- The present instant is a half-frame tick of the frame in progress (R29). -/
def State.atHalfTick (s : State) : Bool :=
  s.ticking && (s.clk = s.tickClk || (s.half && s.clk = s.tickClk + s.period / 2))

/-- The axis rests at its reference. -/
def State.rest (s : State) (n : Axis) : State :=
  let p := s.plan n
  if s.energised n then
    s.setPlan n { p with st := .standing, ref := Motion.still p.ref.xEnd, follow := none,
                         holdMa := s.rd (F.MPL_IHOLD_IHOLD n) }
  else s

/-- What the planned end of a galley operation does to an axis it names (R134, R138, R158, R159). -/
def endOn (s : State) (n : Axis) (o : Op) : State :=
  if o.op = 6 then s.deenergise n
  else if o.op = 7 then
    let x := (refNow s n).1
    s.setPlan n { s.plan n with st := if s.energised n then .standing else .off, ref := Motion.still x, follow := none }
  else if o.op = 0xA then s
  else if isConfig o.op then
    if bit 0 (o.d.u8 49) then s.energise n else s
  else s.rest n

/-- Status and DETAIL of a galley operation that reaches its planned end (R59, R136, R138, R148): a HOME that ends there has
searched the whole of SEARCH. -/
def endStatus (o : Op) : Status × Nat :=
  if o.op = 8 && o.d.u8 24 ≠ 2 && o.data = [] then (.notFound, o.d.u32 28)
  else if isConfig o.op then
    match o.data with
    | r :: _ => (.notApplied, r)
    | [] => (.done, 0)
  else (.done, 0)

/-- HOMED sets when a HOME ends with DONE (R193). -/
def homedBy (s : State) (n : Axis) (o : Op) : State :=
  if o.op = 8 && (endStatus o).1 = .done then s.setPlan n { s.plan n with homed := true } else s

/-- An armed segment that ends here: the half-frame in progress, where it began before, still counts for it (R241). -/
def State.keepArmed (s : State) (n : Axis) : State :=
  let start := if s.half then s.tickClk + s.period / 2 else s.tickClk
  match armedSeg s n with
  | some g => if start < s.clk then s.setLes n { s.les n with past := some g } else s
  | none => s

/-- A galley operation ends at t2: its axes, then its final record (R59, R150). -/
def State.segEnd (s : State) (o : Op) (t2 : Nat) : State :=
  let s := each o.axes State.keepArmed s
  let s := each o.axes (fun s n => homedBy (endOn s n o) n o) s
  s.finish o.tag (endStatus o).1 o.t1 t2 (endStatus o).2 0

/-- An open-ended HOLD or FOLLOW_STEP, or an operation whose planned end has come, ends as the next one of its galley
starts (R134, R135, R138). -/
def State.endBefore (s : State) (n : Axis) (tag t : Nat) : State :=
  match inProg s n with
  | none => s
  | some g =>
    if g.tag = tag then s
    else
      match s.opOf g.tag with
      | some o => s.segEnd o (min t (g.t2.getD t))
      | none => s

/-- The target of a HOME's home position: x_enc becomes HOME_POS where the active source stands at x (R136, R244, R320):
FBK moves ADJ, MPL its reference, the compare its x_p, and LES its position, all by one step. -/
def State.assignHome (s : State) (n : Axis) (x : Rat) (pos : Int) : State :=
  let step : Rat := pos - x
  let adj := s.rdS64 (Reg.FBK_ADJ_LO n) + truncRat step
  let s := if encoder s n then s.wrS64 (Reg.FBK_ADJ_LO n) adj else s
  let s := if encoder s n then s.wrS64 (Reg.FBK_POS_LO n) (s.rdS64 (Reg.FBK_POS_LO n) + truncRat step) else s
  let s := s.setFbk n { s.fbk n with xPrev := (s.fbk n).xPrev + step,
                                     words := (s.fbk n).words.map fun w => (w.1 + truncRat step, w.2) }
  let s := if actLes s n then s.setLes n ((s.les n).shift step) else s
  let c := s.clp n
  let s := s.setClp n { c with xLat := c.xLat + step, xLatOld := c.xLatOld + step, xRef := c.xRef + step }
  let p := s.plan n
  let r := p.ref
  s.setPlan n { p with ref := { r with x0 := r.x0 + step, xEnd := r.xEnd + step } }

/-- Time zero of a profile: the planned start rounded to the nearest 4 ns (R62). -/
def timeZero (t1 : Nat) : Nat := 4 * ((t1 + 2) / 4)

/-- The profile a segment runs from where the axis stands: as planned; behind an open-ended FOLLOW_STEP a MOVE_ABS for the
distance found (R157), and another motion over its planned distance (log entry 113). -/
def runMotion (s : State) (n : Axis) (g : Seg) : Motion :=
  let x := (refNow s n).1
  let m :=
    if g.mo.x0 = x then g.mo
    else if g.op = 1 then
      let l := limitsOf s n g.op g.d
      match planMove g.t1 x g.mo.xEnd l.v l.a l.d l.j with
      | some p => if p.durNs ≤ (g.t2.getD g.t1) - g.t1 then p.mo else g.mo
      | none => g.mo
    else { g.mo with x0 := x, xEnd := g.mo.xEnd + (x - g.mo.x0) }
  { m with t0 := timeZero g.t1 }

/-- An entry of the galley changes. -/
def State.setSeg (s : State) (n : Axis) (tag : Nat) (f : Seg → Seg) : State :=
  let p := s.plan n
  s.setPlan n { p with galley := p.galley.map fun x => if x.tag = tag then f x else x }

/-- What a start does on one axis (R131, R134 to R136, R159, R168, R190, R245). -/
def startOn (s : State) (n : Axis) (g : Seg) : State :=
  let s := if isMotion g.op || g.op = 5 then s.energise n else s
  let l := s.les n
  let s := s.setLes n { l with stall := l.stall && (l.emfN ≠ 0 || l.angN ≠ 0) }
  let x := (refNow s n).1
  let m := if g.op = 7 then ⟨timeZero g.t1, x, 0, 0, [], x⟩ else if isMotion g.op then runMotion s n g else g.mo
  let s := s.setSeg n g.tag fun y => { y with begun := true, mo := m }
  let p := s.plan n
  if g.op = 7 then
    s.setPlan n { p with st := .following, follow := some ⟨(s.fbk ⟨stepSource s n % 32, by omega⟩).steps, x, x, 0, 0, false⟩ }
  else if g.op = 5 then s.setPlan n { p with st := .standing, holdMa := g.d.u16 16 }
  else if g.op = 8 && g.d.u8 24 = 2 then
    let s := s.assignHome n (if encoder s n || actLes s n then actX s n else x) (g.d.i64 32)
    s.setPlan n { s.plan n with homed := true, ref := Motion.still (g.d.i64 32 : Rat) }
  else if isMotion g.op then
    let s := s.setFbk n { s.fbk n with homeIdx := none, homeHit := none }
    s.setPlan n { s.plan n with ref := m, st := if m.phases = [] then .standing else .moving }
  else s

/-- The source that keeps a galley operation from starting: the bank's analog domain is off and the axis would be energised
(R22), or no working core serves the bank and a motion would start (R24). -/
def startBlocked (s : State) (n : Axis) (op : Nat) : Option Nat :=
  let b := bankOfAxis n
  if !s.powered (12 + b.val) && !s.energised n && (isMotion op || op = 5) then some (64 + 16 * b.val + 12)
  else if isMotion op && (!coreWorks s b || (s.bank b).missRun ≠ 0) then some (64 + 16 * b.val + 5)
  else none

/-- An operation that cannot start, and every one queued behind it, end with CANCELLED and the source as DETAIL (DESIGN
CHOICE, log entry 107). -/
def State.cancelStart (s : State) (n : Axis) (src : Nat) : State :=
  let s := s.cancelQueued n (.fault src)
  let stand := if s.energised n then [⟨s.now, none, (s.load n).standDraw (s.rd (F.MPL_IHOLD_IHOLD n))⟩] else []
  if (inProg s n).isSome then s else s.setPlan n { s.plan n with book := cutBook (s.plan n).book s.now ++ stand }

/-- SEGMENT_START (R168, R159, R62): at the clock nearest to its planned start the operation begins on every axis it names.
-/
def execSegmentStart (tag : Fin 1024) (s : State) : Host.Outcome State Fault Refusal :=
  .next (State.arranged s (
    match s.opOf tag with
    | none => s
    | some o =>
      let free := o.axes.all fun n => (s.plan n).leave.isNone
      if !isGalley o.op || o.begun || !free then s
      else
        let s := s.advToGtc (o.t1 - 2)
        match o.axes.findSome? fun n => (startBlocked s n o.op).map (n, ·) with
        | some (n, src) => s.cancelStart n src
        | none =>
          let s := each o.axes (fun s n => s.endBefore n tag o.t1) s
          let s := s.setOp { o with begun := true }
          each o.axes (fun s n =>
            match (s.plan n).galley.find? fun g => g.tag = tag.val with
            | some g => startOn s n g
            | none => s) s))

/-- SEGMENT_END (R59): the planned end of a galley operation that no axis of it is leaving. -/
def execSegmentEnd (tag : Fin 1024) (s : State) : Host.Outcome State Fault Refusal :=
  .next (
    match s.opOf tag with
    | none => s
    | some o =>
      let t2 := o.axes.findSome? fun n => ((s.plan n).galley.find? fun g => g.tag = tag.val).bind (·.t2)
      let free := o.axes.all fun n => match (s.plan n).leave with | none => true | some l => !l.begun
      match t2 with
      | none => s
      | some t => if isGalley o.op && o.begun && free then (s.advToGtc t).segEnd o t else s)

/-! ### Homing (R136, R167, R244) -/

/-- The home point is found: at the latch point the position is assigned, and from the next half-frame the axis brakes. -/
def State.homeFound (s : State) (n : Axis) (g : Seg) (x : Rat) : State :=
  let s := s.assignHome n x (g.d.i64 32)
  let r := refNow s n
  let t := s.now + 1000
  let r1 := motionAt (s.plan n).ref t
  let m := headland t r1.1 r1.2.1 r1.2.2 (hdec s n) (hjerk s n)
  let e := t + phasesNs m.phases
  let s := s.setSeg n g.tag fun y => { y with t2 := some e, mo := { y.mo with x0 := y.mo.x0 + (g.d.i64 32 - x), xEnd := m.xEnd } }
  let s := s.setPlan n { s.plan n with ref := if s.now < t then m else Motion.still r.1 }
  let s := s.setFbk n { s.fbk n with homeIdx := none, homeHit := none }
  match s.opOf g.tag with
  | some o => s.setOp { o with data := [e] }
  | none => s

/-- The search of a HOME has found its point and the next latch point has come (R167, R244). -/
def atLatch (s : State) : Bool :=
  s.ticking && ((s.latches = 1 && s.clk = s.tickClk + s.period / 2 - 250) ||
    (s.latches = 2 && s.clk = s.tickClk + s.period - 250))

/-- HOME_INDEX_FOUND (R167): x_enc at the index becomes HOME_POS, PHASE is set from it. -/
def execHomeIndexFound (n : Axis) (s : State) : Host.Outcome State Fault Refusal :=
  .next (
    match (s.fbk n).homeIdx, inProg s n with
    | some u, some g =>
      if g.op = 8 && g.d.u8 24 = 0 && atLatch s then
        let per := s.rd (F.FBK_IDX_PER_PERIOD n)
        let s := s.setFbk n { s.fbk n with phase := some (u % per).toNat }
        s.homeFound n g (xEnc s n u)
      else s
    | _, _ => s)

/-- HOME_HARD_STOP_FOUND (R244). -/
def execHomeHardStopFound (n : Axis) (s : State) : Host.Outcome State Fault Refusal :=
  .next (
    match (s.fbk n).homeHit, inProg s n with
    | some x, some g => if g.op = 8 && g.d.u8 24 = 1 && atLatch s then s.homeFound n g x else s
    | _, _ => s)

/-! ### STOP, standstills, reversal (R133, R160, R175, R177) -/

/-- STOP_EFFECT (R133): at the first half-frame tick at or after the planned start each named axis leaves and brakes. -/
def execStopEffect (tag : Fin 1024) (s : State) : Host.Outcome State Fault Refusal :=
  .next (State.arranged s (
    match s.opOf tag with
    | none => s
    | some o =>
      if o.op ≠ 4 || o.begun || !s.atHalfTick || s.now < o.t1 then s
      else
        let ss1 := o.d.u8 20 = 1
        let s := s.setOp { o with begun := true }
        each o.axes (fun s n =>
          let s := if ss1 then s.markSs1 n (.stop tag) else s.reach n (.stop tag) false s.clk
          let s := if ss1 then
              match s.ss1 n with
              | some x =>
                let r := refNow s n
                if x.begun.isNone then s.setSs1 n (some { x with begun := some s.clk, v0 := absRat r.2.1,
                                                                 af := max 0 (signRat r.2.1 * r.2.2) }) else s
              | none => s
            else s
          s.beginLeave n) s))

/-- BRAKING_STANDSTILL (R160): an axis braking along its Headland that keeps its enables reaches standstill. -/
def execBrakingStandstill (n : Axis) (s : State) : Host.Outcome State Fault Refusal :=
  .next (State.arranged s (
    match (s.plan n).leave with
    | none => s
    | some l =>
      if l.begun && !l.gatesOff && causeRank l.cause ≠ 4 then
        let e := brakeEnd s n
        (s.advToGtc e).standstill n e
      else s))

/-- REVERSAL_BRAKE_STANDSTILL (R175): the opening move begins where the braking part stops. -/
def execReversalBrakeStandstill (n : Axis) (s : State) : Host.Outcome State Fault Refusal :=
  .next (
    match (s.plan n).leave with
    | none => s
    | some l =>
      match l.revTo with
      | none => s
      | some xr =>
        if l.begun && !l.opening then
          let e := brakeEnd s n
          let s := s.advToGtc e
          let xs := (s.plan n).ref.xEnd
          let m := match planMove e xs xr (s.rd (F.MPL_REV_VEL_REV_VEL n)) (hdec s n) (hdec s n) (hjerk s n) with
            | some p => p.mo
            | none => ⟨e, xs, 0, 0, [], xs⟩
          s.setPlan n { s.plan n with ref := m, leave := some { l with opening := true } }
        else s)

/-- REVERSAL_END (R177): the standstill that ends the reversal part. -/
def execReversalEnd (n : Axis) (s : State) : Host.Outcome State Fault Refusal :=
  .next (State.arranged s (
    match (s.plan n).leave with
    | none => s
    | some l =>
      if l.begun && causeRank l.cause = 4 && (l.opening || l.revTo.isNone) then
        let e := brakeEnd s n
        (s.advToGtc e).standstill n e
      else s))

/-! ### SS1 (R361, R364) -/

/-- SS1_BRAKING_START (R361, R506): at the first half-frame tick at least 1.0 µs after the mark the axis brakes along its
Headland, or goes on with the braking in progress, and the monitor starts. -/
def execSs1BrakingStart (n : Axis) (s : State) : Host.Outcome State Fault Refusal :=
  .next (State.arranged s (
    match (s.plan n).leave with
    | none => s
    | some l =>
      if !s.atHalfTick || causeRank l.cause ≠ 3 then s
      else
        let s :=
          match s.ss1 n with
          | some x =>
            if x.begun.isNone && x.asked + usClk 1 ≤ s.clk then
              let r := refNow s n
              s.setSs1 n (some { x with begun := some s.clk, v0 := absRat r.2.1, af := max 0 (signRat r.2.1 * r.2.2) })
            else s
          | none => s
        if !l.begun && l.due ≤ s.clk then s.beginLeave n else s))

/-- SS1_STANDSTILL (R361): |v̂| ≤ SSV in four consecutive half-frames. -/
def execSs1Standstill (n : Axis) (s : State) : Host.Outcome State Fault Refusal :=
  .next (State.arranged s (
    match (s.plan n).leave, s.ss1 n with
    | some l, some x => if l.begun && l.gatesOff && 4 ≤ x.slow then s.ss1Off n else s
    | _, _ => s))

/-- SS1_TIMEOUT (R361): TMAX since the request. -/
def execSs1Timeout (n : Axis) (s : State) : Host.Outcome State Fault Refusal :=
  .next (State.arranged s (
    match (s.plan n).leave, s.ss1 n with
    | some l, some x =>
      if l.gatesOff && s.energised n then
        let s := s.advTo (x.asked + msClk (s.rd (F.FCS_SS1_CFG_TMAX n)))
        (if l.begun then s else s.cancelQueued n l.cause).ss1Off n
      else s
    | _, _ => s))

end Sys2Proof.Machine
end

