-- ==== Sys2Proof/Machine/Tbs.lean ====
section
/-! DEFINITION. The time base against the host and against other devices: PTM and SYNC (R39 to R49). -/

namespace Sys2Proof.Machine

/-! ### PTM (R42 to R45) -/

/-- The PTM offset as an event carries it: the 32 bits of OFFSET in a wider word, not sign-extended, and so is PHASE where
an event carries it (DESIGN CHOICE, log entry 114). -/
def ptmOfs (s : State) : Nat := (s.reg Reg.TBS_PTM_OFFSET).toNat

/-- LOCK clears (R44): LOST, source 21, its event, and the flag on every operation accepted and not yet started (R59). -/
def State.ptmLose (s : State) : State :=
  let s := { s with tbs := { s.tbs with ptmGood := 0 } }
  if s.flag F.TBS_PTM_STAT_LOCK then
    let s := (s.wr F.TBS_PTM_STAT_LOCK 0).sqc F.TBS_PTM_STAT_LOST
    let s := { s with ops := s.ops.map fun o : Op => if o.begun then o else { o with unaligned := true } }
    (s.trip 21).devEvent 0x0004 (s.rd F.TBS_PTM_STAT_MISSED) (ptmOfs s) 0 true
  else s

/-- PTM may run a dialogue: EN is set and the device is not unpowered (R42, R400). -/
def ptmRuns (s : State) : Bool := s.flag F.TBS_PTM_CTRL_EN && s.powered 5

/-- The port of the dialogue can answer: its link is up, its PTM control is set, and it is in D0 (R95, R121, R122). -/
def ptmAnswers (s : State) : Bool :=
  let p := portOf s.tbs.ptmPort
  s.linkUp p && (s.port p).ptmOn && !(s.port p).d3

/-- PTM_DIALOGUE_START (R42, R45): INTERVAL ms after the one before, on the selected port. A change of PORT takes effect
here and clears LOCK. A port that cannot carry the request sends none. -/
def execPtmDialogueStart (s : State) : Host.Outcome State Fault Refusal :=
  .next (
    if !ptmRuns s || s.tbs.ptmBusy then s
    else
      let s := s.advTo (s.tbs.ptmAt + msClk (s.rd F.TBS_PTM_CTRL_INTERVAL))
      let port := s.rd F.TBS_PTM_CTRL_PORT
      let moved := port ≠ s.tbs.ptmPort
      let s := { s with tbs := { s.tbs with ptmAt := s.clk, ptmT1 := s.now, ptmBusy := true, ptmPort := port,
                                            ptmFirst := s.tbs.ptmFirst || moved } }
      let s := if moved then s.ptmLose else s
      if ptmAnswers s then s.emit (.ptm (portOf port)) else s)

/-- RATE after a successful dialogue (R42), in units of 2^-24 ns per core clock. -/
def ptmRate (rate : Int) (o prev : Int) (first : Bool) (interval : Nat) : Int :=
  let d : Rat := interval * 1000000
  let c : Rat := (rate : Rat) / 67108864
  let f := if first then c else c - ((o - prev : Int) : Rat) / d
  clampInt (-32768) 32767 (roundRat ((f - (o : Rat) / d) * 67108864))

/-- A step needs every axis de-energised and no accepted operation with its start still to come (R43). -/
def stepAllowed (s : State) : Bool := !s.anyEnergised && s.ops.all fun o => o.t1 ≤ s.now

/-- RATE takes the computation of R42 for offset o. -/
def ptmTune (s : State) (o : Int) : State :=
  let r := ptmRate (s.rdS F.TBS_GTC_RATE_RATE) o s.tbs.ptmPrev (s.tbs.ptmFirst || s.tbs.slew)
    (s.rd F.TBS_PTM_CTRL_INTERVAL)
  { s.wrS F.TBS_GTC_RATE_RATE r with tbs := { s.tbs with slew := false, ptmFirst := false } }

/-- The offset of a dialogue acts on the GTC (R42, R43): the computation, with a step asked for where one is due, or a slew
with RATE at its limit. -/
def ptmSteer (s : State) (o : Int) : State :=
  let thr := 1000 * s.rd F.TBS_PTM_CTRL_STEP_THR
  if o < 0 ∧ thr ≠ 0 ∧ thr ≤ o.natAbs ∧ stepAllowed s then
    let s := { s with reqs := s.reqs.filter fun x => match x.1 with | .gtcStep _ => false | _ => true }
    (ptmTune s o).post (.gtcStep o.natAbs)
  else if 1000 ≤ o.natAbs then
    { s.wrS F.TBS_GTC_RATE_RATE (if o < 0 then 32767 else -32768) with tbs := { s.tbs with slew := true } }
  else ptmTune s o

/-- The offset of the GTC from host time (R42): the request left at ptmT1 and the response comes now; the host took the
request at `host` in its own time and answered `wait` ns later, and the link delays both the same. -/
def ptmOffset (s : State) (host : BitVec 64) (wait : BitVec 32) : Int :=
  roundRat ((((s.tbs.ptmT1 + s.now : Nat) : Int) - wait.toNat : Int) / (2 : Rat)) - host.toNat

/-- PTM_DIALOGUE_DONE (R42 to R45): the offset, RATE, and LOCK after four dialogues within 100 ns. Its operands are what the
response carries: the host's time at its receipt of the request and the time it held it (log entry 102). -/
def execPtmDialogueDone (r : PtmReply) (s : State) : Host.Outcome State Fault Refusal :=
  .next (
    if !ptmRuns s || !s.tbs.ptmBusy || !ptmAnswers s then s
    else
      let o := ptmOffset s r.host r.wait
      let s := s.wrS F.TBS_PTM_OFFSET_OFFSET (clampInt (-2147483647) 2147483647 o)
      let s := ptmSteer s o
      let good := if o.natAbs ≤ 100 then s.tbs.ptmGood + 1 else 0
      let s := { s with tbs := { s.tbs with ptmBusy := false, ptmPrev := o, ptmBad := 0, ptmGood := good } }
      if 250 < o.natAbs then s.ptmLose
      else if 4 ≤ good && !s.flag F.TBS_PTM_STAT_LOCK then
        (s.wr F.TBS_PTM_STAT_LOCK 1).devEvent 0x0003 0 (ptmOfs s) 0 false
      else s)

/-- PTM_DIALOGUE_FAILED (R44, R45). -/
def execPtmDialogueFailed (s : State) : Host.Outcome State Fault Refusal :=
  .next (
    if !ptmRuns s || !s.tbs.ptmBusy then s
    else
      let bad := s.tbs.ptmBad + 1
      let s := (s.cnt F.TBS_PTM_STAT_MISSED)
      let s := { s with tbs := { s.tbs with ptmBusy := false, ptmFirst := true, ptmBad := bad, ptmGood := 0 } }
      if 3 ≤ bad then s.ptmLose else s)

/-- GTC_STEP (R40, R43): at the frame tick, forward by the whole offset, if the conditions still hold. -/
def execGtcStep (s : State) : Host.Outcome State Fault Refusal :=
  .next (
    match s.reqs.find? fun x => match x.1 with | .gtcStep _ => decide (x.2 < s.tickClk) | _ => false with
    | some (.gtcStep ns, _) =>
      if !s.atTick then s
      else
        let s := s.drop (.gtcStep ns)
        if stepAllowed s then
          let g := s.gtc + ns * 2 ^ 24
          let s := { s with gtc := g, tickGtc := g, tbs := { s.tbs with ptmFirst := true, ptmT1 := s.tbs.ptmT1 + ns } }
          s.wr64 Reg.TBS_TICK_GTC_LO s.now
        else { s.wrS F.TBS_GTC_RATE_RATE 32767 with tbs := { s.tbs with slew := true } }
    | _ => s)

/-! ### SYNC (R46 to R48) -/

def syncMode (s : State) : Nat := s.rd F.TBS_SYNC_CTRL_MODE

def isFollower (s : State) : Bool := 2 ≤ syncMode s

/-- SYNC LOCK clears (R48): LOST, source 20 and its event. -/
def State.syncLose (s : State) : State :=
  let s := { s with tbs := { s.tbs with syncGood := 0 } }
  if s.flag F.TBS_SYNC_STAT_LOCK then
    let s := ((s.wr F.TBS_SYNC_STAT_LOCK 0).sqc F.TBS_SYNC_STAT_LOST).trip 20
    s.devEvent 0x0006 (if s.flag F.TBS_SYNC_STAT_MISMATCH then 1 else 0) 0 0 true
  else s

/-- The phase errors, own tick less target, of an edge `late` ns after the present clock (R47): against the tick of this
frame and against the next, in ns. -/
def syncErrors (s : State) (late : Nat) : Int × Int :=
  let target : Int := 4 * s.clk + late - 4 * s.rd F.TBS_SYNC_CTRL_DELAY
  (4 * s.tickClk - target, 4 * (s.tickClk + s.period) - target)

/-- The tick that an edge belongs to, as FRAME counts ticks: this frame's, or the next where that is nearer (R47). -/
def syncTickOf (s : State) (late : Nat) : Nat × Int :=
  let e := syncErrors s late
  if e.1.natAbs ≤ e.2.natAbs then (s.rd F.TBS_FRAME_CNT_FRAME, e.1) else ((s.rd F.TBS_FRAME_CNT_FRAME + 1) % 2 ^ 32, e.2)

/-- An edge lies within ±1 µs of the expected time (R48): of the device's own tick while it is locked; while it acquires, of
a whole number of periods after the edge last used, the first edge giving the expected time (log entry 30). -/
def syncUsable (s : State) (t : Nat) (e : Int) : Bool :=
  if s.flag F.TBS_SYNC_STAT_LOCK then decide (e.natAbs ≤ 1000)
  else
    match s.tbs.syncUsed with
    | none => true
    | some u =>
      let r := (t - u) % s.tfNs
      decide (s.tfNs ≤ t - u + 1000 ∧ (r ≤ 1000 ∨ s.tfNs ≤ r + 1000))

/-- A usable edge: PHASE, the error still to be removed, and the run of good frames (R47, R48). The error against this
frame's tick counts what the frame's own change of length already removes of it. -/
def State.syncUse (s : State) (t n : Nat) (e : Int) (mismatch : Bool) : State :=
  let s := s.wrS F.TBS_SYNC_STAT_PHASE (clampInt (-127) 127 (roundRat ((e : Rat) / 4)))
  let good :=
    if mismatch ∨ 12 < e.natAbs then 0
    else if n = s.tbs.syncGoodNo then s.tbs.syncGood
    else if n = (s.tbs.syncGoodNo + 1) % 2 ^ 32 then s.tbs.syncGood + 1
    else 1
  let own : Bool := n == s.rd F.TBS_FRAME_CNT_FRAME
  let left := -(roundRat ((e : Rat) / 4)) - (if own then s.tbs.trim else 0)
  let now := own && !s.anyEnergised
  let s := { s with tbs := { s.tbs with
    syncUsed := some t, edgeSeen := true, syncMiss := 0, syncGood := good, syncGoodNo := n,
    syncErr := if now then 0 else left, trim := s.tbs.trim + (if now then left else 0) } }
  if 16 ≤ good && !s.flag F.TBS_SYNC_STAT_LOCK then
    (s.wr F.TBS_SYNC_STAT_LOCK 1).devEvent 0x0005 (s.rd F.TBS_SYNC_STAT_PHASE) 0 0 false
  else s

/-- SYNC_IN_EDGE (R47, R48): a rising edge, `late` of the 4 ns after its clock. One whose distance from the edge before it is
not TF within 1 µs sets MISMATCH and ends the run of good frames. -/
def execSyncInEdge (late : Fin 4) (s : State) : Host.Outcome State Fault Refusal :=
  .next (
    if !isFollower s || !s.ticking || !s.powered 5 then s
    else
      let t := 4 * s.clk + late.val
      let mismatch := match s.tbs.syncEdge with
        | some u => decide (s.tfNs + 1000 < t - u ∨ t - u + 1000 < s.tfNs)
        | none => false
      let s := { s with tbs := { s.tbs with syncEdge := some t } }
      let x := syncTickOf s late.val
      let s := if mismatch then
          { s.sqc F.TBS_SYNC_STAT_MISMATCH with tbs := { s.tbs with syncGood := 0 } } else s
      if syncUsable s t x.2 then s.syncUse t x.1 x.2 mismatch else s)

/-- SYNC_LOST (R48): four consecutive frames without a usable edge. -/
def execSyncLost (s : State) : Host.Outcome State Fault Refusal :=
  .next (
    if isFollower s && s.flag F.TBS_SYNC_STAT_LOCK && 4 ≤ s.tbs.syncMiss then s.syncLose else s)

/-- What the frame tick does to the follower's frame (R47, R48): the error left is taken in the new frame, one core clock of
it while an axis is energised; after four frames without a usable edge the device keeps its own PERIOD. -/
def State.syncTick (s : State) : State :=
  let t := s.tbs
  let miss := if isFollower s then (if t.edgeSeen then 0 else t.syncMiss + 1) else 0
  let err := if isFollower s && miss < 4 then t.syncErr else 0
  let step := if s.anyEnergised then clampInt (-1) 1 err else err
  { s with tbs := { t with trim := step, syncErr := err - step, edgeSeen := false, syncMiss := miss,
                           syncUsed := if miss < 4 then t.syncUsed else none } }

/-- SYNC_OUT rises at a frame tick where the mode gives the device's own tick, and is low otherwise (R46). -/
def State.syncRises (s : State) : State :=
  let out := (syncMode s = 1 || syncMode s = 3) && s.atTick
  { s with tbs := { s.tbs with syncRise := if out then some s.clk else none } }

/-- The level of SYNC_OUT: high for 64 core clocks from its rise (R46). -/
def syncOut (s : State) : Bool := s.tbs.syncRise.any fun c => s.clk < c + 64

/-- A mode comes into force (R46, R49): it governs the pulse of its own tick; out of the follower modes LOCK clears and LOST
is set. -/
def State.syncMoved (s : State) : State :=
  let s := s.syncRises
  if isFollower s then s
  else
    let s := { s with tbs := { s.tbs with
      trim := 0, syncErr := 0, syncGood := 0, syncMiss := 0, syncEdge := none, syncUsed := none, edgeSeen := false } }
    if s.flag F.TBS_SYNC_STAT_LOCK then (s.wr F.TBS_SYNC_STAT_LOCK 0).sqc F.TBS_SYNC_STAT_LOST else s

end Sys2Proof.Machine
end

