-- ==== Sys2Proof/Machine/Tick.lean ====
section
/-! DEFINITION. The frame tick and the half-frame tick: the hand-offs that fall on them (R14, R24, R29, R34). -/

namespace Sys2Proof.Machine

/-! ### Setpoints (R168, R190, R192) -/

/-- i_ff in mA, limited to IMAX and to the clamp of a closing segment (R168); with k_F zero there is no feed-forward. -/
def feedForward (s : State) (n : Axis) (v a : Rat) : Rat :=
  if kf s n = 0 then 0
  else
    let i := (massForce s n a + 100 * (s.rd (F.MPL_FRIC_FRIC n) : Rat) * signRat v) / kf s n
    let imax : Rat := s.rd (F.MPL_FMAX_IMAX n)
    let i := clampRat (-imax) imax i
    match closingClamp s n with
    | some c => clampRat (-c) c i
    | none => i

/-- The offset, in 4 ns units, of a planned start that falls into the half-frame that begins now (R62, R168). -/
def startOffset (s : State) (n : Axis) : Option Nat :=
  match (s.plan n).galley.find? (fun g => !g.begun) with
  | some g =>
    let t := timeZero g.t1
    if isMotion g.op && s.now ≤ t && t < s.now + 2 * s.period then some ((t - s.now + 2) / 4) else none
  | none => none

/-- CLP takes the setpoint of an axis, and with it the Headland's braking part (R14, R168); TRAVEL counts (R450). -/
def giveSetpoint (s : State) (n : Axis) : State :=
  let r := refNow s n
  let moved := absRat (r.1 - (s.clp n).xRef) * s.rd (F.MPL_SCALE_SCALE n) / 10000000000
  let s := if s.energised n && moved ≠ 0 then s.addPart (68 + 12 * n.val) moved else s
  let s := s.setClp n { s.clp n with start := startOffset s n, xRef := r.1, vRef := r.2.1, aRef := r.2.2,
                                     iff := feedForward s n r.2.1 r.2.2 }
  s.setPlan n { s.plan n with stopRamp := headland s.now r.1 r.2.1 r.2.2 (hdec s n) (hjerk s n) }

/-! ### The step follower (R190, R191) -/

/-- A ramp time before its planned end a finite FOLLOW_STEP takes no more steps (R191). -/
def stepsStop (s : State) (g : Seg) (l : Limits) : Bool :=
  let r := rampClocks l.v l.a l.j
  match g.t2 with
  | some e => decide (e ≤ s.now + 4 * (2 * r.1 + r.2))
  | none => false

/-- The target moves by SCALE for every step since the last half-frame; what a travel limit clips is discarded (R190). -/
def followTarget (s : State) (n : Axis) (g : Seg) (l : Limits) (f : Follow) : Follow :=
  let steps := (s.fbk ⟨stepSource s n % 32, by omega⟩).steps
  let moved : Rat := if stepsStop s g l then 0 else (g.d.u32 16 : Nat) * (steps - f.base : Int)
  { f with base := steps, target := clampRat (travelMin s n) (travelMax s n) (f.target + moved) }

/-- A reference state (x, v, a), h seconds along a list of phases that ends at rest in xEnd. -/
def along (ps : List Phase) (r : Rat × Rat × Rat) (xEnd h : Rat) : Rat × Rat × Rat := walkPhases ps r.1 r.2.1 r.2.2 xEnd h

/-- The braking of the follower: that of R174 under its own envelope. -/
def followBrake (l : Limits) (r : Rat × Rat × Rat) : Motion := headland 0 r.1 r.2.1 r.2.2 l.a l.j

/-- A reference state one half-frame on is allowed (R190): inside VMAX and AMAX, and able to come to rest no further than the
target and by the planned end, both taken along dir. -/
def followFits (l : Limits) (dir target : Rat) (left : Option Rat) (r : Rat × Rat × Rat) : Bool :=
  let b := followBrake l r
  let a := dir * r.2.2
  a ≤ l.a && dir * r.2.1 + (if 0 < a then a * a / (2 * l.j) else 0) ≤ l.v && 0 ≤ dir * (target - b.xEnd) &&
  (match left with | some q => decide (phasesTime b.phases ≤ q) | none => true)

/-- The braking that ends at the target: a cruise is put in front of it that covers what it would leave (R190). -/
def followLand (l : Limits) (r : Rat × Rat × Rat) (short : Rat) : List Phase :=
  let pre : List Phase := (followBrake l r).phases.take (if 0 < signRat r.2.1 * r.2.2 then 1 else 0)
  let top := (boundaryStates pre r.1 r.2.1 r.2.2).getLastD r
  pre ++ [⟨short / absRat top.2.1, 0⟩] ++ (followBrake l (top.1, top.2.1, 0)).phases

/-- Where the reference is one half-frame on (R190). It speeds up while it can still stop at the target, by a jerk of at
most JMAX along dir that the spec leaves open (jerk, log entry 80), keeps its acceleration, or comes to rest: at the target,
or, where that is too near, as soon as it can. `left` is the time there is until a planned end. -/
def followNext (l : Limits) (r : Rat × Rat × Rat) (target jerk h : Rat) (left : Option Rat) : Rat × Rat × Rat :=
  let b := followBrake l r
  let short := target - b.xEnd
  let dir := signRat short
  let later := left.map (· - h)
  if r.2.1 = 0 ∧ r.2.2 = 0 then
    match planMove 0 r.1 target l.v l.a l.a l.j with
    | some p =>
      if left.all fun q => decide (phasesTime p.mo.phases ≤ q) then along p.mo.phases r target h else r
    | none => (target, 0, 0)
  else if short = 0 ∨ dir ≠ signRat (b.xEnd - r.1) then along b.phases r b.xEnd h
  else
    let fast := phaseStep r.1 r.2.1 r.2.2 (dir * jerk) h
    let even := phaseStep r.1 r.2.1 r.2.2 0 h
    if followFits l dir target later fast then fast
    else if 0 < dir * r.2.2 ∧ followFits l dir target later even then even
    else if 0 ≤ dir * r.2.2 then
      let ps := followLand l r (absRat short)
      if left.all fun q => decide (phasesTime ps ≤ q) then along ps r target h else along b.phases r b.xEnd h
    else along b.phases r b.xEnd h

/-- One half-frame of the step follower (R190 to R192). Half a frame is kept back so that it rests at a planned end. -/
def followStep (s : State) (n : Axis) : State :=
  match (s.plan n).follow, inProg s n with
  | some f, some g =>
    let l := limitsOf s n 7 g.d
    let f := followTarget s n g l f
    let h := s.halfSec
    let left : Option Rat := g.t2.map fun e => ((e : Rat) - s.now) / 1000000000 - h
    let jerk : Rat := (l.j : Rat) * (s.drawn % 65536 + 1 : Nat) / 65536
    let r := if l.a = 0 || l.j = 0 then (f.x, 0, 0) else followNext l (f.x, f.v, f.a) f.target jerk h left
    let lag := decide ((s.rd (F.MPL_FOLLOW_LAG n) : Rat) < absRat (f.target - r.1))
    let s := (s.setPlan n { s.plan n with follow := some { f with x := r.1, v := r.2.1, a := r.2.2, lagging := lag } }).draw
    if lag && !f.lagging then s.detect (128 + 16 * n.val + 11) else s
  | _, _ => s

/-- A bank whose setpoints do not come (R24): no working core serves it, or the hand-over says so. -/
def setpointMissing (s : State) (missed : List Bank) (b : Bank) : Bool :=
  s.powered (8 + b.val) && s.flag F.LCS_LC_STAT_READY && !s.halted && !s.inHeld &&
  (missed.contains b || !coreWorks s b) && (missed.contains b || s.bankEnergised b)

/-- A bank's setpoints come, and its followers move, or they are missing: the first of a run raises the source (R24, R427).
-/
def reference (missed : List Bank) (s : State) (b : Bank) : State :=
  if setpointMissing s missed b then
    let run := (s.bank b).missRun + 1
    let s := s.setBank b { s.bank b with missRun := run }
    if run = 1 then s.detect (64 + 16 * b.val + 5) else s
  else
    let s := s.setBank b { s.bank b with missRun := 0 }
    if s.halted then s else each (axesOfBank b) followStep s

/-- Where setpoints are missing, CLP runs the last stop ramp of each energised axis (R24). -/
def missBank (s : State) (b : Bank) : State :=
  each ((axesOfBank b).filter s.energised) (fun s n =>
    let p := s.plan n
    let s := if p.ref = p.stopRamp then s else s.setPlan n { p with ref := p.stopRamp, follow := none }
    let r := refNow s n
    s.setClp n { s.clp n with xRef := r.1, vRef := r.2.1, aRef := r.2.2, iff := feedForward s n r.2.1 r.2.2 }) s

/-- CLP takes the setpoints of a bank's axes. -/
def handOver (s : State) (b : Bank) : State :=
  if (s.bank b).missRun ≠ 0 then missBank s b
  else if s.halted then s
  else each (axesOfBank b) giveSetpoint s

/-! ### The work of every half-frame tick -/

/-- Reversals and curtailments that wait for this half-frame begin to brake (R175, R185); one that ends with its gate
enables removed is watched as an SS1 from here on (R186). -/
def beginDue (s : State) (n : Axis) : State :=
  match (s.plan n).leave with
  | some l =>
    if !l.begun && 4 ≤ causeRank l.cause && l.due ≤ s.clk then
      let r := refNow s n
      let s := match s.ss1 n with
        | some x => if l.gatesOff && x.begun.isNone then
            s.setSs1 n (some { x with begun := some s.clk, v0 := absRat r.2.1, af := max 0 (signRat r.2.1 * r.2.2) }) else s
        | none => s
      s.beginLeave n
    else s
  | none => s

/-- A waiting block goes out when no higher class is in the way: the spec gives the DMA engine no timing, so whether it does
at this chance is free (R97, R118, log entry 100). It is dropped where the port cannot send (R121). -/
def State.issueBlock (s : State) (i : Fin 8) : State :=
  let x := s.stream i
  match x.wait with
  | none => s
  | some w =>
    if !s.canSend w.port then (s.setStream i { x with wait := none }).dropBlock i
    else if s.drawn % 2 = 1 then s.draw
    else
      let s := each w.parts (fun s x => s.emit (.block w.port i x.last x.addr x.words)) s.draw
      (s.wr (F.HIF_TLM_TAIL_TAIL i) ((s.rd (F.HIF_TLM_TAIL_TAIL i) + w.bytes) % 2 ^ 32)).setStream i
        { x with gap := false, wait := none }

/-- An active stream counts the half-frame (R140), and a block that waits may go out. -/
def streamTick (s : State) (i : Fin 8) : State :=
  let s := s.issueBlock i
  if s.flag (F.HIF_TLM_STAT_ACTIVE i) then s.setStream i { s.stream i with count := (s.stream i).count + 1 } else s

/-- The gate stage of a bank at a marker (R261, R270): gates held for lost edges follow again once the source is no longer
latched, and the mean supply code of the half-frame is taken. -/
def bankTick (s : State) (b : Bank) : State :=
  let g := s.gdr b
  let mean := if g.cnt = 0 then none else some ((g.sum : Rat) / g.cnt)
  if s.powered (8 + b.val) then
    let s := s.setGdr b { g with markAt := s.clk, sum := 0, cnt := 0, mean }
    let s := if g.edgeLost then s.inactive (74 + 16 * b.val) else s
    if g.edgeLost && !(s.src (74 + 16 * b.val)).severe then
      let s := s.setGdr b { s.gdr b with edgeLost := false }
      each (hbsOfBank b) (fun s h => s.setHb h { s.hb h with edge := false }) s
    else s
  else s.setGdr b { g with sum := 0, cnt := 0, mean }

/-- What is found at a half-frame tick: LES hands over (R233), setpoints come or are missing, followers move. The sources
found act together, the lowest first (R50). -/
def halfFinds (missed : List Bank) (s : State) : State :=
  s.finding fun s => each allBanks (reference missed) (each allAxes (fun s n => (lesHandoff s n).readFriction n) s)

/-- VSAT and ILIM are those of the latest half-frame (R206): they go with one in which no coil A step ran. -/
def State.clpTick (s : State) (n : Axis) : State :=
  let s := if (s.clp n).ran then s else (s.wr (F.CLP_STAT_VSAT n) 0).wr (F.CLP_STAT_ILIM n) 0
  if (s.clp n).ran then s.setClp n { s.clp n with ran := false } else s

/-- The tick's work: what CLP's half-frame did is closed, what is due begins to brake, CLP takes the setpoints, and the
streams count. Records stand in the order of R50. -/
def halfWork (missed : List Bank) (s0 : State) : State :=
  let s := halfFinds missed s0
  let s := each allAxes (fun s n => s.clpTick n) s
  let s := each allAxes beginDue s
  let s := each allBanks handOver s
  let s := each allBanks (fun s b => s.curtSettle b) s
  let s := each (List.finRange 8) streamTick s
  State.arranged s0 (each allBanks bankTick s)

/-- HALF_FRAME_TICK (R29, R24, R233): at TF/2. -/
def execHalfFrameTick (missed : List Bank) (s : State) : Host.Outcome State Fault Refusal :=
  .next (
    if !s.ticking || s.half then s
    else
      let s := s.advTo (s.tickClk + s.period / 2)
      halfWork missed { s with half := true })

/-! ### The frame tick -/

/-- A CALIBRATE SLICE whose start has come begins (R298): with the resting slice, or on a bank with a failed one with the
lowest-numbered slice in service that is idle. Where the bank's analog domain has gone off meanwhile it ends with FAULT and
that domain's source (DESIGN CHOICE, log entry 112). -/
def calSlice (s : State) (o : Op) : State :=
  let b := o.d.bank
  let begun := fun s : State =>
    (s.setOp { o with begun := true }).setAdc b { s.adc b with calAt := s.clk, calDone := false }
  if !s.powered (12 + b.val) then s.finish o.tag .fault (if o.begun then o.t1 else 0) s.now (64 + 16 * b.val + 12) 0
  else if o.begun then s
  else if s.rd (F.ADC_ROT_FAILED b) = 0 then begun s
  else
    match (inService s b).find? fun q => (s.adc b).busy[q] ≤ s.clk with
    | some q =>
      begun ((s.wr (F.ADC_ROT_INSVC b) (s.rd (F.ADC_ROT_INSVC b) - 2 ^ q.val)).wr (F.ADC_ROT_REST b) q.val)
    | none => s

/-- Operations that begin at a frame tick: CALIBRATE (R207, R298). An identification leaves its axis de-energised 100 ms on.
-/
def calStart (s : State) (o : Op) : State :=
  let scope := o.d.u8 16
  if o.op ≠ 0x1B then s
  else if scope = 0 then (if s.now ≤ o.t1 then s else calSlice s o)
  else if o.begun then
    (if scope = 2 && decide (o.data.headD s.clk + msClk 100 ≤ s.clk) && s.energised o.d.axis then s.deenergise o.d.axis else s)
  else if scope = 1 then
    if s.now ≤ o.t1 then s
    else each (allBanks.filter fun b => s.powered (12 + b.val))
      (fun s b => s.setAdc b { s.adc b with full := some s.clk }) (s.setOp { o with begun := true })
  else if s.now < o.t1 then s
  else
    let s := s.setOp { o with begun := true, data := [s.clk] }
    if s.covered o.d.axis || !bankReady s (bankOfAxis o.d.axis) then s else s.energise o.d.axis

/-- What a context's fetching starts from (R107, R110). -/
def snapCtx (s : State) (k : Ctx) : State :=
  let free := cqSize s k - idxDiff (s.rd (F.HIF_CTX_CQ_TAIL_TAIL k)) (s.rd (F.HIF_CTX_CQ_HEAD_HEAD k))
  (s.wr (F.HIF_CTX_STAT_CQ_WAIT k) 0).setCtx k
    { s.ctx k with snapDb := (s.before (Reg.HIF_CTX_DB k)).toNat, snapF := free, snapI := s.infl k, due := 0 }

/-- HIF fetches: READY is set or the device is in HELD, and no FALLOW-2 or deeper (R400, R409, R410). -/
def hifServes (s : State) : Bool :=
  (s.flag F.LCS_LC_STAT_READY || s.inHeld) && s.rd F.PMU_STAT_STATE < 3

/-- The doorbell-page read of a port, or, where the port reads no page, its MMIO contexts (R107). -/
def portTick (s : State) (p : Port) : State :=
  if hifServes s && s.fetches p then
    if dbBase s p ≠ 0 then
      (s.setPort p { s.port p with page := true, mmio := false }).readHost p .page (dbBase s p) 256
    else s.setPort p { s.port p with page := false, mmio := true }
  else s.setPort p { s.port p with page := false, mmio := false }

/-- The minutes of R450: with D1 powered, and with an axis of a bank energised. -/
def countMinutes (s : State) : State :=
  let q : Rat := ((s.clk - s.cnd.minute : Nat) : Rat) / (60 * clkHz)
  let s := { s with cnd := { s.cnd with minute := s.clk } }
  let s := if s.powered 1 then s.addPart 8 q else s
  each (allBanks.filter s.bankEnergised) (fun s b => s.addPart (16 + 4 * b.val) q) s

/-- FRAME_TICK (R34, R29, R37, R46, R107, R301): the raw auxiliary codes of the ending frame, the amplifier offsets
measured in it, and the banks whose setpoints did not come. -/
def execFrameTick (raws : List (Fin 64 × List Raw)) (offs : List (Coil × BitVec 16)) (missed : List Bank) (s : State) :
    Host.Outcome State Fault Refusal :=
  .next (
    if !s.ticking then s
    else
      let s := (each allBanks (fun s b => auxRun s b (s.tickClk + s.period)) s).advTo (s.tickClk + s.period)
      let s := { s with tickClk := s.clk, tickGtc := s.gtc, half := false, latches := 0, cutoff := false,
                        horizon := s.rd F.TBS_ADMIT_HORIZON }
      let s0 := s
      let s := (s.inactive 34).syncTick
      let s := (s.wr F.TBS_FRAME_CNT_FRAME ((s.rd F.TBS_FRAME_CNT_FRAME + 1) % 2 ^ 32)).wr64 Reg.TBS_TICK_GTC_LO s.now
      let s := countMinutes s.syncRises
      let s := auxPublish raws s
      let s := takeOffsets offs s
      let s := halfWork missed s
      let s := each allAxes (fun s n => if (s.fbk n).idxSeen then s.setFbk n { s.fbk n with idxSeen := false } else s) s
      let s := each s.ops calStart s
      let s := (each allCtxs snapCtx s).dwellTick
      State.arranged s0 (portTick (portTick s .A) .B).mmioServe)

end Sys2Proof.Machine
end

