-- ==== Sys2Proof/Machine/Gdr.lean ====
section
/-! DEFINITION. The gate drivers and the power stage: detectors, supply, temperature and STO (R254 to R286). -/

namespace Sys2Proof.Machine

/-! ### Detectors (R262 to R266) -/

/-- D12+b is powered: the gate stages, amplifiers and monitors of the bank run. -/
def analogOn (s : State) (b : Bank) : Bool := s.powered (12 + b.val)

/-- GDR_STAT records a detector and the half-bridge of the latest event (R266, R283). -/
def State.gdrStat (s : State) (b : Bank) (f : Fld) (h : HalfBridge) : State :=
  (s.sqc f).wr (F.GDR_STAT_LAST_H b) (h.val % 32)

/-- A coil-level trip (R262, R264, R266): both half-bridges trip, it counts once, LAST_H is the leg-1 half-bridge. -/
def coilTrip (s : State) (p : Coil) (f : Nat → Fld) (i : Nat) : State :=
  let l := legs p
  let b := bankOfCoil p
  let s := (s.tripHb l.1).tripHb l.2
  (s.gdrStat b (f b) l.1).trip (128 + 16 * (axisOfCoil p).val + i) (loc := true)

/-- COIL_OVERCURRENT_TRIP (R262): the filtered comparator asserts; OCTH = 0 disables it. -/
def execCoilOvercurrentTrip (p : Coil) (s : State) : Host.Outcome State Fault Refusal :=
  .next (
    let b := bankOfCoil p
    if !analogOn s b || s.rd (F.GDR_OC_OCTH b) = 0 then s else coilTrip s p F.GDR_STAT_OC 0)

/-- DIDT_TRIP (R264): EN clear disables the detector. -/
def execDidtTrip (p : Coil) (s : State) : Host.Outcome State Fault Refusal :=
  .next (
    let b := bankOfCoil p
    if !analogOn s b || !s.flag (F.GDR_DIDT_EN b) then s else coilTrip s p F.GDR_STAT_DIDT 1)

/-- A trip of one half-bridge (R263, R265, R266). -/
def hbTrip (s : State) (h : HalfBridge) (f : Nat → Fld) (i : Nat) : State :=
  let b := bankOfHb h
  ((s.tripHb h).gdrStat b (f b) h).trip (128 + 16 * (axisOfHb h).val + i) (loc := true)

/-- SWITCH_SATURATION_TRIP (R263): VDSTH = 0 disables the comparator. -/
def execSwitchSaturationTrip (h : HalfBridge) (s : State) : Host.Outcome State Fault Refusal :=
  .next (
    let b := bankOfHb h
    if !analogOn s b || s.rd (F.GDR_VDS_VDSTH b) = 0 then s else hbTrip s h F.GDR_STAT_VDS 0)

/-- BOOTSTRAP_UV_TRIP (R265): not twice in one period. -/
def execBootstrapUvTrip (h : HalfBridge) (s : State) : Host.Outcome State Fault Refusal :=
  .next (
    if !analogOn s (bankOfHb h) || (s.hb h).bst then s
    else hbTrip (s.setHb h { s.hb h with bst := true }) h F.GDR_STAT_BST 2)

/-! ### Trip inputs (R276) -/

def tripEn (s : State) (b : Bank) (second : Bool) : Bool :=
  if second then s.flag (F.GDR_TRIP_CFG_ENB b) else s.flag (F.GDR_TRIP_CFG_ENA b)

def tripCycle (s : State) (b : Bank) (second : Bool) : Bool :=
  if second then s.flag (F.GDR_TRIP_CFG_MODEB b) else s.flag (F.GDR_TRIP_CFG_MODEA b)

def State.setIn (s : State) (b : Bank) (second v : Bool) : State :=
  if second then s.setGdr b { s.gdr b with inB := v } else s.setGdr b { s.gdr b with inA := v }

/-- TRIP_INPUT (R276): the filtered input of TRIPbA, or of TRIPbB, reaches its active level. In CYCLE mode every
half-bridge of the bank trips. With EN clear, or D8+b off, the input is ignored; with D12+b alone off only its source acts
(R403, R404). -/
def execTripInput (b : Bank) (second : Bool) (s : State) : Host.Outcome State Fault Refusal :=
  .next (
    let was := if second then (s.gdr b).inB else (s.gdr b).inA
    if was || !s.powered (8 + b.val) || !tripEn s b second then s
    else
      let s := s.setIn b second true
      let src := 64 + 16 * b.val + (if second then 3 else 2)
      if !analogOn s b then s.trip src (active := true)
      else
        let cyc := tripCycle s b second
        let s := if cyc then each (hbsOfBank b) (fun s h => s.tripHb h) s else s
        let s := s.sqc (if second then F.GDR_STAT_TRIPB b else F.GDR_STAT_TRIPA b)
        s.trip src (active := true) (loc := cyc))

/-- TRIP_INPUT_RELEASE (R276): the filtered input is inactive again and its source is no longer ACTIVE. -/
def execTripInputRelease (b : Bank) (second : Bool) (s : State) : Host.Outcome State Fault Refusal :=
  .next ((s.setIn b second false).inactive (64 + 16 * b.val + (if second then 3 else 2)))

/-! ### Gates (R256 to R261, R267) -/

/-- SOFT_TURNOFF_STEP2 (R267): after the hold of step 1 the gates are sunk to their references. -/
def execSoftTurnoffStep2 (h : HalfBridge) (s : State) : Host.Outcome State Fault Refusal :=
  .next (
    match (s.hb h).soft with
    | some x =>
      let s := s.advTo x.step2
      s.setHb h { s.hb h with soft := none }
    | none => s)

/-- GATE_PATH_FAULT (R256): a gate of h has not risen or fallen 2 µs after its command edge. -/
def execGatePathFault (h : HalfBridge) (s : State) : Host.Outcome State Fault Refusal :=
  .next (
    let b := bankOfHb h
    if !analogOn s b then s
    else (s.gdrStat b (F.GDR_STAT_GATE b) h).trip (128 + 16 * (axisOfHb h).val + 3))

/-- INTERLOCK_ACTED (R259): both commands reach the stage together; both gates are held off, until the commands of the next
reload (log entry 119). -/
def execInterlockActed (h : HalfBridge) (s : State) : Host.Outcome State Fault Refusal :=
  .next (
    let b := bankOfHb h
    if !analogOn s b then s
    else
      let s := s.setHb h { s.hb h with ilk := true }
      (s.gdrStat b (F.GDR_STAT_ILK b) h).trip (64 + 16 * b.val + 8))

/-- The brake output turns off (R271, R260). -/
def brakeOff (s : State) (b : Bank) : State :=
  ((s.wr (F.GDR_VMS_BRK b) 0).setGdr b { s.gdr b with brkAt := none, brkOver := false }).inactive (64 + 16 * b.val + 9)

/-- VG_UNDERVOLTAGE (R257): below 7.0 V every gate output of the bank, BRKb among them (R253), is held off by full sink. -/
def execVgUndervoltage (b : Bank) (s : State) : Host.Outcome State Fault Refusal :=
  .next (
    if !analogOn s b || (s.gdr b).vgLow then s
    else
      let s := s.setGdr b { s.gdr b with vgLow := true }
      let s := each (hbsOfBank b) (fun s h => s.setHb h { s.hb h with vg := true, soft := none }) s
      let s := if s.flag (F.GDR_VMS_BRK b) then brakeOff s b else s
      (s.sqc (F.GDR_STAT_VGUV b)).trip (64 + 16 * b.val + 6) (active := true))

/-- VG_RECOVERED (R257): above 7.5 V; each gate follows its command from its carrier's next reload, the brake its from the
next sample. -/
def execVgRecovered (b : Bank) (s : State) : Host.Outcome State Fault Refusal :=
  .next (
    if (s.gdr b).vgLow then
      (s.setGdr b { s.gdr b with vgLow := false }).inactive (64 + 16 * b.val + 6)
    else s)

/-- PWM_EDGES_LOST (R261): no half-frame marker for TF + 1 µs; every gate of the bank is turned off in two steps. -/
def execPwmEdgesLost (b : Bank) (s : State) : Host.Outcome State Fault Refusal :=
  .next (
    if !analogOn s b || (s.gdr b).edgeLost then s
    else
      let s := s.advTo ((s.gdr b).markAt + s.period + usClk 1)
      let s := each (hbsOfBank b) (fun s h =>
        let s := s.softStart h
        s.setHb h { s.hb h with edge := true }) s
      let s := s.setGdr b { s.gdr b with edgeLost := true }
      (s.sqc (F.GDR_STAT_EDGE b)).trip (64 + 16 * b.val + 10) (active := true))

/-! ### Motor supply and brake (R270 to R273) -/

/-- The brake output under R271, its counters and quantity 4 (R434): the drop from the sample before a turn-on to the second
one after it, over V_ON / R_BRK. -/
def brakeSample (s : State) (b : Bank) (old code : Nat) : State :=
  let on := s.flag (F.GDR_VMS_BRK b)
  if !on && !(s.gdr b).vgLow && s.rd (F.GDR_VMS_BRK_ON b) ≤ code then
    let s := ((s.wr (F.GDR_VMS_BRK b) 1).cnt (F.GDR_VMS_BRKCNT b)).addCounter (32 + 4 * b.val)
    let s := s.setGdr b { s.gdr b with brkAt := some s.clk, brkOver := false }
    { s with cnd := { s.cnd with before := (s.cnd.before.filter fun x : Nat × Nat × Nat => x.1 ≠ b.val) ++ [(b.val, old, 0)] } }
  else if on && code ≤ s.rd (F.GDR_VMS_BRK_OFF b) then
    brakeOff s b
  else s

/-- The mean of the latest 64 drops, in 0.1 mΩ (R434, log entry 31). -/
def esrSample (s : State) (b : Bank) (code : Nat) : State :=
  let rest := s.cnd.before.filter fun x : Nat × Nat × Nat => x.1 ≠ b.val
  match s.cnd.before.find? fun x : Nat × Nat × Nat => x.1 = b.val with
  | none => s
  | some (_, v0, 0) => { s with cnd := { s.cnd with before := rest ++ [(b.val, v0, 1)] } }
  | some (_, v0, _) =>
    let s := { s with cnd := { s.cnd with before := rest } }
    let r := s.rd (F.CND_BRK_RBRK b)
    let von := s.rd (F.GDR_VMS_BRK_ON b)
    if r = 0 ∨ von = 0 then s
    else
      let esr : Rat := ((v0 : Rat) - code) * r * 100 / von
      let own := ((s.cnd.drops.filter fun x : Nat × Rat => x.1 = b.val).map (·.2)).take 63
      let all := esr :: own
      let s := { s with cnd := { s.cnd with
        drops := all.map (fun q => (b.val, q)) ++ s.cnd.drops.filter fun x : Nat × Rat => x.1 ≠ b.val } }
      s.reading 4 b.val (roundRat (all.foldl (· + ·) 0 / (all.length : Rat)))

/-- Over- and under-voltage, once per excursion, re-armed by eight samples on the safe side (R272). -/
def supplySources (s : State) (b : Bank) (code : Nat) : State :=
  let ov := s.rd (F.GDR_VMS_LIM_OV b)
  let uv := s.rd (F.GDR_VMS_LIM_UV b)
  let g := s.gdr b
  let g := { g with ovRun := if ov ≤ code then g.ovRun + 1 else 0,
                    ovSafe := if ov ≤ code then 0 else g.ovSafe + 1,
                    uvRun := if code < uv then g.uvRun + 1 else 0,
                    uvSafe := if code < uv then 0 else g.uvSafe + 1,
                    uvGood := if uv ≤ code then g.uvGood + 1 else 0 }
  let g := { g with uvArmed := g.uvArmed || 8 ≤ g.uvGood }
  let ovEnd := g.ovOut && 8 ≤ g.ovSafe
  let uvEnd := g.uvOut && 8 ≤ g.uvSafe
  let ovNew := !g.ovOut && 2 ≤ g.ovRun
  let uvNew := g.uvArmed && !g.uvOut && 8 ≤ g.uvRun
  let s := s.setGdr b { g with ovOut := (g.ovOut && !ovEnd) || ovNew, uvOut := (g.uvOut && !uvEnd) || uvNew }
  let s := if ovEnd then s.inactive (64 + 16 * b.val) else s
  let s := if uvEnd then s.inactive (65 + 16 * b.val) else s
  let s := if ovNew then (s.sqc (F.GDR_VMS_OV b)).trip (64 + 16 * b.val) (active := true) else s
  if uvNew then (s.sqc (F.GDR_VMS_UV b)).trip (65 + 16 * b.val) (active := true) else s

/-- MOTOR_SUPPLY_SAMPLE (R270 to R272): one conversion of VMSb. -/
def execMotorSupplySample (b : Bank) (code : BitVec 10) (s : State) : Host.Outcome State Fault Refusal :=
  .next (
    if !analogOn s b then s
    else
      let old := s.rd (F.GDR_VMS_VM b)
      let s := s.wr (F.GDR_VMS_VM b) code.toNat
      let s := s.setGdr b { s.gdr b with sum := (s.gdr b).sum + code.toNat, cnt := (s.gdr b).cnt + 1 }
      let s := brakeSample (esrSample s b code.toNat) b old code.toNat
      supplySources s b code.toNat)

/-- BRAKE_ON_TIME_EXCEEDED (R273): MAXON ms of brake without interruption; the brake stays. -/
def execBrakeOnTimeExceeded (b : Bank) (s : State) : Host.Outcome State Fault Refusal :=
  .next (
    match (s.gdr b).brkAt with
    | none => s
    | some t =>
      let m := s.rd (F.GDR_BRK_CFG_MAXON b)
      if m = 0 || (s.gdr b).brkOver || !analogOn s b then s
      else
        let s := s.advTo (t + msClk m)
        let s := s.setGdr b { s.gdr b with brkOver := true }
        (s.sqc (F.GDR_VMS_MAXON b)).trip (64 + 16 * b.val + 9) (active := true))

/-! ### Temperature (R277) -/

/-- NTC_SAMPLE (R277): the pin voltage in µV. Where the equation has no value, as with a constant of zero, the reading is
free. -/
def execNtcSample (b : Bank) (uV : BitVec 21) (s : State) : Host.Outcome State Fault Refusal :=
  .next (
    if !analogOn s b then s
    else
      let u := uV.toNat
      let bad := 1750000 < u || u < 10000
      let r := ntcTenths u (s.rd (F.GDR_NTC_RNOM b)) (s.rd (F.GDR_NTC_BETA b))
      let t := clampInt (-32767) 32767 (r.getD (toSigned 16 s.drawn))
      let s := if !bad && r.isNone then s.draw else s
      let s := s.wr (F.GDR_TEMP_TEMP b) (if bad then 0x8000 else ofSigned 16 t)
      let s := if bad then s else s.reading 11 b.val t true
      let out := s.flag (F.GDR_NTC_LIM_EN b) && (bad || decide (s.rdS (F.GDR_NTC_LIM_OT b) ≤ t))
      let was := (s.gdr b).ntcOut
      let s := s.setGdr b { s.gdr b with ntcOut := out }
      if out && !was then (s.sqc (F.GDR_STAT_OT b)).trip (64 + 16 * b.val + 4) (active := true)
      else if was && !out then s.inactive (64 + 16 * b.val + 4)
      else s)

/-! ### STO (R278 to R281, R365) -/

/-- The gate enables may be present: no HELD, no holdover expired, the self-test over (R386, R412, R415). -/
def gatesMay (s : State) : Bool := !s.inHeld && !s.ckg.expired && s.lcs.tested && !s.fcs.discWait

/-- Both inputs have permitted without interruption for 1 ms (R280). -/
def stoPermits (s : State) : Bool :=
  s.flag F.GDR_STO_STAT_A && s.flag F.GDR_STO_STAT_B && decide (s.fcs.stoAt + msClk 1 ≤ s.clk)

/-- The enables return where nothing removes them; they energise nothing (R280). -/
def State.gatesReturn (s : State) : State := if stoPermits s && gatesMay s then s.wr F.GDR_STO_STAT_EN 1 else s

/-- The levels of the inputs as their filters pass them, and when they last changed (R278). -/
def State.stoLevels (s : State) (a b : Bool) : State :=
  if s.flag F.GDR_STO_STAT_A = a ∧ s.flag F.GDR_STO_STAT_B = b then s
  else { (s.wrB F.GDR_STO_STAT_A a).wrB F.GDR_STO_STAT_B b with fcs := { s.fcs with stoAt := s.clk } }

/-- The inputs that have come back to the permit level show it, and their sources are no longer ACTIVE (R278, R285). -/
def State.stoPermit (s : State) (which : Fin 3) : State :=
  let s := s.stoLevels (s.flag F.GDR_STO_STAT_A || which ≠ 1) (s.flag F.GDR_STO_STAT_B || which ≠ 0)
  let s := if s.flag F.GDR_STO_STAT_A then s.inactive 8 else s
  if s.flag F.GDR_STO_STAT_B then s.inactive 9 else s

/-- STO_DEMAND (R279, R268, R160): an edge of the STO inputs that their filters pass. A demanding one removes every gate enable and
de-energises every axis; one back to the permit level, for which the table has no row of its own, shows in A and B alone (log
entry 71). -/
def execStoDemand (e : StoEdge) (s : State) : Host.Outcome State Fault Refusal :=
  .next (
    if !s.powered 1 then s
    else if e.permit then s.stoPermit e.which
    else
      let a := e.which ≠ 1
      let b := e.which ≠ 0
      State.arranged s (
        let s := s.stoLevels (s.flag F.GDR_STO_STAT_A && !a) (s.flag F.GDR_STO_STAT_B && !b)
        let s := each allAxes (fun s n => s.turnOff n (.sto e.which.val)) s
        let s := (s.wr F.GDR_STO_STAT_EN 0).sqc F.GDR_STO_STAT_DEMAND
        let both := !s.flag F.GDR_STO_STAT_A && !s.flag F.GDR_STO_STAT_B
        let s := if both then { s with fcs := { s.fcs with discWait := false } } else s
        let s := if a then s.trip 8 (active := true) else s
        if b then s.trip 9 (active := true) else s))

/-- STO_PERMIT_RETURN (R280): both inputs have been at the permit level for 1 ms, and the enables return. -/
def execStoPermitReturn (s : State) : Host.Outcome State Fault Refusal :=
  .next (
    if s.powered 1 && s.flag F.GDR_STO_STAT_A && s.flag F.GDR_STO_STAT_B then
      let s := s.advTo (s.fcs.stoAt + msClk 1)
      let s := if s.fcs.discWait then s else s.inactive 10
      s.gatesReturn
    else s)

/-- STO_DISCREPANCY (R280): one input (true: STO_B) has stayed at demand while the other permitted for longer than DISC ms.
-/
def execStoDiscrepancy (second : Bool) (s : State) : Host.Outcome State Fault Refusal :=
  .next (
    let a := s.flag F.GDR_STO_STAT_A
    let b := s.flag F.GDR_STO_STAT_B
    if !s.powered 1 || a = b || b = second || s.fcs.discWait then s
    else
      let s := s.advTo (s.fcs.stoAt + msClk (s.rd F.GDR_STO_CFG_DISC) + 1)
      let s := { s with fcs := { s.fcs with discWait := true } }
      (s.sqc F.GDR_STO_STAT_DISC).trip 10 (active := true))

end Sys2Proof.Machine
end

