-- ==== Sys2Proof/Machine/Access.lean ====
section
/-! DEFINITION. Register access: what a read returns, how a write acts by field type, and the access status
(R63 to R79, R98, R99, R454 to R475). -/

namespace Sys2Proof.Machine

/-! ### Views that the device computes -/

def wordOf (n : Nat) : Word := BitVec.ofNat 32 n

def boolNat (b : Bool) : Nat := if b then 1 else 0

/-- GLB_SUMMARY (R474). -/
def glbSummary (s : State) : Nat :=
  let sev := fun lo hi : Nat => s.fcs.srcs.any fun x => x.severe && lo ≤ x.src && x.src < hi
  let bank := fun b : Nat => sev (64 + 16 * b) (80 + 16 * b) || sev (128 + 128 * b) (256 + 128 * b)
  boolNat (s.flag F.FCS_STAT_DEVOFF) + 2 * boolNat s.inHeld + 4 * boolNat (s.flag F.LCS_LC_STAT_READY) +
  8 * boolNat (s.flag F.LCS_LOCK_STAT_LOCKED) + 16 * boolNat s.halted + 32 * boolNat (sev 0 64) +
  64 * boolNat (bank 0) + 128 * boolNat (bank 1) + 256 * boolNat (bank 2) + 512 * boolNat (bank 3) +
  1024 * boolNat (!s.flag F.GDR_STO_STAT_EN) + 2048 * boolNat (s.cnd.alerts ≠ []) +
  65536 * (if s.rd F.PMU_STAT_STATE < 2 then boolNat (!s.anyEnergised) else s.rd F.PMU_STAT_STATE)

/-- Which group a register's RWB fields belong to, by mask bit (R80). -/
def groupAt (off : Nat) : Option Nat := groupOf off

/-- The groups that hold an unapplied write, as mask bits (R81, LCS_UPD_PEND). -/
def pendMask (s : State) : Nat :=
  (s.dirty.filterMap fun x => groupAt x.1).foldl (fun m g => if bit g m then m else m + 2 ^ g) 0

/-- MPL_STAT (R169). -/
def mplStat (s : State) (n : Axis) : Nat :=
  let p := s.plan n
  p.st.code + 8 * boolNat p.homed + 16 * boolNat (closingClamp s n).isSome + 256 * p.galley.length

/-- FCS_SRC_STAT (R372). -/
def srcStat (s : State) (src : Nat) : Nat :=
  let x := s.src src
  let c := min (srcN s src) (x.stamps.filter fun t => s.clk - t < srcW s src).length
  c + 256 * boolNat x.severe + 512 * boolNat x.active + 1024 * boolNat x.sec + 65536 * x.total

def capWord (v : Nat) : Nat := min v 0xFFFFFF

/-- A register whose value follows from the state, by its place; none for one that holds its own word. -/
def computedAt (s : State) (p : Port) (off : Nat) : Option Word :=
  if off = Reg.GLB_PORT then some (wordOf p.num)
  else if off = Reg.GLB_SUMMARY then some (wordOf (glbSummary s))
  else if off = Reg.GLB_ENERG then some (wordOf (maskOfAxes (allAxes.filter s.energised)))
  else if off = Reg.TBS_GTC_LO then some (wordOf s.now)
  else if off = Reg.TBS_GTC_HI then some (wordOf (s.now / 2 ^ 32))
  else if off = Reg.LCS_UPD_PEND_LO then some (wordOf (pendMask s))
  else if off = Reg.LCS_UPD_PEND_HI then some (wordOf (pendMask s / 2 ^ 32))
  else if off = Reg.LCS_DEV_ID_LO then some (wordOf Config.deviceId)
  else if off = Reg.LCS_DEV_ID_HI then some (wordOf (Config.deviceId / 2 ^ 32))
  else if off = Reg.LCS_LC_NONCE_LO then some (wordOf s.lcs.nonce)
  else if off = Reg.LCS_LC_NONCE_HI then some (wordOf (s.lcs.nonce / 2 ^ 32))
  else if off = Reg.PMU_STAT then
    if s.rd F.PMU_STAT_STATE < 2 then
      some (F.PMU_STAT_STATE.put (s.reg off) (boolNat (!s.anyEnergised)))
    else none
  else if off = Reg.CND_STAT then
    some (F.CND_STAT_QUEUE.put (F.CND_STAT_PROPS.put (s.reg off) s.cnd.props.length) (min 255 s.ledger.queue.length))
  else if 0x5100 ≤ off && off < 0x5200 then
    match s.cnd.props.find? fun x => x.idx = (off - 0x5100) / 16 with
    | some x =>
      some (wordOf (if off % 16 = 0 then x.off else if off % 16 = 4 then x.value
        else if off % 16 = 8 then x.num % 65536 + 65536 * boolNat x.ok else 0))
    | none => some 0#32
  else if 0x5040 ≤ off && off < 0x5060 then
    some (match s.lcs.devKey with | some _ => Config.deviceKey ((off - 0x5040) / 4) | none => 0#32)
  else if 0x6000 ≤ off && off < 0x8800 && off % 16 = 8 then some (wordOf (srcStat s ((off - 0x6000) / 16)))
  else if 0x20000 ≤ off && off < 0x28000 && off % 0x400 = 0x54 then
    some (wordOf (mplStat s ⟨(off - 0x20000) / 0x400 % 32, by omega⟩))
  else if 0x10000 ≤ off && off < 0x18000 then
    let b : Bank := ⟨(off - 0x10000) / 0x2000 % 4, by omega⟩
    let l := off % 0x2000
    if l = 0x10 then some (wordOf (capWord (binSum (s.books b) s.binNs s.now s.now)))
    else if l = 0x14 then some (wordOf (capWord (peakDraw (s.books b) s.binNs s.now)))
    else if 0x140 ≤ l && l < 0x168 && l % 8 = 4 then
      let q : Fin 5 := ⟨(l - 0x140) / 8 % 5, by omega⟩
      let age := min 65535 ((s.clk - (s.adc b).latched[q]) / 250000)
      some ((F.ADC_SLC_SK_AGE (slice b q)).put (s.reg off) age)
    else if 0x200 ≤ l && l < 0x300 && l % 0x10 = 4 then
      let k := s.coil ⟨16 * b.val + (l - 0x200) / 0x10 % 16, by omega⟩
      if s.clk < k.sampledAt + 100 then some k.syncOld else none
    else if 0x400 ≤ l && l < 0x800 && l % 0x20 = 0 then
      let h : HalfBridge := ⟨(32 * b.val + (l - 0x400) / 0x20) % 128, by omega⟩
      some ((F.PWM_CMP_HIZ h).put (s.reg off) (boolNat (s.hiz h)))
    else none
  else if 0x40000 ≤ off && off < 0x80000 && off % 0x1000 = 0x18 then
    some (wordOf (s.infl ⟨(off - 0x40000) / 0x1000 % 64, by omega⟩))
  else if off = Reg.HIF_CTX_CFG 0 then
    some ((F.HIF_CTX_CFG_PORT 0).put (s.buf off) (s.rd F.HIF_MGMT_OWNER))
  else none

/-- Where a register's word is kept: the port's own copy for a port register (R98). -/
def keptAt (r : Row) (p : Port) (off : Nat) : Nat := match r.dom with | .port => portOff p off | _ => off

/-- What a register reads as: RWB fields their buffered copy, all others their value (R84). -/
def regRead (s : State) (p : Port) (off : Nat) (r : Row) : Word :=
  match computedAt s p off with
  | some w => w
  | none =>
    let o := keptAt r p off
    mergeMask r.rwb (s.reg o) (s.buf o)

/-! ### Access status (R68, R70) -/

/-- An access of port p sets a field of its HIF_ACC_STAT and latches where (R70). -/
def State.accFault (s : State) (p : Port) (f : Fld) (addr : Nat) : State :=
  (s.sqc (onPort p f)).setReg (portOff p Reg.HIF_ACC_ADDR) (wordOf addr)

/-- The domain of a register is on for this port. -/
def regOn (s : State) (r : Row) (i : Nat) (p : Port) : Bool := s.powered (r.dom.dom i p)

/-- A read of the register space (R65, R68, R456). -/
def spaceRead (s : State) (p : Port) (off : Nat) : State × Word :=
  match rowOf off with
  | none => (s, 0#32)
  | some (r, i) =>
    if regOn s r i p then (s, regRead s p off r)
    else if r.rwb ≠ 0 then (s, mergeMask r.rwb 0#32 (s.buf off))
    else (s.accFault p F.HIF_ACC_STAT_OFF off, 0#32)

/-- The context whose page an offset lies in (R99). -/
def pageOf (off : Nat) : Option Ctx :=
  if 0x40000 ≤ off && off < 0x80000 then some ⟨(off - 0x40000) / 0x1000 % 64, by omega⟩ else none

/-- A read through port p's BAR0 (R98, R99). -/
def hostRead (s : State) (p : Port) (off : Nat) : State × Word :=
  if off < 0x40000 then spaceRead s p off
  else
    match pageOf off with
    | some k =>
      if s.ctxPort k = p then
        (match rowOf off with | some (r, _) => (s, regRead s p off r) | none => (s, 0#32))
      else (s.sqc (F.HIF_CTX_STAT_WRONG_PORT k), 0#32)
    | none =>
      if (0x80000 ≤ off && off < 0x80400) || (0x81000 ≤ off && off < 0x81008) then (s, s.reg (portOff p off))
      else (s, 0#32)

/-! ### Internal memories (R467 to R470) -/

/-- A word of the FCS record store: record r lies in slot r mod 256 (R468). -/
def storeWord (s : State) (a : Nat) : Word :=
  let slot := a / 32 % 256
  let n := s.fcs.recN
  let len := s.fcs.recs.length
  match (List.range len).find? fun i => (n - len + i) % 256 = slot with
  | some i => (s.fcs.recs.getD i []).getD (a % 32 / 4) 0#32
  | none => 0#32

def byteWord (bs : List Byte) (a : Nat) : Word := wordOf (leNat ((bs.drop a).take 4))

/-- A read over the indirect space (R467); none for an address outside it. -/
def memRead (s : State) (a : Nat) : Option (Nat × Word) :=
  if 0x100000 ≤ a && a < 0x102000 then some (1, storeWord s (a - 0x100000))
  else if 0x102000 ≤ a && a < 0x102200 then some (5, wordOf (if a - 0x102000 < 480 then s.counter (a - 0x102000) else 0))
  else if 0x104000 ≤ a && a < 0x108000 then some (5, byteWord s.cnd.dexcy (a - 0x104000))
  else if 0x108000 ≤ a && a < 0x108040 then some (5, byteWord Config.vendorKey (a - 0x108000))
  else none

/-- An indirect read (R78, R79). -/
def indRead (s : State) (p : Port) (a : Nat) : State × Word :=
  if a < 0x40000 then spaceRead s p a
  else
    match memRead s a with
    | some (d, w) => if s.powered d then (s, w) else (s.accFault p F.HIF_ACC_STAT_OFF a, 0#32)
    | none => (s.accFault p F.HIF_ACC_STAT_RANGE a, 0#32)

/-! ### Writes by field type (R63, R71 to R76) -/

/-- Software writes that leave a GO bit set: hardware alone clears it (R74, log entry 41). -/
def goMask (off : Nat) : Nat :=
  if off = Reg.HIF_MGMT then 6
  else if off = Reg.LCS_UPD_CTRL || off = Reg.LCS_LOCK_CTRL || off = Reg.LCS_DBG_CTRL || off = Reg.CKG_CTRL ||
    off = Reg.PMU_CTRL then 3
  else if off = Reg.FCS_CLR then 0x10000
  else if off = Reg.CND_CTRL || off = Reg.CND_DXC_CTRL then 1
  else if off = Reg.CND_APPROVE then 0x20
  else if 0x10000 ≤ off && off < 0x18000 && off % 0x2000 = 0xC8 then 1
  else if 0x20000 ≤ off && off < 0x28000 && off % 0x400 = 0x1E4 then 1
  else 0

/-- The LO register of a writable 64-bit pair (R457). -/
def isPairLo (off : Nat) : Bool :=
  off = Reg.HIF_DB_BASE_LO || off = Reg.PMU_WAKE_AT_LO ||
  (0x2000 ≤ off && off < 0x3000 && (off % 0x40 = 0x10 || off % 0x40 = 0x18 || off % 0x40 = 0x20)) ||
  (0x3000 ≤ off && off < 0x3100 && off % 0x20 = 0) ||
  (0x20000 ≤ off && off < 0x28000 &&
    (off % 0x400 = 0x30 || off % 0x400 = 0x38 || off % 0x400 = 0x188 || off % 0x400 = 0x1D8))

/-- The bits of RWB fields that are not written: the fixed fields of context 0 (R102), PMU_DOM_REQ's fixed bits (R394) and
the registers of a source not used (R371). -/
def fixedBits (off : Nat) : Nat :=
  if off = Reg.HIF_CTX_CFG 0 then 3
  else if off = Reg.HIF_CTX_AXES 0 || off = Reg.HIF_CTX_PRIV 0 then 0xFFFFFFFF
  else if off = Reg.PMU_DOM_REQ then 0xFFFF - 0xFF18
  else if 0x6000 ≤ off && off < 0x8800 && (sourceRow ((off - 0x6000) / 16)).isNone then 0xFFFFFFFF
  else 0

/-- CKG_CLKOUT.SEL 6 or 7 stores 0 (R390); codes above 5 of GDR_DRV's fields store 5 (R283). -/
def specialClip (off : Nat) (w : Word) : Word :=
  if off = Reg.CKG_CLKOUT then (if 6 ≤ F.CKG_CLKOUT_SEL.get w then F.CKG_CLKOUT_SEL.put w 0 else w)
  else if 0x10000 ≤ off && off < 0x18000 && off % 0x2000 = 0x40 then
    let src := min 5 ((F.GDR_DRV_ISRC 0).get w)
    (F.GDR_DRV_ISNK 0).put ((F.GDR_DRV_ISRC 0).put w src) (min 5 ((F.GDR_DRV_ISNK 0).get w))
  else w

/-- The clips of a register, on the fields a write reaches (R83). -/
def clipWritten (r : Row) (m : Nat) (w : Word) : Word :=
  applyClips (r.clips.filter fun c => Nat.land ((2 ^ (c.hi + 1 - c.lo) - 1) * 2 ^ c.lo) m ≠ 0) w

/-- The present clock notes a write to a buffered copy: the bits, and the copy and its marks as they were before (R82). -/
def State.noteLate (s : State) (off m : Nat) : State :=
  let x := (s.inClk.late.find? fun x => x.off = off).getD ⟨off, 0, s.buf off, s.dirtyBits off⟩
  { s with inClk := { s.inClk with
    late := { x with mask := Nat.lor x.mask m } :: s.inClk.late.filter fun y => y.off ≠ off } }

/-- The buffered copy takes a write (R80, R81); the mask says which bits. -/
def State.bufWrite (s : State) (r : Row) (off m : Nat) (w : Word) : State :=
  let m := Nat.land (Nat.land m r.rwb) (0xFFFFFFFF - fixedBits off)
  if m = 0 then s
  else
    let v := mergeMask r.rwb (s.buf off) (specialClip off (clipWritten r m (mergeMask m (s.buf off) w)))
    let s' := s.noteLate off (Nat.lor m (Nat.xor (s.buf off).toNat v.toNat))
    (s'.setBuf off v).setDirty off (s.dirtyBits off ||| wordOf m)

/-- The present clock notes a write to a register: its word before, and the GO bits that the write sets (R74, R82, R107). -/
def State.noteWrite (s : State) (o go : Nat) : State :=
  { s with inClk := { s.inClk with
    words := if (s.inClk.words.lookup o).isSome then s.inClk.words else (o, s.reg o) :: s.inClk.words,
    go := if go = 0 then s.inClk.go
      else (o, (s.inClk.go.lookup o).getD 0#32 ||| wordOf go) :: s.inClk.go.filter fun x : Nat × Word => x.1 ≠ o } }

/-- A write to one register with its domain on, by field type. -/
def State.typeWrite (s : State) (r : Row) (o off m be : Nat) (w : Word) : State :=
  let old := s.reg o
  let rw := clipWritten { r with clips := if r.rw = 0 then [] else r.clips } m (mergeMask (Nat.land m r.rw) old w)
  let go := old &&& wordOf (goMask off)
  let v := mergeMask r.rw old rw ||| go
  let v := if r.sqc = 0 then v else mergeMask r.sqc v (sqcWrite r.sqc (s.seqDone.lookup o) old w be)
  let s := (s.noteWrite o (Nat.land (Nat.land m w.toNat) (goMask off))).setReg o v
  let s := each (r.cnts.filter fun c => Nat.land m ((2 ^ (c.hi + 1 - c.lo) - 1) * 2 ^ c.lo) ≠ 0)
    (fun s c => s.cntWrite ⟨o, c.hi, c.lo⟩ c.wraps m w) s
  s.bufWrite r o m w

/-- A write to a register whose domain is on; with it off only the buffered copies take one (R68). -/
def State.landWrite (s : State) (on : Bool) (r : Row) (o off m be : Nat) (w : Word) : State :=
  if on then s.typeWrite r o off m be w else s.bufWrite r off m w

/-- A write to LO is held for the next write to HI, which applies both (R76); `on` says whether the domain is on (R68). -/
def State.pairWrite (s : State) (on : Bool) (r : Row) (o off m be : Nat) (w : Word) : State :=
  if isPairLo off then
    let cur := match s.loHeld.lookup o with
      | some h => h
      | none => if r.rwb = 0 then s.reg o else s.buf o
    { s with loHeld := fileIns o (mergeMask m cur w) (fileDel o s.loHeld) }
  else if 4 ≤ off && isPairLo (off - 4) then
    let s :=
      match s.loHeld.lookup (o - 4), rowOf (off - 4) with
      | some h, some (r', _) =>
        { s.landWrite on r' (o - 4) (off - 4) 0xFFFFFFFF 15 h with loHeld := fileDel (o - 4) s.loHeld }
      | _, _ => s
    s.landWrite on r o off m be w
  else s.landWrite on r o off m be w

end Sys2Proof.Machine
end

