-- ==== Sys2Proof/Machine/Groups.lean ====
section
/-! DEFINITION. Update groups: the values a strobe would give, and the checks LOCKED_UP, RUN_LOCKED and RANGE (R80 to R94).
-/

namespace Sys2Proof.Machine

/-! ### Values -/

/-- The register at an offset belongs to a group of the mask (R80). -/
def inMask (m off : Nat) : Bool := match groupAt off with | some g => bit g m | none => false

def rwbOf (off : Nat) : Nat := match rowOf off with | some (r, _) => r.rwb | none => 0

/-- The registers of the groups of a mask that hold an unapplied write. Elsewhere buffer and applied value agree (R84). -/
def dirtyOf (s : State) (m : Nat) : List Nat := (s.dirty.filter fun x : Nat × Word => inMask m x.1).map (·.1)

/-- The values as they would stand with the groups of a mask applied (R83, R138). -/
def State.overlay (s : State) (m : Nat) : State :=
  each (dirtyOf s m) (fun s off => s.setReg off (mergeMask (rwbOf off) (s.reg off) (s.buf off))) s

/-- The groups of a mask are applied and their PEND bits clear (R84). -/
def State.applyGroups (s : State) (m : Nat) : State :=
  let t := s.overlay m
  { t with dirty := s.dirty.filter fun x : Nat × Word => !inMask m x.1 }

/-- The applied values go back into the buffered copies (R81, DISCARD). -/
def State.discard (s : State) (m : Nat) : State :=
  let t := each (dirtyOf s m) (fun s off =>
    (s.noteLate off (rwbOf off)).setBuf off (mergeMask (rwbOf off) (s.buf off) (s.reg off))) s
  { t with dirty := s.dirty.filter fun x : Nat × Word => !inMask m x.1 }

/-- A change of the frame tick's clock is made on the buffered copies and marks as they stood at the end of the clock before
it; what was written in the tick's own clock stays written and marked (R82, R84). -/
def State.boundary (f : State → State) (s : State) : State :=
  let late := s.inClk.late
  let t := f (each late (fun s x => (s.setBuf x.off x.buf).setDirty x.off x.dirty) s)
  let u := each late (fun u x =>
    let mark := s.dirtyBits x.off &&& wordOf x.mask
    if mark = 0#32 && u.dirtyBits x.off = 0#32 then u
    else
      (u.setBuf x.off (mergeMask x.mask (u.buf x.off) (s.buf x.off))).setDirty x.off
        (mergeMask x.mask (u.dirtyBits x.off) mark)) t
  { u with inClk := { u.inClk with
    late := late.map fun x => { x with buf := t.buf x.off, dirty := t.dirtyBits x.off } } }

/-- The bits of a register that applying it would change. -/
def changedBits (s : State) (off : Nat) : Nat :=
  Nat.land (Nat.xor (s.reg off).toNat (s.buf off).toNat) (rwbOf off)

/-! ### LOCKED_UP (R89, R92) -/

/-- The groups whose committed fields are frozen: by the freeze of a lock-up being made, and by one in force. -/
def frozenMask (s : State) : Nat :=
  Nat.lor (if s.flag F.LCS_LOCK_STAT_LOCKED then s.lcs.locked else 0)
    (match s.lcs.freeze with | some (m, _) => m | none => 0)

def committedOf (off : Nat) : Nat := match rowOf off with | some (r, _) => r.committed | none => 0

def lockedUp (s : State) (g : Nat) : Bool :=
  bit g (frozenMask s) &&
  (dirtyOf s (2 ^ g)).any fun off => Nat.land (changedBits s off) (committedOf off) ≠ 0

/-! ### RUN_LOCKED (R80, R85, R86) -/

/-- An axis's function runs: it is energised or its galley holds a segment. `stopped` lists the axes that a CONFIG
descriptor has stopped for the application at this boundary (R87, R138). -/
def axisRuns (s : State) (stopped : List Axis) (n : Axis) : Bool :=
  !stopped.contains n && (s.energised n || (s.plan n).galley ≠ [])

/-- The run-locked bits of a register whose function runs. -/
def runLockedNow (s : State) (stopped : List Axis) (g off : Nat) : Nat :=
  match rowOf off with
  | none => 0
  | some (r, i) =>
    if g = 0 then (if s.anyEnergised then r.runLocked else 0)
    else if g = 1 then
      let k : Ctx := ⟨i % 64, by omega⟩
      if s.infl k = 0 then 0
      else if s.linkUp (s.ctxPort k) then r.runLocked
      else if r.base = Reg.HIF_CTX_CFG 0 then Nat.land r.runLocked 1
      else if Reg.HIF_CTX_DQB_LO 0 ≤ r.base && r.base ≤ Reg.HIF_CTX_EQB_HI 0 then 0
      else r.runLocked
    else if g = 3 then
      if off = Reg.CKG_CFG then
        (if s.rd F.CLK_STAT_REF = 2 then 2 else 0) +
        (if s.rd F.CLK_STAT_REF = 1 || s.rd F.CLK_STAT_XO = 1 then 8 else 0)
      else 0
    else if g = 6 then (if allAxes.any (axisRuns s stopped) then r.runLocked else 0)
    else if 8 ≤ g && g < 12 then
      (if (allAxes.filter fun n => n.val / 8 = g - 8).any (axisRuns s stopped) then r.runLocked else 0)
    else if 32 ≤ g then (if axisRuns s stopped ⟨(g - 32) % 32, by omega⟩ then r.runLocked else 0)
    else 0

def runLocked (s : State) (stopped : List Axis) (g : Nat) : Bool :=
  (dirtyOf s (2 ^ g)).any fun off => Nat.land (changedBits s off) (runLockedNow s stopped g off) ≠ 0

/-! ### RANGE -/

/-- A condition that makes a strobe refused: the registers that take part, in rising offset, and whether it fails. -/
abbrev Cond := List Nat × Bool

/-- The band of a frame profile in core clocks (R31). -/
def periodBand (profile : Nat) : Nat × Nat :=
  if profile = 0 then (3125, 4687) else if profile = 1 then (4688, 9374)
  else if profile = 2 then (9375, 18749) else (18750, 25000)

/-- R324: the request fits before the latch point, and the lead fits into half a frame. -/
def serialFits (v : State) (n : Axis) : Bool :=
  let lead := v.rd (F.FBK_SER_TIM_LEAD n)
  (v.rd (F.FBK_SER_TIM_RQ n) + v.rd (F.FBK_SER_CFG_POSLEN n) + v.rd (F.FBK_SER_CFG_CRCLEN n) + 10) *
      v.rd (F.FBK_SER_TIM_PER_MAX n) * 4 + 2000 ≤ lead * 40 &&
  2 * ((lead + v.rd (F.FBK_SER_TIM_DE_LEAD n)) * 40) ≤ v.tfNs

def condsTbs (s v : State) : List Cond :=
  let p := v.rd F.TBS_FRAME_PERIOD
  let b := periodBand (v.rd F.TBS_FRAME_PROFILE)
  ([Reg.TBS_FRAME], p < b.1 || b.2 < p) ::
  (if s.rd F.TBS_FRAME_PERIOD = p then []
   else (allAxes.filter fun n : Axis => v.rd (F.FBK_CFG_MODE n.val) = 1).map fun n : Axis =>
     ([Reg.TBS_FRAME, Reg.FBK_SER_CFG n, Reg.FBK_SER_TIM n], !serialFits v n))

/-- A SCOPE below its floor; a source of floor DEVICE_OFF with N other than 1 (R348); SS1 settings (R363). -/
def condsFcs (v : State) : List Cond :=
  ((List.range 640).filterMap fun src =>
    match sourceRow src with
    | none => none
    | some r => some ([Reg.FCS_SRC_CFG src],
        decide (v.rd (F.FCS_SRC_CFG_SCOPE src) < r.floor) || (r.floor = 4 && v.rd (F.FCS_SRC_CFG_N src) ≠ 1))) ++
  allAxes.map fun n : Axis => ([Reg.FCS_SS1_CFG n],
    v.rd (F.FCS_SS1_CFG_TMAX n) = 0 ||
    (v.flag (F.FCS_SS1_CFG_RMON n) && (v.rd (F.MPL_HDEC_HDEC n) = 0 || v.rd (F.MPL_HJERK_HJERK n) = 0)))

/-- The fastest frequency CLKOUT's source can carry, in kHz; 0 for one never refused (R389). -/
def clkoutKhz (v : State) : Nat :=
  let sel := v.rd F.CKG_CLKOUT_SEL
  if sel = 1 then 250000 else if sel = 2 then 25000
  else if sel = 3 then (if v.flag F.CKG_CFG_REC_EN then 100000 else 25000)
  else if sel = 4 then 16000 else 0

def condsCkg (v : State) : List Cond :=
  [([Reg.CKG_CFG], v.rd F.CKG_CFG_PREF = 1 && !v.flag F.CKG_CFG_REC_EN),
   ([Reg.CKG_CFG, Reg.CKG_CLKOUT], 50000 * (v.rd F.CKG_CLKOUT_DIV + 1) < clkoutKhz v)]

def condsCnd (v : State) : List Cond :=
  allBanks.flatMap fun b : Bank =>
    [([Reg.CND_DER_CFG b], 1024 < v.rd (F.CND_DER_CFG_DER_MIN b)),
     ([Reg.CND_CAL b], v.rd (F.CND_CAL_CALMAX b) < v.rd (F.CND_CAL_CALINT b))]

/-- R183, R217, R274 and R277. -/
def condsBank (v : State) (b : Bank) : List Cond :=
  let vc := v.rd (F.MPL_VCALC_VCALC b)
  let on := v.rd (F.GDR_VMS_BRK_ON b)
  let off := v.rd (F.GDR_VMS_BRK_OFF b)
  [([Reg.MPL_VCALC b], vc < 8000 || 80000 < vc),
   ([Reg.GDR_VMS_BRK b], on ≤ off),
   ([Reg.GDR_VMS_BRK b, Reg.GDR_VMS_LIM b], v.rd (F.GDR_VMS_LIM_OV b) ≤ on),
   ([Reg.GDR_VMS_BRK b, Reg.GDR_VMS_LIM b], off ≤ v.rd (F.GDR_VMS_LIM_UV b)),
   ([Reg.GDR_NTC b, Reg.GDR_NTC_LIM b],
     v.flag (F.GDR_NTC_LIM_EN b) && (v.rd (F.GDR_NTC_RNOM b) = 0 || v.rd (F.GDR_NTC_BETA b) = 0))] ++
  (hbsOfBank b).map fun h : HalfBridge => ([Reg.PWM_DT_LIM b, Reg.PWM_DT h],
    decide (32 * v.rd (F.PWM_DT_DT_INT h) + v.rd (F.PWM_DT_DT_FRAC h) < 32 * v.rd (F.PWM_DT_LIM_FLOOR b)))

/-- R169, R206, R250, R324, R342 and R343, in ascending lowest offset. -/
def condsAxis (v : State) (n : Axis) : List Cond :=
  let imax := v.rd (F.MPL_FMAX_IMAX n)
  let mode := v.rd (F.FBK_CFG_MODE n)
  let partner := v.rd (F.MPL_REV_CFG_PARTNER n)
  let vel := v.rd (F.MPL_REV_VEL_REV_VEL n)
  [([Reg.MPL_VMAX n, Reg.MPL_REV_DIST n, Reg.MPL_REV_VEL n],
     v.rd (F.MPL_REV_DIST_REV_DIST n) ≠ 0 && (vel = 0 || v.rd (F.MPL_VMAX_VMAX n) < vel)),
   ([Reg.MPL_DMAX n, Reg.MPL_HDEC n], v.rd (F.MPL_HDEC_HDEC n) < v.rd (F.MPL_DMAX_DMAX n)),
   ([Reg.MPL_JMAX n, Reg.MPL_HJERK n], v.rd (F.MPL_HJERK_HJERK n) < v.rd (F.MPL_JMAX_JMAX n)),
   ([Reg.MPL_FMAX n, Reg.MPL_IHOLD n], imax < v.rd (F.MPL_IHOLD_IHOLD n)),
   ([Reg.MPL_FMAX n, Reg.CLP_IMS n], imax < v.rd (F.CLP_IMS_IMS n)),
   ([Reg.MPL_FMAX n, Reg.CLP_ID_CFG n], imax < v.rd (F.CLP_ID_CFG_IID n)),
   ([Reg.MPL_FMAX n, Reg.LES_SL n], imax < v.rd (F.LES_SL_ISL n)),
   ([Reg.MPL_REV_CFG n], v.flag (F.MPL_REV_CFG_PEN n) && (partner = n.val || partner / 8 ≠ n.val / 8)),
   ([Reg.MPL_TRAVEL_MIN_LO n, Reg.MPL_TRAVEL_MIN_HI n, Reg.MPL_TRAVEL_MAX_LO n, Reg.MPL_TRAVEL_MAX_HI n],
     decide (travelMax v n < travelMin v n)),
   ([Reg.MPL_FRIC n], v.rd (F.MPL_FRIC_FRIC n) < v.rd (F.MPL_FRIC_FLOOR n)),
   ([Reg.LES_VMIN n], v.rd (F.LES_VMIN_VMIN n) = 0),
   ([Reg.LES_PLAUS n], v.rd (F.LES_PLAUS_LOW_TOL n) < v.rd (F.LES_PLAUS_TOL n)),
   ([Reg.FBK_CFG n], v.flag (F.FBK_CFG_CMP_OUT n) && !(mode = 0 || (mode = 3 && !v.flag (F.FBK_CFG_ENA_EN n)))),
   ([Reg.FBK_CFG n], mode = 3 && v.rd (F.FBK_CFG_STEP_SRC n) ≠ n.val % 8),
   ([Reg.FBK_CFG n, Reg.FBK_RATIO n], (mode = 1 || mode = 2) && v.rd (F.FBK_RATIO_RATIO n) = 0),
   ([Reg.FBK_CFG n, Reg.FBK_SER_CFG n, Reg.FBK_SER_TIM n], mode = 1 && !serialFits v n),
   ([Reg.FBK_SER_CFG n, Reg.FBK_SER_TIM n],
     decide (v.rd (F.FBK_SER_TIM_PER_MAX n) < v.rd (F.FBK_SER_CFG_PER n))),
   ([Reg.FBK_IDX_CFG n, Reg.FBK_IDX_PER n], v.flag (F.FBK_IDX_CFG_EN n) && v.rd (F.FBK_IDX_PER_PERIOD n) = 0),
   ([Reg.FBK_IDX_CFG n, Reg.FBK_IDX_PER n, Reg.FBK_IDX_POS n],
     v.flag (F.FBK_IDX_CFG_FIX n) && v.rd (F.FBK_IDX_PER_PERIOD n) ≤ v.rd (F.FBK_IDX_POS_PHASE0 n))]

/-- The conditions of a group over the values v it would take; s holds the values applied. -/
def rangeConds (s v : State) (g : Nat) : List Cond :=
  if g = 0 then condsTbs s v
  else if g = 2 then condsFcs v
  else if g = 3 then condsCkg v
  else if g = 5 then condsCnd v
  else if 8 ≤ g && g < 12 then condsBank v ⟨(g - 8) % 4, by omega⟩
  else if 32 ≤ g && g < 64 then condsAxis v ⟨(g - 32) % 32, by omega⟩
  else []

/-! ### The checks of a strobe (R83) -/

def strobeReason (s v : State) (stopped : List Axis) (g : Nat) : Nat :=
  if lockedUp s g then 1
  else if runLocked s stopped g then 2
  else if (rangeConds s v g).any (·.2) then 3
  else 0

def groupsOf (m : Nat) : List Nat := (List.range 64).filter fun g => bit g m

/-- The first group that fails, in ascending mask bit, with the REASON. -/
def strobeFails (s : State) (stopped : List Axis) (m : Nat) : Option (Nat × Nat) :=
  let v := s.overlay m
  (groupsOf m).findSome? fun g =>
    let r := strobeReason s v stopped g
    if r = 0 then none else some (g, r)

/-! ### The proof word (R92) -/

/-- Every register that holds a committed field of a group of the mask, in ascending offset, with those fields' bits. -/
def committedRegs (m : Nat) : List (Nat × Nat) :=
  let all := (allRows.filter fun r => r.committed ≠ 0).flatMap fun r =>
    (List.range r.count).filterMap fun i =>
      match r.grp.bit? i with
      | some g => if bit g m then some (r.offset i, r.committed) else none
      | none => none
  all.insertionSort fun a b => a.1 ≤ b.1

/-- The proof word of the applied values for a lock mask. -/
def proofWord (s : State) (m : Nat) : Word :=
  crc32c (leBytes 8 m ++ (committedRegs m).flatMap fun x =>
    leBytes 4 x.1 ++ leBytes 4 (Nat.land (s.reg x.1).toNat x.2))

end Sys2Proof.Machine
end

