-- ==== Sys2Proof/Machine/Ckg.lean ====
section
/-! DEFINITION. Clock generation: references, monitors, switches, holdover (R373 to R390), and entry to HELD (R415). -/

namespace Sys2Proof.Machine

/-! ### HELD (R415) -/

/-- The device enters HELD, or a further cause arises in it: CAUSE keeps the first. The gate enables go, every axis is
de-energised through the two soft steps, and ALIVE stops. -/
def State.enterHeld (s : State) (cause src : Nat) : State :=
  let cs := if s.lcs.causes.contains cause then s.lcs.causes else s.lcs.causes ++ [cause]
  let s := { s with lcs := { s.lcs with causes := cs } }
  let s := if s.inHeld then s else (s.wr F.LCS_LC_STAT_HELD 1).wr F.LCS_LC_STAT_CAUSE cause
  let s := each (List.finRange 128) (fun s h => s.softStart h) s
  let s := each allAxes (fun s n => s.turnOff n (.fault src)) s
  (((s.wr F.GDR_STO_STAT_EN 0).fcsStat).flushHeld .A).flushHeld .B

/-! ### Sources and references -/

/-- A source of R373 is VALID: 0 RC, 1 XO, 2 REC. -/
def clkValid (s : State) (src : Nat) : Bool :=
  if src = 1 then s.rd F.CLK_STAT_XO = 2 else if src = 2 then s.rd F.CLK_STAT_REC = 2 else true

def prefSrc (s : State) : Nat := if s.flag F.CKG_CFG_PREF then 2 else 1

/-- The first VALID source in the order of R378, 3 for holdover. While the device waits in HELD for the XO, REC is not
taken (R387). -/
def nextRef (s : State) : Nat :=
  let waits := s.lcs.causes.contains 5 || s.lcs.causes.contains 6
  let p := prefSrc s
  let ok := fun r : Nat => clkValid s r && !(waits && r = 2)
  if ok p then p else if ok (3 - p) then 3 - p else 3

/-- The PLL reference switch completes (R380, R382): SWITCH sets and the PLL acquires its new reference. In holdover the
PLL ignores the move onto the RC (R384). -/
def State.toRef (s : State) (t : Nat) : State :=
  let s := { s with ckg := { s.ckg with sw := none } }
  let s := s.sqc F.CLK_STAT_SWITCH
  if s.flag F.CLK_STAT_HOLD then s else (s.wr F.CLK_STAT_REF t).wr F.CLK_STAT_LOCK 0

/-- A switch to t is requested (R382, R383, R388): one requested while another is in progress waits for it; with the
outgoing clock stopped it waits to be forced. -/
def State.switchTo (s : State) (t : Nat) (stopped : Bool) : State :=
  if s.ckg.sw.isSome then { s with ckg := { s.ckg with waits := true } }
  else if stopped then { s with ckg := { s.ckg with sw := some (t, s.clk, true) } }
  else s.toRef t

/-- Holdover begins (R384). -/
def State.holdover (s : State) (stopped : Bool) : State :=
  let s := ((s.wr F.CLK_STAT_HOLD 1).wr F.CLK_STAT_REF 3).wr F.CLK_STAT_LOCK 0
  let s := { s with ckg := { s.ckg with holdAt := s.clk, expired := false, sw := none } }
  (s.switchTo 0 stopped).trip 23 (active := true)

/-- The reference in use, or the target of a switch in progress, has failed (R378, R379). -/
def State.refFailed (s : State) (stopped : Bool) : State :=
  let t := nextRef s
  let s := { s with ckg := { s.ckg with failAt := some s.clk } }
  if t = 3 then s.holdover stopped else s.switchTo t stopped

/-- A VALID source fails at once (R377): it is the reference, the target of a switch, or neither. -/
def State.srcFailed (s : State) (src : Nat) (stopped : Bool) : State :=
  let s := s.wr (if src = 1 then F.CLK_STAT_XO else F.CLK_STAT_REC) 3
  match s.ckg.sw with
  | some (t, _, st) =>
    if t = src then State.refFailed { s with ckg := { s.ckg with sw := none } } st else s
  | none => if s.rd F.CLK_STAT_REF = src then s.refFailed stopped else s

/-- R374: REC may be used. -/
def recEligible (s : State) : Bool :=
  s.flag F.CKG_CFG_REC_EN && s.linkUp .A && !s.flag (onPort .A F.HIF_PORT_STAT_L1)

/-- REC follows R374: it qualifies once it is eligible, and drops out when it is not. A VALID one that has lost its link, or
that is in use, stays so until its stop is seen (R377). -/
def State.recUpdate (s : State) : State :=
  let r := s.rd F.CLK_STAT_REC
  if recEligible s then
    if r = 0 || r = 3 then { s.wr F.CLK_STAT_REC 1 with ckg := { s.ckg with recGood := 0 } } else s
  else if r = 1 || (r = 2 && s.linkUp .A && s.rd F.CLK_STAT_REF ≠ 2 && !(s.ckg.sw.any fun x => x.1 = 2)) then
    s.wr F.CLK_STAT_REC 0
  else s

/-- A source has become VALID (R378, R385): it ends a holdover in progress; a core on the RC moves to it once the PLL is
locked. -/
def State.srcValid (s : State) (src : Nat) : State :=
  if s.flag F.CLK_STAT_HOLD then
    let s := (s.wr F.CLK_STAT_HOLD 0).inactive 23
    match s.ckg.sw with
    | some _ => s
    | none => s.toRef src
  else if s.rd F.CLK_STAT_REF = 0 && s.flag F.CLK_STAT_LOCK then
    let t := nextRef s
    if t = 3 then s else s.switchTo t false
  else s

def clkOn (s : State) : Bool := s.powered 2

/-! ### Monitors (R375, R377) -/

/-- CLOCK_STOP_DETECTED (R377): no edge of the RC (0), the XO (1) or REC (2) for 8 cycles of the watching clock. -/
def execClockStopDetected (src : Fin 3) (s : State) : Host.Outcome State Fault Refusal :=
  .next (
    if !clkOn s then s
    else if src = 0 then (if clkValid s 1 then s.sqc F.CLK_STAT_RCF else s)
    else if src = 1 then
      if s.rd F.CLK_STAT_XO = 2 then s.srcFailed 1 true
      else { s with ckg := { s.ckg with xoGood := 0 } }
    else if s.rd F.CLK_STAT_REC = 2 then (s.srcFailed 2 true).recUpdate
    else { s with ckg := { s.ckg with recGood := 0 } })

/-- The limit of a window in ppm (R377). -/
def windowLimit (s : State) (src : Fin 3) : Nat :=
  if src = 0 then 20000 else if src = 1 then 50000 else if clkValid s 1 then 300 else 50000

/-- CLOCK_MONITOR_WINDOW (R375, R377, R385): a 64 µs window ends with the deviation measured, in ppm, and for the XO
whether its amplitude detector is asserted. -/
def execClockMonitorWindow (src : Fin 3) (ppm : BitVec 20) (amp : Bool) (s : State) : Host.Outcome State Fault Refusal :=
  .next (
    let good := ppm.toInt.natAbs ≤ windowLimit s src
    if !clkOn s then s
    else if src = 0 then (if clkValid s 1 && !good then s.sqc F.CLK_STAT_RCF else s)
    else if src = 1 then
      let x := s.rd F.CLK_STAT_XO
      if x = 1 then
        let n := if good && amp then s.ckg.xoGood + 1 else 0
        let s := { s with ckg := { s.ckg with xoGood := n } }
        if 4 ≤ n then
          State.srcValid { s.wr F.CLK_STAT_XO 2 with ckg := { s.ckg with xoSince := s.clk } } 1
        else s
      else if x = 2 && !good then s.srcFailed 1 false
      else s
    else
      let r := s.rd F.CLK_STAT_REC
      if r = 1 && recEligible s then
        let n := if good then s.ckg.recGood + 1 else 0
        let s := { s with ckg := { s.ckg with recGood := n } }
        if 16 ≤ n then
          State.srcValid { s.wr F.CLK_STAT_REC 2 with ckg := { s.ckg with recSince := s.clk } } 2
        else s
      else if r = 2 && !good then (s.srcFailed 2 false).recUpdate
      else s)

/-- Cycles of the target clock, in core clocks, after which a switch is forced (R383). -/
def forceClocks (t : Nat) : Nat := if t = 1 then 640 else if t = 2 then 160 else 1000

/-- CLOCK_SWITCH_FORCED (R383): 64 cycles of the target clock after the request the target is enabled. What became of the
sources meanwhile, or a switch that waited for this one, is followed next (R378, R388). -/
def execClockSwitchForced (s : State) : Host.Outcome State Fault Refusal :=
  .next (
    match s.ckg.sw with
    | some (t, t0, _) =>
      if !clkOn s then s
      else
        let s := s.advTo (t0 + forceClocks t)
        let s := ((s.sqc F.CLK_STAT_FORCED).cnt F.CLK_STAT_SWCNT).toRef t
        let s := s.trip 22
        let r := nextRef s
        let more := s.ckg.waits
        let s := { s with ckg := { s.ckg with waits := false } }
        if !s.flag F.CLK_STAT_HOLD && (s.rd F.CLK_STAT_REF = 0 || more) && r ≠ 3 && s.rd F.CLK_STAT_REF ≠ r then s.toRef r
        else s
    | none => s)

/-! ### The PLL (R380, R381) -/

/-- PLL_LOCKED (R377, R381, R386): lock on the reference in use. The core moves to the PLL, CKG then takes the reference of
R378, and after an expired holdover the device enters HELD. -/
def execPllLocked (s : State) : Host.Outcome State Fault Refusal :=
  .next (
    if !clkOn s || s.flag F.CLK_STAT_LOCK || s.flag F.CLK_STAT_HOLD || s.ckg.sw.isSome then s
    else
      let s := (s.wr F.CLK_STAT_LOCK 1).wr F.CLK_STAT_CORE 0
      let s := if s.ckg.expired && !(s.lcs.causes.contains 5) then s.enterHeld 5 23 else s
      if s.rd F.CLK_STAT_REF = 0 then
        let t := nextRef s
        if t = 3 then s else s.switchTo t false
      else s)

/-- PLL_LOCK_LOST (R381): with its reference VALID the core clock goes back to the RC, source 35 trips and the device
enters HELD. -/
def execPllLockLost (s : State) : Host.Outcome State Fault Refusal :=
  .next (
    if !clkOn s || !s.flag F.CLK_STAT_LOCK || !clkValid s (s.rd F.CLK_STAT_REF) then s
    else
      let s := (s.wr F.CLK_STAT_LOCK 0).wr F.CLK_STAT_CORE 1
      let s := { s with ckg := { s.ckg with retryAt := s.clk } }
      (s.trip 35).enterHeld 6 35)

/-- PLL_LOCK_RETRY (R381): every 10 ms. -/
def execPllLockRetry (s : State) : Host.Outcome State Fault Refusal :=
  .next (
    if !clkOn s || !s.lcs.causes.contains 6 || s.flag F.CLK_STAT_LOCK then s
    else
      let s := s.advTo (s.ckg.retryAt + msClk 10)
      { s with ckg := { s.ckg with retryAt := s.clk } })

/-! ### Holdover and HELD (R386, R387) -/

/-- HOLDOVER_EXPIRY (R386): 2 ms without a VALID source. -/
def execHoldoverExpiry (s : State) : Host.Outcome State Fault Refusal :=
  .next (
    if !s.flag F.CLK_STAT_HOLD then s
    else
      let s := s.advTo (s.ckg.holdAt + msClk 2)
      let s := { s with ckg := { s.ckg with expired := true, sw := none } }
      let s := ((s.wr F.CLK_STAT_HOLD 0).wr F.CLK_STAT_REF 0).wr F.GDR_STO_STAT_EN 0
      let s := each (List.finRange 128) (fun s h => s.softStart h) s
      (each allAxes (fun s n => s.turnOff n (.fault 23)) s).inactive 23)

/-- HELD_EXIT (R387, R415): at the first frame tick after the PLL has locked on a VALID XO, if no other cause holds. -/
def execHeldExit (s : State) : Host.Outcome State Fault Refusal :=
  .next (
    let outs := s.lcs.causes.all fun c => c = 5 || c = 6
    if !s.inHeld || !s.atTick || !outs || !s.flag F.CLK_STAT_LOCK || s.rd F.CLK_STAT_REF ≠ 1 || !clkValid s 1 then s
    else
      let s := (s.wr F.LCS_LC_STAT_HELD 0).wr F.LCS_LC_STAT_CAUSE 0
      let s := { s with lcs := { s.lcs with causes := [] }, ckg := { s.ckg with expired := false } }
      s.gatesReturn.fcsStat)

/-! ### Software (R375, R379, R390) -/

/-- The XO starts (R375). -/
def State.xoStart (s : State) : State :=
  { s.wr F.CLK_STAT_XO 1 with ckg := { s.ckg with xoAt := s.clk, xoGood := 0 } }

/-- CKG_CTRL.XO_RESTART: ignored while the XO is VALID or STARTING; the GO bit clears at once. -/
def State.xoRestart (s : State) : State :=
  let s := s.wr F.CKG_CTRL_XO_RESTART 0
  if s.rd F.CLK_STAT_XO = 2 || s.rd F.CLK_STAT_XO = 1 then s else s.xoStart

/-- XO_START_TIMEOUT (R375): not VALID within XO_TMO ms of its start. -/
def execXoStartTimeout (s : State) : Host.Outcome State Fault Refusal :=
  .next (
    if s.rd F.CLK_STAT_XO = 1 && clkOn s then
      (s.advTo (s.ckg.xoAt + msClk (s.rd F.CKG_CFG_XO_TMO))).wr F.CLK_STAT_XO 3
    else s)

/-- The PLL may go to the preferred source (R378, R379, R387). -/
def mayReturn (s : State) : Bool :=
  clkValid s (prefSrc s) && s.rd F.CLK_STAT_REF ≠ prefSrc s && s.rd F.CLK_STAT_REF ≠ 3 && !s.inHeld

/-- PREF_RETURN (R379): at the frame tick after RETURN, and with AUTO_RET at a frame tick once PREF has been VALID for
100 ms, to PREF if it is VALID. -/
def execPrefReturn (s : State) : Host.Outcome State Fault Refusal :=
  .next (
    let since := if prefSrc s = 1 then s.ckg.xoSince else s.ckg.recSince
    if !s.atTick || s.ckg.sw.isSome then s
    else if s.ripe .clkReturn then
      let s := (s.drop .clkReturn).goDone .clkReturn F.CKG_CTRL_RETURN
      if mayReturn s then s.switchTo (prefSrc s) false else s
    else if s.flag F.CKG_CFG_AUTO_RET && mayReturn s && since + msClk 100 ≤ s.clk then
      s.switchTo (prefSrc s) false
    else s)

end Sys2Proof.Machine
end

