-- ==== Sys2Proof/Machine/Links.lean ====
section
/-! DEFINITION. The two ports: link training and loss, resets of a port, held records, management ownership, MSI-X,
moderation and the host watchdog (R95 to R126, R374, R498). -/

namespace Sys2Proof.Machine

/-- Registers go back to their reset words. -/
def State.resetRegs (s : State) (which : Nat → Bool) : State :=
  { s with regs := s.regs.filter fun x : Nat × Word => !which x.1 }

/-- The domain of port p is powered (D3, D4). -/
def portOn (s : State) (p : Port) : Bool := s.powered (3 + p.num)

/-! ### Rings restart (R106, R126) -/

def heldOf (k : Ctx) (h : Held) : Bool := match h with | .record j _ _ _ _ => j = k | .data _ _ => false

/-- A held record goes to the next index of its restarted ring, with the phase of that place (R104, R126). -/
def State.rewrite (s : State) (h : Held) : State :=
  match h with
  | .data _ _ => s
  | .record k cls _ _ ws =>
    let ws := ws.take 7 ++ (ws.drop 7).map fun w => w &&& 0x7FFFFFFF#32
    if cls = .completion then s.complete k ws
    else if 0 < eqFree s k && (s.canSend (s.ctxPort k) || heldEvents s (s.ctxPort k) < 256) then
      let i := s.rd (F.HIF_CTX_EQ_TAIL_TAIL k)
      let addr := s.rd64 (Reg.HIF_CTX_EQB_LO k) + 32 * (i % eqSize s k)
      (s.wr (F.HIF_CTX_EQ_TAIL_TAIL k) ((i + 1) % 2 ^ 32)).place k .event i addr
        (withPhase (phaseBit i (eqSize s k)) ws) (bit 16 (ws.getLastD 0#32).toNat)
    else s.dropEvent k

/-- The held records of a context as they are written to its new rings: completions, then events, each in the order of R50
(R97, R126). -/
def heldOrder (s : State) (k : Ctx) : List Held :=
  let hs := (s.portA.held ++ s.portB.held).filter (heldOf k)
  let hs := orderStreams Held.stream Held.words Held.withWords s.ops hs
  hs.filter (fun h => h.stream = some (k, .completion)) ++ hs.filter fun h => h.stream ≠ some (k, .completion)

/-- The rings of a context restart with indices zero and phase 1; its held records come first (R106, R126), and the frame's
fetching counts the new rings (R110). -/
def State.restartRings (s : State) (k : Ctx) : State :=
  let hs := heldOrder s k
  let s := { s with
    portA := { s.portA with held := s.portA.held.filter fun h => !heldOf k h },
    portB := { s.portB with held := s.portB.held.filter fun h => !heldOf k h } }
  let s := (s.wr (F.HIF_CTX_CONS_CONS k) 0).wr (F.HIF_CTX_CQ_TAIL_TAIL k) 0
  let s := (s.wr (F.HIF_CTX_EQ_TAIL_TAIL k) 0).wr (F.HIF_CTX_CQ_HEAD_HEAD k) 0
  let s := (s.wr (F.HIF_CTX_EQ_HEAD_HEAD k) 0).wr (F.HIF_CTX_STAT_HELD k) 0
  let s := s.wr (F.HIF_CTX_STAT_PHASE_WAIT k) 0
  let s := s.setCtx k { s.ctx k with due := 0, waits := 0, stalled := false }
  let s := each hs (fun s h => s.rewrite h) s
  s.setCtx k { s.ctx k with snapF := cqSize s k - s.rd (F.HIF_CTX_CQ_TAIL_TAIL k), snapI := s.infl k }

/-! ### Pending messages (R116) -/

/-- A pending message goes out once nothing holds it (R116). -/
def State.sendPending (s : State) (p : Port) (k : Ctx) : State :=
  if s.flag (msixPend p k) && !msixHeld s p k && s.canSend p then (s.wr (msixPend p k) 0).message p k else s

/-! ### Link loss (R121, R122, R124) -/

/-- The port's fetching ends: no page, no descriptor still to come (R121). -/
def State.fetchStop (s : State) (p : Port) : State :=
  let s := s.setPort p { s.port p with page := false }
  each (allCtxs.filter fun k => s.ctxPort k = p) (fun s k => (s.setCtx k { s.ctx k with due := 0 }).fetchEnd k) s

/-- What a port has written, as it is held or dropped if it was not acknowledged (R121, R124): a record or data, or the end
of a telemetry block. -/
inductive Unacked where
  | hold (h : Held)
  | block (i : Fin 8) (last : Bool)
deriving DecidableEq, Repr

def sentHeld (p : Port) : Out → Option Unacked
  | .record q k cls i addr ws => if q = p then some (.hold (.record k cls i addr ws)) else none
  | .data q addr ws => if q = p then some (.hold (.data addr ws)) else none
  | .block q i last _ _ => if q = p then some (.block i last) else none
  | _ => none

/-- The latest n writes of a port, none of them acknowledged, oldest first. -/
def unacked (s : State) (p : Port) (n : Nat) : List Unacked := ((s.sent.filterMap (sentHeld p)).reverse.take n).reverse

/-- The buffer of a port takes 256 event records (R124): what stays, and the contexts of the events beyond them. -/
def capEvents : Nat → List Held → List Held × List Ctx
  | _, [] => ([], [])
  | n, h :: t =>
    match h with
    | .record k .event _ _ _ =>
      match n with
      | 0 => let x := capEvents 0 t; (x.1, k :: x.2)
      | n + 1 => let x := capEvents n t; (h :: x.1, x.2)
    | _ => let x := capEvents n t; (h :: x.1, x.2)

/-- The latest n writes of a port were not acknowledged: its records and data are held again, in order, events beyond 256 are
dropped and counted (R114, R124), and so are its telemetry blocks (R121). -/
def State.reHold (s : State) (p : Port) (n : Nat) : State :=
  let us := unacked s p n
  let x := capEvents 256 ((us.filterMap fun | .hold h => some h | _ => none) ++ (s.port p).held)
  let s := s.setPort p { s.port p with held := x.1 }
  let s := each x.2 (fun s k => s.dropEvent k) s
  let s := each us (fun s u => match u with | .block i true => s.dropBlock i | _ => s) s
  each x.1 (fun s h => match h with | .record k _ _ _ _ => s.wr (F.HIF_CTX_STAT_HELD k) 1 | .data _ _ => s) s

/-- The data link layer of a port goes down with its latest n writes unacknowledged (R121, R124). -/
def State.linkLost (s : State) (p : Port) (n : Nat) : State :=
  if !s.linkUp p then s
  else
    let s := if (s.port p).master then s.reHold p n else s
    let s := ((s.wr (onPort p F.HIF_PORT_STAT_LINK_UP) 0).wr (onPort p F.HIF_PORT_STAT_SPEED) 0).wr
      (onPort p F.HIF_PORT_STAT_L1) 0
    let s := s.sqc (onPort p F.HIF_PORT_STAT_LOST)
    let s := s.setPort p { s.port p with downAt := s.clk, d3 := false }
    let s := s.fetchStop p
    let s := s.recUpdate
    let s := s.trip (16 + p.num) (active := true)
    if s.rd F.TBS_PTM_CTRL_PORT = p.num then s.ptmLose else s

/-- Port p's MSI-X table and pending bits, and its doorbell-page base, are cleared (R122, log entry 14). -/
def State.clearPort (s : State) (p : Port) : State :=
  s.resetRegs fun o =>
    (portOff p 0x80000 ≤ o && o < portOff p 0x80400) || (portOff p 0x81000 ≤ o && o < portOff p 0x81008) ||
    o = portOff p Reg.HIF_DB_BASE_LO || o = portOff p Reg.HIF_DB_BASE_HI

/-- The host programs the port's configuration space, and the function masters the bus (R95, log entry 25). -/
def State.setUp (s : State) (p : Port) (c : PortCfg) : State :=
  s.setPort p { s.port p with master := true, d3 := false, ptmOn := c.ptm, msixOn := c.msix, fmask := c.fmask,
                              maxRead := c.maxRead.toNat, maxPay := c.maxPay.toNat }

/-- Messages that neither mask holds any more go out (R116). -/
def State.sendPendings (s : State) (p : Port) : State := each allCtxs (fun s k => s.sendPending p k) s

/-- LINK_TRAINED (R95, R100, R124): the link of a port comes up at 2.5, 5.0 or 8.0 GT/s and the host configures the port. The
first port to train after a reset takes ownership, port A where both train in one core clock; held records are written. -/
def execLinkTrained (p : Port) (x : Training) (s : State) : Host.Outcome State Fault Refusal :=
  .next (
    if !portOn s p then s
    else
      let o := s.port p.other
      let first := !(s.port p).everUp && (!o.everUp || (p = .A && o.downAt = s.clk && s.linkUp .B))
      let s := if first then s.wr F.HIF_MGMT_OWNER p.num else s
      let s := ((s.wr (onPort p F.HIF_PORT_STAT_LINK_UP) 1).wr (onPort p F.HIF_PORT_STAT_SPEED) (x.speed.val + 1)).wr
        (onPort p F.HIF_PORT_STAT_L1) 0
      let s := (s.setPort p { s.port p with everUp := true, downAt := s.clk }).setUp p x.cfg
      (((s.inactive (16 + p.num)).recUpdate).flushHeld p).sendPendings p)

/-- LINK_DOWN (R121). -/
def execLinkDown (p : Port) (n : Nat) (s : State) : Host.Outcome State Fault Refusal := .next (s.linkLost p n)

/-- HOT_RESET (R122): the link goes down, the MSI-X table and the doorbell base are cleared. -/
def execHotReset (p : Port) (n : Nat) (s : State) : Host.Outcome State Fault Refusal :=
  .next (if portOn s p then (s.linkLost p n).clearPort p else s)

/-- LINK_DISABLE (R122). -/
def execLinkDisable (p : Port) (n : Nat) (s : State) : Host.Outcome State Fault Refusal :=
  .next (if portOn s p then (s.linkLost p n).clearPort p else s)

/-- PERST_ASSERT (R498): a low PERST_N acts as a hot reset of its port. -/
def execPerstAssert (p : Port) (n : Nat) (s : State) : Host.Outcome State Fault Refusal :=
  .next (if portOn s p then (s.linkLost p n).clearPort p else s)

/-- FUNCTION_LEVEL_RESET (R122): as a link loss for the port's contexts, with the link kept up; PTM control in
configuration space is cleared. -/
def execFunctionLevelReset (p : Port) (s : State) : Host.Outcome State Fault Refusal :=
  .next (
    if !s.linkUp p then s
    else
      let s := s.setPort p { s.port p with
        master := false, ptmOn := false, msixOn := false, fmask := false, maxRead := 2, maxPay := 0, d3 := false }
      (s.fetchStop p).clearPort p)

/-- BUS_MASTER_ENABLE (R122, R124): the host configures the function anew, in D0, and the link counts as returned. -/
def execBusMasterEnable (x : PortSetup) (s : State) : Host.Outcome State Fault Refusal :=
  .next (
    if !s.linkUp x.port then s
    else ((s.setUp x.port x.cfg).flushHeld x.port).sendPendings x.port)

/-- LINK_L1_ENTRY (R120, R374): L1 reads 1; REC of port A is not eligible. -/
def execLinkL1Entry (p : Port) (s : State) : Host.Outcome State Fault Refusal :=
  .next (
    if !s.linkUp p then s
    else
      let s := (s.wr (onPort p F.HIF_PORT_STAT_L1) 1).recUpdate
      if p = .A && s.rd F.CLK_STAT_REC = 2 && s.rd F.CLK_STAT_REF ≠ 2 then s.wr F.CLK_STAT_REC 0 else s)

/-- LINK_L1_EXIT (R374). -/
def execLinkL1Exit (p : Port) (s : State) : Host.Outcome State Fault Refusal :=
  .next (if s.linkUp p then (s.wr (onPort p F.HIF_PORT_STAT_L1) 0).recUpdate else s)

/-- D3HOT_REQUEST (R95, R374): before port A acknowledges D3hot the device moves the reference from REC to a VALID XO. In
D3hot the function issues no request and its BAR does not answer, until the host brings it back to D0 (PCI Express Base
Specification, log entry 25). -/
def execD3hotRequest (s : State) : Host.Outcome State Fault Refusal :=
  .next (
    if s.linkUp .A then
      let s := if clkOn s && s.rd F.CLK_STAT_REF = 2 && clkValid s 1 then s.switchTo 1 false else s
      State.fetchStop (s.setPort .A { s.portA with d3 := true }) .A
    else s)

/-! ### Ownership (R101) -/

/-- Ownership moves to the other port, context 0 is bound to it anew, and an OWNERSHIP event follows (R101, R126, R152). -/
def State.moveOwner (s : State) : State :=
  let s := (s.wr F.HIF_MGMT_OWNER (1 - s.rd F.HIF_MGMT_OWNER)).restartRings 0
  s.devEvent 0x000B (s.rd F.HIF_MGMT_OWNER) 0 0 false

/-- A HANDOVER or a CLAIM that is ripe is carried out or cleared with REFUSED (R101). -/
def ownership (s : State) : State :=
  let owner := portOf (s.rd F.HIF_MGMT_OWNER)
  if s.ripe .handover then
    let s := (s.drop .handover).goDone .handover F.HIF_MGMT_HANDOVER
    if s.infl 0 ≠ 0 || !s.linkUp owner.other then s.sqc F.HIF_MGMT_REFUSED else s.moveOwner
  else if s.ripe (.claim owner.other) then
    let s := (s.drop (.claim owner.other)).goDone (.claim owner.other) F.HIF_MGMT_CLAIM
    if !s.linkUp owner && (s.port owner).downAt + msClk 100 ≤ s.clk then s.moveOwner
    else s.sqc F.HIF_MGMT_REFUSED
  else if s.ripe (.claim owner) then
    ((s.drop (.claim owner)).goDone (.claim owner) F.HIF_MGMT_CLAIM).sqc F.HIF_MGMT_REFUSED
  else s

/-- OWNERSHIP_CHANGE (R101, R27): at the frame boundary. -/
def execOwnershipChange (s : State) : Host.Outcome State Fault Refusal :=
  .next (if s.atTick then (ownership s).mmioServe else s)

/-! ### Events and messages (R114 to R116) -/

/-- EVENTS_LOST (R114): the event ring of a context has free space again. -/
def execEventsLost (k : Ctx) (s : State) : Host.Outcome State Fault Refusal := .next (s.flushLost k)

/-- MSIX_MODERATION_TIMEOUT (R115): the oldest unsignalled record of a context is TIME µs old. -/
def execMsixModerationTimeout (k : Ctx) (s : State) : Host.Outcome State Fault Refusal :=
  .next (
    let c := s.ctx k
    if c.unsig = 0 || !s.canSend (s.ctxPort k) then s
    else (s.advTo (c.unsigAt + usClk c.modTime)).signal k)

/-- MSIX_VECTOR_UNMASK (R116): vector k of a port is unmasked, or with none the function mask clears. -/
def execMsixVectorUnmask (p : Port) (k : Option Ctx) (s : State) : Host.Outcome State Fault Refusal :=
  .next (
    if !s.linkUp p then s
    else
      match k with
      | some k => (s.wr (msixCtl p k) 0).sendPending p k
      | none => (s.setPort p { s.port p with fmask := false }).sendPendings p)

/-! ### Host watchdog (R123) -/

/-- HOST_WATCHDOG_EXPIRY (R123): TIMEOUT has elapsed without a KICK; the watchdog stops. -/
def execHostWatchdogExpiry (p : Port) (s : State) : Host.Outcome State Fault Refusal :=
  .next (
    let t := s.rd (onPort p F.HIF_WDOG_TIMEOUT)
    let x := s.port p
    if !x.dogRun || t = 0 || !portOn s p then s
    else
      let s := s.advTo (x.dogAt + msClk t)
      (s.setPort p { s.port p with dogRun := false }).trip (18 + p.num))

end Sys2Proof.Machine
end

