-- ==== Sys2Proof/Machine/Halt.lean ====
section
/-! DEFINITION. Debug halt (R225, R429 to R431). -/

namespace Sys2Proof.Machine

/-- The level a half-bridge holds through a halt: high side on, low side on, or both off (R225). A turn-on that waits out
its dead time completes. -/
def haltLevel (s : State) (h : HalfBridge) : Option Bool :=
  if s.hiz h then none
  else
    match (s.hb h).kept with
    | some l => l
    | none => if s.drive h = .force then forcedGate s h false else carrierLevel s h false

def haltRefused (s : State) (reason : Nat) : State := (s.sqc F.LCS_DBG_STAT_REFUSED).wr F.LCS_DBG_STAT_REASON reason

/-- DEBUG_HALT (R225, R429): at the frame tick the halt is refused, or every PWM counter stops and every gate command
holds its level. -/
def execDebugHalt (s : State) : Host.Outcome State Fault Refusal :=
  .next (
    if !s.atTick || !s.ripe .halt then s
    else
      let s := (s.drop .halt).goDone .halt F.LCS_DBG_CTRL_HALT
      if s.halted then s
      else if !s.lcOpen then haltRefused s 1
      else if s.anyEnergised || allAxes.any (fun n => (s.plan n).galley ≠ []) then haltRefused s 2
      else
        let s := each (List.finRange 128) (fun s h =>
          s.setHb h { s.hb h with frozen := haltLevel s h, haltAt := s.clk, notched := false }) s
        (s.wr F.LCS_LC_STAT_HALTED 1).fcsStat)

/-- The halt ends at a frame tick (R225): carriers restart from their offsets, those that reload at the tick among them, a
gate keeps its level until then, and CLP's integrators are cleared. -/
def State.debugResume (s : State) : State :=
  let s := s.wr F.LCS_LC_STAT_HALTED 0
  let s := each (List.finRange 128) (fun s h => 
    let x := s.hb h
    s.setHb h { x with frozen := none, trip := none, noRise := false, sat := 0, notched := false,
                       kept := some (if x.trip.isSome then none else x.frozen) }) s
  let s := each (List.finRange 64) (fun s p => s.setCoil p { s.coil p with reload := s.clk - 1, waiting := none }) s
  each allAxes (fun s n => s.setClp n { s.clp n with zd := 0, zq := 0, iv := 0 }) s

/-- DEBUG_RESUME (R431): at the frame tick after RESUME; with no halt in force the request has no effect but its refusal. -/
def execDebugResume (s : State) : Host.Outcome State Fault Refusal :=
  .next (
    if !s.atTick || !s.ripe .resume then s
    else
      let s := (s.drop .resume).goDone .resume F.LCS_DBG_CTRL_RESUME
      if s.halted then s.debugResume else haltRefused s 3)

/-- HALT_REFRESH_NOTCH (R225): every (EVERY + 1) × TF a half-bridge frozen with its high side on pulses its low side. -/
def execHaltRefreshNotch (h : HalfBridge) (s : State) : Host.Outcome State Fault Refusal :=
  .next (
    let x := s.hb h
    if s.halted && x.frozen = some true && !s.hiz h then
      let s := s.advTo (x.haltAt + (s.rd (F.PWM_NOTCH_EVERY (bankOfHb h)) + 1) * s.rd F.TBS_FRAME_PERIOD)
      s.setHb h { s.hb h with haltAt := s.clk, notched := true }
    else s)

end Sys2Proof.Machine
end

