-- ==== Sys2Proof/Machine/Pmu.lean ====
section
/-! DEFINITION. Supplies, power domains and Fallow states (R20 to R23, R67 to R69, R391 to R405). -/

namespace Sys2Proof.Machine

/-! ### Domains -/

/-- The domain a kept register word lies in (R454, R462, R465); the MSI-X structures lie in their port's. -/
def domOfKey (key : Nat) : Nat :=
  let p : Port := if portBBase ≤ key then .B else .A
  match rowOf (key % portBBase) with
  | some (r, i) => r.dom.dom i p
  | none => 3 + p.num

def keyRwb (key : Nat) : Nat := rwbOf (key % portBBase)

/-- The coefficient registers of the converter slices, which D5 retains (R298, R395). -/
def isCoeff (key : Nat) : Bool := 0x10000 ≤ key && key < 0x18000 && 0x140 ≤ key % 0x2000 && key % 0x2000 < 0x168

/-- A domain loses power while D5 keeps it: its registers but the RWB fields go to their reset words (R68, R69). -/
def State.dropRegs (s : State) (d : Nat) : State :=
  let keep := fun x : Nat × Word =>
    if domOfKey x.1 ≠ d || isCoeff x.1 then some x
    else
      let w := mergeMask (keyRwb x.1) (resetWord x.1) x.2
      if w = resetWord x.1 then none else some (x.1, w)
  { s with regs := s.regs.filterMap keep,
           loHeld := s.loHeld.filter fun x : Nat × Word => domOfKey x.1 ≠ d || keyRwb x.1 ≠ 0 }

def coilsOfBank (b : Bank) : List Coil := (List.finRange 16).map fun i => ⟨16 * b.val + i.val, by omega⟩

/-- A port whose domain is off: what outlives that is whether its link has trained since the latest reset (R100), when it
went down (R101) and the records held for it (R124). -/
def PortS.dark (p : PortS) : PortS := { PortS.init with everUp := p.everUp, downAt := p.downAt, held := p.held }

/-- What the logic of a domain held is gone (R69, R408). -/
def State.clearDom (s : State) (d : Nat) : State :=
  if d = 1 then { s with fcs := FcsS.init }
  else if d = 2 then
    { s with ckg := { CkgS.init with xoAt := s.ckg.xoAt, xoGood := s.ckg.xoGood, xoSince := s.ckg.xoSince,
                                     trimmed := s.ckg.trimmed } }
  else if d = 3 then { s with portA := s.portA.dark }
  else if d = 4 then { s with portB := s.portB.dark }
  else if 8 ≤ d && d < 12 then
    let b : Bank := ⟨(d - 8) % 4, by omega⟩
    let s := s.setGdr b { s.gdr b with inA := false, inB := false }
    let s := each (coilsOfBank b) (fun s p => s.setCoil p CoilS.init) s
    let s := each (axesOfBank b) (fun s n => (s.setClp n ClpS.init).setFbk n { FbkS.init with steps := 0 }) s
    each (hbsOfBank b) (fun s h => s.setHb h { HbS.init with react := (s.hb h).react, vg := (s.hb h).vg }) s
  else if 12 ≤ d then
    let b : Bank := ⟨(d - 12) % 4, by omega⟩
    let a := s.adc b
    let g := s.gdr b
    let s := s.setAdc b { AdcS.init b.val with latched := a.latched, valid := a.valid, offset := a.offset }
    let s := s.setGdr b { GdrS.init with inA := g.inA, inB := g.inB }
    each (hbsOfBank b) (fun s h => s.setHb h { s.hb h with vg := false, edge := false, soft := none, bst := false }) s
  else s

/-- The link of a port goes with its domain: no source is raised (R121, R400). -/
def State.unpowerPort (s : State) (p : Port) : State :=
  let up := s.linkUp p
  let s := if up then (s.setPort p { s.port p with downAt := s.clk }).fetchStop p else s
  if up && s.rd F.TBS_PTM_CTRL_PORT = p.num then s.ptmLose else s

/-- A domain is switched off (R21). Without the core clock or TBS no frame runs and the GTC stands (R20). -/
def State.dropDomain (s : State) (d : Nat) : State :=
  let s := if d = 3 then s.unpowerPort .A else if d = 4 then s.unpowerPort .B else s
  let xo := s.rd F.CLK_STAT_XO
  let s := (s.dropRegs d).clearDom d
  let s := if d = 2 then s.wr F.CLK_STAT_XO xo else s
  let pg := s.rd F.PMU_DOM_STAT_PG
  let s := if bit d pg then s.wr F.PMU_DOM_STAT_PG (pg - 2 ^ d) else s
  let s := { s with pmu := { s.pmu with rising := s.pmu.rising.filter fun x : Nat × Nat => x.1 ≠ d } }
  let s := if d = 2 || d = 5 then { s with ticking := false, gtcRuns := false } else s
  if d = 3 then s.recUpdate else s

/-- A domain's supply is switched on: it reaches power-good later (R394). -/
def State.raise (s : State) (d clk : Nat) : State :=
  if s.powered d || s.pmu.rising.any (fun x : Nat × Nat => x.1 = d) then s
  else { s with pmu := { s.pmu with rising := s.pmu.rising ++ [(d, clk)] } }

def State.setPg (s : State) (d : Nat) : State :=
  let pg := s.rd F.PMU_DOM_STAT_PG
  if bit d pg then s else s.wr F.PMU_DOM_STAT_PG (pg + 2 ^ d)

/-- A domain is on, or on its way. -/
def wants (s : State) (d : Nat) : Bool := s.powered d || s.pmu.rising.any fun x : Nat × Nat => x.1 = d

/-- The parents of a domain (R20). -/
def parents (d : Nat) : List Nat :=
  if d = 3 || d = 4 then [2, 5] else if d = 5 then [2] else if d = 6 then [5]
  else if 8 ≤ d && d < 12 then [5, 6] else if 12 ≤ d then [1, d - 4] else []

/-- DOMAIN_POWERED (R298, R321, R394, R414): a domain reaches power-good 20 µs after it was switched on. A bank analog
domain without retained coefficients first runs a FULL calibration of its own, and the items its bank has not been tested in
(none where VGb is still out of range, else whether they pass). -/
def execDomainPowered (d : Fin 16) (cals : List (Bank × Fin 5 × SliceCal)) (offs : List (Coil × BitVec 16))
    (items : Option Bool) (s : State) : Host.Outcome State Fault Refusal :=
  .next (
    match s.pmu.rising.find? fun x : Nat × Nat => x.1 = d.val with
    | none => s
    | some (_, t) =>
      if !((parents d.val).all s.powered) then s
      else
        let done := fun s : State =>
          State.setPg { s with pmu := { s.pmu with rising := s.pmu.rising.filter fun x : Nat × Nat => x.1 ≠ d.val } } d.val
        if d.val < 8 then done (s.advTo (t + usClk 20))
        else if d.val < 12 then
          let b : Bank := ⟨(d.val - 8) % 4, by omega⟩
          let s := done (s.advTo (t + usClk 20))
          each ((axesOfBank b).filter fun n => isQuad s n) (fun s n => s.restartQuad n) s
        else
          let b : Bank := ⟨(d.val - 12) % 4, by omega⟩
          let untested := bit b.val (s.rd F.LCS_ST_RES_UNTESTED)
          let full := !(s.adc b).valid && !s.lcs.booting
          let wait := usClk 20 + (if full then 1300000 else 0) + (if untested && items.isSome then msClk 65 else 0)
          let s := s.advTo (t + wait)
          let s := if full then fullBank cals offs s b else s.setAdc b { s.adc b with calAt := s.clk, auxAt := s.clk }
          let s := s.setGdr b { s.gdr b with markAt := s.clk }
          let s := done s
          if untested then
            match items with
            | some true => s.wr F.LCS_ST_RES_UNTESTED (s.rd F.LCS_ST_RES_UNTESTED - 2 ^ b.val)
            | some false => (s.wr F.LCS_ST_RES_BANK (Nat.lor (s.rd F.LCS_ST_RES_BANK) (2 ^ b.val))).enterHeld 1 (76 + 16 * b.val)
            | none => s
          else s)

/-- A removal that PMU refuses (R394): a powered child, or an energised axis of the bank. -/
def removeRefused (s : State) (d : Nat) : Bool :=
  if 8 ≤ d && d < 12 then wants s (d + 4) || s.bankEnergised ⟨(d - 8) % 4, by omega⟩
  else if 12 ≤ d then s.bankEnergised ⟨(d - 12) % 4, by omega⟩
  else false

/-- One domain of an applied request, removals before what is switched on. -/
def requestOff (s : State) (d : Nat) : State :=
  if bit d (s.rd F.PMU_DOM_REQ_REQ) || !wants s d then s
  else if removeRefused s d then
    let s := s.wr F.PMU_DOM_REQ_REQ (s.rd F.PMU_DOM_REQ_REQ + 2 ^ d)
    let b := F.PMU_DOM_REQ_REQ.get (s.buf Reg.PMU_DOM_REQ)
    let s := if bit d b then s else s.setBuf Reg.PMU_DOM_REQ (F.PMU_DOM_REQ_REQ.put (s.buf Reg.PMU_DOM_REQ) (b + 2 ^ d))
    s.sqc F.PMU_STAT_DOM_REF
  else s.dropDomain d

def requestOn (s : State) (d : Nat) : State :=
  if !bit d (s.rd F.PMU_DOM_REQ_REQ) then s
  else
    let s := if 12 ≤ d then s.raise (d - 4) s.clk else s
    s.raise d s.clk

/-- PMU_STAT.STATE lets a domain be on (R395): FALLOW-3 keeps D12 to D15 off, FALLOW-2 D8 to D11 too. -/
def stateKeeps (s : State) (d : Nat) : Bool :=
  let st := s.rd F.PMU_STAT_STATE
  st < 2 || (st = 2 && d < 12) || (st = 3 && d < 8)

/-- DOMAIN_REQUEST_APPLY (R394): at its frame tick a request is applied in the order of R21. A domain that the Fallow state
in force keeps off comes with the resume. -/
def execDomainRequestApply (s : State) : Host.Outcome State Fault Refusal :=
  .next (
    if !s.atTick || s.lcs.booting then s
    else
      let s := each [15, 14, 13, 12, 11, 10, 9, 8, 4, 3] requestOff s
      each ([3, 4, 8, 9, 10, 11, 12, 13, 14, 15].filter (stateKeeps s)) requestOn s)

/-- The domains that need domain d, children first (R20). -/
def below (d : Nat) : List Nat :=
  if d = 1 then [15, 14, 13, 12]
  else if d = 2 then [15, 14, 13, 12, 11, 10, 9, 8, 6, 4, 3, 5]
  else if d = 5 then [15, 14, 13, 12, 11, 10, 9, 8, 6, 4, 3]
  else if d = 6 then [15, 14, 13, 12, 11, 10, 9, 8]
  else if 8 ≤ d && d < 12 then [d + 4] else []

/-- The bank of a bank domain. -/
def bankOfDom (d : Nat) : Bank := ⟨d % 4, by omega⟩

/-- The sources that the loss of a domain raises: of a bank domain while an axis of the bank is energised (R391, R393). -/
def lossSource (s : State) (d : Nat) : Option Nat :=
  if 8 ≤ d && s.bankEnergised (bankOfDom d) then
    some (64 + 16 * (bankOfDom d).val + (if 12 ≤ d then 12 else 10))
  else none

/-- The axes that a loss leaves to be turned off once the reactions have run: the energised ones of a bank without its analog
domain (R22), and with the planner every axis that still has work (R20). -/
def lossAxes (s : State) (lost : List Nat) : List Axis :=
  allAxes.filter fun n => lost.contains (12 + (bankOfAxis n).val) && s.energised n ||
    lost.contains 6 && (s.plan n).galley ≠ []

/-- DOMAIN_POWER_GOOD_LOST (R20, R22, R391, R393): a switched domain loses power-good, and every domain that needs it goes
with it. The axes of a bank without its analog domain are de-energised, whatever reaction the source has (log entry 108). -/
def execDomainPowerGoodLost (d : Fin 16) (s : State) : Host.Outcome State Fault Refusal :=
  .next (
    if d = 0 || !s.powered d.val then s
    else
      let s0 := s
      let lost := (below d.val ++ [d.val]).filter s.powered
      let s := s.finding (each (lost.filterMap (lossSource s)) fun s src => s.detect src)
      let s := each (lossAxes s lost) (fun s n => s.turnOff n (.fault (64 + 16 * (bankOfAxis n).val + 12))) s
      State.arranged s0 (each lost (fun s d => s.dropDomain d) s).fcsStat)

/-! ### Rails (R391, R392) -/

/-- SUPPLY_OUT_OF_WINDOW (R391): VDD (0), VDDA (1) or VIOH (2) has been outside its window for 2 µs. -/
def execSupplyOutOfWindow (rail : Fin 3) (s : State) : Host.Outcome State Fault Refusal :=
  .next (
    if !s.powered 1 then s
    else
      let s := { s with pmu := { s.pmu with vdd := s.pmu.vdd && rail ≠ 0, vdda := s.pmu.vdda && rail ≠ 1,
                                            vioh := s.pmu.vioh && rail ≠ 2 } }
      s.trip (28 + rail.val) (active := true))

/-- SUPPLY_BACK_IN_WINDOW (R391): the source is no longer ACTIVE. -/
def execSupplyBackInWindow (rail : Fin 3) (s : State) : Host.Outcome State Fault Refusal :=
  .next (
    if !s.powered 1 then s
    else
      let s := { s with pmu := { s.pmu with vdd := s.pmu.vdd || rail = 0, vdda := s.pmu.vdda || rail = 1,
                                            vioh := s.pmu.vioh || rail = 2 } }
      s.inactive (28 + rail.val))

/-- PWREN_ASSERT (R392): 1 ms after VAON passed its threshold PWREN is driven high. -/
def execPwrenAssert (s : State) : Host.Outcome State Fault Refusal :=
  .next (
    if !s.pmu.vaon || s.pmu.pwren || s.pmu.retry || s.rd F.PMU_STAT_STATE = 5 then s
    else
      let s := s.advTo (s.pmu.vaonAt + msClk 1)
      { s with pmu := { s.pmu with pwren := true, pwrenAt := s.clk } })

/-- PWREN_TIMEOUT (R392): a rail has not been in its window by 50 ms after PWREN rose. -/
def execPwrenTimeout (s : State) : Host.Outcome State Fault Refusal :=
  .next (
    if !s.pmu.pwren || s.pmu.rails then s
    else
      let s := s.advTo (s.pmu.pwrenAt + msClk 50)
      State.sqc { s with pmu := { s.pmu with pwren := false, retry := true, pwrenAt := s.clk } } F.PMU_STAT_PWRFAIL)

/-- PWREN_RETRY (R392): 1 s later PWREN rises again. -/
def execPwrenRetry (s : State) : Host.Outcome State Fault Refusal :=
  .next (
    if !s.pmu.retry || !s.pmu.vaon then s
    else
      let s := s.advTo (s.pmu.pwrenAt + msClk 1000)
      { s with pmu := { s.pmu with pwren := true, retry := false, pwrenAt := s.clk } })

/-! ### Wake (R401) -/

/-- WAKE_PIN (R401): a rising edge on WAKE, held high for 10 µs. -/
def execWakePin (s : State) : Host.Outcome State Fault Refusal := .next (s.wakeEvent 1)

/-- The GTC as the shadow gives it in FALLOW-1, in 40 ns steps (R23). -/
def shadowGtc (s : State) : Nat :=
  match s.pmu.shadow with
  | some (g, c) => g + (s.clk - c) / 10 * 40 * 2 ^ 24
  | none => s.gtc

/-- TIMED_WAKE (R401): the GTC, or its shadow, reaches PMU_WAKE_AT with WEN set. -/
def execTimedWake (s : State) : Host.Outcome State Fault Refusal :=
  .next (
    let at_ := s.rd64 Reg.PMU_WAKE_AT_LO
    let st := s.rd F.PMU_STAT_STATE
    if !s.flag F.PMU_WAKE_EN_WEN || st < 2 || 4 < st then s
    else
      let s :=
        match s.pmu.shadow with
        | some (g, c) => if at_ * 2 ^ 24 ≤ g then s else s.advTo (c + 10 * ceilDiv (at_ * 2 ^ 24 - g) (40 * 2 ^ 24))
        | none => s.advToGtc at_
      s.wakeEvent 2)

/-! ### Fallow entry (R396 to R399) -/

/-- FALLOW_DWELL_ELAPSED (R397): with AUTO set, the target's conditions have held for DWELL ms at this frame tick. -/
def execFallowDwellElapsed (s : State) : Host.Outcome State Fault Refusal :=
  .next (
    match s.pmu.since with
    | some (d, c) =>
      if s.atTick && s.flag F.PMU_CFG_AUTO && fallowTarget s = some d && s.rd F.PMU_STAT_STATE < d + 1 &&
          c + msClk (s.rd F.PMU_DWELL_DWELL) ≤ s.clk then
        { s with pmu := { s.pmu with dwelt := true } }
      else s
    | none => s)

/-- The domains that go in the state with STATE code st, child first (R395, R398). -/
def fallowDrops (st : Nat) : List Nat :=
  [15, 14, 13, 12] ++ (if 3 ≤ st then [11, 10, 9, 8] else []) ++ (if 4 ≤ st then [6, 4, 3, 5, 2] else []) ++
  (if 5 ≤ st then [7, 1] else [])

/-- PMU switches the domains off and the state is reached (R23, R395, R398, R400). -/
def State.fallowSwitch (s : State) (st : Nat) : State :=
  let s := each (fallowDrops st) (fun s d => if wants s d then s.dropDomain d else s) s
  let s := s.wr F.PMU_STAT_STATE st
  let s := { s with pmu := { s.pmu with entering := none, dwelt := false, since := none } }
  let s := if 4 ≤ st then
      { s with pmu := { s.pmu with shadow := if st = 4 then some (s.gtc, s.clk) else none },
               gtcRuns := false, ticking := false }
    else s
  let s := if 4 ≤ st then s.fcsStat else s
  if st = 5 then
    { s.wr F.CLK_STAT_XO 0 with
      pmu := { s.pmu with pwren := false, rails := false, vdd := false, vdda := false, pwrenAt := s.clk } }
  else s

/-- An entry may go on: the PLL has locked on the XO, and the ledger is written (R398, R399). -/
def fallowReady (s : State) (st : Nat) : Bool :=
  (st < 3 || s.flag F.CLK_STAT_LOCK) && s.ckg.sw.isNone && (st < 4 || s.ledger.queue = [])

/-- The entry begins (R398, R399): with REC the reference CKG moves to the XO first; before FALLOW-1 and FALLOW-0 a ledger
entry and a counter snapshot are made. The snapshot is given by `snap`. -/
def State.fallowBegin (s : State) (st : Nat) (snap : State → State) : State :=
  let s := { s with pmu := { s.pmu with entering := some st } }
  let s := if 3 ≤ st && s.rd F.CLK_STAT_REF = 2 then s.switchTo 1 false else s
  let s := if 4 ≤ st then snap (s.ledPush 7 [wordOf st, wordOf s.fcs.recs.length, 0#32, 0#32]) else s
  if fallowReady s st then s.fallowSwitch st else s

/-! ### Resume (R402, R403) -/

/-- The domains the host has requested, parents first. -/
def requested (s : State) (ds : List Nat) : List Nat := ds.filter fun d => bit d (s.rd F.PMU_DOM_REQ_REQ)

/-- IDLE is reached (R395, R401): the event is recorded and the time it took. -/
def State.idleReached (s : State) : State :=
  let (code, t) := s.pmu.wake.getD (7, s.clk)
  let us := (s.clk - t + 249) / 250
  let s := (s.wr F.PMU_STAT_STATE 1).wr F.PMU_STAT_WAKE code
  let s := s.wr F.PMU_CTRL_RESUME 0
  let s := if s.pmu.resuming then s.wr F.PMU_RESUME_T_T (min us (2 ^ 32 - 1)) else s
  { s with pmu := { s.pmu with wake := none, resuming := false } }

/-- FALLOW_RESUME_DONE (R395): the domains are back and PMU_STAT.STATE reads IDLE. -/
def execFallowResumeDone (s : State) : Host.Outcome State Fault Refusal :=
  .next (
    if s.pmu.resuming && s.pmu.rising = [] && !s.lcs.booting && s.rd F.PMU_STAT_STATE < 4 then s.idleReached else s)

end Sys2Proof.Machine
end

