-- ==== Sys2Proof/Machine/Strobe.lean ====
section
/-! DEFINITION. What is applied at a frame boundary: strobes, CONFIG changes, budgets, quotas and the lock-up (R27, R80 to
R94, R112, R138, R139, R184 to R186). -/

namespace Sys2Proof.Machine

/-! ### Curtailment (R184 to R186) -/

/-- PRIO of the segment in progress; 0 where there is none (R185). -/
def axisPrio (s : State) (n : Axis) : Nat :=
  match inProg s n with
  | some g => if g.op = 1 || g.op = 2 || g.op = 3 then g.d.u8 46 else 0
  | none => 0

/-- The axes that take part, lowest PRIO first, then highest number first (R185). -/
def curtailOrder (s : State) (b : Bank) : List Axis :=
  let part := (axesOfBank b).filter fun n => s.energised n &&
    match (s.plan n).leave with
    | none => true
    | some l => causeRank l.cause = 5
  part.insertionSort fun x y =>
    axisPrio s x < axisPrio s y || (axisPrio s x = axisPrio s y && y.val ≤ x.val)

/-- Every bin from the present one on, and the tail, lie at or below the budget. -/
def withinBudget (s : State) (b : Bank) (mA : Nat) : Bool := peakDraw (s.books b) s.binNs s.now ≤ mA

/-- First pass: the remaining work of an axis becomes its Headland's braking part and then standing draw; it brakes from the
next half-frame (R185). -/
def curtailOne (s : State) (n : Axis) (mA : Nat) : State :=
  match (s.plan n).leave with
  | some _ => s
  | none =>
    let b := bankOfAxis n
    let r := refNow s n
    let m := headland s.now r.1 r.2.1 r.2.2 (hdec s n) (hjerk s n)
    let s := s.reach n (.curtail mA) false (s.tickClk + s.period / 2)
    let book := if m.phases = [] then
        cutBook (s.plan n).book s.now ++ [⟨s.now, none, (s.load n).standDraw (s.rd (F.MPL_IHOLD_IHOLD n))⟩]
      else leaveBook s n s.now (phasesNs m.phases) 0 false
    let s := s.setPlan n { s.plan n with book }
    s.setBank b { s.bank b with curtailed := (s.bank b).curtailed ++ [n] }

/-- Second pass: its standing draw after braking goes, and its gate enables with it, as for SS1 (R185, R186). -/
def curtailOff (s : State) (n : Axis) : State :=
  match (s.plan n).leave with
  | none => s
  | some l =>
    let book := (s.plan n).book.filter fun k => k.t1 ≠ none
    let s := s.setPlan n { s.plan n with leave := some { l with gatesOff := true }, book }
    if (s.ss1 n).isNone then s.setSs1 n (some ⟨s.clk, none, 0, 0, 0, 0⟩) else s

/-- Curtailment starts (R185, R186). -/
def State.curtail (s : State) (b : Bank) (mA : Nat) : State :=
  let draw := peakDraw (s.books b) s.binNs s.now
  let order := curtailOrder s b
  let s := ((s.wr (F.MPL_CURT_STAT_ACTIVE b) 1).sqc (F.MPL_CURT_STAT_STARTED b)).cnt (F.MPL_CURT_STAT_COUNT b)
  let s := s.bankEvent b 0x15 mA draw
  let s := each order (fun s n => if withinBudget s b mA then s else curtailOne s n mA) s
  let s := each order (fun s n => if withinBudget s b mA then s else curtailOff s n) s
  s.curtSettle b

/-- A new budget comes into force (R184). -/
def State.setBudget (s : State) (b : Bank) (mA : Nat) : State :=
  let s := (s.wr (F.MPL_BUDGET_BUDGET b) mA).setBank b { s.bank b with budgetSet := true }
  if withinBudget s b mA then s.curtSettle b else s.curtail b mA

/-! ### What new values start -/

/-- The first setpoint hand-off of the frame follows the changes of its boundary (R27): CLP takes the setpoints anew. -/
def State.reHand (s : State) : State :=
  if s.halted || !s.ticking then s
  else each allAxes (fun s n => if (s.bank (bankOfAxis n)).missRun = 0 then giveSetpoint s n else s) s

/-- Rings restart where EN, PORT, DB_MODE, a size or a base of the context changed (R106, R126). -/
def afterHif (s0 s : State) : State :=
  each allCtxs (fun s k =>
    let cfg := fun x : State => Nat.land (x.reg (Reg.HIF_CTX_CFG k)).toNat 0xFFF7
    let bases := fun x : State =>
      [Reg.HIF_CTX_DQB_LO k, Reg.HIF_CTX_DQB_HI k, Reg.HIF_CTX_CQB_LO k, Reg.HIF_CTX_CQB_HI k, Reg.HIF_CTX_EQB_LO k,
       Reg.HIF_CTX_EQB_HI k].map x.reg
    if cfg s0 = cfg s && bases s0 = bases s then s else s.restartRings k) s

/-- A change of PREF moves the reference where the new source is VALID (R379); REC follows REC_EN (R374); CLKOUT turns over
from its setting before to the new one (R389). -/
def afterCkg (s0 s : State) : State :=
  let out := (s0.rd F.CKG_CLKOUT_SEL, s0.rd F.CKG_CLKOUT_DIV)
  let s := if out = (s.rd F.CKG_CLKOUT_SEL, s.rd F.CKG_CLKOUT_DIV) then s
    else { s with ckg := { s.ckg with outOld := out, outAt := s.clk } }
  let s := if s0.flag F.CKG_CFG_REC_EN = s.flag F.CKG_CFG_REC_EN then s else s.recUpdate
  if s0.flag F.CKG_CFG_PREF ≠ s.flag F.CKG_CFG_PREF && mayReturn s then s.switchTo (prefSrc s) false else s

/-- A change of PERIOD (R214): every channel keeps the gate level of the tick until its first reload under the new timing.
SPLIT sets where a channel is driven from the open-loop registers and its PWM_OLH is not applied by the same strobe, that
is, its group is not in the mask or it holds no write (log entry 118). -/
def afterPeriod (s0 : State) (m : Nat) (s : State) : State :=
  if s0.rd F.TBS_FRAME_PERIOD = s.rd F.TBS_FRAME_PERIOD then s
  else
    let s := if s.halted then s
      else each (List.finRange 128) (fun s h => s.setHb h { s.hb h with kept := some (s0.gate h) }) s
    each allBanks (fun s b =>
      let split := (hbsOfBank b).any fun h => s.drive h = .openLoop &&
        !(bit (8 + b.val) m && s0.dirtyBits (Reg.PWM_OLH h) ≠ 0#32)
      if split then s.sqc (F.PWM_STAT_SPLIT b) else s) s

/-- LIM (R184), the sequence (R304), and what open-loop registers drive (R213, R222, R224). -/
def afterBank (s0 s : State) (b : Bank) : State :=
  let lim := s.rd (F.MPL_BUDGET_LIM_LIM b)
  let s := if s0.rd (F.MPL_BUDGET_LIM_LIM b) = lim then s
    else if (s.bank b).budgetSet then s.setBudget b (min lim (s.rd (F.MPL_BUDGET_BUDGET b)))
    else s.setBudget b lim
  let s := each (List.finRange 16) (fun s (k : Fin 16) =>
    let e := 16 * b.val + k.val
    let was := s0.reg (Reg.ADC_SEQ e)
    let w := s.reg (Reg.ADC_SEQ e)
    let diff := fun f : Fld => f.get was ≠ f.get w
    let n := if diff (F.ADC_SEQ_FLT e) then 2 ^ (F.ADC_SEQ_FLT e).get w else 0
    let n := if diff (F.ADC_SEQ_GAIN e) then max n 2 else n
    let n := if diff (F.ADC_SEQ_SRC e) then max n 1 else n
    if n = 0 then s
    else
      let a := s.adc b
      let aux := if diff (F.ADC_SEQ_SRC e) then a.aux.set k [] else a.aux
      s.setAdc b { a with auxSettle := a.auxSettle.set k (max a.auxSettle[k] n), aux }) s
  each (hbsOfBank b) (fun s h =>
    let same := s0.reg (Reg.PWM_OLH h) = s.reg (Reg.PWM_OLH h) && s0.reg (Reg.PWM_OLL h) = s.reg (Reg.PWM_OLL h) &&
      s0.reg (Reg.PWM_OLEN b) = s.reg (Reg.PWM_OLEN b)
    if same then s
    else
      let x := s.hb h
      let x := if s0.reg (Reg.PWM_OLL h) = s.reg (Reg.PWM_OLL h) then x
        else { x with ollAt := s.clk, ollOld := if x.ollAt = s.clk then x.ollOld else s0.reg (Reg.PWM_OLL h) }
      let s := s.setHb h { x with bothSeen := false }
      if s.drive h = .openLoop && !s.halted then s.setShadow h (s.rd (F.PWM_OLH_HCMP h)) else s) s

/-- GAIN of a coil (R300), the commutation MODE (R200), MODE of the encoder (R320, R321, R337): HOMED then stays clear until
a HOME, or until an absolute encoder is the source (R193), and with no encoder there is no difference to show (R251). -/
def afterAxis (s0 s : State) (n : Axis) : State :=
  let s := each (coilsOfAxis n) (fun s p =>
    if s0.rd (F.ADC_CS_GAIN p) = s.rd (F.ADC_CS_GAIN p) then s
    else
      let b := bankOfCoil p
      let i : Fin 16 := ⟨p.val % 16, by omega⟩
      s.setAdc b { s.adc b with settle := (s.adc b).settle.set i 2 }) s
  let s := if s0.flag (F.CLP_CTRL_MODE n) = s.flag (F.CLP_CTRL_MODE n) then s else s.setClp n { s.clp n with iv := 0 }
  if s0.rd (F.FBK_CFG_MODE n) = s.rd (F.FBK_CFG_MODE n) then s
  else
    let f := s.fbk n
    let s := s.setFbk n { FbkS.init with steps := f.steps, xPrev := f.xPrev }
    let s := (s.wrS64 (Reg.FBK_ADJ_LO n) 0).wr (F.FBK_STAT_VALID n) 0
    let s := s.setPlan n { s.plan n with homed := false }
    let s := if encoder s n then s else s.wrS (F.LES_DIFF_DIFF n) 0
    s0.sourceMoved (if isQuad s n && fbkOn s n then s.restartQuad n else s) n

/-- What the values just applied to the groups of a mask start; s0 is the state before. -/
def State.applied (s0 : State) (m : Nat) (s : State) : State :=
  let s := if bit 0 m then (afterPeriod s0 m s).syncMoved else s
  let s := if bit 1 m then afterHif s0 s else s
  let s := if bit 2 m then s.fcsStat else s
  let s := if bit 3 m then afterCkg s0 s else s
  let s := if bit 4 m && s.atTick then s.dwellTick else s
  let s := if bit 4 m && s.rd F.PMU_CFG_LAT < s0.rd F.PMU_CFG_LAT then s.wakeEvent 6 else s
  let s := each (allBanks.filter fun b => bit (8 + b.val) m) (fun s b => afterBank s0 s b) s
  let s := each allAxes (fun s n => if bit (32 + n.val) m || bit (8 + n.val / 8) m then afterAxis s0 s n else s) s
  s.reHand

/-! ### CONFIG_AXIS and CONFIG_BANK (R87, R138) -/

/-- The buffered copies with the pairs of a CONFIG descriptor laid over them (R87). -/
def withPairs (s : State) (d : Desc) : State :=
  each (configPairs d) (fun s x =>
    match rowOf x.2.1 with
    | some (r, _) => s.bufWrite r x.2.1 0xFFFFFFFF x.2.2
    | none => s) s

/-- The axes that a CONFIG applied at this tick has stopped. -/
def stoppedAxes (s : State) : List Axis :=
  (s.ops.filter fun o => isConfig o.op && o.begun && o.left = [] && 2 * (s.now - o.t1) < 3 * s.tfNs).flatMap (·.axes)

/-- The change of a CONFIG is applied as a strobe of its group alone, or is found not to apply (R87, R138, R337). -/
def State.configApply (s : State) (o : Op) : State :=
  let g := configGroup o.op o.d
  let s := each o.axes (fun s n => if s.energised n then s.deenergise n else s) s
  let t := withPairs s o.d
  match strobeFails t o.axes (2 ^ g) with
  | some x => s.setOp { o with left := [], data := [x.2] }
  | none =>
    let s' := (State.applied s (2 ^ g) (t.applyGroups (2 ^ g))).setOp { o with left := [] }
    if o.op = 0x10 then
      let n := o.d.axis
      let s' := if isQuad s' n && fbkOn s' n && !s'.flag (F.FBK_STAT_VALID n) then s'.restartQuad n else s'
      State.sourceMoved s' (s'.setPlan n { s'.plan n with useLes := encoder s' n && !s'.flag (F.FBK_STAT_VALID n) }) n
    else s'

/-- CONFIG_APPLY (R87, R138): at the first frame boundary at which the function is stopped. -/
def execConfigApply (tag : Fin 1024) (s : State) : Host.Outcome State Fault Refusal :=
  .next (
    match s.opOf tag with
    | some o => if configDue s o then (s.boundary fun s => s.configApply o).mmioServe else s
    | none => s)

/-! ### Strobe (R81 to R88) -/

/-- The mask registers of the strobe and of the lock-up. -/
def updMask (s : State) : Nat := s.rd64 Reg.LCS_UPD_MASK_LO
def lockMask (s : State) : Nat := s.rd64 Reg.LCS_LOCK_MASK_LO

/-- The strobe is refused (R83). -/
def State.strobeRefuse (s : State) (g reason : Nat) : State :=
  let s := (s.sqc F.LCS_UPD_STAT_REFUSED).wr F.LCS_UPD_STAT_REASON reason
  (s.wr F.LCS_UPD_STAT_GROUP g).devEvent 0x0002 reason g 0 false

/-- The mask a strobe takes: as it stood at the end of the clock before the tick (R82). -/
def tickMask (s : State) : Nat := (s.before Reg.LCS_UPD_MASK_LO).toNat + 2 ^ 32 * (s.before Reg.LCS_UPD_MASK_HI).toNat

/-- The strobe that waits is carried out on the groups of the mask, all or none (R83, R84). -/
def State.strobe (s : State) : State :=
  let m := tickMask s
  match strobeFails s (stoppedAxes s) m with
  | some (g, r) => s.strobeRefuse g r
  | none =>
    let t := State.applied s m (s.applyGroups m)
    (t.sqc F.LCS_UPD_STAT_DONE).setReg Reg.LCS_UPD_LAST (s.reg Reg.TBS_FRAME_CNT)

/-- STROBE_APPLY (R82 to R88): at the frame tick; a CONFIG due at the same boundary is applied with it (R87). One with group
CKG in the clock in which a failure starts a switch waits for the next tick (R388). -/
def execStrobeApply (s : State) : Host.Outcome State Fault Refusal :=
  .next (
    if !s.atTick || !s.ripe .strobe || !strobeRuns s then s
    else if bit 3 (tickMask s) && s.ckg.failAt = some s.clk then s
    else
      let s := s.drop .strobe
      let s := (if s.has .strobe then s else s.wr F.LCS_UPD_STAT_BUSY 0).goDone .strobe F.LCS_UPD_CTRL_GO
      (s.boundary fun s => (each (s.ops.filter (configDue s)) (fun s o => s.configApply o) s).strobe).mmioServe)

/-! ### Budgets and quotas -/

/-- BUDGET_APPLY (R139, R184): at the frame tick after its decision. -/
def execBudgetApply (b : Bank) (s : State) : Host.Outcome State Fault Refusal :=
  .next (
    match (s.bank b).budgetNext with
    | some (mA, t) =>
      if s.atTick && t < s.tickClk then
        ((s.setBank b { s.bank b with budgetNext := none }).setBudget b mA).reHand
      else s
    | none => s)

/-- QUOTA_APPLY (R112, R139): the one field takes the value, applied and buffered. -/
def execQuotaApply (k : Ctx) (s : State) : Host.Outcome State Fault Refusal :=
  .next (
    match (s.ctx k).quota with
    | some (q, t) =>
      if s.atTick && t < s.tickClk then
        let off := Reg.HIF_CTX_QUOTA k
        let s := s.setCtx k { s.ctx k with quota := none }
        let s := (s.wr (F.HIF_CTX_QUOTA_QUOTA k) q).setBuf off ((F.HIF_CTX_QUOTA_QUOTA k).put (s.buf off) q)
        s.setDirty off 0#32
      else s
    | none => s)

/-! ### Lock-up (R91 to R94) -/

def State.lockRefuse (s : State) (reason : Nat) : State :=
  (s.sqc F.LCS_LOCK_STAT_REFUSED).wr F.LCS_LOCK_STAT_REASON reason

/-- The registers of the groups of a mask that have RWB fields, in rising offset. -/
def groupRegs (m : Nat) : List Nat :=
  let all := (allRows.filter fun r => r.rwb ≠ 0).flatMap fun r =>
    (List.range r.count).filterMap fun i =>
      match r.grp.bit? i with
      | some g => if bit g m then some (r.offset i) else none
      | none => none
  all.insertionSort fun a b => a ≤ b

/-- The configuration store takes the applied values of the locked groups (R416). -/
def storeWords (s : State) (m : Nat) : List (Nat × Word) :=
  (groupRegs m).map fun off => (off, mergeMask (rwbOf off) 0#32 (s.reg off))

/-- LOCK_UP (R92): at the frame boundary after LOCK, behind the strobes and the re-plans. -/
def execLockUp (s : State) : Host.Outcome State Fault Refusal :=
  .next (
    if !s.atTick || !s.ripe .lockUp || firstPending s then s
    else
      let m := lockMask s
      let s := s.drop .lockUp
      if !s.lcOpen then (s.lockRefuse 3).goDone .lockUp F.LCS_LOCK_CTRL_LOCK
      else if Nat.land (pendMask s) m ≠ 0 then (s.lockRefuse 1).goDone .lockUp F.LCS_LOCK_CTRL_LOCK
      else { s with lcs := { s.lcs with freeze := some (m, s.clk) } })

/-- LOCK_UP_COMPLETE (R92, R416): 2 ms later the proof word is there: the lock-up holds, or EXPECT refuses it. The spec gives
2 ms as the longest the computation takes; the model takes all of it (DESIGN CHOICE, log entry 74). -/
def execLockUpComplete (s : State) : Host.Outcome State Fault Refusal :=
  .next (
    match s.lcs.freeze with
    | none => s
    | some (m, t) =>
      let s := (s.advTo (t + msClk 2)).goEnd F.LCS_LOCK_CTRL_LOCK fun s => s.post .lockUp
      let w := proofWord s m
      if s.flag F.LCS_LOCK_CTRL_EXPECT_EN && w ≠ s.reg Reg.LCS_PROOF_EXPECT then
        State.lockRefuse { s with lcs := { s.lcs with freeze := none } } 2
      else
        let lcs := { s.lcs with freeze := none, locked := m, passAt := s.clk, lockEntry := some w,
                                store := some ⟨m, storeWords s m, w⟩ }
        let s := (State.wr { s with lcs } F.LCS_LOCK_STAT_LOCKED 1).setReg Reg.LCS_PROOF w
        s.ledPush 2 [w, BitVec.ofNat 32 m, BitVec.ofNat 32 (m / 2 ^ 32), 0#32])

/-- The lock-up in force is released (R93, R416). One whose proof word is still being computed goes on. -/
def State.unlock (s : State) : State :=
  let m := s.lcs.locked
  let s := { s with lcs := { s.lcs with locked := 0, store := none } }
  let s := (s.wr F.LCS_LOCK_STAT_LOCKED 0).setReg Reg.LCS_PROOF 0#32
  s.ledPush 3 [BitVec.ofNat 32 m, BitVec.ofNat 32 (m / 2 ^ 32), 0#32, 0#32]

/-- UNLOCK (R93): at the next frame boundary. The spec does not say when a refusal for the life-cycle state comes: it comes
there too (DESIGN CHOICE, log entry 98). -/
def execUnlock (s : State) : Host.Outcome State Fault Refusal :=
  .next (
    if !s.atTick || !s.ripe .unlock then s
    else
      let s := (s.drop .unlock).goDone .unlock F.LCS_LOCK_CTRL_UNLOCK
      if !s.lcOpen then s.lockRefuse 3
      else if s.flag F.LCS_LOCK_STAT_LOCKED then s.unlock else s)

/-- CONFIG_CHECK_PASS (R94): a pass of at most 2 ms ends. -/
def execConfigCheckPass (s : State) : Host.Outcome State Fault Refusal :=
  .next (
    if !s.flag F.LCS_LOCK_STAT_LOCKED then s
    else
      let s := s.advTo (s.lcs.passAt + msClk 2)
      let s := State.cntWrap { s with lcs := { s.lcs with passAt := s.clk } } F.LCS_LOCK_STAT_PASSES
      if proofWord s s.lcs.locked = s.reg Reg.LCS_PROOF then s.inactive 24
      else (s.sqc F.LCS_LOCK_STAT_MISMATCH).trip 24 (active := true))

end Sys2Proof.Machine
end

