-- ==== Sys2Proof/Machine/Cnd.lean ====
section
/-! DEFINITION. The condition monitor: evaluation, re-plans, proposals, the baseline, counters, the ledger's slots and the
Dexcy record (R433 to R453). Choices the spec leaves are in log entry 31. -/

namespace Sys2Proof.Machine

def hourClk : Nat := msClk 3600000
def dayClk : Nat := 24 * hourClk

/-! ### Trends -/

/-- The trended value of an object, and whether it was read at this evaluation (R435). -/
def State.trend (s : State) (q o : Nat) : Option (Int × Bool) :=
  (s.cnd.trend.find? fun x => x.1 = q && x.2.1 = o).map fun x => (x.2.2.1, x.2.2.2 = s.clk)

/-- Entries in rising (quantity, object), one for each. -/
def putTrend (x : Nat × Nat × Int × Nat) : List (Nat × Nat × Int × Nat) → List (Nat × Nat × Int × Nat)
  | [] => [x]
  | y :: t =>
    if x.1 < y.1 ∨ (x.1 = y.1 ∧ x.2.1 < y.2.1) then x :: y :: t
    else if x.1 = y.1 ∧ x.2.1 = y.2.1 then x :: t
    else y :: putTrend x t

def isSerialN (s : State) (n : Axis) : Bool := s.rd (F.FBK_CFG_MODE n) = 1
def isQuadN (s : State) (n : Axis) : Bool := s.rd (F.FBK_CFG_MODE n) = 2

/-- What an evaluation itself reads: quantities 7, 8 and 9. -/
def State.readNow (s : State) (ring : Vector (BitVec 24) 5) : State :=
  let s := each (allAxes.filter fun n => isSerialN s n && s.flag (F.FBK_STAT_VALID n))
    (fun s n => s.reading 7 n.val (s.rd (F.FBK_LINK_MARGIN n) : Nat)) s
  let s := each (allAxes.filter (isQuadN s)) (fun s n =>
    let c := s.rd (F.FBK_IDX_STAT_CORR n)
    let put := fun s : State => { s with cnd := { s.cnd with
      corrs := (s.cnd.corrs.filter fun x : Nat × Nat × Nat => x.1 ≠ n.val) ++ [(n.val, c, s.clk)] } }
    match s.cnd.corrs.find? fun x : Nat × Nat × Nat => x.1 = n.val with
    | some (_, c0, t) => if t + dayClk ≤ s.clk then put (s.reading 8 n.val ((c - c0 : Nat) : Int)) else s
    | none => put s) s
  if s.rd F.CLK_STAT_XO = 2 then
    each (List.finRange 5) (fun s i =>
      if i.val = 0 || s.powered (7 + i.val) then s.reading 9 i.val ring[i].toInt else s) s
  else s

/-- A quantity that has a baseline (R437). -/
def hasBase (q : Nat) : Bool := q = 1 || q = 2 || q = 3 || q = 5 || q = 9

/-- The readings of the interval become trend values; those of the 24 hours from an object's first one after a REBASE are
kept for its median (R437). -/
def State.takeReadings (s : State) : State :=
  let c := s.cnd
  let mine := if c.baseAt.isSome then c.acc.filter fun x => hasBase x.1 && (findReading x.1 x.2.1 c.base).isNone else []
  let known := fun x : Nat × Nat × Int => c.starts.find? fun y : Nat × Nat × Nat => y.1 = x.1 && y.2.1 = x.2.1
  { s with cnd := { c with
    acc := [],
    trend := c.acc.foldl (fun t x => putTrend (x.1, x.2.1, x.2.2, s.clk) t) c.trend,
    starts := c.starts ++ (mine.filter fun x => (known x).isNone).map fun x => (x.1, x.2.1, s.clk),
    hist := c.hist ++ mine.filter fun x => (known x).all fun y => s.clk < y.2.2 + dayClk,
    gaps := c.gaps.filter fun g : Nat × Nat => !(c.acc.any fun x => x.1 = g.1 && x.2.1 = g.2) } }

/-! ### Alerts and gaps (R435, R438) -/

/-- A value crosses its limit, or is 5 % inside it again. -/
def State.alertIf (s : State) (q o : Nat) (over_ inside : Bool) (v limit : Int) : State :=
  let on := s.cnd.alerts.contains (q, o)
  if over_ && !on then
    let s := { s with cnd := { s.cnd with alerts := s.cnd.alerts ++ [(q, o)] } }
    let s := (s.sqc F.CND_STAT_ALERT).devEvent 0x0019 (q + 256 * o) (ofSigned 64 v) (ofSigned 32 limit) false
    s.ledPush 0xC [BitVec.ofNat 32 q, BitVec.ofNat 32 o, BitVec.ofInt 32 v, BitVec.ofInt 32 limit]
  else if inside && on then { s with cnd := { s.cnd with alerts := s.cnd.alerts.filter (· ≠ (q, o)) } }
  else s

/-- The limit of an object with one in R438 that is not a re-plan's bound. -/
def limitOf (s : State) (q o : Nat) : Option Int :=
  if q = 2 then (findReading q o s.cnd.base).map fun b => b * (100 + s.rd F.CND_ALIM_RDS_PCT) / 100
  else if q = 3 then some (s.rd F.CND_ALIM_BST_LIM)
  else if q = 5 then some (s.rd (F.CLP_RL_RES o) * (100 + s.rd F.CND_ALIM_RC_PCT) / 100 : Nat)
  else if q = 9 then some (100 * s.rd F.CND_ALIM_AGE_LIM : Nat)
  else none

/-- The age in hours of a slice's coefficients where rotation has stopped, and of an amplifier's offset on an energised
axis (R438). -/
def coeffAge (s : State) (o : Nat) : Option Nat :=
  if o < 20 then
    let b : Bank := ⟨o / 5 % 4, by omega⟩
    if s.rd (F.ADC_ROT_FAILED b) ≠ 0 && s.powered (12 + b.val) then
      some ((s.clk - (s.adc b).latched[(⟨o % 5, by omega⟩ : Fin 5)]) / hourClk)
    else none
  else
    match s.cnd.lastOfs.find? fun x : Nat × Int × Nat => x.1 = o with
    | some (_, _, t) =>
      if s.energised ⟨(o - 20) / 2 % 32, by omega⟩ then some ((s.clk - t) / hourClk) else none
    | none => none

def driftBank (o : Nat) : Nat := if o < 20 then o / 5 else (o - 20) / 16

def State.alerts (s : State) : State :=
  let s := each (s.cnd.trend.filter fun x : Nat × Nat × Int × Nat => x.2.2.2 = s.clk) (fun s x =>
    match limitOf s x.1 x.2.1 with
    | some l => s.alertIf x.1 x.2.1 (l < x.2.2.1) (100 * x.2.2.1 ≤ 95 * l) x.2.2.1 l
    | none => s) s
  each (List.range 84) (fun s o =>
    let l := s.rd (F.CND_CAL_CALINT (driftBank o))
    match coeffAge s o with
    | some a => s.alertIf 10 o (l < a) (100 * a ≤ 95 * l) a l
    | none => { s with cnd := { s.cnd with alerts := s.cnd.alerts.filter (· ≠ (10, o)) } }) s

/-- An object that should supply readings (R435, log entry 31). -/
def configured (s : State) (q o : Nat) : Bool :=
  if q = 1 || q = 2 then s.rd (F.CLP_RL_RES (o / 4)) ≠ 0
  else if q = 3 then (gateSupply s ⟨o / 32 % 4, by omega⟩).isSome
  else if q = 4 then s.rd (F.CND_BRK_RBRK o) ≠ 0
  else if q = 5 then s.rd (F.CLP_RL_RES o) ≠ 0
  else if q = 6 then s.rd (F.MPL_MASS_MASS o) ≠ 0
  else if q = 7 then s.rd (F.FBK_CFG_MODE o) = 1
  else if q = 8 then s.rd (F.FBK_CFG_MODE o) = 2
  else if q = 11 then s.flag (F.GDR_NTC_LIM_EN o)
  else q = 9 || q = 10

/-- The objects of each quantity (R434). -/
def objects (q : Nat) : Nat :=
  if q = 1 || q = 2 then 256 else if q = 3 then 128 else if q = 4 || q = 11 then 4 else if q = 5 then 64
  else if q = 9 then 5 else if q = 10 then 84 else 32

def allObjects : List (Nat × Nat) := (List.range 11).flatMap fun q => (List.range (objects (q + 1))).map fun o => (q + 1, o)

/-- One GAP entry after 24 hours without readings of a configured object (R435). -/
def State.gapCheck (s : State) : State :=
  each allObjects (fun s x =>
    let last := match s.cnd.trend.find? fun y => y.1 = x.1 && y.2.1 = x.2 with
      | some y => y.2.2.2
      | none => s.lcs.bootAt
    if configured s x.1 x.2 && last + dayClk ≤ s.clk && !s.cnd.gaps.contains x then
      let s := { s with cnd := { s.cnd with gaps := s.cnd.gaps ++ [x] } }
      (s.sqc F.CND_STAT_GAP).ledPush 0xA [BitVec.ofNat 32 x.1, BitVec.ofNat 32 x.2, 0#32, 0#32]
    else s) s

/-! ### Targets (R440) -/

/-- A target of a working field: its place and kind, its present and target values, whether the target is the tighter one,
the bound on the tightening side, the quantity and object behind it, whether that has new readings, whether a loosening may
be proposed, the proposed value and how long that must hold, in clocks. -/
structure Aim where
  off : Nat
  kind : Nat
  now : Nat
  value : Nat
  tighter : Bool
  atBound : Bool
  inside : Bool
  bound : Nat
  raw : Nat
  q : Nat
  o : Nat
  fresh : Bool
  loosen : Bool
  offer : Nat
  hold : Nat
deriving DecidableEq, Repr

/-- The value of a working field in a register word, by its kind, and a word with it replaced. -/
def workGet (kind : Nat) (w : Word) : Nat :=
  if kind = 1 then 32 * (F.PWM_DT_DT_INT 0).get w + (F.PWM_DT_DT_FRAC 0).get w
  else if kind = 6 then (F.MPL_FRIC_FRIC 0).get w
  else if kind = 7 then (F.FBK_SER_CFG_PER 0).get w
  else if kind = 12 then (F.CND_DER_DER 0).get w
  else (F.CND_CAL_CALINT 0).get w

def workPut (kind : Nat) (w : Word) (v : Nat) : Word :=
  if kind = 1 then (F.PWM_DT_DT_FRAC 0).put ((F.PWM_DT_DT_INT 0).put w (v / 32)) (v % 32)
  else if kind = 6 then (F.MPL_FRIC_FRIC 0).put w v
  else if kind = 7 then (F.FBK_SER_CFG_PER 0).put w v
  else if kind = 12 then (F.CND_DER_DER 0).put w v
  else (F.CND_CAL_CALINT 0).put w v

def workFld (kind off : Nat) : List Fld :=
  if kind = 1 then [{ F.PWM_DT_DT_INT 0 with off }, { F.PWM_DT_DT_FRAC 0 with off }]
  else if kind = 6 then [{ F.MPL_FRIC_FRIC 0 with off }]
  else if kind = 7 then [{ F.FBK_SER_CFG_PER 0 with off }]
  else if kind = 12 then [{ F.CND_DER_DER 0 with off }]
  else [{ F.CND_CAL_CALINT 0 with off }]

def workMask (kind off : Nat) : Nat := (workFld kind off).foldl (fun m f => m + f.maskNat) 0

/-- The quantity an alert of a working field's bound is under: 1, 6, 7, and 11 for DER (R438). -/
def kindQuantity (kind : Nat) : Nat := if kind = 12 then 11 else kind

/-- A larger value is the tighter one, but for DER and CALINT (R440). -/
def largerTight (kind : Nat) : Bool := kind = 1 || kind = 6 || kind = 7

def tighterThan (kind a b : Nat) : Bool := if largerTight kind then b < a else a < b

/-- The object of R434 a working field is for. -/
def kindObject (kind off : Nat) : Nat :=
  if kind = 1 then 2 * (32 * ((off - 0x10000) / 0x2000) + (off % 0x2000 - 0x400) / 0x20)
  else if kind = 6 || kind = 7 then (off - 0x20000) / 0x400
  else (off - 0x10000) / 0x2000

/-- The bounds of a working field on the tightening and on the loosening side (R440). -/
def workBounds (s : State) (kind off : Nat) : Nat × Nat :=
  let o := kindObject kind off
  if kind = 1 then (16352, 32 * s.rd (F.PWM_DT_LIM_FLOOR (o / 64)))
  else if kind = 6 then (s.rd (F.MPL_FMAX_FMAX o), s.rd (F.MPL_FRIC_FLOOR o))
  else if kind = 7 then (s.rd (F.FBK_SER_TIM_PER_MAX o), 25)
  else if kind = 12 then (s.rd (F.CND_DER_CFG_DER_MIN o), 1024)
  else (1, s.rd (F.CND_CAL_CALMAX o))

/-- A value of a working field that is beyond a bound takes the bound (R440). -/
def workClamp (s : State) (kind off v : Nat) : Nat :=
  let b := workBounds s kind off
  if largerTight kind then max b.2 (min b.1 v) else min b.2 (max b.1 v)

def mkAim (s : State) (kind off q o raw : Nat) (fresh loosen : Bool) (offer hold : Nat) : Aim :=
  let now := workGet kind (s.reg off)
  let bound := (workBounds s kind off).1
  let v := workClamp s kind off raw
  let past := tighterThan kind raw bound
  let inside := if largerTight kind then 100 * raw ≤ 95 * bound else 105 * bound ≤ 100 * raw
  let offer := workClamp s kind off offer
  ⟨off, kind, now, v, tighterThan kind v now, past, inside, bound, raw, q, o, fresh,
   loosen && tighterThan kind now offer, offer, hold⟩

def hysClk (s : State) (b : Nat) : Nat := s.rd (F.CND_MARG_HYS_D b) * dayClk

/-- Dead time of a half-bridge, in taps. -/
def aimDt (s : State) (h : HalfBridge) : Option Aim :=
  let b := bankOfHb h
  let hi := s.trend 1 (2 * h.val)
  let lo := s.trend 1 (2 * h.val + 1)
  if hi.isNone && lo.isNone then none
  else
    let x := hi.getD (0, false)
    let y := lo.getD (0, false)
    let raw := (max x.1 y.1).toNat + 32 * s.rd (F.CND_MARG_DTM b)
    let now := workGet 1 (s.reg (Reg.PWM_DT h))
    some (mkAim s 1 (Reg.PWM_DT h) 1 (if x.1 < y.1 then 2 * h.val + 1 else 2 * h.val) raw
      (x.2 || y.2) (raw + 320 ≤ now) raw (hysClk s b))

/-- Friction of an axis, in 0.1 N. -/
def aimFric (s : State) (n : Axis) : Option Aim :=
  match s.cnd.fric.lookup n.val with
  | none => none
  | some l =>
    let b := bankOfAxis n
    let top := (l.foldl max 0).toNat
    let raw := ceilDiv (top * (100 + s.rd (F.CND_MARG_FRM b))) 100
    let fresh := match s.trend 6 n.val with | some x => x.2 | none => false
    some (mkAim s 6 (Reg.MPL_FRIC n) 6 n.val raw fresh
      (raw < s.rd (F.MPL_FRIC_FRIC n)) raw (hysClk s b))

/-- Encoder clock period of an axis, in core clocks. -/
def aimPer (s : State) (n : Axis) : Option Aim :=
  match s.trend 7 n.val with
  | none => none
  | some (m, fresh) =>
    let b := bankOfAxis n
    let per := s.rd (F.FBK_SER_CFG_PER n)
    let lim : Int := (8 * s.rd (F.CND_MARG_LINK_MIN b) : Nat)
    let raw := if m < lim then per + ceilDiv per 8 else per
    some (mkAim s 7 (Reg.FBK_SER_CFG n) 7 n.val raw fresh (2 * lim ≤ m) (per - per / 8)
      (hysClk s b))

/-- Derating of a bank, in 1/1,024. -/
def aimDer (s : State) (b : Bank) : Option Aim :=
  let t := s.trend 11 b.val
  let e := s.trend 4 b.val
  if t.isNone && e.isNone then none
  else
    let derT : Int := match t with
      | some (v, _) =>
        let knee : Int := 10 * s.rd (F.CND_DER_CFG_TKNEE b)
        if knee < v then 1024 - (s.rd (F.CND_DER_CFG_DSLOPE b) * (v - knee) + 9) / 10 else 1024
      | none => 1024
    let ref := s.rd (F.CND_BRK_ESR_REF b)
    let derE := match e with
      | some (v, _) => if ref ≠ 0 && (ref : Int) < v then isqrt (1024 * 1024 * ref / v.toNat) else 1024
      | none => 1024
    let raw := (min derT (derE : Nat)).toNat
    let fresh := (match t with | some x => x.2 | none => false) || (match e with | some x => x.2 | none => false)
    let q := if derT ≤ (derE : Int) then 11 else 4
    some (mkAim s 12 (Reg.CND_DER b) q b.val raw fresh
      (s.rd (F.CND_DER_DER b) + 32 ≤ raw) raw hourClk)

/-- Calibration interval of a bank, in hours. -/
def aimCal (s : State) (b : Bank) : Option Aim :=
  let own := s.cnd.trend.filter fun x : Nat × Nat × Int × Nat => x.1 = 10 && driftBank x.2.1 = b.val
  if own = [] then none
  else
    let r := (own.foldl (fun (m : Int) (x : Nat × Nat × Int × Nat) => max m x.2.2.1) 0).toNat
    let top := s.rd (F.CND_CAL_CALMAX b)
    let raw := if r = 0 then top else 500 / r
    some (mkAim s 10 (Reg.CND_CAL b) 10 (((own.find? fun x : Nat × Nat × Int × Nat => x.2.2.1 = (r : Int)).map (·.2.1)).getD 0) raw
      (own.any fun x : Nat × Nat × Int × Nat => x.2.2.2 = s.clk) (2 * s.rd (F.CND_CAL_CALINT b) ≤ raw) raw (hysClk s b))

def aims (s : State) : List Aim :=
  (List.finRange 128).filterMap (aimDt s) ++ allAxes.filterMap (aimFric s) ++ (allAxes.filter (isSerialN s)).filterMap (aimPer s) ++
  allBanks.filterMap (aimDer s) ++ allBanks.filterMap (aimCal s)

/-! ### Proposals (R444, R445) -/

/-- A looser target is posted: in the field's own entry, or the lowest free one. -/
def State.propose (s : State) (a : Aim) : State :=
  let own := s.cnd.props.find? fun x => x.off = a.off && x.kind = a.kind
  let word := (workPut a.kind (s.reg a.off) a.offer).toNat
  if own.any fun x => x.value = word then s
  else
    let idx := match own with
      | some x => some x.idx
      | none => (List.range 16).find? fun i => s.cnd.props.all fun x => x.idx ≠ i
    match idx with
    | none => s
    | some i =>
      let num := s.cnd.nextNum
      let p : Prop_ := ⟨i, num, a.off, a.kind, word, s.clk, false⟩
      let s := { s with cnd := { s.cnd with
        props := (s.cnd.props.filter fun x : Prop_ => x.idx ≠ i) ++ [p],
        nextNum := if num = 65535 then 1 else num + 1 } }
      s.devEvent 0x0018 a.off ((s.reg a.off).toNat + 2 ^ 32 * num) word false

def State.withdraw (s : State) (off kind : Nat) : State :=
  { s with cnd := { s.cnd with props := s.cnd.props.filter fun x : Prop_ => !(x.off = off && x.kind = kind) } }

/-- One working field at an evaluation: an alert past the bound, tightening, or a loosening that has held (R438 to R444). -/
def State.aimStep (s : State) (a : Aim) : State :=
  let s := if a.kind = 10 then s
    else s.alertIf (kindQuantity a.kind) a.o a.atBound a.inside a.raw a.bound
  if !s.flag F.CND_CFG_REPLAN then s
  else if a.tighter then
    let s := s.withdraw a.off a.kind
    { s with cnd := { s.cnd with
      wants := (s.cnd.wants.filter fun x : Target => !(x.off = a.off && x.kind = a.kind)) ++ [⟨a.off, a.kind, a.value, 0⟩],
      looser := s.cnd.looser.filter fun x : Nat × Nat × Nat => !(x.1 = a.off && x.2.1 = a.kind) } }
  else if a.loosen then
    match s.cnd.looser.find? fun x : Nat × Nat × Nat => x.1 = a.off && x.2.1 = a.kind with
    | none => { s with cnd := { s.cnd with looser := s.cnd.looser ++ [(a.off, a.kind, s.clk)] } }
    | some (_, _, t) =>
      let barred := s.cnd.declined.any fun x : Nat × Nat × Nat => x.1 = a.off && x.2.1 = a.kind && s.clk < x.2.2 + a.hold
      if t + a.hold ≤ s.clk && a.fresh && !barred then s.propose a else s
  else
    { s with cnd := { s.cnd with looser := s.cnd.looser.filter fun x : Nat × Nat × Nat => !(x.1 = a.off && x.2.1 = a.kind) } }

/-- CND_EVALUATION (R435, R438, R439): every EVAL seconds; `ring` gives the slowdown of the five ageing monitors in ppm. -/
def execCndEvaluation (ring : Vector (BitVec 24) 5) (s : State) : Host.Outcome State Fault Refusal :=
  .next (
    if !s.cndRuns then s
    else
      let s := s.advTo (s.cnd.evalAt + msClk (1000 * s.rd F.CND_CFG_EVAL))
      let s := ({ s with cnd := { s.cnd with evalAt := s.clk } }.readNow ring).takeReadings
      let s := s.alerts.gapCheck
      each (aims s) (fun s a => s.aimStep a) s)

/-! ### Applying (R27, R90, R442, R443) -/

/-- The store keeps the working fields that lock-up's groups hold (R416). -/
def State.storePut (s : State) (off : Nat) : State :=
  match s.lcs.store with
  | some st =>
    if inMask st.mask off then
      { s with lcs := { s.lcs with store := some { st with
        words := st.words.map fun x => if x.1 = off then (off, mergeMask (rwbOf off) 0#32 (s.reg off)) else x } } }
    else s
  | none => s

/-- The group's checks hold with a value in place (R217, R324, R440). -/
def workOk (s : State) (off : Nat) (w : Word) : Bool :=
  match groupAt off with
  | some g => (rangeConds s (s.setReg off w) g).all fun c => !(c.1.contains off && c.2)
  | none => true

/-- A working field takes a value within the limits as they now are: the buffered copy with it unless the host has written
the field, the event, the ledger entry and the store (R90, R443). -/
def State.replan (s : State) (t : Target) : State :=
  let old := s.reg t.off
  let v := workClamp s t.kind t.off t.value
  let w := workPut t.kind old v
  if w = old then s
  else if !workOk s t.off w then
    s.alertIf (kindQuantity t.kind) (kindObject t.kind t.off) true false v (workGet t.kind old : Nat)
  else if s.ledFull then s
  else
    let own := Nat.land (s.dirtyBits t.off).toNat (workMask t.kind t.off)
    let s := s.setReg t.off w
    let s := if own = 0 then s.setBuf t.off (workPut t.kind (s.buf t.off) v) else s
    let s := (s.storePut t.off).devEvent 0x0016 t.off old.toNat w.toNat false
    s.ledPush 6 [BitVec.ofNat 32 t.off, old, w, BitVec.ofNat 32 t.prop]

/-- A re-plan that would loosen what the host's strobe has just applied is discarded and logged (R27). -/
def State.discardReplan (s : State) (t : Target) : State :=
  let w := s.reg t.off
  s.ledPush 6 [BitVec.ofNat 32 t.off, w, w, 0#32]

/-- The second step of R27 may act at this tick (R430). -/
def replanTime (s : State) : Bool := s.atTick && !firstPending s && !s.halted

/-- CND_REPLAN_APPLY (R27, R90, R439, R443). -/
def execCndReplanApply (s : State) : Host.Outcome State Fault Refusal :=
  .next (
    if !replanTime s || s.cnd.wants = [] then s
    else
      let ws := s.cnd.wants
      let s := { s with cnd := { s.cnd with wants := [] } }
      (each ws (fun s t =>
        if tighterThan t.kind t.value (workGet t.kind (s.reg t.off)) then s.replan t
        else if t.value = workGet t.kind (s.reg t.off) then s
        else s.discardReplan t) s).reHand)

/-- CND_LOOSEN_APPLY (R445): each approved proposal at the frame boundary. -/
def execCndLoosenApply (s : State) : Host.Outcome State Fault Refusal :=
  .next (
    let ps := s.cnd.props.filter fun x : Prop_ => x.ok
    if !replanTime s || ps = [] then s
    else
      (each ps (fun s p =>
        if s.ledFull then s
        else
          let v := workGet p.kind (BitVec.ofNat 32 p.value)
          let s := s.withdraw p.off p.kind
          let s := { s with cnd := { s.cnd with
            looser := s.cnd.looser.filter fun x : Nat × Nat × Nat => !(x.1 = p.off && x.2.1 = p.kind) } }
          if tighterThan p.kind (workGet p.kind (s.reg p.off)) v then s.replan ⟨p.off, p.kind, v, p.num⟩ else s) s).reHand)

/-- CND_APPROVE.GO acts at once (R445). -/
def State.approve (s : State) : State :=
  let i := s.rd F.CND_APPROVE_IDX
  let s := s.wr F.CND_APPROVE_GO 0
  match s.cnd.props.find? fun x : Prop_ => x.idx = i with
  | some p =>
    if p.num ≠ s.rd F.CND_APPROVE_NUM then s.sqc F.CND_STAT_APR_REF
    else if s.flag F.CND_APPROVE_DECLINE then
      let s := s.withdraw p.off p.kind
      { s with cnd := { s.cnd with
        declined := (s.cnd.declined.filter fun x : Nat × Nat × Nat => !(x.1 = p.off && x.2.1 = p.kind)) ++ [(p.off, p.kind, s.clk)],
        looser := s.cnd.looser.filter fun x : Nat × Nat × Nat => !(x.1 = p.off && x.2.1 = p.kind) } }
    else
      { s with cnd := { s.cnd with props := s.cnd.props.map fun x : Prop_ => if x.idx = i then { x with ok := true } else x } }
  | none => s.sqc F.CND_STAT_APR_REF

/-- PROPOSAL_EXPIRY (R445): the oldest proposal reaches PROP_TMO hours. -/
def execProposalExpiry (s : State) : Host.Outcome State Fault Refusal :=
  .next (
    match s.cnd.props.filter fun x : Prop_ => !x.ok with
    | [] => s
    | p :: ps =>
      let first := ps.foldl (fun m x => min m x.made) p.made
      let s := s.advTo (first + s.rd F.CND_CFG_PROP_TMO * hourClk)
      { s with cnd := { s.cnd with
        props := s.cnd.props.filter fun x : Prop_ => x.ok || s.clk < x.made + s.rd F.CND_CFG_PROP_TMO * hourClk } })

/-! ### The baseline (R437) -/

/-- CND_CTRL.REBASE: a fresh baseline starts, in COMMISSIONING and SERVICE only. -/
def State.rebase (s : State) : State :=
  let s := s.wr F.CND_CTRL_REBASE 0
  if s.lcOpen then { s with cnd := { s.cnd with base := [], hist := [], starts := [], baseAt := some s.clk } } else s

def medianInt (l : List Int) : Int :=
  let m := l.insertionSort (· ≤ ·)
  m.getD ((m.length - 1) / 2) 0

/-! ### The ledger (R446 to R449) -/

/-- Words over the ledger from a byte offset; an unlisted word is zero. -/
def State.ledgerPut (s : State) (a : Nat) (ws : List Word) : State :=
  let step := fun (x : List (Nat × Word) × Nat) (w : Word) => (filePut (fun _ => 0#32) x.1 x.2 w, x.2 + 4)
  { s with ledger := { s.ledger with store := (ws.foldl step (s.ledger.store, a)).1 } }

def State.ledgerWord (s : State) (a : Nat) : Word := fileGet (fun _ => 0#32) s.ledger.store a

def wordsBytes (ws : List Word) : List Byte := ws.flatMap fun w => leBytes 4 w.toNat

def bytesWords (n : Nat) (bs : List Byte) : List Word :=
  (List.range n).map fun i => BitVec.ofNat 32 (leNat ((bs.drop (4 * i)).take 4))

/-- The tag of R448 over some words. -/
def tagOf (ws : List Word) : List Word := bytesWords 8 (Config.hmac (wordsBytes ws))

/-- The 64 bytes of an entry (R448). -/
def entryWords (e : LedEntry) (pinned : Bool) : List Word :=
  let body := [BitVec.ofNat 32 (e.typ + (if pinned then 65536 else 0)), BitVec.ofNat 32 e.seq] ++ leWords 2 e.gtc ++
    (e.data ++ List.replicate 4 0#32).take 4
  body ++ tagOf body

/-- Where the pinned copy of an entry's type lies (R446). -/
def pinnedAt (typ : Nat) : Option Nat :=
  if typ = 2 then some 0x40 else if typ = 1 then some 0x80 else if typ = 4 then some 0xC0 else none

/-- The pinned copy of an entry is written where its type has one. -/
def State.ledPin (s : State) (e : LedEntry) : State :=
  match pinnedAt e.typ with
  | some a => s.ledgerPut a (entryWords e true)
  | none => s

/-- An entry goes to its slot of the ring, and to its pinned place. -/
def State.ledStore (s : State) (e : LedEntry) : State :=
  (s.ledgerPut (0x2800 + 64 * (e.seq % 864)) (entryWords e false)).ledPin e

/-- LEDGER_SLOT_WRITE (R449): the front entry is written in 1 ms, after `fails` failed attempts; three mark the slot bad, and
the slot is skipped. A pinned copy, which lies elsewhere, is written all the same. -/
def execLedgerSlotWrite (fails : Fin 4) (s : State) : Host.Outcome State Fault Refusal :=
  .next (
    match s.ledger.queue with
    | [] => s
    | e :: es =>
      if !s.powered 5 then s
      else
        let s := s.advTo (s.clk + msClk 1)
        let slot := e.seq % 864
        let s := { s with ledger := { s.ledger with queue := es } }
        let s :=
          if s.ledger.bad.contains slot then s.ledPin e
          else if fails = 3 then
            State.trip (State.ledPin { s with ledger := { s.ledger with bad := s.ledger.bad ++ [slot] } } e) 31
          else s.ledStore e
        s.ledRefill)

/-- The latest entry that has entered the ring. -/
def lastSeq (s : State) : Nat := s.ledger.nextSeq - 1 - s.ledger.queue.length

/-- The words of the counter layout, bytes 0 to 479 (R450). -/
def counterWords (s : State) : List Word := (List.range 120).map fun i => BitVec.ofNat 32 (s.counter (4 * i))

/-- A counter snapshot is written (R450); in BLANK and RETIRED the ledger is not (R433). -/
def State.snapshot (s : State) (atEnd : Bool) : State :=
  if s.lcState = lcBlank || s.lcState = lcRetired then s
  else
    let s := (s.addCounter 0).setCounter 4 (lastSeq s)
    let ws := counterWords s
    let s := s.ledgerPut (0x800 + 512 * (s.counter 0 % 16)) (ws ++ tagOf ws)
    { s with ledger := { s.ledger with ended := atEnd }, cnd := { s.cnd with snapAt := s.clk } }

/-- COUNTER_SNAPSHOT (R450): every 60 minutes of D1 power. -/
def execCounterSnapshot (s : State) : Host.Outcome State Fault Refusal :=
  .next (if s.powered 1 && s.powered 5 then (s.advTo (s.cnd.snapAt + hourClk)).snapshot false else s)

/-- A baseline value in 16 bits; 0xFFFF where there is none (R437). -/
def base16 (s : State) (q o : Nat) : Nat :=
  match findReading q o s.cnd.base with
  | some v => min 0xFFFE v.toNat
  | none => 0xFFFF

def base32 (s : State) (q o : Nat) : Nat :=
  match findReading q o s.cnd.base with
  | some v => ofSigned 32 v
  | none => 0xFFFF

/-- The worst value of quantity 3 in a bank. -/
def baseDroop (s : State) (b : Nat) : Nat :=
  let own := (s.cnd.base.filter fun x : Nat × Nat × Int => x.1 = 3 && x.2.1 / 32 = b).map (·.2.2)
  if own = [] then 0xFFFF else min 0xFFFE (own.foldl max 0).toNat

def halves (n : Nat) (f : Nat → Nat) : List Word :=
  (List.range n).map fun i => BitVec.ofNat 32 (f (2 * i) + 65536 * f (2 * i + 1))

/-- The baseline region of the ledger (R446). -/
def State.baseStore (s : State) : State :=
  let ws := halves 128 (base16 s 1) ++ halves 128 (base16 s 2) ++ halves 32 (base16 s 5) ++
    (List.range 5).map (fun i => BitVec.ofNat 32 (base32 s 9 i)) ++ halves 2 (baseDroop s) ++ List.replicate 73 0#32 ++
    leWords 2 s.cnd.baseGtc ++ List.replicate 6 0#32
  s.ledgerPut 0x200 (ws ++ tagOf ws)

/-- BASELINE_COMPLETE (R437): 24 hours after an object was first trended its median is recorded. -/
def execBaselineComplete (s : State) : Host.Outcome State Fault Refusal :=
  .next (
    match s.cnd.starts with
    | [] => s
    | x :: xs =>
      if !s.cndRuns then s
      else
        let s := s.advTo (xs.foldl (fun m y => min m y.2.2) x.2.2 + dayClk)
        let c := s.cnd
        let ends := fun q o : Nat => c.starts.any fun y : Nat × Nat × Nat => y.1 = q && y.2.1 = o && y.2.2 + dayClk ≤ s.clk
        let base := allObjects.filterMap fun x =>
          if ends x.1 x.2 then
            some (x.1, x.2, medianInt ((c.hist.filter fun y => y.1 = x.1 && y.2.1 = x.2).map (·.2.2)))
          else (findReading x.1 x.2 c.base).map fun v => (x.1, x.2, v)
        State.baseStore { s with cnd := { c with
          base, hist := c.hist.filter fun y => !ends y.1 y.2.1, starts := c.starts.filter fun y => !ends y.1 y.2.1,
          baseGtc := s.now } })

/-! ### TREND entries (R448) -/

/-- The objects of a quantity that belong to a bank. -/
def ofBank (q o : Nat) (b : Bank) : Bool :=
  if q = 1 || q = 2 then o / 64 = b.val else if q = 3 then o / 32 = b.val else if q = 4 || q = 11 then o = b.val
  else if q = 5 then o / 16 = b.val else if q = 9 then o = b.val + 1 else if q = 10 then driftBank o = b.val
  else o / 8 = b.val

/-- The worse of two values: the smaller margin of quantity 7, else the larger value. -/
def worst (q : Nat) (l : List (Nat × Nat × Int × Nat)) : Option (Nat × Nat × Int × Nat) :=
  l.foldl (fun m x =>
    match m with
    | none => some x
    | some y => if (if q = 7 then decide (x.2.2.1 < y.2.2.1) else decide (y.2.2.1 < x.2.2.1)) then some x else some y) none

/-- CND_TREND_ENTRY (R448): every TREND hours, each bank's worst object of each quantity. -/
def execCndTrendEntry (s : State) : Host.Outcome State Fault Refusal :=
  .next (
    if !s.cndRuns then s
    else
      let s := s.advTo (s.cnd.trendAt + s.rd F.CND_CFG_TREND * hourClk)
      let s := { s with cnd := { s.cnd with trendAt := s.clk } }
      let keys := allBanks.flatMap fun b => (List.range 11).map fun q => (b, q + 1)
      each keys (fun s x =>
        match worst x.2 (s.cnd.trend.filter fun y : Nat × Nat × Int × Nat => y.1 = x.2 && ofBank x.2 y.2.1 x.1) with
        | some y =>
          let base := (findReading y.1 y.2.1 s.cnd.base).getD 0xFFFF
          s.ledPush 9 [BitVec.ofNat 32 y.1, BitVec.ofNat 32 y.2.1, BitVec.ofInt 32 y.2.2.1, BitVec.ofInt 32 base]
        | none => s) s)

/-! ### The Dexcy record (R451) -/

/-- CND_DXC_CTRL.GO: refused in BLANK and RETIRED, ignored while a build runs. -/
def State.dexGo (s : State) : State :=
  if s.lcState = lcBlank || s.lcState = lcRetired then s.wr F.CND_DXC_CTRL_GO 0
  else if s.cnd.dexAt.isSome then s
  else { s with cnd := { s.cnd with dexAt := some s.clk } }

/-- The limit or bound shown with a condition entry. -/
def shownLimit (s : State) (q o : Nat) : Int :=
  match limitOf s q o with
  | some l => l
  | none =>
    if q = 1 then 16352 else if q = 6 then (s.rd (F.MPL_FMAX_FMAX o) : Nat)
    else if q = 7 then (s.rd (F.FBK_SER_TIM_PER_MAX o) : Nat)
    else if q = 10 then (s.rd (F.CND_CAL_CALINT (driftBank o)) : Nat)
    else if q = 11 then (s.rd (F.CND_DER_CFG_DER_MIN o) : Nat) else 0

def condWords (s : State) (x : Nat × Nat × Int × Nat) : List Word :=
  let base := findReading x.1 x.2.1 s.cnd.base
  let flags := (if base.isNone then 1 else 0) + (if s.cnd.alerts.contains (x.1, x.2.1) then 2 else 0)
  [BitVec.ofNat 32 (x.1 + 256 * x.2.1 + 65536 * flags), BitVec.ofInt 32 x.2.2.1, BitVec.ofInt 32 (base.getD 0xFFFF),
   BitVec.ofInt 32 (shownLimit s x.1 x.2.1)]

/-- Bytes 0 to 16,351 of the record, as words. -/
def dexcyWords (s : State) : List Word :=
  let es := s.cnd.trend.flatMap (condWords s)
  [0x59435844#32, BitVec.ofNat 32 (1 + 65536 * s.cnd.trend.length)] ++ leWords 2 Config.deviceId ++
  (List.range 4).map (fun i => s.reg (Reg.CND_DXC_NONCE i)) ++ leWords 2 s.now ++
  [BitVec.ofNat 32 (lastSeq s), BitVec.ofNat 32 (s.lcState + 256 * s.rd F.LCS_FW_STAT_MIN_SVN), s.reg Reg.LCS_FW_BUILD_ACT,
   s.reg Reg.LCS_PROOF, 0#32, 0#32] ++ (counterWords s).take 112 ++
  es ++ List.replicate (3960 - es.length) 0#32

/-- DEXCY_BUILD_DONE (R451): within 20 ms of GO. -/
def execDexcyBuildDone (s : State) : Host.Outcome State Fault Refusal :=
  .next (
    match s.cnd.dexAt with
    | none => s
    | some t =>
      let s := s.advTo (t + msClk 20)
      let ws := dexcyWords s
      let tag := tagOf ws
      let s := { s with cnd := { s.cnd with dexAt := none, dexcy := wordsBytes (ws ++ tag) } }
      let s := (s.goEnd F.CND_DXC_CTRL_GO State.dexGo).sqc F.CND_DXC_CTRL_DONE
      s.ledPush 0xD [s.reg (Reg.CND_DXC_NONCE 0), s.reg (Reg.CND_DXC_NONCE 1), tag.getD 0 0#32, tag.getD 1 0#32])

end Sys2Proof.Machine
end

