-- ==== Sys2Proof/Machine/Lcs.lean ====
section
/-! DEFINITION. Resets, the boot, HELD, life-cycle transitions, firmware and the planner cores (R13, R28, R144, R398 to R402,
R406 to R432, R475). -/

namespace Sys2Proof.Machine

/-! ### What a reset wipes (R406 to R408) -/

/-- A port's registers that a life-cycle transition keeps: its status, its MSI-X structures and its doorbell base (R407). -/
def portKept (key : Nat) : Bool :=
  let o := key % portBBase
  o = Reg.HIF_PORT_STAT || o = Reg.HIF_DB_BASE_LO || o = Reg.HIF_DB_BASE_HI || 0x80000 ≤ o

/-- A register word outlives a reset: it lies in D0 or D7, in D1 for the FALLOW-1 resume, or a transition keeps it. -/
def regKept (keepD1 transit : Bool) (key : Nat) : Bool :=
  let d := domOfKey key
  d = 0 || d = 7 || (keepD1 && d = 1) || (transit && portKept key)

def PortS.kept (p : PortS) : PortS := { p with page := false, dogRun := false, dogAt := 0, fetching := true, held := [] }

/-- The volatile state goes to its reset values (R408); what R407 keeps stays. Ledger entries not yet written are lost, and
their numbers are taken again. A FW_STAGE in progress leaves STAGED invalid (R422). -/
def State.wiped (s : State) (keepD1 transit : Bool) : State :=
  let regs := s.regs.filter fun x : Nat × Word => regKept keepD1 transit x.1
  let bufs := regs.filterMap fun x : Nat × Word =>
    let w := mergeMask (keyRwb x.1) (resetWord x.1) x.2
    if w = resetWord x.1 then none else some (x.1, w)
  let staging := s.ops.any fun o => o.op = 0x28 && o.t1 ≤ s.now
  let lcs := { LcsS.init with rstLow := s.lcs.rstLow, store := s.lcs.store, lockEntry := s.lcs.lockEntry,
                              ownerKey := s.lcs.ownerKey, devKey := s.lcs.devKey, active := s.lcs.active,
                              staged := if staging then none else s.lcs.staged, draws := s.lcs.draws, nonce := s.lcs.nonce }
  let r : State := { State.reset with
    pending := s.pending, sent := s.sent, clk := s.clk, freeCtr := s.freeCtr, regs, bufs,
    portA := if transit then s.portA.kept else PortS.init, portB := if transit then s.portB.kept else PortS.init,
    fcs := if keepD1 then s.fcs else FcsS.init,
    ledger := { s.ledger with queue := [], reserve := [], waits := [], dropped := 0, lastType := 0,
                              nextSeq := s.ledger.nextSeq - s.ledger.queue.length },
    ckg := { CkgS.init with xoAt := s.ckg.xoAt, xoGood := s.ckg.xoGood, xoSince := s.ckg.xoSince, trimmed := s.ckg.trimmed },
    pmu := { s.pmu with rising := [], since := none, dwelt := false, entering := none },
    lcs, cnd := { CndS.init with base := s.cnd.base, baseGtc := s.cnd.baseGtc } }
  let r := (r.wr F.LCS_LC_STAT_STATE s.lcState).wr F.LCS_FW_STAT_MIN_SVN (s.rd F.LCS_FW_STAT_MIN_SVN)
  let r := r.wr F.CLK_STAT_XO (s.rd F.CLK_STAT_XO)
  if transit then r.wr F.HIF_MGMT_OWNER (s.rd F.HIF_MGMT_OWNER) else r

/-- The latest self-test's FCS, gate-stage, clock and STO results stand across a short boot (R413). -/
def State.keepTests (s0 s : State) : State :=
  s.setReg Reg.LCS_ST_RES (mergeMask 0x3FF80 (s.reg Reg.LCS_ST_RES) (s0.reg Reg.LCS_ST_RES))

/-- A reset that is no resume leaves no wake event and no Fallow state behind it. -/
def State.pmuAwake (s : State) : State :=
  { s.wr F.PMU_STAT_STATE 1 with pmu := { s.pmu with wake := none, resuming := false, shadow := none } }

/-! ### The boot (R409 to R411) -/

/-- The counters of the valid snapshot with the highest SNAP (R450). -/
def State.loadCounters (s : State) : State :=
  let snaps := (List.range 16).map fun i => ((s.ledgerWord (0x800 + 512 * i)).toNat, 0x800 + 512 * i)
  let top := snaps.foldl (fun m x => if m.1 < x.1 then x else m) (0, 0)
  if top.1 = 0 then s
  else
    { s with cnd := { s.cnd with counts := (List.range 120).filterMap fun i =>
      let v := (s.ledgerWord (top.2 + 4 * i)).toNat
      if v = 0 then none else some (4 * i, v) } }

/-- The domains a boot powers at 2.2 ms, parents first (R21, R409). -/
def bootDomains : List Nat := [3, 4, 6, 8, 9, 10, 11, 12, 13, 14, 15]

/-- Time 0 of a boot (R23, R409, R411, R419, R450): D5 is powered, the GTC starts at gtc, the nonce is drawn, the counters
are resumed. The spec does not place the first frame tick of a time line: it falls one TF later (DESIGN CHOICE, log entry
104). -/
def State.bootStart (s : State) (short : Bool) (gtc : Nat) : State :=
  let s := s.setPg 5
  let s := { s with
    gtc := gtc, gtcRuns := true, ticking := true, tickClk := s.clk, tickGtc := gtc,
    lcs := { s.lcs with booting := true, bootAt := s.clk, short, verified := false, tested := false, restored := false,
                        nonce := Config.entropy s.lcs.draws, draws := s.lcs.draws + 1 } }
  let s := s.loadCounters.addCounter 12
  let s := if s.ledger.ended then s else s.addCounter 48
  let s := { s with cnd := { s.cnd with evalAt := s.clk, trendAt := s.clk, snapAt := s.clk, minute := s.clk } }
  each bootDomains (fun s d => s.raise d (s.clk + 550000)) s

/-- The supplies of D1 and D2 are there, and with them D7 (R392). -/
def State.railsOn (s : State) : State := each [0, 1, 2, 7] (fun s d => s.setPg d) s

/-- A reset with a full boot at once, or when RST_N allows it (R406, R409). -/
def State.resetFull (s : State) (f : Fld) : State :=
  let on := s.pmu.rails
  let s := ((s.wiped false false).pmuAwake).sqc f
  let s := s.wr F.PMU_DOM_STAT_PG 1
  if on then
    let s := s.railsOn
    if s.lcs.rstLow then s else s.bootStart false 0
  else s

/-! ### Power-on, pin and command resets (R392, R406) -/

/-- POWER_ON_RESET (R392, R406, R407): VAON passes its threshold; the PMU registers too go to their reset values. -/
def execPowerOnReset (s : State) : Host.Outcome State Fault Refusal :=
  .next (
    if s.pmu.vaon then s
    else
      let s := s.wiped false false
      let s := s.resetRegs fun key => domOfKey key = 0
      let s := { s with bufs := [], pmu := { PmuS.init with vaonAt := s.clk } }
      ((s.xoStart).wr F.PMU_DOM_STAT_PG 1).sqc F.LCS_RST_CAUSE_POR)

/-- POWER_LOSS (R260, R406): VAON falls below its threshold: nothing but D7 and the stores of LCS keeps its contents. -/
def execPowerLoss (s : State) : Host.Outcome State Fault Refusal :=
  .next (
    let s := s.wiped false false
    let s := { s with pmu := { PmuS.init with vaon := false } }
    (s.wr F.PMU_DOM_STAT_PG 0).wr F.CLK_STAT_XO 0)

/-- RAILS_IN_WINDOW (R392): VDD and VDDA are in their windows while PWREN is high. -/
def execRailsInWindow (s : State) : Host.Outcome State Fault Refusal :=
  .next (
    if !s.pmu.pwren || s.pmu.rails then s
    else
      let s := State.railsOn { s with pmu := { s.pmu with rails := true, vdd := true, vdda := true } }
      if s.lcs.rstLow then s else s.bootStart false 0)

/-- PIN_RESET (R406): RST_N has been low for 1 µs. -/
def execPinReset (s : State) : Host.Outcome State Fault Refusal :=
  .next (
    let s := { s with lcs := { s.lcs with rstLow := true } }
    if !s.pmu.vaon || s.rd F.PMU_STAT_STATE = 5 then s else s.resetFull F.LCS_RST_CAUSE_PIN)

/-- RESET_PIN_RELEASE (R409): RST_N returns high; with the rails in their windows this is time 0 of the boot. -/
def execResetPinRelease (s : State) : Host.Outcome State Fault Refusal :=
  .next (
    if !s.lcs.rstLow then s
    else
      let s := { s with lcs := { s.lcs with rstLow := false } }
      if s.pmu.rails && s.pmu.vaon then s.bootStart false 0 else s)

/-- A command reset begins: a snapshot, and every half-bridge turns off in two steps (R267, R406, R450). -/
def State.cmdStart (s : State) : State :=
  let dur := allBanks.foldl (fun (m : Nat) (b : Bank) => max m (50 * (s.rd (F.GDR_SOFT_DUR b) + 1))) 0
  let s := s.snapshot true
  let s := each (List.finRange 128) (fun s h => s.reactOff h) s
  { s with lcs := { s.lcs with cmdAt := some (s.clk + dur + usClk 10) } }

/-- A write of the key to LCS_RST_CTRL (R406, R431): in a debug halt the halt is resumed first. -/
def State.cmdReset (s : State) : State :=
  if s.halted then (s.post .resume).post .cmdReset
  else if s.lcs.cmdAt.isSome then s
  else s.cmdStart

/-- COMMAND_RESET_EXECUTE (R406): 10 µs after step 2 begins the reset takes place; one requested in a halt begins at the
frame tick after the resume. -/
def execCommandResetExecute (s : State) : Host.Outcome State Fault Refusal :=
  .next (
    match s.lcs.cmdAt with
    | some t => (s.advTo t).resetFull F.LCS_RST_CAUSE_CMD
    | none => if s.atTick && s.ripe .cmdReset && !s.halted then (s.drop .cmdReset).cmdStart else s)

/-! ### Firmware (R421 to R424) -/

def minSvn (s : State) : Nat := s.rd F.LCS_FW_STAT_MIN_SVN

/-- The ACTIVE and STAGED slots as LCS_FW_STAT shows them. -/
def State.showImages (s : State) (valid : Bool) : State :=
  let s := match s.lcs.active with
    | some i => (s.wr F.LCS_FW_STAT_ACT_SVN i.svn).setReg Reg.LCS_FW_BUILD_ACT (wordOf i.build)
    | none => (s.wr F.LCS_FW_STAT_ACT_SVN 0).setReg Reg.LCS_FW_BUILD_ACT 0#32
  let s := s.wrB F.LCS_FW_STAT_STG_VALID valid
  match s.lcs.staged with
  | some i =>
    if valid then (s.wr F.LCS_FW_STAT_STG_SVN i.svn).setReg Reg.LCS_FW_BUILD_STG (wordOf i.build)
    else (s.wr F.LCS_FW_STAT_STG_SVN 0).setReg Reg.LCS_FW_BUILD_STG 0#32
  | none => (s.wr F.LCS_FW_STAT_STG_SVN 0).setReg Reg.LCS_FW_BUILD_STG 0#32

/-- STAGED becomes ACTIVE (R424). -/
def State.fwCommit (s : State) : State :=
  match s.lcs.staged with
  | none => s
  | some i =>
    let old := s.lcs.active.getD ⟨0, 0, 0, false⟩
    let s := { s with lcs := { s.lcs with active := some i, staged := none } }
    let s := s.wr F.LCS_FW_STAT_MIN_SVN (max (minSvn s) i.svn)
    let s := (s.wr F.LCS_FW_STAT_MIXED 0).showImages false
    let s := s.setReg Reg.LCS_CORE_IMG 0#32
    s.ledPush 4 [wordOf old.build, wordOf i.build, wordOf old.svn, wordOf i.svn]

/-- FIRMWARE_VERIFICATION (R411, R421, R424): whether the ACTIVE image and the STAGED image pass every check but SVN. -/
def execFirmwareVerification (active staged : Bool) (s : State) : Host.Outcome State Fault Refusal :=
  .next (
    if !s.lcs.booting || s.lcs.verified then s
    else
      let s := s.advTo (s.lcs.bootAt + (if s.lcs.short then usClk 7200 else usClk 42200))
      let s := { s with lcs := { s.lcs with verified := true } }
      let svn := minSvn s
      let ok : Option Image → Bool → Bool := fun i v => match i with | some x => v && decide (svn ≤ x.svn) | none => false
      let stg : Bool := ok s.lcs.staged staged && (match s.lcs.staged with | some x => x.noted | none => false)
      if ok s.lcs.active active then s.showImages stg
      else if stg then s.fwCommit
      else (s.showImages false).enterHeld 2 0)

/-! ### Planner cores (R13, R425 to R428) -/

def coreFld (b : Bank) : Fld := ⟨Reg.MPL_CORE_MAP, 4 * b.val + 2, 4 * b.val⟩

/-- Serving cores run different images. -/
def mixedNow (s : State) : Bool :=
  let g := s.rd F.LCS_CORE_IMG_STG
  let on := (allBanks.map (coreOf s)).filter (· ≠ 7)
  on.any (fun q => bit q g) && on.any (fun q => !bit q g)

/-- A core that becomes the spare is loaded (R426). -/
def State.startLoad (s : State) (q : Nat) : State :=
  let s := (s.wr F.MPL_CORE_MAP_SPARE 7).wr F.LCS_FW_STAT_LOADING 1
  { s with lcs := { s.lcs with load := some (q, s.clk) } }

/-- A core is marked FAILED and its source is raised (R426, R427). -/
def State.failCore (s : State) (q : Nat) : State :=
  if coreFailed s q then s
  else
    let s := s.wr F.MPL_CORE_MAP_FAILED (s.rd F.MPL_CORE_MAP_FAILED + 2 ^ q)
    let s := if s.rd F.MPL_CORE_MAP_SPARE = q then s.wr F.MPL_CORE_MAP_SPARE 7 else s
    let loads : Bool := match s.lcs.load with | some (r, _) => r == q | none => false
    let s := if loads then { s.wr F.LCS_FW_STAT_LOADING 0 with lcs := { s.lcs with load := none } } else s
    s.trip (40 + q)

/-- A loaded spare takes the bank of a failed core, or none does (R428). The bank's timeline is that of the galleys that
remain. -/
def State.replaceCore (s : State) (b : Bank) : State :=
  let q := coreOf s b
  if q = 7 || !coreFailed s q then s
  else
    let spare := s.rd F.MPL_CORE_MAP_SPARE
    let s := (s.wr (coreFld b) spare).wr F.MPL_CORE_MAP_SPARE 7
    let s := each (axesOfBank b) (fun s n =>
      let p := s.plan n
      let stand := if s.energised n then [⟨s.now, none, (s.load n).standDraw (s.rd (F.MPL_IHOLD_IHOLD n))⟩] else []
      if p.galley = [] then s.setPlan n { p with book := stand } else s) s
    s.wrB F.LCS_FW_STAT_MIXED (mixedNow s)

/-- SPARE_LOAD_DONE (R426): at 4 KiB per 100 µs; whether the check against the recorded digest passes. -/
def execSpareLoadDone (good : Bool) (s : State) : Host.Outcome State Fault Refusal :=
  .next (
    match s.lcs.load with
    | none => s
    | some (q, t) =>
      let stg := s.flag F.LCS_FW_STAT_STG_VALID
      let img := if stg then s.lcs.staged else s.lcs.active
      let len := match img with | some i => i.len | none => 0
      let s := s.advTo (t + ceilDiv len 4096 * usClk 100)
      let s := { s.wr F.LCS_FW_STAT_LOADING 0 with lcs := { s.lcs with load := none } }
      if good then
        let g := s.rd F.LCS_CORE_IMG_STG
        let g := if bit q g then g - 2 ^ q else g
        (s.wr F.LCS_CORE_IMG_STG (if stg then g + 2 ^ q else g)).wr F.MPL_CORE_MAP_SPARE q
      else s.failCore q)

/-- An obstruction, a Headland reversal or a stop in progress on an axis of the bank defers a swap (R28). The spec says when
an obstruction flag is raised (R240) and not how long it counts: here as long as LES_STAT.OBS stays set, which is until the
host clears it (DESIGN CHOICE, log entry 105). -/
def swapDeferred (s : State) (b : Bank) : Bool :=
  (axesOfBank b).any fun n => s.flag (F.LES_STAT_OBS n) || (s.plan n).leave.isSome

/-- PLANNER_CORE_SWAP (R27, R28, R425): at the swap boundary, or deferred. Where the spare, or the core it would replace, has
failed meanwhile, the swap cannot take place: it ends with FAULT and the source of a failed core (log entry 106). -/
def execPlannerCoreSwap (s : State) : Host.Outcome State Fault Refusal :=
  .next (
    match s.ops.find? fun o : Op => o.op = 0x29 with
    | none => s
    | some o =>
      let b := o.d.bank
      if !s.atTick || s.now < o.t1 || firstPending s then s
      else if swapDeferred s b then s.setOp { o with deferred := true }
      else
        let old := coreOf s b
        let new := s.rd F.MPL_CORE_MAP_SPARE
        if old = 7 || new = 7 then
          s.finish o.tag .fault o.t1 s.now (40 + ((List.range 5).find? (coreFailed s)).getD 0) 0
        else
          let s := s.wr (coreFld b) new
          let s := (s.wrB F.LCS_FW_STAT_MIXED true).startLoad old
          s.finish o.tag .done o.t1 s.now 0 0)

/-- PLANNER_CORE_FAILURE (R427): a core misses its deadline in two consecutive half-frames, or reports a memory error. -/
def execPlannerCoreFailure (q : Core) (memory : Bool) (s : State) : Host.Outcome State Fault Refusal :=
  .next (
    let late := allBanks.any fun b => coreOf s b = q.val && 2 ≤ (s.bank b).missRun
    if memory || late then s.failCore q.val else s)

/-- PLANNER_CORE_REPLACE (R27, R428): at the first frame boundary after the failure. -/
def execPlannerCoreReplace (s : State) : Host.Outcome State Fault Refusal :=
  .next (if !s.atTick || firstPending s then s else each allBanks (fun s b => s.replaceCore b) s)

/-- FIRMWARE_COMMIT (R424): every core not FAILED runs the staged image. -/
def execFirmwareCommit (s : State) : Host.Outcome State Fault Refusal :=
  .next (
    let g := s.rd F.LCS_CORE_IMG_STG
    if s.atTick && s.flag F.LCS_FW_STAT_STG_VALID && (List.range 5).all (fun q => bit q g || coreFailed s q) then s.fwCommit
    else s)

/-! ### Self-test and restore (R412 to R416) -/

/-- The configuration store is loaded and checked (R416). -/
def State.restoreStore (s : State) : State :=
  match s.lcs.store with
  | none => s
  | some st =>
    let t := each st.words (fun s x =>
      let w := mergeMask (rwbOf x.1) (s.reg x.1) x.2
      (s.setReg x.1 w).setBuf x.1 (mergeMask (rwbOf x.1) (s.buf x.1) x.2)) s
    let w := proofWord t st.mask
    if w = st.proof && s.lcs.lockEntry = some st.proof then
      let t := { t with lcs := { t.lcs with locked := st.mask, passAt := t.clk } }
      (t.wr F.LCS_LOCK_STAT_LOCKED 1).setReg Reg.LCS_PROOF w
    else s.enterHeld 3 0

/-- How many bits of a mask of n bits are set. -/
def countBits (n m : Nat) : Nat := ((List.range n).filter fun i => bit i m).length

/-- The results of a self-test in LCS_ST_RES (R412, R413, R432). -/
def State.testResults (s : State) (t : SelfTest) : State :=
  let s := (s.wr F.LCS_ST_RES_CORE t.cores.toNat).wrB F.LCS_ST_RES_LOGIC t.logic
  let s := (s.wrB F.LCS_ST_RES_MEM t.mem).wrB F.LCS_ST_RES_CRYPTO t.crypto
  let s := s.wrB F.LCS_ST_RES_SHORT s.lcs.short
  if s.lcs.short then s
  else
    let s := (s.wrB F.LCS_ST_RES_FCS t.fcs).wrB F.LCS_ST_RES_CLOCK t.clock
    let s := s.wrB F.LCS_ST_RES_STO t.sto
    (s.wr F.LCS_ST_RES_UNTESTED t.vgOut.toNat).wr F.LCS_ST_RES_BANK (Nat.land t.banks.toNat (15 - t.vgOut.toNat))

/-- What a self-test's failures lead to (R414); a spare takes a failed core's bank at the next frame boundary (R428). -/
def State.testFailures (s : State) (t : SelfTest) : State :=
  let s := each ((List.range 5).filter fun q => bit q t.cores.toNat) (fun s q => s.failCore q) s
  let slices := allBanks.any fun b => 2 ≤ countBits 5 (s.rd (F.ADC_ROT_FAILED b))
  let always := t.logic || t.mem || t.crypto || slices || 2 ≤ countBits 5 t.cores.toNat
  let full := !s.lcs.short && (t.fcs || t.clock || t.sto || s.rd F.LCS_ST_RES_BANK ≠ 0)
  if always || full then s.enterHeld 1 0 else s

/-- SELF_TEST_DONE (R376, R409, R411 to R416): the self-test and the restore end; the gate enables may return (R280). -/
def execSelfTestDone (t : SelfTest) (s : State) : Host.Outcome State Fault Refusal :=
  .next (
    if !s.lcs.booting || s.lcs.tested then s
    else
      let s := s.advTo (s.lcs.bootAt + (if s.lcs.short then usClk 16400 else usClk 184200))
      let s := s.testResults t
      let skip : Bank → Bool := fun b => !s.lcs.short && bit b.val t.vgOut.toNat
      let s := each (allBanks.filter fun b => s.powered (12 + b.val) && !skip b) (fullBank t.cals t.offs) s
      let s := s.testFailures t
      let s : State := { s with lcs := { s.lcs with tested := true, restored := true } }
      let s := if s.rd F.CLK_STAT_XO = 2 then { s with ckg := { s.ckg with trimmed := true } } else s
      (s.restoreStore).gatesReturn)

/-- BOOT_READY (R367, R401, R409, R410, R424, R448): at the first frame tick after the restore. -/
def execBootReady (s : State) : Host.Outcome State Fault Refusal :=
  .next (
    let l := s.lcs
    if !s.atTick || !l.booting || !l.verified || !l.tested || !l.restored || s.inHeld then s
    else
      let s := State.wr { s with lcs := { s.lcs with booting := false } } F.LCS_LC_STAT_READY 1
      let s := s.idleReached
      let d := [s.reg Reg.LCS_RST_CAUSE, s.reg Reg.LCS_ST_RES, s.reg Reg.LCS_LC_STAT]
      let s := s.ledPush 8 (d ++ [if s.ledger.ended then 0#32 else 1#32])
      let s := { s with ledger := { s.ledger with ended := false } }
      let s := s.devEvent 0x0017 (d.getD 0 0#32).toNat (d.getD 1 0#32).toNat (d.getD 2 0#32).toNat false
      let spare := s.rd F.MPL_CORE_MAP_SPARE
      let s := if s.flag F.LCS_FW_STAT_STG_VALID && spare ≠ 7 then s.startLoad spare else s
      (s.flushHeld .A).flushHeld .B)

/-! ### Fallow entry and resume (R398 to R403, R431) -/

/-- FALLOW_ENTRY (R397 to R399, R431): at the frame tick an entry begins or goes on; a request for which no state's
conditions hold is refused. -/
def execFallowEntry (s : State) : Host.Outcome State Fault Refusal :=
  .next (
    if !s.atTick || s.lcs.booting || s.lcs.rstLow then s
    else
      match s.pmu.entering with
      | some st => if s.pmu.wake.isNone && fallowReady s st then s.fallowSwitch st else s
      | none =>
        if !s.ripe .fallowEnter && !s.pmu.dwelt then s
        else if s.halted then s.debugResume
        else
          let asked := s.ripe .fallowEnter
          let s := (s.drop .fallowEnter).goDone .fallowEnter F.PMU_CTRL_ENTER
          let s := { s with pmu := { s.pmu with dwelt := false } }
          match fallowTarget s with
          | some d => if s.rd F.PMU_STAT_STATE < d + 1 then s.fallowBegin (d + 1) (fun s => s.snapshot true) else s
          | none =>
            if asked then
              let reason := if fallowCandidates s = [] then 4 else fallowCode s 1
              (s.sqc F.PMU_STAT_ENTRY_REF).wr F.PMU_STAT_REASON reason
            else s)

/-- FALLOW_RESUME (R23, R402, R403, R406): a wake event has come: the resume begins, parents first. -/
def execFallowResume (s : State) : Host.Outcome State Fault Refusal :=
  .next (
    let st := s.rd F.PMU_STAT_STATE
    if s.pmu.wake.isNone || s.pmu.resuming || (st < 2 && s.pmu.entering.isNone) then s
    else
      let s := { s with pmu := { s.pmu with entering := none, resuming := true } }
      if st < 4 then each (requested s [8, 9, 10, 11, 12, 13, 14, 15]) (fun s d => s.raise d s.clk) s
      else if st = 4 then
        let gtc := shadowGtc s
        let t := State.keepTests s (s.wiped true false)
        let t := (t.wr F.PMU_DOM_STAT_PG 1).railsOn
        let t := if t.rd F.CLK_STAT_XO = 2 then ((t.wr F.CLK_STAT_REF 1).wr F.CLK_STAT_LOCK 1).wr F.CLK_STAT_CORE 0 else t
        let t := { t with pmu := { t.pmu with shadow := none } }
        (t.sqc F.LCS_RST_CAUSE_FALLOW1).bootStart true gtc
      else
        let t := ((s.wiped false false).xoStart).sqc F.LCS_RST_CAUSE_FALLOW0
        { t with pmu := { t.pmu with pwren := true, rails := false, pwrenAt := t.clk } })

/-! ### Life-cycle transitions (R144, R418 to R420) -/

/-- The entries of the queue are written (R420). -/
def State.ledFlush (s : State) : State :=
  let q := s.ledger.queue
  each q (fun s e => s.ledStore e) { s with ledger := { s.ledger with queue := [] } }

/-- One entry is written behind those that wait, ahead of a transition (R420). -/
def State.ledNow (s : State) (typ : Nat) (data : List Word) : State :=
  let s := s.ledFlush
  let e : LedEntry := ⟨s.ledger.nextSeq, typ, s.now, data, none⟩
  { s.ledStore e with ledger := { (s.ledStore e).ledger with nextSeq := e.seq + 1 } }

/-- The ledger as provisioning leaves it: the identity entry and an empty baseline (R418, R446). -/
def State.ledInit (s : State) : State :=
  let s := { s with ledger := { LedgerS.init with bad := s.ledger.bad } }
  let s := { s with cnd := { s.cnd with base := [], baseGtc := 0 } }
  let body := leWords 2 Config.deviceId ++ leWords 2 s.now ++ [1#32, 0#32, 0#32, 0#32]
  (s.ledgerPut 0 (body ++ tagOf body)).baseStore

def State.ledWipe (s : State) : State :=
  { s with ledger := { LedgerS.init with bad := s.ledger.bad }, cnd := { s.cnd with base := [], baseGtc := 0 } }

/-- What a transition does beside the reset (R418, R420). -/
def State.transitEffect (s : State) (goal : Nat) (owner : List Byte) : State :=
  let frm := s.lcState
  let entry := [wordOf frm, wordOf goal, wordOf (minSvn s), 0#32]
  let s := if frm = lcBlank || goal = lcBlank || goal = lcRetired then s else s.snapshot true
  if goal = lcProvisioned then
    let lcs := { s.lcs with devKey := some (Config.entropy s.lcs.draws), draws := s.lcs.draws + 1, ownerKey := owner }
    (State.ledInit { s with lcs }).ledNow 1 entry
  else if goal = lcBlank then
    State.ledWipe { s with lcs := { s.lcs with devKey := none, ownerKey := [], store := none, lockEntry := none } }
  else if goal = lcRetired then
    State.ledWipe { s with lcs := { s.lcs with devKey := none, store := none, lockEntry := none } }
  else if frm = lcService && goal = lcCommissioning then
    State.ledNow { s with lcs := { s.lcs with store := none } } 1 entry
  else s.ledNow 1 entry

/-- LIFECYCLE_TRANSITION (R144, R406, R418 to R420, R431): at the planned end of an authorised LC_TRANSIT. -/
def execLifecycleTransition (s : State) : Host.Outcome State Fault Refusal :=
  .next (
    match s.lcs.transit with
    | none => s
    | some (goal, t1, owner) =>
      if !s.atTick || 2 * (s.now - t1) < s.tfNs then s
      else if s.halted then s.debugResume
      else
        let s := s.transitEffect goal owner
        let pg := s.rd F.PMU_DOM_STAT_PG
        let t := State.keepTests s (s.wiped false true)
        let t := (t.wr F.PMU_DOM_STAT_PG pg).pmuAwake
        ((t.wr F.LCS_LC_STAT_STATE goal).sqc F.LCS_RST_CAUSE_TRANSIT).bootStart true 0)

/-- The fields of a token are those expected (R419). -/
def tokenFields (s : State) (goal nonce : Nat) (t : List Byte) : Bool :=
  let zero := fun a n => leNat ((t.drop a).take n) = 0
  leNat (t.take 4) = 0x544C4359 && leNat ((t.drop 4).take 1) = goal && leNat ((t.drop 5).take 1) = s.lcState && zero 6 2 &&
  leNat ((t.drop 8).take 8) = Config.deviceId % 2 ^ 64 && leNat ((t.drop 16).take 8) = nonce % 2 ^ 64 && zero 24 40 &&
  (goal = lcProvisioned || zero 64 64)

/-- A token passes: its fields, and its signature under the key that R418 names (R419). -/
def tokenOk (s : State) (goal nonce : Nat) (t : List Byte) : Bool :=
  let key := if goal = lcProvisioned || goal = lcBlank then Config.vendorKey else s.lcs.ownerKey
  tokenFields s goal nonce t && Config.ecdsaVerify key t

/-- LC_TOKEN_CHECK (R144, R418, R419): in the operation's first frame the token is read and the final record is written; a
transition to OPERATIONAL needs none. -/
def execLcTokenCheck (tag : Fin 1024) (token : Vector Byte 192) (s : State) : Host.Outcome State Fault Refusal :=
  .next (
    match s.opOf tag with
    | none => s
    | some o =>
      if o.op ≠ 0x2A || s.now < o.t1 then s
      else
        let goal := o.d.u8 16
        let t := token.toList
        if goal = lcOperational || tokenOk s goal (o.data.getD 0 0) t then
          let owner := if goal = lcProvisioned then (t.drop 64).take 64 else []
          State.finish { s with lcs := { s.lcs with transit := some (goal, o.t1, owner) } } o.tag .done o.t1
            (o.t2.getD o.t1) 0 0
        else s.finish o.tag .authFail o.t1 s.now 0 0)

/-! ### Staging (R421, R422) -/

def hdr (h : List Byte) (a n : Nat) : Nat := leNat ((h.drop a).take n)

/-- An image's header passes every check but SVN (R421); `digest` is what SHA-256 gives over its code. -/
def imageOk (h digest : List Byte) : Bool :=
  hdr h 0 4 = 0x57464359 && hdr h 4 4 % 4096 = 0 && 4096 ≤ hdr h 4 4 && hdr h 4 4 ≤ 524288 && hdr h 8 2 ≤ 63 &&
  hdr h 10 2 = 0 && hdr h 112 144 = 0 && (h.drop 16).take 32 = digest &&
  Config.ecdsaVerify Config.vendorKey (h.take 112)

/-- FW_STAGE_DONE (R144, R422): the image has been read and checked at the planned end. -/
def execFwStageDone (tag : Fin 1024) (header : Vector Byte 256) (digest : Vector Byte 32) (s : State) :
    Host.Outcome State Fault Refusal :=
  .next (
    match s.opOf tag with
    | none => s
    | some o =>
      if o.op ≠ 0x28 then s
      else
        let s := s.advToGtc (o.t2.getD o.t1)
        let h := header.toList
        let svn := hdr h 8 2
        let s := { s with lcs := { s.lcs with staged := none } }.showImages false
        if hdr h 4 4 ≠ o.d.u32 24 || !imageOk h digest.toList then s.finish o.tag .authFail o.t1 (o.t2.getD o.t1) 0 0
        else if svn < minSvn s then s.finish o.tag .rollback o.t1 (o.t2.getD o.t1) svn 0
        else
          let s := State.showImages { s with lcs := { s.lcs with staged := some ⟨hdr h 4 4, svn, hdr h 12 4, true⟩ } } true
          let s := s.setReg Reg.LCS_CORE_IMG 0#32
          let spare := s.rd F.MPL_CORE_MAP_SPARE
          let s := if spare ≠ 7 then s.startLoad spare
            else match s.lcs.load with
              | some (q, _) => s.startLoad q
              | none => s
          s.finish o.tag .done o.t1 (o.t2.getD o.t1) 0 0)

/-! ### Die temperature (R345, R475) -/

/-- DIE_TEMPERATURE_SAMPLE (R475): every 1 ms the highest reading, in 0.1 °C, of the sensors that are powered. Sources 26 and
27 trip as it reaches 125 °C and 140 °C. -/
def execDieTemperatureSample (banks : Vector (BitVec 16) 4) (others : List (BitVec 16)) (s : State) :
    Host.Outcome State Fault Refusal :=
  .next (
    let own := (allBanks.filter fun b => s.powered (12 + b.val)).map fun b => banks[b].toInt
    let all := own ++ others.map BitVec.toInt
    match all with
    | [] => s
    | x :: xs =>
      if !s.powered 5 then s
      else
        let t := xs.foldl max x
        let s := s.setReg Reg.GLB_TEMP (wordOf (ofSigned 16 t))
        let check := fun (s : State) (src : Nat) (lim : Int) =>
          if lim ≤ t then (if (s.src src).active then s else s.trip src (active := true)) else s.inactive src
        check (check s 26 1250) 27 1400)

end Sys2Proof.Machine
end

