-- ==== Sys2Proof/Machine/Descr.lean ====
section
/-! DEFINITION. The descriptors that occupy no galley entry, or one on each of several axes, as they are admitted (R133,
R138 to R145, R207, R208, R298, R307, R418, R422, R425). -/

namespace Sys2Proof.Machine

/-- The opcodes of R130. -/
def opcodes : List Nat :=
  [0, 1, 2, 3, 4, 5, 6, 7, 8, 9, 0xA, 0x10, 0x11, 0x12, 0x13, 0x18, 0x19, 0x1A, 0x1B, 0x20, 0x28, 0x29, 0x2A]

/-! ### Instants -/

/-- The first frame tick at or after GTC t, as the frame period gives it. -/
def tickFrom (s : State) (t : Nat) : Nat := s.tickNs + ceilDiv (t - s.tickNs) s.tfNs * s.tfNs

/-- The first frame tick after GTC t. -/
def tickAfter (s : State) (t : Nat) : Nat := tickFrom s (t + 1)

/-- The first half-frame tick at or after GTC t. -/
def halfTickFrom (s : State) (t : Nat) : Nat :=
  let m := s.tickNs + (t - s.tickNs) / s.tfNs * s.tfNs
  let half := 4 * (s.rd F.TBS_FRAME_PERIOD / 2)
  if t ≤ m then m else if t ≤ m + half then m + half else m + s.tfNs

/-! ### Shared forms -/

/-- A descriptor that names an axis of a bank without a serving core (R428). -/
def coreCheck (s : State) (op : Nat) (d : Desc) : Option Refuse :=
  if (axesNamed op d).any fun n => coreOf s (bankOfAxis n) = 7 then some (.state, 9) else none

/-- An operation of two records is accepted: planned start t1, planned end t2. -/
def acceptOp (s : State) (o : Op) : State × List Word := ({ s with ops := s.ops ++ [o] }, acceptWords o)

/-- The decision of a descriptor by its resource checks (check 8 of R55), which are given the effective start. -/
def decideBy (k : Ctx) (op : Nat) (d : Desc) (useStart : Bool) (chk : State → Nat → Option Refuse)
    (acc : State → Nat → Nat → State × List Word) (s : State) (i : Nat) : State :=
  decideWith k op d useStart
    (fun s tag t =>
      match modeCheck s k op d with
      | some r => .error r
      | none =>
        match chk s t with
        | some r => .error r
        | none => .ok (acc s tag t)) s i

/-! ### NOP and unknown opcodes (R129, R145) -/

def decideNop (k : Ctx) (d : Desc) (s : State) (i : Nat) : State :=
  match preCheck s k 0 d with
  | some r => s.refuse k 0 d i r
  | none => s.decide k i (cplWords none true true .done 0 d.cookie s.tickNs s.tickNs 0 i 0)

/-! ### STOP (R133) -/

/-- The reference of an axis at GTC t as accepted work gives it, STOPs apart: the segment that runs then, or the rest
behind the last one that has ended. -/
def workRef (s : State) (n : Axis) (t : Nat) : Rat × Rat × Rat :=
  let p := s.plan n
  let past := p.galley.filter fun g => !g.begun && g.t1 ≤ t
  match past.getLast? with
  | some g => motionAt g.mo t
  | none =>
    match p.follow with
    | some f => (f.x, f.v, f.a)
    | none => motionAt p.ref t

/-- The braking an earlier STOP on the axis gives from its own half-frame tick, if it acts by t. -/
def earlierStop (s : State) (n : Axis) (t : Nat) : Option Motion :=
  let os := s.ops.filter fun o => o.op = 4 && !o.begun && o.axes.contains n && halfTickFrom s o.t1 ≤ t
  match os with
  | [] => none
  | o :: rest =>
    let first := rest.foldl (fun m o => min m (halfTickFrom s o.t1)) (halfTickFrom s o.t1)
    let r := workRef s n first
    some (headland first r.1 r.2.1 r.2.2 (hdec s n) (hjerk s n))

/-- The predicted standstill of an axis that a STOP brakes from the half-frame tick t (R133, R174). -/
def stopStand (s : State) (n : Axis) (t : Nat) : Nat :=
  let r := match earlierStop s n t with
    | some m => motionAt m t
    | none => workRef s n t
  t + phasesNs (headland t r.1 r.2.1 r.2.2 (hdec s n) (hjerk s n)).phases

def decideStop (k : Ctx) (d : Desc) (s : State) (i : Nat) : State :=
  decideBy k 4 d true (fun s _ => coreCheck s 4 d)
    (fun s tag t =>
      let axes := axesNamed 4 d
      let h := halfTickFrom s t
      let e := axes.foldl (fun m n => max m (stopStand s n h)) h
      acceptOp s (mkOp tag k 4 d i axes t (some e))) s i

/-! ### CONFIG_AXIS and CONFIG_BANK (R138) -/

/-- The planned start of a CONFIG: a frame tick, behind what the galleys hold (R138, R155). -/
def configStart (s : State) (axes : List Axis) (t : Nat) : Nat :=
  tickFrom s ((axes.map (galleyFreeAt s)).foldl max t)

/-- A pair that would change a committed field under lock-up (R138): its register. -/
def configLocked (s t : State) (op : Nat) (d : Desc) : Option Refuse :=
  if bit (configGroup op d) (frozenMask s) then
    match (configPairs d).find? fun x => Nat.land (changedBits t x.2.1) (committedOf x.2.1) ≠ 0 with
    | some x => some (.locked, x.2.1)
    | none => none
  else none

/-- The range checks on the values the group would take (R138): t holds the pairs in its buffered copies. -/
def configRange (s t : State) (op : Nat) (d : Desc) : Option Refuse :=
  let g := configGroup op d
  let bad := (rangeConds s (t.overlay (2 ^ g)) g).filter (·.2)
  match bad with
  | [] => none
  | b :: _ =>
    match (configPairs d).find? fun x => bad.any fun c : Cond => c.1.contains x.2.1 with
    | some x => some (.range, x.2.1)
    | none =>
      let low := fun c : Cond => c.1.foldl min (c.1.headD 0)
      some (.range, bad.foldl (fun m c => min m (low c)) (low b))

def configCheck (s : State) (op : Nat) (d : Desc) : Option Refuse :=
  let restart := bit 0 (d.u8 49)
  let t := withPairs s d
  match (axesNamed op d).findSome? fun n => axisStateCheck s n restart with
  | some r => some r
  | none =>
    match configLocked s t op d with
    | some r => some r
    | none => configRange s t op d

/-- The entry of a CONFIG on one axis and its book: the current ramps down over the first frame; with RESTART the axis
stands again from the planned end. -/
def configEntry (tag op : Nat) (k : Ctx) (d : Desc) (t e : Nat) (s : State) (n : Axis) : State :=
  let x0 := startPos s n
  let stand := (s.load n).standDraw (s.rd (F.MPL_IHOLD_IHOLD n))
  let closed := closeBook (s.plan n).book t
  let wasOn := s.endsOn n (s.plan n).galley
  let book := closed ++ (if wasOn then [⟨t, some (t + s.tfNs), stand⟩] else []) ++
    (if bit 0 (d.u8 49) then [⟨e, none, stand⟩] else [])
  s.takeEntry n ⟨tag, op, k, d, t, some e, false, ⟨t, x0, 0, 0, [], x0⟩, 0, 0⟩ book

def decideConfig (k : Ctx) (op : Nat) (d : Desc) (s : State) (i : Nat) : State :=
  decideBy k op d true (fun s _ => configCheck s op d)
    (fun s tag t0 =>
      let axes := axesNamed op d
      let t := configStart s axes t0
      let e := t + 2 * s.tfNs
      let x := acceptOp s (mkOp tag k op d i axes t (some e))
      (each axes (configEntry tag op k d t e) x.1, x.2)) s i

/-! ### BUDGET and QUOTA (R139, R441) -/

/-- The largest budget a BUDGET may carry: LIM, or LIM derated (R139, R441). -/
def budgetTop (s : State) (b : Bank) : Nat :=
  let lim := s.rd (F.MPL_BUDGET_LIM_LIM b)
  let der := s.rd (F.CND_DER_DER b)
  if der < 1024 then lim * der / 1024 else lim

def nextTick (s : State) : Nat := s.tickNs + s.tfNs

/-- BUDGET (R139). Its change takes effect at the next frame tick whatever its START says: check 4 is not made of it (DESIGN
CHOICE, log entry 111). -/
def decideBudget (k : Ctx) (d : Desc) (s : State) (i : Nat) : State :=
  decideBy k 0x12 d false
    (fun s _ => if budgetTop s d.bank < d.u32 16 then some (.limit, 8 + 256 * d.bank.val) else none)
    (fun s tag _ =>
      (s.setBank d.bank { s.bank d.bank with budgetNext := some (d.u32 16, s.clk) },
       singleWords tag .applied 0x12 d (nextTick s) (nextTick s) i)) s i

/-- The context a QUOTA names (R139). -/
def quotaCtx (d : Desc) : Ctx := ⟨d.u8 16 % 64, by omega⟩

/-- QUOTA (R139), with no check 4 as for BUDGET (DESIGN CHOICE, log entry 111). -/
def decideQuota (k : Ctx) (d : Desc) (s : State) (i : Nat) : State :=
  let c := quotaCtx d
  decideBy k 0x13 d false
    (fun s _ =>
      if bit 1 (frozenMask s) && s.rd (F.HIF_CTX_QUOTA_QUOTA c) ≠ d.u32 20 then some (.locked, Reg.HIF_CTX_QUOTA c)
      else none)
    (fun s tag _ =>
      (s.setCtx c { s.ctx c with quota := some (d.u32 20, s.clk) },
       singleWords tag .applied 0x13 d (nextTick s) (nextTick s) i)) s i

/-! ### Observation (R140, R141) -/

def streamOf (d : Desc) : Fin 8 := ⟨d.u8 16 % 8, by omega⟩

/-- TELEMETRY (R140). What the spec leaves open is chosen (DESIGN CHOICE, log entry 109): a stream is active for a further
start from the acceptance of its start on, a stop acts at its decision, and one of a stream that nobody owns is DONE. -/
def decideTelemetry (k : Ctx) (d : Desc) (s : State) (i : Nat) : State :=
  let j := streamOf d
  let start := d.u8 17 = 1
  decideBy k 0x18 d true
    (fun s _ =>
      match coreCheck s 0x18 d with
      | some r => some r
      | none =>
        match (s.stream j).owner with
        | none => none
        | some o => if start then some (.busy, 0) else if o ≠ k then some (.state, 7) else none)
    (fun s tag t =>
      if start then
        (s.setStream j { StreamS.init with owner := some k, startAt := t, decim := d.u16 18, axes := d.u32 20,
                                           asig := d.u16 24, bsig := d.u8 26 % 16, seq := 1 },
         singleWords tag .done 0x18 d t t i)
      else
        ((s.setStream j StreamS.init).wr (F.HIF_TLM_STAT_ACTIVE j) 0, singleWords tag .done 0x18 d s.tickNs s.tickNs i)) s i

def decideSnapshot (k : Ctx) (d : Desc) (s : State) (i : Nat) : State :=
  decideBy k 0x19 d true (fun s _ => coreCheck s 0x19 d)
    (fun s tag t => acceptOp s (mkOp tag k 0x19 d i (axesNamed 0x19 d) t (some (halfTickFrom s t)))) s i

def decideLedgerRead (k : Ctx) (d : Desc) (s : State) (i : Nat) : State :=
  decideBy k 0x20 d true (fun _ _ => none)
    (fun s tag t => acceptOp s (mkOp tag k 0x20 d i [] t (some (t + ceilDiv (d.u32 20) 4096 * s.tfNs)))) s i

/-! ### Conversion and calibration (R142, R143, R207, R298, R305, R307) -/

/-- The frame, counted from the present one, that holds GTC t. -/
def frameOf (s : State) (t : Nat) : Nat := (t - s.tickNs) / s.tfNs

/-- The converter's part of check 8 for a CONVERT (R142, R298, R307). -/
def convertCheck (s : State) (d : Desc) (t : Nat) : Option Refuse :=
  let b := d.bank
  let held := (s.ops.filter fun o => o.op = 0x1A && o.d.bank = b && frameOf s o.t1 = frameOf s t).length
  let inFull := s.ops.any fun o => o.op = 0x1B && o.d.u8 16 = 1 && tickAfter s o.t1 ≤ t + 400 &&
    (match o.t2 with | some e => t < e | none => true)
  if !s.powered (12 + b.val) then some (.state, 2)
  else if 4 ≤ held || inFull then some (.noSlot, b.val)
  else none

def decideConvert (k : Ctx) (d : Desc) (s : State) (i : Nat) : State :=
  decideBy k 0x1A d true (fun s t => convertCheck s d t)
    (fun s tag t =>
      acceptOp s (mkOp tag k 0x1A d i [] t (some (t + 400 + 4 * (20 + 10 * d.u8 18) + 400)))) s i

/-- The banks a CALIBRATE works on (R143). -/
def calBanks (d : Desc) : List Bank :=
  if d.u8 16 = 0 then [d.bank] else if d.u8 16 = 1 then allBanks else [bankOfAxis d.axis]

/-- A calibration still to end on one of the banks (R143). -/
def calBusy (s : State) (d : Desc) : Bool :=
  s.ops.any fun o => o.op = 0x1B && (calBanks o.d).any fun b => (calBanks d).contains b

/-- The span of a FULL begun after planned start t would contain the window of an accepted CONVERT (R298). -/
def fullMeets (s : State) (t : Nat) : Bool :=
  s.ops.any fun o => o.op = 0x1A && tickAfter s t < o.t1 + 400 && o.t1 < tickAfter s t + 5200000

def identifyEnd (s : State) (t : Nat) : Nat := tickFrom s (t + 104000000)

/-- The axis's book with an identification's draw over its whole duration (R208). -/
def identifyBook (s : State) (n : Axis) (t : Nat) : List Booking :=
  (s.plan n).book ++ [⟨t, some (identifyEnd s t), identifyMa s n⟩]

/-- Check 8 of a CALIBRATE (R143, R208, R298, R428). A SLICE on a bank whose analog domain is off is refused as a CONVERT is
(DESIGN CHOICE, log entry 112). -/
def calibrateCheck (s : State) (d : Desc) (t : Nat) : Option Refuse :=
  let scope := d.u8 16
  let n := d.axis
  let own : Option Refuse :=
    if scope = 1 then (if s.anyEnergised then some (.state, 4) else none)
    else if scope = 2 then
      match axisStateCheck s n true with
      | some r => some r
      | none => if s.energised n then some (.state, 4) else none
    else if s.powered (12 + d.bank.val) then none
    else some (.state, 2)
  match own with
  | some r => some r
  | none =>
    if calBusy s d || (scope = 1 && fullMeets s t) then some (.busy, 0)
    else if scope = 2 then powerCheck s n (identifyBook s n t)
    else none

def decideCalibrate (k : Ctx) (d : Desc) (s : State) (i : Nat) : State :=
  let scope := d.u8 16
  let n := d.axis
  decideBy k 0x1B d true (fun s t => calibrateCheck s d t)
    (fun s tag t =>
      let e := if scope = 0 then tickAfter s t + 4100000 else if scope = 1 then tickAfter s t + 5200000
        else identifyEnd s t
      let s := if scope = 2 then s.setPlan n { s.plan n with book := identifyBook s n t } else s
      acceptOp s (mkOp tag k 0x1B d i (if scope = 2 then [n] else []) t (some e))) s i

/-! ### Firmware and life-cycle (R144, R418, R419, R422, R425) -/

def stageCheck (s : State) : Option Refuse :=
  if s.flag F.LCS_FW_STAT_MIXED || s.ops.any fun o => o.op = 0x28 then some (.busy, 0) else none

def decideFwStage (k : Ctx) (d : Desc) (s : State) (i : Nat) : State :=
  decideBy k 0x28 d true (fun s _ => stageCheck s)
    (fun s tag t =>
      acceptOp s (mkOp tag k 0x28 d i [] t (some (t + d.u32 24 / 4096 * s.tfNs + 40000000)))) s i

/-- The preconditions of an FW_SWAP (R144, R425). -/
def swapCheck (s : State) (b : Bank) : Option Refuse :=
  let core := coreOf s b
  if !s.flag F.LCS_FW_STAT_STG_VALID then some (.state, 5)
  else if core = 7 || (s.rd F.MPL_CORE_MAP_SPARE = 7 && s.lcs.load.isNone) then some (.state, 9)
  else if s.lcs.load.isSome || s.ops.any (fun o => o.op = 0x29) then some (.busy, 0)
  else if bit core (s.rd F.LCS_CORE_IMG_STG) then some (.state, 5)
  else none

def decideFwSwap (k : Ctx) (d : Desc) (s : State) (i : Nat) : State :=
  decideBy k 0x29 d true (fun s _ => swapCheck s d.bank)
    (fun s tag t => acceptOp s (mkOp tag k 0x29 d i [] (tickFrom s t) (some (tickFrom s t)))) s i

/-- The mask bits that a lock-up must hold for OPERATIONAL (R418): 0, 2, 3, 5, 6, 8 to 11 and 32 to 63. -/
def operationalMask : Nat := 0xFFFFFFFF00000F6D

/-- A transition that R418 permits; the further condition of OPERATIONAL with it. -/
def transitOk (s : State) (goal : Nat) : Bool :=
  let frm := s.lcState
  if goal = lcProvisioned then frm = lcBlank
  else if goal = lcBlank then frm = lcProvisioned || frm = lcRetired
  else if goal = lcCommissioning then frm = lcProvisioned || frm = lcService
  else if goal = lcOperational then
    (frm = lcCommissioning || frm = lcService) && s.flag F.LCS_LOCK_STAT_LOCKED &&
      Nat.land s.lcs.locked operationalMask = operationalMask
  else if goal = lcService then frm = lcOperational
  else goal = lcRetired && (frm = lcProvisioned || frm = lcCommissioning || frm = lcOperational || frm = lcService)

def transitCheck (s : State) (goal : Nat) : Option Refuse :=
  if !transitOk s goal then some (.state, 6)
  else if s.anyEnergised || allAxes.any (fun n => (s.plan n).galley ≠ []) then some (.state, 4)
  else none

/-- LCS draws a new NONCE at every LC_TRANSIT decision (R419). -/
def State.redraw (s : State) : State :=
  { s with lcs := { s.lcs with nonce := Config.entropy s.lcs.draws, draws := s.lcs.draws + 1 } }

def decideTransit (k : Ctx) (d : Desc) (s : State) (i : Nat) : State :=
  State.redraw (decideBy k 0x2A d true (fun s _ => transitCheck s (d.u8 16))
    (fun s tag t =>
      let t1 := tickFrom s t
      acceptOp s { mkOp tag k 0x2A d i [] t1 (some (t1 + s.tfNs)) with data := [s.lcs.nonce] }) s i)

/-! ### The commands: a descriptor arrives -/

/-- BAD_OPCODE (R129). -/
def execBadOpcode (k : Ctx) (op : Byte) (d : Desc) (s : State) : Host.Outcome State Fault Refusal :=
  .next (if opcodes.contains op.toNat then s
    else descriptor k op.toNat d (fun s i => s.refuse k op.toNat d i (.badOpcode, op.toNat)) s)

/-- NOP (R145). -/
def execNop (k : Ctx) (d : Desc) (s : State) : Host.Outcome State Fault Refusal :=
  .next (descriptor k 0 d (decideNop k d) s)

/-- MOVE_ABS (R132). -/
def execMoveAbs (k : Ctx) (d : Desc) (s : State) : Host.Outcome State Fault Refusal :=
  .next (descriptor k 1 d (decideMotion k 1 d) s)

/-- MOVE_REL (R132). -/
def execMoveRel (k : Ctx) (d : Desc) (s : State) : Host.Outcome State Fault Refusal :=
  .next (descriptor k 2 d (decideMotion k 2 d) s)

/-- JOG (R132). -/
def execJog (k : Ctx) (d : Desc) (s : State) : Host.Outcome State Fault Refusal :=
  .next (descriptor k 3 d (decideMotion k 3 d) s)

/-- STOP (R133). -/
def execStop (k : Ctx) (d : Desc) (s : State) : Host.Outcome State Fault Refusal :=
  .next (descriptor k 4 d (decideStop k d) s)

/-- HOLD (R134). -/
def execHold (k : Ctx) (d : Desc) (s : State) : Host.Outcome State Fault Refusal :=
  .next (descriptor k 5 d (decideStand k 5 d) s)

/-- RELEASE (R134). -/
def execRelease (k : Ctx) (d : Desc) (s : State) : Host.Outcome State Fault Refusal :=
  .next (descriptor k 6 d (decideStand k 6 d) s)

/-- FOLLOW_STEP (R135). -/
def execFollowStep (k : Ctx) (d : Desc) (s : State) : Host.Outcome State Fault Refusal :=
  .next (descriptor k 7 d (decideMotion k 7 d) s)

/-- HOME (R136). -/
def execHome (k : Ctx) (d : Desc) (s : State) : Host.Outcome State Fault Refusal :=
  .next (descriptor k 8 d (decideMotion k 8 d) s)

/-- BARRIER (R137). -/
def execBarrier (k : Ctx) (d : Desc) (s : State) : Host.Outcome State Fault Refusal :=
  .next (descriptor k 9 d (decideBarrier k d) s)

/-- WAIT (R134). -/
def execWait (k : Ctx) (d : Desc) (s : State) : Host.Outcome State Fault Refusal :=
  .next (descriptor k 0xA d (decideStand k 0xA d) s)

/-- CONFIG_AXIS (R138). -/
def execConfigAxis (k : Ctx) (d : Desc) (s : State) : Host.Outcome State Fault Refusal :=
  .next (descriptor k 0x10 d (decideConfig k 0x10 d) s)

/-- CONFIG_BANK (R138). -/
def execConfigBank (k : Ctx) (d : Desc) (s : State) : Host.Outcome State Fault Refusal :=
  .next (descriptor k 0x11 d (decideConfig k 0x11 d) s)

/-- BUDGET (R139). -/
def execBudget (k : Ctx) (d : Desc) (s : State) : Host.Outcome State Fault Refusal :=
  .next (descriptor k 0x12 d (decideBudget k d) s)

/-- QUOTA (R139). -/
def execQuota (k : Ctx) (d : Desc) (s : State) : Host.Outcome State Fault Refusal :=
  .next (descriptor k 0x13 d (decideQuota k d) s)

/-- TELEMETRY with ACTION 1 (R140). -/
def execTelemetryStart (k : Ctx) (d : Desc) (s : State) : Host.Outcome State Fault Refusal :=
  .next (descriptor k 0x18 d (decideTelemetry k d) s)

/-- TELEMETRY with ACTION 0 (R140). -/
def execTelemetryStop (k : Ctx) (d : Desc) (s : State) : Host.Outcome State Fault Refusal :=
  .next (descriptor k 0x18 d (decideTelemetry k d) s)

/-- SNAPSHOT (R141). -/
def execSnapshot (k : Ctx) (d : Desc) (s : State) : Host.Outcome State Fault Refusal :=
  .next (descriptor k 0x19 d (decideSnapshot k d) s)

/-- CONVERT (R142). -/
def execConvert (k : Ctx) (d : Desc) (s : State) : Host.Outcome State Fault Refusal :=
  .next (descriptor k 0x1A d (decideConvert k d) s)

/-- CALIBRATE with SCOPE SLICE (R143). -/
def execCalibrateSlice (k : Ctx) (d : Desc) (s : State) : Host.Outcome State Fault Refusal :=
  .next (descriptor k 0x1B d (decideCalibrate k d) s)

/-- CALIBRATE with SCOPE FULL (R143). -/
def execCalibrateFull (k : Ctx) (d : Desc) (s : State) : Host.Outcome State Fault Refusal :=
  .next (descriptor k 0x1B d (decideCalibrate k d) s)

/-- CALIBRATE with SCOPE IDENTIFY (R207). -/
def execCalibrateIdentify (k : Ctx) (d : Desc) (s : State) : Host.Outcome State Fault Refusal :=
  .next (descriptor k 0x1B d (decideCalibrate k d) s)

/-- LEDGER_READ (R141). -/
def execLedgerRead (k : Ctx) (d : Desc) (s : State) : Host.Outcome State Fault Refusal :=
  .next (descriptor k 0x20 d (decideLedgerRead k d) s)

/-- FW_STAGE (R422). -/
def execFwStage (k : Ctx) (d : Desc) (s : State) : Host.Outcome State Fault Refusal :=
  .next (descriptor k 0x28 d (decideFwStage k d) s)

/-- FW_SWAP (R425). -/
def execFwSwap (k : Ctx) (d : Desc) (s : State) : Host.Outcome State Fault Refusal :=
  .next (descriptor k 0x29 d (decideFwSwap k d) s)

/-- LC_TRANSIT (R144). -/
def execLcTransit (k : Ctx) (d : Desc) (s : State) : Host.Outcome State Fault Refusal :=
  .next (descriptor k 0x2A d (decideTransit k d) s)

/-! ### The frame's fetching -/

/-- DOORBELL_PAGE_RETURN (R108, R110). -/
def execDoorbellPageReturn (p : Port) (page : Vector Word 64) (s : State) : Host.Outcome State Fault Refusal :=
  .next (doorbellPageReturn p page s)

/-- DOORBELL_READ_LATE (R109). -/
def execDoorbellReadLate (p : Port) (s : State) : Host.Outcome State Fault Refusal := .next (doorbellReadLate p s)

/-- PHASE_STALL (R105). -/
def execPhaseStall (k : Ctx) (s : State) : Host.Outcome State Fault Refusal := .next (phaseStall k s)

/-- ADMISSION_CUTOFF (R35, R188). -/
def execAdmissionCutoff (s : State) : Host.Outcome State Fault Refusal := .next (admissionCutoff s)

end Sys2Proof.Machine
end

