-- ==== Sys2Proof/Machine/FcsRows.lean ====
section
/-! DEFINITION. The safety island's own commands: trips as such, clears, the lockstep pair and the ALIVE outputs (R18, R346,
R349, R366 to R368). -/

namespace Sys2Proof.Machine

/-- FAULT_TRIP (R346): a source trips; `object` is the axis that a record of source 36 names. -/
def execFaultTrip (src : Source) (object : Option Axis) (s : State) : Host.Outcome State Fault Refusal :=
  .next (s.trip src.val (object := if src.val = 36 then object.map (·.val) else none))

/-! ### Clears (R349) -/

def isClear (r : Req) : Bool := match r with | .clearSrc _ => true | .clearAll => true | _ => false

/-- The clear of every latched source that passes the checks of R349. -/
def State.clearEvery (s : State) : State :=
  each (s.fcs.srcs.map (·.src)) (fun s src => if clearRefused s src then s else s.clearSrc src) s

/-- One request of FCS_CLR is carried out or refused (R349). -/
def State.clearReq (s : State) (r : Req) : State :=
  match r with
  | .clearSrc n => if clearRefused s n then s.sqc F.FCS_STAT_CLR_REF else s.clearSrc n
  | .clearAll => s.clearEvery
  | _ => s

/-- FAULT_CLEAR (R349, R27): at the frame tick after the request. -/
def execFaultClear (s : State) : Host.Outcome State Fault Refusal :=
  .next (
    if !s.atTick then s
    else
      let mine := s.reqs.filter fun x => isClear x.1 && x.2 < s.tickClk
      let s := { s with reqs := s.reqs.filter fun x => !(isClear x.1 && x.2 < s.tickClk) }
      let s := each mine (fun s x => s.clearReq x.1) s
      if mine ≠ [] && !(s.reqs.any fun x => isClear x.1) then s.wr F.FCS_CLR_GO 0 else s)

/-! ### Detectors of FCS itself -/

/-- LOCKSTEP_MISMATCH (R368): source 32 launches DEVICE_OFF, and the device enters HELD. -/
def execLockstepMismatch (s : State) : Host.Outcome State Fault Refusal :=
  .next (if s.powered 1 then (s.trip 32).enterHeld 4 32 else s)

/-- FRAME_TICK_MISSING (R18): no frame tick for two frame periods; source 34 persists until one comes. -/
def execFrameTickMissing (s : State) : Host.Outcome State Fault Refusal :=
  .next (
    if !s.ticking || !s.powered 1 || (s.src 34).active then s
    else (s.advTo (s.tickClk + 2 * s.period)).trip 34 (active := true))

/-! ### The ALIVE outputs (R366, R367) -/

/-- An ALIVE output takes a level, at the present clock. -/
def State.aliveEdge (s : State) (a high : Bool) : State :=
  let s := if a then { s with fcs := { s.fcs with levelA := high, edgeA := s.clk } }
    else { s with fcs := { s.fcs with levelB := high, edgeB := s.clk } }
  s.emit (.alive a high)

/-- ALIVE_A_EDGE (R366): 250 µs after the one before, once a check pass has succeeded; a stopped output goes low. -/
def execAliveAEdge (s : State) : Host.Outcome State Fault Refusal :=
  .next (
    if s.flag F.FCS_STAT_ALIVE_A && !s.aliveStop then
      if (s.src 34).active then s
      else
        let s := s.advTo (s.fcs.edgeA + usClk 250)
        s.aliveEdge true (!s.fcs.levelA)
    else if s.fcs.levelA then s.aliveEdge true false
    else s)

/-- ALIVE_B_EDGE (R366): at the first frame tick 500 µs or more after the one before; a stopped output goes low. -/
def execAliveBEdge (s : State) : Host.Outcome State Fault Refusal :=
  .next (
    if s.flag F.FCS_STAT_ALIVE_B && !s.aliveStop then
      if s.atTick && s.fcs.edgeB + usClk 500 ≤ s.clk then s.aliveEdge false (!s.fcs.levelB) else s
    else if s.fcs.levelB then s.aliveEdge false false
    else s)

/-- ALIVE_WATCHDOG_EXPIRY (R366, R367): 1 ms without an edge of ALIVE_A stops ALIVE_B. -/
def execAliveWatchdogExpiry (s : State) : Host.Outcome State Fault Refusal :=
  .next (
    if s.flag F.FCS_STAT_ALIVE_B then
      let s := (s.advTo (s.fcs.edgeA + msClk 1)).wr F.FCS_STAT_ALIVE_B 0
      if s.fcs.levelB then s.aliveEdge false false else s
    else s)

/-- ALIVE_RESTART (R367): no cause remains, and both outputs start together at a frame tick. -/
def execAliveRestart (s : State) : Host.Outcome State Fault Refusal :=
  .next (
    if !s.atTick || s.aliveStop || (s.flag F.FCS_STAT_ALIVE_A && s.flag F.FCS_STAT_ALIVE_B) then s
    else
      let s := (s.wr F.FCS_STAT_ALIVE_A 1).wr F.FCS_STAT_ALIVE_B 1
      (s.aliveEdge true true).aliveEdge false true)

end Sys2Proof.Machine
end

