-- ==== Sys2Proof/Machine/Tele.lean ====
section
/-! DEFINITION. Telemetry blocks, snapshots, ledger reads and identification results (R117, R118, R140, R141, R143, R207,
R208). -/

namespace Sys2Proof.Machine

/-! ### Signals (R140) -/

/-- The coil of an axis whose currents were transformed last. -/
def lastCoil (s : State) (n : Axis) : Coil :=
  if (s.coil (coilA n)).doneAt ≤ (s.coil (coilB n)).doneAt then coilB n else coilA n

/-- Axis signal i of R140 as an integer in its unit; parts of a unit are cut off (log entry 60). -/
def axisSignal (s : State) (n : Axis) (i : Nat) : Int :=
  let c := s.clp n
  let x := (actX s n).floor
  match i with
  | 0 => x
  | 1 => x / 2 ^ 32
  | 2 => truncRat (actV s n)
  | 3 => c.xRef.floor
  | 4 => truncRat (c.xRef - c.xLat)
  | 5 => truncRat (s.coil (lastCoil s n)).id
  | 6 => truncRat (s.coil (lastCoil s n)).iq
  | 7 => truncRat (1000 * c.vd)
  | 8 => truncRat (1000 * c.vq)
  | 9 => s.rdS (F.LES_FORCE_FX n)
  | 10 => s.rd (F.LES_LOAD_DELTA n)
  | 11 => s.rdS (F.LES_DIFF_DIFF n)
  | 12 => truncRat (s.coil (coilA n)).mA
  | 13 => truncRat (s.coil (coilB n)).mA
  | 14 => truncRat (absRat ((s.plan n).stopRamp.xEnd - (s.plan n).stopRamp.x0))
  | _ => mplStat s n

/-- Bank signal i of R140. -/
def bankSignal (s : State) (b : Bank) (i : Nat) : Int :=
  match i with
  | 0 => truncRat ((s.rd (F.GDR_VMS_VM b) : Rat) * 90000 / 1024)
  | 1 => capWord (binSum (s.books b) s.binNs s.now s.now)
  | 2 => s.rd (F.MPL_BUDGET_BUDGET b)
  | _ => s.rdS (F.GDR_TEMP_TEMP b)

def sampleWord (v : Int) : Word := wordOf (ofSigned 32 v)

/-- The samples of a block: each named axis, then each bank that holds one (R140). -/
def samples (s : State) (axes asig bsig : Nat) : List Word :=
  let ns := axesOfMask axes
  let sig := fun (w m : Nat) => (List.range w).filter fun i => bit i m
  (ns.flatMap fun n => (sig 16 asig).map fun i => sampleWord (axisSignal s n i)) ++
  ((allBanks.filter fun b => ns.any fun n => bankOfAxis n = b).flatMap fun b =>
    (sig 4 bsig).map fun i => sampleWord (bankSignal s b i))

/-- A block's header and zeros up to its length (R117); len is in bytes. -/
def blockWords (gtc seq len stream flags : Nat) (data : List Word) : List Word :=
  let ws := leWords 2 gtc ++ [wordOf seq, wordOf (len % 65536 + 65536 * (stream % 256) + 2 ^ 24 * flags)] ++ data
  ws ++ List.replicate (len / 4 - ws.length) 0#32

/-- The length in bytes of a block of n samples: a multiple of 16. -/
def blockLen (n : Nat) : Nat := 16 * ceilDiv (16 + 4 * n) 16

def nextSeq (n : Nat) : Nat := if (n + 1) % 2 ^ 32 = 0 then 1 else (n + 1) % 2 ^ 32

/-! ### Streams (R117, R118) -/

/-- TELEMETRY_STREAM_ACTIVATION (R140): at its planned start the stream becomes ACTIVE. -/
def execTelemetryStreamActivation (i : Fin 8) (s : State) : Host.Outcome State Fault Refusal :=
  .next (
    let x := s.stream i
    if x.owner.isNone || s.flag (F.HIF_TLM_STAT_ACTIVE i) then s
    else
      let s := s.advToGtc x.startAt
      (s.wr (F.HIF_TLM_STAT_ACTIVE i) 1).setStream i { x with count := 0 })

/-- A block of stream i for its owning context k, with filler ahead of it where it would wrap (R118). The filler carries
the block's GTC and SEQ (log entry 60). It is issued, or waits. -/
def State.putBlock (s : State) (i : Fin 8) (k : Ctx) (seq : Nat) : State :=
  let x := s.stream i
  let p := s.ctxPort k
  let size := 2 ^ s.rd (F.HIF_TLM_CFG_LOG i)
  let tail := s.rd (F.HIF_TLM_TAIL_TAIL i)
  let data := samples s x.axes x.asig x.bsig
  let len := blockLen data.length
  let left := size - tail % size
  let pad := if left < len then left else 0
  let free := size - idxDiff tail (s.rd (F.HIF_TLM_HEAD_HEAD i))
  if free < pad + len || !s.canSend p then s.dropBlock i
  else
    let base := s.rd64 (Reg.HIF_TLM_BASE_LO i)
    let filler := if pad = 0 then [] else packets s p (base + tail % size) (blockWords s.now seq pad i.val 1 [])
    let block := packets s p (base + (if pad = 0 then tail % size else 0))
      (blockWords s.now seq len i.val (if x.gap then 2 else 0) data)
    let parts := filler.map (fun w : Nat × List Word => (⟨false, w.1, w.2⟩ : BlockPart)) ++
      block.mapIdx fun j w => ⟨j + 1 == block.length, w.1, w.2⟩
    (s.setStream i { x with wait := some ⟨p, pad + len, parts⟩ }).issueBlock i

/-- TELEMETRY_BLOCK (R118, R140): every DECIM half-frames, at the half-frame tick. A block still unissued is dropped. -/
def execTelemetryBlock (i : Fin 8) (s : State) : Host.Outcome State Fault Refusal :=
  .next (
    let x := s.stream i
    match x.owner with
    | none => s
    | some k =>
      if s.atHalfTick && s.flag (F.HIF_TLM_STAT_ACTIVE i) && x.decim ≤ x.count then
        let s := s.setStream i { x with count := 0, seq := nextSeq x.seq, wait := none }
        (if x.wait.isSome then s.dropBlock i else s).putBlock i k x.seq
      else s)

/-! ### Snapshots and ledger reads (R141) -/

/-- SNAPSHOT_CAPTURE (R141): at the first half-frame tick at or after the planned start. The spec gives a snapshot's block
no SEQ and no stream number: both are free (log entry 1). -/
def execSnapshotCapture (tag : Fin 1024) (s : State) : Host.Outcome State Fault Refusal :=
  .next (
    match s.opOf tag with
    | none => s
    | some o =>
      if o.op ≠ 0x19 || !s.atHalfTick || s.now < o.t1 then s
      else
        let data := samples s (o.d.u32 20) (o.d.u16 24) (o.d.u8 26)
        let ws := blockWords s.now s.drawn (blockLen data.length) (s.draw).drawn 0 data
        (s.draw.draw.writeData (s.ctxPort o.ctx) (o.d.u64 32) ws).finish tag .done o.t1 s.now 0 0)

/-- LEDGER_READ_DONE (R141): the range has been copied, 4 KiB a frame, ahead of the final record. -/
def execLedgerReadDone (tag : Fin 1024) (s : State) : Host.Outcome State Fault Refusal :=
  .next (
    match s.opOf tag with
    | none => s
    | some o =>
      if o.op ≠ 0x20 then s
      else
        let s := s.advToGtc (o.t2.getD o.t1)
        let p := s.ctxPort o.ctx
        let words := fun i : Nat =>
          (List.range (min 1024 (o.d.u32 20 / 4 - 1024 * i))).map fun j =>
            s.ledgerWord (o.d.u32 16 + 4096 * i + 4 * j)
        let s' := each (List.range (ceilDiv (o.d.u32 20) 4096))
          (fun t i => t.writeData p (o.d.u64 24 + 4096 * i) (words i)) s
        s'.finish tag .done o.t1 (o.t2.getD o.t1) 0 0)

/-! ### Identification (R207, R208) -/

/-- A result in 10 mΩ or 10 µH: to the nearest unit (log entry 61), 0xFFFF where it exceeds that. -/
def idUnit (q : Rat) : Nat := (clampInt 0 0xFFFF (roundRat q)).toNat

/-- Coil resistance in ohms: (V2 - V1) / (I/2); free where I is zero (log entry 1). -/
def idRes (s : State) (mA : Nat) (x : IdCoil) : Rat :=
  if mA = 0 then s.drawn else ((x.v2.toNat : Rat) - x.v1.toNat) * 2 / mA

/-- Coil inductance in henries of one pulse: (0.25 V_M - RES i) Δt / Δi. -/
def idInd (x : IdCoil) (res : Rat) (q : IdPulse) : Rat :=
  ((x.supply.toNat : Rat) / 4 - res * q.mean.toNat) * (4 * q.clocks.toNat : Nat) / (1000000000 * (q.rise.toNat : Rat))

/-- RES and IND of a coil as CLP_ID holds them (R207, R208). -/
def idResult (s : State) (mA : Nat) (x : IdCoil) : Nat × Nat :=
  let ps := x.pulses.filter fun q : IdPulse => q.rise ≠ 0#16
  if !x.reached || ps = [] then (0xFFFF, 0xFFFF)
  else
    let r := idRes s mA x
    let l := (ps.map (idInd x r)).foldl (· + ·) 0 / (ps.length : Rat)
    (idUnit (100 * r), idUnit (100000 * l))

/-- IDENTIFY_DONE (R143, R207, R208): the axis is de-energised; results in CLP_ID and, for coil A, in the final record. -/
def execIdentifyDone (tag : Fin 1024) (a b : IdCoil) (s : State) : Host.Outcome State Fault Refusal :=
  .next (
    match s.opOf tag with
    | none => s
    | some o =>
      if o.op ≠ 0x1B || o.d.u8 16 ≠ 2 || !o.begun then s
      else
        let n := o.d.axis
        let s := s.advToGtc (o.t2.getD o.t1)
        let mA := identifyMa s n
        let ra := idResult s mA a
        let rb := idResult s.draw mA b
        let s := if mA = 0 then s.draw.draw else s
        let s := if s.energised n then s.deenergise n else s
        let s := (s.wr (F.CLP_ID_RES (2 * n.val)) ra.1).wr (F.CLP_ID_IND (2 * n.val)) ra.2
        let s := (s.wr (F.CLP_ID_RES (2 * n.val + 1)) rb.1).wr (F.CLP_ID_IND (2 * n.val + 1)) rb.2
        s.finish tag .done o.t1 (o.t2.getD o.t1) (ra.1 + 65536 * ra.2) 0)

end Sys2Proof.Machine
end

