-- ==== Sys2Proof/Machine/Write.lean ====
section
/-! DEFINITION. A write that the host makes through a port, with what it starts, and the indirect window (R63 to R82, R91 to
R93, R98 to R101, R106, R116, R119, R123, R222, R223, R310, R340, R349, R364, R375, R379, R397, R401, R406, R429, R437, R445,
R451). -/

namespace Sys2Proof.Machine

/-! ### What the bits of a write start -/

/-- Bit i is written as 1, with its byte enabled. -/
def sets (m i : Nat) (w : Word) : Bool := bit i m && bit i w.toNat

/-- LCS_UPD_CTRL (R81, R82): GO waits for the frame boundary; DISCARD acts at once. -/
def updGo (s : State) (m : Nat) (w : Word) : State :=
  let s := if sets m 0 w then (s.post .strobe).wr F.LCS_UPD_STAT_BUSY 1 else s
  if sets m 1 w then (s.discard (updMask s)).wr F.LCS_UPD_CTRL_DISCARD 0 else s

/-- LCS_LOCK_CTRL (R91 to R93): LOCK and UNLOCK set together are both refused. -/
def lockGo (s : State) (m : Nat) (w : Word) : State :=
  if sets m 0 w && sets m 1 w then
    let s := s.lockRefuse 3
    let s := if s.has .lockUp || s.lcs.freeze.isSome then s else s.wr F.LCS_LOCK_CTRL_LOCK 0
    if s.has .unlock then s else s.wr F.LCS_LOCK_CTRL_UNLOCK 0
  else
    let s := if sets m 0 w && s.lcs.freeze.isNone then s.post .lockUp else s
    if sets m 1 w then s.post .unlock else s

/-- HIF_MGMT (R101): HANDOVER from the owner, CLAIM from the other port. -/
def mgmtGo (s : State) (p : Port) (m : Nat) (w : Word) : State :=
  let s := if sets m 1 w then s.post .handover else s
  if sets m 2 w then s.post (.claim p) else s

/-- The bits of HIF_MGMT that a port may write (R101). -/
def mgmtMask (s : State) (p : Port) (m : Nat) : Nat :=
  Nat.land m (if portOf (s.rd F.HIF_MGMT_OWNER) = p then 0xFFFFFFFB else 0xFFFFFFFD)

/-- LCS_DBG_CTRL (R429, R431). -/
def dbgGo (s : State) (m : Nat) (w : Word) : State :=
  let s := if sets m 0 w then s.post .halt else s
  if sets m 1 w then s.post .resume else s

/-- CKG_CTRL (R375, R379). -/
def ckgGo (s : State) (m : Nat) (w : Word) : State :=
  let s := if sets m 0 w then s.xoRestart else s
  if sets m 1 w then s.post .clkReturn else s

/-- PMU_CTRL (R397, R401, R405): RESUME is a wake event and stays set until IDLE is reached; outside every Fallow state that
is so at once. -/
def pmuGo (s : State) (m : Nat) (w : Word) : State :=
  let s := if sets m 0 w then s.post .fallowEnter else s
  if !sets m 1 w then s
  else if s.rd F.PMU_STAT_STATE < 2 && s.pmu.entering.isNone && !s.pmu.resuming then s.wr F.PMU_CTRL_RESUME 0
  else s.wakeEvent 3

/-- FCS_CLR (R349, R372): the source in SRC, or ALL, at the next frame tick. -/
def clrGo (s : State) (m : Nat) (w : Word) : State :=
  if sets m 16 w then s.post (if s.flag F.FCS_CLR_ALL then .clearAll else .clearSrc (s.rd F.FCS_CLR_SRC)) else s

/-- TBS_PTM_CTRL.EN (R41, R42, R44): dialogues start anew, or LOCK clears. The spec gives one dialogue every INTERVAL ms; the
first falls INTERVAL ms after the write (DESIGN CHOICE, log entry 103). -/
def ptmGo (s0 s : State) : State :=
  let was := s0.flag F.TBS_PTM_CTRL_EN
  let is := s.flag F.TBS_PTM_CTRL_EN
  if !was && is then
    { s with tbs := { s.tbs with ptmAt := s.clk, ptmFirst := true, ptmBusy := false, ptmGood := 0, ptmBad := 0,
                                 slew := false } }
  else if was && !is then State.ptmLose { s with tbs := { s.tbs with ptmBusy := false, slew := false } }
  else s

/-- HIF_WDOG (R123): a KICK, or a write of TIMEOUT, starts the timing again. -/
def wdogGo (s : State) (p : Port) (m : Nat) (w : Word) : State :=
  if sets m 31 w || Nat.land m 0xFFFF ≠ 0 then
    s.setPort p { s.port p with dogRun := s.rd (onPort p F.HIF_WDOG_TIMEOUT) ≠ 0, dogAt := s.clk }
  else s

/-- FCS_SS1_DEM (R364): SS1 of each axis whose bit is written as 1, and source 11 once for the write. A bit that hardware
clears in the same clock is not written (R71, R372). -/
def ss1Go (s : State) (m : Nat) (w : Word) : State :=
  let new := Nat.land (Nat.land m w.toNat) (Nat.xor 0xFFFFFFFF s.inClk.dem)
  if new = 0 then s
  else
    let s := s.wr F.FCS_SS1_DEM_AXES (Nat.lor (s.rd F.FCS_SS1_DEM_AXES) new)
    (each (axesOfMask new) (fun s n => s.markSs1 n .ss1Host) s).trip 11

/-- PWM_FORCE (R223): taken under the conditions of R222, else refused with FREJ; ignored in debug halt (R225). -/
def forceWrite (s : State) (r : Row) (h : HalfBridge) (off m be : Nat) (w : Word) : State :=
  let b := bankOfHb h
  if s.halted then s
  else if olPermit s (axisOfHb h) then
    (s.typeWrite r off off m be w).setHb h { s.hb h with bothSeen := false }
  else (s.sqc (F.PWM_STAT_FREJ b)).wr (F.PWM_STAT_LAST_H b) h.val

/-- ADC_OWT.GO (R310). -/
def owtGo (s : State) (b : Bank) (m : Nat) (w : Word) : State :=
  if sets m 0 w && (s.adc b).owt.isNone then s.post (.owt b) else s

/-! ### Telemetry registers (R119) -/

/-- The port that owns a stream, if it has an owner. -/
def streamPort (s : State) (i : Fin 8) : Option Port := (s.stream i).owner.map s.ctxPort

def tlmWrite (s : State) (p : Port) (r : Row) (i : Fin 8) (off m be : Nat) (w : Word) : State :=
  let foreign := match streamPort s i with | some q => decide (q ≠ p) | none => false
  let fixed := s.flag (F.HIF_TLM_STAT_ACTIVE i) &&
    (off = Reg.HIF_TLM_BASE_LO i || off = Reg.HIF_TLM_BASE_HI i || off = Reg.HIF_TLM_CFG i)
  let head := (mergeMask m (s.reg off) w).toNat
  let ahead := off = Reg.HIF_TLM_HEAD i &&
    2 ^ s.rd (F.HIF_TLM_CFG_LOG i) < idxDiff (s.rd (F.HIF_TLM_TAIL_TAIL i)) head
  if foreign || fixed || ahead then s else s.pairWrite true r off off m be w

/-! ### A write to the register space -/

/-- What a write to a register of plain type starts, once the register has taken it: s0 is the state before. -/
def writeStarts (s0 s : State) (p : Port) (off m : Nat) (w : Word) : State :=
  if off = Reg.LCS_UPD_CTRL then updGo s m w
  else if off = Reg.LCS_LOCK_CTRL then lockGo s m w
  else if off = Reg.HIF_MGMT then mgmtGo s p m w
  else if off = Reg.LCS_DBG_CTRL then dbgGo s m w
  else if off = Reg.CKG_CTRL then ckgGo s m w
  else if off = Reg.PMU_CTRL then pmuGo s m w
  else if off = Reg.FCS_CLR then clrGo s m w
  else if off = Reg.TBS_PTM_CTRL then ptmGo s0 s
  else if off = Reg.HIF_WDOG then wdogGo s p m w
  else if off = Reg.CND_CTRL then (if sets m 0 w then s.rebase else s)
  else if off = Reg.CND_APPROVE then (if sets m 5 w then s.approve else s)
  else if off = Reg.CND_DXC_CTRL then (if sets m 0 w then s.dexGo else s)
  else if 0x10000 ≤ off && off < 0x18000 && off % 0x2000 = 0xC8 then
    owtGo s ⟨(off - 0x10000) / 0x2000 % 4, by omega⟩ m w
  else s

/-- A write to a register whose domain is on and which the port may write. -/
def plainWrite (s : State) (p : Port) (r : Row) (i off be : Nat) (w : Word) : State :=
  let m := beMask be
  let o := keptAt r p off
  if off = Reg.TBS_GTC_RATE && s.flag F.TBS_PTM_CTRL_EN then s
  else if (off = Reg.LCS_LOCK_MASK_LO || off = Reg.LCS_LOCK_MASK_HI) && s.flag F.LCS_LOCK_STAT_LOCKED then s
  else if off = Reg.FCS_SS1_DEM then ss1Go s m w
  else if off = Reg.LCS_RST_CTRL then
    (if Nat.land m 0xFFFF = 0xFFFF && w.toNat % 65536 = 0xC1A5 then s.cmdReset else s)
  else if 0x3000 ≤ off && off < 0x3100 then tlmWrite s p r ⟨(off - 0x3000) / 0x20 % 8, by omega⟩ off m be w
  else if r.base = Reg.PWM_FORCE 0 then forceWrite s r ⟨i % 128, by omega⟩ off m be w
  else
    let m := if off = Reg.HIF_MGMT then mgmtMask s p m else m
    writeStarts s (s.pairWrite true r o off m be w) p off m w

/-- A write to the register space through port p, directly or through its window (R68, R70). The window's own registers
are not written here. -/
def spaceWrite (s : State) (p : Port) (off be : Nat) (w : Word) : State :=
  match rowOf off with
  | none => s
  | some (r, i) =>
    if r.mgmt && portOf (s.rd F.HIF_MGMT_OWNER) ≠ p then s.accFault p F.HIF_ACC_STAT_MGMT off
    else if regOn s r i p then plainWrite s p r i off be w
    else if r.rwb ≠ 0 then s.pairWrite false r off off (beMask be) be w
    else s.accFault p F.HIF_ACC_STAT_OFF off

/-! ### The indirect window (R78, R79) -/

def indAddr (s : State) (p : Port) : Nat := (s.reg (portOff p Reg.HIF_IND_ADDR)).toNat / 4 * 4

/-- A fetch starts from the address in ADDR. -/
def State.indFetch (s : State) (p : Port) : State :=
  (s.wr (onPort p F.HIF_IND_STAT_READY) 0).setPort p { s.port p with fetching := true, doneAt := none }

/-- The window is written in the present clock: a fetch does not complete in it (R79). -/
def State.indTouch (s : State) (p : Port) : State := s.setPort p { s.port p with winAt := s.clk }

/-- A write of HIF_IND_ADDR. -/
def indAddrWrite (s : State) (p : Port) (m : Nat) (w : Word) : State :=
  let o := portOff p Reg.HIF_IND_ADDR
  ((s.setReg o (mergeMask (Nat.land m 0xFFFFFFFC) (s.reg o) w)).indFetch p).indTouch p

/-- INC: ADDR advances and the next fetch starts. -/
def State.indNext (s : State) (p : Port) : State :=
  if s.flag (onPort p F.HIF_IND_CTRL_INC) then
    (s.setReg (portOff p Reg.HIF_IND_ADDR) (wordOf (indAddr s p + 4))).indFetch p
  else s

/-- A store to ADDR, as a direct write of this port; the window's own DATA register takes none. -/
def indStore (s : State) (p : Port) (be : Nat) (w : Word) : State :=
  let a := indAddr s p
  if a < 0x40000 then
    if a = Reg.HIF_IND_ADDR then indAddrWrite s p (beMask be) w
    else if a = Reg.HIF_IND_DATA then s
    else spaceWrite s p a be w
  else
    match memRead s a with
    | some (d, _) => if s.powered d then s else s.accFault p F.HIF_ACC_STAT_OFF a
    | none => s.accFault p F.HIF_ACC_STAT_RANGE a

/-- A write of HIF_IND_DATA. In the clock in which a fetch completes it abandons that fetch (R79); with INC clear the fetch
of the same address starts again (DESIGN CHOICE, log entry 97). -/
def indDataWrite (s : State) (p : Port) (be : Nat) (w : Word) : State :=
  let s := indStore s p be w
  let s := if (s.port p).doneAt = some s.clk then s.indFetch p else s
  (s.indTouch p).indNext p

/-- The fetch completes: the word is held and READY sets. -/
def State.indDone (s : State) (p : Port) : State :=
  let x := indRead s p (indAddr s p)
  let s := x.1.setReg (portOff p Reg.HIF_IND_DATA) x.2
  (s.wr (onPort p F.HIF_IND_STAT_READY) 1).setPort p { s.port p with fetching := false, doneAt := some s.clk }

/-- A read of HIF_IND_DATA: it stalls until the fetch completes. -/
def indDataRead (s : State) (p : Port) : State :=
  let s := if (s.port p).fetching then (s.advTo ((s.port p).winAt + 1)).indDone p else s
  (s.emit (.value p (s.reg (portOff p Reg.HIF_IND_DATA)))).indNext p

/-! ### Context pages and the MSI-X table (R98, R99, R106, R116) -/

/-- A write of a consumer index; one past TAIL, or too far behind it, is ignored (R106). -/
def headWrite (s : State) (k : Ctx) (event : Bool) (m : Nat) (w : Word) : State :=
  let f := if event then F.HIF_CTX_EQ_HEAD_HEAD k else F.HIF_CTX_CQ_HEAD_HEAD k
  let tail := s.rd (if event then F.HIF_CTX_EQ_TAIL_TAIL k else F.HIF_CTX_CQ_TAIL_TAIL k)
  let size := if event then eqSize s k else cqSize s k
  let v := (mergeMask m (s.reg f.off) w).toNat
  if size < idxDiff tail v then s.sqc (F.HIF_CTX_STAT_HEAD_ERR k)
  else
    let s := s.wr f v
    if event then s.flushLost k else s

/-- A write to a context page (R99, R401). -/
def pageWrite (s : State) (p : Port) (k : Ctx) (off be : Nat) (w : Word) : State :=
  let s := s.wakeEvent 4
  if s.ctxPort k ≠ p then s.sqc (F.HIF_CTX_STAT_WRONG_PORT k)
  else if off = Reg.HIF_CTX_CQ_HEAD k then headWrite s k false (beMask be) w
  else if off = Reg.HIF_CTX_EQ_HEAD k then headWrite s k true (beMask be) w
  else
    match rowOf off with
    | some (r, _) => s.typeWrite r off off (beMask be) be w
    | none => s

/-- A write to a port's MSI-X table (R98, R116): the vector control word holds its mask bit alone. -/
def msixWrite (s : State) (p : Port) (off be : Nat) (w : Word) : State :=
  let k : Ctx := ⟨(off - 0x80000) / 16 % 64, by omega⟩
  let o := portOff p off
  let m := if off % 16 = 12 then Nat.land (beMask be) 1 else beMask be
  (s.setReg o (mergeMask m (s.reg o) w)).sendPending p k

/-- What port p has accessed in the present clock. -/
def State.acc (s : State) (p : Port) : Option Nat := match p with | .A => s.inClk.accA | .B => s.inClk.accB

def State.noteAcc (s : State) (p : Port) (off : Nat) : State :=
  match p with
  | .A => { s with inClk := { s.inClk with accA := some off } }
  | .B => { s with inClk := { s.inClk with accB := some off } }

/-- A write may land in the present clock: a port makes one access in a clock, or both halves of a pair (R64, R76), and
port A's access to a register comes before port B's of the same clock (R66). -/
def sameClock (s : State) (p : Port) (off : Nat) : Bool :=
  (match s.acc p with
   | none => true
   | some o => isPairLo o && off = o + 4) &&
  (p = .B || (s.inClk.accB ≠ some off && !(4 ≤ off && isPairLo (off - 4) && s.inClk.accB = some (off - 4))))

/-- Port p's BAR0 answers: its domain is on, its link up and its function in D0 (R95). -/
def barLive (s : State) (p : Port) : Bool := s.linkUp p && portOn s p && !(s.port p).d3

/-- A write of port p at a BAR0 offset (R63, R98). It lands a core clock after the command before it, or in the same
clock where two accesses can share one. -/
def hostWrite (p : Port) (off be : Nat) (w : Word) (same : Bool) (s : State) : State :=
  if !barLive s p then s
  else
    let off := off / 4 * 4
    let s := (if same && sameClock s p off then s else s.advTo (s.clk + 1)).noteAcc p off
    if off < 0x40000 then
      if off = Reg.HIF_IND_ADDR then indAddrWrite s p (beMask be) w
      else if off = Reg.HIF_IND_DATA then indDataWrite s p be w
      else spaceWrite s p off be w
    else
      match pageOf off with
      | some k => pageWrite s p k off be w
      | none => if 0x80000 ≤ off && off < 0x80400 then msixWrite s p off be w else s

/-- A whole word, a core clock later. -/
def hostPut (p : Port) (off : Nat) (w : Nat) (s : State) : State := hostWrite p off 15 (wordOf w) false s

/-! ### The commands -/

/-- REGISTER_WRITE (R63 to R77). -/
def execRegisterWrite (p : Port) (off : BitVec 20) (be : Fin 16) (w : Word) (same : Bool) (s : State) :
    Host.Outcome State Fault Refusal := .next (hostWrite p off.toNat be.val w same s)

/-- IND_ADDR_WRITE (R78). -/
def execIndAddrWrite (p : Port) (w : Word) (s : State) : Host.Outcome State Fault Refusal :=
  .next (hostWrite p Reg.HIF_IND_ADDR 15 w false s)

/-- IND_DATA_READ (R79). -/
def execIndDataRead (p : Port) (s : State) : Host.Outcome State Fault Refusal :=
  .next (if barLive s p then indDataRead ((s.advTo (s.clk + 1)).noteAcc p Reg.HIF_IND_DATA) p else s)

/-- IND_DATA_WRITE (R79). -/
def execIndDataWrite (p : Port) (be : Fin 16) (w : Word) (s : State) : Host.Outcome State Fault Refusal :=
  .next (hostWrite p Reg.HIF_IND_DATA be.val w false s)

/-- IND_FETCH_DONE (R78, R79): at the earliest in the core clock after the latest write to the window. -/
def execIndFetchDone (p : Port) (s : State) : Host.Outcome State Fault Refusal :=
  .next (if (s.port p).fetching && portOn s p then (s.advTo ((s.port p).winAt + 1)).indDone p else s)

/-- CQ_HEAD_WRITE (R106). -/
def execCqHeadWrite (p : Port) (k : Ctx) (head : Word) (s : State) : Host.Outcome State Fault Refusal :=
  .next (hostWrite p (Reg.HIF_CTX_CQ_HEAD k) 15 head false s)

/-- EQ_HEAD_WRITE (R106). -/
def execEqHeadWrite (p : Port) (k : Ctx) (head : Word) (s : State) : Host.Outcome State Fault Refusal :=
  .next (hostWrite p (Reg.HIF_CTX_EQ_HEAD k) 15 head false s)

/-- TLM_HEAD_WRITE (R119). -/
def execTlmHeadWrite (p : Port) (i : Fin 8) (head : Word) (s : State) : Host.Outcome State Fault Refusal :=
  .next (hostWrite p (Reg.HIF_TLM_HEAD i) 15 head false s)

/-- HOST_WATCHDOG_KICK (R123). -/
def execHostWatchdogKick (p : Port) (s : State) : Host.Outcome State Fault Refusal :=
  .next (hostWrite p Reg.HIF_WDOG 8 0x80000000#32 false s)

/-- HOST_WATCHDOG_TIMEOUT_SET (R123). -/
def execHostWatchdogTimeoutSet (p : Port) (ms : BitVec 16) (s : State) : Host.Outcome State Fault Refusal :=
  .next (hostWrite p Reg.HIF_WDOG 3 (wordOf ms.toNat) false s)

/-- HANDOVER (R101). -/
def execHandover (p : Port) (s : State) : Host.Outcome State Fault Refusal := .next (hostWrite p Reg.HIF_MGMT 1 2#32 false s)

/-- CLAIM (R101). -/
def execClaim (p : Port) (s : State) : Host.Outcome State Fault Refusal := .next (hostWrite p Reg.HIF_MGMT 1 4#32 false s)

/-- XO_RESTART (R375). -/
def execXoRestart (p : Port) (s : State) : Host.Outcome State Fault Refusal := .next (hostPut p Reg.CKG_CTRL 1 s)

/-- CLOCK_RETURN (R379). -/
def execClockReturn (p : Port) (s : State) : Host.Outcome State Fault Refusal := .next (hostPut p Reg.CKG_CTRL 2 s)

/-- STROBE_REQUEST (R81, R82). -/
def execStrobeRequest (p : Port) (s : State) : Host.Outcome State Fault Refusal := .next (hostPut p Reg.LCS_UPD_CTRL 1 s)

/-- STROBE_DISCARD (R81). -/
def execStrobeDiscard (p : Port) (s : State) : Host.Outcome State Fault Refusal := .next (hostPut p Reg.LCS_UPD_CTRL 2 s)

/-- LOCK_REQUEST (R91): EXPECT_EN keeps its value. -/
def execLockRequest (p : Port) (s : State) : Host.Outcome State Fault Refusal :=
  .next (hostPut p Reg.LCS_LOCK_CTRL (1 + 4 * s.rd F.LCS_LOCK_CTRL_EXPECT_EN) s)

/-- UNLOCK_REQUEST (R93). -/
def execUnlockRequest (p : Port) (s : State) : Host.Outcome State Fault Refusal :=
  .next (hostPut p Reg.LCS_LOCK_CTRL (2 + 4 * s.rd F.LCS_LOCK_CTRL_EXPECT_EN) s)

/-- DEBUG_HALT_REQUEST (R429). -/
def execDebugHaltRequest (p : Port) (s : State) : Host.Outcome State Fault Refusal := .next (hostPut p Reg.LCS_DBG_CTRL 1 s)

/-- DEBUG_RESUME_REQUEST (R431). -/
def execDebugResumeRequest (p : Port) (s : State) : Host.Outcome State Fault Refusal :=
  .next (hostPut p Reg.LCS_DBG_CTRL 2 s)

/-- PWM_FORCE_WRITE (R223). -/
def execPwmForceWrite (p : Port) (h : HalfBridge) (w : Word) (s : State) : Host.Outcome State Fault Refusal :=
  .next (hostWrite p (Reg.PWM_FORCE h) 15 w false s)

/-- OPEN_WIRE_TEST_REQUEST (R310). -/
def execOpenWireTestRequest (p : Port) (b : Bank) (s : State) : Host.Outcome State Fault Refusal :=
  .next (hostPut p (Reg.ADC_OWT b) 1 s)

/-- COMPARE_ARM (R340): EN keeps its value. -/
def execCompareArm (p : Port) (n : Axis) (s : State) : Host.Outcome State Fault Refusal :=
  .next (hostPut p (Reg.FBK_CMP_CTRL n) (1 + 2 * s.rd (F.FBK_CMP_CTRL_EN n)) s)

/-- FALLOW_ENTER_REQUEST (R397). -/
def execFallowEnterRequest (p : Port) (s : State) : Host.Outcome State Fault Refusal := .next (hostPut p Reg.PMU_CTRL 1 s)

/-- PMU_RESUME (R401). -/
def execPmuResume (p : Port) (s : State) : Host.Outcome State Fault Refusal := .next (hostPut p Reg.PMU_CTRL 2 s)

/-- COMMAND_RESET (R406). -/
def execCommandReset (p : Port) (s : State) : Host.Outcome State Fault Refusal :=
  .next (hostPut p Reg.LCS_RST_CTRL 0xC1A5 s)

/-- FAULT_CLEAR_REQUEST (R372). -/
def execFaultClearRequest (p : Port) (src : Source) (s : State) : Host.Outcome State Fault Refusal :=
  .next (hostPut p Reg.FCS_CLR (0x10000 + src.val) s)

/-- FAULT_CLEAR_ALL_REQUEST (R372). -/
def execFaultClearAllRequest (p : Port) (s : State) : Host.Outcome State Fault Refusal :=
  .next (hostPut p Reg.FCS_CLR 0x30000 s)

/-- SS1_DEMAND (R364). -/
def execSs1Demand (p : Port) (n : Axis) (s : State) : Host.Outcome State Fault Refusal :=
  .next (hostPut p Reg.FCS_SS1_DEM (2 ^ n.val) s)

/-- CND_APPROVE (R445): the entry index and proposal number in w, GO set and DECLINE clear. -/
def execCndApprove (p : Port) (w : Word) (s : State) : Host.Outcome State Fault Refusal :=
  .next (hostWrite p Reg.CND_APPROVE 15 (w &&& 0xFFFF000F#32 ||| 0x20#32) false s)

/-- CND_DECLINE (R445): GO and DECLINE set. -/
def execCndDecline (p : Port) (w : Word) (s : State) : Host.Outcome State Fault Refusal :=
  .next (hostWrite p Reg.CND_APPROVE 15 (w &&& 0xFFFF000F#32 ||| 0x30#32) false s)

/-- REBASE (R437). -/
def execRebase (p : Port) (s : State) : Host.Outcome State Fault Refusal := .next (hostPut p Reg.CND_CTRL 1 s)

/-- DEXCY_BUILD (R451). -/
def execDexcyBuild (p : Port) (s : State) : Host.Outcome State Fault Refusal := .next (hostPut p Reg.CND_DXC_CTRL 1 s)

end Sys2Proof.Machine
end

