-- ==== Sys2Proof/Machine/Dispatch.lean ====
section
/-! DEFINITION. The meaning of every command: one arm per constructor of Instr, each one call of its meaning. -/

namespace Sys2Proof.Machine

/-- The effect of a command on everything but the queue. -/
def exec (i : Instr) (s : State) : Host.Outcome State Fault Refusal :=
  match i with
  | .frameTick raws offs missed => Sys2Proof.Machine.execFrameTick raws offs missed s
  | .halfFrameTick missed => Sys2Proof.Machine.execHalfFrameTick missed s
  | .doorbellPageReturn p page => Sys2Proof.Machine.execDoorbellPageReturn p page s
  | .doorbellReadLate p => Sys2Proof.Machine.execDoorbellReadLate p s
  | .phaseStall k => Sys2Proof.Machine.execPhaseStall k s
  | .admissionCutoff => Sys2Proof.Machine.execAdmissionCutoff s
  | .badOpcode k op d => Sys2Proof.Machine.execBadOpcode k op d s
  | .nop k d => Sys2Proof.Machine.execNop k d s
  | .moveAbs k d => Sys2Proof.Machine.execMoveAbs k d s
  | .moveRel k d => Sys2Proof.Machine.execMoveRel k d s
  | .jog k d => Sys2Proof.Machine.execJog k d s
  | .stop k d => Sys2Proof.Machine.execStop k d s
  | .hold k d => Sys2Proof.Machine.execHold k d s
  | .release k d => Sys2Proof.Machine.execRelease k d s
  | .followStep k d => Sys2Proof.Machine.execFollowStep k d s
  | .home k d => Sys2Proof.Machine.execHome k d s
  | .barrier k d => Sys2Proof.Machine.execBarrier k d s
  | .wait k d => Sys2Proof.Machine.execWait k d s
  | .configAxis k d => Sys2Proof.Machine.execConfigAxis k d s
  | .configBank k d => Sys2Proof.Machine.execConfigBank k d s
  | .budget k d => Sys2Proof.Machine.execBudget k d s
  | .quota k d => Sys2Proof.Machine.execQuota k d s
  | .telemetryStart k d => Sys2Proof.Machine.execTelemetryStart k d s
  | .telemetryStop k d => Sys2Proof.Machine.execTelemetryStop k d s
  | .snapshot k d => Sys2Proof.Machine.execSnapshot k d s
  | .convert k d => Sys2Proof.Machine.execConvert k d s
  | .calibrateSlice k d => Sys2Proof.Machine.execCalibrateSlice k d s
  | .calibrateFull k d => Sys2Proof.Machine.execCalibrateFull k d s
  | .calibrateIdentify k d => Sys2Proof.Machine.execCalibrateIdentify k d s
  | .ledgerRead k d => Sys2Proof.Machine.execLedgerRead k d s
  | .fwStage k d => Sys2Proof.Machine.execFwStage k d s
  | .fwSwap k d => Sys2Proof.Machine.execFwSwap k d s
  | .lcTransit k d => Sys2Proof.Machine.execLcTransit k d s
  | .segmentStart tag => Sys2Proof.Machine.execSegmentStart tag s
  | .segmentEnd tag => Sys2Proof.Machine.execSegmentEnd tag s
  | .homeIndexFound n => Sys2Proof.Machine.execHomeIndexFound n s
  | .homeHardStopFound n => Sys2Proof.Machine.execHomeHardStopFound n s
  | .stopEffect tag => Sys2Proof.Machine.execStopEffect tag s
  | .brakingStandstill n => Sys2Proof.Machine.execBrakingStandstill n s
  | .reversalBrakeStandstill n => Sys2Proof.Machine.execReversalBrakeStandstill n s
  | .reversalEnd n => Sys2Proof.Machine.execReversalEnd n s
  | .configApply tag => Sys2Proof.Machine.execConfigApply tag s
  | .budgetApply b => Sys2Proof.Machine.execBudgetApply b s
  | .quotaApply k => Sys2Proof.Machine.execQuotaApply k s
  | .telemetryBlock j => Sys2Proof.Machine.execTelemetryBlock j s
  | .snapshotCapture tag => Sys2Proof.Machine.execSnapshotCapture tag s
  | .ledgerReadDone tag => Sys2Proof.Machine.execLedgerReadDone tag s
  | .fwStageDone tag header digest => Sys2Proof.Machine.execFwStageDone tag header digest s
  | .lcTokenCheck tag token => Sys2Proof.Machine.execLcTokenCheck tag token s
  | .lifecycleTransition => Sys2Proof.Machine.execLifecycleTransition s
  | .syncSample b j r1 r2 => Sys2Proof.Machine.execSyncSample b j r1 r2 s
  | .coilStep p => Sys2Proof.Machine.execCoilStep p s
  | .carrierReload p m1 m2 => Sys2Proof.Machine.execCarrierReload p m1 m2 s
  | .latchPoint => Sys2Proof.Machine.execLatchPoint s
  | .compareOutputPulse n => Sys2Proof.Machine.execCompareOutputPulse n s
  | .serialWordStart n dataHigh => Sys2Proof.Machine.execSerialWordStart n dataHigh s
  | .serialWordDone n w => Sys2Proof.Machine.execSerialWordDone n w s
  | .serialTimeout n echo => Sys2Proof.Machine.execSerialTimeout n echo s
  | .encoderLost n => Sys2Proof.Machine.execEncoderLost n s
  | .quadEdge n up illegal => Sys2Proof.Machine.execQuadEdge n up illegal s
  | .indexEvent n => Sys2Proof.Machine.execIndexEvent n s
  | .indexCorrection n => Sys2Proof.Machine.execIndexCorrection n s
  | .stepEdge n dirHigh held enableHigh => Sys2Proof.Machine.execStepEdge n dirHigh held enableHigh s
  | .coilOvercurrentTrip p => Sys2Proof.Machine.execCoilOvercurrentTrip p s
  | .switchSaturationTrip h => Sys2Proof.Machine.execSwitchSaturationTrip h s
  | .didtTrip p => Sys2Proof.Machine.execDidtTrip p s
  | .bootstrapUvTrip h => Sys2Proof.Machine.execBootstrapUvTrip h s
  | .tripInput b second => Sys2Proof.Machine.execTripInput b second s
  | .tripRelease h => Sys2Proof.Machine.execTripRelease h s
  | .softTurnoffStep2 h => Sys2Proof.Machine.execSoftTurnoffStep2 h s
  | .gatePathFault h => Sys2Proof.Machine.execGatePathFault h s
  | .interlockActed h => Sys2Proof.Machine.execInterlockActed h s
  | .vgUndervoltage b => Sys2Proof.Machine.execVgUndervoltage b s
  | .vgRecovered b => Sys2Proof.Machine.execVgRecovered b s
  | .pwmEdgesLost b => Sys2Proof.Machine.execPwmEdgesLost b s
  | .motorSupplySample b code => Sys2Proof.Machine.execMotorSupplySample b code s
  | .brakeOnTimeExceeded b => Sys2Proof.Machine.execBrakeOnTimeExceeded b s
  | .ntcSample b uV => Sys2Proof.Machine.execNtcSample b uV s
  | .stoDemand e => Sys2Proof.Machine.execStoDemand e s
  | .stoPermitReturn => Sys2Proof.Machine.execStoPermitReturn s
  | .stoDiscrepancy second => Sys2Proof.Machine.execStoDiscrepancy second s
  | .faultTrip src object => Sys2Proof.Machine.execFaultTrip src object s
  | .ss1Demand p n => Sys2Proof.Machine.execSs1Demand p n s
  | .ss1BrakingStart n => Sys2Proof.Machine.execSs1BrakingStart n s
  | .ss1Standstill n => Sys2Proof.Machine.execSs1Standstill n s
  | .ss1Timeout n => Sys2Proof.Machine.execSs1Timeout n s
  | .faultClearRequest p src => Sys2Proof.Machine.execFaultClearRequest p src s
  | .faultClearAllRequest p => Sys2Proof.Machine.execFaultClearAllRequest p s
  | .faultClear => Sys2Proof.Machine.execFaultClear s
  | .lockstepMismatch => Sys2Proof.Machine.execLockstepMismatch s
  | .frameTickMissing => Sys2Proof.Machine.execFrameTickMissing s
  | .aliveAEdge => Sys2Proof.Machine.execAliveAEdge s
  | .aliveBEdge => Sys2Proof.Machine.execAliveBEdge s
  | .aliveWatchdogExpiry => Sys2Proof.Machine.execAliveWatchdogExpiry s
  | .aliveRestart => Sys2Proof.Machine.execAliveRestart s
  | .linkTrained p x => Sys2Proof.Machine.execLinkTrained p x s
  | .linkDown p lost => Sys2Proof.Machine.execLinkDown p lost s
  | .functionLevelReset p => Sys2Proof.Machine.execFunctionLevelReset p s
  | .hotReset p lost => Sys2Proof.Machine.execHotReset p lost s
  | .linkDisable p lost => Sys2Proof.Machine.execLinkDisable p lost s
  | .perstAssert p lost => Sys2Proof.Machine.execPerstAssert p lost s
  | .busMasterEnable x => Sys2Proof.Machine.execBusMasterEnable x s
  | .handover p => Sys2Proof.Machine.execHandover p s
  | .claim p => Sys2Proof.Machine.execClaim p s
  | .ownershipChange => Sys2Proof.Machine.execOwnershipChange s
  | .cqHeadWrite p k head => Sys2Proof.Machine.execCqHeadWrite p k head s
  | .eqHeadWrite p k head => Sys2Proof.Machine.execEqHeadWrite p k head s
  | .tlmHeadWrite p j head => Sys2Proof.Machine.execTlmHeadWrite p j head s
  | .eventsLost k => Sys2Proof.Machine.execEventsLost k s
  | .msixModerationTimeout k => Sys2Proof.Machine.execMsixModerationTimeout k s
  | .msixVectorUnmask p vec => Sys2Proof.Machine.execMsixVectorUnmask p vec s
  | .hostWatchdogKick p => Sys2Proof.Machine.execHostWatchdogKick p s
  | .hostWatchdogTimeoutSet p ms => Sys2Proof.Machine.execHostWatchdogTimeoutSet p ms s
  | .hostWatchdogExpiry p => Sys2Proof.Machine.execHostWatchdogExpiry p s
  | .indAddrWrite p w => Sys2Proof.Machine.execIndAddrWrite p w s
  | .indDataRead p => Sys2Proof.Machine.execIndDataRead p s
  | .indDataWrite p be w => Sys2Proof.Machine.execIndDataWrite p be w s
  | .indFetchDone p => Sys2Proof.Machine.execIndFetchDone p s
  | .registerWrite p off be w same => Sys2Proof.Machine.execRegisterWrite p off be w same s
  | .strobeRequest p => Sys2Proof.Machine.execStrobeRequest p s
  | .strobeDiscard p => Sys2Proof.Machine.execStrobeDiscard p s
  | .strobeApply => Sys2Proof.Machine.execStrobeApply s
  | .lockRequest p => Sys2Proof.Machine.execLockRequest p s
  | .unlockRequest p => Sys2Proof.Machine.execUnlockRequest p s
  | .lockUp => Sys2Proof.Machine.execLockUp s
  | .lockUpComplete => Sys2Proof.Machine.execLockUpComplete s
  | .unlock => Sys2Proof.Machine.execUnlock s
  | .configCheckPass => Sys2Proof.Machine.execConfigCheckPass s
  | .pwmForceWrite p h w => Sys2Proof.Machine.execPwmForceWrite p h w s
  | .openWireTestRequest p b => Sys2Proof.Machine.execOpenWireTestRequest p b s
  | .openWireTestStart b => Sys2Proof.Machine.execOpenWireTestStart b s
  | .openWireTestDone b above => Sys2Proof.Machine.execOpenWireTestDone b above s
  | .compareArm p n => Sys2Proof.Machine.execCompareArm p n s
  | .injectedWindowOpen tag => Sys2Proof.Machine.execInjectedWindowOpen tag s
  | .injectedResultReady tag r => Sys2Proof.Machine.execInjectedResultReady tag r s
  | .injectedDrop tag => Sys2Proof.Machine.execInjectedDrop tag s
  | .sliceCalibrationDone b x => Sys2Proof.Machine.execSliceCalibrationDone b x s
  | .sliceRotation b => Sys2Proof.Machine.execSliceRotation b s
  | .fullCalibrationDone cals offs => Sys2Proof.Machine.execFullCalibrationDone cals offs s
  | .identifyDone tag a b => Sys2Proof.Machine.execIdentifyDone tag a b s
  | .ptmDialogueStart => Sys2Proof.Machine.execPtmDialogueStart s
  | .ptmDialogueDone r => Sys2Proof.Machine.execPtmDialogueDone r s
  | .ptmDialogueFailed => Sys2Proof.Machine.execPtmDialogueFailed s
  | .gtcStep => Sys2Proof.Machine.execGtcStep s
  | .syncInEdge late => Sys2Proof.Machine.execSyncInEdge late s
  | .syncLost => Sys2Proof.Machine.execSyncLost s
  | .clockStopDetected src => Sys2Proof.Machine.execClockStopDetected src s
  | .clockMonitorWindow src ppm amp => Sys2Proof.Machine.execClockMonitorWindow src ppm amp s
  | .clockSwitchForced => Sys2Proof.Machine.execClockSwitchForced s
  | .pllLocked => Sys2Proof.Machine.execPllLocked s
  | .pllLockLost => Sys2Proof.Machine.execPllLockLost s
  | .pllLockRetry => Sys2Proof.Machine.execPllLockRetry s
  | .holdoverExpiry => Sys2Proof.Machine.execHoldoverExpiry s
  | .heldExit => Sys2Proof.Machine.execHeldExit s
  | .xoRestart p => Sys2Proof.Machine.execXoRestart p s
  | .xoStartTimeout => Sys2Proof.Machine.execXoStartTimeout s
  | .clockReturn p => Sys2Proof.Machine.execClockReturn p s
  | .prefReturn => Sys2Proof.Machine.execPrefReturn s
  | .supplyOutOfWindow rail => Sys2Proof.Machine.execSupplyOutOfWindow rail s
  | .railsInWindow => Sys2Proof.Machine.execRailsInWindow s
  | .pwrenTimeout => Sys2Proof.Machine.execPwrenTimeout s
  | .pwrenRetry => Sys2Proof.Machine.execPwrenRetry s
  | .domainPowerGoodLost dom => Sys2Proof.Machine.execDomainPowerGoodLost dom s
  | .domainRequestApply => Sys2Proof.Machine.execDomainRequestApply s
  | .domainPowered dom cals offs items => Sys2Proof.Machine.execDomainPowered dom cals offs items s
  | .fallowEnterRequest p => Sys2Proof.Machine.execFallowEnterRequest p s
  | .fallowDwellElapsed => Sys2Proof.Machine.execFallowDwellElapsed s
  | .fallowEntry => Sys2Proof.Machine.execFallowEntry s
  | .wakePin => Sys2Proof.Machine.execWakePin s
  | .timedWake => Sys2Proof.Machine.execTimedWake s
  | .pmuResume p => Sys2Proof.Machine.execPmuResume p s
  | .fallowResume => Sys2Proof.Machine.execFallowResume s
  | .fallowResumeDone => Sys2Proof.Machine.execFallowResumeDone s
  | .powerOnReset => Sys2Proof.Machine.execPowerOnReset s
  | .pinReset => Sys2Proof.Machine.execPinReset s
  | .commandReset p => Sys2Proof.Machine.execCommandReset p s
  | .commandResetExecute => Sys2Proof.Machine.execCommandResetExecute s
  | .firmwareVerification active staged => Sys2Proof.Machine.execFirmwareVerification active staged s
  | .selfTestDone t => Sys2Proof.Machine.execSelfTestDone t s
  | .bootReady => Sys2Proof.Machine.execBootReady s
  | .spareLoadDone good => Sys2Proof.Machine.execSpareLoadDone good s
  | .plannerCoreSwap => Sys2Proof.Machine.execPlannerCoreSwap s
  | .plannerCoreFailure q memory => Sys2Proof.Machine.execPlannerCoreFailure q memory s
  | .plannerCoreReplace => Sys2Proof.Machine.execPlannerCoreReplace s
  | .firmwareCommit => Sys2Proof.Machine.execFirmwareCommit s
  | .debugHaltRequest p => Sys2Proof.Machine.execDebugHaltRequest p s
  | .debugHalt => Sys2Proof.Machine.execDebugHalt s
  | .debugResumeRequest p => Sys2Proof.Machine.execDebugResumeRequest p s
  | .debugResume => Sys2Proof.Machine.execDebugResume s
  | .cndEvaluation ring => Sys2Proof.Machine.execCndEvaluation ring s
  | .cndReplanApply => Sys2Proof.Machine.execCndReplanApply s
  | .cndApprove p w => Sys2Proof.Machine.execCndApprove p w s
  | .cndDecline p w => Sys2Proof.Machine.execCndDecline p w s
  | .cndLoosenApply => Sys2Proof.Machine.execCndLoosenApply s
  | .proposalExpiry => Sys2Proof.Machine.execProposalExpiry s
  | .rebase p => Sys2Proof.Machine.execRebase p s
  | .baselineComplete => Sys2Proof.Machine.execBaselineComplete s
  | .counterSnapshot => Sys2Proof.Machine.execCounterSnapshot s
  | .ledgerSlotWrite fails => Sys2Proof.Machine.execLedgerSlotWrite fails s
  | .dexcyBuild p => Sys2Proof.Machine.execDexcyBuild p s
  | .dexcyBuildDone => Sys2Proof.Machine.execDexcyBuildDone s
  | .resetPinRelease => Sys2Proof.Machine.execResetPinRelease s
  | .pwrenAssert => Sys2Proof.Machine.execPwrenAssert s
  | .powerLoss => Sys2Proof.Machine.execPowerLoss s
  | .supplyBackInWindow rail => Sys2Proof.Machine.execSupplyBackInWindow rail s
  | .tripInputRelease b second => Sys2Proof.Machine.execTripInputRelease b second s
  | .d3hotRequest => Sys2Proof.Machine.execD3hotRequest s
  | .linkL1Entry p => Sys2Proof.Machine.execLinkL1Entry p s
  | .linkL1Exit p => Sys2Proof.Machine.execLinkL1Exit p s
  | .haltRefreshNotch h => Sys2Proof.Machine.execHaltRefreshNotch h s
  | .dieTemperatureSample banks others => Sys2Proof.Machine.execDieTemperatureSample banks others s
  | .cndTrendEntry => Sys2Proof.Machine.execCndTrendEntry s
  | .telemetryStreamActivation j => Sys2Proof.Machine.execTelemetryStreamActivation j s

end Sys2Proof.Machine
end

