-- ==== Sys2Proof/Machine/Step.lean ====
section
/-! DEFINITION. One step of the block: the command at the front of the queue, or one core clock when none waits. -/

namespace Sys2Proof.Machine

/-- The front command is taken and run on the queue's rest. On an empty queue one core clock of 4 ns passes, so the
global time count rises by its increment (R39, R52); nothing else happens (DESIGN CHOICE, log 8). -/
def step (s : State) : Host.Outcome State Fault Refusal :=
  match s.pending with
  | [] => .next (s.advTo (s.clk + 1))
  | c :: rest => exec c { s with pending := rest }

/-- The command a word spells is put at the front of the queue; the table gives its rows no bits, so no word spells one. -/
def State.withFetchWord (s : State) (nbits w : Nat) : State :=
  match decodeTableWord nbits w with
  | none => s
  | some c => { s with pending := c :: s.pending }

end Sys2Proof.Machine
end

