-- ==== Sys2Proof/Machine/Pins.lean ====
section
/-! DEFINITION. What the pins show: CLKOUT (R389) and the pin states of R404. No command reads them. -/

namespace Sys2Proof.Machine

/-- What a pin of R404 does: it is high impedance, held low by the internal resistor, driven to a level, clamped by the gate
stage itself, held off by full sink, or it follows its function. -/
inductive PinIs where
  | hiZ | pulledLow | low | high | clamped | fullSink | works
deriving DecidableEq, Repr

/-- The columns of R404 that a fitted device can be in; `on` stands for RUN and IDLE. -/
inductive PinCol where
  | unpowered | rstLow | on | fallow3 | fallow2 | fallow1 | fallow0
deriving DecidableEq, Repr

def pinCol (s : State) : PinCol :=
  if !s.pmu.vaon then .unpowered
  else if s.rd F.PMU_STAT_STATE = 5 then .fallow0
  else if s.lcs.rstLow then .rstLow
  else
    match s.rd F.PMU_STAT_STATE with
    | 2 => .fallow3
    | 3 => .fallow2
    | 4 => .fallow1
    | _ => .on

/-- HG and LG of half-bridge h, and BRKb of its bank (R260, R404). -/
def gatePin (s : State) (h : HalfBridge) : PinIs :=
  match pinCol s with
  | .unpowered | .fallow0 => .clamped
  | .on => if s.hiz h then .fullSink else .works
  | _ => .fullSink

/-- AXnn_X0 to AXnn_X2 of axis n (R318, R404). -/
def axisPins (s : State) (n : Axis) : PinIs :=
  match pinCol s with
  | .on | .fallow3 => if s.powered (8 + (bankOfAxis n).val) then .works else .hiZ
  | _ => .hiZ

/-- ALIVE_A, or ALIVE_B (R367, R404). -/
def alivePin (s : State) (a : Bool) : PinIs :=
  match pinCol s with
  | .unpowered | .fallow0 => .pulledLow
  | .rstLow | .fallow1 => .low
  | _ => if (if a then s.fcs.levelA else s.fcs.levelB) then .high else .low

/-- SYNC_OUT (R46, R404). -/
def syncOutPin (s : State) : PinIs :=
  match pinCol s with
  | .unpowered | .fallow1 | .fallow0 => .pulledLow
  | .rstLow => .low
  | _ => if syncOut s then .high else .low

/-- PWREN (R392, R404). -/
def pwrenPin (s : State) : PinIs := if s.pmu.vaon && s.pmu.pwren then .high else .low

/-- What CLKOUT carries (R389): a low level, a level that follows the frame, a source of SEL divided by DIV + 1, or the
change from one setting to another. -/
inductive ClkOut where
  | low
  | frame (high : Bool)
  | wave (khz div : Nat)
  | turning
deriving DecidableEq, Repr

/-- The nominal frequency of a source of SEL in kHz, the reference in use as it is now (R373, R384). -/
def selKhz (s : State) (sel : Nat) : Nat :=
  let ref := s.rd F.CLK_STAT_REF
  if sel = 1 then 250000 else if sel = 2 then 25000
  else if sel = 3 then (if ref = 1 then 25000 else if ref = 2 then 100000 else 16000)
  else if sel = 4 then 16000 else 0

/-- The period of a setting of SEL and DIV in core clocks. -/
def outPeriod (s : State) (x : Nat × Nat) : Rat :=
  if x.1 = 0 then 0 else if x.1 = 5 then s.period else (x.2 + 1 : Nat) * 250000 / (selKhz s x.1 : Rat)

/-- CLKOUT now. After a change the output completes its period and stays low for one of the new setting. -/
def clkoutNow (s : State) : ClkOut :=
  let new := (s.rd F.CKG_CLKOUT_SEL, s.rd F.CKG_CLKOUT_DIV)
  match pinCol s with
  | .on | .fallow3 | .fallow2 =>
    if !s.powered 2 then .low
    else if s.ckg.outOld ≠ new ∧ ((s.clk - s.ckg.outAt : Nat) : Rat) < outPeriod s s.ckg.outOld + outPeriod s new then .turning
    else if new.1 = 0 then .low
    else if new.1 = 5 then .frame (s.ticking && s.clk < s.tickClk + s.period / 2)
    else .wave (selKhz s new.1) (new.2 + 1)
  | _ => .low

end Sys2Proof.Machine
end

