-- ==== Sys2Proof/Safety.lean ====
section
/-! DEFINITION. What the claims call a well-formed state: the sparse files of words in their one canonical form, and what a
command may do to the queue, to time and to what has been sent. -/

namespace Sys2Proof.Machine

/-- A sparse file of words in canonical form: offsets strictly rising, and no entry equal to what an unlisted offset reads
as. Equal contents are then equal lists. -/
abbrev FileCanon (dflt : Nat → Word) (f : List (Nat × Word)) : Prop :=
  f.Pairwise (fun a b => a.1 < b.1) ∧ ∀ x ∈ f, x.2 ≠ dflt x.1

/-- Every addressed file of the state is canonical: the applied register words and the buffered copies (an unlisted one reads
as its reset word), the marks of unapplied writes (R81) and the ledger's region (an unlisted word of either is zero). -/
abbrev Memory.wf (s : State) : Prop :=
  FileCanon resetWord s.regs ∧ FileCanon resetWord s.bufs ∧ FileCanon (fun _ => 0#32) s.dirty ∧
  FileCanon (fun _ => 0#32) s.ledger.store

/-- What every command does to the parts of the state that no command may take back: the queue stays as the step left it,
time does not run backwards (log entry 2), what was sent stays sent, free values are drawn once, and the files stay
canonical. -/
structure Keeps (s t : State) : Prop where
  queue : t.pending = s.pending
  time : s.clk ≤ t.clk
  out : s.sent <+: t.sent
  free : s.freeCtr ≤ t.freeCtr
  wf : Memory.wf s → Memory.wf t

/-- Command c, run at s, completes: it ends in a next state, and P holds of it. -/
abbrev Gives (c : Instr) (s : State) (P : State → Prop) : Prop := ∃ t, exec c s = .next t ∧ P t

/-- Every register word but those kept at the listed places is the same in t as in s. -/
abbrev RegsBut (l : List Nat) (s t : State) : Prop := ∀ o, o ∉ l → t.reg o = s.reg o

/-- A host write of port p reaches the register at an offset (R68, R95, R101): its BAR0 answers, the register's domain is on,
and the register takes writes from this port. -/
def canWrite (s : State) (p : Port) (off : Nat) : Bool :=
  barLive s p &&
  match rowOf off with
  | some (r, i) => (!r.mgmt || portOf (s.rd F.HIF_MGMT_OWNER) = p) && regOn s r i p
  | none => false

/-- From s to t a core clock has passed and request r waits, listed last; registers but those kept at the listed places,
and every other part of the state but the notes of the clock, are as they were. -/
def Waits (r : Req) (l : List Nat) (s t : State) : Prop :=
  RegsBut l s t ∧ t = { s.advTo (s.clk + 1) with
    regs := t.regs, inClk := t.inClk, reqs := s.reqs ++ [(r, s.clk + 1)] }

/-! ### Records -/

/-- From s to t the device has written a record of context k to its slot, at the given index and address, or holds it in
the port's buffer while it cannot write (R96, R124); a written one may be followed by the context's message or its pending
bit (R115, R116). Nothing else has changed. -/
structure Placed (k : Ctx) (cls : Dma) (i addr : Nat) (ws : List Word) (s t : State) : Prop where
  written : s.canSend (s.ctxPort k) →
    t.sent = s.sent ++ [.record (s.ctxPort k) k cls i addr ws] ∨
    t.sent = s.sent ++ [.record (s.ctxPort k) k cls i addr ws, msixOut s (s.ctxPort k) k]
  keeps : s.canSend (s.ctxPort k) → t.portA = s.portA ∧ t.portB = s.portB ∧ RegsBut [(msixPend (s.ctxPort k) k).off] s t
  held : ¬ s.canSend (s.ctxPort k) → t.sent = s.sent ∧ t.ctxs = s.ctxs ∧
    t.port (s.ctxPort k) =
      { s.port (s.ctxPort k) with held := (s.port (s.ctxPort k)).held ++ [.record k cls i addr ws] } ∧
    (∀ p, p ≠ s.ctxPort k → t.port p = s.port p) ∧
    t.regs = (s.wr (F.HIF_CTX_STAT_HELD k) 1).regs
  own : t.ctx k = { s.ctx k with
    unsig := (t.ctx k).unsig, unsigAt := (t.ctx k).unsigAt, modTime := (t.ctx k).modTime }
  others : ∀ j, j ≠ k → t.ctx j = s.ctx j
  rest : t = { s with regs := t.regs, portA := t.portA, portB := t.portB, ctxs := t.ctxs, sent := t.sent }

/-- From s to t the next completion record of context k, these words with the ring's phase bit, has been placed in its
slot and CQ_TAIL has moved past it (R96, R104). -/
def Recorded (k : Ctx) (ws : List Word) (s t : State) : Prop :=
  let i := s.rd (F.HIF_CTX_CQ_TAIL_TAIL k)
  Placed k .completion i (s.rd64 (Reg.HIF_CTX_CQB_LO k) + 32 * (i % cqSize s k))
    (withPhase (phaseBit i (cqSize s k)) ws) (s.wr (F.HIF_CTX_CQ_TAIL_TAIL k) ((i + 1) % 2 ^ 32)) t

/-- From s to t the next event record of context k has been placed in its slot and EQ_TAIL has moved past it (R96). -/
def Notified (k : Ctx) (e : Event) (s t : State) : Prop :=
  let i := s.rd (F.HIF_CTX_EQ_TAIL_TAIL k)
  Placed k .event i (s.rd64 (Reg.HIF_CTX_EQB_LO k) + 32 * (i % eqSize s k))
    (withPhase (phaseBit i (eqSize s k)) (eventWords e)) (s.wr (F.HIF_CTX_EQ_TAIL_TAIL k) ((i + 1) % 2 ^ 32)) t

/-- The context is enabled, has no lost events to report first, and has room for one more event (R113, R114). -/
def CanNotify (s : State) (k : Ctx) : Prop := s.ctxOn k ∧ (s.ctx k).lost = 0 ∧ s.eventRoom k

/-- From s to t operation o has ended: its tag and its galley entries are free and its final record is placed (R111, R147,
R155); the counters of ended motions are all else that may have moved (R450). -/
def Ended (o : Op) (st : Status) (t1 t2 detail flags : Nat) (s t : State) : Prop :=
  Recorded o.ctx (cplWords (some o.tag) false true st o.op o.d.cookie t1 t2 detail o.index flags)
    { s with
      ops := s.ops.filter fun x => x.tag ≠ o.tag
      plans := s.plans.map fun a : AxisPlan => { a with galley := a.galley.filter fun g => g.tag ≠ o.tag }
      cnd := { s.cnd with counts := t.cnd.counts } } t

/-! ### Descriptors -/

/-- Descriptor d of context k is the one the device takes next, its phase bit agrees and the cut-off has not come (R54, R104,
R110, R188). -/
def Arrives (s : State) (k : Ctx) (d : Desc) : Prop :=
  s.expects k ∧ phaseBit (s.rd (F.HIF_CTX_CONS_CONS k)) (dqSize s k) = d.phase ∧ s.cutoff = false

/-- No member of a barrier group of context k waits, and no record is kept back for one (R137, R150). -/
def Alone (s : State) (k : Ctx) : Prop := (s.ctx k).members = [] ∧ (s.ctx k).kept = []

/-- The state in which a descriptor of context k that has been fetched is decided (R104, R105): CONS has moved on. -/
def taken (s : State) (k : Ctx) : State :=
  ((s.wr (F.HIF_CTX_STAT_PHASE_WAIT k) 0).wr (F.HIF_CTX_CONS_CONS k) ((s.rd (F.HIF_CTX_CONS_CONS k) + 1) % 2 ^ 32)).setCtx k
    { s.ctx k with due := (s.ctx k).due - 1, waits := 0, stalled := false }

/-- Descriptor d passes the checks before R55 and checks 1, 2, 3 and, where START counts, 4 of R55 at u, with this tag. -/
def Passes (u : State) (k : Ctx) (op : Nat) (d : Desc) (useStart : Bool) (tag : Nat) : Prop :=
  preCheck u k op d = none ∧ tagCheck u k = .ok tag ∧ galleyCheck u op d = none ∧
  (useStart → startCheck u op d (effStart u op d) = none)

/-- From u to t the descriptor at index i is refused (R53, R147) with reason r; one under R22 is a wake event (R401). -/
def Refused (k : Ctx) (op : Nat) (d : Desc) (i : Nat) (r : Refuse) (u t : State) : Prop :=
  ∃ v, Recorded k (refuseWords u op d i r) u v ∧ t = if r = (.state, 2) then v.wakeEvent 5 else v

/-- From u to t operation o is accepted: it is in flight, each of its axes takes an entry behind its galley with the book
given, and its decision record is placed (R147, R155). -/
def Accepted (o : Op) (entry : Axis → Seg) (book : Axis → List Booking) (u t : State) : Prop :=
  ∃ v, (∀ n ∈ o.axes, v.plan n = { u.plan n with galley := enqueue (u.plan n).galley (entry n), book := book n }) ∧
    (∀ n, n ∉ o.axes → v.plan n = u.plan n) ∧ v = { u with ops := u.ops ++ [o], plans := v.plans } ∧
    Recorded o.ctx (acceptWords o) v t

/-! ### Galleys -/

/-- The flags every final record of an operation carries: UNALIGNED and DEFERRED (R59, R149). -/
def opFlags (o : Op) : Nat := (if o.unaligned then 1 else 0) + (if o.deferred then 8 else 0)

/-- No STOP in effect still waits for axis n, and its bank curtails nothing (R133, R186). -/
def Calm (s : State) (n : Axis) : Prop :=
  (∀ o ∈ s.ops, o.op = 4 → o.begun → n ∉ o.left) ∧ (s.bank (bankOfAxis n)).curtailed = [] ∧
  s.flag (F.MPL_CURT_STAT_ACTIVE (bankOfAxis n)) = false

/-- From u to v the segment in progress on axis n, if there is one, has its final record as the cause says (R160). -/
def ProgEnded (n : Axis) (c : Cause) (t2 fl : Nat) (u v : State) : Prop :=
  match inProg u n with
  | none => v = u
  | some g => (∀ o, u.opOf g.tag = some o → Ended o (causeOwn c).1 g.t1 t2 (causeOwn c).2 (fl + opFlags o) u v) ∧
      (u.opOf g.tag = none → v = u)

/-- From s to t axis n has begun to brake along its Headland from its reference, for a cause that is no reversal (R160,
R174): its own booking and the counts of R242 apart, nothing else of the planner or of LES has changed. -/
structure Brakes (n : Axis) (l : Leaving) (s t : State) : Prop where
  plan : t.plan n = { s.plan n with
    st := leaveState l, follow := none, book := (t.plan n).book
    ref := headland s.now (refNow s n).1 (refNow s n).2.1 (refNow s n).2.2 (hdec s n) (hjerk s n)
    leave := some { l with begun := true, revTo := none } }
  les : t.les n = { s.les n with obsN := 0, blkN := 0 }
  others : ∀ m, m ≠ n → t.plan m = s.plan m ∧ t.les m = s.les m

/-- The Headland of axis n from its present reference has no phases: the axis stands (R174). -/
def standsNow (s : State) (n : Axis) : Bool :=
  (headland s.now (refNow s n).1 (refNow s n).2.1 (refNow s n).2.2 (hdec s n) (hjerk s n)).phases = []

/-- From u to t no more has happened than that CLP has taken the setpoints of the frame anew (R27, R198). -/
def Handed (u t : State) : Prop :=
  (∀ n, t.plan n = { u.plan n with stopRamp := (t.plan n).stopRamp }) ∧
  t = { u with
    clps := t.clps, plans := t.plans, cnd := { u.cnd with counts := t.cnd.counts, travel := t.cnd.travel } }

/-! ### Resets -/

/-- From s to t nothing volatile is left but what a reset keeps (R407, R408): the parts listed are said where a reset is
stated; every other part is as after State.reset, and the queue, the clock and what was sent stand. -/
def Wiped (s t : State) : Prop := t = { State.reset with
  pending := s.pending, sent := s.sent, clk := s.clk, freeCtr := s.freeCtr, regs := t.regs, bufs := t.bufs,
  seqDone := t.seqDone, portA := t.portA, portB := t.portB, fcs := t.fcs, ledger := t.ledger, ckg := t.ckg, pmu := t.pmu,
  lcs := t.lcs, cnd := t.cnd, gtc := t.gtc, gtcRuns := t.gtcRuns, ticking := t.ticking, tickClk := t.tickClk,
  tickGtc := t.tickGtc }

/-- At the present clock a boot begins (R23, R409, R411): D5 is powered, the time line starts with the GTC at g, a nonce is
drawn, the counters and intervals of the monitor start, and the domains of R409 are on their way; nothing else changes. -/
structure Boots (short : Bool) (g : Nat) (s t : State) : Prop where
  lcs : t.lcs = { s.lcs with
    booting := true, bootAt := s.clk, short, verified := false, tested := false, restored := false,
    nonce := Config.entropy s.lcs.draws, draws := s.lcs.draws + 1 }
  d5 : ∀ d, t.powered d = (s.powered d || decide (d = 5))
  domains : ∀ d ∈ [3, 4, 6, 8, 9, 10, 11, 12, 13, 14, 15], t.powered d ∨ ∃ c, (d, c) ∈ t.pmu.rising
  pmu : t.pmu = { s.pmu with rising := t.pmu.rising }
  cnd : t.cnd = { s.cnd with
    counts := t.cnd.counts, evalAt := s.clk, trendAt := s.clk, snapAt := s.clk, minute := s.clk }
  regs : RegsBut [Reg.PMU_DOM_STAT] s t
  rest : t = { s with
    regs := t.regs, gtc := g, gtcRuns := true, ticking := true, tickClk := s.clk, tickGtc := g, lcs := t.lcs,
    cnd := t.cnd, pmu := t.pmu }

/-! ### What a fault's reaction reaches -/

/-- The registers that reacting to a fault may write: FCS_STAT, FCS_REC_CNT and FCS_SS1_DEM (R364, R372), CND_STAT (R449),
MPL_CURT_STAT (R186), the context pages (R104, R114) and the MSI-X pending bits (R116). -/
def faultReg (o : Nat) : Bool :=
  o = Reg.FCS_STAT || o = Reg.FCS_REC_CNT || o = Reg.FCS_SS1_DEM || o = Reg.CND_STAT ||
  (0x10000 ≤ o && o < 0x18000 && o % 0x2000 = 0x18) || (0x40000 ≤ o && o < 0x80000) ||
  (0x81000 ≤ o && o < 0x81008) || (portBBase + 0x81000 ≤ o && o < portBBase + 0x81008)

/-- From s to t no more has happened than turning off or stopping axes, ending their operations and recording it (R160,
R351, R357): other registers are as they were, half-bridges at most begin a soft turn-off and take a hold, and every part of
the state not listed is untouched; so are the sources. -/
structure Reaction (s t : State) : Prop where
  rest : t = { s with
    regs := t.regs, seqDone := t.seqDone, cntNow := t.cntNow, inClk := t.inClk, portA := t.portA, portB := t.portB,
    ctxs := t.ctxs, sent := t.sent, ops := t.ops, plans := t.plans, banks := t.banks, hbs := t.hbs, clps := t.clps,
    less := t.less, ledger := t.ledger, cnd := t.cnd, fcs := { s.fcs with wins := t.fcs.wins, recs := t.fcs.recs, recN := t.fcs.recN, ss1 := t.fcs.ss1 } }
  regs : ∀ o, faultReg o = false → t.reg o = s.reg o
  hbs : ∀ h, t.hb h = { s.hb h with soft := (t.hb h).soft, react := (t.hb h).react }
  clps : ∀ n, t.clp n = { s.clp n with fresh := (t.clp n).fresh }
  clock : t.inClk = { s.inClk with dem := t.inClk.dem }

/-- Source k has tripped once between s and t (R346): its total counts it and its ACTIVE bit is act; all else that may have
changed is its own record in the sequencer and what a reaction reaches. -/
structure Tripped (k : Nat) (act : Bool) (s t : State) : Prop where
  reaction : Reaction s { t with fcs := { t.fcs with srcs := s.fcs.srcs } }
  others : ∀ j, j ≠ k → t.src j = s.src j
  total : (t.src k).total = min 255 ((s.src k).total + 1)
  active : (t.src k).active = act

end Sys2Proof.Machine
end

