-- ==== Sys2Proof/Laws/Files.lean ====
section
/-! SUPPORT. The sparse files of words: a read after a write, and the canonical form through every operation on them. -/

namespace Sys2Proof.Machine

variable {d : Nat → Word} {f g : List (Nat × Word)} {o k : Nat} {w : Word}

theorem fileDel_eq_filter (o : Nat) (f : List (Nat × Word)) : fileDel o f = f.filter fun x => x.1 ≠ o := by
  induction f with
  | nil => rfl
  | cons x t ih =>
    obtain ⟨k, v⟩ := x
    by_cases h : k = o <;> simp [fileDel, h, ih]

theorem mem_fileIns {x : Nat × Word} : x ∈ fileIns o w f ↔ x = (o, w) ∨ x ∈ f := by
  induction f with
  | nil => simp [fileIns]
  | cons y t ih =>
    obtain ⟨k, v⟩ := y
    simp only [fileIns]
    split <;> simp [ih]
    tauto

theorem fileIns_pairwise (h : f.Pairwise (fun a b => a.1 < b.1)) (hn : ∀ x ∈ f, x.1 ≠ o) :
    (fileIns o w f).Pairwise (fun a b => a.1 < b.1) := by
  induction f with
  | nil => simp [fileIns]
  | cons y t ih =>
    obtain ⟨k, v⟩ := y
    simp only [fileIns]
    rw [List.pairwise_cons] at h
    split
    · rename_i hk
      refine List.pairwise_cons.2 ⟨fun x hx => ?_, List.pairwise_cons.2 h⟩
      rcases List.mem_cons.1 hx with rfl | hx
      · exact hk
      · exact Nat.lt_trans hk (h.1 x hx)
    · rename_i hk
      refine List.pairwise_cons.2 ⟨fun x hx => ?_, ih h.2 fun x hx => hn x (List.mem_cons_of_mem _ hx)⟩
      rcases mem_fileIns.1 hx with rfl | hx
      · have : k ≠ o := hn (k, v) (List.mem_cons_self ..)
        simp only
        omega
      · exact h.1 x hx

/-- A part of a canonical file is canonical. -/
theorem FileCanon.filter (h : FileCanon d f) (p : Nat × Word → Bool) : FileCanon d (f.filter p) :=
  ⟨h.1.filter p, fun x hx => h.2 x (List.mem_of_mem_filter hx)⟩

theorem FileCanon.nil : FileCanon d [] := ⟨List.Pairwise.nil, fun _ h => nomatch h⟩

/-- A write keeps the canonical form. -/
theorem FileCanon.put (h : FileCanon d f) : FileCanon d (filePut d f o w) := by
  unfold filePut
  rw [fileDel_eq_filter]
  split
  · exact h.filter _
  · rename_i hw
    refine ⟨fileIns_pairwise (h.1.filter _) fun x hx => by simpa using (List.mem_filter.1 hx).2, fun x hx => ?_⟩
    rcases mem_fileIns.1 hx with rfl | hx
    · exact hw
    · exact h.2 x (List.mem_of_mem_filter hx)

/-- Entries changed in place, or dropped: the file stays canonical if no entry kept equals its default. -/
theorem FileCanon.filterMap {d' : Nat → Word} (h : FileCanon d f) (p : Nat × Word → Option (Nat × Word))
    (hp : ∀ x y, p x = some y → y.1 = x.1 ∧ (x.2 ≠ d x.1 → y.2 ≠ d' y.1)) : FileCanon d' (f.filterMap p) := by
  refine ⟨?_, fun y hy => ?_⟩
  · refine List.Pairwise.filterMap p (fun a b hab a' ha b' hb => ?_) h.1
    rw [(hp a a' ha).1, (hp b b' hb).1]
    exact hab
  · obtain ⟨x, hx, hxy⟩ := List.mem_filterMap.1 hy
    exact (hp x y hxy).2 (h.2 x hx)

theorem lookup_fileDel_self : (fileDel o f).lookup o = none := by
  induction f with
  | nil => rfl
  | cons x t ih =>
    obtain ⟨k, v⟩ := x
    by_cases h : k = o
    · simp [fileDel, h, ih]
    · have : (o == k) = false := by simpa using fun e => h e.symm
      simp [fileDel, h, List.lookup, this, ih]

theorem lookup_fileDel_ne (h : k ≠ o) : (fileDel o f).lookup k = f.lookup k := by
  induction f with
  | nil => rfl
  | cons x t ih =>
    obtain ⟨j, v⟩ := x
    by_cases hj : j = o
    · have hk : (k == j) = false := by simpa [hj] using h
      simp only [fileDel, if_pos hj, List.lookup, hk, ih]
    · simp only [fileDel, hj, if_false, List.lookup, ih]

theorem lookup_fileIns_self (h : f.lookup o = none) : (fileIns o w f).lookup o = some w := by
  induction f with
  | nil => simp [fileIns]
  | cons x t ih =>
    obtain ⟨j, v⟩ := x
    simp only [fileIns]
    split
    · simp [List.lookup]
    · simp only [List.lookup] at h ⊢
      split at h
      · simp at h
      · exact ih h

theorem lookup_fileIns_ne (h : k ≠ o) : (fileIns o w f).lookup k = f.lookup k := by
  have hk : (k == o) = false := by simpa using h
  induction f with
  | nil => simp [fileIns, List.lookup, hk]
  | cons x t ih =>
    obtain ⟨j, v⟩ := x
    simp only [fileIns]
    split
    · simp [List.lookup, hk]
    · simp only [List.lookup, ih]

/-- A read after a write to the same place gives the value written. -/
@[simp] theorem fileGet_put_self : fileGet d (filePut d f o w) o = w := by
  by_cases h : w = d o
  · subst h; simp only [filePut, fileGet, if_true, lookup_fileDel_self]
  · simp only [filePut, fileGet, if_neg h, lookup_fileIns_self lookup_fileDel_self]

/-- A write leaves every other place alone. -/
theorem fileGet_put_ne (h : k ≠ o) : fileGet d (filePut d f o w) k = fileGet d f k := by
  by_cases hw : w = d o
  · simp only [filePut, fileGet, if_pos hw, lookup_fileDel_ne h]
  · simp only [filePut, fileGet, if_neg hw, lookup_fileIns_ne h, lookup_fileDel_ne h]

theorem FileCanon.lookup (h : FileCanon d f) : f.lookup k = some w ↔ (k, w) ∈ f := by
  obtain ⟨h, -⟩ := h
  induction f with
  | nil => simp
  | cons x t ih =>
    obtain ⟨j, v⟩ := x
    rw [List.pairwise_cons] at h
    by_cases hj : k = j
    · subst hj
      simp only [List.lookup, beq_self_eq_true, List.mem_cons, Prod.mk.injEq, true_and, Option.some.injEq]
      constructor
      · rintro rfl; exact .inl rfl
      · rintro (rfl | hm)
        · rfl
        · exact absurd (h.1 _ hm) (Nat.lt_irrefl _)
    · have hb : (k == j) = false := by simpa using hj
      simp [List.lookup, hb, ih h.2, hj]

/-- Canonical files that read alike everywhere are the same list. -/
theorem FileCanon.ext (hf : FileCanon d f) (hg : FileCanon d g) (h : ∀ k, fileGet d f k = fileGet d g k) : f = g := by
  have key : ∀ {f g : List (Nat × Word)}, FileCanon d f → FileCanon d g → (∀ k, fileGet d f k = fileGet d g k) →
      ∀ x ∈ f, x ∈ g := by
    intro f g hf hg h x hx
    obtain ⟨k, w⟩ := x
    have h1 := hf.lookup.2 hx
    have h2 := h k
    simp only [fileGet, h1] at h2
    cases hl : g.lookup k with
    | none =>
      rw [hl] at h2
      exact absurd h2 (hf.2 _ hx)
    | some v =>
      rw [hl] at h2
      subst h2
      exact hg.lookup.1 hl
  have nd : ∀ {f : List (Nat × Word)}, FileCanon d f → f.Nodup := fun h =>
    h.1.imp fun hab e => by rw [e] at hab; exact Nat.lt_irrefl _ hab
  refine List.Perm.eq_of_pairwise (fun a b _ _ hab hba => absurd (Nat.lt_trans hab hba) (Nat.lt_irrefl _)) hf.1 hg.1 ?_
  rw [List.perm_ext_iff_of_nodup (nd hf) (nd hg)]
  exact fun x => ⟨key hf hg h x, key hg hf (fun k => (h k).symm) x⟩

end Sys2Proof.Machine
end

