-- ==== Sys2Proof/Laws/State.lean ====
section
/-! SUPPORT. What each named update of the state leaves alone, field by field, and what an element reads as after it is set.
-/

namespace Sys2Proof.Machine

variable (s : State)


@[simp] theorem State.setReg_pending (o : Nat) (w : Word) : (s.setReg o w).pending = s.pending := rfl
@[simp] theorem State.setReg_bufs (o : Nat) (w : Word) : (s.setReg o w).bufs = s.bufs := rfl
@[simp] theorem State.setReg_dirty (o : Nat) (w : Word) : (s.setReg o w).dirty = s.dirty := rfl
@[simp] theorem State.setReg_loHeld (o : Nat) (w : Word) : (s.setReg o w).loHeld = s.loHeld := rfl
@[simp] theorem State.setReg_seqDone (o : Nat) (w : Word) : (s.setReg o w).seqDone = s.seqDone := rfl
@[simp] theorem State.setReg_cntNow (o : Nat) (w : Word) : (s.setReg o w).cntNow = s.cntNow := rfl
@[simp] theorem State.setReg_inClk (o : Nat) (w : Word) : (s.setReg o w).inClk = s.inClk := rfl
@[simp] theorem State.setReg_clk (o : Nat) (w : Word) : (s.setReg o w).clk = s.clk := rfl
@[simp] theorem State.setReg_gtc (o : Nat) (w : Word) : (s.setReg o w).gtc = s.gtc := rfl
@[simp] theorem State.setReg_gtcRuns (o : Nat) (w : Word) : (s.setReg o w).gtcRuns = s.gtcRuns := rfl
@[simp] theorem State.setReg_ticking (o : Nat) (w : Word) : (s.setReg o w).ticking = s.ticking := rfl
@[simp] theorem State.setReg_tickClk (o : Nat) (w : Word) : (s.setReg o w).tickClk = s.tickClk := rfl
@[simp] theorem State.setReg_tickGtc (o : Nat) (w : Word) : (s.setReg o w).tickGtc = s.tickGtc := rfl
@[simp] theorem State.setReg_half (o : Nat) (w : Word) : (s.setReg o w).half = s.half := rfl
@[simp] theorem State.setReg_latches (o : Nat) (w : Word) : (s.setReg o w).latches = s.latches := rfl
@[simp] theorem State.setReg_horizon (o : Nat) (w : Word) : (s.setReg o w).horizon = s.horizon := rfl
@[simp] theorem State.setReg_cutoff (o : Nat) (w : Word) : (s.setReg o w).cutoff = s.cutoff := rfl
@[simp] theorem State.setReg_reqs (o : Nat) (w : Word) : (s.setReg o w).reqs = s.reqs := rfl
@[simp] theorem State.setReg_portA (o : Nat) (w : Word) : (s.setReg o w).portA = s.portA := rfl
@[simp] theorem State.setReg_portB (o : Nat) (w : Word) : (s.setReg o w).portB = s.portB := rfl
@[simp] theorem State.setReg_ctxs (o : Nat) (w : Word) : (s.setReg o w).ctxs = s.ctxs := rfl
@[simp] theorem State.setReg_streams (o : Nat) (w : Word) : (s.setReg o w).streams = s.streams := rfl
@[simp] theorem State.setReg_sent (o : Nat) (w : Word) : (s.setReg o w).sent = s.sent := rfl
@[simp] theorem State.setReg_ops (o : Nat) (w : Word) : (s.setReg o w).ops = s.ops := rfl
@[simp] theorem State.setReg_plans (o : Nat) (w : Word) : (s.setReg o w).plans = s.plans := rfl
@[simp] theorem State.setReg_banks (o : Nat) (w : Word) : (s.setReg o w).banks = s.banks := rfl
@[simp] theorem State.setReg_fcs (o : Nat) (w : Word) : (s.setReg o w).fcs = s.fcs := rfl
@[simp] theorem State.setReg_hbs (o : Nat) (w : Word) : (s.setReg o w).hbs = s.hbs := rfl
@[simp] theorem State.setReg_coils (o : Nat) (w : Word) : (s.setReg o w).coils = s.coils := rfl
@[simp] theorem State.setReg_clps (o : Nat) (w : Word) : (s.setReg o w).clps = s.clps := rfl
@[simp] theorem State.setReg_less (o : Nat) (w : Word) : (s.setReg o w).less = s.less := rfl
@[simp] theorem State.setReg_fbks (o : Nat) (w : Word) : (s.setReg o w).fbks = s.fbks := rfl
@[simp] theorem State.setReg_gdrs (o : Nat) (w : Word) : (s.setReg o w).gdrs = s.gdrs := rfl
@[simp] theorem State.setReg_adcs (o : Nat) (w : Word) : (s.setReg o w).adcs = s.adcs := rfl
@[simp] theorem State.setReg_ledger (o : Nat) (w : Word) : (s.setReg o w).ledger = s.ledger := rfl
@[simp] theorem State.setReg_tbs (o : Nat) (w : Word) : (s.setReg o w).tbs = s.tbs := rfl
@[simp] theorem State.setReg_ckg (o : Nat) (w : Word) : (s.setReg o w).ckg = s.ckg := rfl
@[simp] theorem State.setReg_pmu (o : Nat) (w : Word) : (s.setReg o w).pmu = s.pmu := rfl
@[simp] theorem State.setReg_lcs (o : Nat) (w : Word) : (s.setReg o w).lcs = s.lcs := rfl
@[simp] theorem State.setReg_cnd (o : Nat) (w : Word) : (s.setReg o w).cnd = s.cnd := rfl
@[simp] theorem State.setReg_freeCtr (o : Nat) (w : Word) : (s.setReg o w).freeCtr = s.freeCtr := rfl

@[simp] theorem State.setBuf_pending (o : Nat) (w : Word) : (s.setBuf o w).pending = s.pending := rfl
@[simp] theorem State.setBuf_regs (o : Nat) (w : Word) : (s.setBuf o w).regs = s.regs := rfl
@[simp] theorem State.setBuf_dirty (o : Nat) (w : Word) : (s.setBuf o w).dirty = s.dirty := rfl
@[simp] theorem State.setBuf_loHeld (o : Nat) (w : Word) : (s.setBuf o w).loHeld = s.loHeld := rfl
@[simp] theorem State.setBuf_seqDone (o : Nat) (w : Word) : (s.setBuf o w).seqDone = s.seqDone := rfl
@[simp] theorem State.setBuf_cntNow (o : Nat) (w : Word) : (s.setBuf o w).cntNow = s.cntNow := rfl
@[simp] theorem State.setBuf_inClk (o : Nat) (w : Word) : (s.setBuf o w).inClk = s.inClk := rfl
@[simp] theorem State.setBuf_clk (o : Nat) (w : Word) : (s.setBuf o w).clk = s.clk := rfl
@[simp] theorem State.setBuf_gtc (o : Nat) (w : Word) : (s.setBuf o w).gtc = s.gtc := rfl
@[simp] theorem State.setBuf_gtcRuns (o : Nat) (w : Word) : (s.setBuf o w).gtcRuns = s.gtcRuns := rfl
@[simp] theorem State.setBuf_ticking (o : Nat) (w : Word) : (s.setBuf o w).ticking = s.ticking := rfl
@[simp] theorem State.setBuf_tickClk (o : Nat) (w : Word) : (s.setBuf o w).tickClk = s.tickClk := rfl
@[simp] theorem State.setBuf_tickGtc (o : Nat) (w : Word) : (s.setBuf o w).tickGtc = s.tickGtc := rfl
@[simp] theorem State.setBuf_half (o : Nat) (w : Word) : (s.setBuf o w).half = s.half := rfl
@[simp] theorem State.setBuf_latches (o : Nat) (w : Word) : (s.setBuf o w).latches = s.latches := rfl
@[simp] theorem State.setBuf_horizon (o : Nat) (w : Word) : (s.setBuf o w).horizon = s.horizon := rfl
@[simp] theorem State.setBuf_cutoff (o : Nat) (w : Word) : (s.setBuf o w).cutoff = s.cutoff := rfl
@[simp] theorem State.setBuf_reqs (o : Nat) (w : Word) : (s.setBuf o w).reqs = s.reqs := rfl
@[simp] theorem State.setBuf_portA (o : Nat) (w : Word) : (s.setBuf o w).portA = s.portA := rfl
@[simp] theorem State.setBuf_portB (o : Nat) (w : Word) : (s.setBuf o w).portB = s.portB := rfl
@[simp] theorem State.setBuf_ctxs (o : Nat) (w : Word) : (s.setBuf o w).ctxs = s.ctxs := rfl
@[simp] theorem State.setBuf_streams (o : Nat) (w : Word) : (s.setBuf o w).streams = s.streams := rfl
@[simp] theorem State.setBuf_sent (o : Nat) (w : Word) : (s.setBuf o w).sent = s.sent := rfl
@[simp] theorem State.setBuf_ops (o : Nat) (w : Word) : (s.setBuf o w).ops = s.ops := rfl
@[simp] theorem State.setBuf_plans (o : Nat) (w : Word) : (s.setBuf o w).plans = s.plans := rfl
@[simp] theorem State.setBuf_banks (o : Nat) (w : Word) : (s.setBuf o w).banks = s.banks := rfl
@[simp] theorem State.setBuf_fcs (o : Nat) (w : Word) : (s.setBuf o w).fcs = s.fcs := rfl
@[simp] theorem State.setBuf_hbs (o : Nat) (w : Word) : (s.setBuf o w).hbs = s.hbs := rfl
@[simp] theorem State.setBuf_coils (o : Nat) (w : Word) : (s.setBuf o w).coils = s.coils := rfl
@[simp] theorem State.setBuf_clps (o : Nat) (w : Word) : (s.setBuf o w).clps = s.clps := rfl
@[simp] theorem State.setBuf_less (o : Nat) (w : Word) : (s.setBuf o w).less = s.less := rfl
@[simp] theorem State.setBuf_fbks (o : Nat) (w : Word) : (s.setBuf o w).fbks = s.fbks := rfl
@[simp] theorem State.setBuf_gdrs (o : Nat) (w : Word) : (s.setBuf o w).gdrs = s.gdrs := rfl
@[simp] theorem State.setBuf_adcs (o : Nat) (w : Word) : (s.setBuf o w).adcs = s.adcs := rfl
@[simp] theorem State.setBuf_ledger (o : Nat) (w : Word) : (s.setBuf o w).ledger = s.ledger := rfl
@[simp] theorem State.setBuf_tbs (o : Nat) (w : Word) : (s.setBuf o w).tbs = s.tbs := rfl
@[simp] theorem State.setBuf_ckg (o : Nat) (w : Word) : (s.setBuf o w).ckg = s.ckg := rfl
@[simp] theorem State.setBuf_pmu (o : Nat) (w : Word) : (s.setBuf o w).pmu = s.pmu := rfl
@[simp] theorem State.setBuf_lcs (o : Nat) (w : Word) : (s.setBuf o w).lcs = s.lcs := rfl
@[simp] theorem State.setBuf_cnd (o : Nat) (w : Word) : (s.setBuf o w).cnd = s.cnd := rfl
@[simp] theorem State.setBuf_freeCtr (o : Nat) (w : Word) : (s.setBuf o w).freeCtr = s.freeCtr := rfl
@[simp] theorem State.setBuf_reg (o : Nat) (w : Word) (j : Nat) : (s.setBuf o w).reg j = s.reg j := rfl
@[simp] theorem State.setBuf_rd (o : Nat) (w : Word) (g : Fld) : (s.setBuf o w).rd g = s.rd g := rfl
@[simp] theorem State.setBuf_flag (o : Nat) (w : Word) (g : Fld) : (s.setBuf o w).flag g = s.flag g := rfl

@[simp] theorem State.setDirty_pending (o : Nat) (w : Word) : (s.setDirty o w).pending = s.pending := rfl
@[simp] theorem State.setDirty_regs (o : Nat) (w : Word) : (s.setDirty o w).regs = s.regs := rfl
@[simp] theorem State.setDirty_bufs (o : Nat) (w : Word) : (s.setDirty o w).bufs = s.bufs := rfl
@[simp] theorem State.setDirty_loHeld (o : Nat) (w : Word) : (s.setDirty o w).loHeld = s.loHeld := rfl
@[simp] theorem State.setDirty_seqDone (o : Nat) (w : Word) : (s.setDirty o w).seqDone = s.seqDone := rfl
@[simp] theorem State.setDirty_cntNow (o : Nat) (w : Word) : (s.setDirty o w).cntNow = s.cntNow := rfl
@[simp] theorem State.setDirty_inClk (o : Nat) (w : Word) : (s.setDirty o w).inClk = s.inClk := rfl
@[simp] theorem State.setDirty_clk (o : Nat) (w : Word) : (s.setDirty o w).clk = s.clk := rfl
@[simp] theorem State.setDirty_gtc (o : Nat) (w : Word) : (s.setDirty o w).gtc = s.gtc := rfl
@[simp] theorem State.setDirty_gtcRuns (o : Nat) (w : Word) : (s.setDirty o w).gtcRuns = s.gtcRuns := rfl
@[simp] theorem State.setDirty_ticking (o : Nat) (w : Word) : (s.setDirty o w).ticking = s.ticking := rfl
@[simp] theorem State.setDirty_tickClk (o : Nat) (w : Word) : (s.setDirty o w).tickClk = s.tickClk := rfl
@[simp] theorem State.setDirty_tickGtc (o : Nat) (w : Word) : (s.setDirty o w).tickGtc = s.tickGtc := rfl
@[simp] theorem State.setDirty_half (o : Nat) (w : Word) : (s.setDirty o w).half = s.half := rfl
@[simp] theorem State.setDirty_latches (o : Nat) (w : Word) : (s.setDirty o w).latches = s.latches := rfl
@[simp] theorem State.setDirty_horizon (o : Nat) (w : Word) : (s.setDirty o w).horizon = s.horizon := rfl
@[simp] theorem State.setDirty_cutoff (o : Nat) (w : Word) : (s.setDirty o w).cutoff = s.cutoff := rfl
@[simp] theorem State.setDirty_reqs (o : Nat) (w : Word) : (s.setDirty o w).reqs = s.reqs := rfl
@[simp] theorem State.setDirty_portA (o : Nat) (w : Word) : (s.setDirty o w).portA = s.portA := rfl
@[simp] theorem State.setDirty_portB (o : Nat) (w : Word) : (s.setDirty o w).portB = s.portB := rfl
@[simp] theorem State.setDirty_ctxs (o : Nat) (w : Word) : (s.setDirty o w).ctxs = s.ctxs := rfl
@[simp] theorem State.setDirty_streams (o : Nat) (w : Word) : (s.setDirty o w).streams = s.streams := rfl
@[simp] theorem State.setDirty_sent (o : Nat) (w : Word) : (s.setDirty o w).sent = s.sent := rfl
@[simp] theorem State.setDirty_ops (o : Nat) (w : Word) : (s.setDirty o w).ops = s.ops := rfl
@[simp] theorem State.setDirty_plans (o : Nat) (w : Word) : (s.setDirty o w).plans = s.plans := rfl
@[simp] theorem State.setDirty_banks (o : Nat) (w : Word) : (s.setDirty o w).banks = s.banks := rfl
@[simp] theorem State.setDirty_fcs (o : Nat) (w : Word) : (s.setDirty o w).fcs = s.fcs := rfl
@[simp] theorem State.setDirty_hbs (o : Nat) (w : Word) : (s.setDirty o w).hbs = s.hbs := rfl
@[simp] theorem State.setDirty_coils (o : Nat) (w : Word) : (s.setDirty o w).coils = s.coils := rfl
@[simp] theorem State.setDirty_clps (o : Nat) (w : Word) : (s.setDirty o w).clps = s.clps := rfl
@[simp] theorem State.setDirty_less (o : Nat) (w : Word) : (s.setDirty o w).less = s.less := rfl
@[simp] theorem State.setDirty_fbks (o : Nat) (w : Word) : (s.setDirty o w).fbks = s.fbks := rfl
@[simp] theorem State.setDirty_gdrs (o : Nat) (w : Word) : (s.setDirty o w).gdrs = s.gdrs := rfl
@[simp] theorem State.setDirty_adcs (o : Nat) (w : Word) : (s.setDirty o w).adcs = s.adcs := rfl
@[simp] theorem State.setDirty_ledger (o : Nat) (w : Word) : (s.setDirty o w).ledger = s.ledger := rfl
@[simp] theorem State.setDirty_tbs (o : Nat) (w : Word) : (s.setDirty o w).tbs = s.tbs := rfl
@[simp] theorem State.setDirty_ckg (o : Nat) (w : Word) : (s.setDirty o w).ckg = s.ckg := rfl
@[simp] theorem State.setDirty_pmu (o : Nat) (w : Word) : (s.setDirty o w).pmu = s.pmu := rfl
@[simp] theorem State.setDirty_lcs (o : Nat) (w : Word) : (s.setDirty o w).lcs = s.lcs := rfl
@[simp] theorem State.setDirty_cnd (o : Nat) (w : Word) : (s.setDirty o w).cnd = s.cnd := rfl
@[simp] theorem State.setDirty_freeCtr (o : Nat) (w : Word) : (s.setDirty o w).freeCtr = s.freeCtr := rfl
@[simp] theorem State.setDirty_reg (o : Nat) (w : Word) (j : Nat) : (s.setDirty o w).reg j = s.reg j := rfl
@[simp] theorem State.setDirty_rd (o : Nat) (w : Word) (g : Fld) : (s.setDirty o w).rd g = s.rd g := rfl
@[simp] theorem State.setDirty_flag (o : Nat) (w : Word) (g : Fld) : (s.setDirty o w).flag g = s.flag g := rfl

@[simp] theorem State.wr_pending (f : Fld) (v : Nat) : (s.wr f v).pending = s.pending := rfl
@[simp] theorem State.wr_bufs (f : Fld) (v : Nat) : (s.wr f v).bufs = s.bufs := rfl
@[simp] theorem State.wr_dirty (f : Fld) (v : Nat) : (s.wr f v).dirty = s.dirty := rfl
@[simp] theorem State.wr_loHeld (f : Fld) (v : Nat) : (s.wr f v).loHeld = s.loHeld := rfl
@[simp] theorem State.wr_seqDone (f : Fld) (v : Nat) : (s.wr f v).seqDone = s.seqDone := rfl
@[simp] theorem State.wr_cntNow (f : Fld) (v : Nat) : (s.wr f v).cntNow = s.cntNow := rfl
@[simp] theorem State.wr_inClk (f : Fld) (v : Nat) : (s.wr f v).inClk = s.inClk := rfl
@[simp] theorem State.wr_clk (f : Fld) (v : Nat) : (s.wr f v).clk = s.clk := rfl
@[simp] theorem State.wr_gtc (f : Fld) (v : Nat) : (s.wr f v).gtc = s.gtc := rfl
@[simp] theorem State.wr_gtcRuns (f : Fld) (v : Nat) : (s.wr f v).gtcRuns = s.gtcRuns := rfl
@[simp] theorem State.wr_ticking (f : Fld) (v : Nat) : (s.wr f v).ticking = s.ticking := rfl
@[simp] theorem State.wr_tickClk (f : Fld) (v : Nat) : (s.wr f v).tickClk = s.tickClk := rfl
@[simp] theorem State.wr_tickGtc (f : Fld) (v : Nat) : (s.wr f v).tickGtc = s.tickGtc := rfl
@[simp] theorem State.wr_half (f : Fld) (v : Nat) : (s.wr f v).half = s.half := rfl
@[simp] theorem State.wr_latches (f : Fld) (v : Nat) : (s.wr f v).latches = s.latches := rfl
@[simp] theorem State.wr_horizon (f : Fld) (v : Nat) : (s.wr f v).horizon = s.horizon := rfl
@[simp] theorem State.wr_cutoff (f : Fld) (v : Nat) : (s.wr f v).cutoff = s.cutoff := rfl
@[simp] theorem State.wr_reqs (f : Fld) (v : Nat) : (s.wr f v).reqs = s.reqs := rfl
@[simp] theorem State.wr_portA (f : Fld) (v : Nat) : (s.wr f v).portA = s.portA := rfl
@[simp] theorem State.wr_portB (f : Fld) (v : Nat) : (s.wr f v).portB = s.portB := rfl
@[simp] theorem State.wr_ctxs (f : Fld) (v : Nat) : (s.wr f v).ctxs = s.ctxs := rfl
@[simp] theorem State.wr_streams (f : Fld) (v : Nat) : (s.wr f v).streams = s.streams := rfl
@[simp] theorem State.wr_sent (f : Fld) (v : Nat) : (s.wr f v).sent = s.sent := rfl
@[simp] theorem State.wr_ops (f : Fld) (v : Nat) : (s.wr f v).ops = s.ops := rfl
@[simp] theorem State.wr_plans (f : Fld) (v : Nat) : (s.wr f v).plans = s.plans := rfl
@[simp] theorem State.wr_banks (f : Fld) (v : Nat) : (s.wr f v).banks = s.banks := rfl
@[simp] theorem State.wr_fcs (f : Fld) (v : Nat) : (s.wr f v).fcs = s.fcs := rfl
@[simp] theorem State.wr_hbs (f : Fld) (v : Nat) : (s.wr f v).hbs = s.hbs := rfl
@[simp] theorem State.wr_coils (f : Fld) (v : Nat) : (s.wr f v).coils = s.coils := rfl
@[simp] theorem State.wr_clps (f : Fld) (v : Nat) : (s.wr f v).clps = s.clps := rfl
@[simp] theorem State.wr_less (f : Fld) (v : Nat) : (s.wr f v).less = s.less := rfl
@[simp] theorem State.wr_fbks (f : Fld) (v : Nat) : (s.wr f v).fbks = s.fbks := rfl
@[simp] theorem State.wr_gdrs (f : Fld) (v : Nat) : (s.wr f v).gdrs = s.gdrs := rfl
@[simp] theorem State.wr_adcs (f : Fld) (v : Nat) : (s.wr f v).adcs = s.adcs := rfl
@[simp] theorem State.wr_ledger (f : Fld) (v : Nat) : (s.wr f v).ledger = s.ledger := rfl
@[simp] theorem State.wr_tbs (f : Fld) (v : Nat) : (s.wr f v).tbs = s.tbs := rfl
@[simp] theorem State.wr_ckg (f : Fld) (v : Nat) : (s.wr f v).ckg = s.ckg := rfl
@[simp] theorem State.wr_pmu (f : Fld) (v : Nat) : (s.wr f v).pmu = s.pmu := rfl
@[simp] theorem State.wr_lcs (f : Fld) (v : Nat) : (s.wr f v).lcs = s.lcs := rfl
@[simp] theorem State.wr_cnd (f : Fld) (v : Nat) : (s.wr f v).cnd = s.cnd := rfl
@[simp] theorem State.wr_freeCtr (f : Fld) (v : Nat) : (s.wr f v).freeCtr = s.freeCtr := rfl

@[simp] theorem State.wrB_pending (f : Fld) (v : Bool) : (s.wrB f v).pending = s.pending := rfl
@[simp] theorem State.wrB_bufs (f : Fld) (v : Bool) : (s.wrB f v).bufs = s.bufs := rfl
@[simp] theorem State.wrB_dirty (f : Fld) (v : Bool) : (s.wrB f v).dirty = s.dirty := rfl
@[simp] theorem State.wrB_loHeld (f : Fld) (v : Bool) : (s.wrB f v).loHeld = s.loHeld := rfl
@[simp] theorem State.wrB_seqDone (f : Fld) (v : Bool) : (s.wrB f v).seqDone = s.seqDone := rfl
@[simp] theorem State.wrB_cntNow (f : Fld) (v : Bool) : (s.wrB f v).cntNow = s.cntNow := rfl
@[simp] theorem State.wrB_inClk (f : Fld) (v : Bool) : (s.wrB f v).inClk = s.inClk := rfl
@[simp] theorem State.wrB_clk (f : Fld) (v : Bool) : (s.wrB f v).clk = s.clk := rfl
@[simp] theorem State.wrB_gtc (f : Fld) (v : Bool) : (s.wrB f v).gtc = s.gtc := rfl
@[simp] theorem State.wrB_gtcRuns (f : Fld) (v : Bool) : (s.wrB f v).gtcRuns = s.gtcRuns := rfl
@[simp] theorem State.wrB_ticking (f : Fld) (v : Bool) : (s.wrB f v).ticking = s.ticking := rfl
@[simp] theorem State.wrB_tickClk (f : Fld) (v : Bool) : (s.wrB f v).tickClk = s.tickClk := rfl
@[simp] theorem State.wrB_tickGtc (f : Fld) (v : Bool) : (s.wrB f v).tickGtc = s.tickGtc := rfl
@[simp] theorem State.wrB_half (f : Fld) (v : Bool) : (s.wrB f v).half = s.half := rfl
@[simp] theorem State.wrB_latches (f : Fld) (v : Bool) : (s.wrB f v).latches = s.latches := rfl
@[simp] theorem State.wrB_horizon (f : Fld) (v : Bool) : (s.wrB f v).horizon = s.horizon := rfl
@[simp] theorem State.wrB_cutoff (f : Fld) (v : Bool) : (s.wrB f v).cutoff = s.cutoff := rfl
@[simp] theorem State.wrB_reqs (f : Fld) (v : Bool) : (s.wrB f v).reqs = s.reqs := rfl
@[simp] theorem State.wrB_portA (f : Fld) (v : Bool) : (s.wrB f v).portA = s.portA := rfl
@[simp] theorem State.wrB_portB (f : Fld) (v : Bool) : (s.wrB f v).portB = s.portB := rfl
@[simp] theorem State.wrB_ctxs (f : Fld) (v : Bool) : (s.wrB f v).ctxs = s.ctxs := rfl
@[simp] theorem State.wrB_streams (f : Fld) (v : Bool) : (s.wrB f v).streams = s.streams := rfl
@[simp] theorem State.wrB_sent (f : Fld) (v : Bool) : (s.wrB f v).sent = s.sent := rfl
@[simp] theorem State.wrB_ops (f : Fld) (v : Bool) : (s.wrB f v).ops = s.ops := rfl
@[simp] theorem State.wrB_plans (f : Fld) (v : Bool) : (s.wrB f v).plans = s.plans := rfl
@[simp] theorem State.wrB_banks (f : Fld) (v : Bool) : (s.wrB f v).banks = s.banks := rfl
@[simp] theorem State.wrB_fcs (f : Fld) (v : Bool) : (s.wrB f v).fcs = s.fcs := rfl
@[simp] theorem State.wrB_hbs (f : Fld) (v : Bool) : (s.wrB f v).hbs = s.hbs := rfl
@[simp] theorem State.wrB_coils (f : Fld) (v : Bool) : (s.wrB f v).coils = s.coils := rfl
@[simp] theorem State.wrB_clps (f : Fld) (v : Bool) : (s.wrB f v).clps = s.clps := rfl
@[simp] theorem State.wrB_less (f : Fld) (v : Bool) : (s.wrB f v).less = s.less := rfl
@[simp] theorem State.wrB_fbks (f : Fld) (v : Bool) : (s.wrB f v).fbks = s.fbks := rfl
@[simp] theorem State.wrB_gdrs (f : Fld) (v : Bool) : (s.wrB f v).gdrs = s.gdrs := rfl
@[simp] theorem State.wrB_adcs (f : Fld) (v : Bool) : (s.wrB f v).adcs = s.adcs := rfl
@[simp] theorem State.wrB_ledger (f : Fld) (v : Bool) : (s.wrB f v).ledger = s.ledger := rfl
@[simp] theorem State.wrB_tbs (f : Fld) (v : Bool) : (s.wrB f v).tbs = s.tbs := rfl
@[simp] theorem State.wrB_ckg (f : Fld) (v : Bool) : (s.wrB f v).ckg = s.ckg := rfl
@[simp] theorem State.wrB_pmu (f : Fld) (v : Bool) : (s.wrB f v).pmu = s.pmu := rfl
@[simp] theorem State.wrB_lcs (f : Fld) (v : Bool) : (s.wrB f v).lcs = s.lcs := rfl
@[simp] theorem State.wrB_cnd (f : Fld) (v : Bool) : (s.wrB f v).cnd = s.cnd := rfl
@[simp] theorem State.wrB_freeCtr (f : Fld) (v : Bool) : (s.wrB f v).freeCtr = s.freeCtr := rfl

@[simp] theorem State.wrS_pending (f : Fld) (v : Int) : (s.wrS f v).pending = s.pending := rfl
@[simp] theorem State.wrS_bufs (f : Fld) (v : Int) : (s.wrS f v).bufs = s.bufs := rfl
@[simp] theorem State.wrS_dirty (f : Fld) (v : Int) : (s.wrS f v).dirty = s.dirty := rfl
@[simp] theorem State.wrS_loHeld (f : Fld) (v : Int) : (s.wrS f v).loHeld = s.loHeld := rfl
@[simp] theorem State.wrS_seqDone (f : Fld) (v : Int) : (s.wrS f v).seqDone = s.seqDone := rfl
@[simp] theorem State.wrS_cntNow (f : Fld) (v : Int) : (s.wrS f v).cntNow = s.cntNow := rfl
@[simp] theorem State.wrS_inClk (f : Fld) (v : Int) : (s.wrS f v).inClk = s.inClk := rfl
@[simp] theorem State.wrS_clk (f : Fld) (v : Int) : (s.wrS f v).clk = s.clk := rfl
@[simp] theorem State.wrS_gtc (f : Fld) (v : Int) : (s.wrS f v).gtc = s.gtc := rfl
@[simp] theorem State.wrS_gtcRuns (f : Fld) (v : Int) : (s.wrS f v).gtcRuns = s.gtcRuns := rfl
@[simp] theorem State.wrS_ticking (f : Fld) (v : Int) : (s.wrS f v).ticking = s.ticking := rfl
@[simp] theorem State.wrS_tickClk (f : Fld) (v : Int) : (s.wrS f v).tickClk = s.tickClk := rfl
@[simp] theorem State.wrS_tickGtc (f : Fld) (v : Int) : (s.wrS f v).tickGtc = s.tickGtc := rfl
@[simp] theorem State.wrS_half (f : Fld) (v : Int) : (s.wrS f v).half = s.half := rfl
@[simp] theorem State.wrS_latches (f : Fld) (v : Int) : (s.wrS f v).latches = s.latches := rfl
@[simp] theorem State.wrS_horizon (f : Fld) (v : Int) : (s.wrS f v).horizon = s.horizon := rfl
@[simp] theorem State.wrS_cutoff (f : Fld) (v : Int) : (s.wrS f v).cutoff = s.cutoff := rfl
@[simp] theorem State.wrS_reqs (f : Fld) (v : Int) : (s.wrS f v).reqs = s.reqs := rfl
@[simp] theorem State.wrS_portA (f : Fld) (v : Int) : (s.wrS f v).portA = s.portA := rfl
@[simp] theorem State.wrS_portB (f : Fld) (v : Int) : (s.wrS f v).portB = s.portB := rfl
@[simp] theorem State.wrS_ctxs (f : Fld) (v : Int) : (s.wrS f v).ctxs = s.ctxs := rfl
@[simp] theorem State.wrS_streams (f : Fld) (v : Int) : (s.wrS f v).streams = s.streams := rfl
@[simp] theorem State.wrS_sent (f : Fld) (v : Int) : (s.wrS f v).sent = s.sent := rfl
@[simp] theorem State.wrS_ops (f : Fld) (v : Int) : (s.wrS f v).ops = s.ops := rfl
@[simp] theorem State.wrS_plans (f : Fld) (v : Int) : (s.wrS f v).plans = s.plans := rfl
@[simp] theorem State.wrS_banks (f : Fld) (v : Int) : (s.wrS f v).banks = s.banks := rfl
@[simp] theorem State.wrS_fcs (f : Fld) (v : Int) : (s.wrS f v).fcs = s.fcs := rfl
@[simp] theorem State.wrS_hbs (f : Fld) (v : Int) : (s.wrS f v).hbs = s.hbs := rfl
@[simp] theorem State.wrS_coils (f : Fld) (v : Int) : (s.wrS f v).coils = s.coils := rfl
@[simp] theorem State.wrS_clps (f : Fld) (v : Int) : (s.wrS f v).clps = s.clps := rfl
@[simp] theorem State.wrS_less (f : Fld) (v : Int) : (s.wrS f v).less = s.less := rfl
@[simp] theorem State.wrS_fbks (f : Fld) (v : Int) : (s.wrS f v).fbks = s.fbks := rfl
@[simp] theorem State.wrS_gdrs (f : Fld) (v : Int) : (s.wrS f v).gdrs = s.gdrs := rfl
@[simp] theorem State.wrS_adcs (f : Fld) (v : Int) : (s.wrS f v).adcs = s.adcs := rfl
@[simp] theorem State.wrS_ledger (f : Fld) (v : Int) : (s.wrS f v).ledger = s.ledger := rfl
@[simp] theorem State.wrS_tbs (f : Fld) (v : Int) : (s.wrS f v).tbs = s.tbs := rfl
@[simp] theorem State.wrS_ckg (f : Fld) (v : Int) : (s.wrS f v).ckg = s.ckg := rfl
@[simp] theorem State.wrS_pmu (f : Fld) (v : Int) : (s.wrS f v).pmu = s.pmu := rfl
@[simp] theorem State.wrS_lcs (f : Fld) (v : Int) : (s.wrS f v).lcs = s.lcs := rfl
@[simp] theorem State.wrS_cnd (f : Fld) (v : Int) : (s.wrS f v).cnd = s.cnd := rfl
@[simp] theorem State.wrS_freeCtr (f : Fld) (v : Int) : (s.wrS f v).freeCtr = s.freeCtr := rfl

@[simp] theorem State.wr64_pending (o v : Nat) : (s.wr64 o v).pending = s.pending := rfl
@[simp] theorem State.wr64_bufs (o v : Nat) : (s.wr64 o v).bufs = s.bufs := rfl
@[simp] theorem State.wr64_dirty (o v : Nat) : (s.wr64 o v).dirty = s.dirty := rfl
@[simp] theorem State.wr64_loHeld (o v : Nat) : (s.wr64 o v).loHeld = s.loHeld := rfl
@[simp] theorem State.wr64_seqDone (o v : Nat) : (s.wr64 o v).seqDone = s.seqDone := rfl
@[simp] theorem State.wr64_cntNow (o v : Nat) : (s.wr64 o v).cntNow = s.cntNow := rfl
@[simp] theorem State.wr64_inClk (o v : Nat) : (s.wr64 o v).inClk = s.inClk := rfl
@[simp] theorem State.wr64_clk (o v : Nat) : (s.wr64 o v).clk = s.clk := rfl
@[simp] theorem State.wr64_gtc (o v : Nat) : (s.wr64 o v).gtc = s.gtc := rfl
@[simp] theorem State.wr64_gtcRuns (o v : Nat) : (s.wr64 o v).gtcRuns = s.gtcRuns := rfl
@[simp] theorem State.wr64_ticking (o v : Nat) : (s.wr64 o v).ticking = s.ticking := rfl
@[simp] theorem State.wr64_tickClk (o v : Nat) : (s.wr64 o v).tickClk = s.tickClk := rfl
@[simp] theorem State.wr64_tickGtc (o v : Nat) : (s.wr64 o v).tickGtc = s.tickGtc := rfl
@[simp] theorem State.wr64_half (o v : Nat) : (s.wr64 o v).half = s.half := rfl
@[simp] theorem State.wr64_latches (o v : Nat) : (s.wr64 o v).latches = s.latches := rfl
@[simp] theorem State.wr64_horizon (o v : Nat) : (s.wr64 o v).horizon = s.horizon := rfl
@[simp] theorem State.wr64_cutoff (o v : Nat) : (s.wr64 o v).cutoff = s.cutoff := rfl
@[simp] theorem State.wr64_reqs (o v : Nat) : (s.wr64 o v).reqs = s.reqs := rfl
@[simp] theorem State.wr64_portA (o v : Nat) : (s.wr64 o v).portA = s.portA := rfl
@[simp] theorem State.wr64_portB (o v : Nat) : (s.wr64 o v).portB = s.portB := rfl
@[simp] theorem State.wr64_ctxs (o v : Nat) : (s.wr64 o v).ctxs = s.ctxs := rfl
@[simp] theorem State.wr64_streams (o v : Nat) : (s.wr64 o v).streams = s.streams := rfl
@[simp] theorem State.wr64_sent (o v : Nat) : (s.wr64 o v).sent = s.sent := rfl
@[simp] theorem State.wr64_ops (o v : Nat) : (s.wr64 o v).ops = s.ops := rfl
@[simp] theorem State.wr64_plans (o v : Nat) : (s.wr64 o v).plans = s.plans := rfl
@[simp] theorem State.wr64_banks (o v : Nat) : (s.wr64 o v).banks = s.banks := rfl
@[simp] theorem State.wr64_fcs (o v : Nat) : (s.wr64 o v).fcs = s.fcs := rfl
@[simp] theorem State.wr64_hbs (o v : Nat) : (s.wr64 o v).hbs = s.hbs := rfl
@[simp] theorem State.wr64_coils (o v : Nat) : (s.wr64 o v).coils = s.coils := rfl
@[simp] theorem State.wr64_clps (o v : Nat) : (s.wr64 o v).clps = s.clps := rfl
@[simp] theorem State.wr64_less (o v : Nat) : (s.wr64 o v).less = s.less := rfl
@[simp] theorem State.wr64_fbks (o v : Nat) : (s.wr64 o v).fbks = s.fbks := rfl
@[simp] theorem State.wr64_gdrs (o v : Nat) : (s.wr64 o v).gdrs = s.gdrs := rfl
@[simp] theorem State.wr64_adcs (o v : Nat) : (s.wr64 o v).adcs = s.adcs := rfl
@[simp] theorem State.wr64_ledger (o v : Nat) : (s.wr64 o v).ledger = s.ledger := rfl
@[simp] theorem State.wr64_tbs (o v : Nat) : (s.wr64 o v).tbs = s.tbs := rfl
@[simp] theorem State.wr64_ckg (o v : Nat) : (s.wr64 o v).ckg = s.ckg := rfl
@[simp] theorem State.wr64_pmu (o v : Nat) : (s.wr64 o v).pmu = s.pmu := rfl
@[simp] theorem State.wr64_lcs (o v : Nat) : (s.wr64 o v).lcs = s.lcs := rfl
@[simp] theorem State.wr64_cnd (o v : Nat) : (s.wr64 o v).cnd = s.cnd := rfl
@[simp] theorem State.wr64_freeCtr (o v : Nat) : (s.wr64 o v).freeCtr = s.freeCtr := rfl

@[simp] theorem State.wrS64_pending (o : Nat) (v : Int) : (s.wrS64 o v).pending = s.pending := rfl
@[simp] theorem State.wrS64_bufs (o : Nat) (v : Int) : (s.wrS64 o v).bufs = s.bufs := rfl
@[simp] theorem State.wrS64_dirty (o : Nat) (v : Int) : (s.wrS64 o v).dirty = s.dirty := rfl
@[simp] theorem State.wrS64_loHeld (o : Nat) (v : Int) : (s.wrS64 o v).loHeld = s.loHeld := rfl
@[simp] theorem State.wrS64_seqDone (o : Nat) (v : Int) : (s.wrS64 o v).seqDone = s.seqDone := rfl
@[simp] theorem State.wrS64_cntNow (o : Nat) (v : Int) : (s.wrS64 o v).cntNow = s.cntNow := rfl
@[simp] theorem State.wrS64_inClk (o : Nat) (v : Int) : (s.wrS64 o v).inClk = s.inClk := rfl
@[simp] theorem State.wrS64_clk (o : Nat) (v : Int) : (s.wrS64 o v).clk = s.clk := rfl
@[simp] theorem State.wrS64_gtc (o : Nat) (v : Int) : (s.wrS64 o v).gtc = s.gtc := rfl
@[simp] theorem State.wrS64_gtcRuns (o : Nat) (v : Int) : (s.wrS64 o v).gtcRuns = s.gtcRuns := rfl
@[simp] theorem State.wrS64_ticking (o : Nat) (v : Int) : (s.wrS64 o v).ticking = s.ticking := rfl
@[simp] theorem State.wrS64_tickClk (o : Nat) (v : Int) : (s.wrS64 o v).tickClk = s.tickClk := rfl
@[simp] theorem State.wrS64_tickGtc (o : Nat) (v : Int) : (s.wrS64 o v).tickGtc = s.tickGtc := rfl
@[simp] theorem State.wrS64_half (o : Nat) (v : Int) : (s.wrS64 o v).half = s.half := rfl
@[simp] theorem State.wrS64_latches (o : Nat) (v : Int) : (s.wrS64 o v).latches = s.latches := rfl
@[simp] theorem State.wrS64_horizon (o : Nat) (v : Int) : (s.wrS64 o v).horizon = s.horizon := rfl
@[simp] theorem State.wrS64_cutoff (o : Nat) (v : Int) : (s.wrS64 o v).cutoff = s.cutoff := rfl
@[simp] theorem State.wrS64_reqs (o : Nat) (v : Int) : (s.wrS64 o v).reqs = s.reqs := rfl
@[simp] theorem State.wrS64_portA (o : Nat) (v : Int) : (s.wrS64 o v).portA = s.portA := rfl
@[simp] theorem State.wrS64_portB (o : Nat) (v : Int) : (s.wrS64 o v).portB = s.portB := rfl
@[simp] theorem State.wrS64_ctxs (o : Nat) (v : Int) : (s.wrS64 o v).ctxs = s.ctxs := rfl
@[simp] theorem State.wrS64_streams (o : Nat) (v : Int) : (s.wrS64 o v).streams = s.streams := rfl
@[simp] theorem State.wrS64_sent (o : Nat) (v : Int) : (s.wrS64 o v).sent = s.sent := rfl
@[simp] theorem State.wrS64_ops (o : Nat) (v : Int) : (s.wrS64 o v).ops = s.ops := rfl
@[simp] theorem State.wrS64_plans (o : Nat) (v : Int) : (s.wrS64 o v).plans = s.plans := rfl
@[simp] theorem State.wrS64_banks (o : Nat) (v : Int) : (s.wrS64 o v).banks = s.banks := rfl
@[simp] theorem State.wrS64_fcs (o : Nat) (v : Int) : (s.wrS64 o v).fcs = s.fcs := rfl
@[simp] theorem State.wrS64_hbs (o : Nat) (v : Int) : (s.wrS64 o v).hbs = s.hbs := rfl
@[simp] theorem State.wrS64_coils (o : Nat) (v : Int) : (s.wrS64 o v).coils = s.coils := rfl
@[simp] theorem State.wrS64_clps (o : Nat) (v : Int) : (s.wrS64 o v).clps = s.clps := rfl
@[simp] theorem State.wrS64_less (o : Nat) (v : Int) : (s.wrS64 o v).less = s.less := rfl
@[simp] theorem State.wrS64_fbks (o : Nat) (v : Int) : (s.wrS64 o v).fbks = s.fbks := rfl
@[simp] theorem State.wrS64_gdrs (o : Nat) (v : Int) : (s.wrS64 o v).gdrs = s.gdrs := rfl
@[simp] theorem State.wrS64_adcs (o : Nat) (v : Int) : (s.wrS64 o v).adcs = s.adcs := rfl
@[simp] theorem State.wrS64_ledger (o : Nat) (v : Int) : (s.wrS64 o v).ledger = s.ledger := rfl
@[simp] theorem State.wrS64_tbs (o : Nat) (v : Int) : (s.wrS64 o v).tbs = s.tbs := rfl
@[simp] theorem State.wrS64_ckg (o : Nat) (v : Int) : (s.wrS64 o v).ckg = s.ckg := rfl
@[simp] theorem State.wrS64_pmu (o : Nat) (v : Int) : (s.wrS64 o v).pmu = s.pmu := rfl
@[simp] theorem State.wrS64_lcs (o : Nat) (v : Int) : (s.wrS64 o v).lcs = s.lcs := rfl
@[simp] theorem State.wrS64_cnd (o : Nat) (v : Int) : (s.wrS64 o v).cnd = s.cnd := rfl
@[simp] theorem State.wrS64_freeCtr (o : Nat) (v : Int) : (s.wrS64 o v).freeCtr = s.freeCtr := rfl

@[simp] theorem State.post_pending (r : Req) : (s.post r).pending = s.pending := rfl
@[simp] theorem State.post_regs (r : Req) : (s.post r).regs = s.regs := rfl
@[simp] theorem State.post_bufs (r : Req) : (s.post r).bufs = s.bufs := rfl
@[simp] theorem State.post_dirty (r : Req) : (s.post r).dirty = s.dirty := rfl
@[simp] theorem State.post_loHeld (r : Req) : (s.post r).loHeld = s.loHeld := rfl
@[simp] theorem State.post_seqDone (r : Req) : (s.post r).seqDone = s.seqDone := rfl
@[simp] theorem State.post_cntNow (r : Req) : (s.post r).cntNow = s.cntNow := rfl
@[simp] theorem State.post_inClk (r : Req) : (s.post r).inClk = s.inClk := rfl
@[simp] theorem State.post_clk (r : Req) : (s.post r).clk = s.clk := rfl
@[simp] theorem State.post_gtc (r : Req) : (s.post r).gtc = s.gtc := rfl
@[simp] theorem State.post_gtcRuns (r : Req) : (s.post r).gtcRuns = s.gtcRuns := rfl
@[simp] theorem State.post_ticking (r : Req) : (s.post r).ticking = s.ticking := rfl
@[simp] theorem State.post_tickClk (r : Req) : (s.post r).tickClk = s.tickClk := rfl
@[simp] theorem State.post_tickGtc (r : Req) : (s.post r).tickGtc = s.tickGtc := rfl
@[simp] theorem State.post_half (r : Req) : (s.post r).half = s.half := rfl
@[simp] theorem State.post_latches (r : Req) : (s.post r).latches = s.latches := rfl
@[simp] theorem State.post_horizon (r : Req) : (s.post r).horizon = s.horizon := rfl
@[simp] theorem State.post_cutoff (r : Req) : (s.post r).cutoff = s.cutoff := rfl
@[simp] theorem State.post_portA (r : Req) : (s.post r).portA = s.portA := rfl
@[simp] theorem State.post_portB (r : Req) : (s.post r).portB = s.portB := rfl
@[simp] theorem State.post_ctxs (r : Req) : (s.post r).ctxs = s.ctxs := rfl
@[simp] theorem State.post_streams (r : Req) : (s.post r).streams = s.streams := rfl
@[simp] theorem State.post_sent (r : Req) : (s.post r).sent = s.sent := rfl
@[simp] theorem State.post_ops (r : Req) : (s.post r).ops = s.ops := rfl
@[simp] theorem State.post_plans (r : Req) : (s.post r).plans = s.plans := rfl
@[simp] theorem State.post_banks (r : Req) : (s.post r).banks = s.banks := rfl
@[simp] theorem State.post_fcs (r : Req) : (s.post r).fcs = s.fcs := rfl
@[simp] theorem State.post_hbs (r : Req) : (s.post r).hbs = s.hbs := rfl
@[simp] theorem State.post_coils (r : Req) : (s.post r).coils = s.coils := rfl
@[simp] theorem State.post_clps (r : Req) : (s.post r).clps = s.clps := rfl
@[simp] theorem State.post_less (r : Req) : (s.post r).less = s.less := rfl
@[simp] theorem State.post_fbks (r : Req) : (s.post r).fbks = s.fbks := rfl
@[simp] theorem State.post_gdrs (r : Req) : (s.post r).gdrs = s.gdrs := rfl
@[simp] theorem State.post_adcs (r : Req) : (s.post r).adcs = s.adcs := rfl
@[simp] theorem State.post_ledger (r : Req) : (s.post r).ledger = s.ledger := rfl
@[simp] theorem State.post_tbs (r : Req) : (s.post r).tbs = s.tbs := rfl
@[simp] theorem State.post_ckg (r : Req) : (s.post r).ckg = s.ckg := rfl
@[simp] theorem State.post_pmu (r : Req) : (s.post r).pmu = s.pmu := rfl
@[simp] theorem State.post_lcs (r : Req) : (s.post r).lcs = s.lcs := rfl
@[simp] theorem State.post_cnd (r : Req) : (s.post r).cnd = s.cnd := rfl
@[simp] theorem State.post_freeCtr (r : Req) : (s.post r).freeCtr = s.freeCtr := rfl
@[simp] theorem State.post_reg (r : Req) (j : Nat) : (s.post r).reg j = s.reg j := rfl
@[simp] theorem State.post_rd (r : Req) (g : Fld) : (s.post r).rd g = s.rd g := rfl
@[simp] theorem State.post_flag (r : Req) (g : Fld) : (s.post r).flag g = s.flag g := rfl

@[simp] theorem State.drop_pending (r : Req) : (s.drop r).pending = s.pending := rfl
@[simp] theorem State.drop_regs (r : Req) : (s.drop r).regs = s.regs := rfl
@[simp] theorem State.drop_bufs (r : Req) : (s.drop r).bufs = s.bufs := rfl
@[simp] theorem State.drop_dirty (r : Req) : (s.drop r).dirty = s.dirty := rfl
@[simp] theorem State.drop_loHeld (r : Req) : (s.drop r).loHeld = s.loHeld := rfl
@[simp] theorem State.drop_seqDone (r : Req) : (s.drop r).seqDone = s.seqDone := rfl
@[simp] theorem State.drop_cntNow (r : Req) : (s.drop r).cntNow = s.cntNow := rfl
@[simp] theorem State.drop_inClk (r : Req) : (s.drop r).inClk = s.inClk := rfl
@[simp] theorem State.drop_clk (r : Req) : (s.drop r).clk = s.clk := rfl
@[simp] theorem State.drop_gtc (r : Req) : (s.drop r).gtc = s.gtc := rfl
@[simp] theorem State.drop_gtcRuns (r : Req) : (s.drop r).gtcRuns = s.gtcRuns := rfl
@[simp] theorem State.drop_ticking (r : Req) : (s.drop r).ticking = s.ticking := rfl
@[simp] theorem State.drop_tickClk (r : Req) : (s.drop r).tickClk = s.tickClk := rfl
@[simp] theorem State.drop_tickGtc (r : Req) : (s.drop r).tickGtc = s.tickGtc := rfl
@[simp] theorem State.drop_half (r : Req) : (s.drop r).half = s.half := rfl
@[simp] theorem State.drop_latches (r : Req) : (s.drop r).latches = s.latches := rfl
@[simp] theorem State.drop_horizon (r : Req) : (s.drop r).horizon = s.horizon := rfl
@[simp] theorem State.drop_cutoff (r : Req) : (s.drop r).cutoff = s.cutoff := rfl
@[simp] theorem State.drop_portA (r : Req) : (s.drop r).portA = s.portA := rfl
@[simp] theorem State.drop_portB (r : Req) : (s.drop r).portB = s.portB := rfl
@[simp] theorem State.drop_ctxs (r : Req) : (s.drop r).ctxs = s.ctxs := rfl
@[simp] theorem State.drop_streams (r : Req) : (s.drop r).streams = s.streams := rfl
@[simp] theorem State.drop_sent (r : Req) : (s.drop r).sent = s.sent := rfl
@[simp] theorem State.drop_ops (r : Req) : (s.drop r).ops = s.ops := rfl
@[simp] theorem State.drop_plans (r : Req) : (s.drop r).plans = s.plans := rfl
@[simp] theorem State.drop_banks (r : Req) : (s.drop r).banks = s.banks := rfl
@[simp] theorem State.drop_fcs (r : Req) : (s.drop r).fcs = s.fcs := rfl
@[simp] theorem State.drop_hbs (r : Req) : (s.drop r).hbs = s.hbs := rfl
@[simp] theorem State.drop_coils (r : Req) : (s.drop r).coils = s.coils := rfl
@[simp] theorem State.drop_clps (r : Req) : (s.drop r).clps = s.clps := rfl
@[simp] theorem State.drop_less (r : Req) : (s.drop r).less = s.less := rfl
@[simp] theorem State.drop_fbks (r : Req) : (s.drop r).fbks = s.fbks := rfl
@[simp] theorem State.drop_gdrs (r : Req) : (s.drop r).gdrs = s.gdrs := rfl
@[simp] theorem State.drop_adcs (r : Req) : (s.drop r).adcs = s.adcs := rfl
@[simp] theorem State.drop_ledger (r : Req) : (s.drop r).ledger = s.ledger := rfl
@[simp] theorem State.drop_tbs (r : Req) : (s.drop r).tbs = s.tbs := rfl
@[simp] theorem State.drop_ckg (r : Req) : (s.drop r).ckg = s.ckg := rfl
@[simp] theorem State.drop_pmu (r : Req) : (s.drop r).pmu = s.pmu := rfl
@[simp] theorem State.drop_lcs (r : Req) : (s.drop r).lcs = s.lcs := rfl
@[simp] theorem State.drop_cnd (r : Req) : (s.drop r).cnd = s.cnd := rfl
@[simp] theorem State.drop_freeCtr (r : Req) : (s.drop r).freeCtr = s.freeCtr := rfl
@[simp] theorem State.drop_reg (r : Req) (j : Nat) : (s.drop r).reg j = s.reg j := rfl
@[simp] theorem State.drop_rd (r : Req) (g : Fld) : (s.drop r).rd g = s.rd g := rfl
@[simp] theorem State.drop_flag (r : Req) (g : Fld) : (s.drop r).flag g = s.flag g := rfl

@[simp] theorem State.draw_pending : s.draw.pending = s.pending := rfl
@[simp] theorem State.draw_regs : s.draw.regs = s.regs := rfl
@[simp] theorem State.draw_bufs : s.draw.bufs = s.bufs := rfl
@[simp] theorem State.draw_dirty : s.draw.dirty = s.dirty := rfl
@[simp] theorem State.draw_loHeld : s.draw.loHeld = s.loHeld := rfl
@[simp] theorem State.draw_seqDone : s.draw.seqDone = s.seqDone := rfl
@[simp] theorem State.draw_cntNow : s.draw.cntNow = s.cntNow := rfl
@[simp] theorem State.draw_inClk : s.draw.inClk = s.inClk := rfl
@[simp] theorem State.draw_clk : s.draw.clk = s.clk := rfl
@[simp] theorem State.draw_gtc : s.draw.gtc = s.gtc := rfl
@[simp] theorem State.draw_gtcRuns : s.draw.gtcRuns = s.gtcRuns := rfl
@[simp] theorem State.draw_ticking : s.draw.ticking = s.ticking := rfl
@[simp] theorem State.draw_tickClk : s.draw.tickClk = s.tickClk := rfl
@[simp] theorem State.draw_tickGtc : s.draw.tickGtc = s.tickGtc := rfl
@[simp] theorem State.draw_half : s.draw.half = s.half := rfl
@[simp] theorem State.draw_latches : s.draw.latches = s.latches := rfl
@[simp] theorem State.draw_horizon : s.draw.horizon = s.horizon := rfl
@[simp] theorem State.draw_cutoff : s.draw.cutoff = s.cutoff := rfl
@[simp] theorem State.draw_reqs : s.draw.reqs = s.reqs := rfl
@[simp] theorem State.draw_portA : s.draw.portA = s.portA := rfl
@[simp] theorem State.draw_portB : s.draw.portB = s.portB := rfl
@[simp] theorem State.draw_ctxs : s.draw.ctxs = s.ctxs := rfl
@[simp] theorem State.draw_streams : s.draw.streams = s.streams := rfl
@[simp] theorem State.draw_sent : s.draw.sent = s.sent := rfl
@[simp] theorem State.draw_ops : s.draw.ops = s.ops := rfl
@[simp] theorem State.draw_plans : s.draw.plans = s.plans := rfl
@[simp] theorem State.draw_banks : s.draw.banks = s.banks := rfl
@[simp] theorem State.draw_fcs : s.draw.fcs = s.fcs := rfl
@[simp] theorem State.draw_hbs : s.draw.hbs = s.hbs := rfl
@[simp] theorem State.draw_coils : s.draw.coils = s.coils := rfl
@[simp] theorem State.draw_clps : s.draw.clps = s.clps := rfl
@[simp] theorem State.draw_less : s.draw.less = s.less := rfl
@[simp] theorem State.draw_fbks : s.draw.fbks = s.fbks := rfl
@[simp] theorem State.draw_gdrs : s.draw.gdrs = s.gdrs := rfl
@[simp] theorem State.draw_adcs : s.draw.adcs = s.adcs := rfl
@[simp] theorem State.draw_ledger : s.draw.ledger = s.ledger := rfl
@[simp] theorem State.draw_tbs : s.draw.tbs = s.tbs := rfl
@[simp] theorem State.draw_ckg : s.draw.ckg = s.ckg := rfl
@[simp] theorem State.draw_pmu : s.draw.pmu = s.pmu := rfl
@[simp] theorem State.draw_lcs : s.draw.lcs = s.lcs := rfl
@[simp] theorem State.draw_cnd : s.draw.cnd = s.cnd := rfl
@[simp] theorem State.draw_reg (j : Nat) : s.draw.reg j = s.reg j := rfl
@[simp] theorem State.draw_rd (g : Fld) : s.draw.rd g = s.rd g := rfl
@[simp] theorem State.draw_flag (g : Fld) : s.draw.flag g = s.flag g := rfl

@[simp] theorem State.emit_pending (o : Out) : (s.emit o).pending = s.pending := rfl
@[simp] theorem State.emit_regs (o : Out) : (s.emit o).regs = s.regs := rfl
@[simp] theorem State.emit_bufs (o : Out) : (s.emit o).bufs = s.bufs := rfl
@[simp] theorem State.emit_dirty (o : Out) : (s.emit o).dirty = s.dirty := rfl
@[simp] theorem State.emit_loHeld (o : Out) : (s.emit o).loHeld = s.loHeld := rfl
@[simp] theorem State.emit_seqDone (o : Out) : (s.emit o).seqDone = s.seqDone := rfl
@[simp] theorem State.emit_cntNow (o : Out) : (s.emit o).cntNow = s.cntNow := rfl
@[simp] theorem State.emit_inClk (o : Out) : (s.emit o).inClk = s.inClk := rfl
@[simp] theorem State.emit_clk (o : Out) : (s.emit o).clk = s.clk := rfl
@[simp] theorem State.emit_gtc (o : Out) : (s.emit o).gtc = s.gtc := rfl
@[simp] theorem State.emit_gtcRuns (o : Out) : (s.emit o).gtcRuns = s.gtcRuns := rfl
@[simp] theorem State.emit_ticking (o : Out) : (s.emit o).ticking = s.ticking := rfl
@[simp] theorem State.emit_tickClk (o : Out) : (s.emit o).tickClk = s.tickClk := rfl
@[simp] theorem State.emit_tickGtc (o : Out) : (s.emit o).tickGtc = s.tickGtc := rfl
@[simp] theorem State.emit_half (o : Out) : (s.emit o).half = s.half := rfl
@[simp] theorem State.emit_latches (o : Out) : (s.emit o).latches = s.latches := rfl
@[simp] theorem State.emit_horizon (o : Out) : (s.emit o).horizon = s.horizon := rfl
@[simp] theorem State.emit_cutoff (o : Out) : (s.emit o).cutoff = s.cutoff := rfl
@[simp] theorem State.emit_reqs (o : Out) : (s.emit o).reqs = s.reqs := rfl
@[simp] theorem State.emit_portA (o : Out) : (s.emit o).portA = s.portA := rfl
@[simp] theorem State.emit_portB (o : Out) : (s.emit o).portB = s.portB := rfl
@[simp] theorem State.emit_ctxs (o : Out) : (s.emit o).ctxs = s.ctxs := rfl
@[simp] theorem State.emit_streams (o : Out) : (s.emit o).streams = s.streams := rfl
@[simp] theorem State.emit_ops (o : Out) : (s.emit o).ops = s.ops := rfl
@[simp] theorem State.emit_plans (o : Out) : (s.emit o).plans = s.plans := rfl
@[simp] theorem State.emit_banks (o : Out) : (s.emit o).banks = s.banks := rfl
@[simp] theorem State.emit_fcs (o : Out) : (s.emit o).fcs = s.fcs := rfl
@[simp] theorem State.emit_hbs (o : Out) : (s.emit o).hbs = s.hbs := rfl
@[simp] theorem State.emit_coils (o : Out) : (s.emit o).coils = s.coils := rfl
@[simp] theorem State.emit_clps (o : Out) : (s.emit o).clps = s.clps := rfl
@[simp] theorem State.emit_less (o : Out) : (s.emit o).less = s.less := rfl
@[simp] theorem State.emit_fbks (o : Out) : (s.emit o).fbks = s.fbks := rfl
@[simp] theorem State.emit_gdrs (o : Out) : (s.emit o).gdrs = s.gdrs := rfl
@[simp] theorem State.emit_adcs (o : Out) : (s.emit o).adcs = s.adcs := rfl
@[simp] theorem State.emit_ledger (o : Out) : (s.emit o).ledger = s.ledger := rfl
@[simp] theorem State.emit_tbs (o : Out) : (s.emit o).tbs = s.tbs := rfl
@[simp] theorem State.emit_ckg (o : Out) : (s.emit o).ckg = s.ckg := rfl
@[simp] theorem State.emit_pmu (o : Out) : (s.emit o).pmu = s.pmu := rfl
@[simp] theorem State.emit_lcs (o : Out) : (s.emit o).lcs = s.lcs := rfl
@[simp] theorem State.emit_cnd (o : Out) : (s.emit o).cnd = s.cnd := rfl
@[simp] theorem State.emit_freeCtr (o : Out) : (s.emit o).freeCtr = s.freeCtr := rfl
@[simp] theorem State.emit_reg (o : Out) (j : Nat) : (s.emit o).reg j = s.reg j := rfl
@[simp] theorem State.emit_rd (o : Out) (g : Fld) : (s.emit o).rd g = s.rd g := rfl
@[simp] theorem State.emit_flag (o : Out) (g : Fld) : (s.emit o).flag g = s.flag g := rfl

@[simp] theorem State.setPort_pending (p : Port) (x : PortS) : (s.setPort p x).pending = s.pending := by cases p <;> rfl
@[simp] theorem State.setPort_regs (p : Port) (x : PortS) : (s.setPort p x).regs = s.regs := by cases p <;> rfl
@[simp] theorem State.setPort_bufs (p : Port) (x : PortS) : (s.setPort p x).bufs = s.bufs := by cases p <;> rfl
@[simp] theorem State.setPort_dirty (p : Port) (x : PortS) : (s.setPort p x).dirty = s.dirty := by cases p <;> rfl
@[simp] theorem State.setPort_loHeld (p : Port) (x : PortS) : (s.setPort p x).loHeld = s.loHeld := by cases p <;> rfl
@[simp] theorem State.setPort_seqDone (p : Port) (x : PortS) : (s.setPort p x).seqDone = s.seqDone := by cases p <;> rfl
@[simp] theorem State.setPort_cntNow (p : Port) (x : PortS) : (s.setPort p x).cntNow = s.cntNow := by cases p <;> rfl
@[simp] theorem State.setPort_inClk (p : Port) (x : PortS) : (s.setPort p x).inClk = s.inClk := by cases p <;> rfl
@[simp] theorem State.setPort_clk (p : Port) (x : PortS) : (s.setPort p x).clk = s.clk := by cases p <;> rfl
@[simp] theorem State.setPort_gtc (p : Port) (x : PortS) : (s.setPort p x).gtc = s.gtc := by cases p <;> rfl
@[simp] theorem State.setPort_gtcRuns (p : Port) (x : PortS) : (s.setPort p x).gtcRuns = s.gtcRuns := by cases p <;> rfl
@[simp] theorem State.setPort_ticking (p : Port) (x : PortS) : (s.setPort p x).ticking = s.ticking := by cases p <;> rfl
@[simp] theorem State.setPort_tickClk (p : Port) (x : PortS) : (s.setPort p x).tickClk = s.tickClk := by cases p <;> rfl
@[simp] theorem State.setPort_tickGtc (p : Port) (x : PortS) : (s.setPort p x).tickGtc = s.tickGtc := by cases p <;> rfl
@[simp] theorem State.setPort_half (p : Port) (x : PortS) : (s.setPort p x).half = s.half := by cases p <;> rfl
@[simp] theorem State.setPort_latches (p : Port) (x : PortS) : (s.setPort p x).latches = s.latches := by cases p <;> rfl
@[simp] theorem State.setPort_horizon (p : Port) (x : PortS) : (s.setPort p x).horizon = s.horizon := by cases p <;> rfl
@[simp] theorem State.setPort_cutoff (p : Port) (x : PortS) : (s.setPort p x).cutoff = s.cutoff := by cases p <;> rfl
@[simp] theorem State.setPort_reqs (p : Port) (x : PortS) : (s.setPort p x).reqs = s.reqs := by cases p <;> rfl
@[simp] theorem State.setPort_ctxs (p : Port) (x : PortS) : (s.setPort p x).ctxs = s.ctxs := by cases p <;> rfl
@[simp] theorem State.setPort_streams (p : Port) (x : PortS) : (s.setPort p x).streams = s.streams := by cases p <;> rfl
@[simp] theorem State.setPort_sent (p : Port) (x : PortS) : (s.setPort p x).sent = s.sent := by cases p <;> rfl
@[simp] theorem State.setPort_ops (p : Port) (x : PortS) : (s.setPort p x).ops = s.ops := by cases p <;> rfl
@[simp] theorem State.setPort_plans (p : Port) (x : PortS) : (s.setPort p x).plans = s.plans := by cases p <;> rfl
@[simp] theorem State.setPort_banks (p : Port) (x : PortS) : (s.setPort p x).banks = s.banks := by cases p <;> rfl
@[simp] theorem State.setPort_fcs (p : Port) (x : PortS) : (s.setPort p x).fcs = s.fcs := by cases p <;> rfl
@[simp] theorem State.setPort_hbs (p : Port) (x : PortS) : (s.setPort p x).hbs = s.hbs := by cases p <;> rfl
@[simp] theorem State.setPort_coils (p : Port) (x : PortS) : (s.setPort p x).coils = s.coils := by cases p <;> rfl
@[simp] theorem State.setPort_clps (p : Port) (x : PortS) : (s.setPort p x).clps = s.clps := by cases p <;> rfl
@[simp] theorem State.setPort_less (p : Port) (x : PortS) : (s.setPort p x).less = s.less := by cases p <;> rfl
@[simp] theorem State.setPort_fbks (p : Port) (x : PortS) : (s.setPort p x).fbks = s.fbks := by cases p <;> rfl
@[simp] theorem State.setPort_gdrs (p : Port) (x : PortS) : (s.setPort p x).gdrs = s.gdrs := by cases p <;> rfl
@[simp] theorem State.setPort_adcs (p : Port) (x : PortS) : (s.setPort p x).adcs = s.adcs := by cases p <;> rfl
@[simp] theorem State.setPort_ledger (p : Port) (x : PortS) : (s.setPort p x).ledger = s.ledger := by cases p <;> rfl
@[simp] theorem State.setPort_tbs (p : Port) (x : PortS) : (s.setPort p x).tbs = s.tbs := by cases p <;> rfl
@[simp] theorem State.setPort_ckg (p : Port) (x : PortS) : (s.setPort p x).ckg = s.ckg := by cases p <;> rfl
@[simp] theorem State.setPort_pmu (p : Port) (x : PortS) : (s.setPort p x).pmu = s.pmu := by cases p <;> rfl
@[simp] theorem State.setPort_lcs (p : Port) (x : PortS) : (s.setPort p x).lcs = s.lcs := by cases p <;> rfl
@[simp] theorem State.setPort_cnd (p : Port) (x : PortS) : (s.setPort p x).cnd = s.cnd := by cases p <;> rfl
@[simp] theorem State.setPort_freeCtr (p : Port) (x : PortS) : (s.setPort p x).freeCtr = s.freeCtr := by cases p <;> rfl
@[simp] theorem State.setPort_reg (p : Port) (x : PortS) (j : Nat) : (s.setPort p x).reg j = s.reg j := by cases p <;> rfl
@[simp] theorem State.setPort_rd (p : Port) (x : PortS) (g : Fld) : (s.setPort p x).rd g = s.rd g := by cases p <;> rfl
@[simp] theorem State.setPort_flag (p : Port) (x : PortS) (g : Fld) : (s.setPort p x).flag g = s.flag g := by cases p <;> rfl

@[simp] theorem State.setCtx_pending (k : Ctx) (x : CtxS) : (s.setCtx k x).pending = s.pending := rfl
@[simp] theorem State.setCtx_regs (k : Ctx) (x : CtxS) : (s.setCtx k x).regs = s.regs := rfl
@[simp] theorem State.setCtx_bufs (k : Ctx) (x : CtxS) : (s.setCtx k x).bufs = s.bufs := rfl
@[simp] theorem State.setCtx_dirty (k : Ctx) (x : CtxS) : (s.setCtx k x).dirty = s.dirty := rfl
@[simp] theorem State.setCtx_loHeld (k : Ctx) (x : CtxS) : (s.setCtx k x).loHeld = s.loHeld := rfl
@[simp] theorem State.setCtx_seqDone (k : Ctx) (x : CtxS) : (s.setCtx k x).seqDone = s.seqDone := rfl
@[simp] theorem State.setCtx_cntNow (k : Ctx) (x : CtxS) : (s.setCtx k x).cntNow = s.cntNow := rfl
@[simp] theorem State.setCtx_inClk (k : Ctx) (x : CtxS) : (s.setCtx k x).inClk = s.inClk := rfl
@[simp] theorem State.setCtx_clk (k : Ctx) (x : CtxS) : (s.setCtx k x).clk = s.clk := rfl
@[simp] theorem State.setCtx_gtc (k : Ctx) (x : CtxS) : (s.setCtx k x).gtc = s.gtc := rfl
@[simp] theorem State.setCtx_gtcRuns (k : Ctx) (x : CtxS) : (s.setCtx k x).gtcRuns = s.gtcRuns := rfl
@[simp] theorem State.setCtx_ticking (k : Ctx) (x : CtxS) : (s.setCtx k x).ticking = s.ticking := rfl
@[simp] theorem State.setCtx_tickClk (k : Ctx) (x : CtxS) : (s.setCtx k x).tickClk = s.tickClk := rfl
@[simp] theorem State.setCtx_tickGtc (k : Ctx) (x : CtxS) : (s.setCtx k x).tickGtc = s.tickGtc := rfl
@[simp] theorem State.setCtx_half (k : Ctx) (x : CtxS) : (s.setCtx k x).half = s.half := rfl
@[simp] theorem State.setCtx_latches (k : Ctx) (x : CtxS) : (s.setCtx k x).latches = s.latches := rfl
@[simp] theorem State.setCtx_horizon (k : Ctx) (x : CtxS) : (s.setCtx k x).horizon = s.horizon := rfl
@[simp] theorem State.setCtx_cutoff (k : Ctx) (x : CtxS) : (s.setCtx k x).cutoff = s.cutoff := rfl
@[simp] theorem State.setCtx_reqs (k : Ctx) (x : CtxS) : (s.setCtx k x).reqs = s.reqs := rfl
@[simp] theorem State.setCtx_portA (k : Ctx) (x : CtxS) : (s.setCtx k x).portA = s.portA := rfl
@[simp] theorem State.setCtx_portB (k : Ctx) (x : CtxS) : (s.setCtx k x).portB = s.portB := rfl
@[simp] theorem State.setCtx_streams (k : Ctx) (x : CtxS) : (s.setCtx k x).streams = s.streams := rfl
@[simp] theorem State.setCtx_sent (k : Ctx) (x : CtxS) : (s.setCtx k x).sent = s.sent := rfl
@[simp] theorem State.setCtx_ops (k : Ctx) (x : CtxS) : (s.setCtx k x).ops = s.ops := rfl
@[simp] theorem State.setCtx_plans (k : Ctx) (x : CtxS) : (s.setCtx k x).plans = s.plans := rfl
@[simp] theorem State.setCtx_banks (k : Ctx) (x : CtxS) : (s.setCtx k x).banks = s.banks := rfl
@[simp] theorem State.setCtx_fcs (k : Ctx) (x : CtxS) : (s.setCtx k x).fcs = s.fcs := rfl
@[simp] theorem State.setCtx_hbs (k : Ctx) (x : CtxS) : (s.setCtx k x).hbs = s.hbs := rfl
@[simp] theorem State.setCtx_coils (k : Ctx) (x : CtxS) : (s.setCtx k x).coils = s.coils := rfl
@[simp] theorem State.setCtx_clps (k : Ctx) (x : CtxS) : (s.setCtx k x).clps = s.clps := rfl
@[simp] theorem State.setCtx_less (k : Ctx) (x : CtxS) : (s.setCtx k x).less = s.less := rfl
@[simp] theorem State.setCtx_fbks (k : Ctx) (x : CtxS) : (s.setCtx k x).fbks = s.fbks := rfl
@[simp] theorem State.setCtx_gdrs (k : Ctx) (x : CtxS) : (s.setCtx k x).gdrs = s.gdrs := rfl
@[simp] theorem State.setCtx_adcs (k : Ctx) (x : CtxS) : (s.setCtx k x).adcs = s.adcs := rfl
@[simp] theorem State.setCtx_ledger (k : Ctx) (x : CtxS) : (s.setCtx k x).ledger = s.ledger := rfl
@[simp] theorem State.setCtx_tbs (k : Ctx) (x : CtxS) : (s.setCtx k x).tbs = s.tbs := rfl
@[simp] theorem State.setCtx_ckg (k : Ctx) (x : CtxS) : (s.setCtx k x).ckg = s.ckg := rfl
@[simp] theorem State.setCtx_pmu (k : Ctx) (x : CtxS) : (s.setCtx k x).pmu = s.pmu := rfl
@[simp] theorem State.setCtx_lcs (k : Ctx) (x : CtxS) : (s.setCtx k x).lcs = s.lcs := rfl
@[simp] theorem State.setCtx_cnd (k : Ctx) (x : CtxS) : (s.setCtx k x).cnd = s.cnd := rfl
@[simp] theorem State.setCtx_freeCtr (k : Ctx) (x : CtxS) : (s.setCtx k x).freeCtr = s.freeCtr := rfl
@[simp] theorem State.setCtx_reg (k : Ctx) (x : CtxS) (j : Nat) : (s.setCtx k x).reg j = s.reg j := rfl
@[simp] theorem State.setCtx_rd (k : Ctx) (x : CtxS) (g : Fld) : (s.setCtx k x).rd g = s.rd g := rfl
@[simp] theorem State.setCtx_flag (k : Ctx) (x : CtxS) (g : Fld) : (s.setCtx k x).flag g = s.flag g := rfl

@[simp] theorem State.setPlan_pending (n : Axis) (x : AxisPlan) : (s.setPlan n x).pending = s.pending := rfl
@[simp] theorem State.setPlan_regs (n : Axis) (x : AxisPlan) : (s.setPlan n x).regs = s.regs := rfl
@[simp] theorem State.setPlan_bufs (n : Axis) (x : AxisPlan) : (s.setPlan n x).bufs = s.bufs := rfl
@[simp] theorem State.setPlan_dirty (n : Axis) (x : AxisPlan) : (s.setPlan n x).dirty = s.dirty := rfl
@[simp] theorem State.setPlan_loHeld (n : Axis) (x : AxisPlan) : (s.setPlan n x).loHeld = s.loHeld := rfl
@[simp] theorem State.setPlan_seqDone (n : Axis) (x : AxisPlan) : (s.setPlan n x).seqDone = s.seqDone := rfl
@[simp] theorem State.setPlan_cntNow (n : Axis) (x : AxisPlan) : (s.setPlan n x).cntNow = s.cntNow := rfl
@[simp] theorem State.setPlan_inClk (n : Axis) (x : AxisPlan) : (s.setPlan n x).inClk = s.inClk := rfl
@[simp] theorem State.setPlan_clk (n : Axis) (x : AxisPlan) : (s.setPlan n x).clk = s.clk := rfl
@[simp] theorem State.setPlan_gtc (n : Axis) (x : AxisPlan) : (s.setPlan n x).gtc = s.gtc := rfl
@[simp] theorem State.setPlan_gtcRuns (n : Axis) (x : AxisPlan) : (s.setPlan n x).gtcRuns = s.gtcRuns := rfl
@[simp] theorem State.setPlan_ticking (n : Axis) (x : AxisPlan) : (s.setPlan n x).ticking = s.ticking := rfl
@[simp] theorem State.setPlan_tickClk (n : Axis) (x : AxisPlan) : (s.setPlan n x).tickClk = s.tickClk := rfl
@[simp] theorem State.setPlan_tickGtc (n : Axis) (x : AxisPlan) : (s.setPlan n x).tickGtc = s.tickGtc := rfl
@[simp] theorem State.setPlan_half (n : Axis) (x : AxisPlan) : (s.setPlan n x).half = s.half := rfl
@[simp] theorem State.setPlan_latches (n : Axis) (x : AxisPlan) : (s.setPlan n x).latches = s.latches := rfl
@[simp] theorem State.setPlan_horizon (n : Axis) (x : AxisPlan) : (s.setPlan n x).horizon = s.horizon := rfl
@[simp] theorem State.setPlan_cutoff (n : Axis) (x : AxisPlan) : (s.setPlan n x).cutoff = s.cutoff := rfl
@[simp] theorem State.setPlan_reqs (n : Axis) (x : AxisPlan) : (s.setPlan n x).reqs = s.reqs := rfl
@[simp] theorem State.setPlan_portA (n : Axis) (x : AxisPlan) : (s.setPlan n x).portA = s.portA := rfl
@[simp] theorem State.setPlan_portB (n : Axis) (x : AxisPlan) : (s.setPlan n x).portB = s.portB := rfl
@[simp] theorem State.setPlan_ctxs (n : Axis) (x : AxisPlan) : (s.setPlan n x).ctxs = s.ctxs := rfl
@[simp] theorem State.setPlan_streams (n : Axis) (x : AxisPlan) : (s.setPlan n x).streams = s.streams := rfl
@[simp] theorem State.setPlan_sent (n : Axis) (x : AxisPlan) : (s.setPlan n x).sent = s.sent := rfl
@[simp] theorem State.setPlan_ops (n : Axis) (x : AxisPlan) : (s.setPlan n x).ops = s.ops := rfl
@[simp] theorem State.setPlan_banks (n : Axis) (x : AxisPlan) : (s.setPlan n x).banks = s.banks := rfl
@[simp] theorem State.setPlan_fcs (n : Axis) (x : AxisPlan) : (s.setPlan n x).fcs = s.fcs := rfl
@[simp] theorem State.setPlan_hbs (n : Axis) (x : AxisPlan) : (s.setPlan n x).hbs = s.hbs := rfl
@[simp] theorem State.setPlan_coils (n : Axis) (x : AxisPlan) : (s.setPlan n x).coils = s.coils := rfl
@[simp] theorem State.setPlan_clps (n : Axis) (x : AxisPlan) : (s.setPlan n x).clps = s.clps := rfl
@[simp] theorem State.setPlan_less (n : Axis) (x : AxisPlan) : (s.setPlan n x).less = s.less := rfl
@[simp] theorem State.setPlan_fbks (n : Axis) (x : AxisPlan) : (s.setPlan n x).fbks = s.fbks := rfl
@[simp] theorem State.setPlan_gdrs (n : Axis) (x : AxisPlan) : (s.setPlan n x).gdrs = s.gdrs := rfl
@[simp] theorem State.setPlan_adcs (n : Axis) (x : AxisPlan) : (s.setPlan n x).adcs = s.adcs := rfl
@[simp] theorem State.setPlan_ledger (n : Axis) (x : AxisPlan) : (s.setPlan n x).ledger = s.ledger := rfl
@[simp] theorem State.setPlan_tbs (n : Axis) (x : AxisPlan) : (s.setPlan n x).tbs = s.tbs := rfl
@[simp] theorem State.setPlan_ckg (n : Axis) (x : AxisPlan) : (s.setPlan n x).ckg = s.ckg := rfl
@[simp] theorem State.setPlan_pmu (n : Axis) (x : AxisPlan) : (s.setPlan n x).pmu = s.pmu := rfl
@[simp] theorem State.setPlan_lcs (n : Axis) (x : AxisPlan) : (s.setPlan n x).lcs = s.lcs := rfl
@[simp] theorem State.setPlan_cnd (n : Axis) (x : AxisPlan) : (s.setPlan n x).cnd = s.cnd := rfl
@[simp] theorem State.setPlan_freeCtr (n : Axis) (x : AxisPlan) : (s.setPlan n x).freeCtr = s.freeCtr := rfl
@[simp] theorem State.setPlan_reg (n : Axis) (x : AxisPlan) (j : Nat) : (s.setPlan n x).reg j = s.reg j := rfl
@[simp] theorem State.setPlan_rd (n : Axis) (x : AxisPlan) (g : Fld) : (s.setPlan n x).rd g = s.rd g := rfl
@[simp] theorem State.setPlan_flag (n : Axis) (x : AxisPlan) (g : Fld) : (s.setPlan n x).flag g = s.flag g := rfl

@[simp] theorem State.setStream_pending (i : Fin 8) (x : StreamS) : (s.setStream i x).pending = s.pending := rfl
@[simp] theorem State.setStream_regs (i : Fin 8) (x : StreamS) : (s.setStream i x).regs = s.regs := rfl
@[simp] theorem State.setStream_bufs (i : Fin 8) (x : StreamS) : (s.setStream i x).bufs = s.bufs := rfl
@[simp] theorem State.setStream_dirty (i : Fin 8) (x : StreamS) : (s.setStream i x).dirty = s.dirty := rfl
@[simp] theorem State.setStream_loHeld (i : Fin 8) (x : StreamS) : (s.setStream i x).loHeld = s.loHeld := rfl
@[simp] theorem State.setStream_seqDone (i : Fin 8) (x : StreamS) : (s.setStream i x).seqDone = s.seqDone := rfl
@[simp] theorem State.setStream_cntNow (i : Fin 8) (x : StreamS) : (s.setStream i x).cntNow = s.cntNow := rfl
@[simp] theorem State.setStream_inClk (i : Fin 8) (x : StreamS) : (s.setStream i x).inClk = s.inClk := rfl
@[simp] theorem State.setStream_clk (i : Fin 8) (x : StreamS) : (s.setStream i x).clk = s.clk := rfl
@[simp] theorem State.setStream_gtc (i : Fin 8) (x : StreamS) : (s.setStream i x).gtc = s.gtc := rfl
@[simp] theorem State.setStream_gtcRuns (i : Fin 8) (x : StreamS) : (s.setStream i x).gtcRuns = s.gtcRuns := rfl
@[simp] theorem State.setStream_ticking (i : Fin 8) (x : StreamS) : (s.setStream i x).ticking = s.ticking := rfl
@[simp] theorem State.setStream_tickClk (i : Fin 8) (x : StreamS) : (s.setStream i x).tickClk = s.tickClk := rfl
@[simp] theorem State.setStream_tickGtc (i : Fin 8) (x : StreamS) : (s.setStream i x).tickGtc = s.tickGtc := rfl
@[simp] theorem State.setStream_half (i : Fin 8) (x : StreamS) : (s.setStream i x).half = s.half := rfl
@[simp] theorem State.setStream_latches (i : Fin 8) (x : StreamS) : (s.setStream i x).latches = s.latches := rfl
@[simp] theorem State.setStream_horizon (i : Fin 8) (x : StreamS) : (s.setStream i x).horizon = s.horizon := rfl
@[simp] theorem State.setStream_cutoff (i : Fin 8) (x : StreamS) : (s.setStream i x).cutoff = s.cutoff := rfl
@[simp] theorem State.setStream_reqs (i : Fin 8) (x : StreamS) : (s.setStream i x).reqs = s.reqs := rfl
@[simp] theorem State.setStream_portA (i : Fin 8) (x : StreamS) : (s.setStream i x).portA = s.portA := rfl
@[simp] theorem State.setStream_portB (i : Fin 8) (x : StreamS) : (s.setStream i x).portB = s.portB := rfl
@[simp] theorem State.setStream_ctxs (i : Fin 8) (x : StreamS) : (s.setStream i x).ctxs = s.ctxs := rfl
@[simp] theorem State.setStream_sent (i : Fin 8) (x : StreamS) : (s.setStream i x).sent = s.sent := rfl
@[simp] theorem State.setStream_ops (i : Fin 8) (x : StreamS) : (s.setStream i x).ops = s.ops := rfl
@[simp] theorem State.setStream_plans (i : Fin 8) (x : StreamS) : (s.setStream i x).plans = s.plans := rfl
@[simp] theorem State.setStream_banks (i : Fin 8) (x : StreamS) : (s.setStream i x).banks = s.banks := rfl
@[simp] theorem State.setStream_fcs (i : Fin 8) (x : StreamS) : (s.setStream i x).fcs = s.fcs := rfl
@[simp] theorem State.setStream_hbs (i : Fin 8) (x : StreamS) : (s.setStream i x).hbs = s.hbs := rfl
@[simp] theorem State.setStream_coils (i : Fin 8) (x : StreamS) : (s.setStream i x).coils = s.coils := rfl
@[simp] theorem State.setStream_clps (i : Fin 8) (x : StreamS) : (s.setStream i x).clps = s.clps := rfl
@[simp] theorem State.setStream_less (i : Fin 8) (x : StreamS) : (s.setStream i x).less = s.less := rfl
@[simp] theorem State.setStream_fbks (i : Fin 8) (x : StreamS) : (s.setStream i x).fbks = s.fbks := rfl
@[simp] theorem State.setStream_gdrs (i : Fin 8) (x : StreamS) : (s.setStream i x).gdrs = s.gdrs := rfl
@[simp] theorem State.setStream_adcs (i : Fin 8) (x : StreamS) : (s.setStream i x).adcs = s.adcs := rfl
@[simp] theorem State.setStream_ledger (i : Fin 8) (x : StreamS) : (s.setStream i x).ledger = s.ledger := rfl
@[simp] theorem State.setStream_tbs (i : Fin 8) (x : StreamS) : (s.setStream i x).tbs = s.tbs := rfl
@[simp] theorem State.setStream_ckg (i : Fin 8) (x : StreamS) : (s.setStream i x).ckg = s.ckg := rfl
@[simp] theorem State.setStream_pmu (i : Fin 8) (x : StreamS) : (s.setStream i x).pmu = s.pmu := rfl
@[simp] theorem State.setStream_lcs (i : Fin 8) (x : StreamS) : (s.setStream i x).lcs = s.lcs := rfl
@[simp] theorem State.setStream_cnd (i : Fin 8) (x : StreamS) : (s.setStream i x).cnd = s.cnd := rfl
@[simp] theorem State.setStream_freeCtr (i : Fin 8) (x : StreamS) : (s.setStream i x).freeCtr = s.freeCtr := rfl
@[simp] theorem State.setStream_reg (i : Fin 8) (x : StreamS) (j : Nat) : (s.setStream i x).reg j = s.reg j := rfl
@[simp] theorem State.setStream_rd (i : Fin 8) (x : StreamS) (g : Fld) : (s.setStream i x).rd g = s.rd g := rfl
@[simp] theorem State.setStream_flag (i : Fin 8) (x : StreamS) (g : Fld) : (s.setStream i x).flag g = s.flag g := rfl

@[simp] theorem State.setBank_pending (b : Bank) (x : BankS) : (s.setBank b x).pending = s.pending := rfl
@[simp] theorem State.setBank_regs (b : Bank) (x : BankS) : (s.setBank b x).regs = s.regs := rfl
@[simp] theorem State.setBank_bufs (b : Bank) (x : BankS) : (s.setBank b x).bufs = s.bufs := rfl
@[simp] theorem State.setBank_dirty (b : Bank) (x : BankS) : (s.setBank b x).dirty = s.dirty := rfl
@[simp] theorem State.setBank_loHeld (b : Bank) (x : BankS) : (s.setBank b x).loHeld = s.loHeld := rfl
@[simp] theorem State.setBank_seqDone (b : Bank) (x : BankS) : (s.setBank b x).seqDone = s.seqDone := rfl
@[simp] theorem State.setBank_cntNow (b : Bank) (x : BankS) : (s.setBank b x).cntNow = s.cntNow := rfl
@[simp] theorem State.setBank_inClk (b : Bank) (x : BankS) : (s.setBank b x).inClk = s.inClk := rfl
@[simp] theorem State.setBank_clk (b : Bank) (x : BankS) : (s.setBank b x).clk = s.clk := rfl
@[simp] theorem State.setBank_gtc (b : Bank) (x : BankS) : (s.setBank b x).gtc = s.gtc := rfl
@[simp] theorem State.setBank_gtcRuns (b : Bank) (x : BankS) : (s.setBank b x).gtcRuns = s.gtcRuns := rfl
@[simp] theorem State.setBank_ticking (b : Bank) (x : BankS) : (s.setBank b x).ticking = s.ticking := rfl
@[simp] theorem State.setBank_tickClk (b : Bank) (x : BankS) : (s.setBank b x).tickClk = s.tickClk := rfl
@[simp] theorem State.setBank_tickGtc (b : Bank) (x : BankS) : (s.setBank b x).tickGtc = s.tickGtc := rfl
@[simp] theorem State.setBank_half (b : Bank) (x : BankS) : (s.setBank b x).half = s.half := rfl
@[simp] theorem State.setBank_latches (b : Bank) (x : BankS) : (s.setBank b x).latches = s.latches := rfl
@[simp] theorem State.setBank_horizon (b : Bank) (x : BankS) : (s.setBank b x).horizon = s.horizon := rfl
@[simp] theorem State.setBank_cutoff (b : Bank) (x : BankS) : (s.setBank b x).cutoff = s.cutoff := rfl
@[simp] theorem State.setBank_reqs (b : Bank) (x : BankS) : (s.setBank b x).reqs = s.reqs := rfl
@[simp] theorem State.setBank_portA (b : Bank) (x : BankS) : (s.setBank b x).portA = s.portA := rfl
@[simp] theorem State.setBank_portB (b : Bank) (x : BankS) : (s.setBank b x).portB = s.portB := rfl
@[simp] theorem State.setBank_ctxs (b : Bank) (x : BankS) : (s.setBank b x).ctxs = s.ctxs := rfl
@[simp] theorem State.setBank_streams (b : Bank) (x : BankS) : (s.setBank b x).streams = s.streams := rfl
@[simp] theorem State.setBank_sent (b : Bank) (x : BankS) : (s.setBank b x).sent = s.sent := rfl
@[simp] theorem State.setBank_ops (b : Bank) (x : BankS) : (s.setBank b x).ops = s.ops := rfl
@[simp] theorem State.setBank_plans (b : Bank) (x : BankS) : (s.setBank b x).plans = s.plans := rfl
@[simp] theorem State.setBank_fcs (b : Bank) (x : BankS) : (s.setBank b x).fcs = s.fcs := rfl
@[simp] theorem State.setBank_hbs (b : Bank) (x : BankS) : (s.setBank b x).hbs = s.hbs := rfl
@[simp] theorem State.setBank_coils (b : Bank) (x : BankS) : (s.setBank b x).coils = s.coils := rfl
@[simp] theorem State.setBank_clps (b : Bank) (x : BankS) : (s.setBank b x).clps = s.clps := rfl
@[simp] theorem State.setBank_less (b : Bank) (x : BankS) : (s.setBank b x).less = s.less := rfl
@[simp] theorem State.setBank_fbks (b : Bank) (x : BankS) : (s.setBank b x).fbks = s.fbks := rfl
@[simp] theorem State.setBank_gdrs (b : Bank) (x : BankS) : (s.setBank b x).gdrs = s.gdrs := rfl
@[simp] theorem State.setBank_adcs (b : Bank) (x : BankS) : (s.setBank b x).adcs = s.adcs := rfl
@[simp] theorem State.setBank_ledger (b : Bank) (x : BankS) : (s.setBank b x).ledger = s.ledger := rfl
@[simp] theorem State.setBank_tbs (b : Bank) (x : BankS) : (s.setBank b x).tbs = s.tbs := rfl
@[simp] theorem State.setBank_ckg (b : Bank) (x : BankS) : (s.setBank b x).ckg = s.ckg := rfl
@[simp] theorem State.setBank_pmu (b : Bank) (x : BankS) : (s.setBank b x).pmu = s.pmu := rfl
@[simp] theorem State.setBank_lcs (b : Bank) (x : BankS) : (s.setBank b x).lcs = s.lcs := rfl
@[simp] theorem State.setBank_cnd (b : Bank) (x : BankS) : (s.setBank b x).cnd = s.cnd := rfl
@[simp] theorem State.setBank_freeCtr (b : Bank) (x : BankS) : (s.setBank b x).freeCtr = s.freeCtr := rfl
@[simp] theorem State.setBank_reg (b : Bank) (x : BankS) (j : Nat) : (s.setBank b x).reg j = s.reg j := rfl
@[simp] theorem State.setBank_rd (b : Bank) (x : BankS) (g : Fld) : (s.setBank b x).rd g = s.rd g := rfl
@[simp] theorem State.setBank_flag (b : Bank) (x : BankS) (g : Fld) : (s.setBank b x).flag g = s.flag g := rfl

@[simp] theorem State.setHb_pending (h : HalfBridge) (x : HbS) : (s.setHb h x).pending = s.pending := rfl
@[simp] theorem State.setHb_regs (h : HalfBridge) (x : HbS) : (s.setHb h x).regs = s.regs := rfl
@[simp] theorem State.setHb_bufs (h : HalfBridge) (x : HbS) : (s.setHb h x).bufs = s.bufs := rfl
@[simp] theorem State.setHb_dirty (h : HalfBridge) (x : HbS) : (s.setHb h x).dirty = s.dirty := rfl
@[simp] theorem State.setHb_loHeld (h : HalfBridge) (x : HbS) : (s.setHb h x).loHeld = s.loHeld := rfl
@[simp] theorem State.setHb_seqDone (h : HalfBridge) (x : HbS) : (s.setHb h x).seqDone = s.seqDone := rfl
@[simp] theorem State.setHb_cntNow (h : HalfBridge) (x : HbS) : (s.setHb h x).cntNow = s.cntNow := rfl
@[simp] theorem State.setHb_inClk (h : HalfBridge) (x : HbS) : (s.setHb h x).inClk = s.inClk := rfl
@[simp] theorem State.setHb_clk (h : HalfBridge) (x : HbS) : (s.setHb h x).clk = s.clk := rfl
@[simp] theorem State.setHb_gtc (h : HalfBridge) (x : HbS) : (s.setHb h x).gtc = s.gtc := rfl
@[simp] theorem State.setHb_gtcRuns (h : HalfBridge) (x : HbS) : (s.setHb h x).gtcRuns = s.gtcRuns := rfl
@[simp] theorem State.setHb_ticking (h : HalfBridge) (x : HbS) : (s.setHb h x).ticking = s.ticking := rfl
@[simp] theorem State.setHb_tickClk (h : HalfBridge) (x : HbS) : (s.setHb h x).tickClk = s.tickClk := rfl
@[simp] theorem State.setHb_tickGtc (h : HalfBridge) (x : HbS) : (s.setHb h x).tickGtc = s.tickGtc := rfl
@[simp] theorem State.setHb_half (h : HalfBridge) (x : HbS) : (s.setHb h x).half = s.half := rfl
@[simp] theorem State.setHb_latches (h : HalfBridge) (x : HbS) : (s.setHb h x).latches = s.latches := rfl
@[simp] theorem State.setHb_horizon (h : HalfBridge) (x : HbS) : (s.setHb h x).horizon = s.horizon := rfl
@[simp] theorem State.setHb_cutoff (h : HalfBridge) (x : HbS) : (s.setHb h x).cutoff = s.cutoff := rfl
@[simp] theorem State.setHb_reqs (h : HalfBridge) (x : HbS) : (s.setHb h x).reqs = s.reqs := rfl
@[simp] theorem State.setHb_portA (h : HalfBridge) (x : HbS) : (s.setHb h x).portA = s.portA := rfl
@[simp] theorem State.setHb_portB (h : HalfBridge) (x : HbS) : (s.setHb h x).portB = s.portB := rfl
@[simp] theorem State.setHb_ctxs (h : HalfBridge) (x : HbS) : (s.setHb h x).ctxs = s.ctxs := rfl
@[simp] theorem State.setHb_streams (h : HalfBridge) (x : HbS) : (s.setHb h x).streams = s.streams := rfl
@[simp] theorem State.setHb_sent (h : HalfBridge) (x : HbS) : (s.setHb h x).sent = s.sent := rfl
@[simp] theorem State.setHb_ops (h : HalfBridge) (x : HbS) : (s.setHb h x).ops = s.ops := rfl
@[simp] theorem State.setHb_plans (h : HalfBridge) (x : HbS) : (s.setHb h x).plans = s.plans := rfl
@[simp] theorem State.setHb_banks (h : HalfBridge) (x : HbS) : (s.setHb h x).banks = s.banks := rfl
@[simp] theorem State.setHb_fcs (h : HalfBridge) (x : HbS) : (s.setHb h x).fcs = s.fcs := rfl
@[simp] theorem State.setHb_coils (h : HalfBridge) (x : HbS) : (s.setHb h x).coils = s.coils := rfl
@[simp] theorem State.setHb_clps (h : HalfBridge) (x : HbS) : (s.setHb h x).clps = s.clps := rfl
@[simp] theorem State.setHb_less (h : HalfBridge) (x : HbS) : (s.setHb h x).less = s.less := rfl
@[simp] theorem State.setHb_fbks (h : HalfBridge) (x : HbS) : (s.setHb h x).fbks = s.fbks := rfl
@[simp] theorem State.setHb_gdrs (h : HalfBridge) (x : HbS) : (s.setHb h x).gdrs = s.gdrs := rfl
@[simp] theorem State.setHb_adcs (h : HalfBridge) (x : HbS) : (s.setHb h x).adcs = s.adcs := rfl
@[simp] theorem State.setHb_ledger (h : HalfBridge) (x : HbS) : (s.setHb h x).ledger = s.ledger := rfl
@[simp] theorem State.setHb_tbs (h : HalfBridge) (x : HbS) : (s.setHb h x).tbs = s.tbs := rfl
@[simp] theorem State.setHb_ckg (h : HalfBridge) (x : HbS) : (s.setHb h x).ckg = s.ckg := rfl
@[simp] theorem State.setHb_pmu (h : HalfBridge) (x : HbS) : (s.setHb h x).pmu = s.pmu := rfl
@[simp] theorem State.setHb_lcs (h : HalfBridge) (x : HbS) : (s.setHb h x).lcs = s.lcs := rfl
@[simp] theorem State.setHb_cnd (h : HalfBridge) (x : HbS) : (s.setHb h x).cnd = s.cnd := rfl
@[simp] theorem State.setHb_freeCtr (h : HalfBridge) (x : HbS) : (s.setHb h x).freeCtr = s.freeCtr := rfl
@[simp] theorem State.setHb_reg (h : HalfBridge) (x : HbS) (j : Nat) : (s.setHb h x).reg j = s.reg j := rfl
@[simp] theorem State.setHb_rd (h : HalfBridge) (x : HbS) (g : Fld) : (s.setHb h x).rd g = s.rd g := rfl
@[simp] theorem State.setHb_flag (h : HalfBridge) (x : HbS) (g : Fld) : (s.setHb h x).flag g = s.flag g := rfl

@[simp] theorem State.setCoil_pending (p : Coil) (x : CoilS) : (s.setCoil p x).pending = s.pending := rfl
@[simp] theorem State.setCoil_regs (p : Coil) (x : CoilS) : (s.setCoil p x).regs = s.regs := rfl
@[simp] theorem State.setCoil_bufs (p : Coil) (x : CoilS) : (s.setCoil p x).bufs = s.bufs := rfl
@[simp] theorem State.setCoil_dirty (p : Coil) (x : CoilS) : (s.setCoil p x).dirty = s.dirty := rfl
@[simp] theorem State.setCoil_loHeld (p : Coil) (x : CoilS) : (s.setCoil p x).loHeld = s.loHeld := rfl
@[simp] theorem State.setCoil_seqDone (p : Coil) (x : CoilS) : (s.setCoil p x).seqDone = s.seqDone := rfl
@[simp] theorem State.setCoil_cntNow (p : Coil) (x : CoilS) : (s.setCoil p x).cntNow = s.cntNow := rfl
@[simp] theorem State.setCoil_inClk (p : Coil) (x : CoilS) : (s.setCoil p x).inClk = s.inClk := rfl
@[simp] theorem State.setCoil_clk (p : Coil) (x : CoilS) : (s.setCoil p x).clk = s.clk := rfl
@[simp] theorem State.setCoil_gtc (p : Coil) (x : CoilS) : (s.setCoil p x).gtc = s.gtc := rfl
@[simp] theorem State.setCoil_gtcRuns (p : Coil) (x : CoilS) : (s.setCoil p x).gtcRuns = s.gtcRuns := rfl
@[simp] theorem State.setCoil_ticking (p : Coil) (x : CoilS) : (s.setCoil p x).ticking = s.ticking := rfl
@[simp] theorem State.setCoil_tickClk (p : Coil) (x : CoilS) : (s.setCoil p x).tickClk = s.tickClk := rfl
@[simp] theorem State.setCoil_tickGtc (p : Coil) (x : CoilS) : (s.setCoil p x).tickGtc = s.tickGtc := rfl
@[simp] theorem State.setCoil_half (p : Coil) (x : CoilS) : (s.setCoil p x).half = s.half := rfl
@[simp] theorem State.setCoil_latches (p : Coil) (x : CoilS) : (s.setCoil p x).latches = s.latches := rfl
@[simp] theorem State.setCoil_horizon (p : Coil) (x : CoilS) : (s.setCoil p x).horizon = s.horizon := rfl
@[simp] theorem State.setCoil_cutoff (p : Coil) (x : CoilS) : (s.setCoil p x).cutoff = s.cutoff := rfl
@[simp] theorem State.setCoil_reqs (p : Coil) (x : CoilS) : (s.setCoil p x).reqs = s.reqs := rfl
@[simp] theorem State.setCoil_portA (p : Coil) (x : CoilS) : (s.setCoil p x).portA = s.portA := rfl
@[simp] theorem State.setCoil_portB (p : Coil) (x : CoilS) : (s.setCoil p x).portB = s.portB := rfl
@[simp] theorem State.setCoil_ctxs (p : Coil) (x : CoilS) : (s.setCoil p x).ctxs = s.ctxs := rfl
@[simp] theorem State.setCoil_streams (p : Coil) (x : CoilS) : (s.setCoil p x).streams = s.streams := rfl
@[simp] theorem State.setCoil_sent (p : Coil) (x : CoilS) : (s.setCoil p x).sent = s.sent := rfl
@[simp] theorem State.setCoil_ops (p : Coil) (x : CoilS) : (s.setCoil p x).ops = s.ops := rfl
@[simp] theorem State.setCoil_plans (p : Coil) (x : CoilS) : (s.setCoil p x).plans = s.plans := rfl
@[simp] theorem State.setCoil_banks (p : Coil) (x : CoilS) : (s.setCoil p x).banks = s.banks := rfl
@[simp] theorem State.setCoil_fcs (p : Coil) (x : CoilS) : (s.setCoil p x).fcs = s.fcs := rfl
@[simp] theorem State.setCoil_hbs (p : Coil) (x : CoilS) : (s.setCoil p x).hbs = s.hbs := rfl
@[simp] theorem State.setCoil_clps (p : Coil) (x : CoilS) : (s.setCoil p x).clps = s.clps := rfl
@[simp] theorem State.setCoil_less (p : Coil) (x : CoilS) : (s.setCoil p x).less = s.less := rfl
@[simp] theorem State.setCoil_fbks (p : Coil) (x : CoilS) : (s.setCoil p x).fbks = s.fbks := rfl
@[simp] theorem State.setCoil_gdrs (p : Coil) (x : CoilS) : (s.setCoil p x).gdrs = s.gdrs := rfl
@[simp] theorem State.setCoil_adcs (p : Coil) (x : CoilS) : (s.setCoil p x).adcs = s.adcs := rfl
@[simp] theorem State.setCoil_ledger (p : Coil) (x : CoilS) : (s.setCoil p x).ledger = s.ledger := rfl
@[simp] theorem State.setCoil_tbs (p : Coil) (x : CoilS) : (s.setCoil p x).tbs = s.tbs := rfl
@[simp] theorem State.setCoil_ckg (p : Coil) (x : CoilS) : (s.setCoil p x).ckg = s.ckg := rfl
@[simp] theorem State.setCoil_pmu (p : Coil) (x : CoilS) : (s.setCoil p x).pmu = s.pmu := rfl
@[simp] theorem State.setCoil_lcs (p : Coil) (x : CoilS) : (s.setCoil p x).lcs = s.lcs := rfl
@[simp] theorem State.setCoil_cnd (p : Coil) (x : CoilS) : (s.setCoil p x).cnd = s.cnd := rfl
@[simp] theorem State.setCoil_freeCtr (p : Coil) (x : CoilS) : (s.setCoil p x).freeCtr = s.freeCtr := rfl
@[simp] theorem State.setCoil_reg (p : Coil) (x : CoilS) (j : Nat) : (s.setCoil p x).reg j = s.reg j := rfl
@[simp] theorem State.setCoil_rd (p : Coil) (x : CoilS) (g : Fld) : (s.setCoil p x).rd g = s.rd g := rfl
@[simp] theorem State.setCoil_flag (p : Coil) (x : CoilS) (g : Fld) : (s.setCoil p x).flag g = s.flag g := rfl

@[simp] theorem State.setClp_pending (n : Axis) (x : ClpS) : (s.setClp n x).pending = s.pending := rfl
@[simp] theorem State.setClp_regs (n : Axis) (x : ClpS) : (s.setClp n x).regs = s.regs := rfl
@[simp] theorem State.setClp_bufs (n : Axis) (x : ClpS) : (s.setClp n x).bufs = s.bufs := rfl
@[simp] theorem State.setClp_dirty (n : Axis) (x : ClpS) : (s.setClp n x).dirty = s.dirty := rfl
@[simp] theorem State.setClp_loHeld (n : Axis) (x : ClpS) : (s.setClp n x).loHeld = s.loHeld := rfl
@[simp] theorem State.setClp_seqDone (n : Axis) (x : ClpS) : (s.setClp n x).seqDone = s.seqDone := rfl
@[simp] theorem State.setClp_cntNow (n : Axis) (x : ClpS) : (s.setClp n x).cntNow = s.cntNow := rfl
@[simp] theorem State.setClp_inClk (n : Axis) (x : ClpS) : (s.setClp n x).inClk = s.inClk := rfl
@[simp] theorem State.setClp_clk (n : Axis) (x : ClpS) : (s.setClp n x).clk = s.clk := rfl
@[simp] theorem State.setClp_gtc (n : Axis) (x : ClpS) : (s.setClp n x).gtc = s.gtc := rfl
@[simp] theorem State.setClp_gtcRuns (n : Axis) (x : ClpS) : (s.setClp n x).gtcRuns = s.gtcRuns := rfl
@[simp] theorem State.setClp_ticking (n : Axis) (x : ClpS) : (s.setClp n x).ticking = s.ticking := rfl
@[simp] theorem State.setClp_tickClk (n : Axis) (x : ClpS) : (s.setClp n x).tickClk = s.tickClk := rfl
@[simp] theorem State.setClp_tickGtc (n : Axis) (x : ClpS) : (s.setClp n x).tickGtc = s.tickGtc := rfl
@[simp] theorem State.setClp_half (n : Axis) (x : ClpS) : (s.setClp n x).half = s.half := rfl
@[simp] theorem State.setClp_latches (n : Axis) (x : ClpS) : (s.setClp n x).latches = s.latches := rfl
@[simp] theorem State.setClp_horizon (n : Axis) (x : ClpS) : (s.setClp n x).horizon = s.horizon := rfl
@[simp] theorem State.setClp_cutoff (n : Axis) (x : ClpS) : (s.setClp n x).cutoff = s.cutoff := rfl
@[simp] theorem State.setClp_reqs (n : Axis) (x : ClpS) : (s.setClp n x).reqs = s.reqs := rfl
@[simp] theorem State.setClp_portA (n : Axis) (x : ClpS) : (s.setClp n x).portA = s.portA := rfl
@[simp] theorem State.setClp_portB (n : Axis) (x : ClpS) : (s.setClp n x).portB = s.portB := rfl
@[simp] theorem State.setClp_ctxs (n : Axis) (x : ClpS) : (s.setClp n x).ctxs = s.ctxs := rfl
@[simp] theorem State.setClp_streams (n : Axis) (x : ClpS) : (s.setClp n x).streams = s.streams := rfl
@[simp] theorem State.setClp_sent (n : Axis) (x : ClpS) : (s.setClp n x).sent = s.sent := rfl
@[simp] theorem State.setClp_ops (n : Axis) (x : ClpS) : (s.setClp n x).ops = s.ops := rfl
@[simp] theorem State.setClp_plans (n : Axis) (x : ClpS) : (s.setClp n x).plans = s.plans := rfl
@[simp] theorem State.setClp_banks (n : Axis) (x : ClpS) : (s.setClp n x).banks = s.banks := rfl
@[simp] theorem State.setClp_fcs (n : Axis) (x : ClpS) : (s.setClp n x).fcs = s.fcs := rfl
@[simp] theorem State.setClp_hbs (n : Axis) (x : ClpS) : (s.setClp n x).hbs = s.hbs := rfl
@[simp] theorem State.setClp_coils (n : Axis) (x : ClpS) : (s.setClp n x).coils = s.coils := rfl
@[simp] theorem State.setClp_less (n : Axis) (x : ClpS) : (s.setClp n x).less = s.less := rfl
@[simp] theorem State.setClp_fbks (n : Axis) (x : ClpS) : (s.setClp n x).fbks = s.fbks := rfl
@[simp] theorem State.setClp_gdrs (n : Axis) (x : ClpS) : (s.setClp n x).gdrs = s.gdrs := rfl
@[simp] theorem State.setClp_adcs (n : Axis) (x : ClpS) : (s.setClp n x).adcs = s.adcs := rfl
@[simp] theorem State.setClp_ledger (n : Axis) (x : ClpS) : (s.setClp n x).ledger = s.ledger := rfl
@[simp] theorem State.setClp_tbs (n : Axis) (x : ClpS) : (s.setClp n x).tbs = s.tbs := rfl
@[simp] theorem State.setClp_ckg (n : Axis) (x : ClpS) : (s.setClp n x).ckg = s.ckg := rfl
@[simp] theorem State.setClp_pmu (n : Axis) (x : ClpS) : (s.setClp n x).pmu = s.pmu := rfl
@[simp] theorem State.setClp_lcs (n : Axis) (x : ClpS) : (s.setClp n x).lcs = s.lcs := rfl
@[simp] theorem State.setClp_cnd (n : Axis) (x : ClpS) : (s.setClp n x).cnd = s.cnd := rfl
@[simp] theorem State.setClp_freeCtr (n : Axis) (x : ClpS) : (s.setClp n x).freeCtr = s.freeCtr := rfl
@[simp] theorem State.setClp_reg (n : Axis) (x : ClpS) (j : Nat) : (s.setClp n x).reg j = s.reg j := rfl
@[simp] theorem State.setClp_rd (n : Axis) (x : ClpS) (g : Fld) : (s.setClp n x).rd g = s.rd g := rfl
@[simp] theorem State.setClp_flag (n : Axis) (x : ClpS) (g : Fld) : (s.setClp n x).flag g = s.flag g := rfl

@[simp] theorem State.setLes_pending (n : Axis) (x : LesS) : (s.setLes n x).pending = s.pending := rfl
@[simp] theorem State.setLes_regs (n : Axis) (x : LesS) : (s.setLes n x).regs = s.regs := rfl
@[simp] theorem State.setLes_bufs (n : Axis) (x : LesS) : (s.setLes n x).bufs = s.bufs := rfl
@[simp] theorem State.setLes_dirty (n : Axis) (x : LesS) : (s.setLes n x).dirty = s.dirty := rfl
@[simp] theorem State.setLes_loHeld (n : Axis) (x : LesS) : (s.setLes n x).loHeld = s.loHeld := rfl
@[simp] theorem State.setLes_seqDone (n : Axis) (x : LesS) : (s.setLes n x).seqDone = s.seqDone := rfl
@[simp] theorem State.setLes_cntNow (n : Axis) (x : LesS) : (s.setLes n x).cntNow = s.cntNow := rfl
@[simp] theorem State.setLes_inClk (n : Axis) (x : LesS) : (s.setLes n x).inClk = s.inClk := rfl
@[simp] theorem State.setLes_clk (n : Axis) (x : LesS) : (s.setLes n x).clk = s.clk := rfl
@[simp] theorem State.setLes_gtc (n : Axis) (x : LesS) : (s.setLes n x).gtc = s.gtc := rfl
@[simp] theorem State.setLes_gtcRuns (n : Axis) (x : LesS) : (s.setLes n x).gtcRuns = s.gtcRuns := rfl
@[simp] theorem State.setLes_ticking (n : Axis) (x : LesS) : (s.setLes n x).ticking = s.ticking := rfl
@[simp] theorem State.setLes_tickClk (n : Axis) (x : LesS) : (s.setLes n x).tickClk = s.tickClk := rfl
@[simp] theorem State.setLes_tickGtc (n : Axis) (x : LesS) : (s.setLes n x).tickGtc = s.tickGtc := rfl
@[simp] theorem State.setLes_half (n : Axis) (x : LesS) : (s.setLes n x).half = s.half := rfl
@[simp] theorem State.setLes_latches (n : Axis) (x : LesS) : (s.setLes n x).latches = s.latches := rfl
@[simp] theorem State.setLes_horizon (n : Axis) (x : LesS) : (s.setLes n x).horizon = s.horizon := rfl
@[simp] theorem State.setLes_cutoff (n : Axis) (x : LesS) : (s.setLes n x).cutoff = s.cutoff := rfl
@[simp] theorem State.setLes_reqs (n : Axis) (x : LesS) : (s.setLes n x).reqs = s.reqs := rfl
@[simp] theorem State.setLes_portA (n : Axis) (x : LesS) : (s.setLes n x).portA = s.portA := rfl
@[simp] theorem State.setLes_portB (n : Axis) (x : LesS) : (s.setLes n x).portB = s.portB := rfl
@[simp] theorem State.setLes_ctxs (n : Axis) (x : LesS) : (s.setLes n x).ctxs = s.ctxs := rfl
@[simp] theorem State.setLes_streams (n : Axis) (x : LesS) : (s.setLes n x).streams = s.streams := rfl
@[simp] theorem State.setLes_sent (n : Axis) (x : LesS) : (s.setLes n x).sent = s.sent := rfl
@[simp] theorem State.setLes_ops (n : Axis) (x : LesS) : (s.setLes n x).ops = s.ops := rfl
@[simp] theorem State.setLes_plans (n : Axis) (x : LesS) : (s.setLes n x).plans = s.plans := rfl
@[simp] theorem State.setLes_banks (n : Axis) (x : LesS) : (s.setLes n x).banks = s.banks := rfl
@[simp] theorem State.setLes_fcs (n : Axis) (x : LesS) : (s.setLes n x).fcs = s.fcs := rfl
@[simp] theorem State.setLes_hbs (n : Axis) (x : LesS) : (s.setLes n x).hbs = s.hbs := rfl
@[simp] theorem State.setLes_coils (n : Axis) (x : LesS) : (s.setLes n x).coils = s.coils := rfl
@[simp] theorem State.setLes_clps (n : Axis) (x : LesS) : (s.setLes n x).clps = s.clps := rfl
@[simp] theorem State.setLes_fbks (n : Axis) (x : LesS) : (s.setLes n x).fbks = s.fbks := rfl
@[simp] theorem State.setLes_gdrs (n : Axis) (x : LesS) : (s.setLes n x).gdrs = s.gdrs := rfl
@[simp] theorem State.setLes_adcs (n : Axis) (x : LesS) : (s.setLes n x).adcs = s.adcs := rfl
@[simp] theorem State.setLes_ledger (n : Axis) (x : LesS) : (s.setLes n x).ledger = s.ledger := rfl
@[simp] theorem State.setLes_tbs (n : Axis) (x : LesS) : (s.setLes n x).tbs = s.tbs := rfl
@[simp] theorem State.setLes_ckg (n : Axis) (x : LesS) : (s.setLes n x).ckg = s.ckg := rfl
@[simp] theorem State.setLes_pmu (n : Axis) (x : LesS) : (s.setLes n x).pmu = s.pmu := rfl
@[simp] theorem State.setLes_lcs (n : Axis) (x : LesS) : (s.setLes n x).lcs = s.lcs := rfl
@[simp] theorem State.setLes_cnd (n : Axis) (x : LesS) : (s.setLes n x).cnd = s.cnd := rfl
@[simp] theorem State.setLes_freeCtr (n : Axis) (x : LesS) : (s.setLes n x).freeCtr = s.freeCtr := rfl
@[simp] theorem State.setLes_reg (n : Axis) (x : LesS) (j : Nat) : (s.setLes n x).reg j = s.reg j := rfl
@[simp] theorem State.setLes_rd (n : Axis) (x : LesS) (g : Fld) : (s.setLes n x).rd g = s.rd g := rfl
@[simp] theorem State.setLes_flag (n : Axis) (x : LesS) (g : Fld) : (s.setLes n x).flag g = s.flag g := rfl

@[simp] theorem State.setFbk_pending (n : Axis) (x : FbkS) : (s.setFbk n x).pending = s.pending := rfl
@[simp] theorem State.setFbk_regs (n : Axis) (x : FbkS) : (s.setFbk n x).regs = s.regs := rfl
@[simp] theorem State.setFbk_bufs (n : Axis) (x : FbkS) : (s.setFbk n x).bufs = s.bufs := rfl
@[simp] theorem State.setFbk_dirty (n : Axis) (x : FbkS) : (s.setFbk n x).dirty = s.dirty := rfl
@[simp] theorem State.setFbk_loHeld (n : Axis) (x : FbkS) : (s.setFbk n x).loHeld = s.loHeld := rfl
@[simp] theorem State.setFbk_seqDone (n : Axis) (x : FbkS) : (s.setFbk n x).seqDone = s.seqDone := rfl
@[simp] theorem State.setFbk_cntNow (n : Axis) (x : FbkS) : (s.setFbk n x).cntNow = s.cntNow := rfl
@[simp] theorem State.setFbk_inClk (n : Axis) (x : FbkS) : (s.setFbk n x).inClk = s.inClk := rfl
@[simp] theorem State.setFbk_clk (n : Axis) (x : FbkS) : (s.setFbk n x).clk = s.clk := rfl
@[simp] theorem State.setFbk_gtc (n : Axis) (x : FbkS) : (s.setFbk n x).gtc = s.gtc := rfl
@[simp] theorem State.setFbk_gtcRuns (n : Axis) (x : FbkS) : (s.setFbk n x).gtcRuns = s.gtcRuns := rfl
@[simp] theorem State.setFbk_ticking (n : Axis) (x : FbkS) : (s.setFbk n x).ticking = s.ticking := rfl
@[simp] theorem State.setFbk_tickClk (n : Axis) (x : FbkS) : (s.setFbk n x).tickClk = s.tickClk := rfl
@[simp] theorem State.setFbk_tickGtc (n : Axis) (x : FbkS) : (s.setFbk n x).tickGtc = s.tickGtc := rfl
@[simp] theorem State.setFbk_half (n : Axis) (x : FbkS) : (s.setFbk n x).half = s.half := rfl
@[simp] theorem State.setFbk_latches (n : Axis) (x : FbkS) : (s.setFbk n x).latches = s.latches := rfl
@[simp] theorem State.setFbk_horizon (n : Axis) (x : FbkS) : (s.setFbk n x).horizon = s.horizon := rfl
@[simp] theorem State.setFbk_cutoff (n : Axis) (x : FbkS) : (s.setFbk n x).cutoff = s.cutoff := rfl
@[simp] theorem State.setFbk_reqs (n : Axis) (x : FbkS) : (s.setFbk n x).reqs = s.reqs := rfl
@[simp] theorem State.setFbk_portA (n : Axis) (x : FbkS) : (s.setFbk n x).portA = s.portA := rfl
@[simp] theorem State.setFbk_portB (n : Axis) (x : FbkS) : (s.setFbk n x).portB = s.portB := rfl
@[simp] theorem State.setFbk_ctxs (n : Axis) (x : FbkS) : (s.setFbk n x).ctxs = s.ctxs := rfl
@[simp] theorem State.setFbk_streams (n : Axis) (x : FbkS) : (s.setFbk n x).streams = s.streams := rfl
@[simp] theorem State.setFbk_sent (n : Axis) (x : FbkS) : (s.setFbk n x).sent = s.sent := rfl
@[simp] theorem State.setFbk_ops (n : Axis) (x : FbkS) : (s.setFbk n x).ops = s.ops := rfl
@[simp] theorem State.setFbk_plans (n : Axis) (x : FbkS) : (s.setFbk n x).plans = s.plans := rfl
@[simp] theorem State.setFbk_banks (n : Axis) (x : FbkS) : (s.setFbk n x).banks = s.banks := rfl
@[simp] theorem State.setFbk_fcs (n : Axis) (x : FbkS) : (s.setFbk n x).fcs = s.fcs := rfl
@[simp] theorem State.setFbk_hbs (n : Axis) (x : FbkS) : (s.setFbk n x).hbs = s.hbs := rfl
@[simp] theorem State.setFbk_coils (n : Axis) (x : FbkS) : (s.setFbk n x).coils = s.coils := rfl
@[simp] theorem State.setFbk_clps (n : Axis) (x : FbkS) : (s.setFbk n x).clps = s.clps := rfl
@[simp] theorem State.setFbk_less (n : Axis) (x : FbkS) : (s.setFbk n x).less = s.less := rfl
@[simp] theorem State.setFbk_gdrs (n : Axis) (x : FbkS) : (s.setFbk n x).gdrs = s.gdrs := rfl
@[simp] theorem State.setFbk_adcs (n : Axis) (x : FbkS) : (s.setFbk n x).adcs = s.adcs := rfl
@[simp] theorem State.setFbk_ledger (n : Axis) (x : FbkS) : (s.setFbk n x).ledger = s.ledger := rfl
@[simp] theorem State.setFbk_tbs (n : Axis) (x : FbkS) : (s.setFbk n x).tbs = s.tbs := rfl
@[simp] theorem State.setFbk_ckg (n : Axis) (x : FbkS) : (s.setFbk n x).ckg = s.ckg := rfl
@[simp] theorem State.setFbk_pmu (n : Axis) (x : FbkS) : (s.setFbk n x).pmu = s.pmu := rfl
@[simp] theorem State.setFbk_lcs (n : Axis) (x : FbkS) : (s.setFbk n x).lcs = s.lcs := rfl
@[simp] theorem State.setFbk_cnd (n : Axis) (x : FbkS) : (s.setFbk n x).cnd = s.cnd := rfl
@[simp] theorem State.setFbk_freeCtr (n : Axis) (x : FbkS) : (s.setFbk n x).freeCtr = s.freeCtr := rfl
@[simp] theorem State.setFbk_reg (n : Axis) (x : FbkS) (j : Nat) : (s.setFbk n x).reg j = s.reg j := rfl
@[simp] theorem State.setFbk_rd (n : Axis) (x : FbkS) (g : Fld) : (s.setFbk n x).rd g = s.rd g := rfl
@[simp] theorem State.setFbk_flag (n : Axis) (x : FbkS) (g : Fld) : (s.setFbk n x).flag g = s.flag g := rfl

@[simp] theorem State.setGdr_pending (b : Bank) (x : GdrS) : (s.setGdr b x).pending = s.pending := rfl
@[simp] theorem State.setGdr_regs (b : Bank) (x : GdrS) : (s.setGdr b x).regs = s.regs := rfl
@[simp] theorem State.setGdr_bufs (b : Bank) (x : GdrS) : (s.setGdr b x).bufs = s.bufs := rfl
@[simp] theorem State.setGdr_dirty (b : Bank) (x : GdrS) : (s.setGdr b x).dirty = s.dirty := rfl
@[simp] theorem State.setGdr_loHeld (b : Bank) (x : GdrS) : (s.setGdr b x).loHeld = s.loHeld := rfl
@[simp] theorem State.setGdr_seqDone (b : Bank) (x : GdrS) : (s.setGdr b x).seqDone = s.seqDone := rfl
@[simp] theorem State.setGdr_cntNow (b : Bank) (x : GdrS) : (s.setGdr b x).cntNow = s.cntNow := rfl
@[simp] theorem State.setGdr_inClk (b : Bank) (x : GdrS) : (s.setGdr b x).inClk = s.inClk := rfl
@[simp] theorem State.setGdr_clk (b : Bank) (x : GdrS) : (s.setGdr b x).clk = s.clk := rfl
@[simp] theorem State.setGdr_gtc (b : Bank) (x : GdrS) : (s.setGdr b x).gtc = s.gtc := rfl
@[simp] theorem State.setGdr_gtcRuns (b : Bank) (x : GdrS) : (s.setGdr b x).gtcRuns = s.gtcRuns := rfl
@[simp] theorem State.setGdr_ticking (b : Bank) (x : GdrS) : (s.setGdr b x).ticking = s.ticking := rfl
@[simp] theorem State.setGdr_tickClk (b : Bank) (x : GdrS) : (s.setGdr b x).tickClk = s.tickClk := rfl
@[simp] theorem State.setGdr_tickGtc (b : Bank) (x : GdrS) : (s.setGdr b x).tickGtc = s.tickGtc := rfl
@[simp] theorem State.setGdr_half (b : Bank) (x : GdrS) : (s.setGdr b x).half = s.half := rfl
@[simp] theorem State.setGdr_latches (b : Bank) (x : GdrS) : (s.setGdr b x).latches = s.latches := rfl
@[simp] theorem State.setGdr_horizon (b : Bank) (x : GdrS) : (s.setGdr b x).horizon = s.horizon := rfl
@[simp] theorem State.setGdr_cutoff (b : Bank) (x : GdrS) : (s.setGdr b x).cutoff = s.cutoff := rfl
@[simp] theorem State.setGdr_reqs (b : Bank) (x : GdrS) : (s.setGdr b x).reqs = s.reqs := rfl
@[simp] theorem State.setGdr_portA (b : Bank) (x : GdrS) : (s.setGdr b x).portA = s.portA := rfl
@[simp] theorem State.setGdr_portB (b : Bank) (x : GdrS) : (s.setGdr b x).portB = s.portB := rfl
@[simp] theorem State.setGdr_ctxs (b : Bank) (x : GdrS) : (s.setGdr b x).ctxs = s.ctxs := rfl
@[simp] theorem State.setGdr_streams (b : Bank) (x : GdrS) : (s.setGdr b x).streams = s.streams := rfl
@[simp] theorem State.setGdr_sent (b : Bank) (x : GdrS) : (s.setGdr b x).sent = s.sent := rfl
@[simp] theorem State.setGdr_ops (b : Bank) (x : GdrS) : (s.setGdr b x).ops = s.ops := rfl
@[simp] theorem State.setGdr_plans (b : Bank) (x : GdrS) : (s.setGdr b x).plans = s.plans := rfl
@[simp] theorem State.setGdr_banks (b : Bank) (x : GdrS) : (s.setGdr b x).banks = s.banks := rfl
@[simp] theorem State.setGdr_fcs (b : Bank) (x : GdrS) : (s.setGdr b x).fcs = s.fcs := rfl
@[simp] theorem State.setGdr_hbs (b : Bank) (x : GdrS) : (s.setGdr b x).hbs = s.hbs := rfl
@[simp] theorem State.setGdr_coils (b : Bank) (x : GdrS) : (s.setGdr b x).coils = s.coils := rfl
@[simp] theorem State.setGdr_clps (b : Bank) (x : GdrS) : (s.setGdr b x).clps = s.clps := rfl
@[simp] theorem State.setGdr_less (b : Bank) (x : GdrS) : (s.setGdr b x).less = s.less := rfl
@[simp] theorem State.setGdr_fbks (b : Bank) (x : GdrS) : (s.setGdr b x).fbks = s.fbks := rfl
@[simp] theorem State.setGdr_adcs (b : Bank) (x : GdrS) : (s.setGdr b x).adcs = s.adcs := rfl
@[simp] theorem State.setGdr_ledger (b : Bank) (x : GdrS) : (s.setGdr b x).ledger = s.ledger := rfl
@[simp] theorem State.setGdr_tbs (b : Bank) (x : GdrS) : (s.setGdr b x).tbs = s.tbs := rfl
@[simp] theorem State.setGdr_ckg (b : Bank) (x : GdrS) : (s.setGdr b x).ckg = s.ckg := rfl
@[simp] theorem State.setGdr_pmu (b : Bank) (x : GdrS) : (s.setGdr b x).pmu = s.pmu := rfl
@[simp] theorem State.setGdr_lcs (b : Bank) (x : GdrS) : (s.setGdr b x).lcs = s.lcs := rfl
@[simp] theorem State.setGdr_cnd (b : Bank) (x : GdrS) : (s.setGdr b x).cnd = s.cnd := rfl
@[simp] theorem State.setGdr_freeCtr (b : Bank) (x : GdrS) : (s.setGdr b x).freeCtr = s.freeCtr := rfl
@[simp] theorem State.setGdr_reg (b : Bank) (x : GdrS) (j : Nat) : (s.setGdr b x).reg j = s.reg j := rfl
@[simp] theorem State.setGdr_rd (b : Bank) (x : GdrS) (g : Fld) : (s.setGdr b x).rd g = s.rd g := rfl
@[simp] theorem State.setGdr_flag (b : Bank) (x : GdrS) (g : Fld) : (s.setGdr b x).flag g = s.flag g := rfl

@[simp] theorem State.setAdc_pending (b : Bank) (x : AdcS) : (s.setAdc b x).pending = s.pending := rfl
@[simp] theorem State.setAdc_regs (b : Bank) (x : AdcS) : (s.setAdc b x).regs = s.regs := rfl
@[simp] theorem State.setAdc_bufs (b : Bank) (x : AdcS) : (s.setAdc b x).bufs = s.bufs := rfl
@[simp] theorem State.setAdc_dirty (b : Bank) (x : AdcS) : (s.setAdc b x).dirty = s.dirty := rfl
@[simp] theorem State.setAdc_loHeld (b : Bank) (x : AdcS) : (s.setAdc b x).loHeld = s.loHeld := rfl
@[simp] theorem State.setAdc_seqDone (b : Bank) (x : AdcS) : (s.setAdc b x).seqDone = s.seqDone := rfl
@[simp] theorem State.setAdc_cntNow (b : Bank) (x : AdcS) : (s.setAdc b x).cntNow = s.cntNow := rfl
@[simp] theorem State.setAdc_inClk (b : Bank) (x : AdcS) : (s.setAdc b x).inClk = s.inClk := rfl
@[simp] theorem State.setAdc_clk (b : Bank) (x : AdcS) : (s.setAdc b x).clk = s.clk := rfl
@[simp] theorem State.setAdc_gtc (b : Bank) (x : AdcS) : (s.setAdc b x).gtc = s.gtc := rfl
@[simp] theorem State.setAdc_gtcRuns (b : Bank) (x : AdcS) : (s.setAdc b x).gtcRuns = s.gtcRuns := rfl
@[simp] theorem State.setAdc_ticking (b : Bank) (x : AdcS) : (s.setAdc b x).ticking = s.ticking := rfl
@[simp] theorem State.setAdc_tickClk (b : Bank) (x : AdcS) : (s.setAdc b x).tickClk = s.tickClk := rfl
@[simp] theorem State.setAdc_tickGtc (b : Bank) (x : AdcS) : (s.setAdc b x).tickGtc = s.tickGtc := rfl
@[simp] theorem State.setAdc_half (b : Bank) (x : AdcS) : (s.setAdc b x).half = s.half := rfl
@[simp] theorem State.setAdc_latches (b : Bank) (x : AdcS) : (s.setAdc b x).latches = s.latches := rfl
@[simp] theorem State.setAdc_horizon (b : Bank) (x : AdcS) : (s.setAdc b x).horizon = s.horizon := rfl
@[simp] theorem State.setAdc_cutoff (b : Bank) (x : AdcS) : (s.setAdc b x).cutoff = s.cutoff := rfl
@[simp] theorem State.setAdc_reqs (b : Bank) (x : AdcS) : (s.setAdc b x).reqs = s.reqs := rfl
@[simp] theorem State.setAdc_portA (b : Bank) (x : AdcS) : (s.setAdc b x).portA = s.portA := rfl
@[simp] theorem State.setAdc_portB (b : Bank) (x : AdcS) : (s.setAdc b x).portB = s.portB := rfl
@[simp] theorem State.setAdc_ctxs (b : Bank) (x : AdcS) : (s.setAdc b x).ctxs = s.ctxs := rfl
@[simp] theorem State.setAdc_streams (b : Bank) (x : AdcS) : (s.setAdc b x).streams = s.streams := rfl
@[simp] theorem State.setAdc_sent (b : Bank) (x : AdcS) : (s.setAdc b x).sent = s.sent := rfl
@[simp] theorem State.setAdc_ops (b : Bank) (x : AdcS) : (s.setAdc b x).ops = s.ops := rfl
@[simp] theorem State.setAdc_plans (b : Bank) (x : AdcS) : (s.setAdc b x).plans = s.plans := rfl
@[simp] theorem State.setAdc_banks (b : Bank) (x : AdcS) : (s.setAdc b x).banks = s.banks := rfl
@[simp] theorem State.setAdc_fcs (b : Bank) (x : AdcS) : (s.setAdc b x).fcs = s.fcs := rfl
@[simp] theorem State.setAdc_hbs (b : Bank) (x : AdcS) : (s.setAdc b x).hbs = s.hbs := rfl
@[simp] theorem State.setAdc_coils (b : Bank) (x : AdcS) : (s.setAdc b x).coils = s.coils := rfl
@[simp] theorem State.setAdc_clps (b : Bank) (x : AdcS) : (s.setAdc b x).clps = s.clps := rfl
@[simp] theorem State.setAdc_less (b : Bank) (x : AdcS) : (s.setAdc b x).less = s.less := rfl
@[simp] theorem State.setAdc_fbks (b : Bank) (x : AdcS) : (s.setAdc b x).fbks = s.fbks := rfl
@[simp] theorem State.setAdc_gdrs (b : Bank) (x : AdcS) : (s.setAdc b x).gdrs = s.gdrs := rfl
@[simp] theorem State.setAdc_ledger (b : Bank) (x : AdcS) : (s.setAdc b x).ledger = s.ledger := rfl
@[simp] theorem State.setAdc_tbs (b : Bank) (x : AdcS) : (s.setAdc b x).tbs = s.tbs := rfl
@[simp] theorem State.setAdc_ckg (b : Bank) (x : AdcS) : (s.setAdc b x).ckg = s.ckg := rfl
@[simp] theorem State.setAdc_pmu (b : Bank) (x : AdcS) : (s.setAdc b x).pmu = s.pmu := rfl
@[simp] theorem State.setAdc_lcs (b : Bank) (x : AdcS) : (s.setAdc b x).lcs = s.lcs := rfl
@[simp] theorem State.setAdc_cnd (b : Bank) (x : AdcS) : (s.setAdc b x).cnd = s.cnd := rfl
@[simp] theorem State.setAdc_freeCtr (b : Bank) (x : AdcS) : (s.setAdc b x).freeCtr = s.freeCtr := rfl
@[simp] theorem State.setAdc_reg (b : Bank) (x : AdcS) (j : Nat) : (s.setAdc b x).reg j = s.reg j := rfl
@[simp] theorem State.setAdc_rd (b : Bank) (x : AdcS) (g : Fld) : (s.setAdc b x).rd g = s.rd g := rfl
@[simp] theorem State.setAdc_flag (b : Bank) (x : AdcS) (g : Fld) : (s.setAdc b x).flag g = s.flag g := rfl

@[simp] theorem State.setSs1_pending (n : Axis) (x : Option Ss1) : (s.setSs1 n x).pending = s.pending := rfl
@[simp] theorem State.setSs1_regs (n : Axis) (x : Option Ss1) : (s.setSs1 n x).regs = s.regs := rfl
@[simp] theorem State.setSs1_bufs (n : Axis) (x : Option Ss1) : (s.setSs1 n x).bufs = s.bufs := rfl
@[simp] theorem State.setSs1_dirty (n : Axis) (x : Option Ss1) : (s.setSs1 n x).dirty = s.dirty := rfl
@[simp] theorem State.setSs1_loHeld (n : Axis) (x : Option Ss1) : (s.setSs1 n x).loHeld = s.loHeld := rfl
@[simp] theorem State.setSs1_seqDone (n : Axis) (x : Option Ss1) : (s.setSs1 n x).seqDone = s.seqDone := rfl
@[simp] theorem State.setSs1_cntNow (n : Axis) (x : Option Ss1) : (s.setSs1 n x).cntNow = s.cntNow := rfl
@[simp] theorem State.setSs1_inClk (n : Axis) (x : Option Ss1) : (s.setSs1 n x).inClk = s.inClk := rfl
@[simp] theorem State.setSs1_clk (n : Axis) (x : Option Ss1) : (s.setSs1 n x).clk = s.clk := rfl
@[simp] theorem State.setSs1_gtc (n : Axis) (x : Option Ss1) : (s.setSs1 n x).gtc = s.gtc := rfl
@[simp] theorem State.setSs1_gtcRuns (n : Axis) (x : Option Ss1) : (s.setSs1 n x).gtcRuns = s.gtcRuns := rfl
@[simp] theorem State.setSs1_ticking (n : Axis) (x : Option Ss1) : (s.setSs1 n x).ticking = s.ticking := rfl
@[simp] theorem State.setSs1_tickClk (n : Axis) (x : Option Ss1) : (s.setSs1 n x).tickClk = s.tickClk := rfl
@[simp] theorem State.setSs1_tickGtc (n : Axis) (x : Option Ss1) : (s.setSs1 n x).tickGtc = s.tickGtc := rfl
@[simp] theorem State.setSs1_half (n : Axis) (x : Option Ss1) : (s.setSs1 n x).half = s.half := rfl
@[simp] theorem State.setSs1_latches (n : Axis) (x : Option Ss1) : (s.setSs1 n x).latches = s.latches := rfl
@[simp] theorem State.setSs1_horizon (n : Axis) (x : Option Ss1) : (s.setSs1 n x).horizon = s.horizon := rfl
@[simp] theorem State.setSs1_cutoff (n : Axis) (x : Option Ss1) : (s.setSs1 n x).cutoff = s.cutoff := rfl
@[simp] theorem State.setSs1_reqs (n : Axis) (x : Option Ss1) : (s.setSs1 n x).reqs = s.reqs := rfl
@[simp] theorem State.setSs1_portA (n : Axis) (x : Option Ss1) : (s.setSs1 n x).portA = s.portA := rfl
@[simp] theorem State.setSs1_portB (n : Axis) (x : Option Ss1) : (s.setSs1 n x).portB = s.portB := rfl
@[simp] theorem State.setSs1_ctxs (n : Axis) (x : Option Ss1) : (s.setSs1 n x).ctxs = s.ctxs := rfl
@[simp] theorem State.setSs1_streams (n : Axis) (x : Option Ss1) : (s.setSs1 n x).streams = s.streams := rfl
@[simp] theorem State.setSs1_sent (n : Axis) (x : Option Ss1) : (s.setSs1 n x).sent = s.sent := rfl
@[simp] theorem State.setSs1_ops (n : Axis) (x : Option Ss1) : (s.setSs1 n x).ops = s.ops := rfl
@[simp] theorem State.setSs1_plans (n : Axis) (x : Option Ss1) : (s.setSs1 n x).plans = s.plans := rfl
@[simp] theorem State.setSs1_banks (n : Axis) (x : Option Ss1) : (s.setSs1 n x).banks = s.banks := rfl
@[simp] theorem State.setSs1_hbs (n : Axis) (x : Option Ss1) : (s.setSs1 n x).hbs = s.hbs := rfl
@[simp] theorem State.setSs1_coils (n : Axis) (x : Option Ss1) : (s.setSs1 n x).coils = s.coils := rfl
@[simp] theorem State.setSs1_clps (n : Axis) (x : Option Ss1) : (s.setSs1 n x).clps = s.clps := rfl
@[simp] theorem State.setSs1_less (n : Axis) (x : Option Ss1) : (s.setSs1 n x).less = s.less := rfl
@[simp] theorem State.setSs1_fbks (n : Axis) (x : Option Ss1) : (s.setSs1 n x).fbks = s.fbks := rfl
@[simp] theorem State.setSs1_gdrs (n : Axis) (x : Option Ss1) : (s.setSs1 n x).gdrs = s.gdrs := rfl
@[simp] theorem State.setSs1_adcs (n : Axis) (x : Option Ss1) : (s.setSs1 n x).adcs = s.adcs := rfl
@[simp] theorem State.setSs1_ledger (n : Axis) (x : Option Ss1) : (s.setSs1 n x).ledger = s.ledger := rfl
@[simp] theorem State.setSs1_tbs (n : Axis) (x : Option Ss1) : (s.setSs1 n x).tbs = s.tbs := rfl
@[simp] theorem State.setSs1_ckg (n : Axis) (x : Option Ss1) : (s.setSs1 n x).ckg = s.ckg := rfl
@[simp] theorem State.setSs1_pmu (n : Axis) (x : Option Ss1) : (s.setSs1 n x).pmu = s.pmu := rfl
@[simp] theorem State.setSs1_lcs (n : Axis) (x : Option Ss1) : (s.setSs1 n x).lcs = s.lcs := rfl
@[simp] theorem State.setSs1_cnd (n : Axis) (x : Option Ss1) : (s.setSs1 n x).cnd = s.cnd := rfl
@[simp] theorem State.setSs1_freeCtr (n : Axis) (x : Option Ss1) : (s.setSs1 n x).freeCtr = s.freeCtr := rfl
@[simp] theorem State.setSs1_reg (n : Axis) (x : Option Ss1) (j : Nat) : (s.setSs1 n x).reg j = s.reg j := rfl
@[simp] theorem State.setSs1_rd (n : Axis) (x : Option Ss1) (g : Fld) : (s.setSs1 n x).rd g = s.rd g := rfl
@[simp] theorem State.setSs1_flag (n : Axis) (x : Option Ss1) (g : Fld) : (s.setSs1 n x).flag g = s.flag g := rfl

@[simp] theorem State.setCounter_pending (o v : Nat) : (s.setCounter o v).pending = s.pending := rfl
@[simp] theorem State.setCounter_regs (o v : Nat) : (s.setCounter o v).regs = s.regs := rfl
@[simp] theorem State.setCounter_bufs (o v : Nat) : (s.setCounter o v).bufs = s.bufs := rfl
@[simp] theorem State.setCounter_dirty (o v : Nat) : (s.setCounter o v).dirty = s.dirty := rfl
@[simp] theorem State.setCounter_loHeld (o v : Nat) : (s.setCounter o v).loHeld = s.loHeld := rfl
@[simp] theorem State.setCounter_seqDone (o v : Nat) : (s.setCounter o v).seqDone = s.seqDone := rfl
@[simp] theorem State.setCounter_cntNow (o v : Nat) : (s.setCounter o v).cntNow = s.cntNow := rfl
@[simp] theorem State.setCounter_inClk (o v : Nat) : (s.setCounter o v).inClk = s.inClk := rfl
@[simp] theorem State.setCounter_clk (o v : Nat) : (s.setCounter o v).clk = s.clk := rfl
@[simp] theorem State.setCounter_gtc (o v : Nat) : (s.setCounter o v).gtc = s.gtc := rfl
@[simp] theorem State.setCounter_gtcRuns (o v : Nat) : (s.setCounter o v).gtcRuns = s.gtcRuns := rfl
@[simp] theorem State.setCounter_ticking (o v : Nat) : (s.setCounter o v).ticking = s.ticking := rfl
@[simp] theorem State.setCounter_tickClk (o v : Nat) : (s.setCounter o v).tickClk = s.tickClk := rfl
@[simp] theorem State.setCounter_tickGtc (o v : Nat) : (s.setCounter o v).tickGtc = s.tickGtc := rfl
@[simp] theorem State.setCounter_half (o v : Nat) : (s.setCounter o v).half = s.half := rfl
@[simp] theorem State.setCounter_latches (o v : Nat) : (s.setCounter o v).latches = s.latches := rfl
@[simp] theorem State.setCounter_horizon (o v : Nat) : (s.setCounter o v).horizon = s.horizon := rfl
@[simp] theorem State.setCounter_cutoff (o v : Nat) : (s.setCounter o v).cutoff = s.cutoff := rfl
@[simp] theorem State.setCounter_reqs (o v : Nat) : (s.setCounter o v).reqs = s.reqs := rfl
@[simp] theorem State.setCounter_portA (o v : Nat) : (s.setCounter o v).portA = s.portA := rfl
@[simp] theorem State.setCounter_portB (o v : Nat) : (s.setCounter o v).portB = s.portB := rfl
@[simp] theorem State.setCounter_ctxs (o v : Nat) : (s.setCounter o v).ctxs = s.ctxs := rfl
@[simp] theorem State.setCounter_streams (o v : Nat) : (s.setCounter o v).streams = s.streams := rfl
@[simp] theorem State.setCounter_sent (o v : Nat) : (s.setCounter o v).sent = s.sent := rfl
@[simp] theorem State.setCounter_ops (o v : Nat) : (s.setCounter o v).ops = s.ops := rfl
@[simp] theorem State.setCounter_plans (o v : Nat) : (s.setCounter o v).plans = s.plans := rfl
@[simp] theorem State.setCounter_banks (o v : Nat) : (s.setCounter o v).banks = s.banks := rfl
@[simp] theorem State.setCounter_fcs (o v : Nat) : (s.setCounter o v).fcs = s.fcs := rfl
@[simp] theorem State.setCounter_hbs (o v : Nat) : (s.setCounter o v).hbs = s.hbs := rfl
@[simp] theorem State.setCounter_coils (o v : Nat) : (s.setCounter o v).coils = s.coils := rfl
@[simp] theorem State.setCounter_clps (o v : Nat) : (s.setCounter o v).clps = s.clps := rfl
@[simp] theorem State.setCounter_less (o v : Nat) : (s.setCounter o v).less = s.less := rfl
@[simp] theorem State.setCounter_fbks (o v : Nat) : (s.setCounter o v).fbks = s.fbks := rfl
@[simp] theorem State.setCounter_gdrs (o v : Nat) : (s.setCounter o v).gdrs = s.gdrs := rfl
@[simp] theorem State.setCounter_adcs (o v : Nat) : (s.setCounter o v).adcs = s.adcs := rfl
@[simp] theorem State.setCounter_ledger (o v : Nat) : (s.setCounter o v).ledger = s.ledger := rfl
@[simp] theorem State.setCounter_tbs (o v : Nat) : (s.setCounter o v).tbs = s.tbs := rfl
@[simp] theorem State.setCounter_ckg (o v : Nat) : (s.setCounter o v).ckg = s.ckg := rfl
@[simp] theorem State.setCounter_pmu (o v : Nat) : (s.setCounter o v).pmu = s.pmu := rfl
@[simp] theorem State.setCounter_lcs (o v : Nat) : (s.setCounter o v).lcs = s.lcs := rfl
@[simp] theorem State.setCounter_freeCtr (o v : Nat) : (s.setCounter o v).freeCtr = s.freeCtr := rfl
@[simp] theorem State.setCounter_reg (o v : Nat) (j : Nat) : (s.setCounter o v).reg j = s.reg j := rfl
@[simp] theorem State.setCounter_rd (o v : Nat) (g : Fld) : (s.setCounter o v).rd g = s.rd g := rfl
@[simp] theorem State.setCounter_flag (o v : Nat) (g : Fld) : (s.setCounter o v).flag g = s.flag g := rfl

@[simp] theorem State.noteCnt_pending (f : Fld) (n : Nat) : (s.noteCnt f n).pending = s.pending := rfl
@[simp] theorem State.noteCnt_regs (f : Fld) (n : Nat) : (s.noteCnt f n).regs = s.regs := rfl
@[simp] theorem State.noteCnt_bufs (f : Fld) (n : Nat) : (s.noteCnt f n).bufs = s.bufs := rfl
@[simp] theorem State.noteCnt_dirty (f : Fld) (n : Nat) : (s.noteCnt f n).dirty = s.dirty := rfl
@[simp] theorem State.noteCnt_loHeld (f : Fld) (n : Nat) : (s.noteCnt f n).loHeld = s.loHeld := rfl
@[simp] theorem State.noteCnt_seqDone (f : Fld) (n : Nat) : (s.noteCnt f n).seqDone = s.seqDone := rfl
@[simp] theorem State.noteCnt_inClk (f : Fld) (n : Nat) : (s.noteCnt f n).inClk = s.inClk := rfl
@[simp] theorem State.noteCnt_clk (f : Fld) (n : Nat) : (s.noteCnt f n).clk = s.clk := rfl
@[simp] theorem State.noteCnt_gtc (f : Fld) (n : Nat) : (s.noteCnt f n).gtc = s.gtc := rfl
@[simp] theorem State.noteCnt_gtcRuns (f : Fld) (n : Nat) : (s.noteCnt f n).gtcRuns = s.gtcRuns := rfl
@[simp] theorem State.noteCnt_ticking (f : Fld) (n : Nat) : (s.noteCnt f n).ticking = s.ticking := rfl
@[simp] theorem State.noteCnt_tickClk (f : Fld) (n : Nat) : (s.noteCnt f n).tickClk = s.tickClk := rfl
@[simp] theorem State.noteCnt_tickGtc (f : Fld) (n : Nat) : (s.noteCnt f n).tickGtc = s.tickGtc := rfl
@[simp] theorem State.noteCnt_half (f : Fld) (n : Nat) : (s.noteCnt f n).half = s.half := rfl
@[simp] theorem State.noteCnt_latches (f : Fld) (n : Nat) : (s.noteCnt f n).latches = s.latches := rfl
@[simp] theorem State.noteCnt_horizon (f : Fld) (n : Nat) : (s.noteCnt f n).horizon = s.horizon := rfl
@[simp] theorem State.noteCnt_cutoff (f : Fld) (n : Nat) : (s.noteCnt f n).cutoff = s.cutoff := rfl
@[simp] theorem State.noteCnt_reqs (f : Fld) (n : Nat) : (s.noteCnt f n).reqs = s.reqs := rfl
@[simp] theorem State.noteCnt_portA (f : Fld) (n : Nat) : (s.noteCnt f n).portA = s.portA := rfl
@[simp] theorem State.noteCnt_portB (f : Fld) (n : Nat) : (s.noteCnt f n).portB = s.portB := rfl
@[simp] theorem State.noteCnt_ctxs (f : Fld) (n : Nat) : (s.noteCnt f n).ctxs = s.ctxs := rfl
@[simp] theorem State.noteCnt_streams (f : Fld) (n : Nat) : (s.noteCnt f n).streams = s.streams := rfl
@[simp] theorem State.noteCnt_sent (f : Fld) (n : Nat) : (s.noteCnt f n).sent = s.sent := rfl
@[simp] theorem State.noteCnt_ops (f : Fld) (n : Nat) : (s.noteCnt f n).ops = s.ops := rfl
@[simp] theorem State.noteCnt_plans (f : Fld) (n : Nat) : (s.noteCnt f n).plans = s.plans := rfl
@[simp] theorem State.noteCnt_banks (f : Fld) (n : Nat) : (s.noteCnt f n).banks = s.banks := rfl
@[simp] theorem State.noteCnt_fcs (f : Fld) (n : Nat) : (s.noteCnt f n).fcs = s.fcs := rfl
@[simp] theorem State.noteCnt_hbs (f : Fld) (n : Nat) : (s.noteCnt f n).hbs = s.hbs := rfl
@[simp] theorem State.noteCnt_coils (f : Fld) (n : Nat) : (s.noteCnt f n).coils = s.coils := rfl
@[simp] theorem State.noteCnt_clps (f : Fld) (n : Nat) : (s.noteCnt f n).clps = s.clps := rfl
@[simp] theorem State.noteCnt_less (f : Fld) (n : Nat) : (s.noteCnt f n).less = s.less := rfl
@[simp] theorem State.noteCnt_fbks (f : Fld) (n : Nat) : (s.noteCnt f n).fbks = s.fbks := rfl
@[simp] theorem State.noteCnt_gdrs (f : Fld) (n : Nat) : (s.noteCnt f n).gdrs = s.gdrs := rfl
@[simp] theorem State.noteCnt_adcs (f : Fld) (n : Nat) : (s.noteCnt f n).adcs = s.adcs := rfl
@[simp] theorem State.noteCnt_ledger (f : Fld) (n : Nat) : (s.noteCnt f n).ledger = s.ledger := rfl
@[simp] theorem State.noteCnt_tbs (f : Fld) (n : Nat) : (s.noteCnt f n).tbs = s.tbs := rfl
@[simp] theorem State.noteCnt_ckg (f : Fld) (n : Nat) : (s.noteCnt f n).ckg = s.ckg := rfl
@[simp] theorem State.noteCnt_pmu (f : Fld) (n : Nat) : (s.noteCnt f n).pmu = s.pmu := rfl
@[simp] theorem State.noteCnt_lcs (f : Fld) (n : Nat) : (s.noteCnt f n).lcs = s.lcs := rfl
@[simp] theorem State.noteCnt_cnd (f : Fld) (n : Nat) : (s.noteCnt f n).cnd = s.cnd := rfl
@[simp] theorem State.noteCnt_freeCtr (f : Fld) (n : Nat) : (s.noteCnt f n).freeCtr = s.freeCtr := rfl
@[simp] theorem State.noteCnt_reg (f : Fld) (n : Nat) (j : Nat) : (s.noteCnt f n).reg j = s.reg j := rfl
@[simp] theorem State.noteCnt_rd (f : Fld) (n : Nat) (g : Fld) : (s.noteCnt f n).rd g = s.rd g := rfl
@[simp] theorem State.noteCnt_flag (f : Fld) (n : Nat) (g : Fld) : (s.noteCnt f n).flag g = s.flag g := rfl

@[simp] theorem State.setOp_pending (x : Op) : (s.setOp x).pending = s.pending := rfl
@[simp] theorem State.setOp_regs (x : Op) : (s.setOp x).regs = s.regs := rfl
@[simp] theorem State.setOp_bufs (x : Op) : (s.setOp x).bufs = s.bufs := rfl
@[simp] theorem State.setOp_dirty (x : Op) : (s.setOp x).dirty = s.dirty := rfl
@[simp] theorem State.setOp_loHeld (x : Op) : (s.setOp x).loHeld = s.loHeld := rfl
@[simp] theorem State.setOp_seqDone (x : Op) : (s.setOp x).seqDone = s.seqDone := rfl
@[simp] theorem State.setOp_cntNow (x : Op) : (s.setOp x).cntNow = s.cntNow := rfl
@[simp] theorem State.setOp_inClk (x : Op) : (s.setOp x).inClk = s.inClk := rfl
@[simp] theorem State.setOp_clk (x : Op) : (s.setOp x).clk = s.clk := rfl
@[simp] theorem State.setOp_gtc (x : Op) : (s.setOp x).gtc = s.gtc := rfl
@[simp] theorem State.setOp_gtcRuns (x : Op) : (s.setOp x).gtcRuns = s.gtcRuns := rfl
@[simp] theorem State.setOp_ticking (x : Op) : (s.setOp x).ticking = s.ticking := rfl
@[simp] theorem State.setOp_tickClk (x : Op) : (s.setOp x).tickClk = s.tickClk := rfl
@[simp] theorem State.setOp_tickGtc (x : Op) : (s.setOp x).tickGtc = s.tickGtc := rfl
@[simp] theorem State.setOp_half (x : Op) : (s.setOp x).half = s.half := rfl
@[simp] theorem State.setOp_latches (x : Op) : (s.setOp x).latches = s.latches := rfl
@[simp] theorem State.setOp_horizon (x : Op) : (s.setOp x).horizon = s.horizon := rfl
@[simp] theorem State.setOp_cutoff (x : Op) : (s.setOp x).cutoff = s.cutoff := rfl
@[simp] theorem State.setOp_reqs (x : Op) : (s.setOp x).reqs = s.reqs := rfl
@[simp] theorem State.setOp_portA (x : Op) : (s.setOp x).portA = s.portA := rfl
@[simp] theorem State.setOp_portB (x : Op) : (s.setOp x).portB = s.portB := rfl
@[simp] theorem State.setOp_ctxs (x : Op) : (s.setOp x).ctxs = s.ctxs := rfl
@[simp] theorem State.setOp_streams (x : Op) : (s.setOp x).streams = s.streams := rfl
@[simp] theorem State.setOp_sent (x : Op) : (s.setOp x).sent = s.sent := rfl
@[simp] theorem State.setOp_plans (x : Op) : (s.setOp x).plans = s.plans := rfl
@[simp] theorem State.setOp_banks (x : Op) : (s.setOp x).banks = s.banks := rfl
@[simp] theorem State.setOp_fcs (x : Op) : (s.setOp x).fcs = s.fcs := rfl
@[simp] theorem State.setOp_hbs (x : Op) : (s.setOp x).hbs = s.hbs := rfl
@[simp] theorem State.setOp_coils (x : Op) : (s.setOp x).coils = s.coils := rfl
@[simp] theorem State.setOp_clps (x : Op) : (s.setOp x).clps = s.clps := rfl
@[simp] theorem State.setOp_less (x : Op) : (s.setOp x).less = s.less := rfl
@[simp] theorem State.setOp_fbks (x : Op) : (s.setOp x).fbks = s.fbks := rfl
@[simp] theorem State.setOp_gdrs (x : Op) : (s.setOp x).gdrs = s.gdrs := rfl
@[simp] theorem State.setOp_adcs (x : Op) : (s.setOp x).adcs = s.adcs := rfl
@[simp] theorem State.setOp_ledger (x : Op) : (s.setOp x).ledger = s.ledger := rfl
@[simp] theorem State.setOp_tbs (x : Op) : (s.setOp x).tbs = s.tbs := rfl
@[simp] theorem State.setOp_ckg (x : Op) : (s.setOp x).ckg = s.ckg := rfl
@[simp] theorem State.setOp_pmu (x : Op) : (s.setOp x).pmu = s.pmu := rfl
@[simp] theorem State.setOp_lcs (x : Op) : (s.setOp x).lcs = s.lcs := rfl
@[simp] theorem State.setOp_cnd (x : Op) : (s.setOp x).cnd = s.cnd := rfl
@[simp] theorem State.setOp_freeCtr (x : Op) : (s.setOp x).freeCtr = s.freeCtr := rfl
@[simp] theorem State.setOp_reg (x : Op) (j : Nat) : (s.setOp x).reg j = s.reg j := rfl
@[simp] theorem State.setOp_rd (x : Op) (g : Fld) : (s.setOp x).rd g = s.rd g := rfl
@[simp] theorem State.setOp_flag (x : Op) (g : Fld) : (s.setOp x).flag g = s.flag g := rfl

/-! ### An element that has been set -/

@[simp] theorem State.port_setPort_self (p : Port) (x : PortS) : (s.setPort p x).port p = x := by cases p <;> rfl
theorem State.port_setPort_ne {p q : Port} (x : PortS) (h : q ≠ p) : (s.setPort p x).port q = s.port q := by
  cases p <;> cases q <;> first | rfl | exact absurd rfl h

@[simp] theorem State.ctx_setCtx_self (k : Ctx) (x : CtxS) : (s.setCtx k x).ctx k = x := by
  simp [State.ctx, State.setCtx]
theorem State.ctx_setCtx_ne {k j : Ctx} (x : CtxS) (e : j ≠ k) : (s.setCtx k x).ctx j = s.ctx j := by
  simpa [State.ctx, State.setCtx] using Vector.getElem_set_ne (by omega) (by omega) fun i => e (Fin.ext i.symm)
@[simp] theorem State.plan_setPlan_self (n : Axis) (x : AxisPlan) : (s.setPlan n x).plan n = x := by
  simp [State.plan, State.setPlan]
theorem State.plan_setPlan_ne {n j : Axis} (x : AxisPlan) (e : j ≠ n) : (s.setPlan n x).plan j = s.plan j := by
  simpa [State.plan, State.setPlan] using Vector.getElem_set_ne (by omega) (by omega) fun i => e (Fin.ext i.symm)
@[simp] theorem State.stream_setStream_self (i : (Fin 8)) (x : StreamS) : (s.setStream i x).stream i = x := by
  simp [State.stream, State.setStream]
theorem State.stream_setStream_ne {i j : (Fin 8)} (x : StreamS) (e : j ≠ i) : (s.setStream i x).stream j = s.stream j := by
  simpa [State.stream, State.setStream] using Vector.getElem_set_ne (by omega) (by omega) fun i => e (Fin.ext i.symm)
@[simp] theorem State.bank_setBank_self (b : Bank) (x : BankS) : (s.setBank b x).bank b = x := by
  simp [State.bank, State.setBank]
theorem State.bank_setBank_ne {b j : Bank} (x : BankS) (e : j ≠ b) : (s.setBank b x).bank j = s.bank j := by
  simpa [State.bank, State.setBank] using Vector.getElem_set_ne (by omega) (by omega) fun i => e (Fin.ext i.symm)
@[simp] theorem State.hb_setHb_self (h : HalfBridge) (x : HbS) : (s.setHb h x).hb h = x := by
  simp [State.hb, State.setHb]
theorem State.hb_setHb_ne {h j : HalfBridge} (x : HbS) (e : j ≠ h) : (s.setHb h x).hb j = s.hb j := by
  simpa [State.hb, State.setHb] using Vector.getElem_set_ne (by omega) (by omega) fun i => e (Fin.ext i.symm)
@[simp] theorem State.coil_setCoil_self (p : Coil) (x : CoilS) : (s.setCoil p x).coil p = x := by
  simp [State.coil, State.setCoil]
theorem State.coil_setCoil_ne {p j : Coil} (x : CoilS) (e : j ≠ p) : (s.setCoil p x).coil j = s.coil j := by
  simpa [State.coil, State.setCoil] using Vector.getElem_set_ne (by omega) (by omega) fun i => e (Fin.ext i.symm)
@[simp] theorem State.clp_setClp_self (n : Axis) (x : ClpS) : (s.setClp n x).clp n = x := by
  simp [State.clp, State.setClp]
theorem State.clp_setClp_ne {n j : Axis} (x : ClpS) (e : j ≠ n) : (s.setClp n x).clp j = s.clp j := by
  simpa [State.clp, State.setClp] using Vector.getElem_set_ne (by omega) (by omega) fun i => e (Fin.ext i.symm)
@[simp] theorem State.les_setLes_self (n : Axis) (x : LesS) : (s.setLes n x).les n = x := by
  simp [State.les, State.setLes]
theorem State.les_setLes_ne {n j : Axis} (x : LesS) (e : j ≠ n) : (s.setLes n x).les j = s.les j := by
  simpa [State.les, State.setLes] using Vector.getElem_set_ne (by omega) (by omega) fun i => e (Fin.ext i.symm)
@[simp] theorem State.fbk_setFbk_self (n : Axis) (x : FbkS) : (s.setFbk n x).fbk n = x := by
  simp [State.fbk, State.setFbk]
theorem State.fbk_setFbk_ne {n j : Axis} (x : FbkS) (e : j ≠ n) : (s.setFbk n x).fbk j = s.fbk j := by
  simpa [State.fbk, State.setFbk] using Vector.getElem_set_ne (by omega) (by omega) fun i => e (Fin.ext i.symm)
@[simp] theorem State.gdr_setGdr_self (b : Bank) (x : GdrS) : (s.setGdr b x).gdr b = x := by
  simp [State.gdr, State.setGdr]
theorem State.gdr_setGdr_ne {b j : Bank} (x : GdrS) (e : j ≠ b) : (s.setGdr b x).gdr j = s.gdr j := by
  simpa [State.gdr, State.setGdr] using Vector.getElem_set_ne (by omega) (by omega) fun i => e (Fin.ext i.symm)
@[simp] theorem State.adc_setAdc_self (b : Bank) (x : AdcS) : (s.setAdc b x).adc b = x := by
  simp [State.adc, State.setAdc]
theorem State.adc_setAdc_ne {b j : Bank} (x : AdcS) (e : j ≠ b) : (s.setAdc b x).adc j = s.adc j := by
  simpa [State.adc, State.setAdc] using Vector.getElem_set_ne (by omega) (by omega) fun i => e (Fin.ext i.symm)
@[simp] theorem State.ss1_setSs1_self (n : Axis) (x : Option Ss1) : (s.setSs1 n x).ss1 n = x := by
  simp [State.ss1, State.setSs1]
theorem State.ss1_setSs1_ne {n j : Axis} (x : Option Ss1) (e : j ≠ n) : (s.setSs1 n x).ss1 j = s.ss1 j := by
  simpa [State.ss1, State.setSs1] using Vector.getElem_set_ne (by omega) (by omega) fun i => e (Fin.ext i.symm)

/-! ### Register words -/

@[simp] theorem State.reg_setReg_self (o : Nat) (w : Word) : (s.setReg o w).reg o = w := fileGet_put_self
theorem State.reg_setReg_ne {o j : Nat} (w : Word) (h : j ≠ o) : (s.setReg o w).reg j = s.reg j := fileGet_put_ne h
@[simp] theorem State.buf_setBuf_self (o : Nat) (w : Word) : (s.setBuf o w).buf o = w := fileGet_put_self
theorem State.buf_setBuf_ne {o j : Nat} (w : Word) (h : j ≠ o) : (s.setBuf o w).buf j = s.buf j := fileGet_put_ne h
@[simp] theorem State.dirtyBits_setDirty_self (o : Nat) (w : Word) : (s.setDirty o w).dirtyBits o = w := fileGet_put_self
theorem State.dirtyBits_setDirty_ne {o j : Nat} (w : Word) (h : j ≠ o) : (s.setDirty o w).dirtyBits j = s.dirtyBits j :=
  fileGet_put_ne h

end Sys2Proof.Machine
end

