-- ==== Sys2Proof/Laws/Words.lean ====
section
/-! SUPPORT. Fields of register words: what a field reads as after it, or another one, is written. -/

namespace Sys2Proof

open Sys2Proof.Machine

/-- A field that lies in a 32-bit word. -/
def Fld.ok (f : Fld) : Bool := f.lo ≤ f.hi && f.hi < 32

/-- The number that a put stores, before it is cut to 32 bits, by its parts above, at and below the field. -/
theorem Fld.put_parts (lo n w v : Nat) :
    w - w / 2 ^ lo % 2 ^ n * 2 ^ lo + v * 2 ^ lo = 2 ^ lo * (2 ^ n * (w / 2 ^ lo / 2 ^ n) + v) + w % 2 ^ lo := by
  have h1 := Nat.div_add_mod w (2 ^ lo)
  have h2 := Nat.div_add_mod (w / 2 ^ lo) (2 ^ n)
  generalize w / 2 ^ lo / 2 ^ n = a at *
  generalize w / 2 ^ lo % 2 ^ n = b at *
  generalize w % 2 ^ lo = c at *
  rw [← h2] at h1
  rw [← h1]
  have : 2 ^ lo * (2 ^ n * a + b) + c - b * 2 ^ lo = 2 ^ lo * (2 ^ n * a) + c := by
    rw [Nat.mul_add, Nat.mul_comm b]; omega
  rw [this, Nat.mul_add, Nat.mul_comm v]
  omega

theorem Fld.toNat_put {f : Fld} (h : f.ok) (w : Word) (v : Nat) :
    (f.put w v).toNat = 2 ^ f.lo * (2 ^ (f.hi + 1 - f.lo) * (w.toNat / 2 ^ f.lo / 2 ^ (f.hi + 1 - f.lo)) +
      v % 2 ^ (f.hi + 1 - f.lo)) + w.toNat % 2 ^ f.lo := by
  simp only [Fld.ok, Bool.and_eq_true, decide_eq_true_eq] at h
  unfold Fld.put Fld.get bits
  rw [Fld.put_parts, BitVec.toNat_ofNat]
  refine Nat.mod_eq_of_lt ?_
  have hw : w.toNat < 2 ^ 32 := w.isLt
  generalize w.toNat = w at *
  have hn : f.lo + (f.hi + 1 - f.lo) + (31 - f.hi) = 32 := by omega
  generalize f.hi + 1 - f.lo = n at *
  generalize 31 - f.hi = m at *
  generalize f.lo = lo at *
  have ha : w / 2 ^ lo / 2 ^ n < 2 ^ m := by
    rw [Nat.div_div_eq_div_mul, ← Nat.pow_add]
    refine Nat.div_lt_of_lt_mul ?_
    rw [← Nat.pow_add, hn]; exact hw
  have hv : v % 2 ^ n < 2 ^ n := Nat.mod_lt _ (Nat.two_pow_pos n)
  have hc : w % 2 ^ lo < 2 ^ lo := Nat.mod_lt _ (Nat.two_pow_pos lo)
  generalize w / 2 ^ lo / 2 ^ n = a at *
  generalize v % 2 ^ n = b at *
  generalize w % 2 ^ lo = c at *
  have h1 : 2 ^ n * a + b < 2 ^ (n + m) := by
    rw [Nat.pow_add]
    calc 2 ^ n * a + b < 2 ^ n * a + 2 ^ n := by omega
      _ = 2 ^ n * (a + 1) := by rw [Nat.mul_add, Nat.mul_one]
      _ ≤ 2 ^ n * 2 ^ m := Nat.mul_le_mul_left _ ha
  rw [← hn, Nat.add_assoc, Nat.pow_add]
  calc 2 ^ lo * (2 ^ n * a + b) + c < 2 ^ lo * (2 ^ n * a + b) + 2 ^ lo := by omega
    _ = 2 ^ lo * (2 ^ n * a + b + 1) := (Nat.mul_succ _ _).symm
    _ ≤ 2 ^ lo * 2 ^ (n + m) := Nat.mul_le_mul_left _ h1

/-- A field reads back what was put there, cut to its width. -/
theorem Fld.get_put_self {f : Fld} (h : f.ok) (w : Word) (v : Nat) : f.get (f.put w v) = v % 2 ^ (f.hi + 1 - f.lo) := by
  unfold Fld.get bits
  rw [Fld.toNat_put h]
  have hc : w.toNat % 2 ^ f.lo < 2 ^ f.lo := Nat.mod_lt _ (Nat.two_pow_pos _)
  rw [Nat.mul_add_div (Nat.two_pow_pos _), Nat.div_eq_of_lt hc, Nat.add_zero, Nat.mul_add_mod, Nat.mod_mod]

/-- Two fields of one word that share no bit. -/
def Fld.apart (f g : Fld) : Bool := f.hi < g.lo || g.hi < f.lo

/-- A put leaves every other field of the word alone. -/
theorem Fld.get_put_apart {f g : Fld} (h : f.ok) (hg : g.ok) (hd : f.apart g) (w : Word) (v : Nat) :
    g.get (f.put w v) = g.get w := by
  have hp := Fld.toNat_put h w v
  simp only [Fld.ok, Bool.and_eq_true, decide_eq_true_eq] at h hg
  simp only [Fld.apart, Bool.or_eq_true, decide_eq_true_eq] at hd
  unfold Fld.get bits
  rw [hp]
  clear hp
  generalize w.toNat = w at *
  have hv : v % 2 ^ (f.hi + 1 - f.lo) < 2 ^ (f.hi + 1 - f.lo) := Nat.mod_lt _ (Nat.two_pow_pos _)
  have hc : w % 2 ^ f.lo < 2 ^ f.lo := Nat.mod_lt _ (Nat.two_pow_pos _)
  rcases hd with hd | hd
  · obtain ⟨k, hk⟩ : ∃ k, g.lo = f.lo + (f.hi + 1 - f.lo) + k := ⟨g.lo - (f.hi + 1), by omega⟩
    rw [hk, Nat.pow_add, Nat.pow_add, ← Nat.div_div_eq_div_mul, ← Nat.div_div_eq_div_mul,
      Nat.mul_add_div (Nat.two_pow_pos _), Nat.div_eq_of_lt hc, Nat.add_zero, Nat.mul_add_div (Nat.two_pow_pos _),
      Nat.div_eq_of_lt hv, Nat.add_zero, ← Nat.div_div_eq_div_mul, ← Nat.div_div_eq_div_mul]
  · have low : ∀ x, x % 2 ^ f.lo / 2 ^ g.lo % 2 ^ (g.hi + 1 - g.lo) = x / 2 ^ g.lo % 2 ^ (g.hi + 1 - g.lo) := by
      intro x
      obtain ⟨k, hk⟩ : ∃ k, f.lo = g.lo + (g.hi + 1 - g.lo) + k := ⟨f.lo - (g.hi + 1), by omega⟩
      rw [hk, Nat.add_assoc, Nat.pow_add, Nat.mod_mul_right_div_self, Nat.pow_add, Nat.mod_mul_right_mod]
    rw [← low, Nat.mul_add_mod, Nat.mod_eq_of_lt hc, low]

end Sys2Proof

namespace Sys2Proof.Machine

variable (s : State)

theorem State.rd_wr_self {f : Fld} (h : f.ok) (v : Nat) : (s.wr f v).rd f = v % 2 ^ (f.hi + 1 - f.lo) := by
  simp only [State.rd, State.wr, State.reg_setReg_self, Fld.get_put_self h]

/-- A field of another register, or one of the same register that shares no bit, keeps its value. -/
theorem State.rd_wr_ne {f g : Fld} (v : Nat) (h : g.off ≠ f.off ∨ (f.ok ∧ g.ok ∧ f.apart g)) :
    (s.wr f v).rd g = s.rd g := by
  by_cases e : g.off = f.off
  · rcases h with h | ⟨hf, hg, hd⟩
    · exact absurd e h
    · simp only [State.rd, State.wr, e, State.reg_setReg_self, Fld.get_put_apart hf hg hd]
  · simp only [State.rd, State.wr, State.reg_setReg_ne _ _ e]

theorem State.reg_wr_ne {f : Fld} {j : Nat} (v : Nat) (h : j ≠ f.off) : (s.wr f v).reg j = s.reg j :=
  State.reg_setReg_ne _ _ h

theorem State.wrB_eq (f : Fld) (v : Bool) : s.wrB f v = s.wr f (if v then 1 else 0) := rfl

end Sys2Proof.Machine
end

