-- ==== Sys2Proof/Certificates/Slice0/Obligations.lean ====
section
/-! DEFINITION. What is stated of the block. Every command of the table stands in at least one statement whose conclusion is
the next state it answers; frames are equations of whole states with the changed parts named. -/

open Sys2Proof Sys2Proof.Machine

/-! ### The queue, reset and what every step keeps -/

/-- When command c stands at the front of the queue, a step is exec of c on the state with the queue's rest, whatever the
state and the command; on an empty queue one core clock of 4 ns passes (the model's choice, log entry 8): the GTC rises by
its increment where it runs (R39), what a clock notes to settle accesses within it is forgotten (R71), and all else stays. -/
def Obligations.FrontCommandRuns : Prop :=
  (∀ (s : State) (c : Instr) (rest : List Instr), step { s with pending := c :: rest } = exec c { s with pending := rest }) ∧
  ∀ s : State, s.pending = [] → step s = .next
    { s with
      clk := s.clk + 1
      gtc := if s.gtcRuns then s.gtc + ((2 ^ 26 : Int) + s.rdS F.TBS_GTC_RATE_RATE).toNat else s.gtc
      seqDone := []
      cntNow := []
      inClk := InClk.init }

/-- Right after a power-on reset every register reads its reset word, buffered copies too, but the three that hold what
this reset did (R375, R393, R406); nothing is listed in a ring, held, sent, accepted or latched; no axis has a setpoint and
no channel is held; and the GTC does not run. The image of the ACTIVE slot and the BLANK state are the model's choice (log
entry 3). -/
def Obligations.ResetLeaves : Prop :=
  (∀ o, o ∉ [Reg.LCS_RST_CAUSE, Reg.CLK_STAT, Reg.PMU_DOM_STAT] → State.reset.reg o = resetWord o) ∧
  (∀ o, State.reset.buf o = resetWord o ∧ State.reset.dirtyBits o = 0#32) ∧
  State.reset.reg Reg.LCS_RST_CAUSE = 0x01000001#32 ∧ State.reset.rd F.PMU_DOM_STAT_PG = 1 ∧
  State.reset.pending = [] ∧ State.reset.sent = [] ∧ State.reset.ops = [] ∧ State.reset.fcs.srcs = [] ∧
  State.reset.fcs.recs = [] ∧ State.reset.portA.held = [] ∧ State.reset.portB.held = [] ∧ State.reset.reqs = [] ∧
  State.reset.ledger.store = [] ∧ State.reset.gtc = 0 ∧ State.reset.gtcRuns = false ∧ State.reset.ticking = false ∧
  (∀ n, State.reset.plan n = AxisPlan.init ∧ State.reset.ss1 n = none) ∧ (∀ h, State.reset.hb h = HbS.init) ∧
  Memory.wf State.reset

/-- The files of words stay in their one canonical form through every step, from every state in which they have it: offsets
strictly rising and no word listed that equals what an unlisted place reads as. This holds of the registers, their buffered
copies, the marks of unapplied writes and the ledger's region, for every command. -/
def Obligations.StepKeepsCanonicalForm : Prop := ∀ s t : State, Memory.wf s → step s = .next t → Memory.wf t

/-- Every step of every state answers a next state: no command is refused and none ends in a fault. The queue is left one
shorter and otherwise as it was, time does not run backwards, what has been sent stays sent with new sendings behind it,
and no free value is drawn twice. -/
def Obligations.EveryStepAnswersAndKeeps : Prop := ∀ s : State, ∃ t, step s = .next t ∧ t.pending = s.pending.tail ∧
  s.clk ≤ t.clk ∧ s.sent <+: t.sent ∧ s.freeCtr ≤ t.freeCtr

/-- A register of one field: a hardware write leaves the field cut to its width, the other bits of the register and every
other register alone. A status field with a sequence number is set, and SEQ rises by one, modulo 256, once in each core
clock in which hardware sets fields of its register (R72). A software write with all byte enables clears the fields written
as 1 when the written SEQ equals the current one, and leaves every field when it does not (R72). A saturating counter takes
increments up to its greatest value, a wrapping one modulo its range, and a written value takes the increments of its clock
as well (R71, R73). -/
def Obligations.FieldsFollowTheirTypes : Prop :=
  (∀ (s : State) (f : Fld) (v : Nat), f.ok → (s.wr f v).rd f = v % 2 ^ (f.hi + 1 - f.lo) ∧
    (∀ g, g.ok → (g.off ≠ f.off ∨ f.apart g) → (s.wr f v).rd g = s.rd g)) ∧
  (∀ (s : State) (f : Fld), f.ok → f.hi < 24 →
    (s.sqc f).flag f ∧ RegsBut [f.off] s (s.sqc f) ∧
    (s.seqDone.lookup f.off = none → (s.sqc f).rd ⟨f.off, 31, 24⟩ = (s.rd ⟨f.off, 31, 24⟩ + 1) % 256) ∧
    ((s.seqDone.lookup f.off).isSome → (s.sqc f).rd ⟨f.off, 31, 24⟩ = s.rd ⟨f.off, 31, 24⟩) ∧
    ((s.sqc f).seqDone.lookup f.off).isSome) ∧
  (∀ (mask : Nat) (old new : Word), mask < 2 ^ 24 →
    sqcWrite mask none old new 15 =
      if new >>> 24 = old >>> 24 then old &&& ~~~(new &&& BitVec.ofNat 32 mask) else old) ∧
  (∀ (s : State) (f : Fld) (n : Nat), f.ok → s.rd f + n < 2 ^ (f.hi + 1 - f.lo) → (s.cnt f n).rd f = s.rd f + n) ∧
  (∀ (s : State) (f : Fld) (n : Nat), f.ok → 2 ^ (f.hi + 1 - f.lo) ≤ s.rd f + n →
    (s.cnt f n).rd f = 2 ^ (f.hi + 1 - f.lo) - 1) ∧
  (∀ (s : State) (f : Fld) (n : Nat), f.ok → (s.cntWrap f n).rd f = (s.rd f + n) % 2 ^ (f.hi + 1 - f.lo)) ∧
  (∀ (s : State) (f : Fld) (n : Nat) (w : Word), f.ok → s.cntNow.lookup (64 * f.off + f.lo) = none →
    ((s.cnt f n).cntWrite f false 0xFFFFFFFF w).rd f = min (f.get w + n) (2 ^ (f.hi + 1 - f.lo) - 1) ∧
    ((s.cntWrap f n).cntWrite f true 0xFFFFFFFF w).rd f = (f.get w + n) % 2 ^ (f.hi + 1 - f.lo))

/-! ### The time base -/

/-- PTM (R42 to R45). While EN is set and D5 is powered: a dialogue starts INTERVAL ms after the one before it, on the
selected port, if none is open, with a request where that port can carry one; a change of PORT takes effect there, and where
it clears LOCK, LOST sets, every operation accepted and not yet begun is flagged (R59) and source 21 trips. A dialogue that
is done gives the offset of the GTC from host time, which OFFSET shows within its range, and a failed one counts in MISSED.
RATE is computed as R42 says while the offset lies below 1 us and where a step is asked for, which is by the whole offset,
behind host time, at STEP_THR and above, with nothing energised and nothing accepted still to start; else it goes to its
limit. LOCK is set, with an event, by the fourth dialogue in a row within 100 ns, and cleared beyond 250 ns and by the third
failure in a row. The offset in whole ns, from the two times of the dialogue, is the model's (log entry 102). -/
def Obligations.PtmDialogues : Prop := ∀ s : State, ptmRuns s →
  let unlock := fun z : State => { (z.wr F.TBS_PTM_STAT_LOCK 0).sqc F.TBS_PTM_STAT_LOST with
    ops := z.ops.map fun o : Op => if o.begun then o else { o with unaligned := true } }
  (¬ s.tbs.ptmBusy →
    let p := s.rd F.TBS_PTM_CTRL_PORT
    let u := s.advTo (s.tbs.ptmAt + msClk (s.rd F.TBS_PTM_CTRL_INTERVAL))
    let v := { u with tbs := { s.tbs with
      ptmAt := u.clk, ptmT1 := u.now, ptmBusy := true, ptmPort := p,
      ptmFirst := s.tbs.ptmFirst || decide (p ≠ s.tbs.ptmPort) } }
    let asks := fun z : State => if ptmAnswers z then z.emit (.ptm (portOf p)) else z
    Gives .ptmDialogueStart s fun t =>
      (ptmAnswers t → ∃ l, t.sent = l ++ [.ptm (portOf p)]) ∧
      (p = s.tbs.ptmPort → t = asks v) ∧
      (p ≠ s.tbs.ptmPort → ¬ s.flag F.TBS_PTM_STAT_LOCK → t = asks { v with tbs := { v.tbs with ptmGood := 0 } }) ∧
      (p ≠ s.tbs.ptmPort → s.flag F.TBS_PTM_STAT_LOCK → s.powered 1 →
        Tripped 21 false (unlock { v with tbs := { v.tbs with ptmGood := 0 } }) t)) ∧
  (s.tbs.ptmBusy → ptmAnswers s → ∀ (host : BitVec 64) (wait : BitVec 32),
    let o := roundRat ((((s.tbs.ptmT1 + s.now : Nat) : Int) - wait.toNat : Int) / (2 : Rat)) - host.toNat
    let thr := s.rd F.TBS_PTM_CTRL_STEP_THR
    let steps := o < 0 ∧ thr ≠ 0 ∧ 1000 * thr ≤ o.natAbs ∧ stepAllowed s
    let rate := ptmRate (s.rdS F.TBS_GTC_RATE_RATE) o s.tbs.ptmPrev (s.tbs.ptmFirst || s.tbs.slew)
      (s.rd F.TBS_PTM_CTRL_INTERVAL)
    Gives (.ptmDialogueDone ⟨host, wait⟩) s fun t =>
      t.tbs.ptmBusy = false ∧ t.tbs.ptmPrev = o ∧ t.tbs.ptmBad = 0 ∧ t.clk = s.clk ∧
      t.rdS F.TBS_PTM_OFFSET_OFFSET = clampInt (-2147483647) 2147483647 o ∧
      (o.natAbs < 1000 ∨ steps → t.rdS F.TBS_GTC_RATE_RATE = rate ∧ t.tbs.slew = false) ∧
      (steps → t.has (.gtcStep o.natAbs)) ∧
      (1000 ≤ o.natAbs → ¬ steps → t.reqs = s.reqs ∧ t.tbs.slew ∧
        t.rdS F.TBS_GTC_RATE_RATE = if o < 0 then 32767 else -32768) ∧
      (o.natAbs ≤ 100 →
        t.tbs.ptmGood = s.tbs.ptmGood + 1 ∧
        t.flag F.TBS_PTM_STAT_LOCK = (s.flag F.TBS_PTM_STAT_LOCK || decide (3 ≤ s.tbs.ptmGood)) ∧
        ∃ u, u = { s with regs := u.regs, tbs := u.tbs } ∧
          RegsBut [Reg.TBS_PTM_OFFSET, Reg.TBS_GTC_RATE, Reg.TBS_PTM_STAT] s u ∧
          (if 3 ≤ s.tbs.ptmGood ∧ ¬ s.flag F.TBS_PTM_STAT_LOCK then Reaction u t else t = u)) ∧
      (250 < o.natAbs → t.tbs.ptmGood = 0 ∧ t.flag F.TBS_PTM_STAT_LOCK = false)) ∧
  (s.tbs.ptmBusy →
    let u := { s.cnt F.TBS_PTM_STAT_MISSED with tbs := { s.tbs with
      ptmBusy := false, ptmFirst := true, ptmBad := s.tbs.ptmBad + 1, ptmGood := 0 } }
    Gives .ptmDialogueFailed s fun t =>
      (s.tbs.ptmBad < 2 ∨ ¬ s.flag F.TBS_PTM_STAT_LOCK → t = u) ∧
      (2 ≤ s.tbs.ptmBad → s.flag F.TBS_PTM_STAT_LOCK → s.powered 1 → Tripped 21 false (unlock u) t))

/-- A GTC step takes place at the frame tick after its request if no axis is energised and no accepted operation has its
start still to come: forward by the whole offset (R43), with the tick's GTC and TBS_TICK_GTC moved along (R40); if the
conditions no longer hold, RATE is held at its limit. A SYNC edge within 1 us of the expected time gives a follower its
phase error in clocks. Against the tick of the frame in progress, all of it is taken in that frame while nothing is
energised; else it is left for the frames to come, less what that frame's own change of length removes of it (R47). LOCK is
set, with an event, by the sixteenth frame in a row within 12 ns; an edge whose distance from the one before is not TF
within 1 us sets MISMATCH and ends the run; an edge outside the window is ignored; and four frames in a row without a usable
edge clear LOCK, set LOST and trip source 20 (R48). -/
def Obligations.GtcStepsAndSyncEdges : Prop := ∀ s : State,
  (∀ ns n, s.atTick → n < s.tickClk → s.reqs.head? = some (.gtcStep ns, n) →
    let u := s.drop (.gtcStep ns)
    Gives .gtcStep s fun t =>
      ¬ t.ripe (.gtcStep ns) ∧
      (stepAllowed s → t.gtc = s.gtc + ns * 2 ^ 24 ∧ t.tickGtc = t.gtc ∧ t.rd64 Reg.TBS_TICK_GTC_LO = t.now ∧
        RegsBut [Reg.TBS_TICK_GTC_LO, Reg.TBS_TICK_GTC_LO + 4] s t ∧
        t = { u with
          regs := t.regs, gtc := t.gtc, tickGtc := t.tickGtc
          tbs := { s.tbs with ptmFirst := true, ptmT1 := s.tbs.ptmT1 + ns } }) ∧
      (¬ stepAllowed s → t.rdS F.TBS_GTC_RATE_RATE = 32767 ∧ RegsBut [Reg.TBS_GTC_RATE] s t ∧
        t = { u with regs := t.regs, tbs := { s.tbs with slew := true } })) ∧
  (∀ late : Fin 4, isFollower s → s.ticking → s.powered 5 →
    let at_ := 4 * s.clk + late.val
    let n := (syncTickOf s late.val).1
    let e := (syncTickOf s late.val).2
    let apart := ∃ x, s.tbs.syncEdge = some x ∧ (s.tfNs + 1000 < at_ - x ∨ at_ - x + 1000 < s.tfNs)
    let shift := roundRat ((e : Rat) / 4)
    let own := n = s.rd F.TBS_FRAME_CNT_FRAME
    let left := -shift - (if own then s.tbs.trim else 0)
    let good := if 12 < e.natAbs then 0 else if n = s.tbs.syncGoodNo then s.tbs.syncGood
      else if n = (s.tbs.syncGoodNo + 1) % 2 ^ 32 then s.tbs.syncGood + 1 else 1
    Gives (.syncInEdge late) s fun t =>
      (¬ syncUsable s at_ e → ¬ apart → t = { s with tbs := { s.tbs with syncEdge := some at_ } }) ∧
      (apart → t.flag F.TBS_SYNC_STAT_MISMATCH ∧ t.tbs.syncGood = 0 ∧
        t.flag F.TBS_SYNC_STAT_LOCK = s.flag F.TBS_SYNC_STAT_LOCK) ∧
      (syncUsable s at_ e → t.rdS F.TBS_SYNC_STAT_PHASE = clampInt (-127) 127 shift) ∧
      (syncUsable s at_ e → ¬ apart →
        t.flag F.TBS_SYNC_STAT_LOCK = (s.flag F.TBS_SYNC_STAT_LOCK || decide (16 ≤ good)) ∧
        ∃ u, RegsBut [Reg.TBS_SYNC_STAT] s u ∧
          u = { s with regs := u.regs, tbs := { s.tbs with
            syncEdge := some at_, syncUsed := some at_, edgeSeen := true, syncMiss := 0, syncGood := good, syncGoodNo := n
            syncErr := if own ∧ ¬ s.anyEnergised then 0 else left
            trim := s.tbs.trim + if own ∧ ¬ s.anyEnergised then left else 0 } } ∧
          (if 16 ≤ good ∧ ¬ s.flag F.TBS_SYNC_STAT_LOCK then Reaction u t else t = u))) ∧
  (isFollower s → s.flag F.TBS_SYNC_STAT_LOCK → 4 ≤ s.tbs.syncMiss → s.powered 1 →
    let u := (s.wr F.TBS_SYNC_STAT_LOCK 0).sqc F.TBS_SYNC_STAT_LOST
    Gives .syncLost s (Tripped 20 false { u with tbs := { s.tbs with syncGood := 0 } }))

/-! ### Clocks -/

/-- Clock monitoring while D2 is powered (R375, R377). The RC is watched by a VALID XO alone, and its stop or a window beyond
2 % sets RCF. A source not VALID that stops starts counting good windows again. A VALID source fails at once: where it is
not in use nothing else follows (REC goes on as R374 says); where it is the reference and the other source is VALID, a
switch to that is requested with the outgoing clock stopped; where none is VALID, holdover begins and source 23 trips
(R384). The fourth good window of the XO and the sixteenth of REC make them VALID; a core on the PLL stays on its
reference. -/
def Obligations.ClocksAreMonitored : Prop := ∀ s : State, clkOn s →
  let stopped := fun z : State => { z with ckg := { s.ckg with failAt := some s.clk, sw := some (2, s.clk, true) } }
  let hold := fun z : State => { ((z.wr F.CLK_STAT_HOLD 1).wr F.CLK_STAT_REF 3).wr F.CLK_STAT_LOCK 0 with
    ckg := { s.ckg with failAt := some s.clk, holdAt := s.clk, expired := false, sw := some (0, s.clk, true) } }
  let xoBad := s.wr F.CLK_STAT_XO 3
  let waits := s.lcs.causes.contains 5 || s.lcs.causes.contains 6
  Gives (.clockStopDetected 0) s (fun t => t = if s.rd F.CLK_STAT_XO = 2 then s.sqc F.CLK_STAT_RCF else s) ∧
  (s.rd F.CLK_STAT_XO ≠ 2 →
    Gives (.clockStopDetected 1) s fun t => t = { s with ckg := { s.ckg with xoGood := 0 } }) ∧
  (s.rd F.CLK_STAT_REC ≠ 2 →
    Gives (.clockStopDetected 2) s fun t => t = { s with ckg := { s.ckg with recGood := 0 } }) ∧
  (s.rd F.CLK_STAT_XO = 2 → s.ckg.sw = none → Gives (.clockStopDetected 1) s fun t =>
    (s.rd F.CLK_STAT_REF ≠ 1 → t = xoBad) ∧
    (s.rd F.CLK_STAT_REF = 1 → s.rd F.CLK_STAT_REC = 2 → ¬ waits → t = stopped xoBad) ∧
    (s.rd F.CLK_STAT_REF = 1 → s.rd F.CLK_STAT_REC ≠ 2 → s.powered 1 → Tripped 23 true (hold xoBad) t)) ∧
  (s.rd F.CLK_STAT_REC = 2 → s.ckg.sw = none → s.rd F.CLK_STAT_REF ≠ 2 →
    Gives (.clockStopDetected 2) s fun t => t = (s.wr F.CLK_STAT_REC 3).recUpdate) ∧
  (∀ (ppm : BitVec 20) (amp : Bool), Gives (.clockMonitorWindow 0 ppm amp) s fun t =>
    t = if s.rd F.CLK_STAT_XO = 2 ∧ 20000 < ppm.toInt.natAbs then s.sqc F.CLK_STAT_RCF else s) ∧
  (∀ (ppm : BitVec 20) (amp : Bool), s.rd F.CLK_STAT_XO = 1 →
    let n := if ppm.toInt.natAbs ≤ 50000 ∧ amp then s.ckg.xoGood + 1 else 0
    Gives (.clockMonitorWindow 1 ppm amp) s fun t => t.ckg.xoGood = n ∧
      (n < 4 → t = { s with ckg := { s.ckg with xoGood := n } }) ∧
      (4 ≤ n → ¬ s.flag F.CLK_STAT_HOLD → s.rd F.CLK_STAT_REF ≠ 0 →
        t = { s.wr F.CLK_STAT_XO 2 with ckg := { s.ckg with xoGood := n, xoSince := s.clk } })) ∧
  (∀ (ppm : BitVec 20) (amp : Bool), s.rd F.CLK_STAT_REC = 1 → recEligible s →
    let limit := if s.rd F.CLK_STAT_XO = 2 then 300 else 50000
    let n := if ppm.toInt.natAbs ≤ limit then s.ckg.recGood + 1 else 0
    Gives (.clockMonitorWindow 2 ppm amp) s fun t => t.ckg.recGood = n ∧
      (n < 16 → t = { s with ckg := { s.ckg with recGood := n } }) ∧
      (16 ≤ n → ¬ s.flag F.CLK_STAT_HOLD → s.rd F.CLK_STAT_REF ≠ 0 →
        t = { s.wr F.CLK_STAT_REC 2 with ckg := { s.ckg with recGood := n, recSince := s.clk } }))

/-- Switches, the PLL, holdover and the XO (R375, R379 to R387). A switch whose outgoing clock has stopped is forced 64
target cycles after its request: FORCED and SWITCH set, SWCNT counts and source 22 trips; a switch that waited for it then
follows the order of R378 (R388). Lock on a reference moves the core
to the PLL; its loss with the reference VALID moves the core to the RC, trips source 35 and the device is in HELD; a retry
follows every 10 ms. Holdover expires after 2 ms: the core runs on the RC reference and every gate enable goes. The device
leaves HELD at a frame tick once the PLL has locked on a VALID XO and no other cause holds. XO_RESTART starts an XO that is
neither VALID nor STARTING; a start fails after XO_TMO ms. RETURN takes a VALID preferred source at the frame tick,
and its bit clears unless it was set again (R74). -/
def Obligations.ClocksSwitchAndReturn : Prop := ∀ s : State,
  (∀ t0 n st, clkOn s → s.ckg.sw = some (t0, n, st) → s.powered 1 → t0 = 1 → s.rd F.CLK_STAT_HOLD = 0 →
    let u := s.advTo (n + 640)
    let v := ({ ((u.sqc F.CLK_STAT_FORCED).cnt F.CLK_STAT_SWCNT) with ckg := { s.ckg with sw := none } }).sqc
      F.CLK_STAT_SWITCH
    Gives .clockSwitchForced s fun t =>
      (s.ckg.waits = false → Tripped 22 false ((v.wr F.CLK_STAT_REF 1).wr F.CLK_STAT_LOCK 0) t) ∧
      (s.ckg.waits → nextRef s = 2 → t.rd F.CLK_STAT_REF = 2 ∧ t.ckg = { s.ckg with sw := none, waits := false })) ∧
  (clkOn s → ¬ s.flag F.CLK_STAT_LOCK → ¬ s.flag F.CLK_STAT_HOLD → s.ckg.sw = none → ¬ s.ckg.expired →
    s.rd F.CLK_STAT_REF ≠ 0 →
    Gives .pllLocked s fun t => t = (s.wr F.CLK_STAT_LOCK 1).wr F.CLK_STAT_CORE 0) ∧
  (clkOn s → s.flag F.CLK_STAT_LOCK → clkValid s (s.rd F.CLK_STAT_REF) → s.powered 1 →
    Gives .pllLockLost s fun t => t.flag F.LCS_LC_STAT_HELD ∧ 6 ∈ t.lcs.causes ∧ t.flag F.GDR_STO_STAT_EN = false ∧
      t.rd F.CLK_STAT_CORE = 1 ∧ t.flag F.CLK_STAT_LOCK = false ∧ (∀ n, t.energised n = false) ∧ t.clk = s.clk ∧
      t.ckg = { s.ckg with retryAt := s.clk } ∧ (t.src 35).total = min 255 ((s.src 35).total + 1)) ∧
  (clkOn s → 6 ∈ s.lcs.causes → ¬ s.flag F.CLK_STAT_LOCK →
    let u := s.advTo (s.ckg.retryAt + msClk 10)
    Gives .pllLockRetry s fun t => t = { u with ckg := { s.ckg with retryAt := u.clk } }) ∧
  (s.flag F.CLK_STAT_HOLD → Gives .holdoverExpiry s fun t =>
    t.clk = max s.clk (s.ckg.holdAt + msClk 2) ∧ t.ckg = { s.ckg with expired := true, sw := none } ∧
    t.flag F.CLK_STAT_HOLD = false ∧ t.rd F.CLK_STAT_REF = 0 ∧ t.flag F.GDR_STO_STAT_EN = false ∧
    (∀ n, t.energised n = false) ∧ (t.src 23).active = false ∧ t.fbks = s.fbks ∧ t.coils = s.coils) ∧
  (s.inHeld → s.atTick → (∀ c ∈ s.lcs.causes, c = 5 ∨ c = 6) → s.flag F.CLK_STAT_LOCK → s.rd F.CLK_STAT_REF = 1 →
    s.rd F.CLK_STAT_XO = 2 → Gives .heldExit s fun t => t.flag F.LCS_LC_STAT_HELD = false ∧
      t.rd F.LCS_LC_STAT_CAUSE = 0 ∧ t.lcs = { s.lcs with causes := [] } ∧ t.ckg = { s.ckg with expired := false } ∧
      t.clk = s.clk ∧ t.plans = s.plans ∧ t.ops = s.ops) ∧
  (∀ p, canWrite s p Reg.CKG_CTRL →
    let u := (s.advTo (s.clk + 1)).wr F.CKG_CTRL_XO_RESTART 0
    Gives (.xoRestart p) s fun t => t.flag F.CKG_CTRL_XO_RESTART = false ∧
      (s.rd F.CLK_STAT_XO = 1 ∨ s.rd F.CLK_STAT_XO = 2 → RegsBut [Reg.CKG_CTRL] s t ∧
        t = { u with regs := t.regs, inClk := t.inClk }) ∧
      (s.rd F.CLK_STAT_XO ≠ 1 → s.rd F.CLK_STAT_XO ≠ 2 → t.rd F.CLK_STAT_XO = 1 ∧
        RegsBut [Reg.CKG_CTRL, Reg.CLK_STAT] s t ∧
        t = { u with regs := t.regs, inClk := t.inClk, ckg := { s.ckg with xoAt := u.clk, xoGood := 0 } })) ∧
  (clkOn s → s.rd F.CLK_STAT_XO = 1 → Gives .xoStartTimeout s fun t =>
    t = (s.advTo (s.ckg.xoAt + msClk (s.rd F.CKG_CFG_XO_TMO))).wr F.CLK_STAT_XO 3) ∧
  (s.atTick → s.ckg.sw = none → s.ripe .clkReturn →
    let u := (s.drop .clkReturn).goDone .clkReturn F.CKG_CTRL_RETURN
    Gives .prefReturn s fun t =>
      (¬ mayReturn s → t = u) ∧
      (mayReturn s → ¬ s.flag F.CLK_STAT_HOLD →
        t = ((({ u with ckg := { s.ckg with sw := none } }.sqc F.CLK_STAT_SWITCH).wr F.CLK_STAT_REF
          (if s.flag F.CKG_CFG_PREF then 2 else 1)).wr F.CLK_STAT_LOCK 0)))

/-! ### Supplies, domains and Fallow states -/

/-- Rails and PWREN (R391, R392). A rail outside its window trips source 28, 29 or 30, which stays ACTIVE until the rail is
back. PWREN rises 1 ms after VAON passed its threshold; with the rails in their windows D0, D1, D2 and D7 are powered, and
the boot begins unless RST_N is low; 50 ms after PWREN without them PWREN falls and PWRFAIL sets; it rises again 1 s
later. -/
def Obligations.RailsComeAndGo : Prop := ∀ s : State,
  (∀ rail : Fin 3, s.powered 1 →
    let p := { s.pmu with
      vdd := s.pmu.vdd && decide (rail ≠ 0), vdda := s.pmu.vdda && decide (rail ≠ 1), vioh := s.pmu.vioh && decide (rail ≠ 2) }
    Gives (.supplyOutOfWindow rail) s (Tripped (28 + rail.val) true { s with pmu := p })) ∧
  (∀ rail : Fin 3, s.powered 1 →
    let p := { s.pmu with
      vdd := s.pmu.vdd || decide (rail = 0), vdda := s.pmu.vdda || decide (rail = 1), vioh := s.pmu.vioh || decide (rail = 2) }
    Gives (.supplyBackInWindow rail) s fun t =>
      (t.src (28 + rail.val)).active = false ∧ (∀ j, j ≠ 28 + rail.val → t.src j = s.src j) ∧
      t = { s with pmu := p, fcs := { s.fcs with srcs := t.fcs.srcs } }) ∧
  (s.pmu.vaon → ¬ s.pmu.pwren → ¬ s.pmu.retry → s.rd F.PMU_STAT_STATE ≠ 5 →
    let u := s.advTo (s.pmu.vaonAt + msClk 1)
    Gives .pwrenAssert s fun t => t = { u with pmu := { s.pmu with pwren := true, pwrenAt := u.clk } }) ∧
  (s.pmu.pwren → ¬ s.pmu.rails → Gives .railsInWindow s fun t =>
    ∃ u, (∀ d, u.powered d = (s.powered d || decide (d ∈ [1, 2, 7]))) ∧ RegsBut [Reg.PMU_DOM_STAT] s u ∧
      u = { s with regs := u.regs, pmu := { s.pmu with rails := true, vdd := true, vdda := true } } ∧
      (if s.lcs.rstLow then t = u else Boots false 0 u t)) ∧
  (s.pmu.pwren → ¬ s.pmu.rails →
    let u := s.advTo (s.pmu.pwrenAt + msClk 50)
    Gives .pwrenTimeout s fun t => t.flag F.PMU_STAT_PWRFAIL ∧ RegsBut [Reg.PMU_STAT] s t ∧
      t = { u with
        regs := t.regs, seqDone := t.seqDone, pmu := { s.pmu with pwren := false, retry := true, pwrenAt := u.clk } }) ∧
  (s.pmu.retry → s.pmu.vaon →
    let u := s.advTo (s.pmu.pwrenAt + msClk 1000)
    Gives .pwrenRetry s fun t => t = { u with pmu := { s.pmu with pwren := true, retry := false, pwrenAt := u.clk } })

/-- A domain reaches power-good 20 us after it was switched on, once its parents are powered (R394); a bank digital domain
restarts its quadrature counters, whose axes are no longer homed (R321, R193); a bank analog domain with retained
coefficients and tested items starts its rotation, one without runs a FULL calibration first (R298), and one whose bank was
untested runs those items: they pass, or the device enters HELD (R414). A request is applied at its frame tick (R394): with
no axis energised, the domains on or on their way are then those requested and the parents of those, where the removal of a
parent that is needed is refused. -/
def Obligations.DomainsFollowRequests : Prop := ∀ s : State,
  (∀ (d : Fin 16) (cals) (offs) (items) (c : Nat), s.pmu.rising = [(d.val, c)] → (parents d.val).all s.powered → d.val < 8 →
    let u := s.advTo (c + usClk 20)
    Gives (.domainPowered d cals offs items) s fun t => RegsBut [Reg.PMU_DOM_STAT] s t ∧
      (d.val ≠ 0 → ∀ e, t.powered e = (s.powered e || decide (e = d.val))) ∧
      t = { u with regs := t.regs, pmu := { s.pmu with rising := [] } }) ∧
  (∀ (b : Bank) (d : Fin 16) (cals) (offs) (items) (c : Nat), s.pmu.rising = [(d.val, c)] → d.val = 8 + b.val →
    s.powered 5 → s.powered 6 → Gives (.domainPowered d cals offs items) s fun t =>
      (∀ e, t.powered e = (s.powered e || decide (e = d.val))) ∧ t.clk = max s.clk (c + usClk 20) ∧
      (∀ n, bankOfAxis n = b → isQuad s n → (t.fbk n).u = 0 ∧ (t.fbk n).eLast = none ∧ t.flag (F.FBK_STAT_VALID n)) ∧
      (∀ n, bankOfAxis n ≠ b → t.fbk n = s.fbk n) ∧
      (∀ n, t.plan n = { s.plan n with homed := (s.plan n).homed && !(decide (bankOfAxis n = b) && isQuad s n) }) ∧
      t = { s.advTo (c + usClk 20) with
        regs := t.regs, fbks := t.fbks, plans := t.plans, pmu := { s.pmu with rising := [] } }) ∧
  (∀ (b : Bank) (d : Fin 16) (cals) (offs) (items : Option Bool) (c : Nat), s.pmu.rising = [(d.val, c)] →
    d.val = 12 + b.val → s.powered 1 → s.powered (8 + b.val) →
    Gives (.domainPowered d cals offs items) s fun t =>
      (∀ e, t.powered e = (s.powered e || decide (e = d.val))) ∧
      (let untested := bit b.val (s.rd F.LCS_ST_RES_UNTESTED)
       ((s.adc b).valid → ¬ untested →
        t.clk = max s.clk (c + usClk 20) ∧ RegsBut [Reg.PMU_DOM_STAT] s t ∧
        t.adc b = { s.adc b with calAt := t.clk, auxAt := t.clk } ∧ (∀ a, a ≠ b → t.adc a = s.adc a) ∧
        t = { s.advTo (c + usClk 20) with
          regs := t.regs, adcs := t.adcs, gdrs := t.gdrs, pmu := { s.pmu with rising := [] } }) ∧
       ((s.adc b).valid → untested → items = some true → t.clk = max s.clk (c + usClk 20 + msClk 65) ∧
        bit b.val (t.rd F.LCS_ST_RES_UNTESTED) = false ∧ t.flag F.LCS_LC_STAT_HELD = s.flag F.LCS_LC_STAT_HELD) ∧
       ((s.adc b).valid → untested → items = some false → t.flag F.LCS_LC_STAT_HELD ∧
        bit b.val (t.rd F.LCS_ST_RES_BANK)))) ∧
  (s.atTick → s.rd F.PMU_STAT_STATE < 2 → ¬ s.lcs.booting → (∀ n, s.energised n = false) →
    Gives .domainRequestApply s fun t => t.clk = s.clk ∧
      (∀ d ∈ [3, 4, 8, 9, 10, 11, 12, 13, 14, 15], wants t d = (bit d (t.rd F.PMU_DOM_REQ_REQ) ||
        decide (8 ≤ d ∧ d < 12 ∧ bit (d + 4) (t.rd F.PMU_DOM_REQ_REQ)))) ∧
      (bit 3 (s.rd F.PMU_DOM_REQ_REQ) → bit 4 (s.rd F.PMU_DOM_REQ_REQ) →
        (∀ o, domOfKey o < 8 → o ∉ [Reg.PMU_DOM_REQ, Reg.PMU_DOM_STAT, Reg.PMU_STAT] → t.reg o = s.reg o) ∧
        t = { s with
          regs := t.regs, bufs := t.bufs, loHeld := t.loHeld, seqDone := t.seqDone, coils := t.coils, clps := t.clps,
          fbks := t.fbks, hbs := t.hbs, adcs := t.adcs, gdrs := t.gdrs, pmu := { s.pmu with rising := t.pmu.rising } }))

/-- A domain that loses power-good is off at once, and with it every domain that needs it (R20, R393): their registers but
the RWB fields go to their reset words (R68, R69), while those of a domain that stays keep theirs. A port's domain takes its
link down (R121); without the core clock or TBS no frame runs and the GTC stands. While an axis of the bank is energised the
loss of D8+b trips source 64 + 16b + 10 and that of D12+b 64 + 16b + 12 (R22, R391); either way the axes of a bank without
its analog domain are off, which is the model's choice where the source launches nothing (log entry 108). -/
def Obligations.LostDomainsAreOff : Prop := ∀ (s : State) (d : Fin 16), s.powered d.val → d ≠ 0 →
  let lost := fun e : Nat => s.powered e ∧ (e = d.val ∨ e ∈ below d.val)
  Gives (.domainPowerGoodLost d) s fun t => t.clk = s.clk ∧
    (∀ e, lost e → t.powered e = false) ∧ (∀ e, ¬ lost e → t.powered e = s.powered e) ∧
    (∀ o, lost (domOfKey o) → keyRwb o = 0 → isCoeff o = false → faultReg o = false → o ≠ Reg.CLK_STAT →
      t.reg o = resetWord o) ∧
    (6 ≤ d.val → ∀ o, ¬ lost (domOfKey o) → faultReg o = false → o ≠ Reg.PMU_DOM_STAT →
      t.reg o = s.reg o) ∧
    t.rd F.CLK_STAT_XO = s.rd F.CLK_STAT_XO ∧
    (d.val = 7 → t = { s with
      regs := t.regs, loHeld := t.loHeld, inClk := t.inClk, pmu := { s.pmu with rising := t.pmu.rising } }) ∧
    (lost 1 → t.fcs = FcsS.init) ∧ (lost 3 → t.linkUp .A = false) ∧ (lost 4 → t.linkUp .B = false) ∧
    (lost 2 ∨ lost 5 → t.ticking = false ∧ t.gtcRuns = false) ∧
    (∀ n, lost (12 + (bankOfAxis n).val) → t.energised n = false) ∧
    (∀ b : Bank, s.powered 1 → d.val ∉ [1, 2, 3, 4, 5] →
      ∀ x ∈ [(74, 8), (76, 12)],
        let was := (s.src (x.1 + 16 * b.val)).total
        (t.src (x.1 + 16 * b.val)).total =
          if lost (x.2 + b.val) ∧ s.bankEnergised b then min 255 (was + 1) else was)

/-! ### Fallow states and debug halt -/

/-- Fallow states (R395 to R403). With AUTO set, the target whose conditions have held for DWELL at a frame tick is marked
to be entered. An entry to FALLOW-3 with nothing asked before takes the analog bank domains off and STATE reads it; a
request for which no state's conditions hold is refused with its code; ENTER clears unless it was set again (R74). An event
of R401 is kept as the wake event, with its clock, in a state in which it acts: the pin in every Fallow state, the timer
once the GTC reaches PMU_WAKE_AT, RESUME in FALLOW-3 and FALLOW-2, where its bit stays set until IDLE is reached (R405). The
resume from those raises the domains the host has requested; it is done, IDLE and timed in PMU_RESUME_T, once no domain is
on its way. -/
def Obligations.FallowStatesAreEnteredAndLeft : Prop := ∀ s : State,
  (∀ d c, s.pmu.since = some (d, c) → s.atTick → s.flag F.PMU_CFG_AUTO → fallowTarget s = some d →
    s.rd F.PMU_STAT_STATE < d + 1 → c + msClk (s.rd F.PMU_DWELL_DWELL) ≤ s.clk →
    Gives .fallowDwellElapsed s fun t => t = { s with pmu := { s.pmu with dwelt := true } }) ∧
  (s.atTick → ¬ s.lcs.booting → ¬ s.lcs.rstLow → s.pmu.entering = none → s.ripe .fallowEnter → ¬ s.halted →
    s.ckg.sw = none → Gives .fallowEntry s fun t =>
      t.clk = s.clk ∧ ¬ t.ripe .fallowEnter ∧
      (¬ (s.drop .fallowEnter).has .fallowEnter → t.flag F.PMU_CTRL_ENTER = false) ∧
      (fallowTarget s = some 1 → s.rd F.PMU_STAT_STATE < 2 → t.rd F.PMU_STAT_STATE = 2 ∧
        (∀ d, t.powered d = (s.powered d && decide (d < 12 ∨ 15 < d))) ∧
        t.pmu = { s.pmu with
          entering := none, dwelt := false, since := none, rising := t.pmu.rising } ∧
        t.plans = s.plans ∧ t.ops = s.ops ∧ t.fcs = s.fcs ∧ t.gtc = s.gtc ∧ t.sent = s.sent) ∧
      (fallowTarget s = none → t.flag F.PMU_STAT_ENTRY_REF ∧
        t.rd F.PMU_STAT_REASON = (if fallowCandidates s = [] then 4 else fallowCode s 1) ∧
        RegsBut [Reg.PMU_CTRL, Reg.PMU_STAT] s t ∧
        t = { s.drop .fallowEnter with
          regs := t.regs, seqDone := t.seqDone, pmu := { s.pmu with dwelt := false } })) ∧
  (s.pmu.entering = none → s.pmu.wake = none → 2 ≤ s.rd F.PMU_STAT_STATE →
    Gives .wakePin s fun t => t = { s with pmu := { s.pmu with wake := some (1, s.clk) } }) ∧
  (s.pmu.entering = none → s.pmu.wake = none → s.flag F.PMU_WAKE_EN_WEN → s.pmu.shadow = none →
    s.rd F.PMU_STAT_STATE ∈ [2, 3] →
    let u := s.advToGtc (s.rd64 Reg.PMU_WAKE_AT_LO)
    Gives .timedWake s fun t => t = { u with pmu := { s.pmu with wake := some (2, u.clk) } }) ∧
  (∀ p, canWrite s p Reg.PMU_CTRL → s.pmu.entering = none → s.pmu.wake = none → s.rd F.PMU_STAT_STATE ∈ [2, 3] →
    Gives (.pmuResume p) s fun t => t.flag F.PMU_CTRL_RESUME ∧ RegsBut [Reg.PMU_CTRL] s t ∧
      t = { s.advTo (s.clk + 1) with regs := t.regs, inClk := t.inClk, pmu := { s.pmu with wake := some (3, s.clk + 1) } }) ∧
  (s.pmu.wake.isSome → ¬ s.pmu.resuming → s.rd F.PMU_STAT_STATE ∈ [2, 3] → Gives .fallowResume s fun t =>
    t = { s with pmu := { s.pmu with entering := none, resuming := true, rising := t.pmu.rising } } ∧
    (∀ x ∈ s.pmu.rising, x ∈ t.pmu.rising) ∧
    (∀ d ∈ [8, 9, 10, 11, 12, 13, 14, 15], bit d (s.rd F.PMU_DOM_REQ_REQ) → wants t d) ∧
    (∀ d, wants t d → wants s d ∨ bit d (s.rd F.PMU_DOM_REQ_REQ))) ∧
  (∀ code c, s.pmu.resuming → s.pmu.rising = [] → ¬ s.lcs.booting → s.rd F.PMU_STAT_STATE < 4 →
    s.pmu.wake = some (code, c) → code < 8 → Gives .fallowResumeDone s fun t =>
      t.rd F.PMU_STAT_STATE = 1 ∧ t.rd F.PMU_STAT_WAKE = code ∧ t.flag F.PMU_CTRL_RESUME = false ∧
      t.rd F.PMU_RESUME_T_T = min ((s.clk - c + 249) / 250) (2 ^ 32 - 1) ∧
      RegsBut [Reg.PMU_STAT, Reg.PMU_CTRL, Reg.PMU_RESUME_T] s t ∧
      t = { s with regs := t.regs, pmu := { s.pmu with wake := none, resuming := false } })

/-- Debug halt (R225, R429, R431). At the frame tick after its request a halt is refused in a life-cycle state that does not
open it (reason 1), while an axis is energised or a galley holds a segment (reason 2); else HALTED sets and every
half-bridge keeps the level it has, the outputs ALIVE low. At the frame tick after RESUME every half-bridge is released with
no trip and keeps its level until the reload its carrier restarts with, and the integrators are cleared; a resume with no
halt is refused (reason 3). In the halt a half-bridge held with its high side on is notched every (EVERY + 1) frames. -/
def Obligations.DebugHaltFreezesAndResumes : Prop := ∀ s : State,
  (s.atTick → s.ripe .halt → ¬ s.halted →
    let u := (s.drop .halt).goDone .halt F.LCS_DBG_CTRL_HALT
    let busy := s.anyEnergised ∨ ∃ n, (s.plan n).galley ≠ []
    Gives .debugHalt s fun t => (¬ (s.drop .halt).has .halt → t.flag F.LCS_DBG_CTRL_HALT = false) ∧
      (¬ s.lcOpen ∨ busy → t.flag F.LCS_DBG_STAT_REFUSED ∧
        t.rd F.LCS_DBG_STAT_REASON = (if s.lcOpen then 2 else 1) ∧ t.halted = false ∧
        RegsBut [Reg.LCS_DBG_CTRL, Reg.LCS_DBG_STAT] s t ∧ t = { u with regs := t.regs, seqDone := t.seqDone }) ∧
      (s.lcOpen → ¬ busy → t.halted ∧
        (∀ h, t.hb h = { s.hb h with frozen := haltLevel s h, haltAt := s.clk, notched := false }) ∧
        t.flag F.FCS_STAT_ALIVE_A = false ∧ t.flag F.FCS_STAT_ALIVE_B = false ∧
        RegsBut [Reg.LCS_DBG_CTRL, Reg.LCS_LC_STAT, Reg.FCS_STAT] s t ∧ t = { u with regs := t.regs, hbs := t.hbs })) ∧
  (s.atTick → s.ripe .resume →
    let u := (s.drop .resume).goDone .resume F.LCS_DBG_CTRL_RESUME
    Gives .debugResume s fun t => t.halted = false ∧
      (¬ (s.drop .resume).has .resume → t.flag F.LCS_DBG_CTRL_RESUME = false) ∧
      (s.halted →
        (∀ h, t.hb h = { s.hb h with
          frozen := none, trip := none, noRise := false, sat := 0, notched := false
          kept := some (if (s.hb h).trip.isSome then none else (s.hb h).frozen) }) ∧
        (∀ p, t.coil p = { s.coil p with reload := s.clk - 1, waiting := none }) ∧
        (∀ n, t.clp n = { s.clp n with zd := 0, zq := 0, iv := 0 }) ∧
        RegsBut [Reg.LCS_DBG_CTRL, Reg.LCS_LC_STAT] s t ∧
        t = { u with regs := t.regs, hbs := t.hbs, coils := t.coils, clps := t.clps }) ∧
      (¬ s.halted → t.flag F.LCS_DBG_STAT_REFUSED ∧ t.rd F.LCS_DBG_STAT_REASON = 3 ∧
        RegsBut [Reg.LCS_DBG_CTRL, Reg.LCS_DBG_STAT] s t ∧ t = { u with regs := t.regs, seqDone := t.seqDone })) ∧
  (∀ h, s.halted → (s.hb h).frozen = some true → ¬ s.hiz h →
    let u := s.advTo ((s.hb h).haltAt + (s.rd (F.PWM_NOTCH_EVERY (bankOfHb h)) + 1) * s.rd F.TBS_FRAME_PERIOD)
    Gives (.haltRefreshNotch h) s fun t => t.hb h = { s.hb h with haltAt := u.clk, notched := true } ∧
      (∀ g, g ≠ h → t.hb g = s.hb g) ∧ t = { u with hbs := t.hbs })

/-! ### Resets and the boot -/

/-- Resets (R260, R392, R405 to R409, R450). VAON past its threshold, the loss of it, a pin reset and a command reset wipe
every volatile part of the state; the ledger, the configuration store, the images and the keys stay, but a STAGED image
being written (FW_STAGE in progress) is lost, and the cause is set in LCS_RST_CAUSE. A power-on reset leaves D0 alone
powered with the XO starting, and resets its registers too; a pin or a command reset leaves the registers of D0 and D7 and
the XO as they are. A command reset turns every half-bridge off in two steps and takes place 10 us after the second one;
asked for in a debug halt it waits for the resume. With the rails there the boot begins at once, after a pin reset as RST_N
returns. -/
def Obligations.ResetsWipeVolatileState : Prop := ∀ s : State,
  let stays := fun u t : State => t.lcs.store = s.lcs.store ∧ t.lcs.active = s.lcs.active ∧
    t.lcs.staged = (if ∃ o ∈ s.ops, o.op = 0x28 ∧ o.t1 ≤ u.now then none else s.lcs.staged) ∧
    t.lcs.devKey = s.lcs.devKey ∧ t.lcs.ownerKey = s.lcs.ownerKey ∧ t.ledger.store = s.ledger.store ∧
    t.rd F.LCS_LC_STAT_STATE = s.rd F.LCS_LC_STAT_STATE
  let words := fun (l : List Nat) (t : State) => ∀ o, domOfKey o ∉ l →
    o ∉ [Reg.LCS_RST_CAUSE, Reg.CLK_STAT, Reg.PMU_DOM_STAT, Reg.LCS_LC_STAT, Reg.LCS_FW_STAT, Reg.PMU_STAT] →
    t.reg o = resetWord o
  let kept := fun t : State => ∀ o, domOfKey o ∈ [0, 7] →
    o ∉ [Reg.LCS_RST_CAUSE, Reg.PMU_DOM_STAT, Reg.PMU_STAT] → t.reg o = s.reg o
  (s.pmu.vaon = false → Gives .powerOnReset s fun t => Wiped s t ∧ stays s t ∧ words [7] t ∧
    t.flag F.LCS_RST_CAUSE_POR ∧ t.rd F.PMU_DOM_STAT_PG = 1 ∧ t.rd F.CLK_STAT_XO = 1 ∧ t.ckg.xoAt = s.clk ∧
    t.pmu = { PmuS.init with vaonAt := s.clk } ∧ t.lcs.booting = false) ∧
  (Gives .powerLoss s fun t => Wiped s t ∧ stays s t ∧ words [0, 7] t ∧ (∀ d, t.powered d = false) ∧
    t.rd F.CLK_STAT_XO = 0 ∧ t.pmu = { PmuS.init with vaon := false } ∧ t.lcs.booting = false) ∧
  (s.pmu.vaon → s.rd F.PMU_STAT_STATE ≠ 5 → Gives .pinReset s fun t => Wiped s t ∧ stays s t ∧ words [0, 7] t ∧ kept t ∧
    t.flag F.LCS_RST_CAUSE_PIN ∧ t.lcs.rstLow ∧ t.lcs.booting = false ∧ t.rd F.PMU_STAT_STATE = 1 ∧
    (∀ d, t.powered d = (decide (d = 0) || (s.pmu.rails && decide (d ∈ [1, 2, 7])))) ∧
    t.rd F.CLK_STAT_XO = s.rd F.CLK_STAT_XO) ∧
  (s.lcs.rstLow → Gives .resetPinRelease s fun t =>
    let u := { s with lcs := { s.lcs with rstLow := false } }
    if s.pmu.rails && s.pmu.vaon then Boots false 0 u t else t = u) ∧
  (∀ p, canWrite s p Reg.LCS_RST_CTRL →
    let u := s.advTo (s.clk + 1)
    let dur := allBanks.foldl (fun (m : Nat) (b : Bank) => max m (50 * (s.rd (F.GDR_SOFT_DUR b) + 1))) 0
    Gives (.commandReset p) s fun t =>
      (s.halted → t = { u with inClk := t.inClk, reqs := s.reqs ++ [(.resume, s.clk + 1), (.cmdReset, s.clk + 1)] }) ∧
      (¬ s.halted → s.lcs.cmdAt = none →
        (∀ h, (t.hb h).react) ∧ (∀ h, gateOn s h → (t.hb h).soft.isSome) ∧
        t = { u with
          inClk := t.inClk, hbs := t.hbs, ledger := t.ledger, cnd := t.cnd,
            lcs := { s.lcs with cmdAt := some (s.clk + 1 + dur + 2500) } }) ∧
      (¬ s.halted → s.lcs.cmdAt.isSome → t = { u with inClk := t.inClk })) ∧
  (∀ c, s.lcs.cmdAt = some c → Gives .commandResetExecute s fun t => stays (s.advTo c) t ∧ kept t ∧ words [0, 7] t ∧
    t.flag F.LCS_RST_CAUSE_CMD ∧ t.rd F.PMU_STAT_STATE = 1 ∧
    ∃ v, Wiped (s.advTo c) v ∧
      (∀ d, v.powered d = ((decide (d = 0) && s.pmu.vaon) || (s.pmu.rails && decide (d ∈ [1, 2, 7])))) ∧
      (if s.pmu.rails && !s.lcs.rstLow then Boots false 0 v t else t = v)) ∧
  (s.lcs.cmdAt = none → s.atTick → s.ripe .cmdReset → ¬ s.halted → Gives .commandResetExecute s fun t =>
    t.lcs.cmdAt.isSome ∧ (∀ h, (t.hb h).react) ∧ ¬ t.ripe .cmdReset ∧ t.regs = s.regs)

/-- The boot (R409 to R416, R421). The images are verified at its time: an ACTIVE one that passes runs, else a STAGED one
that passes becomes ACTIVE, else the device enters HELD with cause 2. The self-test ends at its time with its results in
LCS_ST_RES: a logic, memory or crypto failure, or two failed planner cores, puts the device into HELD with cause 1. The
first frame tick after the restore makes it READY and IDLE. In the full boot these times are 42.2 ms and 184.2 ms after its
start. -/
def Obligations.BootReachesReady : Prop := ∀ s : State, s.lcs.booting →
  (∀ active staged : Bool, ¬ s.lcs.verified → s.lcs.short = false → Gives (.firmwareVerification active staged) s fun t =>
    t.clk = max s.clk (s.lcs.bootAt + usClk 42200) ∧ t.lcs.verified ∧ t.lcs.booting ∧
    (∀ i, s.lcs.active = some i → active → minSvn s ≤ i.svn →
      t.lcs = { s.lcs with verified := true } ∧ t.rd F.LCS_FW_STAT_ACT_SVN = i.svn % 64 ∧
      t.flag F.LCS_FW_STAT_STG_VALID = (staged && s.lcs.staged.any fun j => j.noted && decide (minSvn s ≤ j.svn)) ∧
      RegsBut [Reg.LCS_FW_STAT, Reg.LCS_FW_BUILD_ACT, Reg.LCS_FW_BUILD_STG] s t) ∧
    (∀ i, active = false → staged → s.lcs.staged = some i → i.noted → minSvn s ≤ i.svn →
      t.lcs = { s.lcs with verified := true, active := some i, staged := none } ∧
      t.flag F.LCS_FW_STAT_STG_VALID = false ∧ t.flag F.LCS_LC_STAT_HELD = s.flag F.LCS_LC_STAT_HELD) ∧
    (active = false → staged = false → t.flag F.LCS_LC_STAT_HELD ∧ 2 ∈ t.lcs.causes ∧ t.lcs.active = s.lcs.active)) ∧
  (∀ r : SelfTest, ¬ s.lcs.tested → s.lcs.short = false → s.lcs.store = none → Gives (.selfTestDone r) s fun t =>
    t.clk = max s.clk (s.lcs.bootAt + usClk 184200) ∧ t.lcs.tested ∧ t.lcs.restored ∧
    t.rd F.LCS_ST_RES_CORE = r.cores.toNat ∧ t.flag F.LCS_ST_RES_LOGIC = r.logic ∧ t.flag F.LCS_ST_RES_MEM = r.mem ∧
    t.flag F.LCS_ST_RES_CRYPTO = r.crypto ∧ t.flag F.LCS_ST_RES_SHORT = false ∧ t.flag F.LCS_ST_RES_FCS = r.fcs ∧
    t.flag F.LCS_ST_RES_CLOCK = r.clock ∧ t.flag F.LCS_ST_RES_STO = r.sto ∧
    t.rd F.LCS_ST_RES_UNTESTED = r.vgOut.toNat ∧
    (r.logic || r.mem || r.crypto || decide (2 ≤ countBits 5 r.cores.toNat) → t.flag F.LCS_LC_STAT_HELD ∧
      1 ∈ t.lcs.causes) ∧
    (r.cores = 0 → ¬ r.logic → ¬ r.mem → ¬ r.crypto → ¬ r.fcs → ¬ r.clock → ¬ r.sto → r.banks = 0 →
      (∀ b : Bank, countBits 5 (s.rd (F.ADC_ROT_FAILED b)) < 2) →
      (∀ b q, ∃ x, (b, q, x) ∈ r.cals) → (∀ x ∈ r.cals, sliceOk x.2.2) →
      t.lcs.causes = s.lcs.causes ∧ t.flag F.LCS_LC_STAT_HELD = s.flag F.LCS_LC_STAT_HELD)) ∧
  (s.atTick → s.lcs.verified → s.lcs.tested → s.lcs.restored → ¬ s.inHeld → Gives .bootReady s fun t =>
    t.flag F.LCS_LC_STAT_READY ∧ t.rd F.PMU_STAT_STATE = 1 ∧ t.lcs.booting = false ∧ t.ledger.ended = false ∧
    t.pmu = { s.pmu with wake := none, resuming := false } ∧ t.clk = s.clk ∧ t.plans = s.plans ∧ t.ops = s.ops ∧
    t.hbs = s.hbs ∧ t.reqs = s.reqs ∧ t.gtc = s.gtc)

/-! ### Planner cores, firmware, the life cycle -/

/-- Planner cores (R13, R28, R424 to R428). A spare whose load passes is the spare, on the image loaded; one whose load fails
is FAILED and trips source 40 + q. A swap at its boundary gives the bank to the spare, its old core is loaded, and the
FW_SWAP ends DONE; an obstruction, a reversal or a stop in the bank defers it; with the spare or the core failed meanwhile
it ends FAULT (the model's choice, log entry 106). A core that misses two half-frames or
reports a memory error is FAILED and trips its source; at the next frame boundary the spare takes its bank, or no core
does. Once every core not FAILED runs the staged image, that is ACTIVE, and the least SVN does not fall. -/
def Obligations.PlannerCoresSwapAndFail : Prop := ∀ s : State,
  (∀ (q : Core) n, s.lcs.load = some (q.val, n) →
    let len := match (if s.flag F.LCS_FW_STAT_STG_VALID then s.lcs.staged else s.lcs.active) with
      | some i => i.len
      | none => 0
    let u := s.advTo (n + ceilDiv len 4096 * usClk 100)
    Gives (.spareLoadDone true) s (fun t => t.rd F.MPL_CORE_MAP_SPARE = q.val ∧ t.flag F.LCS_FW_STAT_LOADING = false ∧
      bit q.val (t.rd F.LCS_CORE_IMG_STG) = s.flag F.LCS_FW_STAT_STG_VALID ∧
      RegsBut [Reg.MPL_CORE_MAP, Reg.LCS_FW_STAT, Reg.LCS_CORE_IMG] s t ∧
      t = { u with regs := t.regs, lcs := { s.lcs with load := none } }) ∧
    (coreFailed s q.val = false → s.rd F.MPL_CORE_MAP_SPARE ≠ q.val → s.powered 1 →
      Gives (.spareLoadDone false) s (Tripped (40 + q.val) false
        ({ u.wr F.LCS_FW_STAT_LOADING 0 with lcs := { s.lcs with load := none } }.wr F.MPL_CORE_MAP_FAILED
          (s.rd F.MPL_CORE_MAP_FAILED + 2 ^ q.val))))) ∧
  (∀ o : Op, s.ops.find? (fun o : Op => o.op = 0x29) = some o → s.opOf o.tag = some o → s.atTick → o.t1 ≤ s.now →
    ¬ firstPending s → Gives .plannerCoreSwap s fun t =>
      (swapDeferred s o.d.bank → t = s.setOp { o with deferred := true }) ∧
      (¬ swapDeferred s o.d.bank → coreOf s o.d.bank ≠ 7 → s.rd F.MPL_CORE_MAP_SPARE ≠ 7 →
        Ended o .done o.t1 s.now 0 ((if o.unaligned then 1 else 0) + (if o.deferred then 8 else 0))
          { (((s.wr (coreFld o.d.bank) (s.rd F.MPL_CORE_MAP_SPARE)).wr F.LCS_FW_STAT_MIXED 1).wr
              F.MPL_CORE_MAP_SPARE 7).wr F.LCS_FW_STAT_LOADING 1 with
            lcs := { s.lcs with load := some (coreOf s o.d.bank, s.clk) } } t) ∧
      (¬ swapDeferred s o.d.bank → coreOf s o.d.bank = 7 ∨ s.rd F.MPL_CORE_MAP_SPARE = 7 →
        Ended o .fault o.t1 s.now (40 + ((List.range 5).find? (coreFailed s)).getD 0)
          ((if o.unaligned then 1 else 0) + (if o.deferred then 8 else 0)) s t)) ∧
  (∀ (q : Core) (memory : Bool), memory ∨ (∃ b, coreOf s b = q.val ∧ 2 ≤ (s.bank b).missRun) → coreFailed s q.val = false →
    s.rd F.MPL_CORE_MAP_SPARE ≠ q.val → s.lcs.load = none → s.powered 1 →
    Gives (.plannerCoreFailure q memory) s (Tripped (40 + q.val) false
      (s.wr F.MPL_CORE_MAP_FAILED (s.rd F.MPL_CORE_MAP_FAILED + 2 ^ q.val)))) ∧
  (s.atTick → ¬ firstPending s → Gives .plannerCoreReplace s fun t =>
    ((∀ b, coreOf s b = 7 ∨ coreFailed s (coreOf s b) = false) → t = s) ∧
    (∀ b, coreOf s b ≠ 7 → coreFailed s (coreOf s b) → coreFailed s (s.rd F.MPL_CORE_MAP_SPARE) = false →
      (∀ a, a ≠ b → coreOf s a = 7 ∨ coreFailed s (coreOf s a) = false) →
      coreOf t b = s.rd F.MPL_CORE_MAP_SPARE ∧ t.rd F.MPL_CORE_MAP_SPARE = 7 ∧
      (∀ a, a ≠ b → coreOf t a = coreOf s a) ∧ (∀ n, bankOfAxis n ≠ b → t.plan n = s.plan n) ∧
      (∀ n, bankOfAxis n = b → t.plan n = { s.plan n with book := (t.plan n).book }) ∧
      RegsBut [Reg.MPL_CORE_MAP, Reg.LCS_FW_STAT] s t ∧ t = { s with regs := t.regs, plans := t.plans })) ∧
  (∀ i, s.atTick → s.flag F.LCS_FW_STAT_STG_VALID → s.lcs.staged = some i →
    (∀ q < 5, bit q (s.rd F.LCS_CORE_IMG_STG) ∨ coreFailed s q) → Gives .firmwareCommit s fun t =>
      t.lcs = { s.lcs with active := some i, staged := none } ∧ (i.svn < 64 → minSvn s ≤ t.rd F.LCS_FW_STAT_MIN_SVN) ∧
      t.rd F.LCS_FW_STAT_MIN_SVN = max (minSvn s) i.svn % 64 ∧ t.rd F.LCS_FW_STAT_ACT_SVN = i.svn % 64 ∧
      t.reg Reg.LCS_FW_BUILD_ACT = wordOf i.build ∧ t.flag F.LCS_FW_STAT_STG_VALID = false ∧
      t.flag F.LCS_FW_STAT_MIXED = false ∧ t.reg Reg.LCS_CORE_IMG = 0#32 ∧
      t = { s with regs := t.regs, seqDone := t.seqDone, lcs := t.lcs, ledger := t.ledger })

/-- Staging an image, life-cycle transitions and die temperature (R144, R407, R418 to R422, R475). A staged image that fails
a check ends AUTH_FAIL, one with too low an SVN ROLLBACK with its SVN, and one that passes ends DONE, valid in the STAGED
slot; before either the slot was emptied. A token that passes, or a transition that needs none, ends DONE and the
transition is due; any other ends AUTH_FAIL. At the first frame tick half a frame past its planned start the transition
resets the device into the new state and boots short; BLANK and RETIRED leave no ledger. The hottest sensor is shown in
GLB_TEMP, and at 125 and 140 degrees sources 26 and 27 trip. -/
def Obligations.StagingTransitionsAndTemperature : Prop := ∀ s : State,
  (∀ (tag : Fin 1024) (h : Vector Byte 256) (g : Vector Byte 32) (o : Op), s.opOf tag = some o → o.op = 0x28 →
    let e := o.t2.getD o.t1
    let fl := (if o.unaligned then 1 else 0) + (if o.deferred then 8 else 0)
    let svn := hdr h.toList 8 2
    let good := hdr h.toList 4 4 = o.d.u32 24 ∧ imageOk h.toList g.toList
    Gives (.fwStageDone tag h g) s fun t => ∃ v,
      RegsBut [Reg.LCS_FW_STAT, Reg.LCS_FW_BUILD_ACT, Reg.LCS_FW_BUILD_STG, Reg.LCS_CORE_IMG, Reg.MPL_CORE_MAP] s v ∧
      v = { s.advToGtc e with regs := v.regs, lcs := { s.lcs with staged := v.lcs.staged, load := v.lcs.load } } ∧
      (if ¬ good then
        v.lcs.staged = none ∧ v.flag F.LCS_FW_STAT_STG_VALID = false ∧ Ended o .authFail o.t1 e 0 fl v t
      else if svn < minSvn s then
        v.lcs.staged = none ∧ v.flag F.LCS_FW_STAT_STG_VALID = false ∧ Ended o .rollback o.t1 e svn fl v t
      else
        v.lcs.staged = some ⟨hdr h.toList 4 4, svn, hdr h.toList 12 4, true⟩ ∧
        v.flag F.LCS_FW_STAT_STG_VALID ∧ v.reg Reg.LCS_CORE_IMG = 0#32 ∧ Ended o .done o.t1 e 0 fl v t)) ∧
  (∀ (tag : Fin 1024) (token : Vector Byte 192) (o : Op), s.opOf tag = some o → o.op = 0x2A → o.t1 ≤ s.now →
    let goal := o.d.u8 16
    let fl := (if o.unaligned then 1 else 0) + (if o.deferred then 8 else 0)
    let owner := if goal = lcProvisioned then (token.toList.drop 64).take 64 else []
    Gives (.lcTokenCheck tag token) s fun t =>
      if goal = lcOperational ∨ tokenOk s goal (o.data.getD 0 0) token.toList then
        Ended o .done o.t1 (o.t2.getD o.t1) 0 fl { s with lcs := { s.lcs with transit := some (goal, o.t1, owner) } } t
      else Ended o .authFail o.t1 s.now 0 fl s t) ∧
  (∀ goal t1 owner, s.lcs.transit = some (goal, t1, owner) → s.atTick → s.tfNs ≤ 2 * (s.now - t1) → ¬ s.halted →
    Gives .lifecycleTransition s fun t => t.rd F.LCS_LC_STAT_STATE = goal % 8 ∧ t.flag F.LCS_RST_CAUSE_TRANSIT ∧
      t.rd F.HIF_MGMT_OWNER = s.rd F.HIF_MGMT_OWNER ∧ t.linkUp .A = s.linkUp .A ∧ t.linkUp .B = s.linkUp .B ∧
      (goal = lcBlank ∨ goal = lcRetired → t.ledger.store = [] ∧ t.lcs.devKey = none ∧ t.lcs.store = none) ∧
      (goal = lcProvisioned → t.lcs.ownerKey = owner ∧ t.lcs.devKey.isSome) ∧
      ∃ v, Wiped s v ∧ (∀ d, v.powered d = s.powered d) ∧ Boots true 0 v t) ∧
  (∀ (banks : Vector (BitVec 16) 4) (x : BitVec 16), s.powered 5 → s.powered 1 → (∀ b : Bank, ¬ s.powered (12 + b.val)) →
    Gives (.dieTemperatureSample banks [x]) s fun t =>
      t.reg Reg.GLB_TEMP = wordOf (ofSigned 16 x.toInt) ∧
      (x.toInt < 1250 → (t.src 26).active = false ∧ (t.src 26).total = (s.src 26).total) ∧
      (1250 ≤ x.toInt → (s.src 26).active = false →
        (t.src 26).active ∧ (t.src 26).total = min 255 ((s.src 26).total + 1)) ∧
      (1400 ≤ x.toInt → (s.src 27).active = false →
        (t.src 27).active ∧ (t.src 27).total = min 255 ((s.src 27).total + 1)) ∧
      (∀ j, j ≠ 26 → j ≠ 27 → t.src j = s.src j) ∧
      Reaction (s.setReg Reg.GLB_TEMP (wordOf (ofSigned 16 x.toInt)))
        { t with fcs := { t.fcs with srcs := s.fcs.srcs } })

/-! ### The ports -/

/-- A link comes up (R95, R100, R116, R120, R124, R374): LINK_UP, SPEED and no L1; the host configures the function; the
first port to train after a reset is the owner, port A where both train in one clock; source 16 or 17 is no longer ACTIVE;
what was held is sent, in order, and then the messages that no mask holds any more. Bus mastering enabled anew does the
same after a function-level reset. L1 is shown, and takes REC of port A out of use. Before port A enters D3hot a reference
of REC is left for a VALID XO; its fetching stops. -/
def Obligations.LinksTrainAndReturn : Prop := ∀ (s : State) (p : Port),
  let up := onPort p F.HIF_PORT_STAT_LINK_UP
  let written := fun h : Held => match h with
    | .record k cls i addr ws => Out.record p k cls i addr ws
    | .data addr ws => .data p addr ws
  let returns := fun (c : PortCfg) (l : List Nat) (q : PortS) (t : State) =>
    let sends := s.flag F.LCS_LC_STAT_READY ∨ s.flag F.LCS_LC_STAT_HELD
    t.port p = { q with
      master := true, d3 := false, ptmOn := c.ptm, msixOn := c.msix, fmask := c.fmask
      maxRead := c.maxRead.toNat, maxPay := c.maxPay.toNat, held := if sends then [] else q.held } ∧
    t.port p.other = s.port p.other ∧ (∀ o, o % portBBase < 0x40000 → o ∉ l → t.reg o = s.reg o) ∧
    (¬ sends → t.sent = s.sent ∧ t.ctxs = s.ctxs) ∧
    (sends → ∃ sent, t.sent = s.sent ++ sent ∧ (q.held.map written).Sublist sent) ∧
    (sends → c.msix → ¬ c.fmask → ∀ k, ¬ s.flag (msixCtl p k) → t.flag (msixPend p k) = false ∧
      (s.flag (msixPend p k) → msixOut s p k ∈ t.sent))
  (∀ (speed : Fin 3) c, portOn s p → Gives (.linkTrained p ⟨speed, c⟩) s fun t =>
    t.flag up ∧ t.rd (onPort p F.HIF_PORT_STAT_SPEED) = speed.val + 1 ∧ t.flag (onPort p F.HIF_PORT_STAT_L1) = false ∧
    (t.src (16 + p.num)).active = false ∧ (∀ j, j ≠ 16 + p.num → t.src j = s.src j) ∧
    t.rd F.HIF_MGMT_OWNER = (if ¬ (s.port p).everUp ∧
      (¬ (s.port p.other).everUp ∨ p = .A ∧ s.portB.downAt = s.clk ∧ s.linkUp .B) then p.num else s.rd F.HIF_MGMT_OWNER) ∧
    returns c [Reg.HIF_MGMT, up.off, Reg.CLK_STAT] { s.port p with everUp := true, downAt := s.clk } t ∧
    t = { s with
      regs := t.regs, portA := t.portA, portB := t.portB, fcs := { s.fcs with srcs := t.fcs.srcs }, ctxs := t.ctxs
      sent := t.sent, ckg := { s.ckg with recGood := t.ckg.recGood } }) ∧
  (∀ c, s.linkUp p → Gives (.busMasterEnable ⟨p, c⟩) s fun t => returns c [] (s.port p) t ∧
    t = { s with regs := t.regs, portA := t.portA, portB := t.portB, ctxs := t.ctxs, sent := t.sent }) ∧
  (s.linkUp p → Gives (.linkL1Entry p) s fun t => t.flag (onPort p F.HIF_PORT_STAT_L1) ∧
    RegsBut [up.off, Reg.CLK_STAT] s t ∧ (p = .A → recEligible t = false) ∧
    (p = .A → s.rd F.CLK_STAT_REC = 2 → s.rd F.CLK_STAT_REF ≠ 2 → t.rd F.CLK_STAT_REC = 0) ∧
    t = { s with regs := t.regs, ckg := { s.ckg with recGood := t.ckg.recGood } }) ∧
  (s.linkUp p → Gives (.linkL1Exit p) s fun t => t.flag (onPort p F.HIF_PORT_STAT_L1) = false ∧
    RegsBut [up.off, Reg.CLK_STAT] s t ∧
    (p = .A → s.flag F.CKG_CFG_REC_EN → s.rd F.CLK_STAT_REC = 0 → t.rd F.CLK_STAT_REC = 1) ∧
    t = { s with regs := t.regs, ckg := { s.ckg with recGood := t.ckg.recGood } }) ∧
  (s.linkUp .A → (∀ k, (s.ctx k).members = []) → Gives .d3hotRequest s fun t => ∃ u,
    (¬ (clkOn s ∧ s.rd F.CLK_STAT_REF = 2 ∧ s.rd F.CLK_STAT_XO = 2) → u = s) ∧
    (clkOn s → s.rd F.CLK_STAT_REF = 2 → s.rd F.CLK_STAT_XO = 2 → s.ckg.sw = none → ¬ s.flag F.CLK_STAT_HOLD →
      u = (({ s with ckg := { s.ckg with sw := none } }.sqc F.CLK_STAT_SWITCH).wr F.CLK_STAT_REF 1).wr F.CLK_STAT_LOCK 0) ∧
    (∀ k, t.ctx k = if s.ctxPort k = .A then { s.ctx k with due := 0 } else s.ctx k) ∧
    t = { u with portA := { s.portA with d3 := true, page := false }, ctxs := t.ctxs })

/-- A link goes down (R114, R121, R124): LINK_UP, SPEED and L1 clear and LOST sets; the port's fetching stops; the latest
writes not acknowledged are held again ahead of those held, no more than 256 events among them; a telemetry block among them
is dropped, counted, and its stream shows GAP; source 16 or 17 trips and stays ACTIVE; and PTM on that port loses LOCK. A hot
reset, a disable and PERST_N do the same and clear the port's MSI-X table, its pending bits and its doorbell base (R122,
R498); a function-level reset clears these and the function's configuration while the link stays up. -/
def Obligations.LinksGoDown : Prop := ∀ (s : State) (p : Port),
  let stat := (onPort p F.HIF_PORT_STAT_LINK_UP).off
  let cleared := fun o : Nat => (portOff p 0x80000 ≤ o ∧ o < portOff p 0x80400) ∨
    (portOff p 0x81000 ≤ o ∧ o < portOff p 0x81008) ∨ o = portOff p Reg.HIF_DB_BASE_LO ∨ o = portOff p Reg.HIF_DB_BASE_HI
  (∀ n, s.linkUp p → s.powered 1 → Gives (.linkDown p n) s fun t =>
    let again := if (s.port p).master then unacked s p n else []
    let drop := fun i : Fin 8 => F.HIF_TLM_STAT_DROP i.val
    t.linkUp p = false ∧ t.rd (onPort p F.HIF_PORT_STAT_SPEED) = 0 ∧ t.flag (onPort p F.HIF_PORT_STAT_L1) = false ∧
    t.flag (onPort p F.HIF_PORT_STAT_LOST) ∧ (t.port p).downAt = s.clk ∧ (t.port p).page = false ∧
    (∀ k, s.ctxPort k = p → (t.ctx k).due = 0) ∧
    (let all := again.filterMap (fun | .hold h => some h | .block _ _ => none) ++ (s.port p).held
     (if (s.port p).master then (capEvents 256 all).1 else all) <+: (t.port p).held) ∧
    (∀ i, t.rd (drop i) = min 65535 (s.rd (drop i) + again.count (.block i true)) ∧
      t.stream i = if Unacked.block i true ∈ again then { s.stream i with gap := true } else s.stream i) ∧
    (t.src (16 + p.num)).active ∧ (t.src (16 + p.num)).total = min 255 ((s.src (16 + p.num)).total + 1) ∧
    (s.rd F.TBS_PTM_CTRL_PORT = p.num → t.flag F.TBS_PTM_STAT_LOCK = false) ∧
    (∀ o, faultReg o = false → (∀ i, o ≠ (drop i).off) → o ∉ [stat, Reg.CLK_STAT, Reg.TBS_PTM_STAT] → t.reg o = s.reg o) ∧
    t.clk = s.clk ∧ t.gtc = s.gtc ∧ t.reqs = s.reqs ∧ t.coils = s.coils ∧ t.fbks = s.fbks ∧ t.gdrs = s.gdrs ∧
    t.adcs = s.adcs ∧ t.lcs = s.lcs ∧ t.bufs = s.bufs ∧ t.dirty = s.dirty) ∧
  (∀ n c, portOn s p → c = .hotReset p n ∨ c = .linkDisable p n ∨ c = .perstAssert p n → Gives c s fun t =>
    ∃ u, exec (.linkDown p n) s = .next u ∧ (∀ o, cleared o → t.reg o = resetWord o) ∧
      (∀ o, ¬ cleared o → t.reg o = u.reg o) ∧ t = { u with regs := t.regs }) ∧
  (s.linkUp p → (∀ k, s.ctxPort k = p → (s.ctx k).members = []) → Gives (.functionLevelReset p) s fun t =>
    t.linkUp p ∧ (∀ o, cleared o → t.reg o = resetWord o) ∧ (∀ o, ¬ cleared o → t.reg o = s.reg o) ∧
    t.port p = { s.port p with
      master := false, ptmOn := false, msixOn := false, fmask := false, maxRead := 2, maxPay := 0, d3 := false, page := false } ∧
    t.port p.other = s.port p.other ∧
    (∀ k, t.ctx k = if s.ctxPort k = p then { s.ctx k with due := 0 } else s.ctx k) ∧
    t = { s with regs := t.regs, portA := t.portA, portB := t.portB, ctxs := t.ctxs })

/-- Management ownership moves at the frame tick after HANDOVER while no operation of context 0 is in flight and the other
link is up, or after a CLAIM of the other port once the owner's link has been down for 100 ms; the request clears either way,
unless it was made anew, and else REFUSED sets (R74, R101). As it moves, the rings of context 0 restart, and the OWNERSHIP
event is its first (R106, R126, R152). Ports that read no page then fetch for their contexts, once no change of the boundary
is left (R27, R107). -/
def Obligations.OwnershipMovesAtTheTick : Prop := ∀ s : State, s.atTick →
  let owner := portOf (s.rd F.HIF_MGMT_OWNER)
  let answers := fun (P : State → Prop) => Gives .ownershipChange s fun t => ∃ w, P w ∧ t = w.mmioServe ∧
    (s.portA.mmio = false → s.portB.mmio = false → t = w)
  let moved := fun (z t : State) =>
    (∀ h ∈ s.portA.held ++ s.portB.held, heldOf 0 h = false) → ∃ u, u.rd F.HIF_MGMT_OWNER = 1 - s.rd F.HIF_MGMT_OWNER ∧
      u.rd (F.HIF_CTX_CONS_CONS 0) = 0 ∧ u.rd (F.HIF_CTX_CQ_TAIL_TAIL 0) = 0 ∧ u.rd (F.HIF_CTX_CQ_HEAD_HEAD 0) = 0 ∧
      u.rd (F.HIF_CTX_EQ_TAIL_TAIL 0) = 0 ∧ u.rd (F.HIF_CTX_EQ_HEAD_HEAD 0) = 0 ∧
      RegsBut [Reg.HIF_MGMT, Reg.HIF_CTX_CONS 0, Reg.HIF_CTX_CQ_TAIL 0, Reg.HIF_CTX_EQ_TAIL 0, Reg.HIF_CTX_CQ_HEAD 0,
        Reg.HIF_CTX_EQ_HEAD 0, Reg.HIF_CTX_STAT 0] z u ∧
      u = { z.setCtx 0 { s.ctx 0 with
        due := 0, waits := 0, stalled := false, snapF := cqSize s 0, snapI := s.infl 0 } with regs := u.regs } ∧
      (CanNotify u 0 → Notified 0 ⟨0x000B, 736, u.rd F.HIF_MGMT_OWNER, s.now, 0, 0, none, false⟩ u t)
  (s.ripe .handover →
    let z := (s.drop .handover).goDone .handover F.HIF_MGMT_HANDOVER
    answers fun t => (¬ (s.drop .handover).has .handover → t.flag F.HIF_MGMT_HANDOVER = false) ∧
      (s.infl 0 = 0 → s.linkUp owner.other → moved z t) ∧
      (s.infl 0 ≠ 0 ∨ ¬ s.linkUp owner.other → t = z.sqc F.HIF_MGMT_REFUSED)) ∧
  (¬ s.ripe .handover → s.ripe (.claim owner.other) →
    let z := (s.drop (.claim owner.other)).goDone (.claim owner.other) F.HIF_MGMT_CLAIM
    let gone := ¬ s.linkUp owner ∧ (s.port owner).downAt + msClk 100 ≤ s.clk
    answers fun t => (¬ (s.drop (.claim owner.other)).has (.claim owner.other) → t.flag F.HIF_MGMT_CLAIM = false) ∧
      (gone → moved z t) ∧ (¬ gone → t = z.sqc F.HIF_MGMT_REFUSED)) ∧
  (¬ s.ripe .handover → ¬ s.ripe (.claim owner.other) → s.ripe (.claim owner) → answers fun t =>
    t = ((s.drop (.claim owner)).goDone (.claim owner) F.HIF_MGMT_CLAIM).sqc F.HIF_MGMT_REFUSED)

/-- Events and messages (R114 to R116, R123). An EVENTS_LOST event tells how many were lost, once there is room. The oldest
unsignalled record of a context that is TIME us old sends the message of the context, with its table entry's address and
data, or sets its pending bit where the vector or the function is masked or MSI-X is off (log entry 25). Unmasking a vector,
or the function, sends what is pending and no longer masked. A host watchdog that is not kicked for TIMEOUT ms stops and
trips source 18 or 19. -/
def Obligations.MessagesAndWatchdogs : Prop := ∀ s : State,
  (∀ k, 0 < (s.ctx k).lost → s.eventRoom k → Gives (.eventsLost k) s
    (Notified k ⟨0x000A, 672 + k.val, (s.ctx k).lost, s.now, 0, 0, none, false⟩ (s.setCtx k { s.ctx k with lost := 0 }))) ∧
  (∀ k, (s.ctx k).unsig ≠ 0 → s.canSend (s.ctxPort k) →
    let p := s.ctxPort k
    let u := s.advTo ((s.ctx k).unsigAt + usClk (s.ctx k).modTime)
    Gives (.msixModerationTimeout k) s fun t => t =
      if s.flag (msixCtl p k) ∨ (s.port p).fmask ∨ (s.port p).msixOn = false then u.wr (msixPend p k) 1
      else (u.setCtx k { s.ctx k with unsig := 0 }).emit (msixOut s p k)) ∧
  (∀ (p : Port) (k : Ctx), s.linkUp p →
    let u := s.wr (msixCtl p k) 0
    let v := if s.ctxPort k = p then u.setCtx k { s.ctx k with unsig := 0 } else u
    Gives (.msixVectorUnmask p (some k)) s fun t => t =
      if s.flag (msixPend p k) ∧ ¬ (s.port p).fmask ∧ (s.port p).msixOn ∧ s.canSend p then
        (v.wr (msixPend p k) 0).emit (msixOut s p k)
      else u) ∧
  (∀ p : Port, s.linkUp p → Gives (.msixVectorUnmask p none) s fun t =>
    let goes := fun k => s.canSend p ∧ (s.port p).msixOn ∧ s.flag (msixPend p k) ∧ ¬ s.flag (msixCtl p k)
    t.port p = { s.port p with fmask := false } ∧ t.port p.other = s.port p.other ∧
    (∀ k, goes k → msixOut s p k ∈ t.sent ∧ t.flag (msixPend p k) = false) ∧
    (∀ k, ¬ goes k → t.flag (msixPend p k) = s.flag (msixPend p k)) ∧
    (∀ k, t.ctx k = if goes k ∧ s.ctxPort k = p then { s.ctx k with unsig := 0 } else s.ctx k) ∧
    RegsBut [portOff p 0x81000, portOff p 0x81004] s t ∧
    t = { s with regs := t.regs, portA := t.portA, portB := t.portB, ctxs := t.ctxs, sent := t.sent }) ∧
  (∀ p : Port, (s.port p).dogRun → s.rd (onPort p F.HIF_WDOG_TIMEOUT) ≠ 0 → portOn s p → s.powered 1 →
    Gives (.hostWatchdogExpiry p) s (Tripped (18 + p.num) false
      ((s.advTo ((s.port p).dogAt + msClk (s.rd (onPort p F.HIF_WDOG_TIMEOUT)))).setPort p
        { s.port p with dogRun := false })))

/-! ### What the host writes -/

/-- A write of the host that asks for something at a frame boundary takes one clock, sets its GO bit and leaves the request
waiting, and does nothing else: the strobe, lock-up and unlock (R82, R91, R93), debug halt and resume (R429, R431), the
clock return and a Fallow entry (R379, R397), the open-wire test (R310), handover by the owner and claim by the other port
(R101), and the clearing of one source or all (R372). -/
def Obligations.HostRequestsWaitForTheTick : Prop := ∀ (s : State) (p : Port),
  (canWrite s p Reg.LCS_UPD_CTRL → ¬ s.has .strobe → Gives (.strobeRequest p) s fun t =>
    Waits .strobe [Reg.LCS_UPD_CTRL, Reg.LCS_UPD_STAT] s t ∧ t.flag F.LCS_UPD_CTRL_GO ∧ t.flag F.LCS_UPD_STAT_BUSY) ∧
  (canWrite s p Reg.LCS_LOCK_CTRL → ¬ s.has .lockUp → s.lcs.freeze = none → Gives (.lockRequest p) s fun t =>
    Waits .lockUp [Reg.LCS_LOCK_CTRL] s t ∧ t.flag F.LCS_LOCK_CTRL_LOCK) ∧
  (canWrite s p Reg.LCS_LOCK_CTRL → ¬ s.has .unlock → Gives (.unlockRequest p) s fun t =>
    Waits .unlock [Reg.LCS_LOCK_CTRL] s t ∧ t.flag F.LCS_LOCK_CTRL_UNLOCK) ∧
  (canWrite s p Reg.LCS_DBG_CTRL → ¬ s.has .halt → Gives (.debugHaltRequest p) s fun t =>
    Waits .halt [Reg.LCS_DBG_CTRL] s t ∧ t.flag F.LCS_DBG_CTRL_HALT) ∧
  (canWrite s p Reg.LCS_DBG_CTRL → ¬ s.has .resume → Gives (.debugResumeRequest p) s fun t =>
    Waits .resume [Reg.LCS_DBG_CTRL] s t ∧ t.flag F.LCS_DBG_CTRL_RESUME) ∧
  (canWrite s p Reg.CKG_CTRL → ¬ s.has .clkReturn → Gives (.clockReturn p) s fun t =>
    Waits .clkReturn [Reg.CKG_CTRL] s t ∧ t.flag F.CKG_CTRL_RETURN) ∧
  (canWrite s p Reg.PMU_CTRL → ¬ s.has .fallowEnter → Gives (.fallowEnterRequest p) s fun t =>
    Waits .fallowEnter [Reg.PMU_CTRL] s t ∧ t.flag F.PMU_CTRL_ENTER) ∧
  (∀ b : Bank, canWrite s p (Reg.ADC_OWT b) → ¬ s.has (.owt b) → (s.adc b).owt = none →
    Gives (.openWireTestRequest p b) s fun t =>
      Waits (.owt b) [Reg.ADC_OWT b] s t ∧ t.flag (F.ADC_OWT_GO b)) ∧
  (canWrite s p Reg.HIF_MGMT → portOf (s.rd F.HIF_MGMT_OWNER) = p → ¬ s.has .handover → Gives (.handover p) s fun t =>
    Waits .handover [Reg.HIF_MGMT] s t ∧ t.flag F.HIF_MGMT_HANDOVER) ∧
  (canWrite s p Reg.HIF_MGMT → portOf (s.rd F.HIF_MGMT_OWNER) ≠ p → ¬ s.has (.claim p) → Gives (.claim p) s fun t =>
    Waits (.claim p) [Reg.HIF_MGMT] s t ∧ t.flag F.HIF_MGMT_CLAIM) ∧
  (∀ src : Source, canWrite s p Reg.FCS_CLR → Gives (.faultClearRequest p src) s fun t =>
    Waits (.clearSrc src.val) [Reg.FCS_CLR] s t ∧ t.flag F.FCS_CLR_GO) ∧
  (canWrite s p Reg.FCS_CLR → Gives (.faultClearAllRequest p) s fun t =>
    Waits .clearAll [Reg.FCS_CLR] s t ∧ t.flag F.FCS_CLR_GO)

/-- A register write by field type (R63, R64, R66, R76, R80). An RW register takes the bytes enabled. Of an axis register of
RWB fields only the buffered copy takes them, with the marks of R81, whether or not its domain is on. A write to LO of a pair
is held, and the write to HI applies both. A write lands one clock after the command before it, or in the same clock where
two accesses can share one. -/
def Obligations.WritesActByFieldType : Prop := ∀ (s : State) (p : Port) (off : BitVec 20) (be : Fin 16) (w : Word)
    (same : Bool),
  let o := off.toNat
  let m := beMask be.val
  let lands := fun (s : State) (o : Nat) => if same && sameClock s p (o / 4 * 4) then s else s.advTo (s.clk + 1)
  let u := lands s o
  (o ∈ [Reg.GLB_SCRATCH, Reg.LCS_UPD_MASK_HI, Reg.LCS_PROOF_EXPECT, Reg.CND_DXC_NONCE 0, Reg.CND_DXC_NONCE 1,
      Reg.CND_DXC_NONCE 2, Reg.CND_DXC_NONCE 3] → canWrite s p o → Gives (.registerWrite p off be w same) s fun t =>
    t.reg o = mergeMask m (s.reg o) w ∧ RegsBut [o] s t ∧ t = { u with regs := t.regs, inClk := t.inClk }) ∧
  (∀ r i, rowOf o = some (r, i) → 0x20000 ≤ o → o < 0x28000 → o % 4 = 0 → r.rwb ≠ 0 → r.rw = 0 → r.sqc = 0 → r.cnts = [] →
    r.clips = [] → isPairLo o = false → isPairLo (o - 4) = false → barLive s p →
    Gives (.registerWrite p off be w same) s fun t =>
      t.buf o = mergeMask (Nat.land m r.rwb) (s.buf o) w ∧ t.dirtyBits o = s.dirtyBits o ||| wordOf (Nat.land m r.rwb) ∧
      (∀ a, a ≠ o → t.buf a = s.buf a ∧ t.dirtyBits a = s.dirtyBits a) ∧ (∀ a, t.reg a = s.reg a) ∧
      t = { u with regs := t.regs, bufs := t.bufs, dirty := t.dirty, inClk := t.inClk }) ∧
  (∀ (n : Axis) (v : Word), o = Reg.MPL_TRAVEL_MIN_LO n → barLive s p →
    Gives (.registerWrite p off 15 v same) s fun x => (∀ a, x.buf a = s.buf a ∧ x.reg a = s.reg a) ∧
      x = { u with loHeld := x.loHeld, inClk := x.inClk } ∧
      Gives (.registerWrite p (off + 4) 15 w same) x fun t => t.buf o = v ∧ t.buf (o + 4) = w ∧
        (∀ a, a ≠ o → a ≠ o + 4 → t.buf a = s.buf a) ∧ (∀ a, t.reg a = s.reg a) ∧
        t = { lands x (o + 4) with
          regs := t.regs, bufs := t.bufs, dirty := t.dirty, loHeld := t.loHeld, inClk := t.inClk })

/-- A register write that is not taken (R65, R68, R70, R95, R98): one through a port whose link is down or whose function is
in D3hot, or to a place without a register, does nothing. To a management-only register from the port without ownership it
sets MGMT, and to a register whose domain is off it sets OFF, unless the register has RWB fields; HIF_ACC_ADDR takes the
offset. -/
def Obligations.RefusedWritesAreShown : Prop := ∀ (s : State) (p : Port) (off : BitVec 20) (be : Fin 16) (w : Word)
    (same : Bool),
  let o := off.toNat
  let u := if same && sameClock s p (o / 4 * 4) then s else s.advTo (s.clk + 1)
  let shown := fun (f : Fld) (t : State) => t.flag (onPort p f) ∧ t.reg (portOff p Reg.HIF_ACC_ADDR) = wordOf o ∧
    RegsBut [portOff p Reg.HIF_ACC_STAT, portOff p Reg.HIF_ACC_ADDR] s t ∧
    t = { u with regs := t.regs, seqDone := t.seqDone, inClk := t.inClk }
  (¬ barLive s p → exec (.registerWrite p off be w same) s = .next s) ∧
  (barLive s p → o < 0x40000 → o % 4 = 0 →
    (rowOf o = none → exec (.registerWrite p off be w same) s = .next (u.noteAcc p o)) ∧
    (∀ r i, rowOf o = some (r, i) → o ≠ Reg.HIF_IND_ADDR → o ≠ Reg.HIF_IND_DATA →
      (r.mgmt → portOf (s.rd F.HIF_MGMT_OWNER) ≠ p →
        Gives (.registerWrite p off be w same) s (shown F.HIF_ACC_STAT_MGMT)) ∧
      ((r.mgmt → portOf (s.rd F.HIF_MGMT_OWNER) = p) → r.rwb = 0 → regOn s r i p = false →
        Gives (.registerWrite p off be w same) s (shown F.HIF_ACC_STAT_OFF))))

/-- The indirect window of a port (R78, R79, R467). A write of ADDR starts a fetch; as it completes the word is held and
READY sets, an address outside the space shows RANGE and reads zero; a read of DATA answers the word held, after the fetch
if one runs; a write of DATA acts as the direct write, and in the clock in which a fetch completes it abandons that fetch.
With INC either access moves ADDR on by 4 and fetches. -/
def Obligations.IndirectWindowFetchesAndStores : Prop := ∀ (s : State) (p : Port), portOn s p →
  let addr := portOff p Reg.HIF_IND_ADDR
  let data := portOff p Reg.HIF_IND_DATA
  let stat := portOff p Reg.HIF_IND_STAT
  let onward := fun (q : PortS) (x t : State) =>
    (¬ x.flag (onPort p F.HIF_IND_CTRL_INC) → t.port p = q ∧ t.regs = x.regs) ∧
    (x.flag (onPort p F.HIF_IND_CTRL_INC) →
      t.reg addr = wordOf (indAddr x p + 4) ∧ ¬ t.flag (onPort p F.HIF_IND_STAT_READY) ∧
      t.port p = { q with fetching := true, doneAt := none } ∧ RegsBut [addr, stat] x t) ∧
    t.port p.other = x.port p.other ∧ t = { x with regs := t.regs, portA := t.portA, portB := t.portB, inClk := t.inClk }
  (∀ w : Word, barLive s p → Gives (.indAddrWrite p w) s fun t =>
    t.rd (onPort p F.HIF_IND_ADDR_ADDR) = w.toNat / 4 ∧ ¬ t.flag (onPort p F.HIF_IND_STAT_READY) ∧
    t.port p = { s.port p with fetching := true, doneAt := none, winAt := s.clk + 1 } ∧ t.port p.other = s.port p.other ∧
    RegsBut [addr, stat] s t ∧
    t = { s.advTo (s.clk + 1) with regs := t.regs, portA := t.portA, portB := t.portB, inClk := t.inClk }) ∧
  ((s.port p).fetching → Gives (.indFetchDone p) s fun t =>
    let a := indAddr s p
    let u := s.advTo ((s.port p).winAt + 1)
    t.flag (onPort p F.HIF_IND_STAT_READY) ∧
    t.port p = { s.port p with fetching := false, doneAt := some u.clk } ∧ t.port p.other = s.port p.other ∧
    (∀ r i, rowOf a = some (r, i) → a < 0x40000 → regOn s r i p → t.reg data = regRead u p a r ∧ RegsBut [data, stat] s t) ∧
    (0x100000 ≤ a → a < 0x102000 → s.powered 1 → t.reg data = storeWord s (a - 0x100000)) ∧
    (0x108040 ≤ a → t.reg data = 0#32 ∧ t.flag (onPort p F.HIF_ACC_STAT_RANGE) ∧
      t.reg (portOff p Reg.HIF_ACC_ADDR) = wordOf a) ∧
    RegsBut [data, stat, portOff p Reg.HIF_ACC_STAT, portOff p Reg.HIF_ACC_ADDR] s t ∧
    t = { u with regs := t.regs, portA := t.portA, portB := t.portB, seqDone := t.seqDone }) ∧
  (barLive s p → Gives (.indDataRead p) s fun t =>
    let z := (s.advTo (s.clk + 1)).noteAcc p Reg.HIF_IND_DATA
    ∃ x, ((s.port p).fetching → exec (.indFetchDone p) z = .next x) ∧ (¬ (s.port p).fetching → x = z) ∧
      onward (x.port p) (x.emit (.value p (x.reg data))) t) ∧
  (∀ (be : Fin 16) (w : Word), barLive s p → indAddr s p < 0x40000 → indAddr s p ≠ Reg.HIF_IND_ADDR →
    indAddr s p ≠ Reg.HIF_IND_DATA → (s.port p).doneAt ≠ some (s.clk + 1) → Gives (.indDataWrite p be w) s fun t =>
      ∃ x, exec (.registerWrite p (BitVec.ofNat 20 (indAddr s p)) be w false) s = .next x ∧
        onward { x.port p with winAt := x.clk } x t) ∧
  (∀ (be : Fin 16) (w : Word), barLive s p → (s.port p).doneAt = some s.clk → sameClock s p Reg.HIF_IND_DATA →
    Gives (.registerWrite p (BitVec.ofNat 20 Reg.HIF_IND_DATA) be w true) s fun t =>
      (t.port p).fetching ∧ (t.port p).doneAt = none ∧ ¬ t.flag (onPort p F.HIF_IND_STAT_READY))

/-- Consumer indices, the watchdog and the force register. A head past TAIL or behind by more than the ring is ignored and
shows HEAD_ERR, one through the other port WRONG_PORT (R99, R106); a telemetry head ahead of TAIL or from the other port is
ignored (R119). A kick or a write of TIMEOUT starts the watchdog anew (R123). PWM_FORCE is taken only where the open loop may
drive, and else FREJ shows it (R223); in a debug halt it is ignored (R225). -/
def Obligations.IndicesWatchdogAndForce : Prop := ∀ (s : State) (p : Port) (w : Word), barLive s p →
  let u := s.advTo (s.clk + 1)
  (∀ (k : Ctx) (eq : Bool),
    let f := if eq then F.HIF_CTX_EQ_HEAD_HEAD k else F.HIF_CTX_CQ_HEAD_HEAD k
    let tail := s.rd (if eq then F.HIF_CTX_EQ_TAIL_TAIL k else F.HIF_CTX_CQ_TAIL_TAIL k)
    let size := if eq then eqSize s k else cqSize s k
    let z := (u.noteAcc p f.off).wakeEvent 4
    Gives (if eq then .eqHeadWrite p k w else .cqHeadWrite p k w) s fun t =>
      (s.ctxPort k ≠ p → t = z.sqc (F.HIF_CTX_STAT_WRONG_PORT k)) ∧
      (s.ctxPort k = p → size < idxDiff tail w.toNat → t = z.sqc (F.HIF_CTX_STAT_HEAD_ERR k)) ∧
      (s.ctxPort k = p → idxDiff tail w.toNat ≤ size → (eq → (s.ctx k).lost = 0) →
        t.rd f = w.toNat ∧ RegsBut [f.off] s t ∧ t = { z with regs := t.regs }) ∧
      (s.ctxPort k = p → idxDiff tail w.toNat ≤ size → eq → 0 < (s.ctx k).lost → (z.wr f w.toNat).eventRoom k →
        Notified k ⟨0x000A, 672 + k.val, (s.ctx k).lost, u.now, 0, 0, none, false⟩
          ((z.wr f w.toNat).setCtx k { s.ctx k with lost := 0 }) t)) ∧
  (∀ i : Fin 8, s.powered 5 → Gives (.tlmHeadWrite p i w) s fun t =>
    (streamPort s i = some p.other ∨ 2 ^ s.rd (F.HIF_TLM_CFG_LOG i) < idxDiff (s.rd (F.HIF_TLM_TAIL_TAIL i)) w.toNat →
      t = { u with inClk := t.inClk }) ∧
    (streamPort s i ≠ some p.other → idxDiff (s.rd (F.HIF_TLM_TAIL_TAIL i)) w.toNat ≤ 2 ^ s.rd (F.HIF_TLM_CFG_LOG i) →
      t.reg (Reg.HIF_TLM_HEAD i) = w ∧ RegsBut [Reg.HIF_TLM_HEAD i] s t ∧ t = { u with inClk := t.inClk, regs := t.regs })) ∧
  (Gives (.hostWatchdogKick p) s fun t =>
    t.port p = { s.port p with dogRun := s.rd (onPort p F.HIF_WDOG_TIMEOUT) ≠ 0, dogAt := u.clk } ∧
    t.port p.other = s.port p.other ∧ (∀ o, t.reg o = s.reg o) ∧
    t = { u with inClk := t.inClk, regs := t.regs, portA := t.portA, portB := t.portB }) ∧
  (∀ ms : BitVec 16, Gives (.hostWatchdogTimeoutSet p ms) s fun t =>
    t.rd (onPort p F.HIF_WDOG_TIMEOUT) = ms.toNat ∧ RegsBut [portOff p Reg.HIF_WDOG] s t ∧
    t.port p = { s.port p with dogRun := ms.toNat ≠ 0, dogAt := u.clk } ∧ t.port p.other = s.port p.other ∧
    t = { u with inClk := t.inClk, regs := t.regs, portA := t.portA, portB := t.portB }) ∧
  (∀ h : HalfBridge, s.powered (8 + h.val / 32) → Gives (.pwmForceWrite p h w) s fun t =>
    (s.halted → t = { u with inClk := t.inClk }) ∧
    (¬ s.halted → olPermit s (axisOfHb h) → t.reg (Reg.PWM_FORCE h) = mergeMask 7 (s.reg (Reg.PWM_FORCE h)) w ∧
      RegsBut [Reg.PWM_FORCE h] s t ∧ t.hb h = { s.hb h with bothSeen := false } ∧ (∀ j, j ≠ h → t.hb j = s.hb j) ∧
      t = { u with inClk := t.inClk, regs := t.regs, hbs := t.hbs }) ∧
    (¬ s.halted → ¬ olPermit s (axisOfHb h) → t.flag (F.PWM_STAT_FREJ (bankOfHb h)) ∧
      t.rd (F.PWM_STAT_LAST_H (bankOfHb h)) = h.val ∧ RegsBut [Reg.PWM_STAT (bankOfHb h)] s t ∧
      t = { u with inClk := t.inClk, regs := t.regs, seqDone := t.seqDone }))

/-- Writes that act at once. DISCARD of a strobe puts the buffered copies of the groups of the mask back to the applied
values (R81); a comparator is armed (R340); SS1 demanded of an axis marks it and trips source 11 (R364); a proposal whose
number matches is approved or withdrawn and declined, else APR_REF sets (R445); REBASE drops the baseline while the
lifecycle is open (R437); GO starts the building of the record, but not in BLANK or RETIRED (R451). -/
def Obligations.WritesThatActAtOnce : Prop := ∀ (s : State) (p : Port),
  let u := s.advTo (s.clk + 1)
  (canWrite s p Reg.LCS_UPD_CTRL → Gives (.strobeDiscard p) s fun t =>
    (∀ o, o ∈ dirtyOf s (updMask s) → t.buf o = mergeMask (rwbOf o) (s.buf o) (s.reg o)) ∧
    (∀ o, o ∉ dirtyOf s (updMask s) → t.buf o = s.buf o) ∧
    t.dirty = s.dirty.filter (fun x => !inMask (updMask s) x.1) ∧ t.flag F.LCS_UPD_CTRL_DISCARD = false ∧
    RegsBut [Reg.LCS_UPD_CTRL] s t ∧ t = { u with inClk := t.inClk, regs := t.regs, bufs := t.bufs, dirty := t.dirty }) ∧
  (∀ n : Axis, canWrite s p (Reg.FBK_CMP_CTRL n) → Gives (.compareArm p n) s fun t =>
    t.flag (F.FBK_CMP_CTRL_ARM n) ∧ t.flag (F.FBK_CMP_CTRL_EN n) = s.flag (F.FBK_CMP_CTRL_EN n) ∧
    RegsBut [Reg.FBK_CMP_CTRL n] s t ∧ t = { u with inClk := t.inClk, regs := t.regs }) ∧
  (∀ n : Axis, canWrite s p Reg.FCS_SS1_DEM → (s.plan n).leave = none → Gives (.ss1Demand p n) s fun t =>
    ∃ v, v.rd F.FCS_SS1_DEM_AXES = Nat.lor (s.rd F.FCS_SS1_DEM_AXES) (2 ^ n.val) ∧ RegsBut [Reg.FCS_SS1_DEM] s v ∧
      v.plan n = { s.plan n with leave := some ⟨.ss1Host, false, u.clk + usClk 1, true, none, false, false⟩ } ∧
      v.ss1 n = (if s.energised n ∧ s.ss1 n = none then some ⟨u.clk, none, 0, 0, 0, 0⟩ else s.ss1 n) ∧
      (∀ m, m ≠ n → v.plan m = s.plan m ∧ v.ss1 m = s.ss1 m ∧ v.les m = s.les m) ∧
      v = { u with inClk := v.inClk, regs := v.regs, plans := v.plans, less := v.less, fcs := { s.fcs with ss1 := v.fcs.ss1 } } ∧
      Tripped 11 false v t) ∧
  (∀ w : Word, canWrite s p Reg.CND_APPROVE →
    let x := s.cnd.props.find? fun x => x.idx = w.toNat % 16
    (∀ yes : Bool, Gives (if yes then .cndApprove p w else .cndDecline p w) s fun t =>
      t.flag F.CND_APPROVE_GO = false ∧
      (∀ e, x = some e → e.num = w.toNat / 65536 → RegsBut [Reg.CND_APPROVE] s t ∧
        t = { u with inClk := t.inClk, regs := t.regs, cnd := { s.cnd with
          props := if yes then s.cnd.props.map fun y => if y.idx = w.toNat % 16 then { y with ok := true } else y
            else s.cnd.props.filter fun y => !(y.off = e.off && y.kind = e.kind)
          declined := t.cnd.declined, looser := t.cnd.looser } } ∧
        (yes → t.cnd.declined = s.cnd.declined ∧ t.cnd.looser = s.cnd.looser) ∧
        (yes = false → (e.off, e.kind, u.clk) ∈ t.cnd.declined)) ∧
      ((∀ e, x = some e → e.num ≠ w.toNat / 65536) → t.flag F.CND_STAT_APR_REF ∧
        RegsBut [Reg.CND_APPROVE, Reg.CND_STAT] s t ∧ t = { u with inClk := t.inClk, regs := t.regs, seqDone := t.seqDone }))) ∧
  (canWrite s p Reg.CND_CTRL → Gives (.rebase p) s fun t => t.flag F.CND_CTRL_REBASE = false ∧ RegsBut [Reg.CND_CTRL] s t ∧
    t = { u with inClk := t.inClk, regs := t.regs, cnd :=
      if s.lcOpen then { s.cnd with base := [], hist := [], starts := [], baseAt := some u.clk } else s.cnd }) ∧
  (canWrite s p Reg.CND_DXC_CTRL → Gives (.dexcyBuild p) s fun t =>
    let shut := s.lcState = lcBlank ∨ s.lcState = lcRetired
    t.flag F.CND_DXC_CTRL_GO = decide (¬ shut) ∧ RegsBut [Reg.CND_DXC_CTRL] s t ∧
    t = { u with
      inClk := t.inClk, regs := t.regs,
      cnd := if shut ∨ s.cnd.dexAt.isSome then s.cnd else { s.cnd with dexAt := some u.clk } })

/-! ### Descriptors are taken and decided -/

/-- A descriptor is taken only when it is next in ring order (R54, R110). One whose phase bit disagrees does not count as
fetched: PHASE_WAIT sets and the context's fetching ends (R105). After the cut-off it is refused with DECISION_LATE (R35,
R188), and one of no opcode of the table with BAD_OPCODE (R129). NOP takes no tag and answers DONE (R145). -/
def Obligations.DescriptorsAreTakenInOrder : Prop := ∀ (s : State) (k : Ctx) (d : Desc),
  let u := taken s k
  let i := s.rd (F.HIF_CTX_CONS_CONS k)
  let rule := fun (op : Nat) (c : Ctx → Desc → Instr) =>
    (¬ s.expects k → exec (c k d) s = .next s) ∧
    (s.expects k → phaseBit i (dqSize s k) ≠ d.phase → Alone s k → exec (c k d) s =
      .next ((s.wr (F.HIF_CTX_STAT_PHASE_WAIT k) 1).setCtx k { s.ctx k with due := 0, waits := (s.ctx k).waits + 1 })) ∧
    (s.expects k → phaseBit i (dqSize s k) = d.phase → s.cutoff → Alone s k →
      Gives (c k d) s (Refused k op d i (.decisionLate, 0) u))
  (∀ x ∈ [(0, Instr.nop), (1, .moveAbs), (2, .moveRel), (3, .jog), (4, .stop), (5, .hold), (6, .release), (7, .followStep),
      (8, .home), (9, .barrier), (10, .wait), (0x10, .configAxis), (0x11, .configBank), (0x12, .budget), (0x13, .quota),
      (0x18, .telemetryStart), (0x18, .telemetryStop), (0x19, .snapshot), (0x1A, .convert), (0x1B, .calibrateSlice),
      (0x1B, .calibrateFull), (0x1B, .calibrateIdentify), (0x20, .ledgerRead), (0x28, .fwStage), (0x29, .fwSwap),
      (0x2A, .lcTransit)], rule x.1 x.2) ∧
  (∀ op : Byte, op.toNat ∉ opcodes → rule op.toNat (fun k d => .badOpcode k op d) ∧
    (Arrives s k d → Alone s k → Gives (.badOpcode k op d) s (Refused k op.toNat d i (.badOpcode, op.toNat) u))) ∧
  (Arrives s k d → Alone s k →
    (preCheck u k 0 d = none → Gives (.nop k d) s
      (Recorded k (cplWords none true true .done 0 d.cookie s.tickNs s.tickNs 0 i 0) u)) ∧
    (∀ r, preCheck u k 0 d = some r → Gives (.nop k d) s (Refused k 0 d i r u)))

/-- The first check that fails decides the refusal (R53, R55): format, privilege and binding first (R103, R129), then tag and
quota (R111, R112), galley space (R155) and the start (R56, R57); of a galley motion then its limits (R171), its Headland
(R176) and the power of its bank (R182), of a HOLD its current and the power; last the mode of the device (R415, R430) and,
for a galley motion, HOLD, RELEASE and WAIT, the state of the axis (R148). A descriptor of LC_TRANSIT draws a new NONCE
however it is decided (R419). -/
def Obligations.FirstFailingCheckRefuses : Prop := ∀ (s : State) (k : Ctx) (d : Desc), Arrives s k d → Alone s k →
  let u := taken s k
  let i := s.rd (F.HIF_CTX_CONS_CONS k)
  let n := d.axis
  let early := fun (op : Nat) (useStart : Bool) (r : Refuse) =>
    preCheck u k op d = some r ∨ (preCheck u k op d = none ∧ (tagCheck u k = .error r ∨ ∃ tag, tagCheck u k = .ok tag ∧
      (galleyCheck u op d = some r ∨
        (galleyCheck u op d = none ∧ useStart ∧ startCheck u op d (effStart u op d) = some r))))
  let singly := fun op => ¬ (isMotion op ∧ d.grouped ∧ d.group ≠ 0#16)
  (∀ x ∈ [(1, Instr.moveAbs, true), (2, .moveRel, true), (3, .jog, true), (4, .stop, true), (5, .hold, true),
      (6, .release, true), (7, .followStep, true), (8, .home, true), (10, .wait, true), (0x10, .configAxis, true),
      (0x11, .configBank, true), (0x12, .budget, false), (0x13, .quota, false), (0x18, .telemetryStart, true),
      (0x18, .telemetryStop, true), (0x19, .snapshot, true), (0x1A, .convert, true), (0x1B, .calibrateSlice, true),
      (0x1B, .calibrateFull, true), (0x1B, .calibrateIdentify, true), (0x20, .ledgerRead, true), (0x28, .fwStage, true),
      (0x29, .fwSwap, true)], singly x.1 → ∀ r,
    (early x.1 x.2.2 r → Gives (x.2.1 k d) s (Refused k x.1 d i r u)) ∧
    (∀ tag, Passes u k x.1 d x.2.2 tag → ¬ isMotion x.1 → x.1 ≠ 5 → modeCheck u k x.1 d = some r →
      Gives (x.2.1 k d) s (Refused k x.1 d i r u))) ∧
  (∀ x ∈ [(1, Instr.moveAbs), (2, .moveRel), (3, .jog), (7, .followStep), (8, .home)], singly x.1 → ∀ tag,
    Passes u k x.1 d true tag →
    let T := effStart u x.1 d
    (∀ r, motionCheck u n x.1 d T = .error r → Gives (x.2 k d) s (Refused k x.1 d i r u)) ∧
    (∀ p l, motionCheck u n x.1 d T = .ok (p, l) →
      let power := powerCheck u n (closeBook (u.plan n).book T ++ motionBook u n x.1 d p l T)
      ∀ r, headlandCheck u n x.1 d p l = some r ∨ (headlandCheck u n x.1 d p l = none ∧ (power = some r ∨
          (power = none ∧ (modeCheck u k x.1 d).or (axisStateCheck u n true) = some r))) →
        Gives (x.2 k d) s (Refused k x.1 d i r u))) ∧
  (∀ tag, Passes u k 5 d true tag →
    (u.rd (F.MPL_FMAX_IMAX n) < d.u16 16 ∨ coilsReady u n = false ∨ noSource u n →
      Gives (.hold k d) s (Refused k 5 d i (.limit, 7 + 256 * n.val) u))) ∧
  (∀ x ∈ [(6, Instr.release), (10, .wait)], ∀ tag r, Passes u k x.1 d true tag → modeCheck u k x.1 d = none →
    axisStateCheck u n false = some r → Gives (x.2 k d) s (Refused k x.1 d i r u)) ∧
  (∀ r, early 0x2A true r ∨ (∃ tag, Passes u k 0x2A d true tag ∧ modeCheck u k 0x2A d = some r) →
    Gives (.lcTransit k d) s fun t => ∃ v, Refused k 0x2A d i r u v ∧ t = { v with
      lcs := { s.lcs with nonce := Config.entropy s.lcs.draws, draws := s.lcs.draws + 1 } })

/-- A galley motion outside a group that passes every check is accepted (R53, R132, R135, R136, R155): it takes a tag, an
entry with its planned profile, and its bookings; its planned end is its start and the profile's duration, open for a
FOLLOW_STEP without one. One of a group waits, undecided, for its BARRIER (R137). -/
def Obligations.MotionsAreAccepted : Prop := ∀ (s : State) (k : Ctx) (d : Desc), Arrives s k d →
  ∀ x ∈ [(1, Instr.moveAbs), (2, .moveRel), (3, .jog), (7, .followStep), (8, .home)],
  let u := taken s k
  let i := s.rd (F.HIF_CTX_CONS_CONS k)
  let op := x.1
  let n := d.axis
  let T := effStart u op d
  (d.grouped → d.group ≠ 0#16 → 1 < (s.ctx k).due → Gives (x.2 k d) s fun t => t =
    u.setCtx k { u.ctx k with members := (s.ctx k).members ++ [⟨op, d, i⟩] }) ∧
  (Alone s k → d.grouped = false ∨ d.group = 0#16 → ∀ tag p l, Passes u k op d true tag →
    motionCheck u n op d T = .ok (p, l) → headlandCheck u n op d p l = none →
    powerCheck u n (closeBook (u.plan n).book T ++ motionBook u n op d p l T) = none → modeCheck u k op d = none →
    axisStateCheck u n true = none →
    let e := if op = 7 ∧ d.u32 28 = 0 then none else some (T + p.durNs)
    Gives (x.2 k d) s (Accepted (mkOp tag k op d i [n] T e)
      (fun _ => ⟨tag, op, k, d, T, e, false, p.mo, p.vPeak, l.f⟩)
      (fun _ => closeBook (u.plan n).book T ++ motionBook u n op d p l T) u))

/-- A BARRIER decides its members together (R137, R188, R189). Where the set matches and every member and the BARRIER pass,
each member has become an operation that starts at the BARRIER's start, in ring order, with its decision record, and the
BARRIER's single record, DONE, follows. Where the set does not match, every member and the BARRIER are refused with BARRIER
and DETAIL 0; where a member fails, it has its own reason and the others and the BARRIER name it. Either way none is accepted
and no member waits. -/
def Obligations.BarriersDecideTheirGroup : Prop := ∀ (s : State) (k : Ctx) (d : Desc), Arrives s k d → (s.ctx k).kept = [] →
  let u := taken s k
  let i := s.rd (F.HIF_CTX_CONS_CONS k)
  let ms := (s.ctx k).members
  let axes := ms.map fun m => m.d.axis
  let T := effStart u 9 d
  let whole := ms.length = d.u8 20 ∧ maskOfAxes axes = d.u32 16 ∧ axes.Nodup ∧ ∀ m ∈ ms, m.d.target.toNat ≤ 31
  let u0 := u.setCtx k { u.ctx k with members := [] }
  let refusals := fun (f : Member → Refuse) =>
    ms.foldl (fun v m => v.complete k (refuseWords v m.op m.d m.index (f m))) u0
  (∀ m ∈ ms, m.d.group = d.group) → preCheck u k 9 d = none →
  (whole → (∀ m ∈ ms, preCheck u k m.op m.d = none) → startTests u d T = none →
    ∀ s1 os tag, membersAdmit k T ms u0 = .ok (s1, os) → tagCheck s1 k = .ok tag → modeCheck s1 k 9 d = none →
    os.map (·.index) = ms.map (·.index) ∧ (∀ o ∈ os, o.t1 = T ∧ o.ctx = k) ∧ s1.ops = s.ops ++ os ∧
    (∀ n, n ∉ axes → s1.plan n = s.plan n) ∧ s1 = { u0 with ops := s1.ops, plans := s1.plans } ∧
    Gives (.barrier k d) s
      (Recorded k (singleWords tag .done 9 d T T i) (os.foldl (fun v o => v.complete k (acceptWords o)) s1))) ∧
  (¬ whole → Gives (.barrier k d) s (Refused k 9 d i (.barrier, 0) (refusals fun _ => (.barrier, 0)))) ∧
  (∀ x r, whole → (∀ m ∈ ms, preCheck u k m.op m.d = none) → startTests u d T = none →
    membersAdmit k T ms u0 = .error (x, r) → Gives (.barrier k d) s
      (Refused k 9 d i (.barrier, x) (refusals fun m => if m.index = x then r else (.barrier, x)))) ∧
  (∀ r, whole → (∀ m ∈ ms, preCheck u k m.op m.d = none) → startTests u d T = some r →
    Gives (.barrier k d) s (Refused k 9 d i r (refusals fun _ => (.barrier, i))))

/-- HOLD, RELEASE and WAIT take a galley entry that moves nothing (R134): HOLD stands at its current for its duration, or
without an end, RELEASE ramps down, WAIT stands. A CONFIG takes one on each axis it names, two frames from a tick that no
entry before it reaches past (R138). -/
def Obligations.StandsAndConfigsAreAccepted : Prop := ∀ (s : State) (k : Ctx) (d : Desc), Arrives s k d → Alone s k →
  let u := taken s k
  let i := s.rd (F.HIF_CTX_CONS_CONS k)
  let n := d.axis
  let still := fun (T : Nat) (m : Axis) => (⟨T, startPos u m, 0, 0, [], startPos u m⟩ : Motion)
  let stand := fun m : Axis => (u.load m).standDraw (u.rd (F.MPL_IHOLD_IHOLD m))
  let wasOn := fun m : Axis => u.endsOn m (u.plan m).galley
  (∀ tag,
    let T := effStart u 5 d
    let w := (u.load n).standDraw (d.u16 16)
    let e := if d.u32 20 = 0 then none else some (T + 1000 * d.u32 20)
    let book := closeBook (u.plan n).book T ++
      (if d.u32 20 = 0 then [⟨T, none, w⟩] else [⟨T, e, w⟩, ⟨T + 1000 * d.u32 20, none, stand n⟩])
    Passes u k 5 d true tag → modeCheck u k 5 d = none → d.u16 16 ≤ u.rd (F.MPL_FMAX_IMAX n) → coilsReady u n →
    noSource u n = false → powerCheck u n book = none → axisStateCheck u n true = none →
    Gives (.hold k d) s (Accepted (mkOp tag k 5 d i [n] T e)
      (fun m => ⟨tag, 5, k, d, T, e, false, still T m, 0, 0⟩) (fun _ => book) u)) ∧
  (∀ x ∈ [(6, Instr.release), (10, .wait)], ∀ tag,
    let T := effStart u x.1 d
    let e := some (T + 1000 * d.u32 16)
    let book := closeBook (u.plan n).book T ++
      (if wasOn n then [⟨T, if x.1 = 6 then e else none, stand n⟩] else [])
    Passes u k x.1 d true tag → modeCheck u k x.1 d = none → axisStateCheck u n false = none →
    Gives (x.2 k d) s (Accepted (mkOp tag k x.1 d i [n] T e)
      (fun m => ⟨tag, x.1, k, d, T, e, false, still T m, 0, 0⟩) (fun _ => book) u)) ∧
  (∀ x ∈ [(0x10, Instr.configAxis), (0x11, .configBank)], ∀ tag,
    let T := configStart u (axesNamed x.1 d) (effStart u x.1 d)
    let e := T + 2 * u.tfNs
    Passes u k x.1 d true tag → modeCheck u k x.1 d = none → configCheck u x.1 d = none →
    Gives (x.2 k d) s (Accepted (mkOp tag k x.1 d i (axesNamed x.1 d) T (some e))
      (fun m => ⟨tag, x.1, k, d, T, some e, false, still T m, 0, 0⟩)
      (fun m => closeBook (u.plan m).book T ++ (if wasOn m then [⟨T, some (T + u.tfNs), stand m⟩] else []) ++
        (if bit 0 (d.u8 49) then [⟨e, none, stand m⟩] else [])) u))

/-- Descriptors answered by a single record (R139, R140). A BUDGET up to the bank's limit waits for the next tick, and one
above it is refused with LIMIT; a QUOTA waits for it too. A TELEMETRY start takes a stream without an owner, and a stop ends
the context's own; else BUSY and STATE 7 refuse them. -/
def Obligations.SinglesAreAnswered : Prop := ∀ (s : State) (k : Ctx) (d : Desc), Arrives s k d → Alone s k →
  let u := taken s k
  let i := s.rd (F.HIF_CTX_CONS_CONS k)
  let next := u.tickNs + u.tfNs
  (∀ tag, Passes u k 0x12 d false tag → modeCheck u k 0x12 d = none →
    (d.u32 16 ≤ budgetTop u d.bank → Gives (.budget k d) s (Recorded k (singleWords tag .applied 0x12 d next next i)
      (u.setBank d.bank { u.bank d.bank with budgetNext := some (d.u32 16, s.clk) }))) ∧
    (budgetTop u d.bank < d.u32 16 → Gives (.budget k d) s (Refused k 0x12 d i (.limit, 8 + 256 * d.bank.val) u))) ∧
  (∀ tag, Passes u k 0x13 d false tag → modeCheck u k 0x13 d = none →
    let c := quotaCtx d
    let fixed := bit 1 (frozenMask u) ∧ u.rd (F.HIF_CTX_QUOTA_QUOTA c) ≠ d.u32 20
    (¬ fixed → Gives (.quota k d) s (Recorded k (singleWords tag .applied 0x13 d next next i)
      (u.setCtx c { u.ctx c with quota := some (d.u32 20, s.clk) }))) ∧
    (fixed → Gives (.quota k d) s (Refused k 0x13 d i (.locked, Reg.HIF_CTX_QUOTA c) u))) ∧
  (∀ c ∈ [Instr.telemetryStart, .telemetryStop], ∀ tag, Passes u k 0x18 d true tag → modeCheck u k 0x18 d = none →
    coreCheck u 0x18 d = none →
    let j := streamOf d
    let T := effStart u 0x18 d
    (d.u8 17 = 1 → (s.stream j).owner = none → Gives (c k d) s (Recorded k (singleWords tag .done 0x18 d T T i)
      (u.setStream j { StreamS.init with owner := some k, startAt := T, decim := d.u16 18, axes := d.u32 20,
                                         asig := d.u16 24, bsig := d.u8 26 % 16, seq := 1 }))) ∧
    (d.u8 17 = 1 → (s.stream j).owner.isSome → Gives (c k d) s (Refused k 0x18 d i (.busy, 0) u)) ∧
    (d.u8 17 ≠ 1 → (s.stream j).owner ∈ [none, some k] → Gives (c k d) s
      (Recorded k (singleWords tag .done 0x18 d s.tickNs s.tickNs i)
        ((u.setStream j StreamS.init).wr (F.HIF_TLM_STAT_ACTIVE j) 0))) ∧
    (d.u8 17 ≠ 1 → (s.stream j).owner ∉ [none, some k] → Gives (c k d) s (Refused k 0x18 d i (.state, 7) u)))

/-- Operations that take no galley entry are accepted with their planned start and end (R133, R141 to R144, R422, R425): a
STOP ends at the last predicted standstill of its axes, a SNAPSHOT at a half-frame tick, a LEDGER_READ and a FW_STAGE by
their lengths, a CONVERT by its samples, a CALIBRATE by its scope, a swap and a transition at frame ticks. Each is in flight
with its tag, its decision record is written, and nothing else changes but an IDENTIFY's booking and the NONCE. -/
def Obligations.OtherOperationsAreAccepted : Prop := ∀ (s : State) (k : Ctx) (d : Desc), Arrives s k d → Alone s k →
  let u := taken s k
  let i := s.rd (F.HIF_CTX_CONS_CONS k)
  let accepted := fun (o : Op) => Recorded k (acceptWords o) { u with ops := s.ops ++ [o] }
  ∀ tag,
  let passes := fun (op : Nat) (own : Option Refuse) => Passes u k op d true tag ∧ modeCheck u k op d = none ∧ own = none
  let op := fun (x : Nat) (axes : List Axis) (t e : Nat) => mkOp tag k x d i axes t (some e)
  let T := fun x : Nat => effStart u x d
  (passes 4 (coreCheck u 4 d) →
    let h := halfTickFrom u (T 4)
    Gives (.stop k d) s (accepted (op 4 (axesNamed 4 d) (T 4)
      ((axesNamed 4 d).foldl (fun m n => max m (stopStand u n h)) h)))) ∧
  (passes 0x19 (coreCheck u 0x19 d) →
    Gives (.snapshot k d) s (accepted (op 0x19 (axesNamed 0x19 d) (T 0x19) (halfTickFrom u (T 0x19))))) ∧
  (passes 0x20 none → Gives (.ledgerRead k d) s
    (accepted (op 0x20 [] (T 0x20) (T 0x20 + ceilDiv (d.u32 20) 4096 * u.tfNs)))) ∧
  (passes 0x1A (convertCheck u d (T 0x1A)) → Gives (.convert k d) s
    (accepted (op 0x1A [] (T 0x1A) (T 0x1A + 400 + 4 * (20 + 10 * d.u8 18) + 400)))) ∧
  (d.u8 16 = 0 → passes 0x1B (calibrateCheck u d (T 0x1B)) → Gives (.calibrateSlice k d) s
    (accepted (op 0x1B [] (T 0x1B) (tickAfter u (T 0x1B) + 4100000)))) ∧
  (d.u8 16 = 1 → passes 0x1B (calibrateCheck u d (T 0x1B)) → Gives (.calibrateFull k d) s
    (accepted (op 0x1B [] (T 0x1B) (tickAfter u (T 0x1B) + 5200000)))) ∧
  (d.u8 16 = 2 → passes 0x1B (calibrateCheck u d (T 0x1B)) →
    let o := op 0x1B [d.axis] (T 0x1B) (identifyEnd u (T 0x1B))
    Gives (.calibrateIdentify k d) s (Recorded k (acceptWords o) ({ u with ops := s.ops ++ [o] }.setPlan d.axis
      { u.plan d.axis with book := identifyBook u d.axis (T 0x1B) }))) ∧
  (passes 0x28 (stageCheck u) → Gives (.fwStage k d) s
    (accepted (op 0x28 [] (T 0x28) (T 0x28 + d.u32 24 / 4096 * u.tfNs + 40000000)))) ∧
  (passes 0x29 (swapCheck u d.bank) → Gives (.fwSwap k d) s
    (accepted (op 0x29 [] (tickFrom u (T 0x29)) (tickFrom u (T 0x29))))) ∧
  (passes 0x2A (transitCheck u (d.u8 16)) →
    let o := { op 0x2A [] (tickFrom u (T 0x2A)) (tickFrom u (T 0x2A) + u.tfNs) with data := [s.lcs.nonce] }
    Gives (.lcTransit k d) s fun t => ∃ v, accepted o v ∧
      t = { v with lcs := { s.lcs with nonce := Config.entropy s.lcs.draws, draws := s.lcs.draws + 1 } })

/-- A CONVERT on a bank whose analog domain is off is refused with STATE, DETAIL 2 (R307), once the checks before its own
have passed. -/
def Obligations.ConvertNeedsItsAnalogDomain : Prop := ∀ (s : State) (k : Ctx) (d : Desc) (tag : Nat), Arrives s k d →
  Alone s k → Passes (taken s k) k 0x1A d true tag → modeCheck (taken s k) k 0x1A d = none →
  ¬ s.powered (12 + d.bank.val) →
  Gives (.convert k d) s (Refused k 0x1A d (s.rd (F.HIF_CTX_CONS_CONS k)) (.state, 2) (taken s k))

/-- The frame's fetching (R105, R107 to R110, R35). A doorbell page that returns gives each enabled context of its port
M = min(A, FETCH_MAX, (F - I) div 2) descriptors to fetch, with a read of each slot, and OVERRUN where A exceeds the ring.
Sixteen frames of disagreement send PHASE_STALL once. At the cut-off the members still waiting are refused. -/
def Obligations.FetchingIsCounted : Prop := ∀ s : State,
  (∀ (p : Port) (page : Vector Word 64), (s.port p).page → ¬ s.half → s.canSend p →
    Gives (.doorbellPageReturn p page) s fun t => (t.port p).page = false ∧
    (∀ k : Ctx, s.ctxOn k → s.ctxPort k = p →
      let cons := s.rd (F.HIF_CTX_CONS_CONS k)
      let a := idxDiff (if s.flag (F.HIF_CTX_CFG_DB_MODE k) then (s.ctx k).snapDb else page[k].toNat) cons
      let want := min a (s.rd (F.HIF_CTX_CFG_FETCH_MAX k))
      let room := ((s.ctx k).snapF - (s.ctx k).snapI) / 2
      (a ≤ dqSize s k → (t.ctx k).due = min want room ∧
        t.flag (F.HIF_CTX_STAT_CQ_WAIT k) = decide (0 < a ∧ room < want) ∧
        ∀ j, j < min want room → Out.read p .fetch
          (s.rd64 (Reg.HIF_CTX_DQB_LO k) + 64 * ((cons + j) % 2 ^ 32 % dqSize s k)) 64 ∈ t.sent) ∧
      (dqSize s k < a → t.flag (F.HIF_CTX_STAT_OVERRUN k) ∧ (t.ctx k).due = (s.ctx k).due)) ∧
    (∀ k : Ctx, ¬ (s.ctxOn k ∧ s.ctxPort k = p) → (t.ctx k).due = (s.ctx k).due) ∧
    (∀ o, o < 0x40000 → t.reg o = s.reg o) ∧
    t = { s with
      regs := t.regs, portA := t.portA, portB := t.portB, ctxs := t.ctxs, sent := t.sent, seqDone := t.seqDone,
      cntNow := t.cntNow }) ∧
  (∀ k, 16 ≤ (s.ctx k).waits → (s.ctx k).stalled = false → CanNotify s k → Gives (.phaseStall k) s
    (Notified k ⟨0x0009, 672 + k.val, s.rd (F.HIF_CTX_CONS_CONS k), s.now, 0, 0, none, false⟩
      (s.setCtx k { s.ctx k with stalled := true }))) ∧
  (s.ticking → s.cutoff = false →
    let u := { s.advTo (s.tickClk + s.period - 375) with cutoff := true }
    Gives .admissionCutoff s fun t => t.cutoff ∧ (∀ k, (t.ctx k).members = [] ∧ (t.ctx k).due = (s.ctx k).due) ∧
      (∀ k, (∀ j, j ≠ k → (s.ctx j).members = []) → (s.ctx k).kept = [] → ∀ m, (s.ctx k).members = [m] →
        Recorded k (refuseWords u m.op m.d m.index (.decisionLate, 0))
          (u.setCtx k { s.ctx k with members := [] }) t) ∧
      ((∀ k, (s.ctx k).members = []) → t = u))

/-! ### Galleys run -/

/-- At its planned start an operation begins on its axis (R59, R62, R131, R134 to R136, R159, R168, R190): a motion follows
its profile from time zero, a HOLD stands at its current, a FOLLOW_STEP follows from here, a HOME of METHOD 2 assigns its
position, and RELEASE, WAIT and CONFIG change nothing yet. An axis that was off is energised. What was in progress has
ended. One that cannot start, for want of analog power (R22) or of a working core (R24), is cancelled with what is queued
behind it (the model's choice of record, log entry 107). -/
def Obligations.SegmentsBegin : Prop := ∀ (s : State) (tag : Fin 1024) (o : Op), s.opOf tag = some o →
  isGalley o.op → o.begun = false → (∀ n ∈ o.axes, (s.plan n).leave = none) →
  let u := s.advToGtc (o.t1 - 2)
  let begins := fun (n : Axis) (t : State) => ∀ g, (s.plan n).galley.find? (fun g => g.tag = tag.val) = some g →
    let x := (refNow u n).1
    let m := if g.op = 7 then ⟨timeZero g.t1, x, 0, 0, [], x⟩ else if isMotion g.op then runMotion u n g else g.mo
    let l := s.les n
    (t.plan n).galley = ((s.plan n).galley.map fun y => if y.tag = g.tag then { y with begun := true, mo := m } else y) ∧
    (s.energised n ∨ g.op ∈ [6, 10] ∨ isConfig g.op → (t.les n).stall = (l.stall && (l.emfN ≠ 0 || l.angN ≠ 0)))
  (∀ n, o.axes = [n] → inProg s n = none → startBlocked s n o.op = none →
    ∀ g, (s.plan n).galley.find? (fun g => g.tag = tag.val) = some g → g.op = o.op →
    let x := (refNow u n).1
    let abs := g.op = 8 ∧ g.d.u8 24 = 2
    Gives (.segmentStart tag) s fun t => begins n t ∧
    t.ops = (s.ops.map fun y => if y.tag = o.tag then { o with begun := true } else y) ∧
    (∀ m, m ≠ n → t.plan m = s.plan m ∧ t.les m = s.les m ∧ t.clp m = s.clp m ∧ t.fbk m = s.fbk m) ∧
    (isMotion g.op → g.op ≠ 7 → ¬ abs →
      (t.plan n).ref = (if g.mo.x0 = x then { g.mo with t0 := timeZero g.t1 } else runMotion u n g) ∧
      (t.plan n).st = (if (t.plan n).ref.phases = [] then .standing else .moving) ∧ (t.fbk n).homeIdx = none ∧
      (t.fbk n).homeHit = none) ∧
    (g.op = 5 → (t.plan n).st = .standing ∧ (t.plan n).holdMa = g.d.u16 16) ∧
    (g.op = 7 → (t.plan n).st = .following ∧
      (t.plan n).follow = some ⟨(s.fbk ⟨stepSource s n % 32, by omega⟩).steps, x, x, 0, 0, false⟩) ∧
    (abs → (t.plan n).homed ∧ (t.plan n).ref = Motion.still (g.d.i64 32)) ∧
    (g.op = 6 ∨ g.op = 10 ∨ isConfig g.op → t.plan n = { s.plan n with galley := (t.plan n).galley }) ∧
    (isMotion g.op ∨ g.op = 5 → t.energised n ∧
      (s.energised n = false → (t.gdr (bankOfAxis n)).uvArmed ∧ ∀ h ∈ hbsOfAxis n, (t.hb h).react = false)) ∧
    RegsBut [Reg.LES_STAT n, Reg.FBK_ADJ_LO n, Reg.FBK_ADJ_LO n + 4, Reg.FBK_POS_LO n, Reg.FBK_POS_LO n + 4] s t ∧
    t = { u with
      regs := t.regs, ops := t.ops, plans := t.plans, less := t.less, clps := t.clps, gdrs := t.gdrs, hbs := t.hbs,
      fbks := t.fbks } ∧
    (s.energised n → ¬ abs → t = { u with ops := t.ops, plans := t.plans, less := t.less, fbks := t.fbks })) ∧
  (isConfig o.op → (∀ n ∈ o.axes, inProg s n = none ∧
      ∀ g, (s.plan n).galley.find? (fun g => g.tag = tag.val) = some g → g.op = o.op) →
    Gives (.segmentStart tag) s fun t => (∀ n ∈ o.axes, begins n t) ∧
      (∀ n, t.plan n = { s.plan n with galley := (t.plan n).galley }) ∧
      (∀ n, n ∉ o.axes → t.plan n = s.plan n ∧ t.les n = s.les n) ∧
      t.ops = (s.ops.map fun y => if y.tag = o.tag then { o with begun := true } else y) ∧
      t = { u with ops := t.ops, plans := t.plans, less := t.less }) ∧
  (∀ n h ho, o.axes = [n] → startBlocked s n o.op = none → inProg s n = some h → h.tag ≠ tag.val →
    s.opOf h.tag = some ho → ho.axes = [n] →
    Gives (.segmentStart tag) s fun t => (∀ y ∈ t.ops, y.tag ≠ h.tag) ∧ ∃ y ∈ t.ops, y.tag = o.tag ∧ y.begun) ∧
  (∀ n src g, o.axes = [n] → startBlocked s n o.op = some src → (s.plan n).galley = [g] → g.tag = tag.val →
    g.begun = false → isConfig o.op = false → Gives (.segmentStart tag) s fun t => ∃ v w,
      Ended o .cancelled 0 u.now (src + 2 ^ 31) (opFlags o) u v ∧ (w.plan n).galley = [] ∧
      (∀ m, m ≠ n → w.plan m = v.plan m) ∧ w = { v with plans := w.plans } ∧ t = State.arranged s w)

/-- At its planned end an operation gets its final record (R59, R134, R136, R138, R158, R193): a motion or a HOLD leaves the
axis standing, a RELEASE de-energises it, a FOLLOW_STEP stands where it is, WAIT and CONFIG change nothing, but for a
RESTART, which energises where the bank has analog power. A HOME that ends here without its point is NOT_FOUND. An armed
segment that ends within a half-frame still counts for it (R241). -/
def Obligations.SegmentsEnd : Prop := ∀ (s : State) (tag : Fin 1024) (o : Op) (e : Nat),
  s.opOf tag = some o → isGalley o.op → o.begun →
  (∀ n ∈ o.axes, ∀ l, (s.plan n).leave = some l → l.begun = false) →
  o.axes.findSome? (fun n => ((s.plan n).galley.find? fun g => g.tag = tag.val).bind (·.t2)) = some e →
  let u0 := s.advToGtc e
  let ends := fun (P : State → Prop) =>
    Gives (.segmentEnd tag) s fun t => ∃ v, P v ∧ Ended o (endStatus o).1 o.t1 e (endStatus o).2 (opFlags o) v t
  (∀ n, o.axes = [n] →
    let u := u0.keepArmed n
    ends fun v => (∀ m, m ≠ n → v.plan m = s.plan m) ∧
    (o.op ∈ [1, 2, 3, 5, 8] → s.energised n → v = u.setPlan n { s.plan n with
      st := .standing, ref := Motion.still (s.plan n).ref.xEnd, follow := none, holdMa := s.rd (F.MPL_IHOLD_IHOLD n)
      homed := (s.plan n).homed || (o.op = 8 && (endStatus o).1 = .done) }) ∧
    (o.op = 7 → v = u.setPlan n { s.plan n with
      st := if s.energised n then .standing else .off, ref := Motion.still (refNow u n).1, follow := none }) ∧
    (o.op = 6 → (v.plan n).st = .off ∧ v.ss1 n = none ∧ (v.plan n).book = (s.plan n).book ∧
      RegsBut [Reg.FCS_SS1_DEM] s v ∧ v = { u with
        regs := v.regs, plans := v.plans, less := v.less, clps := v.clps, inClk := v.inClk
        fcs := { s.fcs with ss1 := v.fcs.ss1 } }) ∧
    (o.op = 10 → v = u)) ∧
  (isConfig o.op → bit 0 (o.d.u8 49) = false → ends fun v => v = o.axes.foldl State.keepArmed u0) ∧
  (isConfig o.op → bit 0 (o.d.u8 49) → (∀ n ∈ o.axes, s.powered (12 + (bankOfAxis n).val)) → ends fun v =>
    (∀ n ∈ o.axes, v.energised n ∧ (v.plan n).galley = (s.plan n).galley ∧ (v.plan n).book = (s.plan n).book) ∧
    (∀ n, n ∉ o.axes → v.plan n = s.plan n))

/-- A HOME finds its point: at the latch point after the index, or after the hard stop, the position there becomes HOME_POS
(R136, R167, R244). FBK's adjustment and position and the reference move by that step, the axis brakes from the next
half-frame, and the segment's end is where it stops. The index sets the phase of the index correction. -/
def Obligations.HomingFindsItsPoint : Prop := ∀ (s : State) (n : Axis) (g : Seg), inProg s n = some g → g.op = 8 →
  atLatch s →
  let found := fun (x : Rat) (t : State) =>
    let step : Rat := g.d.i64 32 - x
    let ref := (s.plan n).ref
    let T := s.now + 1000
    let r := motionAt { ref with x0 := ref.x0 + step, xEnd := ref.xEnd + step } T
    let m := headland T r.1 r.2.1 r.2.2 (hdec s n) (hjerk s n)
    let e := T + phasesNs m.phases
    let moved := fun lo : Nat => if encoder s n then ofSigned 64 (s.rdS64 lo + truncRat step) else s.rd64 lo
    t.rd64 (Reg.FBK_ADJ_LO n) = moved (Reg.FBK_ADJ_LO n) ∧ t.rd64 (Reg.FBK_POS_LO n) = moved (Reg.FBK_POS_LO n) ∧
    (t.plan n).ref = m ∧
    (t.plan n).galley = ((s.plan n).galley.map fun y =>
      if y.tag = g.tag then { y with t2 := some e, mo := { y.mo with x0 := y.mo.x0 + step, xEnd := m.xEnd } } else y) ∧
    (∀ y ∈ t.ops, y.tag = g.tag → y.data = [e]) ∧ (t.fbk n).homeIdx = none ∧ (t.fbk n).homeHit = none ∧
    (∀ j, j ≠ n → t.plan j = s.plan j ∧ t.fbk j = s.fbk j ∧ t.clp j = s.clp j ∧ t.les j = s.les j) ∧
    RegsBut [Reg.FBK_ADJ_LO n, Reg.FBK_ADJ_LO n + 4, Reg.FBK_POS_LO n, Reg.FBK_POS_LO n + 4] s t ∧
    t = { s with
      regs := t.regs, ops := t.ops, plans := t.plans, fbks := t.fbks, clps := t.clps, less := t.less }
  (∀ u : Int, g.d.u8 24 = 0 → (s.fbk n).homeIdx = some u → Gives (.homeIndexFound n) s fun t =>
    found (xEnc s n u) t ∧ (t.fbk n).phase = some (u % s.rd (F.FBK_IDX_PER_PERIOD n)).toNat) ∧
  (∀ x : Rat, g.d.u8 24 = 1 → (s.fbk n).homeHit = some x → Gives (.homeHardStopFound n) s (found x))

/-- At a half-frame tick an axis starts to brake along its Headland (R133, R160, R161, R361): by a STOP whose start has come,
keeping its enables or by SS1, its queue cancelled first, and an axis that is off ends the STOP at once; or by a mark at
least 1 us old. The monitor of an SS1 starts with the speed and deceleration of then. -/
def Obligations.StopsBrakeAtTheHalfFrame : Prop := ∀ (s : State) (n : Axis), s.atHalfTick →
  let starts := fun asked : Nat => (some ⟨asked, some s.clk, absRat (refNow s n).2.1,
    max 0 (signRat (refNow s n).2.1 * (refNow s n).2.2), 0, 0⟩ : Option Ss1)
  (∀ (tag : Fin 1024) (o : Op), s.opOf tag = some o → o.op = 4 → o.begun = false → o.t1 ≤ s.now → o.axes = [n] →
    (s.plan n).leave = none → s.ss1 n = none →
    let ss1 := o.d.u8 20 = 1
    let l : Leaving := ⟨.stop tag, false, if ss1 then s.clk + usClk 1 else s.clk, ss1, none, false, false⟩
    (s.energised n → (∀ g ∈ (s.plan n).galley, g.begun) → standsNow s n = false ∨ ss1 →
      Gives (.stopEffect tag) s fun t => Brakes n l s t ∧ t.ss1 n = (if ss1 then starts s.clk else none) ∧
        (∀ m, m ≠ n → t.ss1 m = s.ss1 m) ∧
        t = { s with
          ops := s.ops.map fun y => if y.tag = o.tag then { o with begun := true } else y
          plans := t.plans, less := t.less, fcs := { s.fcs with ss1 := t.fcs.ss1 } }) ∧
    (∀ g q, s.energised n → (s.plan n).galley = [g] → g.begun = false → s.opOf g.tag = some q → isConfig q.op = false →
      standsNow s n = false ∨ ss1 → Gives (.stopEffect tag) s fun t =>
        ∃ w v z, Ended q .cancelled 0 s.now tag (opFlags q) w v ∧ Brakes n l v z ∧ t = State.arranged s z ∧
          w = { s with ops := w.ops, plans := w.plans, less := w.less, fcs := { s.fcs with ss1 := w.fcs.ss1 } }) ∧
    (s.energised n = false → (s.plan n).galley = [] → o.left = [n] → Calm s n → Gives (.stopEffect tag) s fun t =>
      ∃ v z, Ended o .done o.t1 s.now 0 (opFlags o) v z ∧ t = State.arranged s z ∧ (v.plan n).st = .off ∧
        (v.plan n).leave = none ∧
        (∀ m, m ≠ n → v.plan m = s.plan m) ∧ RegsBut [Reg.FCS_SS1_DEM] s v ∧
        v = { s with
          regs := v.regs, ops := v.ops, plans := v.plans, less := v.less, clps := v.clps, inClk := v.inClk
          fcs := { s.fcs with ss1 := v.fcs.ss1 } })) ∧
  (∀ l, (s.plan n).leave = some l → causeRank l.cause = 3 → l.begun = false → l.due ≤ s.clk → s.energised n →
    (∀ g ∈ (s.plan n).galley, g.begun) → standsNow s n = false ∨ l.gatesOff →
    Gives (.ss1BrakingStart n) s fun t => Brakes n l s t ∧
      (∀ x, s.ss1 n = some x → x.begun = none → x.asked + usClk 1 ≤ s.clk → x.bad = 0 → x.slow = 0 →
        t.ss1 n = starts x.asked) ∧
      (s.ss1 n = none → t.ss1 n = none) ∧ (∀ m, m ≠ n → t.ss1 m = s.ss1 m) ∧
      t = { s with plans := t.plans, less := t.less, fcs := { s.fcs with ss1 := t.fcs.ss1 } })

/-- Standstill ends the braking (R160, R175, R177, R361, R364). An axis that keeps its enables stands, its segment ended by
the cause, and a STOP that waited for it alone is DONE; a reversal opens from where it stopped, and stands at its end. An SS1
turns the gates off in two steps once standing, or after TMAX, and the axis is off. -/
def Obligations.StandstillsEndTheBraking : Prop := ∀ (s : State) (n : Axis) (l : Leaving), (s.plan n).leave = some l →
  l.begun →
  let e := brakeEnd s n
  let u := s.advToGtc e
  let stands := fun (v t : State) => t = State.arranged s (v.setPlan n { v.plan n with
    leave := none, st := .standing, ref := Motion.still (refNow u n).1, holdMa := s.rd (F.MPL_IHOLD_IHOLD n) })
  let off := fun (u r : State) => ∃ v t, r = State.arranged s t ∧ ProgEnded n l.cause u.now (headFlags l) u v ∧
    (t.plan n).st = .off ∧
    (t.plan n).leave = none ∧ (t.plan n).ref = Motion.still (refNow u n).1 ∧ t.ss1 n = none ∧
    bit n.val (t.rd F.FCS_SS1_DEM_AXES) = false ∧
    (∀ h ∈ hbsOfAxis n, gateOn v h → (v.hb h).soft = none →
      (t.hb h).soft = some ⟨u.clk + 50 * (s.rd (F.GDR_SOFT_DUR (bankOfHb h)) + 1)⟩) ∧
    (∀ m, m ≠ n → t.plan m = v.plan m ∧ t.les m = v.les m ∧ t.ss1 m = s.ss1 m) ∧ RegsBut [Reg.FCS_SS1_DEM] v t ∧
    t = { v with
      regs := t.regs, plans := t.plans, hbs := t.hbs, less := t.less, clps := t.clps, inClk := t.inClk
      fcs := { v.fcs with ss1 := t.fcs.ss1 } }
  (∀ c, (c = .brakingStandstill n ∧ l.gatesOff = false ∧ causeRank l.cause ≠ 4) ∨
      (c = .reversalEnd n ∧ causeRank l.cause = 4 ∧ (l.opening ∨ l.revTo = none)) →
    (Calm s n → Gives c s fun t => ∃ v, ProgEnded n l.cause e (headFlags l) u v ∧ stands v t) ∧
    (∀ o ∈ s.ops, o.op = 4 → o.begun → o.left = [n] → s.ops.Pairwise (fun a b => a.tag ≠ b.tag) →
      (∀ q ∈ s.ops, q.op = 4 → q.begun → n ∈ q.left → q = o) → (∀ g, inProg s n = some g → g.tag ≠ o.tag) →
      (s.bank (bankOfAxis n)).curtailed = [] → s.flag (F.MPL_CURT_STAT_ACTIVE (bankOfAxis n)) = false →
      Gives c s fun t => ∃ w z, Ended o .done o.t1 e 0 (opFlags o) w z ∧ t = State.arranged s z ∧
        (w.plan n).st = .standing ∧ (w.plan n).leave = none)) ∧
  (∀ x, l.revTo = some x → l.opening = false → Gives (.reversalBrakeStandstill n) s fun t =>
    let xs := (s.plan n).ref.xEnd
    let move := (planMove e xs x (s.rd (F.MPL_REV_VEL_REV_VEL n)) (hdec s n) (hdec s n) (hjerk s n)).map (·.mo)
    t = u.setPlan n { s.plan n with
      leave := some { l with opening := true }, ref := move.getD ⟨e, xs, 0, 0, [], xs⟩ }) ∧
  (∀ x, s.ss1 n = some x → l.gatesOff → Calm s n →
    (4 ≤ x.slow → Gives (.ss1Standstill n) s (off s)) ∧
    (s.energised n → Gives (.ss1Timeout n) s (off (s.advTo (x.asked + msClk (s.rd (F.FCS_SS1_CFG_TMAX n)))))))

/-! ### Changes at a boundary -/

/-- At the frame tick what waits is applied (R27, R80 to R88, R112, R138, R139, R184), on the buffered copies as they stood
before the tick's clock. A strobe whose conditions hold gives every RWB field of its groups its buffered copy, with what that
starts, and sets DONE; else it is refused with group and reason. A CONFIG due at the boundary comes first: with its axes
de-energised it lays its pairs over the copies and is applied alone, or keeps its reason. A budget, and a quota, comes into
force; draw above the budget starts curtailment. -/
def Obligations.BoundaryChangesAreApplied : Prop := ∀ s : State, s.atTick →
  let takes := fun (z v : State) (m : Nat) =>
    (∀ o, v.reg o = if o ∈ dirtyOf z m then mergeMask (rwbOf o) (z.reg o) (z.buf o) else z.reg o) ∧
    v = { z with regs := v.regs, dirty := z.dirty.filter fun x => !inMask m x.1 }
  let before := fun z : State => z.inClk.late.foldl (fun u x => (u.setBuf x.off x.buf).setDirty x.off x.dirty) z
  let becomes := fun (z w t : State) => t = (z.boundary fun _ => w).mmioServe
  (s.ripe .strobe → strobeRuns s →
    let m := tickMask s
    (bit 3 m → s.ckg.failAt = some s.clk → Gives .strobeApply s fun t => t = s) ∧
    ((bit 3 m && s.ckg.failAt = some s.clk) = false →
      let d := s.drop .strobe
      let y := if d.has .strobe then d else (d.wr F.LCS_UPD_STAT_BUSY 0).wr F.LCS_UPD_CTRL_GO 0
      let b := before y
      let z := (b.ops.filter fun o => configDue b o).foldl (fun u o => u.configApply o) b
      let m := tickMask z
      (strobeFails z (stoppedAxes z) m = none → Gives .strobeApply s fun t => ∃ v, takes z v m ∧ becomes y
        (((State.applied z m v).sqc F.LCS_UPD_STAT_DONE).setReg Reg.LCS_UPD_LAST (z.reg Reg.TBS_FRAME_CNT)) t) ∧
      (∀ g r, strobeFails z (stoppedAxes z) m = some (g, r) →
        let u := ((z.sqc F.LCS_UPD_STAT_REFUSED).wr F.LCS_UPD_STAT_REASON r).wr F.LCS_UPD_STAT_GROUP g
        CanNotify u 0 → Gives .strobeApply s fun t => ∃ v,
          Notified 0 ⟨0x0002, 736, r, z.now, g, 0, none, false⟩ u v ∧ becomes y v t))) ∧
  (∀ (tag : Fin 1024) (o : Op), s.opOf tag = some o → configDue s o →
    let m := 2 ^ configGroup o.op o.d
    let y := o.axes.foldl (fun u n => if u.energised n then u.deenergise n else u) (before s)
    let z := withPairs y o.d
    (strobeFails z o.axes m = none → Gives (.configApply tag) s fun t => ∃ v, takes z v m ∧
      let w := (State.applied y m v).setOp { o with left := [] }
      let n := o.d.axis
      let x := if isQuad w n ∧ fbkOn w n ∧ w.flag (F.FBK_STAT_VALID n) = false then w.restartQuad n else w
      becomes s (if o.op = 0x10 then x.sourceMoved
        (x.setPlan n { x.plan n with useLes := encoder x n && !x.flag (F.FBK_STAT_VALID n) }) n else w) t) ∧
    (∀ g r, strobeFails z o.axes m = some (g, r) →
      Gives (.configApply tag) s (becomes s (y.setOp { o with left := [], data := [r] })))) ∧
  (∀ (b : Bank) mA c, (s.bank b).budgetNext = some (mA, c) → c < s.tickClk → mA < 2 ^ 24 →
    let u := (s.wr (F.MPL_BUDGET_BUDGET b) mA).setBank b { s.bank b with budgetNext := none, budgetSet := true }
    (withinBudget s b mA → Gives (.budgetApply b) s
      (Handed (if s.flag (F.MPL_CURT_STAT_ACTIVE b) ∧ (s.bank b).curtailed = [] then u.wr (F.MPL_CURT_STAT_ACTIVE b) 0
        else u))) ∧
    (withinBudget s b mA = false → Gives (.budgetApply b) s fun t => t.flag (F.MPL_CURT_STAT_STARTED b) ∧
      t.rd (F.MPL_BUDGET_BUDGET b) = mA ∧ (t.bank b).budgetNext = none ∧ t.clk = s.clk ∧ t.ops = s.ops)) ∧
  (∀ (k : Ctx) q c, (s.ctx k).quota = some (q, c) → c < s.tickClk → q < 2 ^ 11 →
    let off := Reg.HIF_CTX_QUOTA k
    Gives (.quotaApply k) s fun t => t.rd (F.HIF_CTX_QUOTA_QUOTA k) = q ∧ (F.HIF_CTX_QUOTA_QUOTA k).get (t.buf off) = q ∧
      t.dirtyBits off = 0#32 ∧ RegsBut [off] s t ∧ (∀ o, o ≠ off → t.buf o = s.buf o ∧ t.dirtyBits o = s.dirtyBits o) ∧
      t = { s.setCtx k { s.ctx k with quota := none } with regs := t.regs, bufs := t.bufs, dirty := t.dirty })

/-- The lock-up (R91 to R94, R416, R443): at the boundary after LOCK it freezes the mask, unless the lifecycle forbids it or
a write to one of the groups is unapplied; 2 ms later (the longest R92 allows, log entry 74) it holds with its proof word, or
EXPECT refuses it. UNLOCK releases it at a boundary, where a life-cycle refusal comes too (log entry 98). A bit that software
sets again meanwhile stays set. Each pass of the check compares the proof word, and source 24 trips on a difference. -/
def Obligations.LockUpsHoldAndAreChecked : Prop := ∀ s : State,
  (s.atTick → s.ripe .lockUp → firstPending s = false →
    let z := s.drop .lockUp
    let m := lockMask s
    let no := fun r : Nat =>
      let w := (z.sqc F.LCS_LOCK_STAT_REFUSED).wr F.LCS_LOCK_STAT_REASON r
      if z.has .lockUp then w else w.wr F.LCS_LOCK_CTRL_LOCK 0
    Gives .lockUp s fun t => t = if s.lcOpen = false then no 3 else if Nat.land (pendMask s) m ≠ 0 then no 1
      else { z with lcs := { s.lcs with freeze := some (m, s.clk) } }) ∧
  (∀ m c, s.lcs.freeze = some (m, c) →
    let a := s.advTo (c + msClk 2)
    let u := if a.goNow F.LCS_LOCK_CTRL_LOCK then a.post .lockUp else a.wr F.LCS_LOCK_CTRL_LOCK 0
    let w := proofWord u m
    let differs := u.flag F.LCS_LOCK_CTRL_EXPECT_EN ∧ w ≠ s.reg Reg.LCS_PROOF_EXPECT
    (differs → Gives .lockUpComplete s fun t => t =
      ({ u with lcs := { s.lcs with freeze := none } }.sqc F.LCS_LOCK_STAT_REFUSED).wr F.LCS_LOCK_STAT_REASON 2) ∧
    (¬ differs → Gives .lockUpComplete s fun t => ∃ v, v.flag F.LCS_LOCK_STAT_LOCKED ∧ v.reg Reg.LCS_PROOF = w ∧
      RegsBut [Reg.LCS_LOCK_STAT, Reg.LCS_PROOF] u v ∧
      v = { u with regs := v.regs, lcs := { s.lcs with
        freeze := none, locked := m, passAt := u.clk, lockEntry := some w, store := some ⟨m, storeWords u m, w⟩ } } ∧
      t = v.ledPush 2 [w, BitVec.ofNat 32 m, BitVec.ofNat 32 (m / 2 ^ 32), 0#32])) ∧
  (s.atTick → s.ripe .unlock →
    let d := s.drop .unlock
    let z := if d.has .unlock then d else d.wr F.LCS_LOCK_CTRL_UNLOCK 0
    let m := s.lcs.locked
    (s.lcOpen = false → Gives .unlock s fun t => t =
      (z.sqc F.LCS_LOCK_STAT_REFUSED).wr F.LCS_LOCK_STAT_REASON 3) ∧
    (s.lcOpen → s.flag F.LCS_LOCK_STAT_LOCKED = false → Gives .unlock s fun t => t = z) ∧
    (s.lcOpen → s.flag F.LCS_LOCK_STAT_LOCKED → Gives .unlock s fun t => ∃ v,
      v.flag F.LCS_LOCK_STAT_LOCKED = false ∧ v.reg Reg.LCS_PROOF = 0#32 ∧
      RegsBut [Reg.LCS_LOCK_STAT, Reg.LCS_PROOF] z v ∧
      v = { z with regs := v.regs, lcs := { s.lcs with locked := 0, store := none } } ∧
      t = v.ledPush 3 [BitVec.ofNat 32 m, BitVec.ofNat 32 (m / 2 ^ 32), 0#32, 0#32])) ∧
  (s.flag F.LCS_LOCK_STAT_LOCKED →
    let u0 := s.advTo (s.lcs.passAt + msClk 2)
    let u := State.cntWrap { u0 with lcs := { s.lcs with passAt := u0.clk } } F.LCS_LOCK_STAT_PASSES
    (proofWord u s.lcs.locked = s.reg Reg.LCS_PROOF → Gives .configCheckPass s fun t =>
      (t.src 24).active = false ∧ (∀ j, j ≠ 24 → t.src j = s.src j) ∧
      t = { u with fcs := { s.fcs with srcs := t.fcs.srcs } }) ∧
    (proofWord u s.lcs.locked ≠ s.reg Reg.LCS_PROOF → s.powered 1 → Gives .configCheckPass s
      (Tripped 24 true (u.sqc F.LCS_LOCK_STAT_MISMATCH))))

/-- Observation (R117, R118, R140, R141, R143, R207, R208). A stream becomes ACTIVE at its start; every DECIM half-frames its
block, filler ahead of it where it would wrap, goes out in writes no larger than the payload, or waits to be issued (a free
value decides, log entry 100), or is dropped and counted, as is one that waits still. A SNAPSHOT's block is written at its
half-frame tick and a LEDGER_READ's range copied, each before the final record; the SEQ and stream number of a snapshot's
block are free (log entry 1). An identification ends with its results and the axis off. -/
def Obligations.ObservationIsWritten : Prop := ∀ s : State,
  (∀ i : Fin 8, (s.stream i).owner.isSome → s.flag (F.HIF_TLM_STAT_ACTIVE i) = false →
    Gives (.telemetryStreamActivation i) s fun t => t =
      ((s.advToGtc (s.stream i).startAt).wr (F.HIF_TLM_STAT_ACTIVE i) 1).setStream i { s.stream i with count := 0 }) ∧
  (∀ (i : Fin 8) (k : Ctx), (s.stream i).owner = some k → s.atHalfTick → s.flag (F.HIF_TLM_STAT_ACTIVE i) →
    (s.stream i).decim ≤ (s.stream i).count →
    let x := s.stream i
    let p := s.ctxPort k
    let size := 2 ^ s.rd (F.HIF_TLM_CFG_LOG i)
    let tail := s.rd (F.HIF_TLM_TAIL_TAIL i)
    let at_ := s.rd64 (Reg.HIF_TLM_BASE_LO i)
    let data := samples s x.axes x.asig x.bsig
    let len := blockLen data.length
    let left := size - tail % size
    let pad := if left < len then left else 0
    let drops := fun z : State => (z.cnt (F.HIF_TLM_STAT_DROP i)).setStream i { z.stream i with gap := true }
    let z := s.setStream i { x with count := 0, seq := nextSeq x.seq, wait := none }
    let y := if x.wait = none then z else drops z
    let last := packets s p (at_ + if pad = 0 then tail % size else 0)
      (blockWords s.now x.seq len i.val (if (y.stream i).gap then 2 else 0) data)
    let parts := (if pad = 0 then [] else packets s p (at_ + tail % size) (blockWords s.now x.seq pad i.val 1 [])).map
        (fun w => (⟨false, w.1, w.2⟩ : BlockPart)) ++
      last.mapIdx fun j w => ⟨j + 1 == last.length, w.1, w.2⟩
    let fits := pad + len ≤ size - idxDiff tail (s.rd (F.HIF_TLM_HEAD_HEAD i)) ∧ s.canSend p
    (fits → Gives (.telemetryBlock i) s fun t => t.freeCtr = s.freeCtr + 1 ∧
      ((t.sent = s.sent ++ parts.map (fun b => Out.block p i b.last b.addr b.words) ∧
        t.rd (F.HIF_TLM_TAIL_TAIL i) = (tail + pad + len) % 2 ^ 32 ∧ RegsBut [Reg.HIF_TLM_TAIL i] y t ∧
        t.stream i = { y.stream i with gap := false } ∧ (∀ j, j ≠ i → t.stream j = s.stream j) ∧
        t = { y with regs := t.regs, sent := t.sent, streams := t.streams, freeCtr := t.freeCtr }) ∨
      t = { y.setStream i { y.stream i with wait := some ⟨p, pad + len, parts⟩ } with freeCtr := t.freeCtr })) ∧
    (¬ fits → Gives (.telemetryBlock i) s fun t => t = drops y)) ∧
  (∀ (tag : Fin 1024) (o : Op), s.opOf tag = some o → o.op = 0x19 → s.atHalfTick → o.t1 ≤ s.now →
    s.canSend (s.ctxPort o.ctx) →
    let data := samples s (o.d.u32 20) (o.d.u16 24) (o.d.u8 26)
    let p := s.ctxPort o.ctx
    Gives (.snapshotCapture tag) s fun t => ∃ seq stream, Ended o .done o.t1 s.now 0 (opFlags o) { s with
      freeCtr := s.freeCtr + 2
      sent := s.sent ++ (packets s p (o.d.u64 32) (blockWords s.now seq (blockLen data.length) stream 0 data)).map
        fun w => .data p w.1 w.2 } t) ∧
  (∀ (tag : Fin 1024) (o : Op), s.opOf tag = some o → o.op = 0x20 → s.canSend (s.ctxPort o.ctx) →
    let e := o.t2.getD o.t1
    let p := s.ctxPort o.ctx
    let block := fun i : Nat => (packets s p (o.d.u64 24 + 4096 * i)
      ((List.range (min 1024 (o.d.u32 20 / 4 - 1024 * i))).map fun j =>
        s.ledgerWord (o.d.u32 16 + 4096 * i + 4 * j))).map fun w => Out.data p w.1 w.2
    Gives (.ledgerReadDone tag) s (Ended o .done o.t1 e 0 (opFlags o) { s.advToGtc e with
      sent := s.sent ++ (List.range (ceilDiv (o.d.u32 20) 4096)).flatMap block })) ∧
  (∀ (tag : Fin 1024) (o : Op) (a b : IdCoil), s.opOf tag = some o → o.op = 0x1B → o.d.u8 16 = 2 → o.begun →
    let e := o.t2.getD o.t1
    let u := s.advToGtc e
    let n := o.d.axis
    let ra := idResult u (identifyMa s n) a
    let rb := idResult u.draw (identifyMa s n) b
    Gives (.identifyDone tag a b) s fun t => ∃ v, Ended o .done o.t1 e (ra.1 + 65536 * ra.2) (opFlags o) v t ∧
      v.rd (F.CLP_ID_RES (2 * n.val)) = ra.1 ∧ v.rd (F.CLP_ID_IND (2 * n.val)) = ra.2 ∧
      v.rd (F.CLP_ID_RES (2 * n.val + 1)) = rb.1 ∧ v.rd (F.CLP_ID_IND (2 * n.val + 1)) = rb.2 ∧
      (v.plan n).st = .off ∧ (∀ m, m ≠ n → v.plan m = s.plan m ∧ v.clp m = s.clp m) ∧
      v.clp n = { s.clp n with fresh := (v.clp n).fresh } ∧
      RegsBut [Reg.CLP_ID (2 * n.val), Reg.CLP_ID (2 * n.val + 1), Reg.FCS_SS1_DEM] s v ∧
      v = { u with
        regs := v.regs, plans := v.plans, clps := v.clps, less := v.less, freeCtr := v.freeCtr
        inClk := { u.inClk with dem := v.inClk.dem }, fcs := { s.fcs with ss1 := v.fcs.ss1 } })

/-! ### Faults -/

/-- A trip counts, the stamps of the latest N being held, and goes severe when N trips lie in the window W (R346, R350,
R351, R354 to R357): then its scope turns off or marks for SS1 every axis it covers, and no other axis changes state. A trip
below N, one that an open window expects with no wider scope, and a further one of a latched source, act on no axis. -/
def Obligations.TripsCountAndGoSevere : Prop := ∀ (s : State) (src : Source) (object : Option Axis), s.powered 1 →
  (sourceRow src.val).isSome →
  let k := src.val
  let ob := if k = 36 then object.map (·.val) else none
  let x := s.src k
  let axes := scopeAxes k (srcScope s k) ob
  let quiet := fun t : State => t.plans = s.plans ∧ t.hbs = s.hbs ∧ t.ops = s.ops ∧ t.fcs.ss1 = s.fcs.ss1
  Gives (.faultTrip src object) s fun t => Tripped k false s t ∧
  (x.severe = false → s.windowFor k = none → srcN s k ≤ (counted s x).length →
    t.src k = { x with
      total := min 255 (x.total + 1), active := false, stamps := (counted s x).take (max 1 (srcN s k)), sec := false
      severe := true, scope := srcScope s k, since := 0, recorded := false, object := ob } ∧
    (∀ n ∈ axes, 1 < srcScope s k → (t.plan n).st = .off ∧ ∀ h ∈ hbsOfAxis n, (t.hb h).react) ∧
    (∀ n ∈ axes, srcScope s k = 1 → (s.plan n).leave = none →
      (t.plan n).leave = some ⟨.fault k, false, s.clk + usClk 1, true, none, false, false⟩) ∧
    (∀ n, n ∉ axes → (t.plan n).st = (s.plan n).st) ∧ (srcScope s k = 4 → t.flag F.FCS_STAT_DEVOFF) ∧
    ((s.src 32).severe = false → k ≠ 32 → t.fcs.recN = s.fcs.recN + 1)) ∧
  (x.severe = false → s.windowFor k = none → (counted s x).length < srcN s k → quiet t ∧
    (t.src k).severe = false ∧ (t.src k).stamps = counted s x) ∧
  (∀ w, x.severe = false → s.windowFor k = some w → (∀ n ∈ axes, srcScope s k ≤ inForceOn s n) → quiet t ∧
    (t.src k).severe = false ∧ (t.src k).sec ∧ (t.src k).stamps = x.stamps) ∧
  (x.severe → quiet t ∧ (t.src k).severe)

/-- Clears act at the frame tick (R349): a latched source that is no longer active, not the lockstep source and has no
record waiting for the ledger, loses its latch, stamps and scope, and no half-bridge is released yet; any other keeps them,
and a request for it alone shows CLR_REF. GO clears with the last request. A lockstep mismatch turns every axis off and
enters HELD (R368); frame ticks missing for two periods trip source 34 (R18). The ALIVE outputs (R366, R367): A toggles 250
us after its edge, B at the first frame tick at least 500 us after its own; an output that is stopped goes low; a
millisecond without an edge of A stops B; and with no cause left both start high together at a frame tick. -/
def Obligations.ClearsDetectorsAndAlive : Prop := ∀ s : State,
  let edge := fun (s : State) (a high : Bool) =>
    { s with
      sent := s.sent ++ [.alive a high]
      fcs := if a then { s.fcs with levelA := high, edgeA := s.clk } else { s.fcs with levelB := high, edgeB := s.clk } }
  (∀ k c, s.atTick → s.reqs = [(.clearSrc k, c)] → c < s.tickClk →
    (clearRefused s k → Gives .faultClear s fun t => t =
      ({ s with reqs := [] }.sqc F.FCS_STAT_CLR_REF).wr F.FCS_CLR_GO 0) ∧
    (clearRefused s k = false → Gives .faultClear s fun t => t.flag F.FCS_CLR_GO = false ∧ t.reqs = [] ∧
      t.src k = { s.src k with severe := false, stamps := [], scope := 0, since := 0, recorded := false } ∧
      (∀ j, j ≠ k → t.src j = s.src j) ∧ t.plans = s.plans ∧ t.ops = s.ops ∧ t.clk = s.clk ∧
      t.hbs = s.hbs)) ∧
  (∀ c, s.atTick → s.reqs = [(.clearAll, c)] → c < s.tickClk → Gives .faultClear s fun t =>
    t.flag F.FCS_CLR_GO = false ∧ t.reqs = [] ∧ t.plans = s.plans ∧ t.ops = s.ops ∧ t.hbs = s.hbs ∧
    ∀ k, (clearRefused s k = false → (t.src k).severe = false) ∧ (clearRefused s k → t.src k = s.src k)) ∧
  (s.powered 1 → Gives .lockstepMismatch s fun t => t.flag F.LCS_LC_STAT_HELD ∧ 4 ∈ t.lcs.causes ∧
    (s.inHeld = false → t.rd F.LCS_LC_STAT_CAUSE = 4) ∧ t.flag F.GDR_STO_STAT_EN = false ∧
    (∀ n, (t.plan n).st = .off) ∧ (t.src 32).total = min 255 ((s.src 32).total + 1) ∧ t.aliveStop ∧
    t.flag F.FCS_STAT_ALIVE_A = false ∧ t.flag F.FCS_STAT_ALIVE_B = false ∧ t.clk = s.clk ∧ t.gtc = s.gtc ∧
    t.reqs = s.reqs ∧ t.coils = s.coils ∧ (∀ n, t.clp n = { s.clp n with fresh := (t.clp n).fresh }) ∧ t.fbks = s.fbks ∧
      t.gdrs = s.gdrs ∧ t.adcs = s.adcs ∧
    t.streams = s.streams ∧ t.bufs = s.bufs ∧ t.dirty = s.dirty ∧ t.ckg = s.ckg ∧ t.pmu = s.pmu ∧ t.tbs = s.tbs) ∧
  (s.ticking → s.powered 1 → (s.src 34).active = false → Gives .frameTickMissing s
    (Tripped 34 true (s.advTo (s.tickClk + 2 * s.period)))) ∧
  (s.flag F.FCS_STAT_ALIVE_A → s.aliveStop = false → (s.src 34).active = false →
    Gives .aliveAEdge s fun t => t = edge (s.advTo (s.fcs.edgeA + usClk 250)) true (!s.fcs.levelA)) ∧
  (s.flag F.FCS_STAT_ALIVE_A = false ∨ s.aliveStop → s.fcs.levelA → Gives .aliveAEdge s fun t => t = edge s true false) ∧
  (s.flag F.FCS_STAT_ALIVE_B → s.aliveStop = false → s.atTick → s.fcs.edgeB + usClk 500 ≤ s.clk →
    Gives .aliveBEdge s fun t => t = edge s false (!s.fcs.levelB)) ∧
  (s.flag F.FCS_STAT_ALIVE_B = false ∨ s.aliveStop → s.fcs.levelB → Gives .aliveBEdge s fun t => t = edge s false false) ∧
  (s.flag F.FCS_STAT_ALIVE_B →
    let u := (s.advTo (s.fcs.edgeA + msClk 1)).wr F.FCS_STAT_ALIVE_B 0
    Gives .aliveWatchdogExpiry s fun t => t = if s.fcs.levelB then edge u false false else u) ∧
  (s.atTick → s.aliveStop = false → s.flag F.FCS_STAT_ALIVE_A = false ∨ s.flag F.FCS_STAT_ALIVE_B = false →
    Gives .aliveRestart s fun t =>
      t = edge (edge ((s.wr F.FCS_STAT_ALIVE_A 1).wr F.FCS_STAT_ALIVE_B 1) true true) false true)

/-! ### The frame and the current loop -/

/-- A frame tick (R34, R107, R110, R46) falls a period after the one before: FRAME_CNT and TICK_GTC step, the cut-off, the
half-frame and the latches start anew, the horizon is taken, SYNC_OUT rises or falls as its mode says, source 34 ceases, and
a port whose doorbell page has an address reads it, in requests no larger than the programmed size; one without an address
waits for the changes of the boundary. The producer indices and the free completion entries are taken. -/
def Obligations.FrameTicksBeginAFrame : Prop :=
  ∀ (s : State) (raws : List (Fin 64 × List Raw)) (offs : List (Coil × BitVec 16)) (missed : List Bank), s.ticking →
  let u := s.advTo (s.tickClk + s.period)
  Gives (.frameTick raws offs missed) s fun t =>
    t.clk = u.clk ∧ t.gtc = u.gtc ∧ t.tickClk = u.clk ∧ t.tickGtc = u.gtc ∧ t.half = false ∧ t.cutoff = false ∧
    t.latches = 0 ∧ t.horizon = s.rd F.TBS_ADMIT_HORIZON ∧
    t.rd F.TBS_FRAME_CNT_FRAME = (s.rd F.TBS_FRAME_CNT_FRAME + 1) % 2 ^ 32 ∧
    t.rd64 Reg.TBS_TICK_GTC_LO = u.now % 2 ^ 64 ∧ (t.src 34).active = false ∧
    t.tbs.syncRise = (if syncMode s = 1 ∨ syncMode s = 3 then some u.clk else none) ∧
    (∀ k, (t.ctx k).snapDb = (u.before (Reg.HIF_CTX_DB k)).toNat ∧
      (t.ctx k).snapF = cqSize t k - idxDiff (t.rd (F.HIF_CTX_CQ_TAIL_TAIL k)) (t.rd (F.HIF_CTX_CQ_HEAD_HEAD k))) ∧
    (∀ p, (t.port p).page = (hifServes t && t.fetches p && dbBase t p ≠ 0) ∧
      (t.port p).mmio = (hifServes t && t.fetches p && dbBase t p = 0 && firstPending t) ∧
      let m := readMax t p
      ((t.port p).page → ∀ i < ceilDiv 256 m,
        Out.read p .page (dbBase t p + m * i) (min m (256 - m * i)) ∈ t.sent.drop s.sent.length)) ∧
    (∀ n, (t.fbk n).idxSeen = false) ∧
    t.reqs = s.reqs ∧ t.bufs = s.bufs ∧ t.dirty = s.dirty ∧ t.lcs = s.lcs ∧ t.ckg = s.ckg ∧ t.pending = s.pending

/-- What both ticks hand over (R14, R24, R29, R140, R168, R270). With every bank served and no follower running, CLP takes of
each axis its reference now with the feed-forward, and the Headland from it becomes its last stop ramp. An energised axis of
a bank whose setpoints are missing runs its last stop ramp, and the first miss of a run raises the bank's source 5. An ACTIVE
stream counts, and a block that waits goes out, waits on or is dropped (log entry 100); a powered gate stage takes the mean
supply code; VSAT and ILIM go with a half-frame in which no coil A step ran (R206). -/
def Obligations.TicksHandOver : Prop :=
  ∀ (s : State) (raws : List (Fin 64 × List Raw)) (offs : List (Coil × BitVec 16)) (missed : List Bank), s.ticking →
  let handed := fun t : State =>
    (s.halted = false → (∀ b, b ∉ missed ∧ coreWorks s b) → (∀ n, (s.plan n).follow = none) → ∀ n,
      let r := motionAt (t.plan n).ref t.now
      (t.clp n).xRef = r.1 ∧ (t.clp n).vRef = r.2.1 ∧ (t.clp n).aRef = r.2.2 ∧
      (t.clp n).iff = feedForward t n r.2.1 r.2.2 ∧ (t.clp n).start = startOffset t n ∧
      (t.plan n).stopRamp = headland t.now r.1 r.2.1 r.2.2 (hdec t n) (hjerk t n) ∧
      (t.bank (bankOfAxis n)).missRun = 0) ∧
    (s.halted = false → s.inHeld = false → s.flag F.LCS_LC_STAT_READY → s.powered 1 →
      ∀ b ∈ missed, s.powered (8 + b.val) → (t.bank b).missRun = (s.bank b).missRun + 1 ∧
        (∀ n ∈ axesOfBank b, t.energised n → (t.plan n).ref = (s.plan n).stopRamp) ∧
        (t.src (64 + 16 * b.val + 5)).total = if (s.bank b).missRun = 0 then
          min 255 ((s.src (64 + 16 * b.val + 5)).total + 1) else (s.src (64 + 16 * b.val + 5)).total) ∧
    (∀ i,
      let x := s.stream i
      let y := { x with count := x.count + if s.flag (F.HIF_TLM_STAT_ACTIVE i) then 1 else 0 }
      match x.wait with
      | none => t.stream i = y
      | some w =>
        (s.canSend w.port = false → t.stream i = { y with wait := none, gap := true }) ∧
        (s.canSend w.port → t.stream i = y ∨ (t.stream i = { y with wait := none, gap := false } ∧
          ∀ b ∈ w.parts, Out.block w.port i b.last b.addr b.words ∈ t.sent.drop s.sent.length))) ∧
    (∀ b, let g := s.gdr b
      let edge := g.edgeLost && (!s.powered (8 + b.val) || (s.src (74 + 16 * b.val)).severe)
      t.gdr b = { g with
        sum := 0, cnt := 0, mean := if g.cnt = 0 then none else some ((g.sum : Rat) / g.cnt)
        markAt := if s.powered (8 + b.val) then t.clk else g.markAt, edgeLost := edge } ∧
      (g.edgeLost → edge = false → ∀ h ∈ hbsOfBank b, (t.hb h).edge = false)) ∧
    (∀ n, (t.fbk n).steps = (s.fbk n).steps ∧ (t.clp n).ran = false ∧
      ((s.clp n).ran = false → t.flag (F.CLP_STAT_VSAT n) = false ∧ t.flag (F.CLP_STAT_ILIM n) = false))
  (s.half = false → Gives (.halfFrameTick missed) s fun t =>
    t.clk = (s.advTo (s.tickClk + s.period / 2)).clk ∧ t.half ∧ t.tickClk = s.tickClk ∧ t.reqs = s.reqs ∧ handed t) ∧
  (s.half → exec (.halfFrameTick missed) s = .next s) ∧
  ((∀ o ∈ s.ops, o.op ≠ 0x1B) → Gives (.frameTick raws offs missed) s handed)

/-- A doorbell page that has not come back by TF/2 is not used (R109): DB_LATE counts it, saturating; what returns later in
the frame changes nothing; and the next frame tick reads the page as usual. -/
def Obligations.LatePagesAreNotUsed : Prop := ∀ (s : State) (p : Port), (s.port p).page →
  let f := onPort p F.HIF_PORT_STAT_DB_LATE
  Gives (.doorbellReadLate p) s fun t =>
    t.clk = (s.advTo (s.tickClk + s.period / 2)).clk ∧ t.gtc = (s.advTo (s.tickClk + s.period / 2)).gtc ∧
    t.port p = { s.port p with page := false } ∧ t.rd f = min 255 (s.rd f + 1) ∧ RegsBut [f.off] s t ∧
    (∀ q, q ≠ p → t.port q = s.port q) ∧
    t = { s.advTo (s.tickClk + s.period / 2) with
      regs := t.regs, portA := t.portA, portB := t.portB, cntNow := t.cntNow } ∧
    (∀ page, exec (.doorbellPageReturn p page) t = .next t) ∧
    (∀ raws offs missed, s.ticking → Gives (.frameTick raws offs missed) t fun v =>
      (v.port p).page = (hifServes v && v.fetches p && dbBase v p ≠ 0) ∧
      let m := readMax v p
      ((v.port p).page → ∀ i < ceilDiv 256 m,
        Out.read p .page (dbBase v p + m * i) (min m (256 - m * i)) ∈ v.sent.drop t.sent.length))

/-- A pair of coils is sampled at its instant (R30, R292, R299, R300). Two free slices that the LFSR picks convert it: each
record holds the corrected value less the amplifier's offset, tagged when clipped or settling, and CLP takes the current,
valid only when untagged. The auxiliary sequence has run up to the reservation (R293). With fewer than three slices in
service, or no conversion, both records are absent and the samples not usable. -/
def Obligations.PairsAreSampled : Prop := ∀ (s : State) (b : Bank) (j : Fin 8) (r1 r2 : Raw) (hold : Nat),
  let p1 : Coil := ⟨16 * b.val + j.val, by omega⟩
  let p2 : Coil := ⟨16 * b.val + j.val + 8, by omega⟩
  nextSync s p1 = some hold → s.powered (12 + b.val) →
  let z := auxRun s b (hold - 20)
  let u := z.advTo hold
  let a := z.adc b
  let frame := fun t : State => RegsBut [Reg.ADC_SYNC p1, Reg.ADC_SYNC p2, Reg.ADC_STAT b] s t ∧
    (∀ p, p ≠ p1 → p ≠ p2 → t.coil p = s.coil p) ∧ (∀ c, c ≠ b → t.adc c = s.adc c) ∧
    t = { u with regs := t.regs, adcs := t.adcs, coils := t.coils, freeCtr := t.freeCtr, seqDone := t.seqDone }
  let lost := fun (t : State) (p : Coil) => t.reg (Reg.ADC_SYNC p) = BitVec.ofNat 32 (absentWord (p.val % 16)) ∧
    t.coil p = { s.coil p with
      sampledAt := hold, syncOld := s.reg (Reg.ADC_SYNC p), waiting := some ⟨hold, 0, false⟩ }
  let taken := fun (t : State) (p : Coil) (i : Fin 16) (q : Fin 5) (r : Raw) =>
    let v := signedValue (corrected s b q r.code.toNat) a.offset[i]
    let tag := if clippedRaw r then 2 else if 0 < a.settle[i] then 1 else 0
    let den := 32768 * ampGain s p * s.rd (F.ADC_CS_SHUNT p)
    t.reg (Reg.ADC_SYNC p) = BitVec.ofNat 32 (resultWord tag i v) ∧
    (∃ m, t.coil p = { s.coil p with
        sampledAt := hold, syncOld := s.reg (Reg.ADC_SYNC p), waiting := some ⟨hold, m, decide (tag = 0)⟩ } ∧
      (den ≠ 0 → m = (v : Rat) * 100000000 / den)) ∧
    (t.adc b).settle[i] = a.settle[i] - 1 ∧ (tag = 2 → t.flag (F.ADC_STAT_CLIP b))
  let e := freeSlices z b (hold - 20)
  let l := lfsrNext a.lfsr
  (adcLive s b = false ∨ (inService s b).length < 3 → Gives (.syncSample b j r1 r2) s fun t =>
    lost t p1 ∧ lost t p2 ∧ t.adc b = a ∧ frame t) ∧
  (adcLive s b → 3 ≤ (inService s b).length → 2 ≤ e.length → Gives (.syncSample b j r1 r2) s fun t =>
    ∃ q1 q2, e[l % e.length]? = some q1 ∧ (e.filter (· ≠ q1))[lfsrNext l % (e.length - 1)]? = some q2 ∧
      (if owtCovers s p1 then lost t p1 else taken t p1 ⟨j.val, by omega⟩ q1 r1) ∧
      (if owtCovers s p2 then lost t p2 else taken t p2 ⟨j.val + 8, by omega⟩ q2 r2) ∧
      (t.adc b).lfsr = lfsrNext l ∧ (t.adc b).busy = (a.busy.set q1 (hold + 80)).set q2 (hold + 80) ∧
      t.adc b = { a with lfsr := (t.adc b).lfsr, busy := (t.adc b).busy, settle := (t.adc b).settle } ∧ frame t)

/-- A coil step (R195, R198 to R204, R207, R24). It ends 152 or 204 clocks after the hold. On a usable sample of a driven
axis the current is taken, the rotor-frame currents follow from both coils, the voltage is the back-transform of the limited
pair, and both compare values go to their shadows; the coil A step renews the torque reference. An identification regulates
its coil at that coil's own angle, or applies ±V_M/4 to it in a pulse. A sample not usable counts, keeps the voltage, and
the second in a row raises axis source 4. An axis not driven only has its sample consumed. -/
def Obligations.CoilStepsDriveTheBridges : Prop := ∀ (s : State) (p : Coil) (x : Sample), (s.coil p).waiting = some x →
  let n := axisOfCoil p
  let u0 := s.advTo (x.hold + if p.val % 16 < 8 then 152 else 204)
  let k := s.coil p
  let u := u0.setCoil p { k with waiting := none, doneAt := u0.clk }
  let driven := (s.energised n || (hbsOfAxis n).any fun h => (s.hb h).react) && !s.halted &&
    s.powered (8 + (bankOfAxis n).val)
  let h := legs p
  let vm := motorVolts s (bankOfAxis n)
  let frame := fun t : State => (∀ q, q ≠ p → t.coil q = s.coil q) ∧ (∀ m, m ≠ n →
    t.clp m = { s.clp m with fresh := (t.clp m).fresh }) ∧
    (p.val % 2 = 0 → (t.clp n).ran) ∧
    t.clk = u.clk ∧ t.gtc = u.gtc ∧ t.fbks = s.fbks ∧ t.gdrs = s.gdrs ∧ t.adcs = s.adcs ∧ t.reqs = s.reqs ∧
    (∀ o, faultReg o = false → o ∉ [Reg.PWM_SHD h.1, Reg.PWM_SHD h.2, Reg.CLP_STAT n] → t.reg o = s.reg o)
  let ready := 0 < vm ∧ s.rd (F.MPL_FMAX_IMAX n) ≠ 0
  let shown := fun t : State => t.rd (F.PWM_SHD_SHD h.1) = (legCompare t n p h.1 true).1 % 2 ^ 20 ∧
    t.rd (F.PWM_SHD_SHD h.2) = (legCompare t n p h.2 false).1 % 2 ^ 20
  let limited := fun t : State => 0 < vm → absRat (t.clp n).vd ≤ vm
  let turned := fun (t : State) (θ : Int) =>
    let c := t.clp n
    if p.val % 2 = 0 then c.vd * cosA θ - c.vq * sinA θ else c.vd * sinA θ + c.vq * cosA θ
  let sampled := { u.coil p with
    mA := x.mA, mAOld := k.mA, bad := 0, emfOld2 := k.emfOld, emfOld := k.emf
    emf := if k.bad = 0 then backEmf s p x.mA else k.emf, voltOld := k.volt }
  (driven = false → Gives (.coilStep p) s fun t => t = u) ∧
  (driven → x.ok → identifying s n = false → Gives (.coilStep p) s fun t =>
    let θ := thetaAt t n x.hold
    let φ := angleAt t n (posAt t n x.hold)
    let ia := (t.coil (coilA n)).mA
    let ib := (t.coil (coilB n)).mA
    let c := t.clp n
    t.coil p = { sampled with
      iq := ib * cosA θ - ia * sinA θ, id := ia * cosA θ + ib * sinA θ
      iqOld := k.iqAct, iqAct := ib * cosA φ - ia * sinA φ, volt := turned t θ } ∧ limited t ∧
    (p.val % 2 = 1 → c.iqRef = (s.clp n).iqRef ∧ c.idRef = (s.clp n).idRef) ∧
    (p.val % 2 = 0 → fromRef s n = false → c.idRef = 0 ∧
      let o := s.clp n
      let ex := o.xRef - posAt s n x.hold
      let kpv : Rat := s.rd (F.CLP_VLOOP_KPV n)
      let ev := o.vRef + s.rd (F.CLP_PLOOP_KPP n) * ex / 16 - speedAt s n x.hold
      let iv := o.iv + s.rd (F.CLP_VLOOP_KIV n) * kpv * ev * s.halfSec / 4096
      let r := limitIq u n (o.iff + kpv * ev / 4096 + iv + detent s n (thetaAt s n x.hold))
      c.iqRef = r.1 ∧ c.iv = if r.2 then o.iv else iv) ∧
    (ready → shown t ∧ t.freeCtr = s.freeCtr) ∧ frame t) ∧
  (driven → x.ok → identifying s n → Gives (.coilStep p) s fun t =>
    let now := identifyClk u n
    let onB := decide (msClk 50 ≤ now)
    let q := if onB then now - msClk 50 else now
    let own := if onB then coilB n else coilA n
    t.coil p = { sampled with iq := (t.coil p).iq, id := (t.coil p).id, volt := (t.coil p).volt } ∧
    let pulse := fun i => identifyStep (identifyMa s n) q = .pulse i ∧ pulseOver t n own i q = false
    (∀ i, pulse i → (t.coil p).volt = if p = own then (if i % 2 = 0 then vm / 4 else -(vm / 4)) else 0) ∧
    ((∀ i, ¬ pulse i) → limited t ∧ (t.coil p).volt = turned t (if onB then 16384 else 0)) ∧
    (ready → shown t ∧ t.freeCtr = s.freeCtr) ∧ frame t) ∧
  (driven → x.ok = false → s.powered 1 → Gives (.coilStep p) s fun t =>
    t.coil p = { u.coil p with
      bad := k.bad + 1, voltOld := k.volt, emfOld2 := k.emfOld, emfOld := k.emf, iqOld := k.iqAct, mAOld := k.mA } ∧
    t.flag (F.CLP_STAT_MISS n) ∧ t.rd (F.CLP_STAT_MISSCNT n) = min 255 (s.rd (F.CLP_STAT_MISSCNT n) + 1) ∧
    (t.src (128 + 16 * n.val + 4)).total =
      (if k.bad = 1 then min 255 ((s.src (128 + 16 * n.val + 4)).total + 1)
       else (s.src (128 + 16 * n.val + 4)).total) ∧ (ready → shown t) ∧ frame t)

/-- At a coil's next reload point both its half-bridges, one after the other, take their shadow compares and their force
registers as they stood at the end of the clock before (R209, R213, R220, R223, R224); under open-loop control the shadow
follows PWM_OLH (R222). What was measured in the period shows, and the rest keeps what it showed. The second reload after a
trip releases the half-bridge, as does the next rising edge of its high-side command, unless its input still holds it (R266,
R276). -/
def Obligations.CarriersReload : Prop := ∀ s : State,
  let release := fun (u : State) (h : HalfBridge) (c : Nat) =>
    if stillTripped u h then some (c, 0) else (none : Option (Nat × Nat))
  (∀ (p : Coil) (m1 m2 : HbMeas) (c : Nat) (valley : Bool), s.halted = false → s.powered (8 + (bankOfCoil p).val) →
    nextReload s p = some (c, valley) →
    let u := s.advTo c
    let took := fun (a : State) (h : HalfBridge) (m : HbMeas) (b : State) =>
      let x := a.hb h
      let opened := a.drive h = .openLoop
      let raced := x.shdAt = a.clk
      let oll := if x.ollAt = a.clk then x.ollOld else a.reg (Reg.PWM_OLL h)
      let low := if opened ∧ (F.PWM_OLL_INDEP h).get oll % 2 = 1 then some ((F.PWM_OLL_LCMP h).get oll) else none
      let hcmp := a.rd (F.PWM_OLH_HCMP h)
      let show_ := fun (f : Fld) (v : Option Nat) => b.rd f = v.getD (a.rd f)
      let word := fun v : Option (BitVec 16) => v.map (·.toNat)
      b.rd (F.PWM_CMP_CMP h) =
        (if raced then x.shdOld else if opened then hcmp else a.rd (F.PWM_SHD_SHD h)) % 2 ^ 20 ∧
      b.rd (F.PWM_SHD_SHD h) = (if opened ∧ ¬ raced then hcmp % 2 ^ 20 else a.rd (F.PWM_SHD_SHD h)) ∧
      (b.hb h).force = (a.before (Reg.PWM_FORCE h)).toNat % 8 ∧ (b.hb h).low = low ∧
      (b.hb h).prev = a.rd (F.PWM_CMP_CMP h) ∧ (b.hb h).lowPrev = x.low ∧ (b.hb h).kept = none ∧
      (b.hb h).ilk = false ∧ (b.hb h).vg = (x.vg && (a.gdr (bankOfHb h)).vgLow) ∧
      b.flag (F.PWM_CMP_BOTH h) = asksBoth (takeShadow a h) h ∧
      (x.trip = none → (b.hb h).trip = none) ∧
      (∀ t0 k, x.trip = some (t0, k) → t0 < a.clk →
        (1 ≤ k → (b.hb h).trip = release a h a.clk) ∧
        (k = 0 → valley = false → (b.hb h).trip = some (t0, 1))) ∧
      show_ (F.PWM_DT_MEAS_HOFF h) (word (measured a h m.hoff)) ∧
      show_ (F.PWM_DT_MEAS_LOFF h) (word (measured a h m.loff)) ∧
      show_ (F.GDR_MEAS_BST h) (m.bst.map (·.toNat)) ∧ show_ (F.GDR_MEAS_VDSH h) (m.vdsH.map (·.toNat)) ∧
      show_ (F.GDR_MEAS_VDSL h) (m.vdsL.map (·.toNat)) ∧
      (∀ o, faultReg o = false → o ∉ [Reg.PWM_CMP h, Reg.PWM_SHD h, Reg.PWM_DT_MEAS h, Reg.GDR_MEAS h,
        Reg.PWM_STAT (bankOfHb h).val] → b.reg o = a.reg o) ∧
      (∀ g, g ≠ h → b.hb g = { a.hb g with soft := (b.hb g).soft, react := (b.hb g).react }) ∧
      b.coils = a.coils ∧ (∀ n, b.clp n = { a.clp n with fresh := (b.clp n).fresh }) ∧ b.fbks = a.fbks ∧
      b.gdrs = a.gdrs ∧ b.adcs = a.adcs ∧ b.reqs = a.reqs ∧ b.clk = a.clk ∧ b.gtc = a.gtc
    Gives (.carrierReload p m1 m2) s fun t => ∃ v w, took u (legs p).1 m1 v ∧ took v (legs p).2 m2 w ∧
      t = w.setCoil p { s.coil p with reload := c, valley := valley }) ∧
  (∀ (h : HalfBridge) (at_ k : Nat), (s.hb h).trip = some (at_, k) →
    let x := s.coil (coilOfHb h)
    let y := s.hb h
    let edge := s.halted = false ∧ x.valley ∧ s.drive h ≠ .force ∧ y.kept = none ∧
      if y.notched then y.noRise = false else y.highSup = false ∧ (y.lowSup = false ∨ y.low.isSome)
    let rise := if y.notched then x.reload + (1200 + deadAfter s h false + 31) / 32
      else x.reload + (16 * s.period - min (16 * s.period) ((s.rd (F.PWM_CMP_CMP h) + 1) / 2)) / 32
    (edge → at_ < rise → Gives (.tripRelease h) s fun t =>
      let u := s.advTo rise
      t = u.setHb h { y with trip := release u h u.clk }) ∧
    (¬ edge ∨ rise ≤ at_ → exec (.tripRelease h) s = .next s))

/-! ### Position feedback -/

/-- A serial word (R322 to R327, R337). Its request goes out LEAD before the latch point, and fails as TMO where DATA is not
high. At its last CRC bit a word with a bad mark, CRC, error bit or the sequence number of the one before makes an error
half-frame under its own flag; the error bit raises axis source 15 at the first such word of a run. A good word gives the
position, the line delay and the smallest margin, and the eighth in a row sets VALID and starts the speed window again. A
word whose echo or marker does not come in time is TMO; one still open at the latch point is left to it. -/
def Obligations.SerialWordsAreClassified : Prop := ∀ (s : State) (n : Axis), fbkOn s n →
  let f := s.fbk n
  let failed := fun u : State => u.setFbk n { f with err := true, goodRun := 0, word := none, fresh := none }
  (∀ l dataHigh, isSerial s n → f.word = none → nextLatch s = some l →
    let start := l - 10 * s.rd (F.FBK_SER_TIM_LEAD n)
    let u := s.advTo start
    Gives (.serialWordStart n dataHigh) s fun t => t =
      if dataHigh then u.setFbk n { f with word := some start } else failed (u.sqc (F.FBK_STAT_TMO n))) ∧
  (∀ start l w e, f.word = some start → nextLatch s = some l → wordTimeout s n start w = some e →
    (e ≤ l → Gives (.serialWordDone n w) s fun t => t = failed ((s.advTo e).sqc (F.FBK_STAT_TMO n))) ∧
    (l < e → Gives (.serialWordDone n w) s fun t => t = s)) ∧
  (∀ start l w, f.word = some start → nextLatch s = some l → wordTimeout s n start w = none →
    let e := if w.mark then cycleAt s n start w (w.busy.toNat + 3) else wordEnd s n start w
    (l < e → Gives (.serialWordDone n w) s fun t => t = s)) ∧
  (∀ start l w, f.word = some start → nextLatch s = some l → wordTimeout s n start w = none → w.mark →
    cycleAt s n start w (w.busy.toNat + 3) ≤ l → Gives (.serialWordDone n w) s fun t =>
      t = failed ((s.advTo (cycleAt s n start w (w.busy.toNat + 3))).sqc (F.FBK_STAT_MARK n))) ∧
  (∀ start l w, f.word = some start → nextLatch s = some l → wordTimeout s n start w = none → w.mark = false →
    wordEnd s n start w ≤ l →
    let u := s.advTo (wordEnd s n start w)
    let bad := bit 1 w.stat.toNat
    let stale := f.seqNo = some w.seq.toNat
    let x : Int := xEnc s n (wordPos s n w)
    let at_ : Rat := (latchEdge s n start : Rat) + (w.ld.toNat : Rat) / 64
    (crcOk s n w = false → Gives (.serialWordDone n w) s fun t => t =
      failed (u.sqc (F.FBK_STAT_CRC n))) ∧
    (crcOk s n w → bad = false → stale → Gives (.serialWordDone n w) s fun t => t =
      let v := failed (u.sqc (F.FBK_STAT_STALE n))
      v.setFbk n { v.fbk n with errBit := false }) ∧
    (crcOk s n w → bad → s.powered 1 →
      let v0 := u.sqc (F.FBK_STAT_ERRBIT n)
      let v1 := failed (if stale then v0.sqc (F.FBK_STAT_STALE n) else v0)
      let v := v1.setFbk n { v1.fbk n with errBit := true }
      (f.errBit → Gives (.serialWordDone n w) s fun t => t = v) ∧
      (f.errBit = false → Gives (.serialWordDone n w) s (Tripped (128 + 16 * n.val + 15) false v))) ∧
    (crcOk s n w → bad = false → ¬ stale → Gives (.serialWordDone n w) s fun t =>
      t.fbk n = { f with
        u := wordPos s n w, word := none, seqNo := some w.seq.toNat, errBit := false, fresh := some at_
        words := ((x, at_) :: if s.flag (F.FBK_STAT_VALID n) = false ∧ 8 ≤ f.goodRun + 1 then [] else f.words).take
          (2 ^ s.rd (F.FBK_CFG_AVG n) + 1)
        margins := (w.margin.toNat :: f.margins).take 256, goodRun := f.goodRun + 1 } ∧
      t.rd (F.FBK_LINK_LD n) = w.ld.toNat ∧
      t.rd (F.FBK_LINK_MARGIN n) = ((w.margin.toNat :: f.margins).take 256).foldl min 16383 ∧
      t.flag (F.FBK_STAT_WARN n) = bit 0 w.stat.toNat ∧
      t.flag (F.FBK_STAT_VALID n) = (s.flag (F.FBK_STAT_VALID n) || decide (8 ≤ f.goodRun + 1)) ∧
      (∀ m, m ≠ n → t.fbk m = s.fbk m) ∧ RegsBut [Reg.FBK_LINK n, Reg.FBK_STAT n] s t ∧
      t = { u with regs := t.regs, fbks := t.fbks })) ∧
  (∀ start l echo, f.word = some start → nextLatch s = some l →
    let e := latchEdge s n start
    let out := if echo then e + (serPer s n + 1) / 2 + 500 else e + usClk (s.rd (F.FBK_SER_CFG_TIMEOUT n))
    Gives (.serialTimeout n echo) s fun t => t =
      if l < out then s else failed ((s.advTo out).sqc (F.FBK_STAT_TMO n)))

/-- Edges and the index (R328 to R333, R335, R167). A quadrature edge counts one up or down, INV reversing it; an edge after
a reversal is no timing point; an illegal transition is an error, and drops a home index found in its half-frame. A HOME
METHOD 0 ignores the index until its third phase ends and then takes it (what is known when the event comes decides, log
entry 115); else it is learnt (log entry 123), and compared unless one was seen in the frame: within TOL its deviation is
held and taken out at the next frame tick with an event, beyond it axis source 14 is raised. A step that held its levels
counts 100 ns later in the direction of DIR, unless ENABLE forbids. The compare output pulses at the half-frame tick (R341).
-/
def Obligations.EdgesAndIndexAreCounted : Prop := ∀ (s : State) (n : Axis), fbkOn s n →
  let f := s.fbk n
  let per := s.rd (F.FBK_IDX_PER_PERIOD n)
  let known := if s.flag (F.FBK_IDX_CFG_FIX n) then some (s.rd (F.FBK_IDX_POS_PHASE0 n)) else f.phase
  let seek := (indexSeek s n).map (·.2)
  let home := seek = some true ∧ f.err = false ∧ f.homeIdx = none
  let en := s.flag (F.FBK_IDX_CFG_EN n) ∧ per ≠ 0
  (isQuad s n → (∀ up,
    let d : Int := if up = s.flag (F.FBK_CFG_INV n) then -1 else 1
    Gives (.quadEdge n up false) s fun t => t = s.setFbk n { f with
      u := f.u + d, edgeAt := some s.clk, dir := d
      eRef := if f.dir ≠ 0 ∧ f.dir ≠ d then none else f.eRef
      eLast := if f.dir ≠ 0 ∧ f.dir ≠ d then none else some (f.u + d, s.clk) })) ∧
  (isQuad s n → ∀ up, Gives (.quadEdge n up true) s fun t => t =
    (s.sqc (F.FBK_STAT_QERR n)).setFbk n { f with err := true, homeIdx := none }) ∧
  (isQuad s n → seek = some false → exec (.indexEvent n) s = .next s) ∧
  (isQuad s n → home → Gives (.indexEvent n) s fun t => t =
    s.setFbk n { f with homeIdx := some f.u, idxSeen := true }) ∧
  (isQuad s n → seek ≠ some false → ¬ home →
    let v := s.setFbk n { f with
      idxSeen := true, phase := if known = none ∧ per ≠ 0 then some (f.u % per).toNat else f.phase }
    (en → f.idxSeen ∨ f.err → Gives (.indexEvent n) s fun t => t = v.cnt (F.FBK_IDX_STAT_SKIP n)) ∧
    (¬ (en ∧ (f.idxSeen ∨ f.err)) → known = none ∨ ¬ en → Gives (.indexEvent n) s fun t => t = v) ∧
    (∀ ph, known = some ph → en → f.idxSeen = false → f.err = false →
      let d := indexDev per ph f.u
      let w := v.wrS (F.FBK_IDX_STAT_DEV n) d
      (d = 0 → Gives (.indexEvent n) s fun t => t = w) ∧
      (d ≠ 0 → d.natAbs ≤ s.rd (F.FBK_IDX_CFG_TOL n) →
        Gives (.indexEvent n) s fun t => t = w.setFbk n { w.fbk n with fix := some d }) ∧
      (s.rd (F.FBK_IDX_CFG_TOL n) < d.natAbs → s.powered 1 →
        Gives (.indexEvent n) s (Tripped (128 + 16 * n.val + 14) false w)))) ∧
  (∀ d k, f.fix = some d → s.atTick → CanNotify s k → bit n.val (s.rd (F.HIF_CTX_AXES_AXES k)) →
    (∀ j, j ≠ k → (s.ctxOn j && bit n.val (s.rd (F.HIF_CTX_AXES_AXES j))) = false) →
    let x := xEnc s n f.u
    let y := xEnc s n (f.u - d)
    Gives (.indexCorrection n) s (Notified k
      ⟨0x12, 640 + n.val, n.val, s.now, ofSigned 64 x, ofSigned 32 (y - x), (inProg s n).map (·.tag), false⟩
      ((s.setFbk n { f with
        u := f.u - d, fix := none, xPrev := f.xPrev + if actLes s n then 0 else ((y - x : Int) : Rat) }).cnt
          (F.FBK_IDX_STAT_CORR n)))) ∧
  (s.rd (F.FBK_CFG_MODE n) = 3 → ∀ dirHigh enableHigh,
    let ena := enableHigh ≠ s.flag (F.FBK_CFG_ENA_POL n)
    let u := s.wrB (F.FBK_STAT_ENA n) ena
    let d : Int := if dirHigh = s.flag (F.FBK_CFG_INV n) then -1 else 1
    (Gives (.stepEdge n dirHigh false enableHigh) s fun t => t = u.sqc (F.FBK_STAT_STEPREJ n)) ∧
    (s.flag (F.FBK_CFG_ENA_EN n) → ¬ ena → Gives (.stepEdge n dirHigh true enableHigh) s fun t => t = u) ∧
    (s.flag (F.FBK_CFG_ENA_EN n) = false ∨ ena → Gives (.stepEdge n dirHigh true enableHigh) s fun t => t =
      (u.advTo (s.clk + 25)).wrS (F.FBK_STEP_STEP n) (s.rdS (F.FBK_STEP_STEP n) + d))) ∧
  (f.hit → s.flag (F.FBK_CFG_CMP_OUT n) → Gives (.compareOutputPulse n) s fun t => t =
    { s.advTo (if s.latches = 0 then s.clk else s.tickClk + s.latches * s.period / 2) with
      sent := s.sent ++ [Out.cmpPulse n] }.setFbk n { f with hit := false })

/-- At a latch point (R34, R198, R327, R333 to R340) each axis whose feedback runs latches: the serial word extrapolated to
it, or the position carried on and an error half-frame counted where no good word came or an edge was illegal (log entry
123); the quadrature position; CLP takes position and speed of the active source, and the steps counted are taken. The
compare arms from its registers, or counts the positions crossed. Crossing a travel limit raises axis source 10 (R194). An
axis whose feedback is off keeps all of it. -/
def Obligations.LatchPointsTakeThePosition : Prop := ∀ (s : State) (l : Nat), nextLatch s = some l →
  let u := s.advTo l
  Gives .latchPoint s fun t => t.clk = u.clk ∧ t.gtc = u.gtc ∧ t.latches = s.latches + 1 ∧ t.tickClk = s.tickClk ∧
    t.reqs = s.reqs ∧ t.coils = s.coils ∧ t.gdrs = s.gdrs ∧ t.adcs = s.adcs ∧ t.streams = s.streams ∧
    ∀ n, let f := s.fbk n
      let c := s.clp n
      (fbkOn s n = false → t.fbk n = f ∧ t.clp n = { c with fresh := (t.clp n).fresh } ∧
        t.reg (Reg.FBK_POS_LO n) = s.reg (Reg.FBK_POS_LO n)) ∧
      (fbkOn s n →
        (t.fbk n).steps = s.rdS (F.FBK_STEP_STEP n) ∧ t.rd (F.FBK_STEP_STEP n) = s.rd (F.FBK_STEP_STEP n) ∧
        t.clp n = { c with
          xLat := actX t n, vLat := actV t n, tLat := u.clk, xLatOld := c.xLat, vLatOld := c.vLat, tLatOld := c.tLat
          fresh := (t.clp n).fresh } ∧
        (t.fbk n).xPrev = actX t n ∧
        (∀ at_, isSerial s n → f.word = none → f.fresh = some at_ →
          let v := serialSpeed f.words
          let x : Int := match f.words.head? with | some w => w.1 | none => s.rdS64 (Reg.FBK_POS_LO n)
          t.rdS64 (Reg.FBK_POS_LO n) = toSigned 64 (ofSigned 64 (roundRat (x + v * ((u.clk : Rat) - at_) / clkHz))) ∧
          t.rdS (F.FBK_SPEED_SPEED n) = satSpeed v ∧ (t.fbk n).err = false ∧ (t.fbk n).bad = false ∧
          (t.fbk n).errRun = 0 ∧ (t.fbk n).fresh = none) ∧
        ((isSerial s n ∧ (f.word.isSome ∨ f.fresh = none)) ∨ (isQuad s n ∧ f.err) →
          t.rdS64 (Reg.FBK_POS_LO n) = toSigned 64 (ofSigned 64
            (roundRat (s.rdS64 (Reg.FBK_POS_LO n) + (s.rdS (F.FBK_SPEED_SPEED n) : Rat) * s.halfSec))) ∧
          t.rd (F.FBK_SPEED_SPEED n) = s.rd (F.FBK_SPEED_SPEED n) ∧ (t.fbk n).err = false ∧ (t.fbk n).bad ∧
          (t.fbk n).errRun = f.errRun + 1 ∧ t.rd (F.FBK_STAT_ERRCNT n) = min 255 (s.rd (F.FBK_STAT_ERRCNT n) + 1) ∧
          (isSerial s n → (t.fbk n).word = none ∧ (f.word.isSome → t.flag (F.FBK_STAT_LATE n)))) ∧
        (isQuad s n → f.err = false → t.rdS64 (Reg.FBK_POS_LO n) = toSigned 64 (ofSigned 64 (xEnc s n f.u)) ∧
          t.rdS (F.FBK_SPEED_SPEED n) = satSpeed ((quadSpeed f u.clk (usClk (s.rd (F.FBK_SPD_SST n)))).1.vEdge *
            s.rd (F.FBK_RATIO_RATIO n) / 65536) ∧ (t.fbk n).u = f.u ∧ (t.fbk n).bad = false ∧ (t.fbk n).errRun = 0) ∧
        (s.flag (F.FBK_CMP_CTRL_ARM n) → (t.fbk n).hit = false ∧
          t.flag (F.FBK_CMP_CTRL_ARM n) = u.goNow (F.FBK_CMP_CTRL_ARM n) ∧
          t.flag (F.FBK_CMP_STAT_ARMED n) = s.flag (F.FBK_CMP_CTRL_EN n) ∧
          (s.flag (F.FBK_CMP_CTRL_EN n) → t.rdS64 (Reg.FBK_CMP_NEXT_LO n) = s.rdS64 (Reg.FBK_CMP_LO n))) ∧
        (s.flag (F.FBK_CMP_CTRL_ARM n) = false → s.flag (F.FBK_CMP_CTRL_EN n) → s.flag (F.FBK_CMP_STAT_ARMED n) →
          let next := s.rdS64 (Reg.FBK_CMP_NEXT_LO n)
          let space := s.rd (F.FBK_CMP_SPACE_SPACE n)
          let k := hitCount f.xPrev (actX t n) next space
          let d : Int := if f.xPrev < actX t n then 1 else -1
          t.rd (F.FBK_CMP_HITS_HITS n) = (s.rd (F.FBK_CMP_HITS_HITS n) + k) % 2 ^ 32 ∧
          (t.fbk n).hit = decide (k ≠ 0) ∧ (k ≠ 0 → t.flag (F.FBK_CMP_STAT_HIT n)) ∧
          t.flag (F.FBK_CMP_STAT_ARMED n) = decide (k = 0 ∨ space ≠ 0) ∧
          t.rdS64 (Reg.FBK_CMP_NEXT_LO n) = (if k = 0 ∨ space = 0 then next
            else toSigned 64 (ofSigned 64 (next + d * (k * space : Nat))))) ∧
        (s.powered 1 → t.energised n → (t.plan n).homed → (s.plan n).travelOut = false →
          inTravel t n (actX t n) = false → (t.src (128 + 16 * n.val + 10)).total =
            min 255 ((s.src (128 + 16 * n.val + 10)).total + 1)))

/-! ### The gate stage and safe torque off -/

/-- The detectors of a powered gate stage (R256 to R268, R276) act in the clock of the event and trip their source. An
overcurrent or di/dt trip turns both half-bridges of the coil off in two steps, a saturated switch or a low bootstrap its
own, a trip input in CYCLE mode the bank's; lost edges and a low gate supply hold the bank off, its brake too, and the
interlock holds its half-bridge (log entry 119). A detector that its setting disables does nothing, and a trip input whose
bank's analog domain is off only trips its source (R404). Step 2 ends a soft turn-off, and a recovered input or supply makes
its source inactive. -/
def Obligations.GateDetectorsTrip : Prop := ∀ s : State, s.powered 1 →
  let stat := fun (v : State) (b : Bank) (f : Nat → Fld) (h : HalfBridge) =>
    (v.sqc (f b)).wr (F.GDR_STAT_LAST_H b) (h.val % 32)
  let ceased := fun (k : Nat) (v t : State) => (t.src k).active = false ∧ (∀ j, j ≠ k → t.src j = s.src j) ∧
    t = { v with fcs := { s.fcs with srcs := t.fcs.srcs } }
  (∀ h, (s.tripHb h).hb h = { s.hb h with
      trip := some (s.clk, 0), noRise := (s.hb h).noRise || inNotch s h, soft := ((s.tripHb h).hb h).soft } ∧
    (gateOn s h → (((s.tripHb h).hb h).soft).isSome) ∧
    (s.tripHb h).rd (F.GDR_MEAS_TRIPS h) = min 255 (s.rd (F.GDR_MEAS_TRIPS h) + 1)) ∧
  (∀ p : Coil, let b := bankOfCoil p
    let v := (s.tripHb (legs p).1).tripHb (legs p).2
    let k := 128 + 16 * (axisOfCoil p).val
    analogOn s b →
    (s.rd (F.GDR_OC_OCTH b) ≠ 0 → Gives (.coilOvercurrentTrip p) s (Tripped k false (stat v b F.GDR_STAT_OC (legs p).1))) ∧
    (s.rd (F.GDR_OC_OCTH b) = 0 → exec (.coilOvercurrentTrip p) s = .next s) ∧
    (s.flag (F.GDR_DIDT_EN b) → Gives (.didtTrip p) s (Tripped (k + 1) false (stat v b F.GDR_STAT_DIDT (legs p).1))) ∧
    (s.flag (F.GDR_DIDT_EN b) = false → exec (.didtTrip p) s = .next s)) ∧
  (∀ h : HalfBridge, let b := bankOfHb h
    let k := 128 + 16 * (axisOfHb h).val
    (analogOn s b →
      (s.rd (F.GDR_VDS_VDSTH b) ≠ 0 → Gives (.switchSaturationTrip h) s
        (Tripped k false (stat (s.tripHb h) b F.GDR_STAT_VDS h))) ∧
      (s.rd (F.GDR_VDS_VDSTH b) = 0 → exec (.switchSaturationTrip h) s = .next s) ∧
      ((s.hb h).bst = false → Gives (.bootstrapUvTrip h) s (Tripped (k + 2) false
        (stat ((s.setHb h { s.hb h with bst := true }).tripHb h) b F.GDR_STAT_BST h))) ∧
      ((s.hb h).bst → exec (.bootstrapUvTrip h) s = .next s) ∧
      Gives (.gatePathFault h) s (Tripped (k + 3) false (stat s b F.GDR_STAT_GATE h)) ∧
      Gives (.interlockActed h) s (Tripped (64 + 16 * b.val + 8) false
        (stat (s.setHb h { s.hb h with ilk := true }) b F.GDR_STAT_ILK h))) ∧
    (∀ x, (s.hb h).soft = some x → Gives (.softTurnoffStep2 h) s fun t => t =
      (s.advTo x.step2).setHb h { s.hb h with soft := none })) ∧
  (∀ (b : Bank) (second : Bool), let g := s.gdr b
    let k := 64 + 16 * b.val + if second then 3 else 2
    let v := s.setGdr b (if second then { g with inB := true } else { g with inA := true })
    let w := if tripCycle s b second then (hbsOfBank b).foldl (fun (x : State) h => x.tripHb h) v else v
    let was := if second then g.inB else g.inA
    (s.powered (8 + b.val) → was = false → tripEn s b second →
      (analogOn s b → Gives (.tripInput b second) s
        (Tripped k true (w.sqc (if second then F.GDR_STAT_TRIPB b else F.GDR_STAT_TRIPA b)))) ∧
      (analogOn s b = false → Gives (.tripInput b second) s (Tripped k true v))) ∧
    (was ∨ s.powered (8 + b.val) = false ∨ tripEn s b second = false → Gives (.tripInput b second) s fun t => t = s) ∧
    Gives (.tripInputRelease b second) s (ceased k
      (s.setGdr b (if second then { g with inB := false } else { g with inA := false })))) ∧
  (∀ b : Bank, let g := s.gdr b
    (analogOn s b → g.vgLow = false →
      let y := if s.flag (F.GDR_VMS_BRK b) then
          ((s.wr (F.GDR_VMS_BRK b) 0).setGdr b { g with vgLow := true, brkAt := none, brkOver := false }).inactive
            (64 + 16 * b.val + 9)
        else s.setGdr b { g with vgLow := true }
      Gives (.vgUndervoltage b) s fun t => ∃ v,
      (∀ h, v.hb h = if h ∈ hbsOfBank b then { s.hb h with vg := true, soft := none } else s.hb h) ∧
      v = { y.sqc (F.GDR_STAT_VGUV b) with hbs := v.hbs } ∧
      Tripped (64 + 16 * b.val + 6) true v t) ∧
    (g.vgLow → Gives (.vgRecovered b) s (ceased (64 + 16 * b.val + 6) (s.setGdr b { g with vgLow := false }))) ∧
    (analogOn s b → g.edgeLost = false →
      let u := s.advTo (g.markAt + s.period + usClk 1)
      Gives (.pwmEdgesLost b) s fun t => ∃ v,
        (∀ h ∈ hbsOfBank b, v.hb h = { s.hb h with edge := true, soft := ((u.softStart h).hb h).soft }) ∧
        (∀ h, h ∉ hbsOfBank b → v.hb h = s.hb h) ∧
        v = { (u.setGdr b { g with edgeLost := true }).sqc (F.GDR_STAT_EDGE b) with hbs := v.hbs } ∧
        Tripped (64 + 16 * b.val + 10) true v t) ∧
    (∀ at_, analogOn s b → g.brkAt = some at_ → s.rd (F.GDR_BRK_CFG_MAXON b) ≠ 0 → g.brkOver = false →
      let u := s.advTo (at_ + msClk (s.rd (F.GDR_BRK_CFG_MAXON b)))
      Gives (.brakeOnTimeExceeded b) s (Tripped (64 + 16 * b.val + 9) true
        ((u.setGdr b { g with brkOver := true }).sqc (F.GDR_VMS_MAXON b)))))

/-- Supply, temperature, encoder and STO (R19, R270 to R272, R277 to R280, R337). A supply sample shows, adds to the mean,
switches the brake at its two levels, and raises overvoltage at the second and undervoltage at the eighth in a row, once per
excursion. A temperature beyond the limits raises OT. An encoder lost for ERR_N half-frames passes the axis to LES. An STO
demand turns every axis off, removes the enables and raises its source; inputs return one by one or together, and both
restore the enables after 1 ms where nothing else removes them; a discrepancy longer than DISC ms keeps them removed. The
brake stays off while the gate supply is low (R253, R257). -/
def Obligations.SupplyAndStoAct : Prop := ∀ s : State, s.powered 1 →
  (∀ (b : Bank) (code : BitVec 10), analogOn s b → Gives (.motorSupplySample b code) s fun t =>
    let g := s.gdr b
    let c := code.toNat
    let k := 64 + 16 * b.val
    let ov := s.rd (F.GDR_VMS_LIM_OV b)
    let uv := s.rd (F.GDR_VMS_LIM_UV b)
    let ovRun := if ov ≤ c then g.ovRun + 1 else 0
    let uvRun := if c < uv then g.uvRun + 1 else 0
    let armed := g.uvArmed || decide (8 ≤ if uv ≤ c then g.uvGood + 1 else 0)
    let ovNew := !g.ovOut && decide (2 ≤ ovRun)
    let uvNew := armed && !g.uvOut && decide (8 ≤ uvRun)
    let on := s.flag (F.GDR_VMS_BRK b)
    let turnOn := !on && !g.vgLow && decide (s.rd (F.GDR_VMS_BRK_ON b) ≤ c)
    let turnOff := on && decide (c ≤ s.rd (F.GDR_VMS_BRK_OFF b))
    t.rd (F.GDR_VMS_VM b) = c ∧ (t.gdr b).sum = g.sum + c ∧ (t.gdr b).cnt = g.cnt + 1 ∧
    t.flag (F.GDR_VMS_BRK b) = ((on || turnOn) && !turnOff) ∧
    (t.gdr b).brkAt = (if turnOn then some s.clk else if turnOff then none else g.brkAt) ∧
    (turnOn → t.rd (F.GDR_VMS_BRKCNT b) = min 255 (s.rd (F.GDR_VMS_BRKCNT b) + 1)) ∧
    (turnOff → (t.src (k + 9)).active = false) ∧
    (t.gdr b).ovRun = ovRun ∧ (t.gdr b).uvRun = uvRun ∧ (t.gdr b).uvArmed = armed ∧
    (t.gdr b).ovOut = ((g.ovOut && !decide (8 ≤ if ov ≤ c then 0 else g.ovSafe + 1)) || ovNew) ∧
    (t.gdr b).uvOut = ((g.uvOut && !decide (8 ≤ if c < uv then 0 else g.uvSafe + 1)) || uvNew) ∧
    (t.src k).total = (if ovNew then min 255 ((s.src k).total + 1) else (s.src k).total) ∧
    (t.src (k + 1)).total = (if uvNew then min 255 ((s.src (k + 1)).total + 1) else (s.src (k + 1)).total) ∧
    (ovNew → (t.src k).active ∧ t.flag (F.GDR_VMS_OV b)) ∧ (uvNew → (t.src (k + 1)).active ∧ t.flag (F.GDR_VMS_UV b)) ∧
    (g.ovOut → (t.gdr b).ovOut = false → (t.src k).active = false) ∧
    (g.uvOut → (t.gdr b).uvOut = false → (t.src (k + 1)).active = false) ∧
    (∀ o, faultReg o = false → o ≠ Reg.GDR_VMS b → t.reg o = s.reg o) ∧ (∀ d, d ≠ b → t.gdr d = s.gdr d) ∧
    t.clk = s.clk ∧ t.gtc = s.gtc ∧ t.coils = s.coils ∧
    (∀ n, t.clp n = { s.clp n with fresh := (t.clp n).fresh }) ∧ t.fbks = s.fbks ∧ t.adcs = s.adcs ∧
    t.reqs = s.reqs) ∧
  (∀ (b : Bank) (uV : BitVec 21), analogOn s b →
    let u := uV.toNat
    let bad := decide (1750000 < u ∨ u < 10000)
    let r := ntcTenths u (s.rd (F.GDR_NTC_RNOM b)) (s.rd (F.GDR_NTC_BETA b))
    let deg := clampInt (-32767) 32767 (r.getD (toSigned 16 s.drawn))
    let z := if bad ∨ r.isSome then s else s.draw
    let out := s.flag (F.GDR_NTC_LIM_EN b) && (bad || decide (s.rdS (F.GDR_NTC_LIM_OT b) ≤ deg))
    let w := z.wr (F.GDR_TEMP_TEMP b) (if bad then 0x8000 else ofSigned 16 deg)
    let v := (if bad then w else w.reading 11 b.val deg true).setGdr b { s.gdr b with ntcOut := out }
    let k := 64 + 16 * b.val + 4
    (out → (s.gdr b).ntcOut = false → Gives (.ntcSample b uV) s (Tripped k true (v.sqc (F.GDR_STAT_OT b)))) ∧
    ((s.gdr b).ntcOut → out = false → Gives (.ntcSample b uV) s fun t => (t.src k).active = false ∧
      (∀ j, j ≠ k → t.src j = s.src j) ∧ t = { v with fcs := { s.fcs with srcs := t.fcs.srcs } }) ∧
    (out = (s.gdr b).ntcOut → Gives (.ntcSample b uV) s fun t => t = v)) ∧
  (∀ n : Axis, encoder s n → fbkOn s n → s.flag (F.FBK_STAT_VALID n) → s.rd (F.FBK_CFG_ERR_N n) ≤ (s.fbk n).errRun →
    Gives (.encoderLost n) s fun t => ∃ v, Tripped (128 + 16 * n.val + 13) false v t ∧
      v.flag (F.FBK_STAT_VALID n) = false ∧ v.flag (F.FBK_STAT_LOST n) ∧ (v.fbk n).words = [] ∧ (v.fbk n).goodRun = 0 ∧
      v.plan n = { s.plan n with useLes := true } ∧ (∀ m, m ≠ n → v.plan m = s.plan m ∧ v.fbk m = s.fbk m) ∧
      (∀ o, faultReg o = false → o ≠ Reg.FBK_STAT n → v.reg o = s.reg o) ∧
      v = { s with
        regs := v.regs, plans := v.plans, fbks := v.fbks, less := v.less, ctxs := v.ctxs, portA := v.portA
        portB := v.portB, sent := v.sent, seqDone := v.seqDone, cntNow := v.cntNow }) ∧
  (∀ which : Fin 3, Gives (.stoDemand ⟨which, false⟩) s fun t => ∃ v,
    let u := s.stoLevels (s.flag F.GDR_STO_STAT_A && which = 1) (s.flag F.GDR_STO_STAT_B && which = 0)
    let w := (v.wr F.GDR_STO_STAT_EN 0).sqc F.GDR_STO_STAT_DEMAND
    let w := { w with fcs := { w.fcs with discWait := (s.fcs.discWait &&
      (u.flag F.GDR_STO_STAT_A || u.flag F.GDR_STO_STAT_B)) } }
    u.flag F.GDR_STO_STAT_A = (s.flag F.GDR_STO_STAT_A && which = 1) ∧
    u.flag F.GDR_STO_STAT_B = (s.flag F.GDR_STO_STAT_B && which = 0) ∧ Reaction u v ∧ v.fcs.srcs = s.fcs.srcs ∧
      (∀ n, (v.plan n).st = .off) ∧ (∀ n, (t.plan n).st = .off) ∧
    t.flag F.GDR_STO_STAT_EN = false ∧
    (which = 0 → Tripped 8 true w t) ∧ (which = 1 → Tripped 9 true w t) ∧
    (which = 2 → ∃ x, Tripped 8 true w x ∧ Tripped 9 true x t)) ∧
  (∀ which : Fin 3, Gives (.stoDemand ⟨which, true⟩) s fun t =>
    let a := s.flag F.GDR_STO_STAT_A || which ≠ 1
    let b := s.flag F.GDR_STO_STAT_B || which ≠ 0
    t.flag F.GDR_STO_STAT_A = a ∧ t.flag F.GDR_STO_STAT_B = b ∧
    (t.src 8).active = ((s.src 8).active && !a) ∧ (t.src 9).active = ((s.src 9).active && !b) ∧
    (∀ j, j ≠ 8 → j ≠ 9 → t.src j = s.src j) ∧ RegsBut [Reg.GDR_STO_STAT] s t ∧
    t.flag F.GDR_STO_STAT_EN = s.flag F.GDR_STO_STAT_EN ∧
    t.fcs.stoAt = (if s.flag F.GDR_STO_STAT_A = a ∧ s.flag F.GDR_STO_STAT_B = b then s.fcs.stoAt else s.clk) ∧
    t = { s with regs := t.regs, fcs := { s.fcs with srcs := t.fcs.srcs, stoAt := t.fcs.stoAt } }) ∧
  (s.flag F.GDR_STO_STAT_A → s.flag F.GDR_STO_STAT_B →
    let u := s.advTo (s.fcs.stoAt + msClk 1)
    Gives .stoPermitReturn s fun t => t.flag F.GDR_STO_STAT_EN = (s.flag F.GDR_STO_STAT_EN || gatesMay u) ∧
      (t.src 10).active = ((s.src 10).active && s.fcs.discWait) ∧ (∀ j, j ≠ 10 → t.src j = s.src j) ∧
      RegsBut [Reg.GDR_STO_STAT] s t ∧ t = { u with regs := t.regs, fcs := { s.fcs with srcs := t.fcs.srcs } }) ∧
  (s.flag F.GDR_STO_STAT_A = false ∨ s.flag F.GDR_STO_STAT_B = false →
    Gives .stoPermitReturn s fun t => t = s) ∧
  (∀ second : Bool, s.fcs.discWait = false →
    s.flag F.GDR_STO_STAT_A = second → s.flag F.GDR_STO_STAT_B = !second →
    let u := s.advTo (s.fcs.stoAt + msClk (s.rd F.GDR_STO_CFG_DISC) + 1)
    Gives (.stoDiscrepancy second) s (Tripped 10 true
      ({ u with fcs := { s.fcs with discWait := true } }.sqc F.GDR_STO_STAT_DISC)))

/-! ### Conversion: the open-wire test, injected conversions and calibration -/

/-- The converters' own sequences (R291, R295 to R298, R305, R306, R310). The open-wire test covers the coils of de-energised
axes and shows, after 100 us, those above 50 mV and those skipped, with axis source 12 for each open coil. An injected
conversion takes the first clock of its window at which a slice can be spared for all of it, the auxiliary sequence having
run up to there (R293), and ends with its record, or ends DROPPED. A calibrated slice latches its coefficients, or fails with
bank source 11; it then rotates in; a FULL calibration does every slice of the powered banks. -/
def Obligations.ConversionsAreSequenced : Prop := ∀ s : State,
  (∀ b : Bank, s.atTick → s.ripe (.owt b) → s.powered (12 + b.val) → Gives (.openWireTestStart b) s fun t =>
    let on := fun i : Fin 16 => s.energised (axisOfCoil ⟨16 * b.val + i.val, by omega⟩)
    (∃ m, t.adc b = { s.adc b with owt := some (s.clk, m) } ∧ ∀ i : Fin 16, bit i.val m = !on i) ∧
    (∀ i : Fin 16, bit i.val (t.rd (F.ADC_OWT_STAT_SKIP b)) = on i) ∧ t.rd (F.ADC_OWT_STAT_OPEN b) = 0 ∧
    RegsBut [Reg.ADC_OWT_STAT b] s t ∧ (∀ c, c ≠ b → t.adc c = s.adc c) ∧
    t = { s.drop (.owt b) with regs := t.regs, adcs := t.adcs }) ∧
  (∀ (b : Bank) (above : BitVec 16) (c m : Nat), (s.adc b).owt = some (c, m) → s.powered 1 →
    Gives (.openWireTestDone b above) s fun t =>
      let u := s.advTo (c + usClk 100)
      let axis := fun i : Fin 16 => axisOfCoil ⟨16 * b.val + i.val, by omega⟩
      let tested := fun i : Fin 16 => bit i.val m && !s.energised (axis i)
      let wide := (List.finRange 16).filter fun i => tested i && bit i.val above.toNat
      t.clk = u.clk ∧ t.gtc = u.gtc ∧ (t.adc b).owt = none ∧
      (∀ i : Fin 16, (t.adc b).settle[i] = if tested i then 2 else (s.adc b).settle[i]) ∧
      (∀ i : Fin 16, bit i.val (t.rd (F.ADC_OWT_STAT_SKIP b)) = !tested i ∧
        bit i.val (t.rd (F.ADC_OWT_STAT_OPEN b)) = (tested i && bit i.val above.toNat)) ∧
      t.flag (F.ADC_STAT_OWT_DONE b) ∧ (u.goNow (F.ADC_OWT_GO b) = false → t.flag (F.ADC_OWT_GO b) = false) ∧
      t.reqs = (if u.goNow (F.ADC_OWT_GO b) then s.reqs ++ [(.owt b, u.clk)] else s.reqs) ∧
      (∀ n : Axis, (t.src (128 + 16 * n.val + 12)).total =
        let k := (wide.filter fun i => axis i = n).length
        if k = 0 then (s.src (128 + 16 * n.val + 12)).total
        else min 255 ((s.src (128 + 16 * n.val + 12)).total + k)) ∧
      (∀ o, faultReg o = false → o ∉ [Reg.ADC_OWT_STAT b, Reg.ADC_STAT b, Reg.ADC_OWT b] → t.reg o = s.reg o) ∧
      t.coils = s.coils ∧ (∀ n, t.clp n = { s.clp n with fresh := (t.clp n).fresh }) ∧ t.fbks = s.fbks ∧
      t.gdrs = s.gdrs) ∧
  (∀ (tag : Fin 1024) (o : Op), s.opOf tag = some o → o.op = 0x1A → o.begun = false →
    let b := o.d.bank
    let u := (auxRun s b (s.advToGtc o.t1).clk).advToGtc o.t1
    let ts := 20 + 10 * o.d.u8 18
    let ok := adcLive s b && 4 ≤ (inService s b).length
    let found := (List.range 100).find? fun i => injectable u b (u.clk + i) (u.clk + i + ts + 80)
    (ok = false ∨ found = none → Gives (.injectedWindowOpen tag) s fun t => t =
      u.setOp { o with begun := true, data := [] }) ∧
    (∀ i, ok → found = some i → Gives (.injectedWindowOpen tag) s fun t =>
      let v := (auxRun u b (u.clk + i)).advTo (u.clk + i)
      let e := freeSlices v b v.clk
      let l := lfsrNext (v.adc b).lfsr
      (e = [] → t = v.setOp { o with begun := true, data := [0, v.now, v.clk + ts] }) ∧
      ∀ q, e[l % e.length]? = some q → t = (v.setAdc b { v.adc b with
        lfsr := l, busy := (v.adc b).busy.set q (v.clk + ts + 80) }).setOp
          { o with begun := true, data := [q.val, v.now, v.clk + ts] })) ∧
  (∀ (tag : Fin 1024) (o : Op) (r : Raw) (q t1 hold : Nat), s.opOf tag = some o → o.op = 0x1A → o.begun →
    o.data = [q, t1, hold] → s.powered (12 + o.d.bank.val) →
    let u := s.advTo (hold + 100)
    Gives (.injectedResultReady tag r) s (Ended o .done t1 u.now
      (injectedWord s o.d.bank (o.d.u8 16) ⟨q % 5, by omega⟩ r) (opFlags o) u)) ∧
  (∀ (tag : Fin 1024) (o : Op), s.opOf tag = some o → o.op = 0x1A → o.begun →
    o.data = [] ∨ s.powered (12 + o.d.bank.val) = false →
    let u := s.advToGtc (o.t1 + 400)
    Gives (.injectedDrop tag) s (Ended o .dropped o.t1 u.now (absentWord (o.d.u8 16)) (opFlags o)
      (u.cnt (F.ADC_STAT_INJDROP o.d.bank)))) ∧
  (∀ (b : Bank) (q : Fin 5) (x : SliceCal), resting s b = some q → adcLive s b → (s.adc b).calDone = false →
    s.powered 1 → Gives (.sliceCalibrationDone b x) s fun t => ∃ v,
      let u := s.advTo ((s.adc b).calAt + 1025000)
      let mine := v.ops.find? fun o => o.op = 0x1B && o.d.u8 16 = 0 && o.d.bank = b && o.begun
      let i := s.rd (F.ADC_ROT_INSVC b)
      let m := s.rd (F.ADC_ROT_FAILED b)
      (mine = none → t = v) ∧
      (∀ o, mine = some o → v.opOf o.tag = some o → Ended o .done o.t1 v.now 0 (opFlags o) v t) ∧
      (sliceOk x → v.rd (F.ADC_SLC_OG_OFS (slice b q)) = x.ofs.toNat ∧
        v.rd (F.ADC_SLC_OG_GERR (slice b q)) = x.gerr.toNat ∧ v.rd (F.ADC_SLC_SK_SKEW (slice b q)) = x.skew.toNat ∧
        v.adc b = { s.adc b with latched := (s.adc b).latched.set q u.clk, calDone := decide (m = 0) } ∧
        (m ≠ 0 → v.rd (F.ADC_ROT_INSVC b) = (i + 2 ^ q.val) % 32 ∧ v.rd (F.ADC_ROT_REST b) = 7) ∧
        RegsBut [Reg.ADC_SLC_OG (slice b q), Reg.ADC_SLC_SK (slice b q), Reg.ADC_ROT b] s v ∧
        (m = 0 → v.reg (Reg.ADC_ROT b) = s.reg (Reg.ADC_ROT b)) ∧
        v = { u with regs := v.regs, adcs := v.adcs, cnd := { s.cnd with acc := v.cnd.acc, lastOfs := v.cnd.lastOfs } }) ∧
      (sliceOk x = false → Tripped (64 + 16 * b.val + 11) false
        (((((u.wr (F.ADC_ROT_FAILED b) (if bit q.val m then m else m + 2 ^ q.val)).wr (F.ADC_ROT_INSVC b)
          (if bit q.val i then i - 2 ^ q.val else i)).sqc (F.ADC_STAT_SLICE b)).wr (F.ADC_ROT_REST b) 7)) v)) ∧
  (∀ (b : Bank) (q : Fin 5), resting s b = some q → adcLive s b → (s.adc b).calDone →
    let out : Fin 5 := ⟨(q.val + 1) % 5, by omega⟩
    let z := auxRun s b s.clk
    let u := (auxRun z b (z.adc b).busy[out]).advTo (z.adc b).busy[out]
    Gives (.sliceRotation b) s fun t => t =
      ((u.wr (F.ADC_ROT_INSVC b) (s.rd (F.ADC_ROT_INSVC b) + 2 ^ q.val - 2 ^ out.val)).wr (F.ADC_ROT_REST b) out).setAdc b
        { u.adc b with calDone := false, calAt := u.clk }) ∧
  (∀ (cals : List (Bank × Fin 5 × SliceCal)) (offs : List (Coil × BitVec 16)) (o : Op), s.powered 1 →
    (s.ops.find? fun o => o.op = 0x1B && o.d.u8 16 = 1 && o.begun) = some o →
    Gives (.fullCalibrationDone cals offs) s fun t => ∃ v,
      let start := allBanks.foldl (fun m b => max m ((s.adc b).full.getD 0)) 0
      let u := s.advTo (start + 1300000)
      v.clk = u.clk ∧ v.gtc = u.gtc ∧ (v.opOf o.tag = some o → Ended o .done o.t1 v.now 0 (opFlags o) v t) ∧
      (∀ b, s.powered (12 + b.val) = false → v.adc b = s.adc b ∧ v.reg (Reg.ADC_ROT b) = s.reg (Reg.ADC_ROT b)) ∧
      (∀ b, s.powered (12 + b.val) →
        let cal := fun q : Fin 5 => (cals.find? fun c => c.1 = b && c.2.1 = q).map (·.2.2)
        let good := fun q : Fin 5 => (cal q).any sliceOk
        let all := (List.finRange 5).all good
        (v.adc b).full = none ∧ (v.adc b).valid = all ∧ (v.adc b).calDone = false ∧ (v.adc b).calAt = u.clk ∧
        (v.adc b).auxAt = u.clk ∧
        (all → v.rd (F.ADC_ROT_REST b) = (if s.rd (F.ADC_ROT_REST b) < 5 then s.rd (F.ADC_ROT_REST b) else 4)) ∧
        (all = false → v.rd (F.ADC_ROT_REST b) = 7) ∧
        (∀ q : Fin 5, bit q.val (v.rd (F.ADC_ROT_FAILED b)) = !good q ∧
          bit q.val (v.rd (F.ADC_ROT_INSVC b)) = (good q && v.rd (F.ADC_ROT_REST b) ≠ q.val) ∧
          (∀ x, cal q = some x → sliceOk x → v.rd (F.ADC_SLC_OG_OFS (slice b q)) = x.ofs.toNat ∧
            v.rd (F.ADC_SLC_OG_GERR (slice b q)) = x.gerr.toNat ∧ v.rd (F.ADC_SLC_SK_SKEW (slice b q)) = x.skew.toNat)) ∧
        (∀ i : Fin 16, (v.adc b).offset[i] = match offs.lookup ⟨16 * b.val + i.val, by omega⟩ with
          | some w => toSigned 16 w.toNat
          | none => (s.adc b).offset[i])) ∧
      v.coils = s.coils ∧ (∀ n, v.clp n = { s.clp n with fresh := (v.clp n).fresh }) ∧ v.fbks = s.fbks ∧
        v.gdrs = s.gdrs ∧ v.reqs = s.reqs)

/-! ### The condition monitor and the ledger -/

/-- The condition monitor (R435 to R451). An evaluation takes the readings into the trends, wants only tighter working
values, and touches no register but status and context pages; a wanted one is applied at a tick with its event and entry,
unless it fails its checks, the queue is full, or it is no longer tighter; an approved loosening likewise. Proposals lapse;
a baseline ends with the medians; the counters and the trends are written; the front entry of the ledger goes to its slot,
and the next that waits enters. Working fields lie in the bank and axis windows (R440). A Dexcy record is complete when DONE
sets. -/
def Obligations.ConditionsAreMonitored : Prop := ∀ s : State,
  let spared := fun (t : State) (l : List (Nat × Nat)) => ∀ a, (∀ x ∈ l, a < x.1 ∨ x.1 + x.2 ≤ a) →
    t.ledgerWord a = s.ledgerWord a
  let replanned := fun (u : State) (w : Target) (t : State) => ∃ y x,
    let old := s.reg w.off
    let v := workClamp u w.kind w.off w.value
    let new := workPut w.kind old v
    y.reg w.off = new ∧ RegsBut [w.off] s y ∧
    y.buf w.off = (if Nat.land (s.dirtyBits w.off).toNat (workMask w.kind w.off) = 0 then workPut w.kind (s.buf w.off) v
      else s.buf w.off) ∧ (∀ o, o ≠ w.off → y.buf o = s.buf o) ∧
    y = { u with regs := y.regs, bufs := y.bufs, lcs := { s.lcs with store := y.lcs.store } } ∧
    Notified 0 ⟨0x16, 736, w.off, s.now, old.toNat, new.toNat, none, false⟩ y x ∧
    Handed (x.ledPush 6 [BitVec.ofNat 32 w.off, old, new, BitVec.ofNat 32 w.prop]) t
  (∀ ring, s.cndRuns → Gives (.cndEvaluation ring) s fun t =>
    let u := s.advTo (s.cnd.evalAt + msClk (1000 * s.rd F.CND_CFG_EVAL))
    t.clk = u.clk ∧ t.cnd.evalAt = u.clk ∧ t.cnd.acc = [] ∧
    (s.cnd.acc.Pairwise (fun a b => (a.1, a.2.1) ≠ (b.1, b.2.1)) → ∀ q o v, (q, o, v) ∈ s.cnd.acc → q ∉ [7, 8, 9] →
      t.cnd.trend.find? (fun x => x.1 = q && x.2.1 = o) = some (q, o, v, u.clk)) ∧
    (∀ w ∈ t.cnd.wants, w ∈ s.cnd.wants ∨
      (w.prop = 0 ∧ tighterThan w.kind w.value (workGet w.kind (s.reg w.off)) ∧ s.flag F.CND_CFG_REPLAN)) ∧
    t.cnd.base = s.cnd.base ∧ (s.cnd.baseAt = none → t.cnd.hist = s.cnd.hist ∧ t.cnd.starts = s.cnd.starts) ∧
    (s.cnd.baseAt ≠ none → ∀ q o v, (q, o, v) ∈ s.cnd.acc → q ∈ [1, 2, 3, 5] → findReading q o s.cnd.base = none →
      (∀ y ∈ s.cnd.starts, ¬(y.1 = q ∧ y.2.1 = o)) → (q, o, u.clk) ∈ t.cnd.starts ∧ (q, o, v) ∈ t.cnd.hist) ∧
    (s.flag F.CND_CFG_REPLAN = false → t.cnd.wants = s.cnd.wants ∧ t.cnd.props = s.cnd.props) ∧
    (∀ o, faultReg o = false → t.reg o = s.reg o) ∧ t.ledger.store = s.ledger.store ∧
    t = { u with
      regs := t.regs, seqDone := t.seqDone, cntNow := t.cntNow, ctxs := t.ctxs, portA := t.portA, portB := t.portB
      sent := t.sent, ledger := t.ledger, cnd := t.cnd }) ∧
  (∀ w, replanTime s → s.cnd.wants = [w] → 0x10000 ≤ w.off → w.off < 0x40000 →
    let u := { s with cnd := { s.cnd with wants := [] } }
    let old := s.reg w.off
    let now := workGet w.kind old
    let new := workPut w.kind old (workClamp u w.kind w.off w.value)
    (tighterThan w.kind w.value now → new ≠ old → workOk u w.off new → s.ledFull = false → CanNotify s 0 →
      Gives .cndReplanApply s (replanned u w)) ∧
    (tighterThan w.kind w.value now → new ≠ old → workOk u w.off new = false → Gives .cndReplanApply s (Handed
      (u.alertIf (kindQuantity w.kind) (kindObject w.kind w.off) true false (workClamp u w.kind w.off w.value) now))) ∧
    (tighterThan w.kind w.value now → (new = old ∨ (workOk u w.off new ∧ s.ledFull)) → Gives .cndReplanApply s (Handed u)) ∧
    (w.value = now → Gives .cndReplanApply s (Handed u)) ∧
    (tighterThan w.kind w.value now = false → w.value ≠ now → Gives .cndReplanApply s (Handed
      (u.ledPush 6 [BitVec.ofNat 32 w.off, old, old, 0#32])))) ∧
  (∀ p : Prop_, replanTime s → (s.cnd.props.filter fun x => x.ok) = [p] → s.ledFull = false →
    0x10000 ≤ p.off → p.off < 0x40000 →
    let u := { s with cnd := { s.cnd with
      props := s.cnd.props.filter fun x => !(x.off = p.off && x.kind = p.kind)
      looser := s.cnd.looser.filter fun x => !(x.1 = p.off && x.2.1 = p.kind) } }
    let v := workGet p.kind (BitVec.ofNat 32 p.value)
    let now := workGet p.kind (s.reg p.off)
    let new := workPut p.kind (s.reg p.off) (workClamp u p.kind p.off v)
    (tighterThan p.kind now v → new ≠ s.reg p.off → workOk u p.off new → CanNotify s 0 →
      Gives .cndLoosenApply s (replanned u ⟨p.off, p.kind, v, p.num⟩)) ∧
    (tighterThan p.kind now v = false → Gives .cndLoosenApply s (Handed u))) ∧
  (∀ p ∈ s.cnd.props, p.ok = false → (∀ x ∈ s.cnd.props, x.ok = false → p.made ≤ x.made) →
    Gives .proposalExpiry s fun t =>
      let u := s.advTo (p.made + s.rd F.CND_CFG_PROP_TMO * hourClk)
      t = { u with cnd := { s.cnd with
        props := s.cnd.props.filter fun x => x.ok || u.clk < x.made + s.rd F.CND_CFG_PROP_TMO * hourClk } }) ∧
  (∀ c ∈ s.cnd.starts, (∀ y ∈ s.cnd.starts, c.2.2 ≤ y.2.2) → s.cndRuns → Gives .baselineComplete s fun t =>
    let u := s.advTo (c.2.2 + dayClk)
    let ends := fun q o : Nat => s.cnd.starts.any fun y => y.1 = q && y.2.1 = o && y.2.2 + dayClk ≤ u.clk
    (∀ x ∈ allObjects, findReading x.1 x.2 t.cnd.base = if ends x.1 x.2 then
      some (medianInt ((s.cnd.hist.filter fun y => y.1 = x.1 && y.2.1 = x.2).map (·.2.2))) else findReading x.1 x.2 s.cnd.base) ∧
    t.cnd = { s.cnd with
      base := t.cnd.base, baseGtc := u.now, hist := s.cnd.hist.filter fun y => !ends y.1 y.2.1
      starts := s.cnd.starts.filter fun y => !ends y.1 y.2.1 } ∧
    (∀ j, j < 128 → t.ledgerWord (0x200 + 4 * j) =
      BitVec.ofNat 32 (base16 t 1 (2 * j) + 65536 * base16 t 1 (2 * j + 1))) ∧ spared t [(0x200, 0x600)] ∧
    t = { u with cnd := t.cnd, ledger := { s.ledger with store := t.ledger.store } }) ∧
  (s.powered 1 → s.powered 5 → s.lcState ≠ lcBlank → s.lcState ≠ lcRetired → Gives .counterSnapshot s fun t =>
    let u := s.advTo (s.cnd.snapAt + hourClk)
    let at_ := 0x800 + 512 * (t.counter 0 % 16)
    t.counter 0 = min (s.counter 0 + 1) (2 ^ 32 - 1) ∧ t.counter 4 = min (lastSeq s) (2 ^ 32 - 1) ∧
    (∀ o, o ≠ 0 → o ≠ 4 → t.counter o = s.counter o) ∧
    (∀ j, j < 120 → t.ledgerWord (at_ + 4 * j) = BitVec.ofNat 32 (t.counter (4 * j))) ∧ spared t [(at_, 512)] ∧
    t = { u with
      ledger := { s.ledger with store := t.ledger.store, ended := false }
      cnd := { s.cnd with counts := t.cnd.counts, snapAt := u.clk } }) ∧
  (∀ e es, s.ledger.queue = e :: es → s.powered 5 → ∀ fails : Fin 4,
    let u := s.advTo (s.clk + msClk 1)
    let l := s.ledger
    let slot := e.seq % 864
    let pin := match pinnedAt e.typ with | some a => [(a, 64)] | none => []
    let fed := fun t : State => t.ledger.queue = es ++ (if 256 ≤ es.length then [] else
      match (l.reserve ++ l.waits).head? with
      | some x => [{ x with seq := l.nextSeq }]
      | none => if l.dropped = 0 then [] else
          [⟨l.nextSeq, 0xB, u.now, [BitVec.ofNat 32 l.dropped, BitVec.ofNat 32 l.lastType, 0#32, 0#32], none⟩])
    let pinned := fun t : State => ∀ x ∈ pin, ∀ j, j < 16 → t.ledgerWord (x.1 + 4 * j) = (entryWords e true).getD j 0#32
    (slot ∈ l.bad → Gives (.ledgerSlotWrite fails) s fun t => fed t ∧ pinned t ∧ spared t pin ∧ t.ledger.bad = l.bad ∧
      t = { u with ledger := t.ledger }) ∧
    (slot ∉ l.bad → fails ≠ 3 → Gives (.ledgerSlotWrite fails) s fun t => fed t ∧ t.ledger.bad = l.bad ∧
      (∀ j, j < 16 → t.ledgerWord (0x2800 + 64 * slot + 4 * j) = (entryWords e false).getD j 0#32) ∧
      pinned t ∧ spared t ((0x2800 + 64 * slot, 64) :: pin) ∧ t = { u with ledger := t.ledger }) ∧
    (slot ∉ l.bad → fails = 3 → s.powered 1 → Gives (.ledgerSlotWrite fails) s fun t => ∃ v,
      Tripped 31 false { u with ledger := { l with queue := es, bad := l.bad ++ [slot], store := t.ledger.store } } v ∧
      t = { v with ledger := t.ledger } ∧ pinned t ∧ spared t pin ∧ t.ledger.bad = l.bad ++ [slot])) ∧
  (∀ c, s.cnd.dexAt = some c → Gives .dexcyBuildDone s fun t => ∃ v,
    let u := s.advTo (c + msClk 20)
    let again := u.goNow F.CND_DXC_CTRL_GO && s.lcState ≠ lcBlank && s.lcState ≠ lcRetired
    let ws := dexcyWords u
    let tag := tagOf ws
    v.cnd = { s.cnd with dexAt := if again then some u.clk else none, dexcy := wordsBytes (ws ++ tag) } ∧
    v.flag F.CND_DXC_CTRL_GO = (again && s.flag F.CND_DXC_CTRL_GO) ∧
    v.flag F.CND_DXC_CTRL_DONE ∧ RegsBut [F.CND_DXC_CTRL_GO.off] s v ∧
    v = { u with regs := v.regs, cnd := v.cnd, seqDone := v.seqDone } ∧
    t = v.ledPush 0xD [s.reg (Reg.CND_DXC_NONCE 0), s.reg (Reg.CND_DXC_NONCE 1), tag.getD 0 0#32, tag.getD 1 0#32]) ∧
  (s.cndRuns → Gives .cndTrendEntry s fun t =>
    let u := s.advTo (s.cnd.trendAt + s.rd F.CND_CFG_TREND * hourClk)
    let words := fun y : Nat × Nat × Int × Nat => [BitVec.ofNat 32 y.1, BitVec.ofNat 32 y.2.1, BitVec.ofInt 32 y.2.2.1,
      BitVec.ofInt 32 ((findReading y.1 y.2.1 s.cnd.base).getD 0xFFFF)]
    (∀ e ∈ t.ledger.queue, e ∈ s.ledger.queue ∨
      (e.typ = 9 ∧ e.gtc = u.now ∧ ∃ y ∈ s.cnd.trend, e.data = words y)) ∧
    (s.ledger.queue.length ≤ 212 → s.ledger.reserve = [] → s.ledger.waits = [] → ∀ (b : Bank) (q : Nat), 1 ≤ q → q ≤ 11 →
      ∀ y, worst q (s.cnd.trend.filter fun y => y.1 = q && ofBank q y.2.1 b) = some y →
        ∃ e ∈ t.ledger.queue, e.typ = 9 ∧ e.data = words y) ∧
    t.cnd = { s.cnd with trendAt := u.clk } ∧ t.ledger.store = s.ledger.store ∧ RegsBut [Reg.CND_STAT] s t ∧
    t = { u with regs := t.regs, cnd := t.cnd, ledger := t.ledger, seqDone := t.seqDone })
end

