-- ==== Sys2Proof/Laws/Conversion.lean ====
section
/-! SUPPORT. The slots of the auxiliary sequence (R290, R303). -/

namespace Sys2Proof.Machine

theorem slotsOf_le {smp : Nat} (h : smp ≤ 23) : slotsOf smp ≤ 4 := by
  rw [slotsOf, ceilDiv, if_neg (by decide)]; omega

theorem slotsOf_pos (smp : Nat) : 1 ≤ slotsOf smp := by
  rw [slotsOf, ceilDiv, if_neg (by decide)]; omega

theorem auxTimes_le (s : State) : auxTimes s ≤ 4 := by
  unfold auxTimes; split <;> omega

/-- R303: with every sampling time at a code the register can hold, a bank's sequence costs at most 64 slots a conversion of each
entry, and so at most 256. -/
theorem seqCost_le (s : State) (b : Bank) (h : ∀ k, s.rd (F.ADC_SEQ_SMP (entryOf b k)) ≤ 23) :
    seqCost s b ≤ 64 * auxTimes s := by
  unfold seqCost
  refine Nat.mul_le_mul_right _ ?_
  refine le_trans (List.sum_le_card_nsmul _ 4 ?_) ?_
  · simp only [List.mem_map]
    rintro _ ⟨k, -, rfl⟩
    exact slotsOf_le (h k)
  · simp only [List.length_map, smul_eq_mul]
    have := List.length_filter_le (fun k => s.flag (F.ADC_SEQ_EN (entryOf b k))) (List.finRange 16)
    rw [List.length_finRange] at this
    omega

theorem seqCost_le_precise (s : State) (b : Bank) (h : ∀ k, s.rd (F.ADC_SEQ_SMP (entryOf b k)) ≤ 23) : seqCost s b ≤ 256 :=
  le_trans (seqCost_le s b h) (by have := auxTimes_le s; omega)

end Sys2Proof.Machine
end

