-- ==== Sys2Proof/Laws/Time.lean ====
section
/-! SUPPORT. What the passing of time, a status field that sets, a counter and a wake event leave alone, and what they set.
-/

namespace Sys2Proof.Machine

variable (s : State)

/-- A status field that sets writes its register and notes the clock. -/
theorem State.sqcMask_shape (o m : Nat) : ∃ w b, s.sqcMask o m = { s.setReg o w with seqDone := b } := by
  unfold State.sqcMask
  split
  · exact ⟨_, _, rfl⟩
  · exact ⟨_, _, rfl⟩

/-- A wake event is noted with the power manager. -/
theorem State.wakeEvent_shape (c : Nat) : ∃ x, s.wakeEvent c = { s with pmu := x } := by
  unfold State.wakeEvent
  dsimp only
  repeat' split
  all_goals exact ⟨_, rfl⟩


@[simp] theorem State.advTo_pending (c : Nat) : (s.advTo c).pending = s.pending := by
  unfold State.advTo; split <;> rfl
@[simp] theorem State.advTo_regs (c : Nat) : (s.advTo c).regs = s.regs := by
  unfold State.advTo; split <;> rfl
@[simp] theorem State.advTo_bufs (c : Nat) : (s.advTo c).bufs = s.bufs := by
  unfold State.advTo; split <;> rfl
@[simp] theorem State.advTo_dirty (c : Nat) : (s.advTo c).dirty = s.dirty := by
  unfold State.advTo; split <;> rfl
@[simp] theorem State.advTo_loHeld (c : Nat) : (s.advTo c).loHeld = s.loHeld := by
  unfold State.advTo; split <;> rfl
@[simp] theorem State.advTo_gtcRuns (c : Nat) : (s.advTo c).gtcRuns = s.gtcRuns := by
  unfold State.advTo; split <;> rfl
@[simp] theorem State.advTo_ticking (c : Nat) : (s.advTo c).ticking = s.ticking := by
  unfold State.advTo; split <;> rfl
@[simp] theorem State.advTo_tickClk (c : Nat) : (s.advTo c).tickClk = s.tickClk := by
  unfold State.advTo; split <;> rfl
@[simp] theorem State.advTo_tickGtc (c : Nat) : (s.advTo c).tickGtc = s.tickGtc := by
  unfold State.advTo; split <;> rfl
@[simp] theorem State.advTo_half (c : Nat) : (s.advTo c).half = s.half := by
  unfold State.advTo; split <;> rfl
@[simp] theorem State.advTo_latches (c : Nat) : (s.advTo c).latches = s.latches := by
  unfold State.advTo; split <;> rfl
@[simp] theorem State.advTo_horizon (c : Nat) : (s.advTo c).horizon = s.horizon := by
  unfold State.advTo; split <;> rfl
@[simp] theorem State.advTo_cutoff (c : Nat) : (s.advTo c).cutoff = s.cutoff := by
  unfold State.advTo; split <;> rfl
@[simp] theorem State.advTo_reqs (c : Nat) : (s.advTo c).reqs = s.reqs := by
  unfold State.advTo; split <;> rfl
@[simp] theorem State.advTo_portA (c : Nat) : (s.advTo c).portA = s.portA := by
  unfold State.advTo; split <;> rfl
@[simp] theorem State.advTo_portB (c : Nat) : (s.advTo c).portB = s.portB := by
  unfold State.advTo; split <;> rfl
@[simp] theorem State.advTo_ctxs (c : Nat) : (s.advTo c).ctxs = s.ctxs := by
  unfold State.advTo; split <;> rfl
@[simp] theorem State.advTo_streams (c : Nat) : (s.advTo c).streams = s.streams := by
  unfold State.advTo; split <;> rfl
@[simp] theorem State.advTo_sent (c : Nat) : (s.advTo c).sent = s.sent := by
  unfold State.advTo; split <;> rfl
@[simp] theorem State.advTo_ops (c : Nat) : (s.advTo c).ops = s.ops := by
  unfold State.advTo; split <;> rfl
@[simp] theorem State.advTo_plans (c : Nat) : (s.advTo c).plans = s.plans := by
  unfold State.advTo; split <;> rfl
@[simp] theorem State.advTo_banks (c : Nat) : (s.advTo c).banks = s.banks := by
  unfold State.advTo; split <;> rfl
@[simp] theorem State.advTo_fcs (c : Nat) : (s.advTo c).fcs = s.fcs := by
  unfold State.advTo; split <;> rfl
@[simp] theorem State.advTo_hbs (c : Nat) : (s.advTo c).hbs = s.hbs := by
  unfold State.advTo; split <;> rfl
@[simp] theorem State.advTo_coils (c : Nat) : (s.advTo c).coils = s.coils := by
  unfold State.advTo; split <;> rfl
@[simp] theorem State.advTo_clps (c : Nat) : (s.advTo c).clps = s.clps := by
  unfold State.advTo; split <;> rfl
@[simp] theorem State.advTo_less (c : Nat) : (s.advTo c).less = s.less := by
  unfold State.advTo; split <;> rfl
@[simp] theorem State.advTo_fbks (c : Nat) : (s.advTo c).fbks = s.fbks := by
  unfold State.advTo; split <;> rfl
@[simp] theorem State.advTo_gdrs (c : Nat) : (s.advTo c).gdrs = s.gdrs := by
  unfold State.advTo; split <;> rfl
@[simp] theorem State.advTo_adcs (c : Nat) : (s.advTo c).adcs = s.adcs := by
  unfold State.advTo; split <;> rfl
@[simp] theorem State.advTo_ledger (c : Nat) : (s.advTo c).ledger = s.ledger := by
  unfold State.advTo; split <;> rfl
@[simp] theorem State.advTo_tbs (c : Nat) : (s.advTo c).tbs = s.tbs := by
  unfold State.advTo; split <;> rfl
@[simp] theorem State.advTo_ckg (c : Nat) : (s.advTo c).ckg = s.ckg := by
  unfold State.advTo; split <;> rfl
@[simp] theorem State.advTo_pmu (c : Nat) : (s.advTo c).pmu = s.pmu := by
  unfold State.advTo; split <;> rfl
@[simp] theorem State.advTo_lcs (c : Nat) : (s.advTo c).lcs = s.lcs := by
  unfold State.advTo; split <;> rfl
@[simp] theorem State.advTo_cnd (c : Nat) : (s.advTo c).cnd = s.cnd := by
  unfold State.advTo; split <;> rfl
@[simp] theorem State.advTo_freeCtr (c : Nat) : (s.advTo c).freeCtr = s.freeCtr := by
  unfold State.advTo; split <;> rfl
@[simp] theorem State.advTo_reg (c : Nat) (j : Nat) : (s.advTo c).reg j = s.reg j := by
  unfold State.reg; rw [State.advTo_regs]
@[simp] theorem State.advTo_rd (c : Nat) (g : Fld) : (s.advTo c).rd g = s.rd g := by
  unfold State.rd; rw [State.advTo_reg]
@[simp] theorem State.advTo_flag (c : Nat) (g : Fld) : (s.advTo c).flag g = s.flag g := by
  unfold State.flag; rw [State.advTo_rd]
@[simp] theorem State.advTo_rdS (c : Nat) (g : Fld) : (s.advTo c).rdS g = s.rdS g := by
  unfold State.rdS; rw [State.advTo_rd]

@[simp] theorem State.advToGtc_pending (t : Nat) : (s.advToGtc t).pending = s.pending := by
  unfold State.advToGtc; split; · rfl
  exact State.advTo_pending _ _
@[simp] theorem State.advToGtc_regs (t : Nat) : (s.advToGtc t).regs = s.regs := by
  unfold State.advToGtc; split; · rfl
  exact State.advTo_regs _ _
@[simp] theorem State.advToGtc_bufs (t : Nat) : (s.advToGtc t).bufs = s.bufs := by
  unfold State.advToGtc; split; · rfl
  exact State.advTo_bufs _ _
@[simp] theorem State.advToGtc_dirty (t : Nat) : (s.advToGtc t).dirty = s.dirty := by
  unfold State.advToGtc; split; · rfl
  exact State.advTo_dirty _ _
@[simp] theorem State.advToGtc_loHeld (t : Nat) : (s.advToGtc t).loHeld = s.loHeld := by
  unfold State.advToGtc; split; · rfl
  exact State.advTo_loHeld _ _
@[simp] theorem State.advToGtc_gtcRuns (t : Nat) : (s.advToGtc t).gtcRuns = s.gtcRuns := by
  unfold State.advToGtc; split; · rfl
  exact State.advTo_gtcRuns _ _
@[simp] theorem State.advToGtc_ticking (t : Nat) : (s.advToGtc t).ticking = s.ticking := by
  unfold State.advToGtc; split; · rfl
  exact State.advTo_ticking _ _
@[simp] theorem State.advToGtc_tickClk (t : Nat) : (s.advToGtc t).tickClk = s.tickClk := by
  unfold State.advToGtc; split; · rfl
  exact State.advTo_tickClk _ _
@[simp] theorem State.advToGtc_tickGtc (t : Nat) : (s.advToGtc t).tickGtc = s.tickGtc := by
  unfold State.advToGtc; split; · rfl
  exact State.advTo_tickGtc _ _
@[simp] theorem State.advToGtc_half (t : Nat) : (s.advToGtc t).half = s.half := by
  unfold State.advToGtc; split; · rfl
  exact State.advTo_half _ _
@[simp] theorem State.advToGtc_latches (t : Nat) : (s.advToGtc t).latches = s.latches := by
  unfold State.advToGtc; split; · rfl
  exact State.advTo_latches _ _
@[simp] theorem State.advToGtc_horizon (t : Nat) : (s.advToGtc t).horizon = s.horizon := by
  unfold State.advToGtc; split; · rfl
  exact State.advTo_horizon _ _
@[simp] theorem State.advToGtc_cutoff (t : Nat) : (s.advToGtc t).cutoff = s.cutoff := by
  unfold State.advToGtc; split; · rfl
  exact State.advTo_cutoff _ _
@[simp] theorem State.advToGtc_reqs (t : Nat) : (s.advToGtc t).reqs = s.reqs := by
  unfold State.advToGtc; split; · rfl
  exact State.advTo_reqs _ _
@[simp] theorem State.advToGtc_portA (t : Nat) : (s.advToGtc t).portA = s.portA := by
  unfold State.advToGtc; split; · rfl
  exact State.advTo_portA _ _
@[simp] theorem State.advToGtc_portB (t : Nat) : (s.advToGtc t).portB = s.portB := by
  unfold State.advToGtc; split; · rfl
  exact State.advTo_portB _ _
@[simp] theorem State.advToGtc_ctxs (t : Nat) : (s.advToGtc t).ctxs = s.ctxs := by
  unfold State.advToGtc; split; · rfl
  exact State.advTo_ctxs _ _
@[simp] theorem State.advToGtc_streams (t : Nat) : (s.advToGtc t).streams = s.streams := by
  unfold State.advToGtc; split; · rfl
  exact State.advTo_streams _ _
@[simp] theorem State.advToGtc_sent (t : Nat) : (s.advToGtc t).sent = s.sent := by
  unfold State.advToGtc; split; · rfl
  exact State.advTo_sent _ _
@[simp] theorem State.advToGtc_ops (t : Nat) : (s.advToGtc t).ops = s.ops := by
  unfold State.advToGtc; split; · rfl
  exact State.advTo_ops _ _
@[simp] theorem State.advToGtc_plans (t : Nat) : (s.advToGtc t).plans = s.plans := by
  unfold State.advToGtc; split; · rfl
  exact State.advTo_plans _ _
@[simp] theorem State.advToGtc_banks (t : Nat) : (s.advToGtc t).banks = s.banks := by
  unfold State.advToGtc; split; · rfl
  exact State.advTo_banks _ _
@[simp] theorem State.advToGtc_fcs (t : Nat) : (s.advToGtc t).fcs = s.fcs := by
  unfold State.advToGtc; split; · rfl
  exact State.advTo_fcs _ _
@[simp] theorem State.advToGtc_hbs (t : Nat) : (s.advToGtc t).hbs = s.hbs := by
  unfold State.advToGtc; split; · rfl
  exact State.advTo_hbs _ _
@[simp] theorem State.advToGtc_coils (t : Nat) : (s.advToGtc t).coils = s.coils := by
  unfold State.advToGtc; split; · rfl
  exact State.advTo_coils _ _
@[simp] theorem State.advToGtc_clps (t : Nat) : (s.advToGtc t).clps = s.clps := by
  unfold State.advToGtc; split; · rfl
  exact State.advTo_clps _ _
@[simp] theorem State.advToGtc_less (t : Nat) : (s.advToGtc t).less = s.less := by
  unfold State.advToGtc; split; · rfl
  exact State.advTo_less _ _
@[simp] theorem State.advToGtc_fbks (t : Nat) : (s.advToGtc t).fbks = s.fbks := by
  unfold State.advToGtc; split; · rfl
  exact State.advTo_fbks _ _
@[simp] theorem State.advToGtc_gdrs (t : Nat) : (s.advToGtc t).gdrs = s.gdrs := by
  unfold State.advToGtc; split; · rfl
  exact State.advTo_gdrs _ _
@[simp] theorem State.advToGtc_adcs (t : Nat) : (s.advToGtc t).adcs = s.adcs := by
  unfold State.advToGtc; split; · rfl
  exact State.advTo_adcs _ _
@[simp] theorem State.advToGtc_ledger (t : Nat) : (s.advToGtc t).ledger = s.ledger := by
  unfold State.advToGtc; split; · rfl
  exact State.advTo_ledger _ _
@[simp] theorem State.advToGtc_tbs (t : Nat) : (s.advToGtc t).tbs = s.tbs := by
  unfold State.advToGtc; split; · rfl
  exact State.advTo_tbs _ _
@[simp] theorem State.advToGtc_ckg (t : Nat) : (s.advToGtc t).ckg = s.ckg := by
  unfold State.advToGtc; split; · rfl
  exact State.advTo_ckg _ _
@[simp] theorem State.advToGtc_pmu (t : Nat) : (s.advToGtc t).pmu = s.pmu := by
  unfold State.advToGtc; split; · rfl
  exact State.advTo_pmu _ _
@[simp] theorem State.advToGtc_lcs (t : Nat) : (s.advToGtc t).lcs = s.lcs := by
  unfold State.advToGtc; split; · rfl
  exact State.advTo_lcs _ _
@[simp] theorem State.advToGtc_cnd (t : Nat) : (s.advToGtc t).cnd = s.cnd := by
  unfold State.advToGtc; split; · rfl
  exact State.advTo_cnd _ _
@[simp] theorem State.advToGtc_freeCtr (t : Nat) : (s.advToGtc t).freeCtr = s.freeCtr := by
  unfold State.advToGtc; split; · rfl
  exact State.advTo_freeCtr _ _
@[simp] theorem State.advToGtc_reg (t : Nat) (j : Nat) : (s.advToGtc t).reg j = s.reg j := by
  unfold State.reg; rw [State.advToGtc_regs]
@[simp] theorem State.advToGtc_rd (t : Nat) (g : Fld) : (s.advToGtc t).rd g = s.rd g := by
  unfold State.rd; rw [State.advToGtc_reg]
@[simp] theorem State.advToGtc_flag (t : Nat) (g : Fld) : (s.advToGtc t).flag g = s.flag g := by
  unfold State.flag; rw [State.advToGtc_rd]
@[simp] theorem State.advToGtc_rdS (t : Nat) (g : Fld) : (s.advToGtc t).rdS g = s.rdS g := by
  unfold State.rdS; rw [State.advToGtc_rd]

@[simp] theorem State.sqcMask_pending (o m : Nat) : (s.sqcMask o m).pending = s.pending := by
  obtain ⟨w, b, e⟩ := s.sqcMask_shape o m; rw [e]; rfl
@[simp] theorem State.sqcMask_bufs (o m : Nat) : (s.sqcMask o m).bufs = s.bufs := by
  obtain ⟨w, b, e⟩ := s.sqcMask_shape o m; rw [e]; rfl
@[simp] theorem State.sqcMask_dirty (o m : Nat) : (s.sqcMask o m).dirty = s.dirty := by
  obtain ⟨w, b, e⟩ := s.sqcMask_shape o m; rw [e]; rfl
@[simp] theorem State.sqcMask_loHeld (o m : Nat) : (s.sqcMask o m).loHeld = s.loHeld := by
  obtain ⟨w, b, e⟩ := s.sqcMask_shape o m; rw [e]; rfl
@[simp] theorem State.sqcMask_cntNow (o m : Nat) : (s.sqcMask o m).cntNow = s.cntNow := by
  obtain ⟨w, b, e⟩ := s.sqcMask_shape o m; rw [e]; rfl
@[simp] theorem State.sqcMask_inClk (o m : Nat) : (s.sqcMask o m).inClk = s.inClk := by
  obtain ⟨w, b, e⟩ := s.sqcMask_shape o m; rw [e]; rfl
@[simp] theorem State.sqcMask_clk (o m : Nat) : (s.sqcMask o m).clk = s.clk := by
  obtain ⟨w, b, e⟩ := s.sqcMask_shape o m; rw [e]; rfl
@[simp] theorem State.sqcMask_gtc (o m : Nat) : (s.sqcMask o m).gtc = s.gtc := by
  obtain ⟨w, b, e⟩ := s.sqcMask_shape o m; rw [e]; rfl
@[simp] theorem State.sqcMask_gtcRuns (o m : Nat) : (s.sqcMask o m).gtcRuns = s.gtcRuns := by
  obtain ⟨w, b, e⟩ := s.sqcMask_shape o m; rw [e]; rfl
@[simp] theorem State.sqcMask_ticking (o m : Nat) : (s.sqcMask o m).ticking = s.ticking := by
  obtain ⟨w, b, e⟩ := s.sqcMask_shape o m; rw [e]; rfl
@[simp] theorem State.sqcMask_tickClk (o m : Nat) : (s.sqcMask o m).tickClk = s.tickClk := by
  obtain ⟨w, b, e⟩ := s.sqcMask_shape o m; rw [e]; rfl
@[simp] theorem State.sqcMask_tickGtc (o m : Nat) : (s.sqcMask o m).tickGtc = s.tickGtc := by
  obtain ⟨w, b, e⟩ := s.sqcMask_shape o m; rw [e]; rfl
@[simp] theorem State.sqcMask_half (o m : Nat) : (s.sqcMask o m).half = s.half := by
  obtain ⟨w, b, e⟩ := s.sqcMask_shape o m; rw [e]; rfl
@[simp] theorem State.sqcMask_latches (o m : Nat) : (s.sqcMask o m).latches = s.latches := by
  obtain ⟨w, b, e⟩ := s.sqcMask_shape o m; rw [e]; rfl
@[simp] theorem State.sqcMask_horizon (o m : Nat) : (s.sqcMask o m).horizon = s.horizon := by
  obtain ⟨w, b, e⟩ := s.sqcMask_shape o m; rw [e]; rfl
@[simp] theorem State.sqcMask_cutoff (o m : Nat) : (s.sqcMask o m).cutoff = s.cutoff := by
  obtain ⟨w, b, e⟩ := s.sqcMask_shape o m; rw [e]; rfl
@[simp] theorem State.sqcMask_reqs (o m : Nat) : (s.sqcMask o m).reqs = s.reqs := by
  obtain ⟨w, b, e⟩ := s.sqcMask_shape o m; rw [e]; rfl
@[simp] theorem State.sqcMask_portA (o m : Nat) : (s.sqcMask o m).portA = s.portA := by
  obtain ⟨w, b, e⟩ := s.sqcMask_shape o m; rw [e]; rfl
@[simp] theorem State.sqcMask_portB (o m : Nat) : (s.sqcMask o m).portB = s.portB := by
  obtain ⟨w, b, e⟩ := s.sqcMask_shape o m; rw [e]; rfl
@[simp] theorem State.sqcMask_ctxs (o m : Nat) : (s.sqcMask o m).ctxs = s.ctxs := by
  obtain ⟨w, b, e⟩ := s.sqcMask_shape o m; rw [e]; rfl
@[simp] theorem State.sqcMask_streams (o m : Nat) : (s.sqcMask o m).streams = s.streams := by
  obtain ⟨w, b, e⟩ := s.sqcMask_shape o m; rw [e]; rfl
@[simp] theorem State.sqcMask_sent (o m : Nat) : (s.sqcMask o m).sent = s.sent := by
  obtain ⟨w, b, e⟩ := s.sqcMask_shape o m; rw [e]; rfl
@[simp] theorem State.sqcMask_ops (o m : Nat) : (s.sqcMask o m).ops = s.ops := by
  obtain ⟨w, b, e⟩ := s.sqcMask_shape o m; rw [e]; rfl
@[simp] theorem State.sqcMask_plans (o m : Nat) : (s.sqcMask o m).plans = s.plans := by
  obtain ⟨w, b, e⟩ := s.sqcMask_shape o m; rw [e]; rfl
@[simp] theorem State.sqcMask_banks (o m : Nat) : (s.sqcMask o m).banks = s.banks := by
  obtain ⟨w, b, e⟩ := s.sqcMask_shape o m; rw [e]; rfl
@[simp] theorem State.sqcMask_fcs (o m : Nat) : (s.sqcMask o m).fcs = s.fcs := by
  obtain ⟨w, b, e⟩ := s.sqcMask_shape o m; rw [e]; rfl
@[simp] theorem State.sqcMask_hbs (o m : Nat) : (s.sqcMask o m).hbs = s.hbs := by
  obtain ⟨w, b, e⟩ := s.sqcMask_shape o m; rw [e]; rfl
@[simp] theorem State.sqcMask_coils (o m : Nat) : (s.sqcMask o m).coils = s.coils := by
  obtain ⟨w, b, e⟩ := s.sqcMask_shape o m; rw [e]; rfl
@[simp] theorem State.sqcMask_clps (o m : Nat) : (s.sqcMask o m).clps = s.clps := by
  obtain ⟨w, b, e⟩ := s.sqcMask_shape o m; rw [e]; rfl
@[simp] theorem State.sqcMask_less (o m : Nat) : (s.sqcMask o m).less = s.less := by
  obtain ⟨w, b, e⟩ := s.sqcMask_shape o m; rw [e]; rfl
@[simp] theorem State.sqcMask_fbks (o m : Nat) : (s.sqcMask o m).fbks = s.fbks := by
  obtain ⟨w, b, e⟩ := s.sqcMask_shape o m; rw [e]; rfl
@[simp] theorem State.sqcMask_gdrs (o m : Nat) : (s.sqcMask o m).gdrs = s.gdrs := by
  obtain ⟨w, b, e⟩ := s.sqcMask_shape o m; rw [e]; rfl
@[simp] theorem State.sqcMask_adcs (o m : Nat) : (s.sqcMask o m).adcs = s.adcs := by
  obtain ⟨w, b, e⟩ := s.sqcMask_shape o m; rw [e]; rfl
@[simp] theorem State.sqcMask_ledger (o m : Nat) : (s.sqcMask o m).ledger = s.ledger := by
  obtain ⟨w, b, e⟩ := s.sqcMask_shape o m; rw [e]; rfl
@[simp] theorem State.sqcMask_tbs (o m : Nat) : (s.sqcMask o m).tbs = s.tbs := by
  obtain ⟨w, b, e⟩ := s.sqcMask_shape o m; rw [e]; rfl
@[simp] theorem State.sqcMask_ckg (o m : Nat) : (s.sqcMask o m).ckg = s.ckg := by
  obtain ⟨w, b, e⟩ := s.sqcMask_shape o m; rw [e]; rfl
@[simp] theorem State.sqcMask_pmu (o m : Nat) : (s.sqcMask o m).pmu = s.pmu := by
  obtain ⟨w, b, e⟩ := s.sqcMask_shape o m; rw [e]; rfl
@[simp] theorem State.sqcMask_lcs (o m : Nat) : (s.sqcMask o m).lcs = s.lcs := by
  obtain ⟨w, b, e⟩ := s.sqcMask_shape o m; rw [e]; rfl
@[simp] theorem State.sqcMask_cnd (o m : Nat) : (s.sqcMask o m).cnd = s.cnd := by
  obtain ⟨w, b, e⟩ := s.sqcMask_shape o m; rw [e]; rfl
@[simp] theorem State.sqcMask_freeCtr (o m : Nat) : (s.sqcMask o m).freeCtr = s.freeCtr := by
  obtain ⟨w, b, e⟩ := s.sqcMask_shape o m; rw [e]; rfl

@[simp] theorem State.sqc_pending (f : Fld) : (s.sqc f).pending = s.pending := State.sqcMask_pending _ _ _
@[simp] theorem State.sqc_bufs (f : Fld) : (s.sqc f).bufs = s.bufs := State.sqcMask_bufs _ _ _
@[simp] theorem State.sqc_dirty (f : Fld) : (s.sqc f).dirty = s.dirty := State.sqcMask_dirty _ _ _
@[simp] theorem State.sqc_loHeld (f : Fld) : (s.sqc f).loHeld = s.loHeld := State.sqcMask_loHeld _ _ _
@[simp] theorem State.sqc_cntNow (f : Fld) : (s.sqc f).cntNow = s.cntNow := State.sqcMask_cntNow _ _ _
@[simp] theorem State.sqc_inClk (f : Fld) : (s.sqc f).inClk = s.inClk := State.sqcMask_inClk _ _ _
@[simp] theorem State.sqc_clk (f : Fld) : (s.sqc f).clk = s.clk := State.sqcMask_clk _ _ _
@[simp] theorem State.sqc_gtc (f : Fld) : (s.sqc f).gtc = s.gtc := State.sqcMask_gtc _ _ _
@[simp] theorem State.sqc_gtcRuns (f : Fld) : (s.sqc f).gtcRuns = s.gtcRuns := State.sqcMask_gtcRuns _ _ _
@[simp] theorem State.sqc_ticking (f : Fld) : (s.sqc f).ticking = s.ticking := State.sqcMask_ticking _ _ _
@[simp] theorem State.sqc_tickClk (f : Fld) : (s.sqc f).tickClk = s.tickClk := State.sqcMask_tickClk _ _ _
@[simp] theorem State.sqc_tickGtc (f : Fld) : (s.sqc f).tickGtc = s.tickGtc := State.sqcMask_tickGtc _ _ _
@[simp] theorem State.sqc_half (f : Fld) : (s.sqc f).half = s.half := State.sqcMask_half _ _ _
@[simp] theorem State.sqc_latches (f : Fld) : (s.sqc f).latches = s.latches := State.sqcMask_latches _ _ _
@[simp] theorem State.sqc_horizon (f : Fld) : (s.sqc f).horizon = s.horizon := State.sqcMask_horizon _ _ _
@[simp] theorem State.sqc_cutoff (f : Fld) : (s.sqc f).cutoff = s.cutoff := State.sqcMask_cutoff _ _ _
@[simp] theorem State.sqc_reqs (f : Fld) : (s.sqc f).reqs = s.reqs := State.sqcMask_reqs _ _ _
@[simp] theorem State.sqc_portA (f : Fld) : (s.sqc f).portA = s.portA := State.sqcMask_portA _ _ _
@[simp] theorem State.sqc_portB (f : Fld) : (s.sqc f).portB = s.portB := State.sqcMask_portB _ _ _
@[simp] theorem State.sqc_ctxs (f : Fld) : (s.sqc f).ctxs = s.ctxs := State.sqcMask_ctxs _ _ _
@[simp] theorem State.sqc_streams (f : Fld) : (s.sqc f).streams = s.streams := State.sqcMask_streams _ _ _
@[simp] theorem State.sqc_sent (f : Fld) : (s.sqc f).sent = s.sent := State.sqcMask_sent _ _ _
@[simp] theorem State.sqc_ops (f : Fld) : (s.sqc f).ops = s.ops := State.sqcMask_ops _ _ _
@[simp] theorem State.sqc_plans (f : Fld) : (s.sqc f).plans = s.plans := State.sqcMask_plans _ _ _
@[simp] theorem State.sqc_banks (f : Fld) : (s.sqc f).banks = s.banks := State.sqcMask_banks _ _ _
@[simp] theorem State.sqc_fcs (f : Fld) : (s.sqc f).fcs = s.fcs := State.sqcMask_fcs _ _ _
@[simp] theorem State.sqc_hbs (f : Fld) : (s.sqc f).hbs = s.hbs := State.sqcMask_hbs _ _ _
@[simp] theorem State.sqc_coils (f : Fld) : (s.sqc f).coils = s.coils := State.sqcMask_coils _ _ _
@[simp] theorem State.sqc_clps (f : Fld) : (s.sqc f).clps = s.clps := State.sqcMask_clps _ _ _
@[simp] theorem State.sqc_less (f : Fld) : (s.sqc f).less = s.less := State.sqcMask_less _ _ _
@[simp] theorem State.sqc_fbks (f : Fld) : (s.sqc f).fbks = s.fbks := State.sqcMask_fbks _ _ _
@[simp] theorem State.sqc_gdrs (f : Fld) : (s.sqc f).gdrs = s.gdrs := State.sqcMask_gdrs _ _ _
@[simp] theorem State.sqc_adcs (f : Fld) : (s.sqc f).adcs = s.adcs := State.sqcMask_adcs _ _ _
@[simp] theorem State.sqc_ledger (f : Fld) : (s.sqc f).ledger = s.ledger := State.sqcMask_ledger _ _ _
@[simp] theorem State.sqc_tbs (f : Fld) : (s.sqc f).tbs = s.tbs := State.sqcMask_tbs _ _ _
@[simp] theorem State.sqc_ckg (f : Fld) : (s.sqc f).ckg = s.ckg := State.sqcMask_ckg _ _ _
@[simp] theorem State.sqc_pmu (f : Fld) : (s.sqc f).pmu = s.pmu := State.sqcMask_pmu _ _ _
@[simp] theorem State.sqc_lcs (f : Fld) : (s.sqc f).lcs = s.lcs := State.sqcMask_lcs _ _ _
@[simp] theorem State.sqc_cnd (f : Fld) : (s.sqc f).cnd = s.cnd := State.sqcMask_cnd _ _ _
@[simp] theorem State.sqc_freeCtr (f : Fld) : (s.sqc f).freeCtr = s.freeCtr := State.sqcMask_freeCtr _ _ _

@[simp] theorem State.cnt_pending (f : Fld) (n : Nat) : (s.cnt f n).pending = s.pending := rfl
@[simp] theorem State.cnt_bufs (f : Fld) (n : Nat) : (s.cnt f n).bufs = s.bufs := rfl
@[simp] theorem State.cnt_dirty (f : Fld) (n : Nat) : (s.cnt f n).dirty = s.dirty := rfl
@[simp] theorem State.cnt_loHeld (f : Fld) (n : Nat) : (s.cnt f n).loHeld = s.loHeld := rfl
@[simp] theorem State.cnt_seqDone (f : Fld) (n : Nat) : (s.cnt f n).seqDone = s.seqDone := rfl
@[simp] theorem State.cnt_inClk (f : Fld) (n : Nat) : (s.cnt f n).inClk = s.inClk := rfl
@[simp] theorem State.cnt_clk (f : Fld) (n : Nat) : (s.cnt f n).clk = s.clk := rfl
@[simp] theorem State.cnt_gtc (f : Fld) (n : Nat) : (s.cnt f n).gtc = s.gtc := rfl
@[simp] theorem State.cnt_gtcRuns (f : Fld) (n : Nat) : (s.cnt f n).gtcRuns = s.gtcRuns := rfl
@[simp] theorem State.cnt_ticking (f : Fld) (n : Nat) : (s.cnt f n).ticking = s.ticking := rfl
@[simp] theorem State.cnt_tickClk (f : Fld) (n : Nat) : (s.cnt f n).tickClk = s.tickClk := rfl
@[simp] theorem State.cnt_tickGtc (f : Fld) (n : Nat) : (s.cnt f n).tickGtc = s.tickGtc := rfl
@[simp] theorem State.cnt_half (f : Fld) (n : Nat) : (s.cnt f n).half = s.half := rfl
@[simp] theorem State.cnt_latches (f : Fld) (n : Nat) : (s.cnt f n).latches = s.latches := rfl
@[simp] theorem State.cnt_horizon (f : Fld) (n : Nat) : (s.cnt f n).horizon = s.horizon := rfl
@[simp] theorem State.cnt_cutoff (f : Fld) (n : Nat) : (s.cnt f n).cutoff = s.cutoff := rfl
@[simp] theorem State.cnt_reqs (f : Fld) (n : Nat) : (s.cnt f n).reqs = s.reqs := rfl
@[simp] theorem State.cnt_portA (f : Fld) (n : Nat) : (s.cnt f n).portA = s.portA := rfl
@[simp] theorem State.cnt_portB (f : Fld) (n : Nat) : (s.cnt f n).portB = s.portB := rfl
@[simp] theorem State.cnt_ctxs (f : Fld) (n : Nat) : (s.cnt f n).ctxs = s.ctxs := rfl
@[simp] theorem State.cnt_streams (f : Fld) (n : Nat) : (s.cnt f n).streams = s.streams := rfl
@[simp] theorem State.cnt_sent (f : Fld) (n : Nat) : (s.cnt f n).sent = s.sent := rfl
@[simp] theorem State.cnt_ops (f : Fld) (n : Nat) : (s.cnt f n).ops = s.ops := rfl
@[simp] theorem State.cnt_plans (f : Fld) (n : Nat) : (s.cnt f n).plans = s.plans := rfl
@[simp] theorem State.cnt_banks (f : Fld) (n : Nat) : (s.cnt f n).banks = s.banks := rfl
@[simp] theorem State.cnt_fcs (f : Fld) (n : Nat) : (s.cnt f n).fcs = s.fcs := rfl
@[simp] theorem State.cnt_hbs (f : Fld) (n : Nat) : (s.cnt f n).hbs = s.hbs := rfl
@[simp] theorem State.cnt_coils (f : Fld) (n : Nat) : (s.cnt f n).coils = s.coils := rfl
@[simp] theorem State.cnt_clps (f : Fld) (n : Nat) : (s.cnt f n).clps = s.clps := rfl
@[simp] theorem State.cnt_less (f : Fld) (n : Nat) : (s.cnt f n).less = s.less := rfl
@[simp] theorem State.cnt_fbks (f : Fld) (n : Nat) : (s.cnt f n).fbks = s.fbks := rfl
@[simp] theorem State.cnt_gdrs (f : Fld) (n : Nat) : (s.cnt f n).gdrs = s.gdrs := rfl
@[simp] theorem State.cnt_adcs (f : Fld) (n : Nat) : (s.cnt f n).adcs = s.adcs := rfl
@[simp] theorem State.cnt_ledger (f : Fld) (n : Nat) : (s.cnt f n).ledger = s.ledger := rfl
@[simp] theorem State.cnt_tbs (f : Fld) (n : Nat) : (s.cnt f n).tbs = s.tbs := rfl
@[simp] theorem State.cnt_ckg (f : Fld) (n : Nat) : (s.cnt f n).ckg = s.ckg := rfl
@[simp] theorem State.cnt_pmu (f : Fld) (n : Nat) : (s.cnt f n).pmu = s.pmu := rfl
@[simp] theorem State.cnt_lcs (f : Fld) (n : Nat) : (s.cnt f n).lcs = s.lcs := rfl
@[simp] theorem State.cnt_cnd (f : Fld) (n : Nat) : (s.cnt f n).cnd = s.cnd := rfl
@[simp] theorem State.cnt_freeCtr (f : Fld) (n : Nat) : (s.cnt f n).freeCtr = s.freeCtr := rfl

@[simp] theorem State.cntWrap_pending (f : Fld) : (s.cntWrap f).pending = s.pending := rfl
@[simp] theorem State.cntWrap_bufs (f : Fld) : (s.cntWrap f).bufs = s.bufs := rfl
@[simp] theorem State.cntWrap_dirty (f : Fld) : (s.cntWrap f).dirty = s.dirty := rfl
@[simp] theorem State.cntWrap_loHeld (f : Fld) : (s.cntWrap f).loHeld = s.loHeld := rfl
@[simp] theorem State.cntWrap_seqDone (f : Fld) : (s.cntWrap f).seqDone = s.seqDone := rfl
@[simp] theorem State.cntWrap_inClk (f : Fld) : (s.cntWrap f).inClk = s.inClk := rfl
@[simp] theorem State.cntWrap_clk (f : Fld) : (s.cntWrap f).clk = s.clk := rfl
@[simp] theorem State.cntWrap_gtc (f : Fld) : (s.cntWrap f).gtc = s.gtc := rfl
@[simp] theorem State.cntWrap_gtcRuns (f : Fld) : (s.cntWrap f).gtcRuns = s.gtcRuns := rfl
@[simp] theorem State.cntWrap_ticking (f : Fld) : (s.cntWrap f).ticking = s.ticking := rfl
@[simp] theorem State.cntWrap_tickClk (f : Fld) : (s.cntWrap f).tickClk = s.tickClk := rfl
@[simp] theorem State.cntWrap_tickGtc (f : Fld) : (s.cntWrap f).tickGtc = s.tickGtc := rfl
@[simp] theorem State.cntWrap_half (f : Fld) : (s.cntWrap f).half = s.half := rfl
@[simp] theorem State.cntWrap_latches (f : Fld) : (s.cntWrap f).latches = s.latches := rfl
@[simp] theorem State.cntWrap_horizon (f : Fld) : (s.cntWrap f).horizon = s.horizon := rfl
@[simp] theorem State.cntWrap_cutoff (f : Fld) : (s.cntWrap f).cutoff = s.cutoff := rfl
@[simp] theorem State.cntWrap_reqs (f : Fld) : (s.cntWrap f).reqs = s.reqs := rfl
@[simp] theorem State.cntWrap_portA (f : Fld) : (s.cntWrap f).portA = s.portA := rfl
@[simp] theorem State.cntWrap_portB (f : Fld) : (s.cntWrap f).portB = s.portB := rfl
@[simp] theorem State.cntWrap_ctxs (f : Fld) : (s.cntWrap f).ctxs = s.ctxs := rfl
@[simp] theorem State.cntWrap_streams (f : Fld) : (s.cntWrap f).streams = s.streams := rfl
@[simp] theorem State.cntWrap_sent (f : Fld) : (s.cntWrap f).sent = s.sent := rfl
@[simp] theorem State.cntWrap_ops (f : Fld) : (s.cntWrap f).ops = s.ops := rfl
@[simp] theorem State.cntWrap_plans (f : Fld) : (s.cntWrap f).plans = s.plans := rfl
@[simp] theorem State.cntWrap_banks (f : Fld) : (s.cntWrap f).banks = s.banks := rfl
@[simp] theorem State.cntWrap_fcs (f : Fld) : (s.cntWrap f).fcs = s.fcs := rfl
@[simp] theorem State.cntWrap_hbs (f : Fld) : (s.cntWrap f).hbs = s.hbs := rfl
@[simp] theorem State.cntWrap_coils (f : Fld) : (s.cntWrap f).coils = s.coils := rfl
@[simp] theorem State.cntWrap_clps (f : Fld) : (s.cntWrap f).clps = s.clps := rfl
@[simp] theorem State.cntWrap_less (f : Fld) : (s.cntWrap f).less = s.less := rfl
@[simp] theorem State.cntWrap_fbks (f : Fld) : (s.cntWrap f).fbks = s.fbks := rfl
@[simp] theorem State.cntWrap_gdrs (f : Fld) : (s.cntWrap f).gdrs = s.gdrs := rfl
@[simp] theorem State.cntWrap_adcs (f : Fld) : (s.cntWrap f).adcs = s.adcs := rfl
@[simp] theorem State.cntWrap_ledger (f : Fld) : (s.cntWrap f).ledger = s.ledger := rfl
@[simp] theorem State.cntWrap_tbs (f : Fld) : (s.cntWrap f).tbs = s.tbs := rfl
@[simp] theorem State.cntWrap_ckg (f : Fld) : (s.cntWrap f).ckg = s.ckg := rfl
@[simp] theorem State.cntWrap_pmu (f : Fld) : (s.cntWrap f).pmu = s.pmu := rfl
@[simp] theorem State.cntWrap_lcs (f : Fld) : (s.cntWrap f).lcs = s.lcs := rfl
@[simp] theorem State.cntWrap_cnd (f : Fld) : (s.cntWrap f).cnd = s.cnd := rfl
@[simp] theorem State.cntWrap_freeCtr (f : Fld) : (s.cntWrap f).freeCtr = s.freeCtr := rfl

@[simp] theorem State.wakeEvent_pending (c : Nat) : (s.wakeEvent c).pending = s.pending := by
  obtain ⟨x, e⟩ := s.wakeEvent_shape c; rw [e]
@[simp] theorem State.wakeEvent_regs (c : Nat) : (s.wakeEvent c).regs = s.regs := by
  obtain ⟨x, e⟩ := s.wakeEvent_shape c; rw [e]
@[simp] theorem State.wakeEvent_bufs (c : Nat) : (s.wakeEvent c).bufs = s.bufs := by
  obtain ⟨x, e⟩ := s.wakeEvent_shape c; rw [e]
@[simp] theorem State.wakeEvent_dirty (c : Nat) : (s.wakeEvent c).dirty = s.dirty := by
  obtain ⟨x, e⟩ := s.wakeEvent_shape c; rw [e]
@[simp] theorem State.wakeEvent_loHeld (c : Nat) : (s.wakeEvent c).loHeld = s.loHeld := by
  obtain ⟨x, e⟩ := s.wakeEvent_shape c; rw [e]
@[simp] theorem State.wakeEvent_seqDone (c : Nat) : (s.wakeEvent c).seqDone = s.seqDone := by
  obtain ⟨x, e⟩ := s.wakeEvent_shape c; rw [e]
@[simp] theorem State.wakeEvent_cntNow (c : Nat) : (s.wakeEvent c).cntNow = s.cntNow := by
  obtain ⟨x, e⟩ := s.wakeEvent_shape c; rw [e]
@[simp] theorem State.wakeEvent_inClk (c : Nat) : (s.wakeEvent c).inClk = s.inClk := by
  obtain ⟨x, e⟩ := s.wakeEvent_shape c; rw [e]
@[simp] theorem State.wakeEvent_clk (c : Nat) : (s.wakeEvent c).clk = s.clk := by
  obtain ⟨x, e⟩ := s.wakeEvent_shape c; rw [e]
@[simp] theorem State.wakeEvent_gtc (c : Nat) : (s.wakeEvent c).gtc = s.gtc := by
  obtain ⟨x, e⟩ := s.wakeEvent_shape c; rw [e]
@[simp] theorem State.wakeEvent_gtcRuns (c : Nat) : (s.wakeEvent c).gtcRuns = s.gtcRuns := by
  obtain ⟨x, e⟩ := s.wakeEvent_shape c; rw [e]
@[simp] theorem State.wakeEvent_ticking (c : Nat) : (s.wakeEvent c).ticking = s.ticking := by
  obtain ⟨x, e⟩ := s.wakeEvent_shape c; rw [e]
@[simp] theorem State.wakeEvent_tickClk (c : Nat) : (s.wakeEvent c).tickClk = s.tickClk := by
  obtain ⟨x, e⟩ := s.wakeEvent_shape c; rw [e]
@[simp] theorem State.wakeEvent_tickGtc (c : Nat) : (s.wakeEvent c).tickGtc = s.tickGtc := by
  obtain ⟨x, e⟩ := s.wakeEvent_shape c; rw [e]
@[simp] theorem State.wakeEvent_half (c : Nat) : (s.wakeEvent c).half = s.half := by
  obtain ⟨x, e⟩ := s.wakeEvent_shape c; rw [e]
@[simp] theorem State.wakeEvent_latches (c : Nat) : (s.wakeEvent c).latches = s.latches := by
  obtain ⟨x, e⟩ := s.wakeEvent_shape c; rw [e]
@[simp] theorem State.wakeEvent_horizon (c : Nat) : (s.wakeEvent c).horizon = s.horizon := by
  obtain ⟨x, e⟩ := s.wakeEvent_shape c; rw [e]
@[simp] theorem State.wakeEvent_cutoff (c : Nat) : (s.wakeEvent c).cutoff = s.cutoff := by
  obtain ⟨x, e⟩ := s.wakeEvent_shape c; rw [e]
@[simp] theorem State.wakeEvent_reqs (c : Nat) : (s.wakeEvent c).reqs = s.reqs := by
  obtain ⟨x, e⟩ := s.wakeEvent_shape c; rw [e]
@[simp] theorem State.wakeEvent_portA (c : Nat) : (s.wakeEvent c).portA = s.portA := by
  obtain ⟨x, e⟩ := s.wakeEvent_shape c; rw [e]
@[simp] theorem State.wakeEvent_portB (c : Nat) : (s.wakeEvent c).portB = s.portB := by
  obtain ⟨x, e⟩ := s.wakeEvent_shape c; rw [e]
@[simp] theorem State.wakeEvent_ctxs (c : Nat) : (s.wakeEvent c).ctxs = s.ctxs := by
  obtain ⟨x, e⟩ := s.wakeEvent_shape c; rw [e]
@[simp] theorem State.wakeEvent_streams (c : Nat) : (s.wakeEvent c).streams = s.streams := by
  obtain ⟨x, e⟩ := s.wakeEvent_shape c; rw [e]
@[simp] theorem State.wakeEvent_sent (c : Nat) : (s.wakeEvent c).sent = s.sent := by
  obtain ⟨x, e⟩ := s.wakeEvent_shape c; rw [e]
@[simp] theorem State.wakeEvent_ops (c : Nat) : (s.wakeEvent c).ops = s.ops := by
  obtain ⟨x, e⟩ := s.wakeEvent_shape c; rw [e]
@[simp] theorem State.wakeEvent_plans (c : Nat) : (s.wakeEvent c).plans = s.plans := by
  obtain ⟨x, e⟩ := s.wakeEvent_shape c; rw [e]
@[simp] theorem State.wakeEvent_banks (c : Nat) : (s.wakeEvent c).banks = s.banks := by
  obtain ⟨x, e⟩ := s.wakeEvent_shape c; rw [e]
@[simp] theorem State.wakeEvent_fcs (c : Nat) : (s.wakeEvent c).fcs = s.fcs := by
  obtain ⟨x, e⟩ := s.wakeEvent_shape c; rw [e]
@[simp] theorem State.wakeEvent_hbs (c : Nat) : (s.wakeEvent c).hbs = s.hbs := by
  obtain ⟨x, e⟩ := s.wakeEvent_shape c; rw [e]
@[simp] theorem State.wakeEvent_coils (c : Nat) : (s.wakeEvent c).coils = s.coils := by
  obtain ⟨x, e⟩ := s.wakeEvent_shape c; rw [e]
@[simp] theorem State.wakeEvent_clps (c : Nat) : (s.wakeEvent c).clps = s.clps := by
  obtain ⟨x, e⟩ := s.wakeEvent_shape c; rw [e]
@[simp] theorem State.wakeEvent_less (c : Nat) : (s.wakeEvent c).less = s.less := by
  obtain ⟨x, e⟩ := s.wakeEvent_shape c; rw [e]
@[simp] theorem State.wakeEvent_fbks (c : Nat) : (s.wakeEvent c).fbks = s.fbks := by
  obtain ⟨x, e⟩ := s.wakeEvent_shape c; rw [e]
@[simp] theorem State.wakeEvent_gdrs (c : Nat) : (s.wakeEvent c).gdrs = s.gdrs := by
  obtain ⟨x, e⟩ := s.wakeEvent_shape c; rw [e]
@[simp] theorem State.wakeEvent_adcs (c : Nat) : (s.wakeEvent c).adcs = s.adcs := by
  obtain ⟨x, e⟩ := s.wakeEvent_shape c; rw [e]
@[simp] theorem State.wakeEvent_ledger (c : Nat) : (s.wakeEvent c).ledger = s.ledger := by
  obtain ⟨x, e⟩ := s.wakeEvent_shape c; rw [e]
@[simp] theorem State.wakeEvent_tbs (c : Nat) : (s.wakeEvent c).tbs = s.tbs := by
  obtain ⟨x, e⟩ := s.wakeEvent_shape c; rw [e]
@[simp] theorem State.wakeEvent_ckg (c : Nat) : (s.wakeEvent c).ckg = s.ckg := by
  obtain ⟨x, e⟩ := s.wakeEvent_shape c; rw [e]
@[simp] theorem State.wakeEvent_lcs (c : Nat) : (s.wakeEvent c).lcs = s.lcs := by
  obtain ⟨x, e⟩ := s.wakeEvent_shape c; rw [e]
@[simp] theorem State.wakeEvent_cnd (c : Nat) : (s.wakeEvent c).cnd = s.cnd := by
  obtain ⟨x, e⟩ := s.wakeEvent_shape c; rw [e]
@[simp] theorem State.wakeEvent_freeCtr (c : Nat) : (s.wakeEvent c).freeCtr = s.freeCtr := by
  obtain ⟨x, e⟩ := s.wakeEvent_shape c; rw [e]
@[simp] theorem State.wakeEvent_reg (c : Nat) (j : Nat) : (s.wakeEvent c).reg j = s.reg j := by
  unfold State.reg; rw [State.wakeEvent_regs]
@[simp] theorem State.wakeEvent_rd (c : Nat) (g : Fld) : (s.wakeEvent c).rd g = s.rd g := by
  unfold State.rd; rw [State.wakeEvent_reg]
@[simp] theorem State.wakeEvent_flag (c : Nat) (g : Fld) : (s.wakeEvent c).flag g = s.flag g := by
  unfold State.flag; rw [State.wakeEvent_rd]
@[simp] theorem State.wakeEvent_rdS (c : Nat) (g : Fld) : (s.wakeEvent c).rdS g = s.rdS g := by
  unfold State.rdS; rw [State.wakeEvent_rd]

@[simp] theorem State.addCounter_pending (o n : Nat) : (s.addCounter o n).pending = s.pending := State.setCounter_pending _ _ _
@[simp] theorem State.addCounter_regs (o n : Nat) : (s.addCounter o n).regs = s.regs := State.setCounter_regs _ _ _
@[simp] theorem State.addCounter_bufs (o n : Nat) : (s.addCounter o n).bufs = s.bufs := State.setCounter_bufs _ _ _
@[simp] theorem State.addCounter_dirty (o n : Nat) : (s.addCounter o n).dirty = s.dirty := State.setCounter_dirty _ _ _
@[simp] theorem State.addCounter_loHeld (o n : Nat) : (s.addCounter o n).loHeld = s.loHeld := State.setCounter_loHeld _ _ _
@[simp] theorem State.addCounter_seqDone (o n : Nat) : (s.addCounter o n).seqDone = s.seqDone := State.setCounter_seqDone _ _ _
@[simp] theorem State.addCounter_cntNow (o n : Nat) : (s.addCounter o n).cntNow = s.cntNow := State.setCounter_cntNow _ _ _
@[simp] theorem State.addCounter_inClk (o n : Nat) : (s.addCounter o n).inClk = s.inClk := State.setCounter_inClk _ _ _
@[simp] theorem State.addCounter_clk (o n : Nat) : (s.addCounter o n).clk = s.clk := State.setCounter_clk _ _ _
@[simp] theorem State.addCounter_gtc (o n : Nat) : (s.addCounter o n).gtc = s.gtc := State.setCounter_gtc _ _ _
@[simp] theorem State.addCounter_gtcRuns (o n : Nat) : (s.addCounter o n).gtcRuns = s.gtcRuns := State.setCounter_gtcRuns _ _ _
@[simp] theorem State.addCounter_ticking (o n : Nat) : (s.addCounter o n).ticking = s.ticking := State.setCounter_ticking _ _ _
@[simp] theorem State.addCounter_tickClk (o n : Nat) : (s.addCounter o n).tickClk = s.tickClk := State.setCounter_tickClk _ _ _
@[simp] theorem State.addCounter_tickGtc (o n : Nat) : (s.addCounter o n).tickGtc = s.tickGtc := State.setCounter_tickGtc _ _ _
@[simp] theorem State.addCounter_half (o n : Nat) : (s.addCounter o n).half = s.half := State.setCounter_half _ _ _
@[simp] theorem State.addCounter_latches (o n : Nat) : (s.addCounter o n).latches = s.latches := State.setCounter_latches _ _ _
@[simp] theorem State.addCounter_horizon (o n : Nat) : (s.addCounter o n).horizon = s.horizon := State.setCounter_horizon _ _ _
@[simp] theorem State.addCounter_cutoff (o n : Nat) : (s.addCounter o n).cutoff = s.cutoff := State.setCounter_cutoff _ _ _
@[simp] theorem State.addCounter_reqs (o n : Nat) : (s.addCounter o n).reqs = s.reqs := State.setCounter_reqs _ _ _
@[simp] theorem State.addCounter_portA (o n : Nat) : (s.addCounter o n).portA = s.portA := State.setCounter_portA _ _ _
@[simp] theorem State.addCounter_portB (o n : Nat) : (s.addCounter o n).portB = s.portB := State.setCounter_portB _ _ _
@[simp] theorem State.addCounter_ctxs (o n : Nat) : (s.addCounter o n).ctxs = s.ctxs := State.setCounter_ctxs _ _ _
@[simp] theorem State.addCounter_streams (o n : Nat) : (s.addCounter o n).streams = s.streams := State.setCounter_streams _ _ _
@[simp] theorem State.addCounter_sent (o n : Nat) : (s.addCounter o n).sent = s.sent := State.setCounter_sent _ _ _
@[simp] theorem State.addCounter_ops (o n : Nat) : (s.addCounter o n).ops = s.ops := State.setCounter_ops _ _ _
@[simp] theorem State.addCounter_plans (o n : Nat) : (s.addCounter o n).plans = s.plans := State.setCounter_plans _ _ _
@[simp] theorem State.addCounter_banks (o n : Nat) : (s.addCounter o n).banks = s.banks := State.setCounter_banks _ _ _
@[simp] theorem State.addCounter_fcs (o n : Nat) : (s.addCounter o n).fcs = s.fcs := State.setCounter_fcs _ _ _
@[simp] theorem State.addCounter_hbs (o n : Nat) : (s.addCounter o n).hbs = s.hbs := State.setCounter_hbs _ _ _
@[simp] theorem State.addCounter_coils (o n : Nat) : (s.addCounter o n).coils = s.coils := State.setCounter_coils _ _ _
@[simp] theorem State.addCounter_clps (o n : Nat) : (s.addCounter o n).clps = s.clps := State.setCounter_clps _ _ _
@[simp] theorem State.addCounter_less (o n : Nat) : (s.addCounter o n).less = s.less := State.setCounter_less _ _ _
@[simp] theorem State.addCounter_fbks (o n : Nat) : (s.addCounter o n).fbks = s.fbks := State.setCounter_fbks _ _ _
@[simp] theorem State.addCounter_gdrs (o n : Nat) : (s.addCounter o n).gdrs = s.gdrs := State.setCounter_gdrs _ _ _
@[simp] theorem State.addCounter_adcs (o n : Nat) : (s.addCounter o n).adcs = s.adcs := State.setCounter_adcs _ _ _
@[simp] theorem State.addCounter_ledger (o n : Nat) : (s.addCounter o n).ledger = s.ledger := State.setCounter_ledger _ _ _
@[simp] theorem State.addCounter_tbs (o n : Nat) : (s.addCounter o n).tbs = s.tbs := State.setCounter_tbs _ _ _
@[simp] theorem State.addCounter_ckg (o n : Nat) : (s.addCounter o n).ckg = s.ckg := State.setCounter_ckg _ _ _
@[simp] theorem State.addCounter_pmu (o n : Nat) : (s.addCounter o n).pmu = s.pmu := State.setCounter_pmu _ _ _
@[simp] theorem State.addCounter_lcs (o n : Nat) : (s.addCounter o n).lcs = s.lcs := State.setCounter_lcs _ _ _
@[simp] theorem State.addCounter_freeCtr (o n : Nat) : (s.addCounter o n).freeCtr = s.freeCtr := State.setCounter_freeCtr _ _ _
@[simp] theorem State.addCounter_reg (o n : Nat) (j : Nat) : (s.addCounter o n).reg j = s.reg j := by
  unfold State.reg; rw [State.addCounter_regs]
@[simp] theorem State.addCounter_rd (o n : Nat) (g : Fld) : (s.addCounter o n).rd g = s.rd g := by
  unfold State.rd; rw [State.addCounter_reg]
@[simp] theorem State.addCounter_flag (o n : Nat) (g : Fld) : (s.addCounter o n).flag g = s.flag g := by
  unfold State.flag; rw [State.addCounter_rd]
@[simp] theorem State.addCounter_rdS (o n : Nat) (g : Fld) : (s.addCounter o n).rdS g = s.rdS g := by
  unfold State.rdS; rw [State.addCounter_rd]

theorem State.advTo_of_le {c : Nat} (h : c ≤ s.clk) : s.advTo c = s := if_pos h

/-- Time moves to clock c, or stands where c has passed. -/
@[simp] theorem State.clk_advTo (c : Nat) : (s.advTo c).clk = max s.clk c := by
  unfold State.advTo
  split
  · omega
  · simp only; omega

/-- Registers other than the one whose field sets keep their words. -/
theorem State.reg_sqcMask_ne {o j : Nat} (m : Nat) (h : j ≠ o) : (s.sqcMask o m).reg j = s.reg j := by
  obtain ⟨w, b, e⟩ := s.sqcMask_shape o m
  rw [e]
  exact State.reg_setReg_ne s _ h

theorem State.reg_sqc_ne {f : Fld} {j : Nat} (h : j ≠ f.off) : (s.sqc f).reg j = s.reg j := State.reg_sqcMask_ne s _ h

theorem State.reg_cnt_ne {f : Fld} {j : Nat} (n : Nat) (h : j ≠ f.off) : (s.cnt f n).reg j = s.reg j :=
  State.reg_wr_ne s _ h

theorem State.reg_cntWrap_ne {f : Fld} {j : Nat} (h : j ≠ f.off) : (s.cntWrap f).reg j = s.reg j := State.reg_wr_ne s _ h

/-- A saturating counter takes its increments (R73). -/
theorem State.rd_cnt_self {f : Fld} (h : f.ok) (n : Nat) :
    (s.cnt f n).rd f = min (s.rd f + n) (2 ^ (f.hi + 1 - f.lo) - 1) := by
  have : (s.cnt f n).rd f = (s.wr f (min (s.rd f + n) (2 ^ (f.hi + 1 - f.lo) - 1))).rd f := rfl
  rw [this, State.rd_wr_self _ h]
  refine Nat.mod_eq_of_lt ?_
  have := Nat.two_pow_pos (f.hi + 1 - f.lo)
  omega

/-- A field of one bit is set by the value 1 and cleared by the value 0. -/
theorem State.flag_wr_self {f : Fld} (h : f.ok) (v : Nat) : (s.wr f v).flag f = Decidable.decide (v % 2 = 1) := by
  unfold State.flag
  rw [State.rd_wr_self _ h]
  have : 0 < f.hi + 1 - f.lo := by
    simp only [Fld.ok, Bool.and_eq_true, decide_eq_true_eq] at h; omega
  obtain ⟨k, hk⟩ : ∃ k, f.hi + 1 - f.lo = k + 1 := ⟨f.hi - f.lo, by
    simp only [Fld.ok, Bool.and_eq_true, decide_eq_true_eq] at h; omega⟩
  rw [hk, Nat.pow_succ, Nat.mul_comm, Nat.mod_mul_right_mod]

/-- Hardware sets a status field: it reads as set (R72). -/
theorem State.flag_sqc {f : Fld} (h : f.ok) (hb : f.hi < 24) : (s.sqc f).flag f := by
  simp only [Fld.ok, Bool.and_eq_true, decide_eq_true_eq] at h
  have key : ∀ w : Word, (w ||| BitVec.ofNat 32 (2 ^ f.lo)).toNat / 2 ^ f.lo % 2 = 1 := by
    intro w
    have : (w ||| BitVec.ofNat 32 (2 ^ f.lo)).toNat.testBit f.lo := by
      have h2 : 2 ^ f.lo < 2 ^ 32 := Nat.pow_lt_pow_right (by omega) (by omega)
      rw [BitVec.toNat_or, Nat.testBit_or, BitVec.toNat_ofNat, Nat.mod_eq_of_lt h2, Nat.testBit_two_pow_self]
      simp
    rw [Nat.testBit_eq_decide_div_mod_eq, decide_eq_true_eq] at this
    exact this
  have low : ∀ w : Word, w.toNat / 2 ^ f.lo % 2 = 1 → f.get w % 2 = 1 := by
    intro w hw
    unfold Fld.get bits
    obtain ⟨k, hk⟩ : ∃ k, f.hi + 1 - f.lo = k + 1 := ⟨f.hi - f.lo, by omega⟩
    rw [hk, Nat.pow_succ, Nat.mul_comm, Nat.mod_mul_right_mod, hw]
  have seen : ∀ w b, State.reg { s.setReg f.off w with seqDone := b } f.off = w := fun w _ => State.reg_setReg_self s _ w
  unfold State.flag State.rd State.sqc State.sqcMask
  dsimp only
  split
  · simp only [decide_eq_true_eq]
    rw [seen]
    exact low _ (key _)
  · simp only [decide_eq_true_eq]
    rw [seen, Fld.get_put_apart (f := ⟨f.off, 31, 24⟩) rfl]
    · exact low _ (key _)
    · simp only [Fld.ok, Bool.and_eq_true, decide_eq_true_eq]; omega
    · simp only [Fld.apart, Bool.or_eq_true, decide_eq_true_eq]; omega

end Sys2Proof.Machine
end

