-- ==== Sys2Proof/Laws/HostWrites.lean ====
section
/-! SUPPORT. A whole-word write of the host to a register it may write is a plain write of that register's row, a clock
later. -/

namespace Sys2Proof.Machine

theorem canWrite_live {s : State} {p : Port} {o : Nat} (h : canWrite s p o) : barLive s p := by
  simp only [canWrite, Bool.and_eq_true] at h
  exact h.1

/-- A core clock later, with the access of port p noted in it (R66). -/
def accessed (s : State) (p : Port) (off : Nat) : State := (s.advTo (s.clk + 1)).noteAcc p off

@[simp] theorem accessed_reg (s : State) (p : Port) (off o : Nat) : (accessed s p off).reg o = s.reg o := by
  cases p <;> exact State.advTo_reg s _ o
@[simp] theorem accessed_rd (s : State) (p : Port) (off : Nat) (f : Fld) : (accessed s p off).rd f = s.rd f :=
  congrArg f.get (accessed_reg s p off f.off)
@[simp] theorem accessed_pmu (s : State) (p : Port) (off : Nat) : (accessed s p off).pmu = s.pmu := by
  cases p <;> exact State.advTo_pmu s _

theorem hostPut_row {s : State} {p : Port} {off : Nat} {r : Row} {i : Nat} (w : Nat) (h : canWrite s p off)
    (hr : rowOf off = some (r, i)) (hlt : off < 0x40000) (h4 : off % 4 = 0) (h1 : off ≠ Reg.HIF_IND_ADDR)
    (h2 : off ≠ Reg.HIF_IND_DATA) : hostPut p off w s = plainWrite (accessed s p off) p r i off 15 (wordOf w) := by
  have hl := canWrite_live h
  have e : off / 4 * 4 = off := by omega
  simp only [canWrite, hr, Bool.and_eq_true, Bool.or_eq_true, Bool.not_eq_true', decide_eq_true_eq] at h
  have hon : regOn (accessed s p off) r i p = regOn s r i p := by
    simp only [regOn, State.powered, accessed_pmu, accessed_rd]
  unfold hostPut hostWrite
  simp only [hl, Bool.not_true, Bool.false_eq_true, if_false, e, hlt, if_true, h1, h2, Bool.false_and]
  change spaceWrite (accessed s p off) p off 15 (wordOf w) = _
  unfold spaceWrite
  simp only [hr, accessed_rd, hon, h.2.2, if_true]
  rw [if_neg]
  rcases h.2.1 with h | h <;> simp [h]

end Sys2Proof.Machine
end

