-- ==== Sys2Proof/Laws/Keeps.lean ====
section
/-! SUPPORT. Keeps through the named operations: the queue, time, what was sent, the free values and the canonical form of
every file. The lemmas carry a state s0 behind, so that the ones of a chain of updates compose. -/

namespace Sys2Proof.Machine

variable {s0 s t : State}

theorem Keeps.refl (s : State) : Keeps s s := ⟨rfl, Nat.le_refl _, List.prefix_rfl, Nat.le_refl _, id⟩

theorem Keeps.trans {a b c : State} (h : Keeps a b) (k : Keeps b c) : Keeps a c :=
  ⟨k.queue.trans h.queue, Nat.le_trans h.time k.time, h.out.trans k.out, Nat.le_trans h.free k.free, fun w => k.wf (h.wf w)⟩

/-- An update of other parts of the state. -/
theorem Keeps.upd (h : Keeps s0 s) (h1 : t.pending = s.pending) (h2 : t.clk = s.clk) (h3 : t.sent = s.sent)
    (h4 : t.freeCtr = s.freeCtr) (h5 : t.regs = s.regs) (h6 : t.bufs = s.bufs) (h7 : t.dirty = s.dirty)
    (h8 : t.ledger.store = s.ledger.store) : Keeps s0 t := by
  refine h.trans ⟨h1, Nat.le_of_eq h2.symm, ?_, Nat.le_of_eq h4.symm, fun w => ?_⟩
  · rw [h3]
  · rw [Memory.wf, h5, h6, h7, h8]; exact w

/-- An update of other parts of the state, as a record. -/
theorem Keeps.record
    {x1 : List (Nat × Word)} {x2 : List (Nat × Word)} {x3 : List (Nat × Nat × Nat)} {x4 : InClk} {x5 : Nat} {x6
    : Bool} {x7 : Bool} {x8 : Nat} {x9 : Nat} {x10 : Bool} {x11 : Nat} {x12 : Nat} {x13 : Bool} {x14 : List (Req
    × Nat)} {x15 : PortS} {x16 : PortS} {x17 : Vector CtxS 64} {x18 : Vector StreamS 8} {x19 : List Op} {x20 :
    Vector AxisPlan 32} {x21 : Vector BankS 4} {x22 : FcsS} {x23 : Vector HbS 128} {x24 : Vector CoilS 64} {x25
    : Vector ClpS 32} {x26 : Vector LesS 32} {x27 : Vector FbkS 32} {x28 : Vector GdrS 4} {x29 : Vector AdcS 4}
    {led : LedgerS} {x30 : TbsS} {x31 : CkgS} {x32 : PmuS} {x33 : LcsS} {x34 : CndS}
    (h : Keeps s0 s) (hl : led.store = s.ledger.store) :
    Keeps s0 (State.mk
      s.pending s.regs s.bufs s.dirty x1 x2 x3 x4 s.clk x5 x6 x7 x8 x9 x10 x11 x12 x13 x14 x15 x16 x17 x18
      s.sent x19 x20 x21 x22 x23 x24 x25 x26 x27 x28 x29 led x30 x31 x32 x33 x34 s.freeCtr) :=
  h.upd rfl rfl rfl rfl rfl rfl rfl hl

theorem Keeps.ite {c : Prop} [Decidable c] {a b : State} (h : Keeps s0 a) (k : Keeps s0 b) : Keeps s0 (if c then a else b) := by
  split <;> assumption

theorem Keeps.each {α : Type} {l : List α} {f : State → α → State} (hf : ∀ s a, Keeps s0 s → Keeps s0 (f s a))
    (h : Keeps s0 s) : Keeps s0 (Machine.each l f s) := by
  unfold Machine.each
  induction l generalizing s with
  | nil => exact h
  | cons a l ih => exact ih (hf s a h)

theorem Keeps.foldl {α : Type} {l : List α} {f : State → α → State} (hf : ∀ s a, Keeps s0 s → Keeps s0 (f s a))
    (h : Keeps s0 s) : Keeps s0 (l.foldl f s) := Keeps.each hf h

/-! ### Operations that write the files, move time, send or draw -/

theorem State.setReg_keeps (h : Keeps s0 s) (o : Nat) (w : Word) : Keeps s0 (s.setReg o w) :=
  h.trans ⟨rfl, Nat.le_refl _, List.prefix_rfl, Nat.le_refl _, fun x => ⟨x.1.put, x.2⟩⟩

theorem State.setBuf_keeps (h : Keeps s0 s) (o : Nat) (w : Word) : Keeps s0 (s.setBuf o w) :=
  h.trans ⟨rfl, Nat.le_refl _, List.prefix_rfl, Nat.le_refl _, fun x => ⟨x.1, x.2.1.put, x.2.2⟩⟩

theorem State.setDirty_keeps (h : Keeps s0 s) (o : Nat) (w : Word) : Keeps s0 (s.setDirty o w) :=
  h.trans ⟨rfl, Nat.le_refl _, List.prefix_rfl, Nat.le_refl _, fun x => ⟨x.1, x.2.1, x.2.2.1.put, x.2.2.2⟩⟩

theorem State.wr_keeps (h : Keeps s0 s) (f : Fld) (v : Nat) : Keeps s0 (s.wr f v) := State.setReg_keeps h _ _
theorem State.wrB_keeps (h : Keeps s0 s) (f : Fld) (v : Bool) : Keeps s0 (s.wrB f v) := State.wr_keeps h _ _
theorem State.wrS_keeps (h : Keeps s0 s) (f : Fld) (v : Int) : Keeps s0 (s.wrS f v) := State.wr_keeps h _ _
theorem State.wr64_keeps (h : Keeps s0 s) (o v : Nat) : Keeps s0 (s.wr64 o v) :=
  State.setReg_keeps (State.setReg_keeps h _ _) _ _
theorem State.wrS64_keeps (h : Keeps s0 s) (o : Nat) (v : Int) : Keeps s0 (s.wrS64 o v) := State.wr64_keeps h _ _

/-- Time moves to clock c, or stands where c has passed. -/
theorem State.advTo_clk (s : State) (c : Nat) : (s.advTo c).clk = max s.clk c := by
  unfold State.advTo
  split
  · omega
  · simp only; omega

theorem State.advTo_keeps (h : Keeps s0 s) (c : Nat) : Keeps s0 (s.advTo c) := by
  refine h.trans ?_
  unfold State.advTo
  split
  · exact Keeps.refl s
  · exact ⟨rfl, by simp only; omega, List.prefix_rfl, Nat.le_refl _, id⟩

theorem State.advToGtc_keeps (h : Keeps s0 s) (n : Nat) : Keeps s0 (s.advToGtc n) := by
  unfold State.advToGtc
  split
  · exact h
  · exact State.advTo_keeps h _

theorem State.emit_keeps (h : Keeps s0 s) (o : Out) : Keeps s0 (s.emit o) :=
  h.trans ⟨rfl, Nat.le_refl _, List.prefix_append _ _, Nat.le_refl _, id⟩

theorem State.draw_keeps (h : Keeps s0 s) : Keeps s0 s.draw :=
  h.trans ⟨rfl, Nat.le_refl _, List.prefix_rfl, Nat.le_succ _, id⟩

/-- A word of the ledger's region is written. -/
theorem State.ledgerPut_keeps (h : Keeps s0 s) (a : Nat) (ws : List Word) : Keeps s0 (s.ledgerPut a ws) := by
  refine h.trans ⟨rfl, Nat.le_refl _, List.prefix_rfl, Nat.le_refl _, fun x => ⟨x.1, x.2.1, x.2.2.1, ?_⟩⟩
  unfold State.ledgerPut
  simp only
  have : ∀ (l : List Word) (p : List (Nat × Word) × Nat), FileCanon (fun _ => 0#32) p.1 →
      FileCanon (fun _ => 0#32) (l.foldl (fun x w => (filePut (fun _ => 0#32) x.1 x.2 w, x.2 + 4)) p).1 := by
    intro l
    induction l with
    | nil => exact fun p hp => hp
    | cons w l ih => exact fun p hp => ih _ hp.put
  exact this _ _ x.2.2.2

/-- Registers that go back to their reset words. -/
theorem State.resetRegs_keeps (h : Keeps s0 s) (f : Nat → Bool) : Keeps s0 (s.resetRegs f) :=
  h.trans ⟨rfl, Nat.le_refl _, List.prefix_rfl, Nat.le_refl _, fun x => ⟨x.1.filter _, x.2⟩⟩

/-- Marks of unapplied writes that go. -/
theorem Keeps.clean (h : Keeps s0 t) (hd : Keeps s0 s) (f : Nat × Word → Bool) :
    Keeps s0 { t with dirty := s.dirty.filter f } :=
  ⟨h.queue, h.time, h.out, h.free, fun w => ⟨(h.wf w).1, (h.wf w).2.1, (hd.wf w).2.2.1.filter _, (h.wf w).2.2.2⟩⟩

/-- Entries that keep their place and are dropped where they read as their reset word. -/
theorem FileCanon.trim {f : List (Nat × Word)} (h : FileCanon resetWord f) (g : Nat × Word → Word) :
    FileCanon resetWord (f.filterMap fun x => if g x = resetWord x.1 then none else some (x.1, g x)) := by
  refine h.filterMap _ fun x y e => ?_
  split at e
  · cases e
  · cases e
    exact ⟨rfl, fun _ => by assumption⟩

theorem State.dropRegs_keeps (h : Keeps s0 s) (d : Nat) : Keeps s0 (s.dropRegs d) := by
  refine h.trans ⟨rfl, Nat.le_refl _, List.prefix_rfl, Nat.le_refl _, fun x => ⟨x.1.filterMap _ fun x y e => ?_, x.2⟩⟩
  dsimp only at e
  split at e
  · cases e; exact ⟨rfl, id⟩
  · split at e
    · cases e
    · cases e; exact ⟨rfl, fun _ => by assumption⟩

/-- What a reset wipes leaves the queue, time, what was sent, and files in canonical form. -/
theorem State.wiped_keeps (h : Keeps s0 s) (a b : Bool) : Keeps s0 (s.wiped a b) := by
  refine h.trans ?_
  unfold State.wiped
  extract_lets regs bufs _ _ lcs _ _ _ _ _ r r1 r2
  have h0 : Keeps s r :=
    ⟨rfl, Nat.le_refl _, List.prefix_rfl, Nat.le_refl _, fun x =>
      ⟨x.1.filter _, FileCanon.trim (x.1.filter _) _, FileCanon.nil, x.2.2.2⟩⟩
  have h1 : Keeps s r1 := State.wr_keeps (State.wr_keeps h0 _ _) _ _
  have h2 : Keeps s r2 := State.wr_keeps h1 _ _
  split
  · exact State.wr_keeps h2 _ _
  · exact h2

end Sys2Proof.Machine
end

