-- ==== Sys2Proof/Laws/KeepsOps.lean ====
section
/-! SUPPORT. Keeps through the named operations over the registers, the ports, the contexts and the ledger: one lemma for each. -/

namespace Sys2Proof.Machine

theorem State.post_keeps {z0 : State} (s : State) (r : Req) (hz : Keeps z0 s) : Keeps z0 (State.post s r) :=
  Keeps.record hz rfl

theorem State.drop_keeps {z0 : State} (s : State) (r : Req) (hz : Keeps z0 s) : Keeps z0 (State.drop s r) := by
  unfold State.drop
  repeat' with_reducible first
    | assumption | intro x | refine Keeps.record ?_ rfl

theorem State.goDone_keeps {z0 : State} (s : State) (r : Req) (f : Fld) (hz : Keeps z0 s) : Keeps z0 (State.goDone s r
    f) := by
  unfold State.goDone
  repeat' with_reducible first
    | assumption | apply State.wr_keeps | apply Keeps.ite

theorem State.goEnd_keeps {z0 : State} (s : State) (f : Fld) (again : State → State)
    (ha : ∀ s, Keeps z0 s → Keeps z0 (again s)) (hz : Keeps z0 s) : Keeps z0 (State.goEnd s f again) :=
  Keeps.ite (ha _ hz) (State.wr_keeps hz _ _)

theorem State.detect_keeps {z0 : State} (s : State) (src : Nat) (active : Bool) (object : Option Nat) (loc : Bool) (hz
    : Keeps z0 s) : Keeps z0 (State.detect s src active object loc) :=
  Keeps.record hz rfl

theorem State.setPort_keeps {z0 : State} (s : State) (p : Port) (x : PortS) (hz : Keeps z0 s) : Keeps z0
    (State.setPort s p x) := by
  unfold State.setPort
  repeat' with_reducible first
    | assumption | split | refine Keeps.record ?_ rfl

theorem State.setCtx_keeps {z0 : State} (s : State) (k : Ctx) (x : CtxS) (hz : Keeps z0 s) : Keeps z0 (State.setCtx s
    k x) :=
  Keeps.record hz rfl

theorem State.setPlan_keeps {z0 : State} (s : State) (n : Axis) (x : AxisPlan) (hz : Keeps z0 s) : Keeps z0
    (State.setPlan s n x) :=
  Keeps.record hz rfl

theorem State.setStream_keeps {z0 : State} (s : State) (i : Fin 8) (x : StreamS) (hz : Keeps z0 s) : Keeps z0
    (State.setStream s i x) :=
  Keeps.record hz rfl

theorem State.setBank_keeps {z0 : State} (s : State) (b : Bank) (x : BankS) (hz : Keeps z0 s) : Keeps z0
    (State.setBank s b x) :=
  Keeps.record hz rfl

theorem State.setHb_keeps {z0 : State} (s : State) (h : HalfBridge) (x : HbS) (hz : Keeps z0 s) : Keeps z0
    (State.setHb s h x) :=
  Keeps.record hz rfl

theorem State.setCoil_keeps {z0 : State} (s : State) (p : Coil) (x : CoilS) (hz : Keeps z0 s) : Keeps z0
    (State.setCoil s p x) :=
  Keeps.record hz rfl

theorem State.setClp_keeps {z0 : State} (s : State) (n : Axis) (x : ClpS) (hz : Keeps z0 s) : Keeps z0 (State.setClp s
    n x) :=
  Keeps.record hz rfl

theorem State.setLes_keeps {z0 : State} (s : State) (n : Axis) (x : LesS) (hz : Keeps z0 s) : Keeps z0 (State.setLes s
    n x) :=
  Keeps.record hz rfl

theorem State.setFbk_keeps {z0 : State} (s : State) (n : Axis) (x : FbkS) (hz : Keeps z0 s) : Keeps z0 (State.setFbk s
    n x) :=
  Keeps.record hz rfl

theorem State.setGdr_keeps {z0 : State} (s : State) (b : Bank) (x : GdrS) (hz : Keeps z0 s) : Keeps z0 (State.setGdr s
    b x) :=
  Keeps.record hz rfl

theorem State.setAdc_keeps {z0 : State} (s : State) (b : Bank) (x : AdcS) (hz : Keeps z0 s) : Keeps z0 (State.setAdc s
    b x) :=
  Keeps.record hz rfl

theorem State.setSs1_keeps {z0 : State} (s : State) (n : Axis) (x : Option Ss1) (hz : Keeps z0 s) : Keeps z0
    (State.setSs1 s n x) :=
  Keeps.record hz rfl

theorem State.wakeEvent_keeps {z0 : State} (s : State) (code : Nat) (hz : Keeps z0 s) : Keeps z0 (State.wakeEvent s
    code) := by
  unfold State.wakeEvent
  repeat' with_reducible first
    | assumption | apply Keeps.ite | split | refine Keeps.record ?_ rfl

theorem State.setCounter_keeps {z0 : State} (s : State) (o v : Nat) (hz : Keeps z0 s) : Keeps z0 (State.setCounter s o
    v) :=
  Keeps.record hz rfl

theorem State.addCounter_keeps {z0 : State} (s : State) (o : Nat) (n : Nat) (hz : Keeps z0 s) : Keeps z0
    (State.addCounter s o n) := by
  unfold State.addCounter
  repeat' with_reducible first
    | assumption | apply State.setCounter_keeps

theorem State.addPart_keeps {z0 : State} (s : State) (o : Nat) (q : Rat) (hz : Keeps z0 s) : Keeps z0 (State.addPart s
    o q) := by
  unfold State.addPart
  repeat' with_reducible first
    | assumption | intro x | apply State.addCounter_keeps | apply Keeps.ite | split | refine Keeps.record ?_ rfl

theorem State.sqcMask_keeps {z0 : State} (s : State) (off : Nat) (m : Nat) (hz : Keeps z0 s) : Keeps z0 (State.sqcMask
    s off m) := by
  unfold State.sqcMask
  repeat' with_reducible first
    | assumption | intro x | apply State.setReg_keeps | split | refine Keeps.record ?_ rfl

theorem State.sqc_keeps {z0 : State} (s : State) (f : Fld) (hz : Keeps z0 s) : Keeps z0 (State.sqc s f) := by
  unfold State.sqc
  repeat' with_reducible first
    | assumption | apply State.sqcMask_keeps

theorem State.noteCnt_keeps {z0 : State} (s : State) (f : Fld) (n : Nat) (hz : Keeps z0 s) : Keeps z0 (State.noteCnt s
    f n) := by
  unfold State.noteCnt
  repeat' with_reducible first
    | assumption | intro x | refine Keeps.record ?_ rfl

theorem State.cnt_keeps {z0 : State} (s : State) (f : Fld) (n : Nat) (hz : Keeps z0 s) : Keeps z0 (State.cnt s f n) :=
    by
  unfold State.cnt
  repeat' with_reducible first
    | assumption | apply State.noteCnt_keeps | apply State.wr_keeps

theorem State.cntWrap_keeps {z0 : State} (s : State) (f : Fld) (n : Nat) (hz : Keeps z0 s) : Keeps z0 (State.cntWrap s
    f n) := by
  unfold State.cntWrap
  repeat' with_reducible first
    | assumption | apply State.noteCnt_keeps | apply State.wr_keeps

theorem State.cntWrite_keeps {z0 : State} (s : State) (f : Fld) (wraps : Bool) (m : Nat) (w : Word) (hz : Keeps z0 s)
    : Keeps z0 (State.cntWrite s f wraps m w) := by
  unfold State.cntWrite
  repeat' with_reducible first
    | assumption | intro x | apply State.wr_keeps | apply Keeps.ite | split | refine Keeps.record ?_ rfl

theorem State.readHost_keeps {z0 : State} (s : State) (p : Port) (cls : Dma) (addr len : Nat) (hz : Keeps z0 s) :
    Keeps z0 (State.readHost s p cls addr len) := by
  unfold State.readHost
  repeat' with_reducible first
    | assumption | intro x | apply each_keeps | apply State.emit_keeps | apply Keeps.each

theorem State.message_keeps {z0 : State} (s : State) (p : Port) (k : Ctx) (hz : Keeps z0 s) : Keeps z0 (State.message
    s p k) := by
  unfold State.message
  repeat' with_reducible first
    | assumption | apply State.setCtx_keeps | apply State.emit_keeps | apply Keeps.ite

theorem State.signal_keeps {z0 : State} (s : State) (k : Ctx) (hz : Keeps z0 s) : Keeps z0 (State.signal s k) := by
  unfold State.signal
  repeat' with_reducible first
    | assumption | apply State.wr_keeps | apply State.message_keeps | apply Keeps.ite

theorem State.issued_keeps {z0 : State} (s : State) (k : Ctx) (urgent : Bool) (hz : Keeps z0 s) : Keeps z0
    (State.issued s k urgent) := by
  unfold State.issued
  repeat' with_reducible first
    | assumption | apply State.setCtx_keeps | apply State.signal_keeps | apply Keeps.ite

theorem State.place_keeps {z0 : State} (s : State) (k : Ctx) (cls : Dma) (index addr : Nat) (ws : List Word) (urgent :
    Bool) (hz : Keeps z0 s) : Keeps z0 (State.place s k cls index addr ws urgent) := by
  unfold State.place
  repeat' with_reducible first
    | assumption | apply State.emit_keeps | apply State.issued_keeps | apply State.setPort_keeps | apply State.wr_keeps
    | apply Keeps.ite

theorem State.complete_keeps {z0 : State} (s : State) (k : Ctx) (ws : List Word) (hz : Keeps z0 s) : Keeps z0
    (State.complete s k ws) := by
  unfold State.complete
  repeat' with_reducible first
    | assumption | apply State.wr_keeps | apply State.place_keeps

theorem State.dropEvent_keeps {z0 : State} (s : State) (k : Ctx) (hz : Keeps z0 s) : Keeps z0 (State.dropEvent s k) :=
    by
  unfold State.dropEvent
  repeat' with_reducible first
    | assumption | apply State.cnt_keeps | apply State.setCtx_keeps

theorem State.putEvent_keeps {z0 : State} (s : State) (k : Ctx) (e : Event) (hz : Keeps z0 s) : Keeps z0
    (State.putEvent s k e) := by
  unfold State.putEvent
  repeat' with_reducible first
    | assumption | apply State.wr_keeps | apply State.place_keeps

theorem State.flushLost_keeps {z0 : State} (s : State) (k : Ctx) (hz : Keeps z0 s) : Keeps z0 (State.flushLost s k) :=
    by
  unfold State.flushLost
  repeat' with_reducible first
    | assumption | apply State.setCtx_keeps | apply State.putEvent_keeps | apply Keeps.ite

theorem State.eventTo_keeps {z0 : State} (k : Ctx) (e : Event) (s : State) (hz : Keeps z0 s) : Keeps z0 (State.eventTo
    k e s) := by
  unfold State.eventTo
  repeat' with_reducible first
    | assumption | apply State.flushLost_keeps | apply State.putEvent_keeps | apply State.dropEvent_keeps
    | apply Keeps.ite

theorem State.devEvent_keeps {z0 : State} (s : State) (kind d0 d1 d2 : Nat) (fault : Bool) (hz : Keeps z0 s) : Keeps
    z0 (State.devEvent s kind d0 d1 d2 fault) := by
  unfold State.devEvent
  repeat' with_reducible first
    | assumption | apply State.eventTo_keeps

theorem State.axisEvent_keeps {z0 : State} (s : State) (n : Axis) (kind d1 d2 : Nat) (tag : Option Nat) (fault : Bool)
    (hz : Keeps z0 s) : Keeps z0 (State.axisEvent s n kind d1 d2 tag fault) := by
  unfold State.axisEvent
  repeat' with_reducible first
    | assumption | intro x | apply each_keeps | apply State.eventTo_keeps | apply Keeps.each

theorem State.bankEvent_keeps {z0 : State} (s : State) (b : Bank) (kind d1 d2 : Nat) (hz : Keeps z0 s) : Keeps z0
    (State.bankEvent s b kind d1 d2) := by
  unfold State.bankEvent
  repeat' with_reducible first
    | assumption | intro x | apply each_keeps | apply State.eventTo_keeps | apply Keeps.each

theorem State.flushHeld_keeps {z0 : State} (s : State) (p : Port) (hz : Keeps z0 s) : Keeps z0 (State.flushHeld s p)
    := by
  unfold State.flushHeld
  repeat' with_reducible first
    | assumption | intro x | apply State.setPort_keeps | apply each_keeps | apply State.emit_keeps
    | apply State.wr_keeps | apply State.issued_keeps | apply Keeps.ite | apply Keeps.each | split

theorem State.writeData_keeps {z0 : State} (s : State) (p : Port) (addr : Nat) (ws : List Word) (hz : Keeps z0 s) :
    Keeps z0 (State.writeData s p addr ws) := by
  unfold State.writeData
  repeat' with_reducible first
    | assumption | intro x | apply each_keeps | apply State.emit_keeps | apply State.setPort_keeps | apply Keeps.ite
    | apply Keeps.each

theorem State.dropBlock_keeps {z0 : State} (s : State) (i : Fin 8) (hz : Keeps z0 s) : Keeps z0 (State.dropBlock s i)
    := by
  unfold State.dropBlock
  repeat' with_reducible first
    | assumption | apply State.cnt_keeps | apply State.setStream_keeps

theorem State.setOp_keeps {z0 : State} (s : State) (o : Op) (hz : Keeps z0 s) : Keeps z0 (State.setOp s o) := by
  unfold State.setOp
  repeat' with_reducible first
    | assumption | intro x | apply Keeps.ite | split | refine Keeps.record ?_ rfl

theorem State.decide_keeps {z0 : State} (s : State) (k : Ctx) (index : Nat) (ws : List Word) (hz : Keeps z0 s) : Keeps
    z0 (State.decide s k index ws) := by
  unfold State.decide
  repeat' with_reducible first
    | assumption | apply State.complete_keeps | apply State.setCtx_keeps | apply Keeps.ite

theorem State.flushKept_keeps {z0 : State} (s : State) (k : Ctx) (hz : Keeps z0 s) : Keeps z0 (State.flushKept s k) :=
    by
  unfold State.flushKept
  repeat' with_reducible first
    | assumption | intro x | apply each_keeps | apply State.complete_keeps | apply State.setCtx_keeps | apply Keeps.ite
    | apply Keeps.each

theorem State.countEnd_keeps {z0 : State} (s : State) (o : Op) (st : Status) (hz : Keeps z0 s) : Keeps z0
    (State.countEnd s o st) := by
  unfold State.countEnd
  repeat' with_reducible first
    | assumption | intro x | apply each_keeps | apply State.addCounter_keeps | apply Keeps.ite | apply Keeps.each

theorem State.finish_keeps {z0 : State} (s : State) (tag : Nat) (st : Status) (t1 t2 detail rflags : Nat) (hz : Keeps
    z0 s) : Keeps z0 (State.finish s tag st t1 t2 detail rflags) := by
  unfold State.finish
  repeat' with_reducible first
    | assumption | intro x | apply State.countEnd_keeps | apply State.complete_keeps | apply Keeps.ite | split
    | refine Keeps.record ?_ rfl

/-- What a row has sent before it stays as it was; the order of R50 and R97 is among what the row itself sends. -/
theorem State.arranged_keeps {z0 a : State} (s : State) (h : Keeps z0 a) (hz : Keeps a s) : Keeps z0 (State.arranged a s) := by
  refine h.trans ⟨hz.queue, hz.time, ?_, hz.free, hz.wf⟩
  obtain ⟨l, e⟩ := hz.out
  refine ⟨_, congrArg (· ++ _) ?_⟩
  rw [← e, List.take_left]

theorem State.takeEntry_keeps {z0 : State} (s : State) (n : Axis) (x : Seg) (book : List Booking) (hz : Keeps z0 s) :
    Keeps z0 (State.takeEntry s n x book) := by
  unfold State.takeEntry
  repeat' with_reducible first
    | assumption | apply State.setPlan_keeps

theorem State.softStart_keeps {z0 : State} (s : State) (h : HalfBridge) (hz : Keeps z0 s) : Keeps z0 (State.softStart
    s h) := by
  unfold State.softStart
  repeat' with_reducible first
    | assumption | apply State.setHb_keeps | apply Keeps.ite

theorem State.softSto_keeps {z0 : State} (s : State) (h : HalfBridge) (hz : Keeps z0 s) : Keeps z0 (State.softSto s h)
    := by
  unfold State.softSto
  repeat' with_reducible first
    | assumption | apply State.setHb_keeps | apply State.softStart_keeps | split

theorem State.reactOff_keeps {z0 : State} (s : State) (h : HalfBridge) (hz : Keeps z0 s) : Keeps z0 (State.reactOff s
    h) := by
  unfold State.reactOff
  repeat' with_reducible first
    | assumption | apply State.softStart_keeps | apply State.setHb_keeps

theorem State.tripHb_keeps {z0 : State} (s : State) (h : HalfBridge) (hz : Keeps z0 s) : Keeps z0 (State.tripHb s h)
    := by
  unfold State.tripHb
  repeat' with_reducible first
    | assumption | apply State.softStart_keeps | apply State.setHb_keeps | apply State.cnt_keeps

theorem State.ledEnter_keeps {z0 : State} (s : State) (e : LedEntry) (hz : Keeps z0 s) : Keeps z0 (State.ledEnter s e)
    := by
  unfold State.ledEnter
  repeat' with_reducible first
    | assumption | refine Keeps.record ?_ rfl

theorem State.ledPush_keeps {z0 : State} (s : State) (typ : Nat) (data : List Word) (src : Option Nat) (hz : Keeps z0
    s) : Keeps z0 (State.ledPush s typ data src) := by
  unfold State.ledPush
  repeat' with_reducible first
    | assumption | apply State.ledEnter_keeps | apply State.sqc_keeps | apply Keeps.ite | split
    | refine Keeps.record ?_ rfl

theorem State.ledRefill_keeps {z0 : State} (s : State) (hz : Keeps z0 s) : Keeps z0 (State.ledRefill s) := by
  unfold State.ledRefill
  repeat' with_reducible first
    | assumption | apply State.ledEnter_keeps | apply Keeps.ite | split | refine Keeps.record ?_ rfl

theorem State.sourceMoved_keeps {z0 : State} (s0 s : State) (n : Axis) (hz : Keeps z0 s) : Keeps z0 (State.sourceMoved
    s0 s n) := by
  unfold State.sourceMoved
  repeat' with_reducible first
    | assumption | apply State.setFbk_keeps

theorem State.energise_keeps {z0 : State} (s : State) (n : Axis) (hz : Keeps z0 s) : Keeps z0 (State.energise s n) :=
    by
  unfold State.energise
  repeat' with_reducible first
    | assumption | intro x | apply State.setLes_keeps | apply State.setClp_keeps | apply State.wr_keeps
    | apply State.setGdr_keeps | apply each_keeps | apply State.setHb_keeps | apply State.sourceMoved_keeps
    | apply State.setPlan_keeps | apply Keeps.ite | apply Keeps.each

theorem State.deenergise_keeps {z0 : State} (s : State) (n : Axis) (hz : Keeps z0 s) : Keeps z0 (State.deenergise s n)
    := by
  unfold State.deenergise
  repeat' with_reducible first
    | assumption | apply State.setPlan_keeps | apply State.setLes_keeps | apply State.setClp_keeps
    | apply State.wr_keeps | apply State.setSs1_keeps | apply Keeps.ite | split | refine Keeps.record ?_ rfl

theorem State.unbook_keeps {z0 : State} (s : State) (n : Axis) (hz : Keeps z0 s) : Keeps z0 (State.unbook s n) := by
  unfold State.unbook
  repeat' with_reducible first
    | assumption | apply State.setPlan_keeps

theorem State.unbookOthers_keeps {z0 : State} (s : State) (n : Axis) (tag : Nat) (hz : Keeps z0 s) : Keeps z0
    (State.unbookOthers s n tag) := by
  unfold State.unbookOthers
  repeat' with_reducible first
    | assumption | intro x | apply each_keeps | apply State.setPlan_keeps | apply Keeps.ite | apply Keeps.each | split

theorem State.cancelQueued_keeps {z0 : State} (s : State) (n : Axis) (c : Cause) (hz : Keeps z0 s) : Keeps z0
    (State.cancelQueued s n c) := by
  unfold State.cancelQueued
  repeat' with_reducible first
    | assumption | intro x | apply each_keeps | apply State.unbookOthers_keeps | apply State.finish_keeps
    | apply Keeps.each

theorem State.endProg_keeps {z0 : State} (s : State) (n : Axis) (c : Cause) (t2 fl : Nat) (hz : Keeps z0 s) : Keeps z0
    (State.endProg s n c t2 fl) := by
  unfold State.endProg
  repeat' with_reducible first
    | assumption | apply State.finish_keeps | split

theorem State.stopStood_keeps {z0 : State} (s : State) (n : Axis) (t2 : Nat) (hz : Keeps z0 s) : Keeps z0
    (State.stopStood s n t2) := by
  unfold State.stopStood
  repeat' with_reducible first
    | assumption | intro x | apply each_keeps | apply State.setOp_keeps | apply State.finish_keeps | apply Keeps.ite
    | apply Keeps.each

theorem State.curtSettle_keeps {z0 : State} (s : State) (b : Bank) (hz : Keeps z0 s) : Keeps z0 (State.curtSettle s b)
    := by
  unfold State.curtSettle
  repeat' with_reducible first
    | assumption | apply State.wr_keeps | apply Keeps.ite

theorem State.uncurtail_keeps {z0 : State} (s : State) (n : Axis) (hz : Keeps z0 s) : Keeps z0 (State.uncurtail s n)
    := by
  unfold State.uncurtail
  repeat' with_reducible first
    | assumption | apply State.setBank_keeps | apply State.curtSettle_keeps

theorem State.turnOff_keeps {z0 : State} (s : State) (n : Axis) (c : Cause) (hz : Keeps z0 s) : Keeps z0
    (State.turnOff s n c) := by
  unfold State.turnOff
  repeat' with_reducible first
    | assumption | intro x | apply State.finish_keeps | apply each_keeps | apply State.softSto_keeps
    | apply State.reactOff_keeps | apply State.deenergise_keeps | apply State.unbook_keeps | apply State.stopStood_keeps
    | apply State.uncurtail_keeps | apply Keeps.ite | apply Keeps.each | split

theorem State.clearObs_keeps {z0 : State} (s : State) (n : Axis) (hz : Keeps z0 s) : Keeps z0 (State.clearObs s n) :=
    by
  unfold State.clearObs
  repeat' with_reducible first
    | assumption | apply State.setLes_keeps

theorem State.reach_keeps {z0 : State} (s : State) (n : Axis) (c : Cause) (gatesOff : Bool) (due : Nat) (hz : Keeps z0
    s) : Keeps z0 (State.reach s n c gatesOff due) := by
  unfold State.reach
  repeat' with_reducible first
    | assumption | apply State.setPlan_keeps | apply State.clearObs_keeps | apply Keeps.ite | split
    | refine Keeps.record ?_ rfl

theorem State.standstill_keeps {z0 : State} (s : State) (n : Axis) (t2 : Nat) (hz : Keeps z0 s) : Keeps z0
    (State.standstill s n t2) := by
  unfold State.standstill
  repeat' with_reducible first
    | assumption | apply State.endProg_keeps | apply State.setPlan_keeps | apply State.stopStood_keeps
    | apply State.uncurtail_keeps | split

theorem State.ss1Off_keeps {z0 : State} (s : State) (n : Axis) (hz : Keeps z0 s) : Keeps z0 (State.ss1Off s n) := by
  unfold State.ss1Off
  repeat' with_reducible first
    | assumption | intro x | apply State.endProg_keeps | apply each_keeps | apply State.softStart_keeps
    | apply State.deenergise_keeps | apply State.unbook_keeps | apply State.stopStood_keeps
    | apply State.uncurtail_keeps | apply Keeps.each | split

theorem State.beginLeave_keeps {z0 : State} (s : State) (n : Axis) (hz : Keeps z0 s) : Keeps z0 (State.beginLeave s n)
    := by
  unfold State.beginLeave
  repeat' with_reducible first
    | assumption | intro x | apply State.cancelQueued_keeps | apply State.endProg_keeps | apply State.deenergise_keeps
    | apply State.unbook_keeps | apply State.stopStood_keeps | apply State.uncurtail_keeps | apply State.setPlan_keeps
    | apply State.clearObs_keeps | apply State.standstill_keeps | apply Keeps.ite | split

theorem State.markSs1_keeps {z0 : State} (s : State) (n : Axis) (c : Cause) (hz : Keeps z0 s) : Keeps z0
    (State.markSs1 s n c) := by
  unfold State.markSs1
  repeat' with_reducible first
    | assumption | apply State.setSs1_keeps | apply State.reach_keeps | apply Keeps.ite

theorem State.dwellTick_keeps {z0 : State} (s : State) (hz : Keeps z0 s) : Keeps z0 (State.dwellTick s) := by
  unfold State.dwellTick
  repeat' with_reducible first
    | assumption | apply Keeps.ite | split | refine Keeps.record ?_ rfl

theorem State.refuse_keeps {z0 : State} (s : State) (k : Ctx) (op : Nat) (d : Desc) (index : Nat) (r : Refuse) (hz :
    Keeps z0 s) : Keeps z0 (State.refuse s k op d index r) := by
  unfold State.refuse
  repeat' with_reducible first
    | assumption | apply State.decide_keeps | apply State.wakeEvent_keeps | apply Keeps.ite

theorem State.refuseMembers_keeps {z0 : State} (s : State) (k : Ctx) (r : Refuse) (hz : Keeps z0 s) : Keeps z0
    (State.refuseMembers s k r) := by
  unfold State.refuseMembers
  repeat' with_reducible first
    | assumption | intro x | apply State.setCtx_keeps | apply each_keeps | apply State.complete_keeps
    | apply State.flushKept_keeps | apply Keeps.each

theorem State.fetchEnd_keeps {z0 : State} (s : State) (k : Ctx) (hz : Keeps z0 s) : Keeps z0 (State.fetchEnd s k) :=
    by
  unfold State.fetchEnd
  repeat' with_reducible first
    | assumption | apply State.refuseMembers_keeps | apply Keeps.ite

theorem descriptor_keeps {z0 : State} (k : Ctx) (op : Nat) (d : Desc) (f : State → Nat → State)
    (hf : ∀ s i, Keeps z0 s → Keeps z0 (f s i)) (s : State) (hz : Keeps z0 s) : Keeps z0 (descriptor k op d f s) := by
  unfold descriptor
  split
  · extract_lets i c x y
    split
    · have hy : Keeps z0 y := State.setCtx_keeps _ _ _ (State.wr_keeps (State.wr_keeps hz _ _) _ _)
      clear_value y
      exact State.fetchEnd_keeps _ _ (Keeps.ite (State.refuse_keeps _ _ _ _ _ _ hy) (hf _ _ hy))
    · exact State.fetchEnd_keeps _ _ (State.setCtx_keeps _ _ _ (State.wr_keeps hz _ _))
  · exact hz

theorem decideWith_keeps {z0 : State} (k : Ctx) (op : Nat) (d : Desc) (useStart : Bool)
    (adm : State → Nat → Nat → Except Refuse (State × List Word))
    (ha : ∀ s tag t x, Keeps z0 s → adm s tag t = .ok x → Keeps z0 x.1) (s : State) (i : Nat) (hz : Keeps z0 s) :
    Keeps z0 (decideWith k op d useStart adm s i) := by
  unfold decideWith
  extract_lets t verdict
  have key : ∀ x, verdict = .ok x → Keeps z0 x.1 := by
    intro x hx
    unfold verdict at hx
    split at hx
    · cases hx
    · split at hx
      · cases hx
      · split at hx
        · cases hx
        · split at hx
          · cases hx
          · exact ha _ _ _ _ hz hx
  clear_value verdict
  split
  · exact State.refuse_keeps _ _ _ _ _ _ hz
  · exact State.decide_keeps _ _ _ _ (key _ rfl)

theorem admitMotion_keeps {z0 : State} (s : State) (k : Ctx) (op : Nat) (d : Desc) (index tag t : Nat) (x : State × Op)
    (hz : Keeps z0 s) (e : admitMotion s k op d index tag t = .ok x) : Keeps z0 x.1 := by
  unfold admitMotion at e
  dsimp only at e
  split at e
  · cases e
  split at e
  · cases e
  split at e
  · cases e
  split at e
  · cases e
  cases e
  exact State.takeEntry_keeps _ _ _ _ (Keeps.record hz rfl)

theorem admitStand_keeps {z0 : State} (s : State) (k : Ctx) (op : Nat) (d : Desc) (index tag t : Nat) (x : State × Op)
    (hz : Keeps z0 s) (e : admitStand s k op d index tag t = .ok x) : Keeps z0 x.1 := by
  unfold admitStand at e
  extract_lets n ld x0 stand closed wasOn dur t2 book at e
  clear_value book
  split at e
  · cases e
  split at e
  · cases e
  split at e
  · cases e
  cases e
  exact State.takeEntry_keeps _ _ _ _ (Keeps.record hz rfl)

theorem decideMotion_keeps {z0 : State} (k : Ctx) (op : Nat) (d : Desc) (s : State) (i : Nat) (hz : Keeps z0 s) :
    Keeps z0 (decideMotion k op d s i) := by
  unfold decideMotion
  refine Keeps.ite (State.setCtx_keeps _ _ _ hz) (decideWith_keeps _ _ _ _ _ (fun s tag t x h e => ?_) _ _ hz)
  split at e
  · cases e
  · cases e
    rename_i hm
    exact admitMotion_keeps _ _ _ _ _ _ _ _ h hm

theorem decideStand_keeps {z0 : State} (k : Ctx) (op : Nat) (d : Desc) (s : State) (i : Nat) (hz : Keeps z0 s) :
    Keeps z0 (decideStand k op d s i) := by
  unfold decideStand
  refine decideWith_keeps _ _ _ _ _ (fun s tag t x h e => ?_) _ _ hz
  split at e
  · cases e
  · cases e
    rename_i hm
    exact admitStand_keeps _ _ _ _ _ _ _ _ h hm

theorem refuseGroup_keeps {z0 : State} (s : State) (ms : List Member) (own : Nat) (r : Refuse) (k : Ctx) (hz : Keeps
    z0 s) : Keeps z0 (refuseGroup s ms own r k) := by
  unfold refuseGroup
  repeat' with_reducible first
    | assumption | intro x | apply each_keeps | apply State.complete_keeps | apply Keeps.ite | apply Keeps.each

theorem memberAdmit_keeps {z0 : State} (s : State) (k : Ctx) (t : Nat) (m : Member) (x : State × Op) (hz : Keeps z0 s)
    (e : memberAdmit s k t m = .ok x) : Keeps z0 x.1 := by
  unfold memberAdmit at e
  dsimp only at e
  split at e
  · cases e
  · split at e
    · cases e
    · split at e
      · cases e
      split at e
      · cases e
      split at e
      · cases e
      split at e
      · cases e
      exact admitMotion_keeps _ _ _ _ _ _ _ _ hz e

theorem memberNext_keeps {z0 : State} (k : Ctx) (t : Nat) (m : Member) (a : Except (Nat × Refuse) (State × List Op))
    (x : State × List Op) (hz : ∀ y, a = .ok y → Keeps z0 y.1) (e : memberNext k t a m = .ok x) : Keeps z0 x.1 := by
  unfold memberNext at e
  cases a with
  | error r => cases e
  | ok y =>
    dsimp only at e
    generalize hm : memberAdmit y.1 k t m = q at e
    cases q with
    | error r => cases e
    | ok z => exact Except.ok.inj e ▸ memberAdmit_keeps _ _ _ _ _ (hz y rfl) hm

theorem membersAdmit_keeps {z0 : State} (k : Ctx) (t : Nat) (ms : List Member) (s : State) (x : State × List Op)
    (hz : Keeps z0 s) (e : membersAdmit k t ms s = .ok x) : Keeps z0 x.1 := by
  have key : ∀ (ms : List Member) (a : Except (Nat × Refuse) (State × List Op)),
      (∀ y, a = .ok y → Keeps z0 y.1) → ∀ x, ms.foldl (memberNext k t) a = .ok x → Keeps z0 x.1 := by
    intro ms
    induction ms with
    | nil => exact fun a h => h
    | cons m ms ih => exact fun a h => ih _ fun y e => memberNext_keeps k t m a y h e
  exact key ms _ (fun y e => Except.ok.inj e ▸ hz) x e

theorem decideBarrier_keeps {z0 : State} (k : Ctx) (d : Desc) (s : State) (i : Nat) (hz : Keeps z0 s) :
    Keeps z0 (decideBarrier k d s i) := by
  unfold decideBarrier
  extract_lets mine c x t axes f ownFail groupFail done
  have hx : Keeps z0 x := State.setCtx_keeps _ _ _ hz
  clear_value x
  have ho : ∀ r, Keeps z0 (ownFail r) := fun r =>
    State.refuse_keeps _ _ _ _ _ _ (Keeps.each (fun _ _ h => State.complete_keeps _ _ _ h) hx)
  clear_value ownFail
  have hg : ∀ x r, Keeps z0 (groupFail x r) := fun x r => State.refuse_keeps _ _ _ _ _ _ (refuseGroup_keeps _ _ _ _ _ hx)
  clear_value groupFail
  have hd : Keeps z0 done := by
    unfold done
    split
    · exact ho _
    · split
      · exact State.refuse_keeps _ _ _ _ _ _ (Keeps.each (fun _ _ h => State.complete_keeps _ _ _ h) hx)
      · split
        · exact hg _ _
        · split
          · exact ho _
          · split
            · exact hg _ _
            · rename_i hm
              split
              · exact ho _
              · split
                · exact ho _
                · exact State.decide_keeps _ _ _ _
                    (Keeps.each (fun _ _ h => State.complete_keeps _ _ _ h) (membersAdmit_keeps _ _ _ _ _ hx hm))
  clear_value done
  exact State.flushKept_keeps _ _ hd

theorem serveCtx_keeps {z0 : State} (p : Port) (page : Vector Word 64) (s : State) (k : Ctx) (hz : Keeps z0 s) : Keeps
    z0 (serveCtx p page s k) := by
  unfold serveCtx
  repeat' with_reducible first
    | assumption | intro x | apply State.sqc_keeps | apply State.eventTo_keeps | apply State.setCtx_keeps
    | apply State.wrB_keeps | apply each_keeps | apply State.emit_keeps | apply Keeps.ite | apply Keeps.each

theorem servePort_keeps {z0 : State} (p : Port) (page : Vector Word 64) (only : State → Ctx → Bool) (s : State)
    (hz : Keeps z0 s) : Keeps z0 (servePort p page only s) :=
  State.arranged_keeps _ hz (Keeps.each (fun _ _ h => serveCtx_keeps _ _ _ _ h) (Keeps.refl s))

theorem doorbellPageReturn_keeps {z0 : State} (p : Port) (page : Vector Word 64) (s : State) (hz : Keeps z0 s) : Keeps
    z0 (doorbellPageReturn p page s) := by
  unfold doorbellPageReturn
  repeat' with_reducible first
    | assumption | intro x | apply servePort_keeps | apply State.setPort_keeps | apply Keeps.ite

theorem State.mmioServe_keeps {z0 : State} (s : State) (hz : Keeps z0 s) : Keeps z0 (State.mmioServe s) := by
  unfold State.mmioServe
  repeat' with_reducible first
    | assumption | intro x | apply each_keeps | apply servePort_keeps | apply State.setPort_keeps | apply Keeps.ite
    | apply Keeps.each

theorem doorbellReadLate_keeps {z0 : State} (p : Port) (s : State) (hz : Keeps z0 s) : Keeps z0 (doorbellReadLate p s)
    := by
  unfold doorbellReadLate
  repeat' with_reducible first
    | assumption | apply State.advTo_keeps | apply State.setPort_keeps | apply State.cnt_keeps | apply Keeps.ite

theorem phaseStall_keeps {z0 : State} (k : Ctx) (s : State) (hz : Keeps z0 s) : Keeps z0 (phaseStall k s) := by
  unfold phaseStall
  repeat' with_reducible first
    | assumption | apply State.setCtx_keeps | apply State.eventTo_keeps | apply Keeps.ite

theorem admissionCutoff_keeps {z0 : State} (s : State) (hz : Keeps z0 s) : Keeps z0 (admissionCutoff s) := by
  unfold admissionCutoff
  repeat' with_reducible first
    | assumption | intro x | apply State.advTo_keeps | apply each_keeps | apply State.refuseMembers_keeps
    | apply Keeps.ite | apply Keeps.each | split | refine Keeps.record ?_ rfl

end Sys2Proof.Machine
end

