-- ==== Sys2Proof/Laws/KeepsMotion.lean ====
section
/-! SUPPORT. Keeps through the units on the path from an operation to a coil: one lemma for each. -/

namespace Sys2Proof.Machine

theorem State.setSrc_keeps {z0 : State} (s : State) (x : SrcS) (hz : Keeps z0 s) : Keeps z0 (State.setSrc s x) :=
  Keeps.record hz rfl

theorem State.inactive_keeps {z0 : State} (s : State) (src : Nat) (hz : Keeps z0 s) : Keeps z0 (State.inactive s src)
    := by
  unfold State.inactive
  repeat' with_reducible first
    | assumption | apply State.setSrc_keeps | apply Keeps.ite

theorem State.fcsStat_keeps {z0 : State} (s : State) (hz : Keeps z0 s) : Keeps z0 (State.fcsStat s) := by
  unfold State.fcsStat
  repeat' with_reducible first
    | assumption | apply State.wrB_keeps | apply State.wr_keeps | apply Keeps.ite

theorem State.launch_keeps {z0 : State} (s : State) (src scope : Nat) (object : Option Nat) (hz : Keeps z0 s) : Keeps
    z0 (State.launch s src scope object) := by
  unfold State.launch
  repeat' with_reducible first
    | assumption | intro x | apply each_keeps | apply State.markSs1_keeps | apply State.turnOff_keeps | apply Keeps.ite
    | apply Keeps.each

theorem State.openWindow_keeps {z0 : State} (s : State) (src : Nat) (axes : List Axis) (hz : Keeps z0 s) : Keeps z0
    (State.openWindow s src axes) := by
  unfold State.openWindow
  repeat' with_reducible first
    | assumption | intro x | apply Keeps.ite | split | refine Keeps.record ?_ rfl

theorem State.markSeen_keeps {z0 : State} (s : State) (w : Win) (src : Nat) (hz : Keeps z0 s) : Keeps z0
    (State.markSeen s w src) := by
  unfold State.markSeen
  repeat' with_reducible first
    | assumption | intro x | apply Keeps.ite | split | refine Keeps.record ?_ rfl

theorem State.faultRecord_keeps {z0 : State} (s : State) (src : Nat) (object : Option Nat) (r : FaultRec) (hz : Keeps
    z0 s) : Keeps z0 (State.faultRecord s src object r) := by
  unfold State.faultRecord
  repeat' with_reducible first
    | assumption | apply State.drop_keeps | apply State.sqc_keeps | apply State.cntWrap_keeps | apply State.wr_keeps
    | apply State.eventTo_keeps | apply State.ledPush_keeps | apply Keeps.ite | split | refine Keeps.record ?_ rfl

theorem tripPrimary_keeps {z0 : State} (s : State) (x : SrcS) (object : Option Nat) (loc : Bool) (hz : Keeps z0 s) :
    Keeps z0 (tripPrimary s x object loc) := by
  unfold tripPrimary
  repeat' with_reducible first
    | assumption | apply State.setSrc_keeps | apply State.openWindow_keeps | apply State.launch_keeps
    | apply State.faultRecord_keeps | apply Keeps.ite

theorem tripSecondary_keeps {z0 : State} (s : State) (x : SrcS) (w : Win) (object : Option Nat) (loc : Bool) (hz :
    Keeps z0 s) : Keeps z0 (tripSecondary s x w object loc) := by
  unfold tripSecondary
  repeat' with_reducible first
    | assumption | intro x | apply State.setSrc_keeps | apply State.markSeen_keeps | apply State.openWindow_keeps
    | apply State.launch_keeps | apply State.faultRecord_keeps | apply Keeps.ite

theorem tripLatched_keeps {z0 : State} (s : State) (x : SrcS) (object : Option Nat) (loc : Bool) (hz : Keeps z0 s) :
    Keeps z0 (tripLatched s x object loc) := by
  unfold tripLatched
  repeat' with_reducible first
    | assumption | apply State.setSrc_keeps | apply State.faultRecord_keeps | apply Keeps.ite

theorem demandWindow_keeps {z0 : State} (s s' : State) (src : Nat) (hz : Keeps z0 s') : Keeps z0 (demandWindow s s'
    src) := by
  unfold demandWindow
  repeat' with_reducible first
    | assumption | intro x | apply State.openWindow_keeps | apply Keeps.ite | split | refine Keeps.record ?_ rfl

theorem State.trip_keeps {z0 : State} (s : State) (src : Nat) (active : Bool) (object : Option Nat) (loc : Bool)
    (hz : Keeps z0 s) : Keeps z0 (State.trip s src active object loc) := by
  unfold State.trip
  split
  · exact hz
  · extract_lets x y t
    have ht : Keeps s t := by
      unfold t
      split
      · exact tripLatched_keeps _ _ _ _ (Keeps.refl s)
      · split
        · exact tripSecondary_keeps _ _ _ _ _ (Keeps.refl s)
        · exact tripPrimary_keeps _ _ _ _ (Keeps.refl s)
    clear_value t
    exact State.arranged_keeps _ hz (State.fcsStat_keeps _ (demandWindow_keeps _ _ _ ht))

theorem State.runTrips_keeps {z0 : State} (s : State) (hz : Keeps z0 s) : Keeps z0 (State.runTrips s) := by
  unfold State.runTrips
  repeat' with_reducible first
    | assumption | intro x | apply each_keeps | apply State.trip_keeps | apply Keeps.each | refine Keeps.record ?_ rfl

theorem State.finding_keeps {z0 : State} (find : State → State) (s : State) (hf : ∀ s, Keeps z0 s → Keeps z0 (find s))
    (hz : Keeps z0 s) : Keeps z0 (State.finding find s) :=
  State.runTrips_keeps _ (hf _ (Keeps.record hz rfl))

theorem State.clearSrc_keeps {z0 : State} (s : State) (src : Nat) (hz : Keeps z0 s) : Keeps z0 (State.clearSrc s src)
    := by
  unfold State.clearSrc
  repeat' with_reducible first
    | assumption | apply State.setSrc_keeps | apply State.faultRecord_keeps | apply State.fcsStat_keeps

theorem trackValid_keeps {z0 : State} (s : State) (n : Axis) (hz : Keeps z0 s) : Keeps z0 (trackValid s n) := by
  unfold trackValid
  repeat' with_reducible first
    | assumption | apply State.setLes_keeps | apply State.wr_keeps | apply Keeps.ite

theorem trackBlind_keeps {z0 : State} (s : State) (n : Axis) (hz : Keeps z0 s) : Keeps z0 (trackBlind s n) := by
  unfold trackBlind
  repeat' with_reducible first
    | assumption | apply State.setLes_keeps | apply State.wr_keeps | apply Keeps.ite

theorem lesTrack_keeps {z0 : State} (s : State) (n : Axis) (hz : Keeps z0 s) : Keeps z0 (lesTrack s n) := by
  unfold lesTrack
  repeat' with_reducible first
    | assumption | apply trackValid_keeps | apply trackBlind_keeps | apply Keeps.ite

theorem lesShow_keeps {z0 : State} (s : State) (n : Axis) (hz : Keeps z0 s) : Keeps z0 (lesShow s n) := by
  unfold lesShow
  repeat' with_reducible first
    | assumption | apply State.wrS64_keeps

theorem lesForce_keeps {z0 : State} (s : State) (n : Axis) (hz : Keeps z0 s) : Keeps z0 (lesForce s n) := by
  unfold lesForce
  repeat' with_reducible first
    | assumption | intro x | apply State.setLes_keeps | apply State.wrS_keeps

theorem State.reversePartner_keeps {z0 : State} (s : State) (n : Axis) (f : Nat) (hz : Keeps z0 s) : Keeps z0
    (State.reversePartner s n f) := by
  unfold State.reversePartner
  repeat' with_reducible first
    | assumption | apply State.reach_keeps | apply State.clearObs_keeps | apply Keeps.ite

theorem State.obstruct_keeps {z0 : State} (s : State) (n : Axis) (g : Seg) (f : Nat) (hz : Keeps z0 s) : Keeps z0
    (State.obstruct s n g f) := by
  unfold State.obstruct
  repeat' with_reducible first
    | assumption | apply State.sqc_keeps | apply State.cnt_keeps | apply State.axisEvent_keeps
    | apply State.clearObs_keeps | apply State.reach_keeps | apply State.reversePartner_keeps | apply Keeps.ite

theorem lesObstruct_keeps {z0 : State} (s : State) (n : Axis) (hz : Keeps z0 s) : Keeps z0 (lesObstruct s n).1 := by
  have h1 : ∀ x, Keeps z0 (s.setLes n x) := fun x => State.setLes_keeps _ _ _ hz
  unfold lesObstruct
  repeat' first | split | dsimp only
  all_goals with_reducible first
    | exact State.setFbk_keeps _ _ _ (h1 _)
    | exact h1 _
    | exact State.clearObs_keeps _ _ hz
    | exact State.clearObs_keeps _ _ (h1 _)
    | exact State.obstruct_keeps _ _ _ _ (h1 _)

theorem lesLoad_keeps {z0 : State} (s : State) (n : Axis) (hz : Keeps z0 s) : Keeps z0 (lesLoad s n) := by
  unfold lesLoad
  repeat' with_reducible first
    | assumption | apply State.draw_keeps | apply State.wr_keeps | apply Keeps.ite

theorem lesStall_keeps {z0 : State} (s : State) (n : Axis) (obs : Bool) (hz : Keeps z0 s) : Keeps z0 (lesStall s n
    obs) := by
  unfold lesStall
  repeat' with_reducible first
    | assumption | apply State.setLes_keeps | apply State.sqc_keeps | apply State.axisEvent_keeps
    | apply State.detect_keeps | apply Keeps.ite

theorem State.switchToLes_keeps {z0 : State} (s : State) (n : Axis) (x : Rat) (hz : Keeps z0 s) : Keeps z0
    (State.switchToLes s n x) := by
  unfold State.switchToLes
  repeat' with_reducible first
    | assumption | apply State.setPlan_keeps | apply State.setFbk_keeps | apply State.setLes_keeps
    | apply State.axisEvent_keeps | apply Keeps.ite

theorem lesCompare_keeps {z0 : State} (s : State) (n : Axis) (x : Rat) (hz : Keeps z0 s) : Keeps z0 (lesCompare s n x)
    := by
  unfold lesCompare
  repeat' with_reducible first
    | assumption | apply State.wrS_keeps | apply State.setLes_keeps | apply State.sqc_keeps
    | apply State.switchToLes_keeps | apply State.detect_keeps | apply Keeps.ite

theorem lesNoSource_keeps {z0 : State} (s : State) (n : Axis) (hz : Keeps z0 s) : Keeps z0 (lesNoSource s n) := by
  unfold lesNoSource
  repeat' with_reducible first
    | assumption | apply State.setLes_keeps | apply State.detect_keeps | apply Keeps.ite

theorem lesValidity_keeps {z0 : State} (s : State) (n : Axis) (hz : Keeps z0 s) : Keeps z0 (lesValidity s n) := by
  unfold lesValidity
  repeat' with_reducible first
    | assumption | apply State.wrB_keeps | apply State.setLes_keeps | apply State.detect_keeps | apply Keeps.ite

theorem lesHandoff_keeps {z0 : State} (s : State) (n : Axis) (hz : Keeps z0 s) : Keeps z0 (lesHandoff s n) := by
  unfold lesHandoff
  repeat' with_reducible first
    | assumption | apply State.decide_keeps | apply State.setLes_keeps | apply lesShow_keeps | apply lesTrack_keeps
    | apply lesLoad_keeps | apply lesForce_keeps | apply State.wrB_keeps | apply lesValidity_keeps
    | apply lesObstruct_keeps | apply lesStall_keeps | apply lesNoSource_keeps | apply lesCompare_keeps
    | apply State.setClp_keeps | apply Keeps.ite

theorem State.reading_keeps {z0 : State} (s : State) (q o : Nat) (v : Int) (largest : Bool) (hz : Keeps z0 s) : Keeps
    z0 (State.reading s q o v largest) := by
  unfold State.reading
  repeat' with_reducible first
    | assumption | apply Keeps.ite | split | refine Keeps.record ?_ rfl

theorem State.readDelay_keeps {z0 : State} (s : State) (k : Nat) (dt : Nat) (m : Option (BitVec 16)) (hz : Keeps z0 s)
    : Keeps z0 (State.readDelay s k dt m) := by
  unfold State.readDelay
  repeat' with_reducible first
    | assumption | apply State.reading_keeps | apply Keeps.ite | split

theorem State.readRds_keeps {z0 : State} (s : State) (k : Nat) (n : Axis) (mA : Rat) (m : Option Byte) (hz : Keeps z0
    s) : Keeps z0 (State.readRds s k n mA m) := by
  unfold State.readRds
  repeat' with_reducible first
    | assumption | apply State.reading_keeps | apply Keeps.ite | split

theorem State.readDroop_keeps {z0 : State} (s : State) (h : HalfBridge) (m : Option Byte) (hz : Keeps z0 s) : Keeps z0
    (State.readDroop s h m) := by
  unfold State.readDroop
  repeat' with_reducible first
    | assumption | apply State.reading_keeps | split

theorem State.readLoop_keeps {z0 : State} (s : State) (p : Coil) (still : Bool) (v mA : Rat) (hz : Keeps z0 s) : Keeps
    z0 (State.readLoop s p still v mA) := by
  unfold State.readLoop
  repeat' with_reducible first
    | assumption | intro x | apply State.reading_keeps | apply Keeps.ite | split | refine Keeps.record ?_ rfl

theorem State.readDrift_keeps {z0 : State} (s : State) (o : Nat) (v16 : Int) (hz : Keeps z0 s) : Keeps z0
    (State.readDrift s o v16) := by
  unfold State.readDrift
  repeat' with_reducible first
    | assumption | intro x | apply State.reading_keeps | apply Keeps.ite | split | refine Keeps.record ?_ rfl

theorem State.readFriction_keeps {z0 : State} (s : State) (n : Axis) (hz : Keeps z0 s) : Keeps z0 (State.readFriction
    s n) := by
  unfold State.readFriction
  repeat' with_reducible first
    | assumption | intro x | apply State.drop_keeps | apply State.reading_keeps | apply Keeps.ite | split
    | refine Keeps.record ?_ rfl

theorem outerLoops_keeps {z0 : State} (s : State) (n : Axis) (hold : Nat) (hz : Keeps z0 s) : Keeps z0 (outerLoops s n
    hold) := by
  unfold outerLoops
  repeat' with_reducible first
    | assumption | apply State.setClp_keeps | apply State.wrB_keeps | apply State.trip_keeps | apply Keeps.ite

theorem innerLoop_keeps {z0 : State} (s : State) (n : Axis) (p : Coil) (θ : Int) (g : Gains) (hz : Keeps z0 s) : Keeps
    z0 (innerLoop s n p θ g) := by
  unfold innerLoop
  repeat' with_reducible first
    | assumption | apply State.decide_keeps | apply State.setClp_keeps | apply State.wrB_keeps
    | apply State.setCoil_keeps

theorem runLoop_keeps {z0 : State} (s : State) (n : Axis) (p : Coil) (hold : Nat) (hz : Keeps z0 s) : Keeps z0
    (runLoop s n p hold) := by
  unfold runLoop
  repeat' with_reducible first
    | assumption | apply innerLoop_keeps | apply State.setCoil_keeps

theorem State.setShadow_keeps {z0 : State} (s : State) (h : HalfBridge) (v : Nat) (hz : Keeps z0 s) : Keeps z0
    (State.setShadow s h v) := by
  unfold State.setShadow
  repeat' with_reducible first
    | assumption | apply State.setHb_keeps | apply State.wr_keeps

theorem writeLegs_keeps {z0 : State} (s : State) (n : Axis) (p : Coil) (hz : Keeps z0 s) : Keeps z0 (writeLegs s n p)
    := by
  unfold writeLegs
  repeat' with_reducible first
    | assumption | apply State.draw_keeps | apply State.setShadow_keeps | apply Keeps.ite

theorem identifyLoop_keeps {z0 : State} (s : State) (n : Axis) (p : Coil) (hz : Keeps z0 s) : Keeps z0 (identifyLoop s
    n p) := by
  unfold identifyLoop
  repeat' with_reducible first
    | assumption | intro x | apply State.decide_keeps | apply innerLoop_keeps | apply State.setCoil_keeps
    | apply Keeps.ite | split | refine Keeps.record ?_ rfl

theorem badSample_keeps {z0 : State} (s : State) (n : Axis) (p : Coil) (hz : Keeps z0 s) : Keeps z0 (badSample s n p)
    := by
  unfold badSample
  repeat' with_reducible first
    | assumption | apply State.sqc_keeps | apply State.cnt_keeps | apply State.setCoil_keeps | apply State.setClp_keeps
    | apply State.wr_keeps | apply State.trip_keeps | apply Keeps.ite

theorem coilStep_keeps {z0 : State} (s : State) (p : Coil) (x : Sample) (hz : Keeps z0 s) : Keeps z0 (coilStep s p x)
    := by
  unfold coilStep
  repeat' with_reducible first
    | assumption | apply outerLoops_keeps | apply State.setClp_keeps | apply State.setCoil_keeps
    | apply identifyLoop_keeps | apply runLoop_keeps | apply badSample_keeps | apply State.readLoop_keeps
    | apply writeLegs_keeps | apply Keeps.ite

theorem reloadBoth_keeps {z0 : State} (s : State) (h : HalfBridge) (hz : Keeps z0 s) : Keeps z0 (reloadBoth s h) := by
  unfold reloadBoth
  repeat' with_reducible first
    | assumption | apply State.wr_keeps | apply State.setHb_keeps | apply State.sqc_keeps | apply State.trip_keeps
    | apply Keeps.ite

theorem takeShadow_keeps {z0 : State} (s : State) (h : HalfBridge) (hz : Keeps z0 s) : Keeps z0 (takeShadow s h) := by
  unfold takeShadow
  repeat' with_reducible first
    | assumption | apply State.wr_keeps | apply State.setHb_keeps | apply Keeps.ite

theorem reloadPulses_keeps {z0 : State} (s : State) (h : HalfBridge) (valley : Bool) (hz : Keeps z0 s) : Keeps z0
    (reloadPulses s h valley) := by
  unfold reloadPulses
  repeat' with_reducible first
    | assumption | intro x | apply State.setHb_keeps | apply State.decide_keeps | apply State.wrB_keeps
    | apply Keeps.ite

theorem State.release_keeps {z0 : State} (s : State) (h : HalfBridge) (hz : Keeps z0 s) : Keeps z0 (State.release s h)
    := by
  unfold State.release
  repeat' with_reducible first
    | assumption | apply State.setHb_keeps

theorem reloadTrip_keeps {z0 : State} (s : State) (h : HalfBridge) (valley : Bool) (hz : Keeps z0 s) : Keeps z0
    (reloadTrip s h valley) := by
  unfold reloadTrip
  repeat' with_reducible first
    | assumption | apply State.trip_keeps | apply State.release_keeps | apply State.setHb_keeps | apply Keeps.ite
    | split | refine Keeps.record ?_ rfl

theorem reloadHolds_keeps {z0 : State} (s : State) (h : HalfBridge) (hz : Keeps z0 s) : Keeps z0 (reloadHolds s h) :=
    by
  unfold reloadHolds
  repeat' with_reducible first
    | assumption | apply State.setHb_keeps

theorem reloadMeas_keeps {z0 : State} (s : State) (h : HalfBridge) (m : HbMeas) (hz : Keeps z0 s) : Keeps z0
    (reloadMeas s h m) := by
  unfold reloadMeas
  repeat' with_reducible first
    | assumption | intro x | apply State.wr_keeps | apply State.readDelay_keeps | apply State.readRds_keeps
    | apply State.readDroop_keeps | split | refine Keeps.record ?_ rfl

theorem reloadHb_keeps {z0 : State} (s : State) (h : HalfBridge) (valley : Bool) (m : HbMeas) (hz : Keeps z0 s) :
    Keeps z0 (reloadHb s h valley m) := by
  unfold reloadHb
  repeat' with_reducible first
    | assumption | apply reloadPulses_keeps | apply reloadBoth_keeps | apply takeShadow_keeps | apply reloadMeas_keeps
    | apply reloadHolds_keeps | apply reloadTrip_keeps

theorem pickSlice_keeps {z0 : State} (s : State) (b : Bank) (e : List (Fin 5)) (until_ : Nat) (hz : Keeps z0 s) :
    Keeps z0 (pickSlice s b e until_).1 := by
  unfold pickSlice
  dsimp only
  split
  · exact hz
  · exact State.setAdc_keeps _ _ _ hz

theorem syncCoil_keeps {z0 : State} (s : State) (p : Coil) (q : Option (Fin 5)) (hold : Nat) (r : Raw) (hz : Keeps z0
    s) : Keeps z0 (syncCoil s p q hold r) := by
  unfold syncCoil
  repeat' with_reducible first
    | assumption | apply State.setReg_keeps | apply State.setCoil_keeps | apply State.setAdc_keeps
    | apply State.sqc_keeps | apply State.draw_keeps | apply Keeps.ite | split

theorem auxStart_keeps {z0 : State} (wins : List Nat) (b : Bank) (lim : Nat) (s : State) (k : Fin 16) (hz : Keeps z0
    s) : Keeps z0 (auxStart wins b lim s k) := by
  unfold auxStart
  repeat' with_reducible first
    | assumption | intro x | apply State.setAdc_keeps | apply pickSlice_keeps | apply Keeps.foldl | split
    | refine Keeps.record ?_ rfl

theorem auxRun_keeps {z0 : State} (s : State) (b : Bank) (lim : Nat) (hz : Keeps z0 s) : Keeps z0 (auxRun s b lim) :=
    by
  unfold auxRun
  repeat' with_reducible first
    | assumption | apply State.drop_keeps | apply auxStart_keeps | apply Keeps.ite | apply Keeps.foldl

theorem auxEntry_keeps {z0 : State} (raws : List (Fin 64 × List Raw)) (s : State) (e : Fin 64) (hz : Keeps z0 s) :
    Keeps z0 (auxEntry raws s e) := by
  unfold auxEntry
  extract_lets b k src put
  have hp : ∀ (t : State) (w : Nat), Keeps z0 t → Keeps z0 (put t w) := fun t w h => State.setReg_keeps h _ _
  clear_value put
  split
  · exact hp _ _ hz
  · split
    · exact hp _ _ hz
    · rename_i x _ _ _ _ _ _ _ _ _ _ _ _ _ _ _
      have hx : Keeps z0 x := by
        unfold x
        split
        · exact hz.trans ⟨rfl, Nat.le_refl _, List.prefix_rfl, Nat.le_add_right _ _, id⟩
        · exact hz
      clear_value x
      exact hp _ _ (State.setAdc_keeps _ _ _ hx)

theorem auxPublish_keeps {z0 : State} (raws : List (Fin 64 × List Raw)) (s : State) (hz : Keeps z0 s) : Keeps z0
    (auxPublish raws s) := by
  unfold auxPublish
  repeat' with_reducible first
    | assumption | intro x | apply each_keeps | apply State.setAdc_keeps | apply auxEntry_keeps | apply Keeps.each
    | apply Keeps.foldl

theorem takeOffsets_keeps {z0 : State} (offs : List (Coil × BitVec 16)) (s : State) (hz : Keeps z0 s) : Keeps z0
    (takeOffsets offs s) := by
  unfold takeOffsets
  repeat' with_reducible first
    | assumption | intro x | apply each_keeps | apply State.setAdc_keeps | apply State.readDrift_keeps | apply Keeps.ite
    | apply Keeps.each | split

theorem latchSlice_keeps {z0 : State} (s : State) (b : Bank) (q : Fin 5) (x : SliceCal) (hz : Keeps z0 s) : Keeps z0
    (latchSlice s b q x) := by
  unfold latchSlice
  repeat' with_reducible first
    | assumption | apply State.wr_keeps | apply State.setAdc_keeps | apply State.readDrift_keeps

theorem failSlice_keeps {z0 : State} (s : State) (b : Bank) (q : Fin 5) (hz : Keeps z0 s) : Keeps z0 (failSlice s b q)
    := by
  unfold failSlice
  repeat' with_reducible first
    | assumption | apply State.wr_keeps | apply State.sqc_keeps | apply State.trip_keeps

theorem endSliceOp_keeps {z0 : State} (s : State) (b : Bank) (hz : Keeps z0 s) : Keeps z0 (endSliceOp s b) := by
  unfold endSliceOp
  repeat' with_reducible first
    | assumption | intro x | apply State.finish_keeps | split

theorem fullBank_keeps {z0 : State} (cals : List (Bank × Fin 5 × SliceCal)) (offs : List (Coil × BitVec 16)) (s :
    State) (b : Bank) (hz : Keeps z0 s) : Keeps z0 (fullBank cals offs s b) := by
  unfold fullBank
  repeat' with_reducible first
    | assumption | intro x | apply each_keeps | apply latchSlice_keeps | apply State.wr_keeps | apply failSlice_keeps
    | apply State.setAdc_keeps | apply State.readDrift_keeps | apply Keeps.ite | apply Keeps.each | apply Keeps.foldl
    | split

theorem State.setAdj_keeps {z0 : State} (s : State) (n : Axis) (u : Int) (x : Int) (hz : Keeps z0 s) : Keeps z0
    (State.setAdj s n u x) := by
  unfold State.setAdj
  repeat' with_reducible first
    | assumption | apply State.wrS64_keeps

theorem State.restartQuad_keeps {z0 : State} (s : State) (n : Axis) (hz : Keeps z0 s) : Keeps z0 (State.restartQuad s
    n) := by
  unfold State.restartQuad
  repeat' with_reducible first
    | assumption | apply State.setFbk_keeps | apply State.setAdj_keeps | apply State.setPlan_keeps
    | apply State.wrS64_keeps | apply State.wr_keeps

theorem State.wordError_keeps {z0 : State} (s : State) (n : Axis) (hz : Keeps z0 s) : Keeps z0 (State.wordError s n)
    := by
  unfold State.wordError
  repeat' with_reducible first
    | assumption | apply State.setFbk_keeps

theorem State.wordTmo_keeps {z0 : State} (s : State) (n : Axis) (hz : Keeps z0 s) : Keeps z0 (State.wordTmo s n) := by
  unfold State.wordTmo
  repeat' with_reducible first
    | assumption | apply State.sqc_keeps | apply State.wordError_keeps

theorem goodWord_keeps {z0 : State} (s : State) (n : Axis) (start : Nat) (w : SerialWord) (hz : Keeps z0 s) : Keeps z0
    (goodWord s n start w) := by
  unfold goodWord
  repeat' with_reducible first
    | assumption | apply State.setFbk_keeps | apply State.wr_keeps | apply State.wrB_keeps | apply Keeps.ite

theorem State.carryOn_keeps {z0 : State} (s : State) (n : Axis) (pos : Int) (hz : Keeps z0 s) : Keeps z0
    (State.carryOn s n pos) := by
  unfold State.carryOn
  repeat' with_reducible first
    | assumption | apply State.wrS64_keeps

theorem latchAxis_keeps {z0 : State} (s : State) (n : Axis) (hz : Keeps z0 s) : Keeps z0 (latchAxis s n) := by
  unfold latchAxis
  repeat' with_reducible first
    | assumption | apply State.sqc_keeps | apply State.wordError_keeps | apply State.wrS64_keeps | apply State.wrS_keeps
    | apply State.setFbk_keeps | apply State.carryOn_keeps | apply State.cnt_keeps | apply State.wrB_keeps
    | apply Keeps.ite | split | refine Keeps.record ?_ rfl

theorem compareAxis_keeps {z0 : State} (s : State) (n : Axis) (t0 : Nat) (hz : Keeps z0 s) : Keeps z0 (compareAxis s n t0) := by
  unfold compareAxis
  extract_lets _ _ _ _ y y1 _ _ y2 _ _ _ _ _ y3 y4 y5 y6 _ y7
  have hy : Keeps z0 y := State.setFbk_keeps _ _ _ hz
  have h1 : Keeps z0 y1 := State.goEnd_keeps _ _ _ (fun _ h => h) hy
  have h2 : Keeps z0 y2 := State.wr_keeps (State.wrS64_keeps h1 _ _) _ _
  have h3 : Keeps z0 y3 := Keeps.each (fun _ _ h => Keeps.each (fun _ _ h => State.eventTo_keeps _ _ _ h) h) hy
  have h4 : Keeps z0 y5 := State.cnt_keeps _ _ _ (State.cntWrap_keeps _ _ _ h3)
  have h5 : Keeps z0 y7 := State.setFbk_keeps _ _ _ (State.wr_keeps (State.sqc_keeps _ _ h4) _ _)
  clear_value y7 y2 y1 y
  exact Keeps.ite (Keeps.ite (State.wr_keeps h1 _ _) (State.wrB_keeps h2 _ _))
    (Keeps.ite (State.wr_keeps hy _ _) (Keeps.ite hy (Keeps.ite hy (Keeps.ite (State.wr_keeps h5 _ _) (State.wrS64_keeps h5 _ _)))))

theorem travelAxis_keeps {z0 : State} (s : State) (n : Axis) (hz : Keeps z0 s) : Keeps z0 (travelAxis s n) := by
  unfold travelAxis
  repeat' with_reducible first
    | assumption | apply State.setPlan_keeps | apply State.detect_keeps | apply Keeps.ite

theorem ss1Axis_keeps {z0 : State} (s : State) (n : Axis) (hz : Keeps z0 s) : Keeps z0 (ss1Axis s n) := by
  unfold ss1Axis
  repeat' with_reducible first
    | assumption | apply State.decide_keeps | apply State.setSs1_keeps | apply State.detect_keeps | apply Keeps.ite
    | split

theorem homedByAbsolute_keeps {z0 : State} (s : State) (n : Axis) (hz : Keeps z0 s) : Keeps z0 (homedByAbsolute s n)
    := by
  unfold homedByAbsolute
  repeat' with_reducible first
    | assumption | apply State.setPlan_keeps | apply Keeps.ite

theorem latchOne_keeps {z0 : State} (t0 : Nat) (s : State) (n : Axis) (hz : Keeps z0 s) : Keeps z0 (latchOne t0 s n)
    := by
  unfold latchOne
  repeat' with_reducible first
    | assumption | apply homedByAbsolute_keeps | apply latchAxis_keeps | apply State.setFbk_keeps
    | apply State.setClp_keeps | apply ss1Axis_keeps | apply travelAxis_keeps | apply compareAxis_keeps
    | apply Keeps.ite

theorem State.rest_keeps {z0 : State} (s : State) (n : Axis) (hz : Keeps z0 s) : Keeps z0 (State.rest s n) := by
  unfold State.rest
  repeat' with_reducible first
    | assumption | apply State.setPlan_keeps | apply Keeps.ite

theorem endOn_keeps {z0 : State} (s : State) (n : Axis) (o : Op) (hz : Keeps z0 s) : Keeps z0 (endOn s n o) := by
  unfold endOn
  repeat' with_reducible first
    | assumption | apply State.deenergise_keeps | apply State.setPlan_keeps | apply State.energise_keeps
    | apply State.rest_keeps | apply Keeps.ite

theorem homedBy_keeps {z0 : State} (s : State) (n : Axis) (o : Op) (hz : Keeps z0 s) : Keeps z0 (homedBy s n o) := by
  unfold homedBy
  repeat' with_reducible first
    | assumption | apply State.setPlan_keeps | apply Keeps.ite

theorem State.keepArmed_keeps {z0 : State} (s : State) (n : Axis) (hz : Keeps z0 s) : Keeps z0 (State.keepArmed s n)
    := by
  unfold State.keepArmed
  repeat' with_reducible first
    | assumption | apply State.setLes_keeps | apply Keeps.ite | split

theorem State.segEnd_keeps {z0 : State} (s : State) (o : Op) (t2 : Nat) (hz : Keeps z0 s) : Keeps z0 (State.segEnd s o
    t2) := by
  unfold State.segEnd
  repeat' with_reducible first
    | assumption | intro x | apply each_keeps | apply State.keepArmed_keeps | apply homedBy_keeps | apply endOn_keeps
    | apply State.finish_keeps | apply Keeps.each

theorem State.endBefore_keeps {z0 : State} (s : State) (n : Axis) (tag t : Nat) (hz : Keeps z0 s) : Keeps z0
    (State.endBefore s n tag t) := by
  unfold State.endBefore
  repeat' with_reducible first
    | assumption | apply State.segEnd_keeps | apply Keeps.ite | split

theorem State.assignHome_keeps {z0 : State} (s : State) (n : Axis) (x : Rat) (pos : Int) (hz : Keeps z0 s) : Keeps z0
    (State.assignHome s n x pos) := by
  unfold State.assignHome
  repeat' with_reducible first
    | assumption | intro x | apply State.wrS64_keeps | apply State.setFbk_keeps | apply State.setLes_keeps
    | apply State.setClp_keeps | apply State.setPlan_keeps | apply Keeps.ite

theorem State.setSeg_keeps {z0 : State} (s : State) (n : Axis) (tag : Nat) (f : Seg → Seg) (hz : Keeps z0 s) : Keeps
    z0 (State.setSeg s n tag f) := by
  unfold State.setSeg
  repeat' with_reducible first
    | assumption | intro x | apply State.setPlan_keeps

theorem startOn_keeps {z0 : State} (s : State) (n : Axis) (g : Seg) (hz : Keeps z0 s) : Keeps z0 (startOn s n g) := by
  unfold startOn
  repeat' with_reducible first
    | assumption | intro x | apply State.energise_keeps | apply State.setLes_keeps | apply State.setSeg_keeps
    | apply State.setPlan_keeps | apply State.assignHome_keeps | apply State.setFbk_keeps | apply Keeps.ite

theorem State.cancelStart_keeps {z0 : State} (s : State) (n : Axis) (src : Nat) (hz : Keeps z0 s) : Keeps z0
    (State.cancelStart s n src) := by
  unfold State.cancelStart
  repeat' with_reducible first
    | assumption | apply State.cancelQueued_keeps | apply State.setPlan_keeps | apply Keeps.ite

theorem State.homeFound_keeps {z0 : State} (s : State) (n : Axis) (g : Seg) (x : Rat) (hz : Keeps z0 s) : Keeps z0
    (State.homeFound s n g x) := by
  unfold State.homeFound
  repeat' with_reducible first
    | assumption | intro x | apply State.assignHome_keeps | apply State.setSeg_keeps | apply State.setPlan_keeps
    | apply State.setFbk_keeps | apply State.setOp_keeps | apply Keeps.ite | split | refine Keeps.record ?_ rfl

theorem State.ptmLose_keeps {z0 : State} (s : State) (hz : Keeps z0 s) : Keeps z0 (State.ptmLose s) := by
  unfold State.ptmLose
  repeat' with_reducible first
    | assumption | intro x | apply State.wr_keeps | apply State.sqc_keeps | apply State.trip_keeps
    | apply State.devEvent_keeps | apply Keeps.ite | split | refine Keeps.record ?_ rfl

theorem ptmTune_keeps {z0 : State} (s : State) (o : Int) (hz : Keeps z0 s) : Keeps z0 (ptmTune s o) := by
  unfold ptmTune
  repeat' with_reducible first
    | assumption | apply State.wrS_keeps | refine Keeps.record ?_ rfl

theorem ptmSteer_keeps {z0 : State} (s : State) (o : Int) (hz : Keeps z0 s) : Keeps z0 (ptmSteer s o) := by
  unfold ptmSteer
  repeat' with_reducible first
    | assumption | intro x | apply ptmTune_keeps | apply State.post_keeps | apply State.wrS_keeps | apply Keeps.ite
    | split | refine Keeps.record ?_ rfl

theorem State.syncLose_keeps {z0 : State} (s : State) (hz : Keeps z0 s) : Keeps z0 (State.syncLose s) := by
  unfold State.syncLose
  repeat' with_reducible first
    | assumption | apply State.wr_keeps | apply State.sqc_keeps | apply State.trip_keeps | apply State.devEvent_keeps
    | apply Keeps.ite | split | refine Keeps.record ?_ rfl

theorem State.syncUse_keeps {z0 : State} (s : State) (t n : Nat) (e : Int) (mismatch : Bool) (hz : Keeps z0 s) : Keeps
    z0 (State.syncUse s t n e mismatch) := by
  unfold State.syncUse
  repeat' with_reducible first
    | assumption | apply State.wrS_keeps | apply State.wr_keeps | apply State.devEvent_keeps | apply Keeps.ite | split
    | refine Keeps.record ?_ rfl

theorem State.syncTick_keeps {z0 : State} (s : State) (hz : Keeps z0 s) : Keeps z0 (State.syncTick s) := by
  unfold State.syncTick
  repeat' with_reducible first
    | assumption | apply Keeps.ite | split | refine Keeps.record ?_ rfl

theorem State.syncRises_keeps {z0 : State} (s : State) (hz : Keeps z0 s) : Keeps z0 (State.syncRises s) := by
  unfold State.syncRises
  repeat' with_reducible first
    | assumption | apply Keeps.ite | split | refine Keeps.record ?_ rfl

theorem State.syncMoved_keeps {z0 : State} (s : State) (hz : Keeps z0 s) : Keeps z0 (State.syncMoved s) := by
  unfold State.syncMoved
  repeat' with_reducible first
    | assumption | apply State.syncRises_keeps | apply State.wr_keeps | apply State.sqc_keeps | apply Keeps.ite | split
    | refine Keeps.record ?_ rfl

theorem giveSetpoint_keeps {z0 : State} (s : State) (n : Axis) (hz : Keeps z0 s) : Keeps z0 (giveSetpoint s n) := by
  unfold giveSetpoint
  repeat' with_reducible first
    | assumption | apply State.addPart_keeps | apply State.setClp_keeps | apply State.setPlan_keeps | apply Keeps.ite

theorem followStep_keeps {z0 : State} (s : State) (n : Axis) (hz : Keeps z0 s) : Keeps z0 (followStep s n) := by
  unfold followStep
  repeat' with_reducible first
    | assumption | intro x | apply State.decide_keeps | apply State.setPlan_keeps | apply State.draw_keeps
    | apply State.detect_keeps | apply Keeps.ite | split

theorem reference_keeps {z0 : State} (missed : List Bank) (s : State) (b : Bank) (hz : Keeps z0 s) : Keeps z0
    (reference missed s b) := by
  unfold reference
  repeat' with_reducible first
    | assumption | apply State.setBank_keeps | apply State.detect_keeps | apply each_keeps | apply followStep_keeps
    | apply Keeps.ite | apply Keeps.each

theorem missBank_keeps {z0 : State} (s : State) (b : Bank) (hz : Keeps z0 s) : Keeps z0 (missBank s b) := by
  unfold missBank
  repeat' with_reducible first
    | assumption | intro x | apply each_keeps | apply State.setPlan_keeps | apply State.setClp_keeps | apply Keeps.ite
    | apply Keeps.each

theorem handOver_keeps {z0 : State} (s : State) (b : Bank) (hz : Keeps z0 s) : Keeps z0 (handOver s b) := by
  unfold handOver
  repeat' with_reducible first
    | assumption | apply missBank_keeps | apply each_keeps | apply giveSetpoint_keeps | apply Keeps.ite
    | apply Keeps.each

theorem beginDue_keeps {z0 : State} (s : State) (n : Axis) (hz : Keeps z0 s) : Keeps z0 (beginDue s n) := by
  unfold beginDue
  repeat' with_reducible first
    | assumption | apply State.setSs1_keeps | apply State.beginLeave_keeps | apply Keeps.ite | split

theorem State.issueBlock_keeps {z0 : State} (s : State) (i : Fin 8) (hz : Keeps z0 s) : Keeps z0 (State.issueBlock s
    i) := by
  unfold State.issueBlock
  repeat' with_reducible first
    | assumption | intro x | apply State.setStream_keeps | apply State.dropBlock_keeps | apply State.draw_keeps
    | apply each_keeps | apply State.emit_keeps | apply State.wr_keeps | apply Keeps.ite | apply Keeps.each | split
    | refine Keeps.record ?_ rfl

theorem streamTick_keeps {z0 : State} (s : State) (i : Fin 8) (hz : Keeps z0 s) : Keeps z0 (streamTick s i) := by
  unfold streamTick
  repeat' with_reducible first
    | assumption | apply State.issueBlock_keeps | apply State.setStream_keeps | apply Keeps.ite

theorem bankTick_keeps {z0 : State} (s : State) (b : Bank) (hz : Keeps z0 s) : Keeps z0 (bankTick s b) := by
  unfold bankTick
  repeat' with_reducible first
    | assumption | intro x | apply State.cnt_keeps | apply State.setGdr_keeps | apply State.inactive_keeps
    | apply each_keeps | apply State.setHb_keeps | apply Keeps.ite | apply Keeps.each

theorem halfFinds_keeps {z0 : State} (missed : List Bank) (s : State) (hz : Keeps z0 s) : Keeps z0 (halfFinds missed s) :=
  State.finding_keeps _ _ (fun _ h => Keeps.each (fun _ _ h => reference_keeps _ _ _ h)
    (Keeps.each (fun _ _ h => State.readFriction_keeps _ _ (lesHandoff_keeps _ _ h)) h)) hz

theorem State.clpTick_keeps {z0 : State} (s : State) (n : Axis) (hz : Keeps z0 s) : Keeps z0 (State.clpTick s n) := by
  unfold State.clpTick
  repeat' with_reducible first
    | assumption | apply State.wr_keeps | apply State.setClp_keeps | apply Keeps.ite

theorem halfWork_keeps {z0 : State} (missed : List Bank) (s : State) (hz : Keeps z0 s) : Keeps z0 (halfWork missed s) := by
  unfold halfWork
  refine State.arranged_keeps _ hz ?_
  repeat' with_reducible first
    | apply Keeps.each
    | intro x
    | apply bankTick_keeps
    | apply streamTick_keeps
    | apply State.curtSettle_keeps
    | apply handOver_keeps
    | apply beginDue_keeps
    | apply State.clpTick_keeps
    | apply halfFinds_keeps
    | assumption
    | exact Keeps.refl _

theorem calSlice_keeps {z0 : State} (s : State) (o : Op) (hz : Keeps z0 s) : Keeps z0 (calSlice s o) := by
  unfold calSlice
  repeat' with_reducible first
    | assumption | intro x | apply State.setOp_keeps | apply State.setAdc_keeps | apply State.finish_keeps
    | apply State.wr_keeps | apply Keeps.ite | split

theorem calStart_keeps {z0 : State} (s : State) (o : Op) (hz : Keeps z0 s) : Keeps z0 (calStart s o) := by
  unfold calStart
  repeat' with_reducible first
    | assumption | intro x | apply calSlice_keeps | apply State.decide_keeps | apply State.deenergise_keeps
    | apply each_keeps | apply State.setAdc_keeps | apply State.setOp_keeps | apply State.energise_keeps
    | apply Keeps.ite | apply Keeps.each

theorem snapCtx_keeps {z0 : State} (s : State) (k : Ctx) (hz : Keeps z0 s) : Keeps z0 (snapCtx s k) := by
  unfold snapCtx
  repeat' with_reducible first
    | assumption | apply State.wr_keeps | apply State.setCtx_keeps

theorem portTick_keeps {z0 : State} (s : State) (p : Port) (hz : Keeps z0 s) : Keeps z0 (portTick s p) := by
  unfold portTick
  repeat' with_reducible first
    | assumption | apply State.setPort_keeps | apply State.readHost_keeps | apply Keeps.ite

theorem countMinutes_keeps {z0 : State} (s : State) (hz : Keeps z0 s) : Keeps z0 (countMinutes s) := by
  unfold countMinutes
  repeat' with_reducible first
    | assumption | intro x | apply State.addPart_keeps | apply each_keeps | apply Keeps.ite | apply Keeps.each | split
    | refine Keeps.record ?_ rfl

theorem State.gdrStat_keeps {z0 : State} (s : State) (b : Bank) (f : Fld) (h : HalfBridge) (hz : Keeps z0 s) : Keeps
    z0 (State.gdrStat s b f h) := by
  unfold State.gdrStat
  repeat' with_reducible first
    | assumption | apply State.sqc_keeps | apply State.wr_keeps

theorem coilTrip_keeps {z0 : State} (s : State) (p : Coil) (f : Nat → Fld) (i : Nat) (hz : Keeps z0 s) : Keeps z0
    (coilTrip s p f i) := by
  unfold coilTrip
  repeat' with_reducible first
    | assumption | apply State.tripHb_keeps | apply State.gdrStat_keeps | apply State.trip_keeps

theorem hbTrip_keeps {z0 : State} (s : State) (h : HalfBridge) (f : Nat → Fld) (i : Nat) (hz : Keeps z0 s) : Keeps z0
    (hbTrip s h f i) := by
  unfold hbTrip
  repeat' with_reducible first
    | assumption | apply State.tripHb_keeps | apply State.gdrStat_keeps | apply State.trip_keeps

theorem State.setIn_keeps {z0 : State} (s : State) (b : Bank) (second v : Bool) (hz : Keeps z0 s) : Keeps z0
    (State.setIn s b second v) := by
  unfold State.setIn
  repeat' with_reducible first
    | assumption | apply State.setGdr_keeps | apply Keeps.ite

theorem brakeOff_keeps {z0 : State} (s : State) (b : Bank) (hz : Keeps z0 s) : Keeps z0 (brakeOff s b) := by
  unfold brakeOff
  repeat' with_reducible first
    | assumption | apply State.wr_keeps | apply State.setGdr_keeps | apply State.inactive_keeps

theorem brakeSample_keeps {z0 : State} (s : State) (b : Bank) (old code : Nat) (hz : Keeps z0 s) : Keeps z0
    (brakeSample s b old code) := by
  unfold brakeSample
  repeat' with_reducible first
    | assumption | intro x | apply State.wr_keeps | apply State.cnt_keeps | apply State.addCounter_keeps
    | apply State.setGdr_keeps | apply brakeOff_keeps | apply Keeps.ite | split | refine Keeps.record ?_ rfl

theorem esrSample_keeps {z0 : State} (s : State) (b : Bank) (code : Nat) (hz : Keeps z0 s) : Keeps z0 (esrSample s b
    code) := by
  unfold esrSample
  repeat' with_reducible first
    | assumption | intro x | apply State.rest_keeps | apply State.reading_keeps | apply Keeps.ite | apply Keeps.foldl
    | split | refine Keeps.record ?_ rfl

theorem supplySources_keeps {z0 : State} (s : State) (b : Bank) (code : Nat) (hz : Keeps z0 s) : Keeps z0
    (supplySources s b code) := by
  unfold supplySources
  repeat' with_reducible first
    | assumption | apply State.setGdr_keeps | apply State.inactive_keeps | apply State.sqc_keeps
    | apply State.trip_keeps | apply Keeps.ite

theorem State.gatesReturn_keeps {z0 : State} (s : State) (hz : Keeps z0 s) : Keeps z0 (State.gatesReturn s) := by
  unfold State.gatesReturn
  repeat' with_reducible first
    | assumption | apply State.wr_keeps | apply Keeps.ite

theorem State.stoLevels_keeps {z0 : State} (s : State) (a b : Bool) (hz : Keeps z0 s) : Keeps z0 (State.stoLevels s a
    b) := by
  unfold State.stoLevels
  repeat' with_reducible first
    | assumption | apply State.wrB_keeps | apply Keeps.ite | split | refine Keeps.record ?_ rfl

theorem State.stoPermit_keeps {z0 : State} (s : State) (which : Fin 3) (hz : Keeps z0 s) : Keeps z0 (State.stoPermit s
    which) := by
  unfold State.stoPermit
  repeat' with_reducible first
    | assumption | apply State.stoLevels_keeps | apply State.inactive_keeps | apply Keeps.ite

end Sys2Proof.Machine
end

