-- ==== Sys2Proof/Laws/KeepsBlock.lean ====
section
/-! SUPPORT. Keeps through accesses, clocks, power and the lifecycle: one lemma for each. -/

namespace Sys2Proof.Machine

theorem State.accFault_keeps {z0 : State} (s : State) (p : Port) (f : Fld) (addr : Nat) (hz : Keeps z0 s) : Keeps z0
    (State.accFault s p f addr) := by
  unfold State.accFault
  repeat' with_reducible first
    | assumption | apply State.sqc_keeps | apply State.setReg_keeps

theorem spaceRead_keeps {z0 : State} (s : State) (p : Port) (off : Nat) (hz : Keeps z0 s) : Keeps z0 (spaceRead s p
    off).1 := by
  unfold spaceRead
  repeat' with_reducible first
    | assumption | apply State.accFault_keeps | apply Keeps.ite | split

theorem hostRead_keeps {z0 : State} (s : State) (p : Port) (off : Nat) (hz : Keeps z0 s) : Keeps z0 (hostRead s p
    off).1 := by
  unfold hostRead
  repeat' with_reducible first
    | assumption | apply spaceRead_keeps | apply State.sqc_keeps | apply Keeps.ite | split

theorem indRead_keeps {z0 : State} (s : State) (p : Port) (a : Nat) (hz : Keeps z0 s) : Keeps z0 (indRead s p a).1 :=
    by
  unfold indRead
  repeat' with_reducible first
    | assumption | apply spaceRead_keeps | apply State.accFault_keeps | apply Keeps.ite | split

theorem State.noteLate_keeps {z0 : State} (s : State) (off m : Nat) (hz : Keeps z0 s) : Keeps z0 (State.noteLate s off
    m) := by
  unfold State.noteLate
  repeat' with_reducible first
    | assumption | intro x | refine Keeps.record ?_ rfl

theorem State.bufWrite_keeps {z0 : State} (s : State) (r : Row) (off m : Nat) (w : Word) (hz : Keeps z0 s) : Keeps z0
    (State.bufWrite s r off m w) := by
  unfold State.bufWrite
  repeat' with_reducible first
    | assumption | apply State.noteLate_keeps | apply State.setBuf_keeps | apply State.setDirty_keeps | apply Keeps.ite

theorem State.noteWrite_keeps {z0 : State} (s : State) (o go : Nat) (hz : Keeps z0 s) : Keeps z0 (State.noteWrite s o
    go) := by
  unfold State.noteWrite
  repeat' with_reducible first
    | assumption | intro x | apply Keeps.ite | split | refine Keeps.record ?_ rfl

theorem State.typeWrite_keeps {z0 : State} (s : State) (r : Row) (o off m be : Nat) (w : Word) (hz : Keeps z0 s) :
    Keeps z0 (State.typeWrite s r o off m be w) := by
  unfold State.typeWrite
  repeat' with_reducible first
    | assumption | intro x | apply State.sqc_keeps | apply State.noteWrite_keeps | apply State.setReg_keeps
    | apply each_keeps | apply State.cntWrite_keeps | apply State.bufWrite_keeps | apply Keeps.ite | apply Keeps.each

theorem State.landWrite_keeps {z0 : State} (s : State) (on : Bool) (r : Row) (o off m be : Nat) (w : Word) (hz : Keeps
    z0 s) : Keeps z0 (State.landWrite s on r o off m be w) := by
  unfold State.landWrite
  repeat' with_reducible first
    | assumption | apply State.typeWrite_keeps | apply State.bufWrite_keeps | apply Keeps.ite

theorem State.pairWrite_keeps {z0 : State} (s : State) (on : Bool) (r : Row) (o off m be : Nat) (w : Word) (hz : Keeps
    z0 s) : Keeps z0 (State.pairWrite s on r o off m be w) := by
  unfold State.pairWrite
  repeat' with_reducible first
    | assumption | apply State.landWrite_keeps | apply Keeps.ite | split | refine Keeps.record ?_ rfl

theorem State.overlay_keeps {z0 : State} (s : State) (m : Nat) (hz : Keeps z0 s) : Keeps z0 (State.overlay s m) := by
  unfold State.overlay
  repeat' with_reducible first
    | assumption | intro x | apply each_keeps | apply State.setReg_keeps | apply Keeps.each

theorem State.applyGroups_keeps {z0 : State} (s : State) (m : Nat) (hz : Keeps z0 s) : Keeps z0 (State.applyGroups s m) :=
  Keeps.clean (State.overlay_keeps s m hz) hz _

theorem State.discard_keeps {z0 : State} (s : State) (m : Nat) (hz : Keeps z0 s) : Keeps z0 (State.discard s m) :=
  Keeps.clean (Keeps.each (fun _ _ h => State.setBuf_keeps (State.noteLate_keeps _ _ _ h) _ _) hz) hz _

theorem State.boundary_keeps {z0 : State} (f : State → State) (s : State) (hf : ∀ s, Keeps z0 s → Keeps z0 (f s))
    (hz : Keeps z0 s) : Keeps z0 (State.boundary f s) := by
  unfold State.boundary
  extract_lets late t u
  have ht : Keeps z0 t :=
    hf _ (Keeps.each (fun _ _ h => State.setDirty_keeps (State.setBuf_keeps h _ _) _ _) hz)
  clear_value t
  have hu : Keeps z0 u :=
    Keeps.each (fun _ _ h => Keeps.ite h (State.setDirty_keeps (State.setBuf_keeps h _ _) _ _)) ht
  clear_value u
  with_reducible exact Keeps.record hu rfl

theorem State.enterHeld_keeps {z0 : State} (s : State) (cause src : Nat) (hz : Keeps z0 s) : Keeps z0 (State.enterHeld
    s cause src) := by
  unfold State.enterHeld
  repeat' with_reducible first
    | assumption | intro x | apply State.wr_keeps | apply each_keeps | apply State.softStart_keeps
    | apply State.turnOff_keeps | apply State.fcsStat_keeps | apply State.flushHeld_keeps | apply Keeps.ite
    | apply Keeps.each | split | refine Keeps.record ?_ rfl

theorem State.toRef_keeps {z0 : State} (s : State) (t : Nat) (hz : Keeps z0 s) : Keeps z0 (State.toRef s t) := by
  unfold State.toRef
  repeat' with_reducible first
    | assumption | apply State.sqc_keeps | apply State.wr_keeps | apply Keeps.ite | split | refine Keeps.record ?_ rfl

theorem State.switchTo_keeps {z0 : State} (s : State) (t : Nat) (stopped : Bool) (hz : Keeps z0 s) : Keeps z0
    (State.switchTo s t stopped) := by
  unfold State.switchTo
  repeat' with_reducible first
    | assumption | apply State.toRef_keeps | apply Keeps.ite | split | refine Keeps.record ?_ rfl

theorem State.holdover_keeps {z0 : State} (s : State) (stopped : Bool) (hz : Keeps z0 s) : Keeps z0 (State.holdover s
    stopped) := by
  unfold State.holdover
  repeat' with_reducible first
    | assumption | apply State.wr_keeps | apply State.switchTo_keeps | apply State.trip_keeps
    | refine Keeps.record ?_ rfl

theorem State.refFailed_keeps {z0 : State} (s : State) (stopped : Bool) (hz : Keeps z0 s) : Keeps z0 (State.refFailed
    s stopped) := by
  unfold State.refFailed
  repeat' with_reducible first
    | assumption | apply State.holdover_keeps | apply State.switchTo_keeps | apply Keeps.ite | split
    | refine Keeps.record ?_ rfl

theorem State.srcFailed_keeps {z0 : State} (s : State) (src : Nat) (stopped : Bool) (hz : Keeps z0 s) : Keeps z0
    (State.srcFailed s src stopped) := by
  unfold State.srcFailed
  repeat' with_reducible first
    | assumption | apply State.wr_keeps | apply State.refFailed_keeps | apply Keeps.ite | split
    | refine Keeps.record ?_ rfl

theorem State.recUpdate_keeps {z0 : State} (s : State) (hz : Keeps z0 s) : Keeps z0 (State.recUpdate s) := by
  unfold State.recUpdate
  repeat' with_reducible first
    | assumption | intro x | apply State.wr_keeps | apply Keeps.ite | split | refine Keeps.record ?_ rfl

theorem State.srcValid_keeps {z0 : State} (s : State) (src : Nat) (hz : Keeps z0 s) : Keeps z0 (State.srcValid s src)
    := by
  unfold State.srcValid
  repeat' with_reducible first
    | assumption | apply State.wr_keeps | apply State.inactive_keeps | apply State.toRef_keeps
    | apply State.switchTo_keeps | apply Keeps.ite | split | refine Keeps.record ?_ rfl

theorem State.xoStart_keeps {z0 : State} (s : State) (hz : Keeps z0 s) : Keeps z0 (State.xoStart s) := by
  unfold State.xoStart
  repeat' with_reducible first
    | assumption | apply State.wr_keeps | refine Keeps.record ?_ rfl

theorem State.xoRestart_keeps {z0 : State} (s : State) (hz : Keeps z0 s) : Keeps z0 (State.xoRestart s) := by
  unfold State.xoRestart
  repeat' with_reducible first
    | assumption | apply State.wr_keeps | apply State.xoStart_keeps | apply Keeps.ite

theorem State.rewrite_keeps {z0 : State} (s : State) (h : Held) (hz : Keeps z0 s) : Keeps z0 (State.rewrite s h) := by
  unfold State.rewrite
  repeat' with_reducible first
    | assumption | intro x | apply State.drop_keeps | apply State.complete_keeps | apply State.wr_keeps
    | apply State.place_keeps | apply State.dropEvent_keeps | apply Keeps.ite | split

theorem State.restartRings_keeps {z0 : State} (s : State) (k : Ctx) (hz : Keeps z0 s) : Keeps z0 (State.restartRings s
    k) := by
  unfold State.restartRings
  repeat' with_reducible first
    | assumption | intro x | apply State.wr_keeps | apply State.setCtx_keeps | apply each_keeps
    | apply State.rewrite_keeps | apply Keeps.each | refine Keeps.record ?_ rfl

theorem State.sendPending_keeps {z0 : State} (s : State) (p : Port) (k : Ctx) (hz : Keeps z0 s) : Keeps z0
    (State.sendPending s p k) := by
  unfold State.sendPending
  repeat' with_reducible first
    | assumption | apply State.wr_keeps | apply State.message_keeps | apply Keeps.ite

theorem State.fetchStop_keeps {z0 : State} (s : State) (p : Port) (hz : Keeps z0 s) : Keeps z0 (State.fetchStop s p)
    := by
  unfold State.fetchStop
  repeat' with_reducible first
    | assumption | intro x | apply State.setPort_keeps | apply each_keeps | apply State.setCtx_keeps
    | apply State.fetchEnd_keeps | apply Keeps.each

theorem State.reHold_keeps {z0 : State} (s : State) (p : Port) (n : Nat) (hz : Keeps z0 s) : Keeps z0 (State.reHold s
    p n) := by
  unfold State.reHold
  repeat' with_reducible first
    | assumption | intro x | apply State.setPort_keeps | apply each_keeps | apply State.dropEvent_keeps
    | apply State.dropBlock_keeps | apply State.wr_keeps | apply Keeps.each | split

theorem State.linkLost_keeps {z0 : State} (s : State) (p : Port) (n : Nat) (hz : Keeps z0 s) : Keeps z0
    (State.linkLost s p n) := by
  unfold State.linkLost
  repeat' with_reducible first
    | assumption | apply State.reHold_keeps | apply State.wr_keeps | apply State.sqc_keeps | apply State.setPort_keeps
    | apply State.fetchStop_keeps | apply State.recUpdate_keeps | apply State.trip_keeps | apply State.ptmLose_keeps
    | apply Keeps.ite

theorem State.clearPort_keeps {z0 : State} (s : State) (p : Port) (hz : Keeps z0 s) : Keeps z0 (State.clearPort s p)
    := by
  unfold State.clearPort
  repeat' with_reducible first
    | assumption | intro x | apply State.resetRegs_keeps

theorem State.setUp_keeps {z0 : State} (s : State) (p : Port) (c : PortCfg) (hz : Keeps z0 s) : Keeps z0 (State.setUp
    s p c) := by
  unfold State.setUp
  repeat' with_reducible first
    | assumption | apply State.setPort_keeps

theorem State.sendPendings_keeps {z0 : State} (s : State) (p : Port) (hz : Keeps z0 s) : Keeps z0 (State.sendPendings
    s p) := by
  unfold State.sendPendings
  repeat' with_reducible first
    | assumption | intro x | apply each_keeps | apply State.sendPending_keeps | apply Keeps.each

theorem State.moveOwner_keeps {z0 : State} (s : State) (hz : Keeps z0 s) : Keeps z0 (State.moveOwner s) := by
  unfold State.moveOwner
  repeat' with_reducible first
    | assumption | apply State.wr_keeps | apply State.restartRings_keeps | apply State.devEvent_keeps

theorem ownership_keeps {z0 : State} (s : State) (hz : Keeps z0 s) : Keeps z0 (ownership s) := by
  unfold ownership
  repeat' with_reducible first
    | assumption | apply State.drop_keeps | apply State.goDone_keeps | apply State.sqc_keeps
    | apply State.moveOwner_keeps | apply Keeps.ite

theorem haltRefused_keeps {z0 : State} (s : State) (reason : Nat) (hz : Keeps z0 s) : Keeps z0 (haltRefused s reason)
    := by
  unfold haltRefused
  repeat' with_reducible first
    | assumption | apply State.sqc_keeps | apply State.wr_keeps

theorem State.debugResume_keeps {z0 : State} (s : State) (hz : Keeps z0 s) : Keeps z0 (State.debugResume s) := by
  unfold State.debugResume
  repeat' with_reducible first
    | assumption | intro x | apply State.wr_keeps | apply each_keeps | apply State.setHb_keeps | apply State.trip_keeps
    | apply State.setCoil_keeps | apply State.setClp_keeps | apply Keeps.ite | apply Keeps.each

theorem State.clearDom_keeps {z0 : State} (s : State) (d : Nat) (hz : Keeps z0 s) : Keeps z0 (State.clearDom s d) :=
    by
  unfold State.clearDom
  repeat' with_reducible first
    | assumption | intro x | apply State.setGdr_keeps | apply each_keeps | apply State.setCoil_keeps
    | apply State.setClp_keeps | apply State.setFbk_keeps | apply State.setHb_keeps | apply State.setAdc_keeps
    | apply Keeps.ite | apply Keeps.each | split | refine Keeps.record ?_ rfl

theorem State.unpowerPort_keeps {z0 : State} (s : State) (p : Port) (hz : Keeps z0 s) : Keeps z0 (State.unpowerPort s
    p) := by
  unfold State.unpowerPort
  repeat' with_reducible first
    | assumption | apply State.setPort_keeps | apply State.fetchStop_keeps | apply State.ptmLose_keeps | apply Keeps.ite

theorem State.dropDomain_keeps {z0 : State} (s : State) (d : Nat) (hz : Keeps z0 s) : Keeps z0 (State.dropDomain s d)
    := by
  unfold State.dropDomain
  repeat' with_reducible first
    | assumption | intro x | apply State.unpowerPort_keeps | apply State.dropRegs_keeps | apply State.clearDom_keeps
    | apply State.wr_keeps | apply State.recUpdate_keeps | apply Keeps.ite | split | refine Keeps.record ?_ rfl

theorem State.raise_keeps {z0 : State} (s : State) (d clk : Nat) (hz : Keeps z0 s) : Keeps z0 (State.raise s d clk) :=
    by
  unfold State.raise
  repeat' with_reducible first
    | assumption | intro x | apply Keeps.ite | split | refine Keeps.record ?_ rfl

theorem State.setPg_keeps {z0 : State} (s : State) (d : Nat) (hz : Keeps z0 s) : Keeps z0 (State.setPg s d) := by
  unfold State.setPg
  repeat' with_reducible first
    | assumption | apply State.wr_keeps | apply Keeps.ite

theorem requestOff_keeps {z0 : State} (s : State) (d : Nat) (hz : Keeps z0 s) : Keeps z0 (requestOff s d) := by
  unfold requestOff
  repeat' with_reducible first
    | assumption | apply State.wr_keeps | apply State.setBuf_keeps | apply State.sqc_keeps
    | apply State.dropDomain_keeps | apply Keeps.ite

theorem requestOn_keeps {z0 : State} (s : State) (d : Nat) (hz : Keeps z0 s) : Keeps z0 (requestOn s d) := by
  unfold requestOn
  repeat' with_reducible first
    | assumption | apply State.raise_keeps | apply Keeps.ite

theorem State.fallowSwitch_keeps {z0 : State} (s : State) (st : Nat) (hz : Keeps z0 s) : Keeps z0 (State.fallowSwitch
    s st) := by
  unfold State.fallowSwitch
  repeat' with_reducible first
    | assumption | intro x | apply each_keeps | apply State.dropDomain_keeps | apply State.wr_keeps
    | apply State.fcsStat_keeps | apply Keeps.ite | apply Keeps.each | split | refine Keeps.record ?_ rfl

theorem State.fallowBegin_keeps {z0 : State} (s : State) (st : Nat) (snap : State → State)
    (hs : ∀ s, Keeps z0 s → Keeps z0 (snap s)) (hz : Keeps z0 s) : Keeps z0 (State.fallowBegin s st snap) := by
  unfold State.fallowBegin
  extract_lets _ x y z
  have hx : Keeps z0 x := by unfold x; with_reducible exact Keeps.record hz rfl
  clear_value x
  have hy : Keeps z0 y := Keeps.ite (State.switchTo_keeps _ _ _ hx) hx
  clear_value y
  have hv : Keeps z0 z := Keeps.ite (hs _ (State.ledPush_keeps _ _ _ _ hy)) hy
  clear_value z
  exact Keeps.ite (State.fallowSwitch_keeps _ _ hv) hv

theorem State.idleReached_keeps {z0 : State} (s : State) (hz : Keeps z0 s) : Keeps z0 (State.idleReached s) := by
  unfold State.idleReached
  repeat' with_reducible first
    | assumption | apply State.wr_keeps | apply Keeps.ite | split | refine Keeps.record ?_ rfl

theorem curtailOne_keeps {z0 : State} (s : State) (n : Axis) (mA : Nat) (hz : Keeps z0 s) : Keeps z0 (curtailOne s n
    mA) := by
  unfold curtailOne
  repeat' with_reducible first
    | assumption | apply State.reach_keeps | apply State.setPlan_keeps | apply State.setBank_keeps | apply Keeps.ite
    | split

theorem curtailOff_keeps {z0 : State} (s : State) (n : Axis) (hz : Keeps z0 s) : Keeps z0 (curtailOff s n) := by
  unfold curtailOff
  repeat' with_reducible first
    | assumption | intro x | apply State.setPlan_keeps | apply State.setSs1_keeps | apply Keeps.ite | split

theorem State.curtail_keeps {z0 : State} (s : State) (b : Bank) (mA : Nat) (hz : Keeps z0 s) : Keeps z0 (State.curtail
    s b mA) := by
  unfold State.curtail
  repeat' with_reducible first
    | assumption | intro x | apply State.draw_keeps | apply State.wr_keeps | apply State.sqc_keeps
    | apply State.cnt_keeps | apply State.bankEvent_keeps | apply each_keeps | apply curtailOne_keeps
    | apply curtailOff_keeps | apply State.curtSettle_keeps | apply Keeps.ite | apply Keeps.each

theorem State.setBudget_keeps {z0 : State} (s : State) (b : Bank) (mA : Nat) (hz : Keeps z0 s) : Keeps z0
    (State.setBudget s b mA) := by
  unfold State.setBudget
  repeat' with_reducible first
    | assumption | apply State.wr_keeps | apply State.setBank_keeps | apply State.curtSettle_keeps
    | apply State.curtail_keeps | apply Keeps.ite

theorem State.reHand_keeps {z0 : State} (s : State) (hz : Keeps z0 s) : Keeps z0 (State.reHand s) := by
  unfold State.reHand
  repeat' with_reducible first
    | assumption | intro x | apply each_keeps | apply giveSetpoint_keeps | apply Keeps.ite | apply Keeps.each

theorem afterHif_keeps {z0 : State} (s0 s : State) (hz : Keeps z0 s) : Keeps z0 (afterHif s0 s) := by
  unfold afterHif
  repeat' with_reducible first
    | assumption | intro x | apply each_keeps | apply State.restartRings_keeps | apply Keeps.ite | apply Keeps.each

theorem afterCkg_keeps {z0 : State} (s0 s : State) (hz : Keeps z0 s) : Keeps z0 (afterCkg s0 s) := by
  unfold afterCkg
  repeat' with_reducible first
    | assumption | apply State.recUpdate_keeps | apply State.switchTo_keeps | apply Keeps.ite | split
    | refine Keeps.record ?_ rfl

theorem afterPeriod_keeps {z0 : State} (s0 : State) (m : Nat) (s : State) (hz : Keeps z0 s) : Keeps z0 (afterPeriod s0
    m s) := by
  unfold afterPeriod
  repeat' with_reducible first
    | assumption | intro x | apply each_keeps | apply State.setHb_keeps | apply State.sqc_keeps | apply Keeps.ite
    | apply Keeps.each

theorem afterBank_keeps {z0 : State} (s0 s : State) (b : Bank) (hz : Keeps z0 s) : Keeps z0 (afterBank s0 s b) := by
  unfold afterBank
  repeat' with_reducible first
    | assumption | intro x | apply State.setBudget_keeps | apply each_keeps | apply State.setAdc_keeps
    | apply State.setHb_keeps | apply State.setShadow_keeps | apply Keeps.ite | apply Keeps.each

theorem afterAxis_keeps {z0 : State} (s0 s : State) (n : Axis) (hz : Keeps z0 s) : Keeps z0 (afterAxis s0 s n) := by
  unfold afterAxis
  repeat' with_reducible first
    | assumption | intro x | apply each_keeps | apply State.setAdc_keeps | apply State.setClp_keeps
    | apply State.setFbk_keeps | apply State.wrS64_keeps | apply State.wr_keeps | apply State.setPlan_keeps
    | apply State.wrS_keeps | apply State.sourceMoved_keeps | apply State.restartQuad_keeps | apply Keeps.ite
    | apply Keeps.each

theorem State.applied_keeps {z0 : State} (s0 : State) (m : Nat) (s : State) (hz : Keeps z0 s) : Keeps z0
    (State.applied s0 m s) := by
  unfold State.applied
  repeat' with_reducible first
    | assumption | intro x | apply afterPeriod_keeps | apply State.syncMoved_keeps | apply afterHif_keeps
    | apply State.fcsStat_keeps | apply afterCkg_keeps | apply State.dwellTick_keeps | apply State.wakeEvent_keeps
    | apply each_keeps | apply afterBank_keeps | apply afterAxis_keeps | apply State.reHand_keeps | apply Keeps.ite
    | apply Keeps.each

theorem withPairs_keeps {z0 : State} (s : State) (d : Desc) (hz : Keeps z0 s) : Keeps z0 (withPairs s d) := by
  unfold withPairs
  repeat' with_reducible first
    | assumption | intro x | apply each_keeps | apply State.bufWrite_keeps | apply Keeps.each | split

theorem State.configApply_keeps {z0 : State} (s : State) (o : Op) (hz : Keeps z0 s) : Keeps z0 (State.configApply s o)
    := by
  unfold State.configApply
  repeat' with_reducible first
    | assumption | intro x | apply each_keeps | apply State.deenergise_keeps | apply withPairs_keeps
    | apply State.setOp_keeps | apply State.applied_keeps | apply State.applyGroups_keeps
    | apply State.restartQuad_keeps | apply State.sourceMoved_keeps | apply State.setPlan_keeps | apply Keeps.ite
    | apply Keeps.each | split | refine Keeps.record ?_ rfl

theorem State.strobeRefuse_keeps {z0 : State} (s : State) (g reason : Nat) (hz : Keeps z0 s) : Keeps z0
    (State.strobeRefuse s g reason) := by
  unfold State.strobeRefuse
  repeat' with_reducible first
    | assumption | apply State.sqc_keeps | apply State.wr_keeps | apply State.devEvent_keeps

theorem State.strobe_keeps {z0 : State} (s : State) (hz : Keeps z0 s) : Keeps z0 (State.strobe s) := by
  unfold State.strobe
  repeat' with_reducible first
    | assumption | apply State.strobeRefuse_keeps | apply State.applied_keeps | apply State.applyGroups_keeps
    | apply State.sqc_keeps | apply State.setReg_keeps | split | refine Keeps.record ?_ rfl

theorem State.lockRefuse_keeps {z0 : State} (s : State) (reason : Nat) (hz : Keeps z0 s) : Keeps z0 (State.lockRefuse
    s reason) := by
  unfold State.lockRefuse
  repeat' with_reducible first
    | assumption | apply State.sqc_keeps | apply State.wr_keeps

theorem State.unlock_keeps {z0 : State} (s : State) (hz : Keeps z0 s) : Keeps z0 (State.unlock s) := by
  unfold State.unlock
  repeat' with_reducible first
    | assumption | apply State.wr_keeps | apply State.setReg_keeps | apply State.ledPush_keeps
    | refine Keeps.record ?_ rfl

theorem State.readNow_keeps {z0 : State} (s : State) (ring : Vector (BitVec 24) 5) (hz : Keeps z0 s) : Keeps z0
    (State.readNow s ring) := by
  unfold State.readNow
  repeat' with_reducible first
    | assumption | intro x | apply each_keeps | apply State.reading_keeps | apply Keeps.ite | apply Keeps.each | split
    | refine Keeps.record ?_ rfl

theorem State.takeReadings_keeps {z0 : State} (s : State) (hz : Keeps z0 s) : Keeps z0 (State.takeReadings s) := by
  unfold State.takeReadings
  repeat' with_reducible first
    | assumption | intro x | apply Keeps.ite | apply Keeps.foldl | split | refine Keeps.record ?_ rfl

theorem State.alertIf_keeps {z0 : State} (s : State) (q o : Nat) (over_ inside : Bool) (v limit : Int) (hz : Keeps z0
    s) : Keeps z0 (State.alertIf s q o over_ inside v limit) := by
  unfold State.alertIf
  repeat' with_reducible first
    | assumption | apply State.sqc_keeps | apply State.devEvent_keeps | apply State.ledPush_keeps | apply Keeps.ite
    | split | refine Keeps.record ?_ rfl

theorem State.alerts_keeps {z0 : State} (s : State) (hz : Keeps z0 s) : Keeps z0 (State.alerts s) := by
  unfold State.alerts
  repeat' with_reducible first
    | assumption | intro x | apply each_keeps | apply State.alertIf_keeps | apply Keeps.each | split
    | refine Keeps.record ?_ rfl

theorem State.gapCheck_keeps {z0 : State} (s : State) (hz : Keeps z0 s) : Keeps z0 (State.gapCheck s) := by
  unfold State.gapCheck
  repeat' with_reducible first
    | assumption | intro x | apply each_keeps | apply State.sqc_keeps | apply State.ledPush_keeps | apply Keeps.ite
    | apply Keeps.each | split | refine Keeps.record ?_ rfl

theorem State.propose_keeps {z0 : State} (s : State) (a : Aim) (hz : Keeps z0 s) : Keeps z0 (State.propose s a) := by
  unfold State.propose
  repeat' with_reducible first
    | assumption | intro x | apply State.devEvent_keeps | apply Keeps.ite | split | refine Keeps.record ?_ rfl

theorem State.withdraw_keeps {z0 : State} (s : State) (off kind : Nat) (hz : Keeps z0 s) : Keeps z0 (State.withdraw s
    off kind) := by
  unfold State.withdraw
  repeat' with_reducible first
    | assumption | intro x | refine Keeps.record ?_ rfl

theorem State.aimStep_keeps {z0 : State} (s : State) (a : Aim) (hz : Keeps z0 s) : Keeps z0 (State.aimStep s a) := by
  unfold State.aimStep
  repeat' with_reducible first
    | assumption | intro x | apply State.alertIf_keeps | apply State.withdraw_keeps | apply State.propose_keeps
    | apply Keeps.ite | split | refine Keeps.record ?_ rfl

theorem State.storePut_keeps {z0 : State} (s : State) (off : Nat) (hz : Keeps z0 s) : Keeps z0 (State.storePut s off)
    := by
  unfold State.storePut
  repeat' with_reducible first
    | assumption | intro x | apply Keeps.ite | split | refine Keeps.record ?_ rfl

theorem State.replan_keeps {z0 : State} (s : State) (t : Target) (hz : Keeps z0 s) : Keeps z0 (State.replan s t) := by
  unfold State.replan
  repeat' with_reducible first
    | assumption | apply State.alertIf_keeps | apply State.setReg_keeps | apply State.setBuf_keeps
    | apply State.storePut_keeps | apply State.devEvent_keeps | apply State.ledPush_keeps | apply Keeps.ite

theorem State.discardReplan_keeps {z0 : State} (s : State) (t : Target) (hz : Keeps z0 s) : Keeps z0
    (State.discardReplan s t) := by
  unfold State.discardReplan
  repeat' with_reducible first
    | assumption | apply State.ledPush_keeps

theorem State.approve_keeps {z0 : State} (s : State) (hz : Keeps z0 s) : Keeps z0 (State.approve s) := by
  unfold State.approve
  repeat' with_reducible first
    | assumption | intro x | apply State.wr_keeps | apply State.sqc_keeps | apply State.withdraw_keeps | apply Keeps.ite
    | split | refine Keeps.record ?_ rfl

theorem State.rebase_keeps {z0 : State} (s : State) (hz : Keeps z0 s) : Keeps z0 (State.rebase s) := by
  unfold State.rebase
  repeat' with_reducible first
    | assumption | apply State.wr_keeps | apply Keeps.ite | split | refine Keeps.record ?_ rfl

theorem State.ledPin_keeps {z0 : State} (s : State) (e : LedEntry) (hz : Keeps z0 s) : Keeps z0 (State.ledPin s e) :=
    by
  unfold State.ledPin
  repeat' with_reducible first
    | assumption | apply State.ledgerPut_keeps | split

theorem State.ledStore_keeps {z0 : State} (s : State) (e : LedEntry) (hz : Keeps z0 s) : Keeps z0 (State.ledStore s e)
    := by
  unfold State.ledStore
  repeat' with_reducible first
    | assumption | apply State.ledgerPut_keeps | apply State.ledPin_keeps

theorem State.snapshot_keeps {z0 : State} (s : State) (atEnd : Bool) (hz : Keeps z0 s) : Keeps z0 (State.snapshot s
    atEnd) := by
  unfold State.snapshot
  repeat' with_reducible first
    | assumption | apply State.addCounter_keeps | apply State.setCounter_keeps | apply State.ledgerPut_keeps
    | apply Keeps.ite | split | refine Keeps.record ?_ rfl

theorem State.baseStore_keeps {z0 : State} (s : State) (hz : Keeps z0 s) : Keeps z0 (State.baseStore s) := by
  unfold State.baseStore
  repeat' with_reducible first
    | assumption | intro x | apply State.ledgerPut_keeps

theorem State.dexGo_keeps {z0 : State} (s : State) (hz : Keeps z0 s) : Keeps z0 (State.dexGo s) := by
  unfold State.dexGo
  repeat' with_reducible first
    | assumption | apply State.wr_keeps | apply Keeps.ite | split | refine Keeps.record ?_ rfl

theorem State.keepTests_keeps {z0 : State} (s0 s : State) (hz : Keeps z0 s) : Keeps z0 (State.keepTests s0 s) := by
  unfold State.keepTests
  repeat' with_reducible first
    | assumption | apply State.setReg_keeps

theorem State.pmuAwake_keeps {z0 : State} (s : State) (hz : Keeps z0 s) : Keeps z0 (State.pmuAwake s) := by
  unfold State.pmuAwake
  repeat' with_reducible first
    | assumption | apply State.wr_keeps | refine Keeps.record ?_ rfl

theorem State.loadCounters_keeps {z0 : State} (s : State) (hz : Keeps z0 s) : Keeps z0 (State.loadCounters s) := by
  unfold State.loadCounters
  repeat' with_reducible first
    | assumption | intro x | apply Keeps.ite | apply Keeps.foldl | split | refine Keeps.record ?_ rfl

theorem State.bootStart_keeps {z0 : State} (s : State) (short : Bool) (gtc : Nat) (hz : Keeps z0 s) :
    Keeps z0 (State.bootStart s short gtc) := by
  unfold State.bootStart
  extract_lets x1 _ x2 x3 x4 _ x5
  have h1 : Keeps z0 x1 := State.setPg_keeps _ _ hz
  clear_value x1
  have h2 : Keeps z0 x2 := by unfold x2; with_reducible exact Keeps.record h1 rfl
  clear_value x2
  have h3 : Keeps z0 x3 := State.addCounter_keeps _ _ _ (State.loadCounters_keeps _ h2)
  clear_value x3
  have h4 : Keeps z0 x4 := Keeps.ite h3 (State.addCounter_keeps _ _ _ h3)
  clear_value x4
  have h5 : Keeps z0 x5 := by unfold x5; with_reducible exact Keeps.record h4 rfl
  clear_value x5
  exact Keeps.each (fun _ _ h => State.raise_keeps _ _ _ h) h5

theorem State.railsOn_keeps {z0 : State} (s : State) (hz : Keeps z0 s) : Keeps z0 (State.railsOn s) := by
  unfold State.railsOn
  repeat' with_reducible first
    | assumption | intro x | apply each_keeps | apply State.setPg_keeps | apply Keeps.each

theorem State.resetFull_keeps {z0 : State} (s : State) (f : Fld) (hz : Keeps z0 s) : Keeps z0 (State.resetFull s f) := by
  unfold State.resetFull
  extract_lets on x1 x2 x3
  have h1 : Keeps z0 x1 := State.sqc_keeps _ _ (State.pmuAwake_keeps _ (State.wiped_keeps hz _ _))
  clear_value x1
  have h2 : Keeps z0 x2 := State.wr_keeps h1 _ _
  clear_value x2
  have h3 : Keeps z0 x3 := State.railsOn_keeps _ h2
  clear_value x3
  exact Keeps.ite (Keeps.ite h3 (State.bootStart_keeps _ _ _ h3)) h2

theorem State.cmdStart_keeps {z0 : State} (s : State) (hz : Keeps z0 s) : Keeps z0 (State.cmdStart s) := by
  unfold State.cmdStart
  repeat' with_reducible first
    | assumption | intro x | apply State.snapshot_keeps | apply each_keeps | apply State.reactOff_keeps
    | apply Keeps.each | apply Keeps.foldl | refine Keeps.record ?_ rfl

theorem State.cmdReset_keeps {z0 : State} (s : State) (hz : Keeps z0 s) : Keeps z0 (State.cmdReset s) := by
  unfold State.cmdReset
  repeat' with_reducible first
    | assumption | apply State.post_keeps | apply State.cmdStart_keeps | apply Keeps.ite

theorem State.showImages_keeps {z0 : State} (s : State) (valid : Bool) (hz : Keeps z0 s) : Keeps z0 (State.showImages
    s valid) := by
  unfold State.showImages
  repeat' with_reducible first
    | assumption | apply State.wr_keeps | apply State.setReg_keeps | apply State.wrB_keeps | apply Keeps.ite | split
    | refine Keeps.record ?_ rfl

theorem State.fwCommit_keeps {z0 : State} (s : State) (hz : Keeps z0 s) : Keeps z0 (State.fwCommit s) := by
  unfold State.fwCommit
  repeat' with_reducible first
    | assumption | apply State.wr_keeps | apply State.showImages_keeps | apply State.setReg_keeps
    | apply State.ledPush_keeps | split | refine Keeps.record ?_ rfl

theorem State.startLoad_keeps {z0 : State} (s : State) (q : Nat) (hz : Keeps z0 s) : Keeps z0 (State.startLoad s q) :=
    by
  unfold State.startLoad
  repeat' with_reducible first
    | assumption | apply State.wr_keeps | refine Keeps.record ?_ rfl

theorem State.failCore_keeps {z0 : State} (s : State) (q : Nat) (hz : Keeps z0 s) : Keeps z0 (State.failCore s q) :=
    by
  unfold State.failCore
  repeat' with_reducible first
    | assumption | apply State.wr_keeps | apply State.trip_keeps | apply Keeps.ite | split | refine Keeps.record ?_ rfl

theorem State.replaceCore_keeps {z0 : State} (s : State) (b : Bank) (hz : Keeps z0 s) : Keeps z0 (State.replaceCore s
    b) := by
  unfold State.replaceCore
  repeat' with_reducible first
    | assumption | intro x | apply State.wr_keeps | apply each_keeps | apply State.setPlan_keeps | apply State.wrB_keeps
    | apply Keeps.ite | apply Keeps.each

theorem State.restoreStore_keeps {z0 : State} (s : State) (hz : Keeps z0 s) : Keeps z0 (State.restoreStore s) := by
  unfold State.restoreStore
  repeat' with_reducible first
    | assumption | intro x | apply each_keeps | apply State.setReg_keeps | apply State.setBuf_keeps
    | apply State.wr_keeps | apply State.enterHeld_keeps | apply Keeps.ite | apply Keeps.each | split
    | refine Keeps.record ?_ rfl

theorem State.testResults_keeps {z0 : State} (s : State) (t : SelfTest) (hz : Keeps z0 s) : Keeps z0
    (State.testResults s t) := by
  unfold State.testResults
  repeat' with_reducible first
    | assumption | apply State.wr_keeps | apply State.wrB_keeps | apply Keeps.ite

theorem State.testFailures_keeps {z0 : State} (s : State) (t : SelfTest) (hz : Keeps z0 s) : Keeps z0
    (State.testFailures s t) := by
  unfold State.testFailures
  repeat' with_reducible first
    | assumption | intro x | apply each_keeps | apply State.failCore_keeps | apply State.enterHeld_keeps
    | apply Keeps.ite | apply Keeps.each

theorem State.ledFlush_keeps {z0 : State} (s : State) (hz : Keeps z0 s) : Keeps z0 (State.ledFlush s) := by
  unfold State.ledFlush
  repeat' with_reducible first
    | assumption | intro x | apply each_keeps | apply State.ledStore_keeps | apply Keeps.each
    | refine Keeps.record ?_ rfl

theorem State.ledNow_keeps {z0 : State} (s : State) (typ : Nat) (data : List Word) (hz : Keeps z0 s) : Keeps z0
    (State.ledNow s typ data) := by
  unfold State.ledNow
  repeat' with_reducible first
    | assumption | apply State.ledFlush_keeps | apply State.ledStore_keeps | refine Keeps.record ?_ rfl

theorem State.ledInit_keeps {z0 : State} (s : State) (hz : Keeps z0 s) : Keeps z0 (State.ledInit s) := by
  unfold State.ledInit
  extract_lets _ x1 _ x2 body
  have h1 : Keeps z0 x1 :=
    hz.trans ⟨rfl, Nat.le_refl _, List.prefix_rfl, Nat.le_refl _, fun w => ⟨w.1, w.2.1, w.2.2.1, FileCanon.nil⟩⟩
  clear_value x1
  have h2 : Keeps z0 x2 := by unfold x2; with_reducible exact Keeps.record h1 rfl
  clear_value x2
  exact State.baseStore_keeps _ (State.ledgerPut_keeps h2 _ _)

theorem State.ledWipe_keeps {z0 : State} (s : State) (hz : Keeps z0 s) : Keeps z0 (State.ledWipe s) :=
  hz.trans ⟨rfl, Nat.le_refl _, List.prefix_rfl, Nat.le_refl _, fun w => ⟨w.1, w.2.1, w.2.2.1, FileCanon.nil⟩⟩

theorem State.transitEffect_keeps {z0 : State} (s : State) (goal : Nat) (owner : List Byte) (hz : Keeps z0 s) : Keeps
    z0 (State.transitEffect s goal owner) := by
  unfold State.transitEffect
  repeat' with_reducible first
    | assumption | apply State.snapshot_keeps | apply State.ledInit_keeps | apply State.ledNow_keeps
    | apply State.ledWipe_keeps | apply Keeps.ite | split | refine Keeps.record ?_ rfl

end Sys2Proof.Machine
end

