-- ==== Sys2Proof/Laws/KeepsHost.lean ====
section
/-! SUPPORT. Keeps through descriptors, telemetry and host writes: one lemma for each. -/

namespace Sys2Proof.Machine

theorem acceptOp_keeps {z0 : State} (s : State) (o : Op) (hz : Keeps z0 s) : Keeps z0 (acceptOp s o).1 :=
  Keeps.record hz rfl

theorem decideBy_keeps {z0 : State} (k : Ctx) (op : Nat) (d : Desc) (useStart : Bool) (chk : State → Nat → Option Refuse)
    (acc : State → Nat → Nat → State × List Word) (ha : ∀ s tag t, Keeps z0 s → Keeps z0 (acc s tag t).1) (s : State)
    (i : Nat) (hz : Keeps z0 s) : Keeps z0 (decideBy k op d useStart chk acc s i) := by
  unfold decideBy
  refine decideWith_keeps _ _ _ _ _ (fun s tag t x h e => ?_) _ _ hz
  split at e
  · cases e
  · split at e
    · cases e
    · cases e
      exact ha _ _ _ h

theorem decideNop_keeps {z0 : State} (k : Ctx) (d : Desc) (s : State) (i : Nat) (hz : Keeps z0 s) : Keeps z0
    (decideNop k d s i) := by
  unfold decideNop
  repeat' with_reducible first
    | assumption | apply State.refuse_keeps | apply State.decide_keeps | split

theorem decideStop_keeps {z0 : State} (k : Ctx) (d : Desc) (s : State) (i : Nat) (hz : Keeps z0 s) : Keeps z0
    (decideStop k d s i) := by
  unfold decideStop
  repeat' with_reducible first
    | assumption | intro x | apply decideBy_keeps | apply acceptOp_keeps

theorem configEntry_keeps {z0 : State} (tag op : Nat) (k : Ctx) (d : Desc) (t e : Nat) (s : State) (n : Axis) (hz :
    Keeps z0 s) : Keeps z0 (configEntry tag op k d t e s n) := by
  unfold configEntry
  repeat' with_reducible first
    | assumption | apply State.takeEntry_keeps

theorem decideConfig_keeps {z0 : State} (k : Ctx) (op : Nat) (d : Desc) (s : State) (i : Nat) (hz : Keeps z0 s) :
    Keeps z0 (decideConfig k op d s i) := by
  unfold decideConfig
  repeat' with_reducible first
    | assumption | intro x | apply decideBy_keeps | apply acceptOp_keeps | apply each_keeps | apply configEntry_keeps
    | apply Keeps.each

theorem decideBudget_keeps {z0 : State} (k : Ctx) (d : Desc) (s : State) (i : Nat) (hz : Keeps z0 s) : Keeps z0
    (decideBudget k d s i) := by
  unfold decideBudget
  repeat' with_reducible first
    | assumption | intro x | apply decideBy_keeps | apply State.setBank_keeps

theorem decideQuota_keeps {z0 : State} (k : Ctx) (d : Desc) (s : State) (i : Nat) (hz : Keeps z0 s) : Keeps z0
    (decideQuota k d s i) := by
  unfold decideQuota
  repeat' with_reducible first
    | assumption | intro x | apply decideBy_keeps | apply State.setCtx_keeps

theorem decideTelemetry_keeps {z0 : State} (k : Ctx) (d : Desc) (s : State) (i : Nat) (hz : Keeps z0 s) : Keeps z0
    (decideTelemetry k d s i) := by
  unfold decideTelemetry
  repeat' with_reducible first
    | assumption | intro x | apply decideBy_keeps | apply State.setStream_keeps | apply State.wr_keeps | apply Keeps.ite
    | split

theorem decideSnapshot_keeps {z0 : State} (k : Ctx) (d : Desc) (s : State) (i : Nat) (hz : Keeps z0 s) : Keeps z0
    (decideSnapshot k d s i) := by
  unfold decideSnapshot
  repeat' with_reducible first
    | assumption | intro x | apply decideBy_keeps | apply acceptOp_keeps

theorem decideLedgerRead_keeps {z0 : State} (k : Ctx) (d : Desc) (s : State) (i : Nat) (hz : Keeps z0 s) : Keeps z0
    (decideLedgerRead k d s i) := by
  unfold decideLedgerRead
  repeat' with_reducible first
    | assumption | intro x | apply decideBy_keeps | apply acceptOp_keeps

theorem decideConvert_keeps {z0 : State} (k : Ctx) (d : Desc) (s : State) (i : Nat) (hz : Keeps z0 s) : Keeps z0
    (decideConvert k d s i) := by
  unfold decideConvert
  repeat' with_reducible first
    | assumption | intro x | apply decideBy_keeps | apply acceptOp_keeps

theorem decideCalibrate_keeps {z0 : State} (k : Ctx) (d : Desc) (s : State) (i : Nat) (hz : Keeps z0 s) : Keeps z0
    (decideCalibrate k d s i) := by
  unfold decideCalibrate
  repeat' with_reducible first
    | assumption | intro x | apply decideBy_keeps | apply State.setPlan_keeps | apply acceptOp_keeps | apply Keeps.ite

theorem decideFwStage_keeps {z0 : State} (k : Ctx) (d : Desc) (s : State) (i : Nat) (hz : Keeps z0 s) : Keeps z0
    (decideFwStage k d s i) := by
  unfold decideFwStage
  repeat' with_reducible first
    | assumption | intro x | apply decideBy_keeps | apply acceptOp_keeps

theorem decideFwSwap_keeps {z0 : State} (k : Ctx) (d : Desc) (s : State) (i : Nat) (hz : Keeps z0 s) : Keeps z0
    (decideFwSwap k d s i) := by
  unfold decideFwSwap
  repeat' with_reducible first
    | assumption | intro x | apply decideBy_keeps | apply acceptOp_keeps

theorem State.redraw_keeps {z0 : State} (s : State) (hz : Keeps z0 s) : Keeps z0 (State.redraw s) :=
  Keeps.record hz rfl

theorem decideTransit_keeps {z0 : State} (k : Ctx) (d : Desc) (s : State) (i : Nat) (hz : Keeps z0 s) : Keeps z0
    (decideTransit k d s i) := by
  unfold decideTransit
  repeat' with_reducible first
    | assumption | intro x | apply State.redraw_keeps | apply decideBy_keeps | apply acceptOp_keeps

theorem State.putBlock_keeps {z0 : State} (s : State) (i : Fin 8) (k : Ctx) (seq : Nat) (hz : Keeps z0 s) : Keeps z0
    (State.putBlock s i k seq) := by
  unfold State.putBlock
  repeat' with_reducible first
    | assumption | intro x | apply State.dropBlock_keeps | apply State.setStream_keeps | apply State.issueBlock_keeps
    | apply Keeps.ite

theorem State.clearEvery_keeps {z0 : State} (s : State) (hz : Keeps z0 s) : Keeps z0 (State.clearEvery s) := by
  unfold State.clearEvery
  repeat' with_reducible first
    | assumption | intro x | apply each_keeps | apply State.clearSrc_keeps | apply Keeps.ite | apply Keeps.each

theorem State.clearReq_keeps {z0 : State} (s : State) (r : Req) (hz : Keeps z0 s) : Keeps z0 (State.clearReq s r) :=
    by
  unfold State.clearReq
  repeat' with_reducible first
    | assumption | apply State.clearSrc_keeps | apply State.sqc_keeps | apply State.clearEvery_keeps | apply Keeps.ite
    | split

theorem State.aliveEdge_keeps {z0 : State} (s : State) (a high : Bool) (hz : Keeps z0 s) : Keeps z0 (State.aliveEdge s
    a high) := by
  unfold State.aliveEdge
  repeat' with_reducible first
    | assumption | apply State.emit_keeps | apply Keeps.ite | split | refine Keeps.record ?_ rfl

theorem updGo_keeps {z0 : State} (s : State) (m : Nat) (w : Word) (hz : Keeps z0 s) : Keeps z0 (updGo s m w) := by
  unfold updGo
  repeat' with_reducible first
    | assumption | apply State.post_keeps | apply State.strobe_keeps | apply State.wr_keeps | apply State.discard_keeps
    | apply Keeps.ite

theorem lockGo_keeps {z0 : State} (s : State) (m : Nat) (w : Word) (hz : Keeps z0 s) : Keeps z0 (lockGo s m w) := by
  unfold lockGo
  repeat' with_reducible first
    | assumption | apply State.lockRefuse_keeps | apply State.wr_keeps | apply State.unlock_keeps
    | apply State.post_keeps | apply Keeps.ite

theorem mgmtGo_keeps {z0 : State} (s : State) (p : Port) (m : Nat) (w : Word) (hz : Keeps z0 s) : Keeps z0 (mgmtGo s p
    m w) := by
  unfold mgmtGo
  repeat' with_reducible first
    | assumption | apply State.post_keeps | apply Keeps.ite

theorem dbgGo_keeps {z0 : State} (s : State) (m : Nat) (w : Word) (hz : Keeps z0 s) : Keeps z0 (dbgGo s m w) := by
  unfold dbgGo
  repeat' with_reducible first
    | assumption | apply State.post_keeps | apply Keeps.ite

theorem ckgGo_keeps {z0 : State} (s : State) (m : Nat) (w : Word) (hz : Keeps z0 s) : Keeps z0 (ckgGo s m w) := by
  unfold ckgGo
  repeat' with_reducible first
    | assumption | apply State.xoRestart_keeps | apply State.post_keeps | apply Keeps.ite

theorem pmuGo_keeps {z0 : State} (s : State) (m : Nat) (w : Word) (hz : Keeps z0 s) : Keeps z0 (pmuGo s m w) := by
  unfold pmuGo
  repeat' with_reducible first
    | assumption | apply State.post_keeps | apply State.wr_keeps | apply State.wakeEvent_keeps | apply Keeps.ite

theorem clrGo_keeps {z0 : State} (s : State) (m : Nat) (w : Word) (hz : Keeps z0 s) : Keeps z0 (clrGo s m w) := by
  unfold clrGo
  repeat' with_reducible first
    | assumption | apply State.post_keeps | apply State.clearSrc_keeps | apply Keeps.ite

theorem ptmGo_keeps {z0 : State} (s0 s : State) (hz : Keeps z0 s) : Keeps z0 (ptmGo s0 s) := by
  unfold ptmGo
  repeat' with_reducible first
    | assumption | apply State.ptmLose_keeps | apply Keeps.ite | split | refine Keeps.record ?_ rfl

theorem wdogGo_keeps {z0 : State} (s : State) (p : Port) (m : Nat) (w : Word) (hz : Keeps z0 s) : Keeps z0 (wdogGo s p
    m w) := by
  unfold wdogGo
  repeat' with_reducible first
    | assumption | apply State.setPort_keeps | apply Keeps.ite

theorem ss1Go_keeps {z0 : State} (s : State) (m : Nat) (w : Word) (hz : Keeps z0 s) : Keeps z0 (ss1Go s m w) := by
  unfold ss1Go
  repeat' with_reducible first
    | assumption | intro x | apply State.wr_keeps | apply each_keeps | apply State.markSs1_keeps
    | apply State.trip_keeps | apply Keeps.ite | apply Keeps.each

theorem forceWrite_keeps {z0 : State} (s : State) (r : Row) (h : HalfBridge) (off m be : Nat) (w : Word) (hz : Keeps
    z0 s) : Keeps z0 (forceWrite s r h off m be w) := by
  unfold forceWrite
  repeat' with_reducible first
    | assumption | apply State.typeWrite_keeps | apply State.setHb_keeps | apply State.sqc_keeps | apply State.wr_keeps
    | apply Keeps.ite

theorem owtGo_keeps {z0 : State} (s : State) (b : Bank) (m : Nat) (w : Word) (hz : Keeps z0 s) : Keeps z0 (owtGo s b m
    w) := by
  unfold owtGo
  repeat' with_reducible first
    | assumption | apply State.post_keeps | apply Keeps.ite

theorem tlmWrite_keeps {z0 : State} (s : State) (p : Port) (r : Row) (i : Fin 8) (off m be : Nat) (w : Word) (hz :
    Keeps z0 s) : Keeps z0 (tlmWrite s p r i off m be w) := by
  unfold tlmWrite
  repeat' with_reducible first
    | assumption | apply State.decide_keeps | apply State.pairWrite_keeps | apply Keeps.ite

theorem writeStarts_keeps {z0 : State} (s0 s : State) (p : Port) (off m : Nat) (w : Word) (hz : Keeps z0 s) : Keeps z0
    (writeStarts s0 s p off m w) := by
  unfold writeStarts
  repeat' with_reducible first
    | assumption | apply updGo_keeps | apply lockGo_keeps | apply mgmtGo_keeps | apply dbgGo_keeps | apply ckgGo_keeps
    | apply pmuGo_keeps | apply clrGo_keeps | apply ptmGo_keeps | apply wdogGo_keeps | apply State.rebase_keeps
    | apply State.approve_keeps | apply State.dexGo_keeps | apply owtGo_keeps | apply Keeps.ite

theorem plainWrite_keeps {z0 : State} (s : State) (p : Port) (r : Row) (i off be : Nat) (w : Word) (hz : Keeps z0 s) :
    Keeps z0 (plainWrite s p r i off be w) := by
  unfold plainWrite
  repeat' with_reducible first
    | assumption | apply ss1Go_keeps | apply State.cmdReset_keeps | apply tlmWrite_keeps | apply forceWrite_keeps
    | apply writeStarts_keeps | apply State.pairWrite_keeps | apply Keeps.ite

theorem spaceWrite_keeps {z0 : State} (s : State) (p : Port) (off be : Nat) (w : Word) (hz : Keeps z0 s) : Keeps z0
    (spaceWrite s p off be w) := by
  unfold spaceWrite
  repeat' with_reducible first
    | assumption | apply State.accFault_keeps | apply plainWrite_keeps | apply State.pairWrite_keeps | apply Keeps.ite
    | split

theorem State.indFetch_keeps {z0 : State} (s : State) (p : Port) (hz : Keeps z0 s) : Keeps z0 (State.indFetch s p) :=
    by
  unfold State.indFetch
  repeat' with_reducible first
    | assumption | apply State.wr_keeps | apply State.setPort_keeps

theorem State.indTouch_keeps {z0 : State} (s : State) (p : Port) (hz : Keeps z0 s) : Keeps z0 (State.indTouch s p) :=
    by
  unfold State.indTouch
  repeat' with_reducible first
    | assumption | apply State.setPort_keeps

theorem indAddrWrite_keeps {z0 : State} (s : State) (p : Port) (m : Nat) (w : Word) (hz : Keeps z0 s) : Keeps z0
    (indAddrWrite s p m w) := by
  unfold indAddrWrite
  repeat' with_reducible first
    | assumption | apply State.setReg_keeps | apply State.indFetch_keeps | apply State.indTouch_keeps

theorem State.indNext_keeps {z0 : State} (s : State) (p : Port) (hz : Keeps z0 s) : Keeps z0 (State.indNext s p) := by
  unfold State.indNext
  repeat' with_reducible first
    | assumption | apply State.setReg_keeps | apply State.indFetch_keeps | apply Keeps.ite

theorem indStore_keeps {z0 : State} (s : State) (p : Port) (be : Nat) (w : Word) (hz : Keeps z0 s) : Keeps z0
    (indStore s p be w) := by
  unfold indStore
  repeat' with_reducible first
    | assumption | apply indAddrWrite_keeps | apply spaceWrite_keeps | apply State.accFault_keeps | apply Keeps.ite
    | split

theorem indDataWrite_keeps {z0 : State} (s : State) (p : Port) (be : Nat) (w : Word) (hz : Keeps z0 s) : Keeps z0
    (indDataWrite s p be w) := by
  unfold indDataWrite
  repeat' with_reducible first
    | assumption | apply indStore_keeps | apply State.indFetch_keeps | apply State.indTouch_keeps
    | apply State.indNext_keeps | apply Keeps.ite

theorem State.indDone_keeps {z0 : State} (s : State) (p : Port) (hz : Keeps z0 s) : Keeps z0 (State.indDone s p) := by
  unfold State.indDone
  repeat' with_reducible first
    | assumption | apply indRead_keeps | apply State.setReg_keeps | apply State.wr_keeps | apply State.setPort_keeps

theorem indDataRead_keeps {z0 : State} (s : State) (p : Port) (hz : Keeps z0 s) : Keeps z0 (indDataRead s p) := by
  unfold indDataRead
  repeat' with_reducible first
    | assumption | apply State.advTo_keeps | apply State.indDone_keeps | apply State.emit_keeps
    | apply State.indNext_keeps | apply Keeps.ite

theorem headWrite_keeps {z0 : State} (s : State) (k : Ctx) (event : Bool) (m : Nat) (w : Word) (hz : Keeps z0 s) :
    Keeps z0 (headWrite s k event m w) := by
  unfold headWrite
  repeat' with_reducible first
    | assumption | apply State.sqc_keeps | apply State.wr_keeps | apply State.flushLost_keeps | apply Keeps.ite

theorem pageWrite_keeps {z0 : State} (s : State) (p : Port) (k : Ctx) (off be : Nat) (w : Word) (hz : Keeps z0 s) :
    Keeps z0 (pageWrite s p k off be w) := by
  unfold pageWrite
  repeat' with_reducible first
    | assumption | apply State.wakeEvent_keeps | apply State.sqc_keeps | apply headWrite_keeps
    | apply State.typeWrite_keeps | apply Keeps.ite | split

theorem msixWrite_keeps {z0 : State} (s : State) (p : Port) (off be : Nat) (w : Word) (hz : Keeps z0 s) : Keeps z0
    (msixWrite s p off be w) := by
  unfold msixWrite
  repeat' with_reducible first
    | assumption | apply State.setReg_keeps | apply State.sendPending_keeps

theorem State.noteAcc_keeps {z0 : State} (s : State) (p : Port) (off : Nat) (hz : Keeps z0 s) : Keeps z0
    (State.noteAcc s p off) := by
  unfold State.noteAcc
  repeat' with_reducible first
    | assumption | split | refine Keeps.record ?_ rfl

theorem hostWrite_keeps {z0 : State} (p : Port) (off be : Nat) (w : Word) (same : Bool) (s : State) (hz : Keeps z0 s)
    : Keeps z0 (hostWrite p off be w same s) := by
  unfold hostWrite
  repeat' with_reducible first
    | assumption | apply State.advTo_keeps | apply State.noteAcc_keeps | apply indAddrWrite_keeps
    | apply indDataWrite_keeps | apply spaceWrite_keeps | apply pageWrite_keeps | apply msixWrite_keeps
    | apply Keeps.ite | split

theorem hostPut_keeps {z0 : State} (p : Port) (off : Nat) (w : Nat) (s : State) (hz : Keeps z0 s) : Keeps z0 (hostPut
    p off w s) := by
  unfold hostPut
  repeat' with_reducible first
    | assumption | apply hostWrite_keeps

end Sys2Proof.Machine
end

