-- ==== Sys2Proof/Laws/Reaction.lean ====
section
/-! SUPPORT. Reaction through every operation that a trip runs, and what a trip does. -/

namespace Sys2Proof.Machine

variable {z s t : State}

/-! ### The registers a reaction writes -/

theorem faultReg_page {o : Nat} (h : 0x40000 ≤ o) (h' : o < 0x80000) : faultReg o = true := by
  simp [faultReg, h, h']
theorem faultReg_cqTail (k : Ctx) : faultReg (F.HIF_CTX_CQ_TAIL_TAIL k).off = true :=
  faultReg_page (by simp [F.HIF_CTX_CQ_TAIL_TAIL, Reg.HIF_CTX_CQ_TAIL]; omega) (by simp [F.HIF_CTX_CQ_TAIL_TAIL, Reg.HIF_CTX_CQ_TAIL]; omega)
theorem faultReg_eqTail (k : Ctx) : faultReg (F.HIF_CTX_EQ_TAIL_TAIL k).off = true :=
  faultReg_page (by simp [F.HIF_CTX_EQ_TAIL_TAIL, Reg.HIF_CTX_EQ_TAIL]; omega) (by simp [F.HIF_CTX_EQ_TAIL_TAIL, Reg.HIF_CTX_EQ_TAIL]; omega)
theorem faultReg_held (k : Ctx) : faultReg (F.HIF_CTX_STAT_HELD k).off = true :=
  faultReg_page (by simp [F.HIF_CTX_STAT_HELD, Reg.HIF_CTX_STAT]; omega) (by simp [F.HIF_CTX_STAT_HELD, Reg.HIF_CTX_STAT]; omega)
theorem faultReg_evDrop (k : Ctx) : faultReg (F.HIF_CTX_STAT_EV_DROP k).off = true :=
  faultReg_page (by simp [F.HIF_CTX_STAT_EV_DROP, Reg.HIF_CTX_STAT]; omega) (by simp [F.HIF_CTX_STAT_EV_DROP, Reg.HIF_CTX_STAT]; omega)
theorem faultReg_pend (p : Port) (k : Ctx) : faultReg (msixPend p k).off = true := by
  have : k.val / 32 < 2 := by omega
  simp only [faultReg, Bool.or_eq_true, Bool.and_eq_true, decide_eq_true_eq]
  cases p
  · exact .inl (.inr (by unfold msixPend portOff; dsimp only; omega))
  · exact .inr (by unfold msixPend portOff; dsimp only; omega)
theorem faultReg_curt (b : Bank) : faultReg (F.MPL_CURT_STAT_ACTIVE b).off = true := by
  revert b; decide +kernel
theorem faultReg_dem : faultReg F.FCS_SS1_DEM_AXES.off = true := by decide +kernel
theorem faultReg_stat : faultReg Reg.FCS_STAT = true := by decide +kernel
theorem faultReg_recs : faultReg F.FCS_REC_CNT_RECS.off = true := by decide +kernel
theorem faultReg_supp : faultReg F.CND_STAT_SUPP.off = true := by decide +kernel

/-! ### Updates -/

theorem Reaction.refl (s : State) : Reaction s s := ⟨rfl, fun _ _ => rfl, fun _ => rfl, fun _ => rfl, rfl⟩

theorem Reaction.trans {a b c : State} (h : Reaction a b) (k : Reaction b c) : Reaction a c := by
  refine ⟨?_, fun o e => (k.regs o e).trans (h.regs o e), fun x => ?_, fun x => ?_, ?_⟩
  · have e := k.rest
    rw [h.rest] at e
    exact e
  · rw [k.hbs x, h.hbs x]
  · rw [k.clps x, h.clps x]
  · rw [k.clock, h.clock]

theorem Reaction.ite {c : Prop} [Decidable c] {a b : State} (h : Reaction z a) (k : Reaction z b) :
    Reaction z (if c then a else b) := by
  split <;> assumption

theorem Reaction.each {α : Type} {l : List α} {f : State → α → State} (hf : ∀ s a, Reaction z s → Reaction z (f s a))
    (h : Reaction z s) : Reaction z (Machine.each l f s) := by
  unfold Machine.each
  induction l generalizing s with
  | nil => exact h
  | cons a l ih => exact ih (hf s a h)

/-- An update of parts that a reaction may change freely. -/
theorem Reaction.record
    {x5 : List (Nat × Word)} {x6 : List (Nat × Nat × Nat)} {pa pb : PortS} {cx : Vector CtxS 64} {se : List Out}
    {op : List Op} {pl : Vector AxisPlan 32} {bk : Vector BankS 4} {wi : List Win} {re : List (List Word)} {rn : Nat}
    {ss : Vector (Option Ss1) 32} {le : Vector LesS 32} {ld : LedgerS} {cn : CndS}
    (h : Reaction z s) :
    Reaction z (State.mk
      s.pending s.regs s.bufs s.dirty s.loHeld x5 x6 s.inClk s.clk s.gtc s.gtcRuns s.ticking s.tickClk s.tickGtc s.half s.latches
      s.horizon s.cutoff s.reqs pa pb cx s.streams se op pl bk
      { s.fcs with wins := wi, recs := re, recN := rn, ss1 := ss }
      s.hbs s.coils s.clps le s.fbks s.gdrs s.adcs ld s.tbs s.ckg s.pmu s.lcs cn s.freeCtr) :=
  h.trans ⟨rfl, fun _ _ => rfl, fun _ => rfl, fun _ => rfl, rfl⟩

theorem State.setReg_reacts (hz : Reaction z s) (o : Nat) (w : Word) (ho : faultReg o = true) : Reaction z (s.setReg o w) := by
  refine hz.trans ⟨rfl, fun o' e => State.reg_setReg_ne s w ?_, fun _ => rfl, fun _ => rfl, rfl⟩
  rintro rfl
  simp [ho] at e

theorem State.wr_reacts (hz : Reaction z s) (f : Fld) (v : Nat) (ho : faultReg f.off = true) : Reaction z (s.wr f v) :=
  State.setReg_reacts hz _ _ ho

theorem State.wrB_reacts (hz : Reaction z s) (f : Fld) (v : Bool) (ho : faultReg f.off = true) : Reaction z (s.wrB f v) :=
  State.setReg_reacts hz _ _ ho

theorem State.setHb_reacts (h : HalfBridge) (x : HbS) (hz : Reaction z s)
    (hx : x = { s.hb h with soft := x.soft, react := x.react }) : Reaction z (s.setHb h x) := by
  refine hz.trans ⟨rfl, fun _ _ => rfl, fun h' => ?_, fun _ => rfl, rfl⟩
  by_cases e : h' = h
  · subst e
    rw [State.hb_setHb_self]
    exact hx
  · rw [State.hb_setHb_ne _ _ e]

/-- CLP's note that it delivered signals is all a reaction changes of the datapath. -/
theorem State.setClp_reacts (n : Axis) (x : ClpS) (hz : Reaction z s) (hx : x = { s.clp n with fresh := x.fresh }) :
    Reaction z (s.setClp n x) := by
  refine hz.trans ⟨rfl, fun _ _ => rfl, fun _ => rfl, fun m => ?_, rfl⟩
  by_cases e : m = n
  · subst e
    rw [State.clp_setClp_self]
    exact hx
  · rw [State.clp_setClp_ne _ _ e]

theorem State.sqcMask_reacts (o m : Nat) (hz : Reaction z s) (ho : faultReg o = true) : Reaction z (s.sqcMask o m) := by
  obtain ⟨w, b, e⟩ := s.sqcMask_shape o m
  rw [e]
  exact Reaction.record (State.setReg_reacts hz o w ho)

theorem State.sqc_reacts (f : Fld) (hz : Reaction z s) (ho : faultReg f.off = true) : Reaction z (s.sqc f) :=
  State.sqcMask_reacts _ _ hz ho

theorem State.noteCnt_reacts (f : Fld) (n : Nat) (hz : Reaction z s) : Reaction z (s.noteCnt f n) := Reaction.record hz

theorem State.cnt_reacts (f : Fld) (n : Nat) (hz : Reaction z s) (ho : faultReg f.off = true) : Reaction z (s.cnt f n) :=
  State.wr_reacts (State.noteCnt_reacts _ _ hz) _ _ ho

theorem State.cntWrap_reacts (f : Fld) (hz : Reaction z s) (ho : faultReg f.off = true) : Reaction z (s.cntWrap f) :=
  State.wr_reacts (State.noteCnt_reacts _ _ hz) _ _ ho

/-! ### Operations -/

theorem State.emit_reacts (s : State) (o : Out) (hz : Reaction z s) : Reaction z (State.emit s o) :=
  Reaction.record hz

theorem State.setPort_reacts (s : State) (p : Port) (x : PortS) (hz : Reaction z s) : Reaction z
    (State.setPort s p x) := by
  unfold State.setPort
  repeat' with_reducible first
    | assumption | split | refine Reaction.record ?_

theorem State.setCtx_reacts (s : State) (k : Ctx) (x : CtxS) (hz : Reaction z s) : Reaction z (State.setCtx s
    k x) :=
  Reaction.record hz

theorem State.setPlan_reacts (s : State) (n : Axis) (x : AxisPlan) (hz : Reaction z s) : Reaction z
    (State.setPlan s n x) :=
  Reaction.record hz

theorem State.setBank_reacts (s : State) (b : Bank) (x : BankS) (hz : Reaction z s) : Reaction z
    (State.setBank s b x) :=
  Reaction.record hz

theorem State.setLes_reacts (s : State) (n : Axis) (x : LesS) (hz : Reaction z s) : Reaction z (State.setLes s
    n x) :=
  Reaction.record hz

theorem State.setSs1_reacts (s : State) (n : Axis) (x : Option Ss1) (hz : Reaction z s) : Reaction z
    (State.setSs1 s n x) :=
  Reaction.record hz

theorem State.setCounter_reacts (s : State) (o v : Nat) (hz : Reaction z s) : Reaction z (State.setCounter s o
    v) :=
  Reaction.record hz

theorem State.addCounter_reacts (s : State) (o : Nat) (n : Nat) (hz : Reaction z s) : Reaction z
    (State.addCounter s o n) := by
  unfold State.addCounter
  repeat' with_reducible first
    | assumption | apply State.setCounter_reacts

theorem State.message_reacts (s : State) (p : Port) (k : Ctx) (hz : Reaction z s) : Reaction z (State.message s p k) :=
  State.emit_reacts _ _ (Reaction.ite (State.setCtx_reacts _ _ _ hz) hz)

theorem State.signal_reacts (s : State) (k : Ctx) (hz : Reaction z s) : Reaction z (State.signal s k) := by
  unfold State.signal
  repeat' with_reducible first
    | assumption | apply State.message_reacts | apply State.wr_reacts | apply Reaction.ite | exact faultReg_pend _ _

theorem State.issued_reacts (s : State) (k : Ctx) (urgent : Bool) (hz : Reaction z s) : Reaction z
    (State.issued s k urgent) := by
  unfold State.issued
  repeat' with_reducible first
    | assumption | apply State.setCtx_reacts | apply State.signal_reacts | apply Reaction.ite

theorem State.place_reacts (s : State) (k : Ctx) (cls : Dma) (index addr : Nat) (ws : List Word) (urgent :
    Bool) (hz : Reaction z s) : Reaction z (State.place s k cls index addr ws urgent) := by
  unfold State.place
  repeat' with_reducible first
    | assumption | apply State.emit_reacts | apply State.issued_reacts | apply State.setPort_reacts
    | apply State.wr_reacts | apply Reaction.ite | exact faultReg_cqTail _ | exact faultReg_eqTail _
    | exact faultReg_held _

theorem State.complete_reacts (s : State) (k : Ctx) (ws : List Word) (hz : Reaction z s) : Reaction z
    (State.complete s k ws) := by
  unfold State.complete
  repeat' with_reducible first
    | assumption | apply State.wr_reacts | apply State.place_reacts | exact faultReg_cqTail _

theorem State.dropEvent_reacts (s : State) (k : Ctx) (hz : Reaction z s) : Reaction z (State.dropEvent s k) :=
    by
  unfold State.dropEvent
  repeat' with_reducible first
    | assumption | apply State.cnt_reacts | apply State.setCtx_reacts | exact faultReg_cqTail _
    | exact faultReg_eqTail _ | exact faultReg_held _ | exact faultReg_evDrop _

theorem State.putEvent_reacts (s : State) (k : Ctx) (e : Event) (hz : Reaction z s) : Reaction z
    (State.putEvent s k e) := by
  unfold State.putEvent
  repeat' with_reducible first
    | assumption | apply State.wr_reacts | apply State.place_reacts | exact faultReg_cqTail _
    | exact faultReg_eqTail _

theorem State.flushLost_reacts (s : State) (k : Ctx) (hz : Reaction z s) : Reaction z (State.flushLost s k) :=
    by
  unfold State.flushLost
  repeat' with_reducible first
    | assumption | apply State.setCtx_reacts | apply State.putEvent_reacts | apply Reaction.ite

theorem State.eventTo_reacts (k : Ctx) (e : Event) (s : State) (hz : Reaction z s) : Reaction z (State.eventTo
    k e s) := by
  unfold State.eventTo
  repeat' with_reducible first
    | assumption | apply State.flushLost_reacts | apply State.putEvent_reacts | apply State.dropEvent_reacts
    | apply Reaction.ite

theorem State.setOp_reacts (s : State) (o : Op) (hz : Reaction z s) : Reaction z (State.setOp s o) := by
  unfold State.setOp
  repeat' with_reducible first
    | assumption | intro x | apply Reaction.ite | split | refine Reaction.record ?_

theorem State.countEnd_reacts (s : State) (o : Op) (st : Status) (hz : Reaction z s) : Reaction z
    (State.countEnd s o st) := by
  unfold State.countEnd
  repeat' with_reducible first
    | assumption | intro x | apply each_reacts | apply State.addCounter_reacts | apply Reaction.ite
    | apply Reaction.each

theorem State.finish_reacts (s : State) (tag : Nat) (st : Status) (t1 t2 detail rflags : Nat) (hz : Reaction
    z s) : Reaction z (State.finish s tag st t1 t2 detail rflags) := by
  unfold State.finish
  repeat' with_reducible first
    | assumption | intro x | apply State.countEnd_reacts | apply State.complete_reacts | apply Reaction.ite | split
    | refine Reaction.record ?_

theorem State.softStart_reacts (s : State) (h : HalfBridge) (hz : Reaction z s) : Reaction z (State.softStart
    s h) := by
  unfold State.softStart
  repeat' with_reducible first
    | assumption | apply State.setHb_reacts | apply Reaction.ite | exact faultReg_cqTail _ | exact faultReg_eqTail _
    | exact faultReg_held _ | exact faultReg_evDrop _ | exact faultReg_pend _ _ | exact faultReg_curt _
    | exact faultReg_dem | exact faultReg_stat | exact faultReg_recs | exact faultReg_supp | rfl

theorem State.softSto_reacts (s : State) (h : HalfBridge) (hz : Reaction z s) : Reaction z (State.softSto s h)
    := by
  unfold State.softSto
  repeat' with_reducible first
    | assumption | apply State.setHb_reacts | apply State.softStart_reacts | split | exact faultReg_cqTail _
    | exact faultReg_eqTail _ | exact faultReg_held _ | exact faultReg_evDrop _ | exact faultReg_pend _ _
    | exact faultReg_curt _ | exact faultReg_dem | exact faultReg_stat | exact faultReg_recs | exact faultReg_supp
    | rfl

theorem State.reactOff_reacts (s : State) (h : HalfBridge) (hz : Reaction z s) : Reaction z (State.reactOff s
    h) := by
  unfold State.reactOff
  repeat' with_reducible first
    | assumption | apply State.softStart_reacts | apply State.setHb_reacts | exact faultReg_cqTail _
    | exact faultReg_eqTail _ | exact faultReg_held _ | exact faultReg_evDrop _ | exact faultReg_pend _ _
    | exact faultReg_curt _ | exact faultReg_dem | exact faultReg_stat | exact faultReg_recs | exact faultReg_supp
    | rfl

theorem State.ledEnter_reacts (s : State) (e : LedEntry) (hz : Reaction z s) : Reaction z (State.ledEnter s e)
    := by
  unfold State.ledEnter
  repeat' with_reducible first
    | assumption | refine Reaction.record ?_

theorem State.ledPush_reacts (s : State) (typ : Nat) (data : List Word) (src : Option Nat) (hz : Reaction z
    s) : Reaction z (State.ledPush s typ data src) := by
  unfold State.ledPush
  repeat' with_reducible first
    | assumption | apply State.ledEnter_reacts | apply State.sqc_reacts | apply Reaction.ite | split
    | refine Reaction.record ?_ | exact faultReg_cqTail _ | exact faultReg_eqTail _ | exact faultReg_held _
    | exact faultReg_evDrop _ | exact faultReg_pend _ _ | exact faultReg_curt _ | exact faultReg_dem
    | exact faultReg_stat | exact faultReg_recs | exact faultReg_supp

/-- A register write of a reaction that notes it in the present clock. -/
theorem Reaction.note (h : Reaction z s) (d : Nat) : Reaction z { s with inClk := { s.inClk with dem := d } } :=
  h.trans ⟨rfl, fun _ _ => rfl, fun _ => rfl, fun _ => rfl, rfl⟩

theorem State.deenergise_reacts (s : State) (n : Axis) (hz : Reaction z s) : Reaction z (State.deenergise s n) := by
  unfold State.deenergise
  refine State.setSs1_reacts _ _ _ (Reaction.ite (Reaction.note (State.wr_reacts ?_ _ _ faultReg_dem) _) ?_) <;>
    exact State.setClp_reacts _ _ (State.setLes_reacts _ _ _ (State.setPlan_reacts _ _ _ hz)) rfl

theorem State.unbook_reacts (s : State) (n : Axis) (hz : Reaction z s) : Reaction z (State.unbook s n) :=
  State.setPlan_reacts _ _ _ hz

theorem State.stopStood_reacts (s : State) (n : Axis) (t2 : Nat) (hz : Reaction z s) : Reaction z
    (State.stopStood s n t2) := by
  unfold State.stopStood
  repeat' with_reducible first
    | assumption | intro x | apply each_reacts | apply State.setOp_reacts | apply State.finish_reacts
    | apply Reaction.ite | apply Reaction.each

theorem State.curtSettle_reacts (s : State) (b : Bank) (hz : Reaction z s) : Reaction z (State.curtSettle s b)
    := by
  unfold State.curtSettle
  repeat' with_reducible first
    | assumption | apply State.wr_reacts | apply Reaction.ite | exact faultReg_cqTail _ | exact faultReg_eqTail _
    | exact faultReg_held _ | exact faultReg_evDrop _ | exact faultReg_pend _ _ | exact faultReg_curt _

theorem State.uncurtail_reacts (s : State) (n : Axis) (hz : Reaction z s) : Reaction z (State.uncurtail s n)
    := by
  unfold State.uncurtail
  repeat' with_reducible first
    | assumption | apply State.setBank_reacts | apply State.curtSettle_reacts

theorem State.turnOff_reacts (s : State) (n : Axis) (c : Cause) (hz : Reaction z s) : Reaction z
    (State.turnOff s n c) := by
  unfold State.turnOff
  repeat' with_reducible first
    | assumption | intro x | apply State.finish_reacts | apply each_reacts | apply State.softSto_reacts
    | apply State.reactOff_reacts | apply State.unbook_reacts | apply State.deenergise_reacts | apply State.stopStood_reacts
    | apply State.uncurtail_reacts | apply Reaction.ite | apply Reaction.each | split

theorem State.clearObs_reacts (s : State) (n : Axis) (hz : Reaction z s) : Reaction z (State.clearObs s n) :=
    by
  unfold State.clearObs
  repeat' with_reducible first
    | assumption | apply State.setLes_reacts

theorem State.reach_reacts (s : State) (n : Axis) (c : Cause) (gatesOff : Bool) (due : Nat) (hz : Reaction z
    s) : Reaction z (State.reach s n c gatesOff due) := by
  unfold State.reach
  repeat' with_reducible first
    | assumption | apply State.setPlan_reacts | apply State.clearObs_reacts | apply Reaction.ite | split
    | refine Reaction.record ?_

theorem State.markSs1_reacts (s : State) (n : Axis) (c : Cause) (hz : Reaction z s) : Reaction z
    (State.markSs1 s n c) := by
  unfold State.markSs1
  repeat' with_reducible first
    | assumption | apply State.setSs1_reacts | apply State.reach_reacts | apply Reaction.ite

theorem State.fcsStat_reacts (s : State) (hz : Reaction z s) : Reaction z (State.fcsStat s) := by
  unfold State.fcsStat
  repeat' with_reducible first
    | assumption | apply State.wrB_reacts | apply State.wr_reacts | apply Reaction.ite | exact faultReg_cqTail _
    | exact faultReg_eqTail _ | exact faultReg_held _ | exact faultReg_evDrop _ | exact faultReg_pend _ _
    | exact faultReg_curt _ | exact faultReg_dem | exact faultReg_stat | exact faultReg_recs | exact faultReg_supp
    | rfl | decide +kernel

theorem State.launch_reacts (s : State) (src scope : Nat) (object : Option Nat) (hz : Reaction z s) : Reaction
    z (State.launch s src scope object) := by
  unfold State.launch
  repeat' with_reducible first
    | assumption | intro x | apply each_reacts | apply State.markSs1_reacts | apply State.turnOff_reacts
    | apply Reaction.ite | apply Reaction.each

theorem State.openWindow_reacts (s : State) (src : Nat) (axes : List Axis) (hz : Reaction z s) : Reaction z
    (State.openWindow s src axes) := by
  unfold State.openWindow
  repeat' with_reducible first
    | assumption | intro x | apply Reaction.ite | split | refine Reaction.record ?_

theorem State.markSeen_reacts (s : State) (w : Win) (src : Nat) (hz : Reaction z s) : Reaction z
    (State.markSeen s w src) := by
  unfold State.markSeen
  repeat' with_reducible first
    | assumption | intro x | apply Reaction.ite | split | refine Reaction.record ?_

theorem State.faultRecord_reacts (s : State) (src : Nat) (object : Option Nat) (r : FaultRec) (hz : Reaction
    z s) : Reaction z (State.faultRecord s src object r) := by
  unfold State.faultRecord
  repeat' with_reducible first
    | assumption | apply State.drop_reacts | apply State.sqc_reacts | apply State.cntWrap_reacts
    | apply State.wr_reacts | apply State.eventTo_reacts | apply State.ledPush_reacts | apply Reaction.ite | split
    | refine Reaction.record ?_ | exact faultReg_cqTail _ | exact faultReg_eqTail _ | exact faultReg_held _
    | exact faultReg_evDrop _ | exact faultReg_pend _ _ | exact faultReg_curt _ | exact faultReg_dem
    | exact faultReg_stat | exact faultReg_recs | exact faultReg_supp | rfl | decide +kernel

/-- The order of R50 is among what the row has sent and holds. -/
theorem State.arranged_reacts (a s : State) (hz : Reaction z s) : Reaction z (State.arranged a s) := Reaction.record hz

theorem demandWindow_reacts (a s : State) (src : Nat) (hz : Reaction z s) : Reaction z (demandWindow a s src) := by
  unfold demandWindow
  exact Reaction.ite hz (Reaction.ite (Reaction.record hz) (State.openWindow_reacts _ _ _ hz))

/-! ### A trip -/

theorem find_putSrc_self (x : SrcS) (l : List SrcS) : (putSrc x l).find? (fun y => y.src = x.src) = some x := by
  induction l with
  | nil => simp [putSrc]
  | cons y l ih =>
    unfold putSrc
    split
    · simp
    · split
      · simp
      · rename_i h h'
        rw [List.find?_cons_of_neg (by simpa using fun e => h' e.symm)]
        exact ih

theorem find_putSrc_ne (x : SrcS) (l : List SrcS) {j : Nat} (h : j ≠ x.src) :
    (putSrc x l).find? (fun y => y.src = j) = l.find? (fun y => y.src = j) := by
  have hx : ∀ l, List.find? (fun y : SrcS => decide (y.src = j)) (x :: l) = l.find? (fun y => y.src = j) := fun l =>
    List.find?_cons_of_neg (by simpa using fun e : x.src = j => h e.symm)
  induction l with
  | nil => exact hx []
  | cons y l ih =>
    unfold putSrc
    split
    · exact hx _
    · split
      · rename_i e
        rw [hx, List.find?_cons_of_neg (by simpa [← e] using fun e : x.src = j => h e.symm)]
      · simp only [List.find?_cons, ih]

theorem State.src_setSrc_self (s : State) (x : SrcS) : (s.setSrc x).src x.src = x := by
  unfold State.src State.setSrc
  simp only [find_putSrc_self]

theorem State.src_setSrc_ne (s : State) (x : SrcS) {j : Nat} (h : j ≠ x.src) : (s.setSrc x).src j = s.src j := by
  unfold State.src State.setSrc
  simp only [find_putSrc_ne _ _ h]

/-- The sources read the same after a reaction. -/
theorem Reaction.src (h : Reaction s t) (j : Nat) : t.src j = s.src j := by
  have e : t.fcs.srcs = s.fcs.srcs := by rw [h.rest]
  unfold State.src
  rw [e]

theorem State.setSrc_tripped (s : State) (x : SrcS) (h : x.total = min 255 ((s.src x.src).total + 1)) :
    Tripped x.src x.active s (s.setSrc x) :=
  ⟨Reaction.refl s, fun _ h => s.src_setSrc_ne x h, by rw [State.src_setSrc_self, h], by rw [State.src_setSrc_self]⟩

/-- A reaction is one whatever the sources read. -/
theorem Reaction.withSrcs (h : Reaction s t) (l : List SrcS) :
    Reaction { s with fcs := { s.fcs with srcs := l } } { t with fcs := { t.fcs with srcs := l } } :=
  ⟨congrArg (fun t : State => { t with fcs := { t.fcs with srcs := l } }) h.rest, h.regs, h.hbs, h.clps, h.clock⟩

theorem Tripped.step {k : Nat} {act : Bool} (h : Tripped k act z s) (r : Reaction s t) : Tripped k act z t :=
  ⟨h.reaction.trans (r.withSrcs _), fun j e => (r.src j).trans (h.others j e), by rw [r.src, h.total],
    by rw [r.src, h.active]⟩

theorem tripPrimary_tripped (x : SrcS) (ob : Option Nat) (loc : Bool) (h : x.total = min 255 ((s.src x.src).total + 1)) :
    Tripped x.src x.active s (tripPrimary s x ob loc) := by
  unfold tripPrimary
  extract_lets src tag count st scope u v w
  split
  · exact (State.setSrc_tripped s { x with stamps := st, sec := false, severe := true, scope := scope, since := 0, recorded := false, object := ob } h).step
      (State.faultRecord_reacts _ _ _ _ (State.launch_reacts _ _ _ _ (State.openWindow_reacts _ _ _ (Reaction.refl _))))
  · have := State.setSrc_tripped s { x with stamps := st, sec := false } h
    split
    · exact this.step (State.faultRecord_reacts _ _ _ _ (Reaction.refl _))
    · exact this

theorem tripSecondary_tripped (x : SrcS) (w : Win) (ob : Option Nat) (loc : Bool)
    (h : x.total = min 255 ((s.src x.src).total + 1)) : Tripped x.src x.active s (tripSecondary s x w ob loc) := by
  unfold tripSecondary
  extract_lets src tag scope axes u v w'
  split
  · exact (State.setSrc_tripped s { x with sec := true, severe := true, scope := scope, since := 0, recorded := false, object := ob } h).step
      (State.faultRecord_reacts _ _ _ _ (State.launch_reacts _ _ _ _ (State.openWindow_reacts _ _ _
        (State.markSeen_reacts _ _ _ (Reaction.refl _)))))
  · have := State.setSrc_tripped s { x with sec := true } h
    split
    · exact this
    · exact this.step (State.faultRecord_reacts _ _ _ _ (State.markSeen_reacts _ _ _ (Reaction.refl _)))

theorem tripLatched_tripped (x : SrcS) (ob : Option Nat) (loc : Bool) (h : x.total = min 255 ((s.src x.src).total + 1)) :
    Tripped x.src x.active s (tripLatched s x ob loc) := by
  unfold tripLatched
  extract_lets since
  split
  · exact (State.setSrc_tripped s { x with since := 0, recAt := s.clk, recorded := true } h).step
      (State.faultRecord_reacts _ _ _ _ (Reaction.refl _))
  · exact State.setSrc_tripped s { x with since := since } h

/-- A trip of a source that is used, with D1 powered (R344, R346). -/
theorem State.trip_tripped (s : State) (k : Nat) (act : Bool) (ob : Option Nat) (loc : Bool)
    (hk : (sourceRow k).isSome) (hp : s.powered 1) : Tripped k act s (s.trip k act ob loc) := by
  have hs : (s.src k).src = k := by
    unfold State.src
    split
    · rename_i h; simpa using List.find?_some h
    · rfl
  unfold State.trip
  rw [if_neg (by simp [hp, Option.isNone_eq_false_iff.mpr hk])]
  extract_lets x x' u
  have hu : Tripped k act s u := by
    have hx : x'.src = k := hs
    have ht : x'.total = min 255 ((s.src x'.src).total + 1) := by rw [hx]
    unfold u
    split
    · exact cast (congrArg (fun j => Tripped j act s _) hx) (tripLatched_tripped (s := s) { x' with sec := (s.windowFor k).isSome } ob loc ht)
    · split
      · exact cast (congrArg (fun j => Tripped j act s _) hx) (tripSecondary_tripped (s := s) x' _ ob loc ht)
      · exact cast (congrArg (fun j => Tripped j act s _) hx) (tripPrimary_tripped (s := s) x' ob loc ht)
  exact hu.step (State.arranged_reacts _ _ (State.fcsStat_reacts _ (demandWindow_reacts _ _ _ (Reaction.refl _))))

end Sys2Proof.Machine
end

