-- ==== Sys2Proof/Laws/Records.lean ====
section
/-! SUPPORT. What placing a record, completing an operation and notifying a context do, said once each. -/

namespace Sys2Proof.Machine

variable {s : State} {k : Ctx}

/-- A register write of one field leaves the words kept elsewhere alone. -/
theorem State.wr_regsBut (s : State) (f : Fld) (v : Nat) : RegsBut [f.off] s (s.wr f v) := fun o ho =>
  State.reg_setReg_ne s _ (by simpa using ho)

theorem RegsBut.refl (l : List Nat) (s : State) : RegsBut l s s := fun _ _ => rfl

theorem RegsBut.mono {l l' : List Nat} {s t : State} (h : RegsBut l s t) (hl : l ⊆ l') : RegsBut l' s t :=
  fun o ho => h o fun hm => ho (hl hm)

theorem RegsBut.trans {l : List Nat} {a b c : State} (h : RegsBut l a b) (g : RegsBut l b c) : RegsBut l a c :=
  fun o ho => (g o ho).trans (h o ho)

theorem State.setCtx_setCtx (s : State) (k : Ctx) (x y : CtxS) : (s.setCtx k x).setCtx k y = s.setCtx k y := by
  simp [State.setCtx]

@[simp] theorem State.ctx_emit (s : State) (k : Ctx) (o : Out) : (s.emit o).ctx k = s.ctx k := rfl

@[simp] theorem State.ctx_wr (s : State) (k : Ctx) (f : Fld) (v : Nat) : (s.wr f v).ctx k = s.ctx k := rfl

/-- What counting and signalling a record come to (R115, R116). -/
theorem State.issued_cases (s : State) (k : Ctx) (urgent : Bool) : ∃ u v m,
    let z := s.setCtx k { s.ctx k with unsig := u, unsigAt := v, modTime := m }
    s.issued k urgent = z ∨ s.issued k urgent = z.wr (msixPend (s.ctxPort k) k) 1 ∨
      s.issued k urgent = z.emit (msixOut s (s.ctxPort k) k) := by
  unfold State.issued
  dsimp only
  generalize (if (s.ctx k).unsig = 0 then s.clk else (s.ctx k).unsigAt) = v
  split
  · unfold State.signal
    dsimp only
    split
    · exact ⟨_, v, _, .inr (.inl rfl)⟩
    · refine ⟨0, v, s.rd (F.HIF_CTX_MOD_TIME k), .inr (.inr ?_)⟩
      unfold State.message
      rw [if_pos rfl, State.setCtx_setCtx]
      simp only [State.ctx_setCtx_self]
      rfl
  · exact ⟨_, v, _, .inl rfl⟩

/-- Placing a record (R96, R115, R124). -/
theorem State.place_placed (s : State) (k : Ctx) (cls : Dma) (i addr : Nat) (ws : List Word) (urgent : Bool) :
    Placed k cls i addr ws s (s.place k cls i addr ws urgent) := by
  unfold State.place
  by_cases h : s.canSend (s.ctxPort k)
  · simp only [h, if_true]
    obtain ⟨u, v, m, e | e | e⟩ := State.issued_cases (s.emit (.record (s.ctxPort k) k cls i addr ws)) k urgent <;> rw [e]
    · refine ⟨fun _ => .inl rfl, fun _ => ⟨rfl, rfl, RegsBut.refl _ _⟩, fun e => absurd h e, ?_, fun j hj => ?_, rfl⟩
      · simp
      · simp [State.ctx_setCtx_ne, hj]
    · refine ⟨fun _ => .inl rfl, fun _ => ⟨rfl, rfl, ?_⟩, fun e => absurd h e, ?_, fun j hj => ?_, rfl⟩
      · exact State.wr_regsBut _ (msixPend (s.ctxPort k) k) 1
      · simp
      · simp [State.ctx_setCtx_ne, hj]
    · refine ⟨fun _ => .inr ?_, fun _ => ⟨rfl, rfl, RegsBut.refl _ _⟩, fun e => absurd h e, ?_, fun j hj => ?_, rfl⟩
      · simp [State.emit, State.setCtx]; rfl
      · simp
      · simp [State.ctx_setCtx_ne, hj]
  · simp only [h, Bool.false_eq_true, if_false]
    refine ⟨fun e => absurd e h, fun e => absurd e h, fun _ => ⟨?_, ?_, ?_, fun p hp => ?_, ?_⟩, ?_, fun j _ => ?_, ?_⟩
    case refine_4 =>
      cases hq : s.ctxPort k <;> cases p
      · exact absurd hq.symm hp
      · rfl
      · rfl
      · exact absurd hq.symm hp
    case refine_5 => simp only [State.wr, State.setReg, State.reg, State.setPort_regs]
    case refine_1 => simp only [State.wr, State.setReg_sent, State.setPort_sent]
    case refine_2 => simp only [State.wr, State.setReg_ctxs, State.setPort_ctxs]
    case refine_3 => cases s.ctxPort k <;> rfl
    case refine_6 => simp only [State.ctx, State.wr, State.setReg_ctxs, State.setPort_ctxs]
    case refine_7 => simp only [State.ctx, State.wr, State.setReg_ctxs, State.setPort_ctxs]
    case refine_8 => cases s.ctxPort k <;> rfl

/-- A completion record (R96, R104). -/
theorem State.complete_recorded (s : State) (k : Ctx) (ws : List Word) : Recorded k ws s (s.complete k ws) :=
  State.place_placed _ k .completion _ _ _ false

/-- An event record (R96, R104). -/
theorem State.putEvent_notified (s : State) (k : Ctx) (e : Event) : Notified k e s (s.putEvent k e) :=
  State.place_placed _ k .event _ _ _ e.fault

/-- An event for a context that can take it (R113, R114). -/
theorem State.eventTo_notified (s : State) (k : Ctx) (e : Event) (h : CanNotify s k) :
    Notified k e s (s.eventTo k e) := by
  obtain ⟨h1, h2, h3⟩ := h
  have : s.flushLost k = s := by simp [State.flushLost, h2]
  simp only [State.eventTo, h1, this, h3, if_true]
  exact State.putEvent_notified s k e

theorem State.countEnd_rest (s : State) (o : Op) (st : Status) :
    s.countEnd o st = { s with cnd := { s.cnd with counts := (s.countEnd o st).cnd.counts } } := by
  have one : ∀ (s : State) (v : Nat), s.addCounter v = { s with cnd := { s.cnd with counts := (s.addCounter v).cnd.counts } } :=
    fun _ _ => rfl
  have many : ∀ (f : Axis → Nat) (l : List Axis) (s : State), ∃ c, each l (fun s n => s.addCounter (f n)) s =
      { s with cnd := { s.cnd with counts := c } } := by
    intro f l
    induction l with
    | nil => exact fun s => ⟨s.cnd.counts, rfl⟩
    | cons n l ih =>
      intro s
      obtain ⟨c, hc⟩ := ih (s.addCounter (f n))
      exact ⟨c, hc⟩
  have key : ∃ c, s.countEnd o st = { s with cnd := { s.cnd with counts := c } } := by
    unfold State.countEnd
    dsimp only
    generalize ((o.op = 1 || o.op = 2 || o.op = 3 || o.op = 7 || o.op = 8) && o.d.closing &&
      (st = .done || st = .reversed)) = c1
    have first : ∃ c, (if c1 = true then each o.axes (fun s n => s.addCounter (64 + 12 * n.val)) s else s) =
        { s with cnd := { s.cnd with counts := c } } := by
      split
      · exact many (fun n => 64 + 12 * n.val) o.axes s
      · exact ⟨_, rfl⟩
    obtain ⟨c, hc⟩ := first
    rw [hc]
    split
    · obtain ⟨c2, h2⟩ := many (fun n => 72 + 12 * n.val) o.axes { s with cnd := { s.cnd with counts := c } }
      exact ⟨c2, h2⟩
    · exact ⟨c, rfl⟩
  obtain ⟨c, h⟩ := key
  rw [h]

theorem Recorded.cnd {ws : List Word} {s t : State} (h : Recorded k ws s t) : t.cnd = s.cnd := by
  rw [h.rest]; rfl

/-- An operation that holds a tag ends (R111, R147, R149, R155). -/
theorem State.finish_ended (s : State) (o : Op) (st : Status) (t1 t2 detail fl : Nat) (h : s.opOf o.tag = some o) :
    Ended o st t1 t2 detail (fl + (if o.unaligned then 1 else 0) + (if o.deferred then 8 else 0)) s
      (s.finish o.tag st t1 t2 detail fl) := by
  simp only [State.finish, h]
  unfold Ended
  have hr := State.complete_recorded
    { s.countEnd o st with
      ops := (s.countEnd o st).ops.filter (fun x => x.tag ≠ o.tag)
      plans := (s.countEnd o st).plans.map fun a : AxisPlan => { a with galley := a.galley.filter fun g => g.tag ≠ o.tag } }
    o.ctx (cplWords (some o.tag) false true st o.op o.d.cookie t1 t2 detail o.index
      (fl + (if o.unaligned then 1 else 0) + (if o.deferred then 8 else 0)))
  have hc := hr.cnd
  rw [State.countEnd_rest] at hr hc ⊢
  rw [hc]
  exact hr

/-- A row that emits no record and holds none leaves the order of its records as it is (R50). -/
theorem State.arranged_quiet (a s : State) (h : s.sent = a.sent) (hA : s.portA.held = a.portA.held)
    (hB : s.portB.held = a.portB.held) : State.arranged a s = s := by
  have ho : orderStreams Out.stream Out.words Out.withWords a.ops [] = [] := rfl
  have hh : orderStreams Held.stream Held.words Held.withWords a.ops [] = [] := rfl
  unfold State.arranged
  rw [← h]
  dsimp only
  rw [← hA, ← hB]
  simp only [List.take_length, List.drop_length, ho, hh, List.insertionSort_nil, List.append_nil]

end Sys2Proof.Machine
end

