-- ==== Sys2Proof/WellFormed.lean ====
section
/-! DEFINITION. Which commands are well formed: operands that name something the spec has, and descriptors that lie under
the row of the table their body belongs to. A command that is not is still run by `exec`, by what it holds. -/

namespace Sys2Proof

open Sys2Proof.Machine

/-- No key is listed twice. -/
def distinctKeys {α β : Type} [DecidableEq α] (l : List (α × β)) : Bool := decide (l.map (·.1)).Nodup

def Instr.wellFormed : Instr → Bool
  | .frameTick raws offs missed => distinctKeys raws && distinctKeys offs && decide missed.Nodup
  | .halfFrameTick missed => decide missed.Nodup
  | .badOpcode _ op _ => !opcodes.contains op.toNat
  | .telemetryStart _ d => decide (d.u8 17 ≠ 0)
  | .telemetryStop _ d => decide (d.u8 17 = 0)
  | .calibrateSlice _ d => decide (d.u8 16 ≠ 1 ∧ d.u8 16 ≠ 2)
  | .calibrateFull _ d => decide (d.u8 16 = 1)
  | .calibrateIdentify _ d => decide (d.u8 16 = 2)
  | .faultTrip src object => (sourceRow src.val).isSome && (object.isNone || decide (src.val = 36))
  | .fullCalibrationDone _ offs => distinctKeys offs
  | .domainPowered dom _ offs _ => decide (dom.val ≠ 0) && distinctKeys offs
  | .registerWrite _ off _ _ _ => decide (off.toNat % 4 = 0)
  | .cndApprove _ w => decide (w &&& 0x0000FFF0#32 = 0#32)
  | .cndDecline _ w => decide (w &&& 0x0000FFF0#32 = 0#32)
  | _ => true

end Sys2Proof
end

