-- ==== Sys2Proof/Tests/Slice0.lean ====
section
/-! SUPPORT. Small tests of the model, the smoke test of well-formedness, and for every statement with hypotheses a state
and operands that meet them. -/

open Sys2Proof Sys2Proof.Machine

namespace Sys2Proof.Tests

-- One theorem at a time: each evaluation by the kernel would otherwise wait in a thread of its own.
set_option Elab.async false

/-- A running device: every domain powered, READY, frames ticking, and both links up with their functions able to send. -/
def live : State :=
  (((({ State.reset with
      ticking := true
      gtcRuns := true
      portA := { PortS.init with everUp := true, master := true, ptmOn := true, msixOn := true }
      portB := { PortS.init with everUp := true, master := true, ptmOn := true, msixOn := true } }.wr F.PMU_DOM_STAT_PG 0xFFFF).wr
    F.LCS_LC_STAT_READY 1).wr (onPort .A F.HIF_PORT_STAT_LINK_UP) 1).wr (onPort .B F.HIF_PORT_STAT_LINK_UP) 1).wr
    F.LCS_RST_CAUSE_POR 0

/-! ### The queue, reset and what every step keeps -/

theorem witness_empty_queue : live.pending = [] := by decide

theorem witness_canonical : Memory.wf live ∧ ∃ t, step live = .next t :=
  ⟨by decide +kernel, _, rfl⟩

theorem witness_fields : F.PMU_DOM_STAT_PG.ok ∧ F.TBS_PTM_STAT_LOST.ok ∧ F.TBS_PTM_STAT_LOST.hi < 24 ∧
    State.reset.seqDone.lookup Reg.TBS_PTM_STAT = none ∧
    ((State.reset.sqc F.TBS_PTM_STAT_LOST).seqDone.lookup Reg.TBS_PTM_STAT).isSome ∧
    live.rd F.TBS_PTM_STAT_MISSED + 255 < 2 ^ 8 ∧ 2 ^ 8 ≤ live.rd F.TBS_PTM_STAT_MISSED + 256 := by decide

/-- Two events in one clock raise SEQ once (R72). -/
theorem test_seq_once_per_clock :
    ((State.reset.sqc F.TBS_PTM_STAT_LOST).sqc F.TBS_PTM_STAT_LOST).rd ⟨Reg.TBS_PTM_STAT, 31, 24⟩ = 1 := by decide

/-! ### The time base -/

def ptmIdle : State := live.wr F.TBS_PTM_CTRL_EN 1
def ptmOpen : State := { ptmIdle with tbs := { TbsS.init with ptmBusy := true } }
def ptmLocked (s : State) : State := s.wr F.TBS_PTM_STAT_LOCK 1

theorem witness_ptm_start : ptmRuns ptmIdle ∧ ¬ ptmIdle.tbs.ptmBusy ∧ ptmIdle.rd F.TBS_PTM_CTRL_PORT = ptmIdle.tbs.ptmPort ∧
    ptmRuns (ptmIdle.wr F.TBS_PTM_CTRL_PORT 1) ∧ ¬ (ptmIdle.wr F.TBS_PTM_CTRL_PORT 1).flag F.TBS_PTM_STAT_LOCK ∧
    (ptmIdle.wr F.TBS_PTM_CTRL_PORT 1).rd F.TBS_PTM_CTRL_PORT ≠ ptmIdle.tbs.ptmPort ∧
    (ptmLocked (ptmIdle.wr F.TBS_PTM_CTRL_PORT 1)).flag F.TBS_PTM_STAT_LOCK ∧
    (ptmLocked (ptmIdle.wr F.TBS_PTM_CTRL_PORT 1)).powered 1 := by decide

theorem witness_ptm_done : ptmRuns ptmOpen ∧ ptmOpen.tbs.ptmBusy ∧ ptmAnswers ptmOpen ∧
    ptmOffset ptmOpen 100#64 0#32 = -100 ∧ ptmOffset ptmOpen 0#64 502#32 = -251 ∧ ptmOffset ptmOpen 999#64 0#32 = -999 ∧
    ptmOffset ptmOpen 1000000#64 0#32 = -1000000 ∧ ptmOpen.rd F.TBS_PTM_CTRL_STEP_THR = 1000 ∧ stepAllowed ptmOpen ∧
    ptmOffset ptmOpen 2000#64 0#32 = -2000 := by decide +kernel

theorem witness_ptm_failed : ptmOpen.tbs.ptmBad < 2 ∧
    2 ≤ ({ ptmLocked ptmOpen with tbs := { TbsS.init with ptmBusy := true, ptmBad := 2 } } : State).tbs.ptmBad ∧
    (ptmLocked ptmOpen).flag F.TBS_PTM_STAT_LOCK ∧ (ptmLocked ptmOpen).powered 1 ∧ ptmRuns (ptmLocked ptmOpen) := by
  decide

/-- An offset of 1 us ahead of the host is slewed away with RATE at its lower limit (R43). -/
theorem test_ptm_slew : (ptmSteer ptmOpen 1000).rdS F.TBS_GTC_RATE_RATE = -32768 := by decide

def steps : State := { live with clk := 10, tickClk := 10, reqs := [(.gtcStep 5000, 9)] }

theorem witness_gtc_step : steps.atTick ∧ steps.reqs.head? = some (.gtcStep 5000, 9) ∧ 9 < steps.tickClk ∧
    stepAllowed steps ∧
    ¬ stepAllowed { steps with ops := [⟨0, 0, 1, ⟨0#8, 0#8, 0#32, 0#64, Vector.replicate 40 0#8, 0#16, false⟩, 0, [], 1,
      none, false, false, [], false, []⟩] } := by decide +kernel

def follower : State := live.wr F.TBS_SYNC_CTRL_MODE 2

theorem witness_sync_edge : isFollower follower ∧ follower.ticking ∧ follower.powered 5 ∧ follower.tbs.syncEdge = none ∧
    syncUsable follower 3 (syncTickOf follower 3).2 ∧ ¬ follower.anyEnergised ∧
    (syncTickOf follower 3).1 = follower.rd F.TBS_FRAME_CNT_FRAME ∧
    ¬ syncUsable (follower.wr F.TBS_SYNC_STAT_LOCK 1) 3
      (syncTickOf { follower.wr F.TBS_SYNC_STAT_LOCK 1 with clk := 1000 } 3).2 ∧
    follower.tfNs + 1000 < 4 * 30000 - 0 := by decide +kernel

theorem witness_sync_lost : isFollower { follower with tbs := { TbsS.init with syncMiss := 4 } } ∧
    (follower.wr F.TBS_SYNC_STAT_LOCK 1).flag F.TBS_SYNC_STAT_LOCK ∧ follower.powered 1 := by decide

/-! ### Clocks -/

/-- CLK_STAT with a reference, and the states of the XO and of REC. -/
def clocks (ref xo rec : Nat) : State :=
  ((live.wr F.CLK_STAT_REF ref).wr F.CLK_STAT_XO xo).wr F.CLK_STAT_REC rec

theorem witness_clock_stops : clkOn (clocks 1 2 2) ∧ (clocks 1 1 2).rd F.CLK_STAT_XO ≠ 2 ∧
    (clocks 1 2 1).rd F.CLK_STAT_REC ≠ 2 ∧ (clocks 1 2 2).ckg.sw = none ∧ (clocks 2 2 2).rd F.CLK_STAT_REF ≠ 1 ∧
    (clocks 1 2 2).rd F.CLK_STAT_REF = 1 ∧ (clocks 1 2 2).rd F.CLK_STAT_REC = 2 ∧
    ¬ ((clocks 1 2 2).lcs.causes.contains 5 || (clocks 1 2 2).lcs.causes.contains 6) ∧
    (clocks 1 2 0).rd F.CLK_STAT_REC ≠ 2 ∧ (clocks 1 2 0).powered 1 ∧ (clocks 1 2 2).rd F.CLK_STAT_REF ≠ 2 := by decide

def xoNearly : State := { clocks 1 1 0 with ckg := { CkgS.init with xoGood := 3 } }
def recNearly : State := { (clocks 1 2 1).wr F.CKG_CFG_REC_EN 1 with ckg := { CkgS.init with recGood := 15 } }

theorem witness_clock_windows : clkOn xoNearly ∧ xoNearly.rd F.CLK_STAT_XO = 1 ∧ ¬ xoNearly.flag F.CLK_STAT_HOLD ∧
    xoNearly.rd F.CLK_STAT_REF ≠ 0 ∧ recNearly.rd F.CLK_STAT_REC = 1 ∧ recEligible recNearly ∧
    ¬ recNearly.flag F.CLK_STAT_HOLD ∧ recNearly.rd F.CLK_STAT_REF ≠ 0 := by decide

/-- A deviation of exactly 300 ppm is still a good window of REC, one of 301 ppm is not (R377). -/
theorem test_rec_window_limit :
    (match execClockMonitorWindow 2 300 true recNearly with | .next t => t.rd F.CLK_STAT_REC | _ => 0) = 2 ∧
    (match execClockMonitorWindow 2 301 true recNearly with | .next t => t.rd F.CLK_STAT_REC | _ => 0) = 1 := by decide

def forced : State := { clocks 1 2 0 with ckg := { CkgS.init with sw := some (1, 0, true) } }
def noLock : State := clocks 1 2 0
def locked : State := noLock.wr F.CLK_STAT_LOCK 1
def heldOn (c : Nat) (s : State) : State := { s.wr F.LCS_LC_STAT_HELD 1 with lcs := { s.lcs with causes := [c] } }
def holding : State := (clocks 3 3 0).wr F.CLK_STAT_HOLD 1
def returning : State :=
  { (clocks 2 2 2).wr F.CLK_STAT_LOCK 1 with clk := 10, tickClk := 10, reqs := [(.clkReturn, 9)] }

theorem witness_clock_switches : clkOn forced ∧ forced.ckg.sw = some (1, 0, true) ∧ forced.powered 1 ∧
    forced.rd F.CLK_STAT_HOLD = 0 ∧ clkOn noLock ∧ ¬ noLock.flag F.CLK_STAT_LOCK ∧ ¬ noLock.flag F.CLK_STAT_HOLD ∧
    noLock.ckg.sw = none ∧ ¬ noLock.ckg.expired ∧ noLock.rd F.CLK_STAT_REF ≠ 0 ∧ locked.flag F.CLK_STAT_LOCK ∧
    clkValid locked (locked.rd F.CLK_STAT_REF) ∧ locked.powered 1 ∧ clkOn locked ∧ 6 ∈ (heldOn 6 noLock).lcs.causes ∧
    clkOn (heldOn 6 noLock) ∧ ¬ (heldOn 6 noLock).flag F.CLK_STAT_LOCK ∧ holding.flag F.CLK_STAT_HOLD := by decide

theorem witness_switch_waits : let s := { forced.wr F.CLK_STAT_REC 2 with
      ckg := { CkgS.init with sw := some (1, 0, true), waits := true } }.wr F.CKG_CFG_PREF 1
    clkOn s ∧ s.powered 1 ∧ s.rd F.CLK_STAT_HOLD = 0 ∧ s.ckg.waits ∧ nextRef s = 2 ∧ forced.ckg.waits = false := by decide

theorem witness_clock_returns : (heldOn 5 locked).inHeld ∧ (heldOn 5 locked).atTick ∧
    (∀ c ∈ (heldOn 5 locked).lcs.causes, c = 5 ∨ c = 6) ∧ (heldOn 5 locked).flag F.CLK_STAT_LOCK ∧
    (heldOn 5 locked).rd F.CLK_STAT_REF = 1 ∧ (heldOn 5 locked).rd F.CLK_STAT_XO = 2 ∧
    canWrite live .A Reg.CKG_CTRL ∧ canWrite live .B Reg.CKG_CTRL ∧ (clocks 0 1 0).rd F.CLK_STAT_XO = 1 ∧
    (clocks 0 3 0).rd F.CLK_STAT_XO ≠ 1 ∧ (clocks 0 3 0).rd F.CLK_STAT_XO ≠ 2 ∧ canWrite (clocks 0 3 0) .A Reg.CKG_CTRL ∧
    returning.atTick ∧ returning.ckg.sw = none ∧ returning.ripe .clkReturn ∧ mayReturn returning ∧
    ¬ returning.flag F.CLK_STAT_HOLD ∧ ¬ mayReturn (returning.wr F.CLK_STAT_REF 1) := by decide

/-! ### Supplies, domains and Fallow states -/

def rising (d : Nat) (s : State) : State :=
  { s.wr F.PMU_DOM_STAT_PG (0xFFFF - 2 ^ d) with pmu := { s.pmu with rising := [(d, 0)] } }
def rebooted : State := { live with lcs := { live.lcs with rstLow := false } }

theorem witness_rails : live.powered 1 ∧ State.reset.pmu.vaon ∧ ¬ State.reset.pmu.pwren ∧ ¬ State.reset.pmu.retry ∧
    State.reset.rd F.PMU_STAT_STATE ≠ 5 ∧
    ({ PmuS.init with pwren := true } : PmuS).pwren ∧ ¬ ({ PmuS.init with pwren := true } : PmuS).rails ∧
    State.reset.lcs.rstLow ∧ ¬ rebooted.lcs.rstLow ∧ ({ PmuS.init with retry := true } : PmuS).retry := by decide

def risenQuad : State := (rising 8 live).wr (F.FBK_CFG_MODE (7 : Axis)) 2
def risenAna (valid : Bool) (untested : Nat) : State :=
  ({ rising 15 live with adcs := (rising 15 live).adcs.set 3 { AdcS.init 3 with valid := valid } }).wr F.LCS_ST_RES_UNTESTED
    untested

theorem witness_domains : (rising 5 live).pmu.rising = [(5, 0)] ∧ (parents 5).all (rising 5 live).powered ∧
    risenQuad.pmu.rising = [(8 + (0 : Bank).val, 0)] ∧ risenQuad.powered 5 ∧ risenQuad.powered 6 ∧
    bankOfAxis 7 = 0 ∧ isQuad risenQuad 7 ∧ bankOfAxis 8 ≠ 0 ∧
    (risenAna true 0).pmu.rising = [(12 + (3 : Bank).val, 0)] ∧ (risenAna true 0).powered 1 ∧
    (risenAna true 0).powered 11 ∧ ((risenAna true 0).adc 3).valid ∧
    ¬ bit 3 ((risenAna true 0).rd F.LCS_ST_RES_UNTESTED) ∧ bit 3 ((risenAna true 8).rd F.LCS_ST_RES_UNTESTED) ∧
    ((risenAna true 8).adc 3).valid ∧ (risenAna true 8).powered 11 := by decide

def asking (req : Nat) : State := { live.wr F.PMU_DOM_REQ_REQ req with clk := 10, tickClk := 10 }

theorem witness_domain_request : (asking 0xF18).atTick ∧ (asking 0xF18).rd F.PMU_STAT_STATE < 2 ∧
    ¬ (asking 0xF18).lcs.booting ∧ (∀ n, (asking 0xF18).energised n = false) ∧
    bit 3 ((asking 0xF18).rd F.PMU_DOM_REQ_REQ) ∧ bit 4 ((asking 0xF18).rd F.PMU_DOM_REQ_REQ) := by decide

/-- Two domains requested off at one tick go child first; a parent whose child stays is refused (R394). -/
theorem test_domain_request : (execDomainRequestApply (asking 0xF18) matches .next _) ∧
    (match execDomainRequestApply (asking 0x1018) with
      | .next t => (t.rd F.PMU_DOM_STAT_PG, t.rd F.PMU_DOM_REQ_REQ, t.flag F.PMU_STAT_DOM_REF) | _ => (0, 0, false)) =
      (0x11FF, 0x1118, true) := by decide +kernel

theorem witness_domain_lost : (∀ d : Fin 16, live.powered d.val) ∧ (8 : Fin 16).val = 8 + (0 : Bank).val ∧
    (12 : Fin 16).val ∈ below (8 : Fin 16).val ∧ (8 : Nat) ∈ below (6 : Fin 16).val := by decide +kernel

/-- D6 takes the bank domains with it, and D12 to D15 need D1 (R20). -/
theorem test_domains_that_need_a_lost_one :
    (match execDomainPowerGoodLost 6 live with | .next t => t.rd F.PMU_DOM_STAT_PG | _ => 0) = 0xBF ∧
    (match execDomainPowerGoodLost 1 live with | .next t => t.rd F.PMU_DOM_STAT_PG | _ => 0) = 0xFFD := by decide +kernel

/-! ### Fallow states and debug halt -/

/-- A running device at a frame tick, its power-state registers set. -/
def resting (st deepest : Nat) : State :=
  { ((rebooted.wr F.PMU_STAT_STATE st).wr F.PMU_CFG_DEEPEST deepest).wr F.PMU_CFG_LAT 0xFFFF with
    clk := 10, tickClk := 10, reqs := [(.fallowEnter, 9)] }

theorem witness_fallow_entry : (resting 1 1).atTick ∧ ¬ (resting 1 1).lcs.booting ∧ ¬ (resting 1 1).lcs.rstLow ∧
    (resting 1 1).pmu.entering = none ∧ (resting 1 1).ripe .fallowEnter ∧ ¬ (resting 1 1).halted ∧
    (resting 1 1).ckg.sw = none ∧ fallowTarget (resting 1 1) = some 1 ∧ (resting 1 1).rd F.PMU_STAT_STATE < 2 ∧
    fallowTarget (resting 1 0) = none := by decide +kernel

def dwelling : State :=
  { (resting 1 1).wr F.PMU_CFG_AUTO 1 with clk := 3000000000, tickClk := 3000000000, pmu := { PmuS.init with since := some (1, 0) } }

theorem witness_fallow_dwell : dwelling.pmu.since = some (1, 0) ∧ dwelling.atTick ∧ dwelling.flag F.PMU_CFG_AUTO ∧
    fallowTarget dwelling = some 1 ∧ dwelling.rd F.PMU_STAT_STATE < 1 + 1 ∧
    0 + msClk (dwelling.rd F.PMU_DWELL_DWELL) ≤ dwelling.clk := by decide +kernel

def woken : State := { resting 2 1 with pmu := { PmuS.init with wake := some (3, 0) } }

theorem witness_wakes : (resting 2 1).pmu.wake = none ∧ 2 ≤ (resting 2 1).rd F.PMU_STAT_STATE ∧
    (resting 5 1).rd F.PMU_STAT_STATE = 5 ∧ ((resting 3 1).wr F.PMU_WAKE_EN_WEN 1).flag F.PMU_WAKE_EN_WEN ∧
    (resting 3 1).pmu.shadow = none ∧ (resting 3 1).rd F.PMU_STAT_STATE ∈ [2, 3] ∧
    canWrite (resting 2 1) .A Reg.PMU_CTRL ∧ woken.pmu.wake.isSome ∧ ¬ woken.pmu.resuming ∧
    woken.rd F.PMU_STAT_STATE ∈ [2, 3] := by decide

theorem witness_resume_done : ({ woken.pmu with resuming := true } : PmuS).resuming ∧ woken.pmu.rising = [] ∧
    ¬ woken.lcs.booting ∧ woken.rd F.PMU_STAT_STATE < 4 ∧ woken.pmu.wake = some (3, 0) := by decide

def halting : State :=
  { live.wr F.LCS_LC_STAT_STATE lcCommissioning with clk := 10, tickClk := 10, reqs := [(.halt, 9), (.resume, 9)] }
def inHalt : State := halting.wr F.LCS_LC_STAT_HALTED 1

theorem witness_debug_halt : halting.atTick ∧ halting.ripe .halt ∧ ¬ halting.halted ∧ halting.lcOpen ∧
    ¬ halting.anyEnergised ∧ (∀ n, (halting.plan n).galley = []) ∧
    ¬ (halting.wr F.LCS_LC_STAT_STATE lcOperational).lcOpen ∧
    (halting.setPlan 31 { AxisPlan.init with st := .standing }).anyEnergised ∧
    (halting.setPlan 31 { AxisPlan.init with st := .standing }).lcOpen := by decide +kernel

theorem witness_debug_resume : halting.ripe .resume ∧ inHalt.ripe .resume ∧ inHalt.atTick ∧ inHalt.halted := by decide

/-- Half-bridge 3 forced with its high side on, in a halt. -/
def frozenHigh : State :=
  (inHalt.wr F.GDR_STO_STAT_EN 1).setHb 3 { HbS.init with force := 5, frozen := some true }

theorem witness_halt_notch : frozenHigh.halted ∧ (frozenHigh.hb 3).frozen = some true ∧ ¬ frozenHigh.hiz 3 := by
  decide +kernel

/-! ### Resets and the boot -/

def unpowered : State := { State.reset with pmu := { PmuS.init with vaon := false } }
def railed (s : State) : State := { s with pmu := { s.pmu with rails := true } }

theorem witness_resets : unpowered.pmu.vaon = false ∧ live.pmu.vaon ∧ live.rd F.PMU_STAT_STATE ≠ 5 ∧
    (railed live).lcs.rstLow ∧ (railed live).pmu.rails ∧ (railed live).pmu.vaon ∧ canWrite live .A Reg.LCS_RST_CTRL ∧
    inHalt.halted ∧ canWrite inHalt .A Reg.LCS_RST_CTRL ∧ ¬ live.halted ∧ live.lcs.cmdAt = none ∧
    gateOn (frozenHigh.wr F.LCS_LC_STAT_HALTED 0) 3 ∧
    ({ LcsS.init with cmdAt := some 99 } : LcsS).cmdAt = some 99 := by decide +kernel

theorem witness_late_command_reset :
    let s : State := { live with clk := 10, tickClk := 10, reqs := [(.cmdReset, 9)] }
    s.lcs.cmdAt = none ∧ s.atTick ∧ s.ripe .cmdReset ∧ ¬ s.halted := by decide

def booting : State := { live with lcs := { LcsS.init with booting := true } }
def imaged (l : LcsS) : State := { live with lcs := { l with booting := true } }
def fine : SliceCal := ⟨0, 0, 0, true⟩
def passes : SelfTest where
  cores := 0
  logic := false
  mem := false
  fcs := false
  banks := 0
  vgOut := 0
  clock := false
  sto := false
  crypto := false
  cals := allBanks.flatMap fun b => (List.finRange 5).map fun q => (b, q, fine)
  offs := []

theorem witness_boot : booting.lcs.booting ∧ ¬ booting.lcs.verified ∧ booting.lcs.short = false ∧
    booting.lcs.active = some ⟨4096, 0, 0, true⟩ ∧ minSvn booting ≤ 0 ∧
    (imaged { LcsS.init with staged := some ⟨4096, 63, 1, true⟩ }).lcs.staged = some ⟨4096, 63, 1, true⟩ ∧
    minSvn (booting.wr F.LCS_FW_STAT_MIN_SVN 63) ≤ 63 ∧ ¬ booting.lcs.tested ∧ booting.lcs.store = none ∧
    (∀ b : Bank, countBits 5 (booting.rd (F.ADC_ROT_FAILED b)) < 2) ∧ (∀ b q, ∃ x, (b, q, x) ∈ passes.cals) ∧
    (∀ x ∈ passes.cals, sliceOk x.2.2) ∧ 2 ≤ countBits 5 (3 : BitVec 5).toNat := by
  refine ⟨by decide, by decide, by decide, by decide, by decide, by decide, by decide, by decide, by decide, by decide +kernel,
    fun b q => ⟨fine, ?_⟩, by decide +kernel, by decide⟩
  revert b q
  decide +kernel

theorem witness_boot_ready : let s := imaged { LcsS.init with verified := true, tested := true, restored := true }
    s.atTick ∧ s.lcs.verified ∧ s.lcs.tested ∧ s.lcs.restored ∧ ¬ s.inHeld := by decide

/-- A failed logic item shows in LCS_ST_RES (R412). -/
theorem test_self_test_results : (booting.testResults { passes with logic := true }).reg Reg.LCS_ST_RES = 0x20#32 := by
  decide +kernel

/-! ### Planner cores, firmware, the life cycle -/

def body (l : List Byte) : Vector Byte 40 := Vector.ofFn fun i => l.getD i.val 0#8
/-- A descriptor with the given target and body, phase 1. -/
def desc (target : Byte) (l : List Byte) : Desc := ⟨0#8, target, 0#32, 0#64, body l, 0#16, true⟩
def opFor (op : Nat) (d : Desc) : Op := ⟨0, 0, op, d, 0, [], 0, none, false, false, [], false, []⟩
def withOp (o : Op) (s : State) : State := { s with ops := [o] }
def loading : State := { live with lcs := { LcsS.init with load := some (4, 0) } }
def swapping : State := withOp (opFor 0x29 (desc 3 [])) live

theorem witness_cores : loading.lcs.load = some ((4 : Core).val, 0) ∧ coreFailed loading (4 : Core).val = false ∧
    (loading.wr F.MPL_CORE_MAP_SPARE 7).rd F.MPL_CORE_MAP_SPARE ≠ 4 ∧ loading.powered 1 ∧
    swapping.ops.find? (fun o : Op => o.op = 0x29) = some (opFor 0x29 (desc 3 [])) ∧
    swapping.opOf 0 = some (opFor 0x29 (desc 3 [])) ∧ swapping.atTick ∧ 0 ≤ swapping.now ∧ ¬ firstPending swapping ∧
    ¬ swapDeferred swapping (desc 3 []).bank ∧ coreOf swapping (desc 3 []).bank ≠ 7 ∧
    swapping.rd F.MPL_CORE_MAP_SPARE ≠ 7 ∧
    swapDeferred (swapping.wr (F.LES_STAT_OBS (31 : Axis)) 1) (desc 3 []).bank := by decide +kernel

def late : State := live.setBank 3 { BankS.init with missRun := 2 }
def failed : State := live.wr F.MPL_CORE_MAP_FAILED 1

theorem witness_core_failure : (coreOf late 3 = (3 : Core).val ∧ 2 ≤ (late.bank 3).missRun) ∧
    coreFailed late (3 : Core).val = false ∧ late.rd F.MPL_CORE_MAP_SPARE ≠ (3 : Core).val ∧ late.lcs.load = none ∧
    late.powered 1 ∧ failed.atTick ∧ ¬ firstPending failed ∧ coreOf failed 0 ≠ 7 ∧ coreFailed failed (coreOf failed 0) ∧
    coreFailed failed (failed.rd F.MPL_CORE_MAP_SPARE) = false ∧
    (∀ a, a ≠ 0 → coreOf failed a = 7 ∨ coreFailed failed (coreOf failed a) = false) ∧
    (∀ b, coreOf live b = 7 ∨ coreFailed live (coreOf live b) = false) := by decide +kernel

def committing : State :=
  { ((live.wr F.LCS_FW_STAT_STG_VALID 1).wr F.LCS_CORE_IMG_STG 0x1E).wr F.MPL_CORE_MAP_FAILED 1 with
    lcs := { LcsS.init with staged := some ⟨4096, 63, 9, true⟩ } }

theorem witness_commit : committing.atTick ∧ committing.flag F.LCS_FW_STAT_STG_VALID ∧
    committing.lcs.staged = some ⟨4096, 63, 9, true⟩ ∧
    (∀ q < 5, bit q (committing.rd F.LCS_CORE_IMG_STG) ∨ coreFailed committing q) := by decide

theorem witness_stage : (withOp (opFor 0x28 (desc 0 [])) live).opOf (0 : Fin 1024) = some (opFor 0x28 (desc 0 [])) ∧
    (opFor 0x28 (desc 0 [])).op = 0x28 ∧
    ¬ hdr (Vector.replicate 256 1#8).toList 4 4 = (opFor 0x28 (desc 0 [])).d.u32 24 := by decide +kernel

theorem witness_token : (withOp (opFor 0x2A (desc 0 [3])) live).opOf (0 : Fin 1024) = some (opFor 0x2A (desc 0 [3])) ∧
    (opFor 0x2A (desc 0 [3])).op = 0x2A ∧ (opFor 0x2A (desc 0 [3])).t1 ≤ live.now := by decide

def due (goal : Nat) : State :=
  { live with gtc := 12500 * 2 ^ 24, lcs := { LcsS.init with transit := some (goal, 0, []) } }

theorem witness_transition : (due 5).lcs.transit = some (5, 0, []) ∧ (due 5).atTick ∧
    (due 5).tfNs ≤ 2 * ((due 5).now - 0) ∧ ¬ (due 5).halted := by decide

def cold : State := live.wr F.PMU_DOM_STAT_PG 0x0FFF

theorem witness_die : cold.powered 5 ∧ cold.powered 1 ∧ (∀ b : Bank, ¬ cold.powered (12 + b.val)) ∧
    (1249#16).toInt < 1250 ∧ 1400 ≤ (1400#16).toInt ∧ (cold.src 26).active = false ∧ (cold.src 27).active = false := by
  decide

/-! ### The ports -/

def dark : State := (live.wr (onPort .A F.HIF_PORT_STAT_LINK_UP) 0).setPort .A PortS.init
/-- Context 3 holds a completion record on port A. -/
def holdsOne (s : State) : State := s.setPort .A { s.port .A with held := [.record 3 .completion 0 0 [1#32]] }

/-- Port B has sent a record and the end of a block of stream 2. -/
def sentTwo : State :=
  { live with sent := [.record .B 1 .completion 0 0 [1#32], .block .B 2 true 0 [], .record .A 0 .completion 0 0 []] }

theorem witness_link_up : portOn dark .A ∧ ¬ (dark.port .A).everUp ∧ (live.port .A).everUp ∧ (dark.port .A).held = [] ∧
    ¬ ((dark.setPort .B PortS.init).port .B).everUp ∧ live.linkUp .A ∧ live.linkUp .B ∧ live.flag F.LCS_LC_STAT_READY ∧
    Held.record 3 .completion 0 0 [1#32] ∈ ((holdsOne live).port .A).held ∧ (holdsOne live).linkUp .A ∧
    (clocks 1 2 2).linkUp .A ∧ (clocks 1 2 2).rd F.CLK_STAT_REC = 2 ∧ (clocks 1 2 2).rd F.CLK_STAT_REF ≠ 2 ∧
    (live.wr F.CKG_CFG_REC_EN 1).flag F.CKG_CFG_REC_EN ∧ live.rd F.CLK_STAT_REC = 0 ∧
    (clocks 2 2 2).rd F.CLK_STAT_REF = 2 ∧ (clocks 2 2 2).ckg.sw = none ∧ clkOn (clocks 2 2 2) ∧
    ¬ (clocks 2 2 2).flag F.CLK_STAT_HOLD := by decide

theorem witness_link_down : live.linkUp .B ∧ live.powered 1 ∧ (live.port .B).master ∧ portOn live .B ∧
    (∀ k, (live.ctx k).members = []) ∧ live.rd F.TBS_PTM_CTRL_PORT = Port.A.num ∧
    live.ctxPort 0 = .A ∧ unacked sentTwo .B 2 = [.hold (.record 1 .completion 0 0 [1#32]), .block 2 true] ∧
    sentTwo.linkUp .B := by decide +kernel

def moving (r : Req) (s : State) : State := { s with clk := 25000010, tickClk := 25000010, reqs := [(r, 9)] }

theorem witness_ownership : (moving .handover live).atTick ∧ (moving .handover live).ripe .handover ∧
    (moving .handover live).infl 0 = 0 ∧ (moving .handover live).linkUp .B ∧
    (∀ h ∈ live.portA.held ++ live.portB.held, heldOf 0 h = false) ∧
    ¬ (moving (.claim .B) dark).ripe .handover ∧ (moving (.claim .B) dark).ripe (.claim .B) ∧
    ¬ (moving (.claim .B) dark).linkUp .A ∧
    ((moving (.claim .B) dark).port .A).downAt + msClk 100 ≤ (moving (.claim .B) dark).clk ∧
    (moving (.claim .B) live).linkUp .A := by decide +kernel

def unsignalled : State := live.setCtx 63 { CtxS.init with unsig := 2, lost := 7 }

theorem witness_messages : 0 < (unsignalled.ctx 63).lost ∧ unsignalled.eventRoom 63 ∧ (unsignalled.ctx 63).unsig ≠ 0 ∧
    unsignalled.canSend (unsignalled.ctxPort 63) ∧ live.linkUp .B ∧
    (live.wr (msixPend .B 63) 1).flag (msixPend .B 63) ∧ ¬ (live.wr (msixCtl .B 63) 0).flag (msixCtl .B 63) ∧
    live.canSend .B ∧ (live.wr (msixCtl .B 63) 1).flag (msixCtl .B 63) := by decide +kernel

def kicked : State := (live.wr (onPort .B F.HIF_WDOG_TIMEOUT) 1).setPort .B { live.portB with dogRun := true }

theorem witness_watchdog : (kicked.port .B).dogRun ∧ kicked.rd (onPort .B F.HIF_WDOG_TIMEOUT) ≠ 0 ∧ portOn kicked .B ∧
    kicked.powered 1 := by decide

/-- Two pending vectors of a port go out as the function mask clears (R116). -/
theorem test_function_unmask :
    (match execMsixVectorUnmask .A none (((live.wr (msixPend .A 0) 1).wr (msixPend .A 40) 1).wr (msixCtl .A 0) 0 |>.wr
        (msixCtl .A 40) 0) with
      | .next t => t.sent | _ => []) = [msixOut live .A 0, msixOut live .A 40] := by decide +kernel

/-! ### What the host writes -/

theorem witness_requests : canWrite live .A Reg.LCS_UPD_CTRL ∧ canWrite live .A Reg.LCS_LOCK_CTRL ∧
    canWrite live .A Reg.LCS_DBG_CTRL ∧ canWrite live .A Reg.CKG_CTRL ∧ canWrite live .A Reg.PMU_CTRL ∧
    canWrite live .B (Reg.ADC_OWT 3) ∧ canWrite live .A Reg.HIF_MGMT ∧ canWrite live .B Reg.HIF_MGMT ∧
    portOf (live.rd F.HIF_MGMT_OWNER) = .A ∧ canWrite live .A Reg.FCS_CLR ∧ live.reqs = [] ∧ live.lcs.freeze = none ∧
    (live.adc 3).owt = none := by decide +kernel

theorem witness_writes : canWrite live .B Reg.GLB_SCRATCH ∧ canWrite live .A (Reg.CND_DXC_NONCE 3) ∧ live.powered 6 ∧
    (rowOf (Reg.MPL_VMAX 31)).any (fun x => x.1.rwb ≠ 0 && x.1.rw = 0 && x.1.sqc = 0 && x.1.cnts.isEmpty && x.1.clips.isEmpty) ∧
    0x20000 ≤ Reg.MPL_VMAX 31 ∧ Reg.MPL_VMAX 31 < 0x28000 ∧ isPairLo (Reg.MPL_VMAX 31) = false ∧
    isPairLo (Reg.MPL_VMAX 31 - 4) = false ∧ barLive live .B ∧ sameClock live .A Reg.GLB_SCRATCH := by decide +kernel

def unlit : State := live.wr F.PMU_DOM_STAT_PG 0x0018

theorem witness_refused : ¬ barLive dark .A ∧ rowOf 0x3FFFC = none ∧ portOf (live.rd F.HIF_MGMT_OWNER) ≠ .B ∧
    (rowOf Reg.LCS_UPD_CTRL).any (fun x => x.1.mgmt) ∧
    (rowOf (Reg.PWM_STAT 3)).any (fun x => !x.1.mgmt && x.1.rwb = 0 && !regOn unlit x.1 x.2 .B) ∧ barLive unlit .B := by decide +kernel

def fetchingAt (a : Nat) : State :=
  (live.setReg (portOff .B Reg.HIF_IND_ADDR) (wordOf a)).setPort .B { live.portB with fetching := true }

/-- A fetch of port B completes in the present clock. -/
def completing : State := live.setPort .B { live.portB with doneAt := some live.clk }

def fetched : State := live.setPort .B { live.portB with fetching := false }

theorem witness_indirect : portOn live .A ∧ live.linkUp .A ∧ ((fetchingAt 0xC).port .B).fetching ∧ portOn live .B ∧
    indAddr (fetchingAt 0xC) .B = 0xC ∧ ¬ (fetched.port .B).fetching ∧ indAddr (fetchingAt 0x101FFC) .B = 0x101FFC ∧
    indAddr (fetchingAt 0x108040) .B = 0x108040 ∧ barLive completing .B ∧
    (completing.port .B).doneAt = some completing.clk ∧ sameClock completing .B Reg.HIF_IND_DATA ∧ live.powered 1 := by decide +kernel

theorem witness_indices : live.ctxPort 0 = .A ∧ idxDiff (live.rd (F.HIF_CTX_CQ_TAIL_TAIL 0)) 0 ≤ cqSize live 0 ∧
    cqSize live 0 < idxDiff (live.rd (F.HIF_CTX_CQ_TAIL_TAIL 0)) 1 ∧ ((unsignalled.wr (F.HIF_CTX_EQ_HEAD_HEAD 63) 0).eventRoom 63) ∧
    streamPort live 7 = none ∧ 2 ^ live.rd (F.HIF_TLM_CFG_LOG 7) < idxDiff (live.rd (F.HIF_TLM_TAIL_TAIL 7)) 1 ∧
    olPermit live (axisOfHb 127) = false ∧ live.powered 11 := by decide +kernel

def opened : State := live.wr F.LCS_LC_STAT_STATE lcCommissioning
def offering (s : State) : State := { s with cnd := { s.cnd with props := [⟨2, 7, Reg.MPL_FMAX 3, 1, 9, 0, false⟩] } }

theorem witness_force : olPermit opened (axisOfHb 127) ∧ ¬ opened.halted ∧ inHalt.halted ∧ barLive inHalt .B ∧ inHalt.powered 11 ∧ opened.lcOpen ∧ ¬ live.lcOpen := by decide +kernel

theorem witness_at_once : canWrite live .A (Reg.FBK_CMP_CTRL 31) ∧ canWrite live .A Reg.FCS_SS1_DEM ∧
    (live.plan 31).leave = none ∧ canWrite live .A Reg.CND_APPROVE ∧ canWrite live .A Reg.CND_CTRL ∧
    canWrite live .A Reg.CND_DXC_CTRL ∧ opened.lcState ≠ lcBlank ∧ opened.lcState ≠ lcRetired ∧
    ((offering live).cnd.props.find? fun x => x.idx = 2).any (fun x => x.num = 7) := by decide +kernel

/-! ### Descriptors -/

def setAll (l : List (Fld × Nat)) (s : State) : State := l.foldl (fun s x => s.wr x.1 x.2) s

/-- Every limit and coil parameter of axis n. -/
def axisSet (n : Axis) : List (Fld × Nat) :=
  [(F.MPL_VMAX_VMAX n, 100000), (F.MPL_AMAX_AMAX n, 1000000), (F.MPL_DMAX_DMAX n, 1000000),
    (F.MPL_JMAX_JMAX n, 100000), (F.MPL_EMAX_EMAX n, 100000), (F.MPL_FMAX_FMAX n, 20000), (F.MPL_FMAX_IMAX n, 3000),
    (F.MPL_HDEC_HDEC n, 1000000), (F.MPL_HJERK_HJERK n, 100000), (F.MPL_SCALE_SCALE n, 100000), (F.MPL_MASS_MASS n, 1000),
    (F.MPL_KF_KF n, 65536), (F.CLP_RL_RES (2 * n), 100), (F.CLP_RL_RES (2 * n + 1), 100), (F.CLP_RL_IND (2 * n), 100),
    (F.CLP_RL_IND (2 * n + 1), 100), (F.ADC_CS_SHUNT (2 * n), 10), (F.ADC_CS_SHUNT (2 * n + 1), 10),
    (F.CLP_ILOOP_BWI n, 100), (F.FBK_CFG_MODE n, 2), (F.MPL_TRAVEL_MIN_LO_MIN n, 4294867296),
    (F.MPL_TRAVEL_MIN_HI_MIN n, 4294967295), (F.MPL_TRAVEL_MAX_LO_MAX n, 100000), (F.MPL_TRAVEL_MAX_HI_MAX n, 0),
    (F.MPL_FOLLOW_LAG n, 5)]

/-- Axes 2 and 3 with every limit and coil parameter set, axis 3 homed, in an open lifecycle. -/
def geared : State :=
  let s := setAll (axisSet 3 ++ axisSet 2 ++ [(F.MPL_VCALC_VCALC 0, 24000), (F.MPL_BUDGET_LIM_LIM 0, 60000),
    (F.MPL_BUDGET_BUDGET 0, 60000), (F.LCS_ST_RES_UNTESTED, 0), (F.HIF_CTX_QUOTA_QUOTA 0, 64)]) opened
  s.setPlan 3 { s.plan 3 with homed := true }

/-- Context 0 expects m descriptors. -/
def asked (m : Nat) (s : State) : State := s.setCtx 0 { s.ctx 0 with due := m }
/-- An ASAP descriptor with a body. -/
def soon (target : Byte) (l : List Byte) : Desc := { desc target l with flags := 1#8 }

theorem witness_arrives : Arrives (asked 2 geared) 0 (soon 3 []) ∧ Alone (asked 2 geared) 0 ∧
    ¬ geared.expects 0 ∧ phaseBit (geared.rd (F.HIF_CTX_CONS_CONS 0)) (dqSize geared 0) ≠ false ∧
    (0x44#8 : Byte).toNat ∉ opcodes ∧ preCheck (taken (asked 1 geared) 0) 0 0 (soon 3 []) = none ∧
    preCheck (taken (asked 1 geared) 0) 0 0 { soon 3 [] with flags := 3#8 } = some (.format, 1) := by
  unfold Arrives Alone; decide +kernel

def motionPasses (u : State) (op : Nat) (d : Desc) : Bool :=
  let T := effStart u op d
  let n := d.axis
  match motionCheck u n op d T with
  | .ok (p, l) =>
      headlandCheck u n op d p l = none &&
      powerCheck u n (closeBook (u.plan n).book T ++ motionBook u n op d p l T) = none && axisStateCheck u n true = none
  | .error _ => false

def clears (u : State) (op : Nat) (d : Desc) (useStart : Bool) : Bool :=
  preCheck u 0 op d = none && (match tagCheck u 0 with | .ok t => t = 0 | .error _ => false) && galleyCheck u op d = none &&
  (!useStart || startCheck u op d (effStart u op d) = none) && modeCheck u 0 op d = none

/-- A move to 10,000 counts, a jog, a follow and a homing by hard stop of axis 3. -/
theorem witness_motions : let u := taken (asked 1 geared) 0
    clears u 1 (soon 3 [0x10#8, 0x27#8]) true ∧ motionPasses u 1 (soon 3 [0x10#8, 0x27#8]) ∧
    clears u 8 (soon 3 [0#8, 0#8, 0#8, 0#8, 0#8, 0#8, 0#8, 0#8, 2#8]) true ∧
    motionPasses u 8 (soon 3 [0#8, 0#8, 0#8, 0#8, 0#8, 0#8, 0#8, 0#8, 2#8]) := by decide +kernel

/-- Axis 3 as the one member of group 7 and axis 2 beside it. -/
def joined (s : State) : State :=
  let m := fun t : Byte => { soon t [0#8, 0#8, 0#8, 0#8, 0#8, 0#8, 0#8, 0#8, 2#8] with flags := 8#8, group := 7#16 }
  s.setCtx 0 { s.ctx 0 with members := [⟨8, m 3, 5⟩, ⟨8, m 2, 6⟩] }
def barrierD : Desc := { soon 0 [0xC#8, 0#8, 0#8, 0#8, 2#8] with group := 7#16 }

theorem witness_barrier : let s := joined (asked 1 geared)
    let u := taken s 0
    (s.ctx 0).kept = [] ∧ (∀ m ∈ (s.ctx 0).members, m.d.group = barrierD.group ∧ preCheck u 0 m.op m.d = none) ∧
    (s.ctx 0).members.length = barrierD.u8 20 ∧
    maskOfAxes ((s.ctx 0).members.map fun m => m.d.axis) = barrierD.u32 16 ∧
    preCheck u 0 9 barrierD = none ∧ startTests u barrierD (effStart u 9 barrierD) = none ∧ modeCheck u 0 9 barrierD = none ∧
    (show Bool from match membersAdmit 0 (effStart u 9 barrierD) (s.ctx 0).members (u.setCtx 0 { u.ctx 0 with members := [] }) with
      | .ok (_, os) => decide (os.length = 2) | .error _ => false) := by decide +kernel

/-- HOLD at 100 mA, a WAIT of 1 ms, and a CONFIG of no pairs with RESTART, on axes 3, 4 and on bank 0. -/
theorem witness_stands : let u := taken (asked 1 geared) 0
    let hold := soon 3 [100#8, 0#8]
    let wait := soon 3 [0xE8#8, 3#8]
    clears u 5 hold true ∧ hold.u16 16 ≤ u.rd (F.MPL_FMAX_IMAX 3) ∧ coilsReady u 3 ∧ noSource u 3 = false ∧
    powerCheck u 3 (closeBook (u.plan 3).book (effStart u 5 hold) ++
      [⟨effStart u 5 hold, none, (u.load 3).standDraw (hold.u16 16)⟩]) = none ∧ axisStateCheck u 3 true = none ∧
    clears u 6 wait true ∧ clears u 10 wait true ∧ axisStateCheck u 3 false = none ∧ clears u 0x10 (soon 4 []) true ∧
    configCheck u 0x10 (soon 4 []) = none ∧ clears u 0x11 (soon 0 []) true ∧
    configCheck u 0x11 (soon 0 []) = none := by decide +kernel

def owned : State := (asked 1 geared).setStream 7 { StreamS.init with owner := some 5 }

theorem witness_singles : let u := taken (asked 1 geared) 0
    let quota := soon 0 [63#8, 0#8, 0#8, 0#8, 9#8]
    let start := soon 0 [7#8, 1#8, 1#8, 0#8, 8#8]
    clears u 0x12 (soon 0 [1#8]) false ∧ 1 ≤ budgetTop u 0 ∧ budgetTop u 0 < (soon 0 [0#8, 0#8, 0#8, 1#8]).u32 16 ∧
    clears u 0x13 quota false ∧ bit 1 (frozenMask u) = false ∧
    bit 1 (frozenMask { u with lcs := { u.lcs with freeze := some (2, 0) } }) ∧ u.rd (F.HIF_CTX_QUOTA_QUOTA 63) ≠ 9 ∧
    clears u 0x18 start true ∧ coreCheck u 0x18 start = none ∧ start.u8 17 = 1 ∧ (u.stream 7).owner = none ∧
    clears u 0x18 (soon 0 [7#8]) true ∧ (soon 0 [7#8]).u8 17 ≠ 1 ∧ (owned.stream 7).owner = some 5 := by decide +kernel

def staged : State := asked 1 (geared.wr F.LCS_FW_STAT_STG_VALID 1)

theorem witness_operations : let u := taken staged 0
    let T := fun op d => effStart u op d
    let stop := soon 0 [8#8]
    let read := soon 0 [0#8, 0#8, 0#8, 0#8, 64#8]
    let stage := soon 0 [0#8, 0#8, 0#8, 0#8, 0#8, 0#8, 0#8, 0#8, 0#8, 0x10#8]
    let service := soon 0 [3#8]
    clears u 4 stop true ∧ coreCheck u 4 stop = none ∧ clears u 0x19 stop true ∧ clears u 0x20 read true ∧
    clears u 0x1A (soon 3 []) true ∧ convertCheck u (soon 3 []) (T 0x1A (soon 3 [])) = none ∧
    clears u 0x1B (soon 3 []) true ∧ calibrateCheck u (soon 3 []) (T 0x1B (soon 3 [])) = none ∧
    clears u 0x1B (soon 3 [1#8]) true ∧ calibrateCheck u (soon 3 [1#8]) (T 0x1B (soon 3 [1#8])) = none ∧
    clears u 0x1B (soon 3 [2#8]) true ∧ calibrateCheck u (soon 3 [2#8]) (T 0x1B (soon 3 [2#8])) = none ∧
    clears u 0x28 stage true ∧ stageCheck u = none ∧ clears u 0x29 (soon 3 []) true ∧ swapCheck u 3 = none ∧
    clears u 0x2A service true ∧ transitCheck u 5 = none ∧
    ¬ (asked 1 (geared.wr F.PMU_DOM_STAT_PG 0x7FFF)).powered (12 + (soon 3 []).bank.val) := by decide +kernel

def paged (s : State) : State := s.setPort .A { s.portA with page := true }

theorem witness_fetching : (paged geared).portA.page ∧ ¬ geared.half ∧ geared.canSend .A ∧ geared.ctxOn 0 ∧
    geared.ctxPort 0 = .A ∧ idxDiff 3 (geared.rd (F.HIF_CTX_CONS_CONS 0)) ≤ dqSize geared 0 ∧
    dqSize geared 0 < idxDiff 0xFFFFFFFF (geared.rd (F.HIF_CTX_CONS_CONS 0)) ∧
    CanNotify (geared.setCtx 0 { geared.ctx 0 with waits := 16 }) 0 ∧ geared.ticking ∧ geared.cutoff = false ∧
    ((joined geared).ctx 0).members ≠ [] ∧ (∀ j, j ≠ 0 → ((joined geared).ctx j).members = []) := by
  unfold CanNotify; decide +kernel

/-! ### Galleys -/

def segOf (tag op : Nat) (d : Desc) (begun : Bool) (mo : Motion) : Seg := ⟨tag, op, 0, d, 0, some 50000, begun, mo, 1000, 0⟩
def opOn (tag op : Nat) (d : Desc) (begun : Bool) : Op := ⟨tag, 0, op, d, 0, [3], 0, some 50000, begun, false, [3], false, []⟩
def cruise : Motion := ⟨0, 0, 1000, 0, [⟨1, 0⟩], 1000⟩
/-- Axis 3 in some state of motion, with one entry of operation op in its galley. -/
def run (op : Nat) (d : Desc) (begun : Bool) (st : AxState) (mo : Motion) : State :=
  { geared.setPlan 3 { geared.plan 3 with st, ref := mo, galley := [segOf 7 op d begun mo] } with
    ops := [opOn 7 op d begun] }
def searching (method : Byte) : Desc := desc 3 [0#8, 1#8, 0#8, 0#8, 0#8, 0#8, 0#8, 0#8, method, 0#8, 0#8, 0#8, 0#8, 1#8]

theorem witness_segment_start : let s := run 1 (desc 3 []) false .off (Motion.still 0)
    s.opOf 7 = some (opOn 7 1 (desc 3 []) false) ∧ isGalley 1 ∧ (s.plan 3).leave = none ∧ inProg s 3 = none ∧
    (s.plan 3).galley.find? (fun g => g.tag = 7) = some (segOf 7 1 (desc 3 []) false (Motion.still 0)) ∧
    startBlocked s 3 1 = none ∧ s.energised 3 = false ∧ (searching 2).u8 24 = 2 ∧
    (run 5 (desc 3 []) false .standing (Motion.still 0)).energised 3 := by decide +kernel

def behind : State :=
  let s := run 5 (desc 3 []) true .standing (Motion.still 0)
  { s.setPlan 3 { s.plan 3 with galley := (s.plan 3).galley ++ [segOf 9 10 (desc 3 []) false (Motion.still 0)] } with
    ops := s.ops ++ [opOn 9 10 (desc 3 []) false] }

/-- The same start with the bank's analog domain off. -/
theorem witness_segment_blocked :
    let s := (run 1 (desc 3 []) false .off (Motion.still 0)).wr F.PMU_DOM_STAT_PG 0xEFFF
    startBlocked s 3 1 = some 76 ∧ (s.plan 3).galley = [segOf 7 1 (desc 3 []) false (Motion.still 0)] ∧ isConfig 1 = false ∧
    startBlocked s 3 0x10 = none ∧ isGalley 0x10 ∧ isConfig 0x10 := by decide +kernel

theorem witness_segment_next : behind.opOf 9 = some (opOn 9 10 (desc 3 []) false) ∧ (behind.plan 3).leave = none ∧
    startBlocked behind 3 10 = none ∧ inProg behind 3 = some (segOf 7 5 (desc 3 []) true (Motion.still 0)) ∧
    behind.opOf 7 = some (opOn 7 5 (desc 3 []) true) := by decide +kernel

theorem witness_segment_end : let s := run 1 (desc 3 []) true .moving cruise
    ([3] : List Axis).findSome? (fun n => ((s.plan n).galley.find? fun g => g.tag = 7).bind (·.t2)) = some 50000 ∧
    s.powered (12 + (bankOfAxis 3).val) ∧
    s.opOf 7 = some (opOn 7 1 (desc 3 []) true) ∧ s.energised 3 ∧ (s.plan 3).leave = none ∧
    (s.plan 3).galley.find? (fun g => g.tag = 7) = some (segOf 7 1 (desc 3 []) true cruise) := by decide +kernel

/-- Axis 3 searches, and has found its index at 40 or its stop at 5, at the latch point of the half-frame. -/
def finding (method : Byte) : State :=
  let s := run 8 (searching method) true .moving cruise
  let c := s.period / 2 - 250
  { s.setFbk 3 { s.fbk 3 with homeIdx := some 40, homeHit := some 5 } with clk := c, latches := 1 }

theorem witness_homing : inProg (finding 0) 3 = some (segOf 7 8 (searching 0) true cruise) ∧ atLatch (finding 0) ∧
    (searching 0).u8 24 = 0 ∧ ((finding 0).fbk 3).homeIdx = some 40 ∧ encoder (finding 0) 3 ∧ (searching 1).u8 24 = 1 ∧
    atLatch (finding 1) ∧ ((finding 1).fbk 3).homeHit = some 5 := by decide +kernel

def stopD (method : Byte) : Desc := desc 0 [8#8, 0#8, 0#8, 0#8, method]
/-- The same with a STOP of axis 3 in flight. -/
def stopping (method : Byte) (s : State) : State := { s with ops := s.ops ++ [opOn 8 4 (stopD method) false] }
def markedBy (c : Cause) (gatesOff : Bool) (s : State) : State :=
  (s.setPlan 3 { s.plan 3 with leave := some ⟨c, false, 0, gatesOff, none, false, false⟩ }).setSs1 3
    (some ⟨0, none, 0, 0, 0, 0⟩)

theorem witness_stops : let s := stopping 1 (run 1 (desc 3 []) true .moving cruise)
    let q := stopping 0 (run 1 (desc 3 []) false .moving cruise)
    let z := { stopping 0 geared with clk := 0 }
    s.atHalfTick ∧ s.opOf 8 = some (opOn 8 4 (stopD 1) false) ∧ (s.plan 3).leave = none ∧ s.ss1 3 = none ∧ s.energised 3 ∧
    (∀ g ∈ (s.plan 3).galley, g.begun) ∧ standsNow s 3 = false ∧ (stopD 1).u8 20 = 1 ∧
    (q.plan 3).galley = [segOf 7 1 (desc 3 []) false cruise] ∧ q.opOf 7 = some (opOn 7 1 (desc 3 []) false) ∧
    z.energised 3 = false ∧ (z.plan 3).galley = [] ∧ (opOn 8 4 (stopD 0) false).left = [3] ∧
    (z.bank 0).curtailed = [] ∧ z.flag (F.MPL_CURT_STAT_ACTIVE 0) = false ∧
    (let m := { markedBy .ss1Host true s with clk := 12500, tickClk := 12500 }
     m.atHalfTick ∧ causeRank .ss1Host = 3 ∧ m.energised 3 ∧ (m.ss1 3).any (fun x => x.asked + usClk 1 ≤ m.clk)) := by
  decide +kernel

/-- Axis 3 brakes for a cause; the STOP of tag 8 has begun. -/
def braking (c : Cause) (gatesOff : Bool) : State :=
  let s := run 1 (desc 3 []) true .braking cruise
  { (s.setPlan 3 { s.plan 3 with leave := some ⟨c, true, 0, gatesOff, some 100, false, false⟩ }).setSs1 3
      (some ⟨0, some 9, 0, 0, 0, 4⟩) with ops := s.ops ++ [opOn 8 4 (stopD 0) true] }
def brakingAlone (c : Cause) (gatesOff : Bool) : State := { braking c gatesOff with ops := [opOn 7 1 (desc 3 []) true] }

theorem witness_standstills : let s := braking (.stop 8) false
    (s.plan 3).leave = some ⟨.stop 8, true, 0, false, some 100, false, false⟩ ∧ causeRank (.stop 8) ≠ 4 ∧
    causeRank (.reversal 5) = 4 ∧ (opOn 8 4 (stopD 0) true) ∈ s.ops ∧ s.ops.Pairwise (fun a b => a.tag ≠ b.tag) ∧
    (∀ q ∈ s.ops, q.op = 4 → q = opOn 8 4 (stopD 0) true) ∧ (∀ g ∈ (s.plan 3).galley, g.tag ≠ 8) ∧
    (s.bank (bankOfAxis 3)).curtailed = [] ∧ s.flag (F.MPL_CURT_STAT_ACTIVE (bankOfAxis 3)) = false ∧
    (∀ q ∈ (brakingAlone .ss1Host true).ops, q.op ≠ 4) ∧ s.energised 3 ∧
    (s.ss1 3).any (fun x => 4 ≤ x.slow) := by decide +kernel

/-! ### Changes at a boundary -/

def asks (r : Req) : State := moving r live
/-- A strobe of the group of PMU waits, with a write to one unapplied. -/
def strobing : State := ((asks .strobe).wr F.LCS_UPD_MASK_LO_MASK 0x10).setDirty Reg.PMU_CFG 0xFF

/-- The same of the clock group as a failure begins its switch, and one whose frame period is out of its band. -/
def strobeHeld : State :=
  { (asks .strobe).wr F.LCS_UPD_MASK_LO_MASK 8 with ckg := { live.ckg with failAt := some (asks .strobe).clk } }
def strobeBad : State :=
  (((asks .strobe).wr F.LCS_UPD_MASK_LO_MASK 1).setDirty Reg.TBS_FRAME 0xFFFF).setBuf Reg.TBS_FRAME 0

theorem witness_strobe : strobing.atTick ∧ strobing.ripe .strobe ∧ strobeRuns strobing ∧ strobing.inClk.late = [] ∧
    tickMask strobing = 0x10 ∧ strobing.ops = [] ∧ dirtyOf strobing 0x10 = [Reg.PMU_CFG] ∧
    strobeFails strobing (stoppedAxes strobing) 0x10 = none ∧
    strobeHeld.ripe .strobe ∧ strobeRuns strobeHeld ∧ bit 3 (tickMask strobeHeld) ∧
    strobeHeld.ckg.failAt = some strobeHeld.clk ∧ strobeHeld.atTick ∧
    strobeBad.ripe .strobe ∧ strobeBad.atTick ∧ tickMask strobeBad = 1 ∧
    (strobeFails strobeBad (stoppedAxes strobeBad) 1).isSome ∧ CanNotify live 0 := by
  unfold CanNotify; decide +kernel

/-- A CONFIG of axis 4 or bank 0 has stopped its function. -/
def configuring (op : Nat) (d : Desc) : State :=
  { live with clk := 25000, tickClk := 25000, gtc := 25000 * 2 ^ 26
              ops := [⟨7, 0, op, d, 0, [4], 0, some 50000, true, false, [4], false, []⟩] }

theorem witness_config : (configuring 0x10 (desc 4 [])).ops.all (configDue (configuring 0x10 (desc 4 []))) ∧
    (configuring 0x10 (desc 4 [])).energised 4 = false ∧
    strobeFails (withPairs (configuring 0x10 (desc 4 [])) (desc 4 [])) [4] (2 ^ 36) = none ∧
    strobeFails (withPairs (configuring 0x11 (desc 0 [])) (desc 0 [])) [4] (2 ^ 8) = none ∧
    (configuring 0x10 (desc 4 [])).atTick := by decide +kernel

def budgeting (mA : Nat) : State :=
  let s := (asks .halt).setPlan 3 { live.plan 3 with book := [⟨0, none, 500⟩] }
  (s.setBank 0 { s.bank 0 with budgetNext := some (mA, 5) }).setCtx 5 { s.ctx 5 with quota := some (1024, 5) }

theorem witness_budget : (budgeting 500).atTick ∧ ((budgeting 500).bank 0).budgetNext = some (500, 5) ∧
    5 < (budgeting 500).tickClk ∧ withinBudget (budgeting 500) 0 500 ∧ withinBudget (budgeting 499) 0 499 = false ∧
    ((budgeting 500).ctx 5).quota = some (1024, 5) := by decide +kernel

def locking : State := { asks .lockUp with lcs := { live.lcs with freeze := some (0x10, 9) } }
def unlocking : State := (asks .unlock).wr F.LCS_LOCK_STAT_LOCKED 1

theorem witness_lock_up : locking.atTick ∧ locking.ripe .lockUp ∧ firstPending locking = false ∧ locking.lcOpen = false ∧
    opened.lcOpen ∧ pendMask (live.setDirty Reg.PMU_CFG 1) = 0x10 ∧ locking.lcs.freeze = some (0x10, 9) ∧
    unlocking.ripe .unlock ∧ unlocking.flag F.LCS_LOCK_STAT_LOCKED ∧ unlocking.lcs.locked = 0 ∧ unlocking.powered 1 := by
  decide +kernel

def streaming : State :=
  (live.wr (F.HIF_TLM_STAT_ACTIVE 7) 1).setStream 7 { StreamS.init with owner := some 5, count := 9, axes := 8, asig := 1 }

theorem witness_observation : (streaming.stream 7).owner = some 5 ∧ streaming.atHalfTick ∧
    streaming.flag (F.HIF_TLM_STAT_ACTIVE 7) ∧ (streaming.stream 7).decim ≤ (streaming.stream 7).count ∧
    (owned.stream 7).owner.isSome ∧ owned.flag (F.HIF_TLM_STAT_ACTIVE 7) = false ∧
    blockLen 1 ≤ 2 ^ streaming.rd (F.HIF_TLM_CFG_LOG 7) - idxDiff 0 0 ∧ streaming.canSend .A ∧
    (streaming.stream 7).wait = none ∧
    (withOp (opFor 0x19 (desc 0 [])) live).opOf 0 = some (opFor 0x19 (desc 0 [])) ∧ live.atHalfTick ∧
    (withOp { opFor 0x1B (desc 3 [2#8]) with begun := true } live).opOf 0 =
      some { opFor 0x1B (desc 3 [2#8]) with begun := true } ∧ (desc 3 [2#8]).u8 16 = 2 := by decide +kernel

/-! ### Faults -/

/-- Source 130 (axis 0) trips at the first trip with scope AXIS_OFF, AXIS_STOP for source 131; source 20 needs three. -/
def guarded : State := setAll [(F.FCS_SRC_CFG_N 130, 1), (F.FCS_SRC_CFG_SCOPE 130, 2), (F.FCS_SRC_CFG_N 131, 1),
  (F.FCS_SRC_CFG_SCOPE 131, 1), (F.FCS_SRC_CFG_N 20, 3), (F.FCS_SRC_CFG_N 63, 1)] live
def latched (s : State) : State := { s with fcs := { s.fcs with srcs := [⟨130, true, false, false, 1, [5], 2, 0, 0, false, none⟩] } }
/-- A window of source 9 is open. -/
def windowed : State := { guarded with clk := 9, fcs := { guarded.fcs with wins := [⟨9, 5, 100, 0, []⟩] } }

theorem witness_trips : guarded.powered 1 ∧ (sourceRow 130).isSome ∧ (guarded.src 130).severe = false ∧
    guarded.windowFor 130 = none ∧ srcN guarded 130 ≤ (counted guarded (guarded.src 130)).length ∧
    scopeAxes 130 (srcScope guarded 130) none = [0] ∧ scopeAxes 131 (srcScope guarded 131) none = [0] ∧
    (guarded.plan 0).leave = none ∧ (counted guarded (guarded.src 20)).length < srcN guarded 20 ∧ (sourceRow 20).isSome ∧
    (windowed.windowFor 8).isSome ∧ scopeAxes 8 0 none = [] ∧ ((latched guarded).src 130).severe := by decide +kernel

def clearing (r : Req) : State := moving r (latched live)

theorem witness_clears : (clearing (.clearSrc 130)).atTick ∧ (clearing (.clearSrc 130)).reqs = [(.clearSrc 130, 9)] ∧
    clearRefused (clearing (.clearSrc 130)) 130 = false ∧ clearRefused (clearing (.clearSrc 131)) 131 ∧
    (clearing .clearAll).reqs = [(.clearAll, 9)] ∧ 9 < (clearing .clearAll).tickClk ∧ live.powered 1 ∧ live.ticking ∧
    (live.src 34).active = false ∧ live.inHeld = false := by decide +kernel

def alive : State := (live.wr F.FCS_STAT_ALIVE_A 1).wr F.FCS_STAT_ALIVE_B 1
def lateTick (s : State) : State := { s with clk := 125000, tickClk := 125000, fcs := { s.fcs with levelA := true, levelB := true } }

theorem witness_alive : alive.flag F.FCS_STAT_ALIVE_A ∧ alive.aliveStop = false ∧ (alive.src 34).active = false ∧
    (lateTick alive).atTick ∧ (lateTick alive).fcs.edgeB + usClk 500 ≤ (lateTick alive).clk ∧
    (lateTick live).fcs.levelA ∧ (lateTick live).fcs.levelB ∧ (lateTick live).flag F.FCS_STAT_ALIVE_A = false ∧
    (lateTick live).flag F.FCS_STAT_ALIVE_B = false ∧ live.aliveStop = false ∧ live.atTick ∧
    (clearing .clearAll).inHeld = false := by decide +kernel

/-! ### The frame and the current loop -/

/-- Port A reads a doorbell page whose read is out. -/
def paging : State :=
  let s := live.wr64 (portOff .A Reg.HIF_DB_BASE_LO) 0x1000
  { s with portA := { s.portA with page := true } }

theorem witness_ticks : live.ticking ∧ live.half = false ∧ live.halted = false ∧ live.inHeld = false ∧
    live.flag F.LCS_LC_STAT_READY ∧ live.powered 1 ∧ live.powered 8 ∧ (∀ b, coreWorks live b) ∧
    (∀ n, (live.plan n).follow = none) ∧ (∀ o ∈ live.ops, o.op ≠ 0x1B) ∧ (paging.port .A).page ∧ paging.ticking ∧
    (syncMode (live.wr F.TBS_SYNC_CTRL_MODE 1) = 1) ∧ { live with half := true }.half := by decide +kernel

/-- Coil 9's sample instant of pair 1 is at hand, its slices in service and idle. -/
def sampling : State := { live.wr (F.ADC_CS_SHUNT 1) 9 with tickClk := 1000000, clk := 1000000 }
/-- A sample of coil 0 waits; its axis is driven, and its bank has a motor supply and a current limit. -/
def stepping (ok : Bool) : State :=
  let s := setAll [(F.MPL_FMAX_IMAX 0, 3000), (F.GDR_VMS_VM 0, 500), (F.CLP_RL_RES 0, 100), (F.CLP_RL_IND 0, 200), (F.FBK_CFG_MODE 0, 1)] live
  let s := s.setPlan 0 { s.plan 0 with st := .standing }
  s.setCoil 0 { s.coil 0 with waiting := some ⟨5, 120, ok⟩ }

theorem witness_sampling : nextSync sampling 1 = some 1000390 ∧ sampling.powered 12 ∧ adcLive sampling 0 ∧
    3 ≤ (inService sampling 0).length ∧ 2 ≤ (freeSlices sampling 0 1000370).length ∧
    owtCovers sampling 1 = false ∧ (inService (sampling.wr (F.ADC_ROT_INSVC 0) 3) 0).length < 3 := by decide +kernel

/-- The same in an identification of axis 0, in its first pulse. -/
def identified : State :=
  { stepping true with
    clk := msClk 44 + 1001
    ops := [{ opFor 0x1B (desc 0 [2#8]) with begun := true, axes := [0], data := [1000] }] }

theorem witness_stepping : identifying identified 0 ∧ identified.energised 0 ∧
    (identified.coil 0).waiting = some ⟨5, 120, true⟩ ∧ identifyStep 1500 (identifyClk identified 0) = .pulse 0 ∧ (stepping true).energised 0 ∧ (stepping true).halted = false ∧ (stepping true).powered 8 ∧
    identifying (stepping true) 0 = false ∧ fromRef (stepping true) 0 = false ∧ 0 < motorVolts (stepping true) 0 ∧
    (stepping true).rd (F.MPL_FMAX_IMAX 0) ≠ 0 ∧ ((stepping true).coil 0).waiting = some ⟨5, 120, true⟩ ∧
    ((stepping false).coil 0).waiting = some ⟨5, 120, false⟩ ∧ (stepping false).powered 1 ∧
    (live.setCoil 0 { live.coil 0 with waiting := some ⟨5, 120, true⟩ }).energised 0 = false := by decide +kernel

/-- Half-bridge 0 is tripped since clock 1, its coil at a valley. -/
def tripped : State :=
  let s := live.wr (F.PWM_CMP_CMP 0) 1000
  (s.setHb 0 { s.hb 0 with trip := some (1, 0), highSup := false }).setCoil 0 { s.coil 0 with reload := 5, valley := true }

theorem witness_reload : nextReload sampling 0 = some (1000000, true) ∧ (tripped.hb 0).trip = some (1, 0) ∧
    tripped.halted = false ∧ (tripped.coil (coilOfHb 0)).valley ∧ tripped.drive 0 ≠ .force ∧ (tripped.hb 0).kept = none ∧
    (tripped.hb 0).notched = false ∧ (tripped.hb 0).highSup = false ∧ (tripped.hb 0).lowSup = false ∧
    1 < 5 + (16 * tripped.period - min (16 * tripped.period) (1001 / 2)) / 32 ∧
    (((sampling.setHb 0 { sampling.hb 0 with trip := some (1, 1) })).hb 0).trip = some (1, 1) := by
  decide +kernel

/-! ### Position feedback -/

/-- Axis 0 has a serial encoder of 16 bits, no CRC seed, whose word has begun; its latch point is far off. -/
def wording : State :=
  let s := setAll [(F.FBK_CFG_MODE 0, 1), (F.FBK_SER_CFG_POSLEN 0, 16), (F.FBK_SER_CFG_CRCLEN 0, 8), (F.FBK_SER_CRC_POLY 0, 7),
    (F.FBK_SER_CFG_PER 0, 10), (F.FBK_SER_TIM_RQ 0, 2), (F.FBK_SER_TIM_LEAD 0, 100), (F.FBK_RATIO_RATIO 0, 65536)] live
  s.setFbk 0 { s.fbk 0 with word := some 20 }
def word (mark : Bool) (stat : BitVec 2) (crc : BitVec 16) : SerialWord := ⟨mark, stat, 3, 0x1234, crc, 64, 50, 2⟩
def crcOf (stat : BitVec 2) : BitVec 16 := BitVec.ofNat 16 (serialCrc 8 7 0 ([bit 1 stat.toNat, bit 0 stat.toNat] ++
  bitsLsb 4 3 ++ bitsLsb 16 0x1234))

theorem witness_serial : fbkOn wording 0 ∧ isSerial wording 0 ∧ (wording.fbk 0).word = some 20 ∧
    nextLatch wording = some 2875 ∧ wordTimeout wording 0 20 (word false 0 0) = none ∧
    wordEnd wording 0 20 (word false 0 0) ≤ 2875 ∧
    (wordTimeout (wording.wr (F.FBK_SER_CFG_TIMEOUT 0) 1) 0 20 { word false 0 0 with busy := 100 }).isSome ∧ crcOk wording 0 (word false 0 (crcOf 0)) ∧
    crcOk wording 0 (word false 0 0xFF) = false ∧ crcOk wording 0 (word false 2 (crcOf 2)) ∧ (wording.fbk 0).errBit = false ∧
    (wording.fbk 0).seqNo = none ∧ wording.powered 1 ∧ (live.fbk 0).word = none := by decide +kernel

/-- Axis 0 has a quadrature encoder and an index of period 1000 at phase 10, its count at u. -/
def quad (u : Int) : State :=
  let s := setAll [(F.FBK_CFG_MODE 0, 2), (F.FBK_IDX_PER_PERIOD 0, 1000), (F.FBK_IDX_POS_PHASE0 0, 10), (F.FBK_IDX_CFG_FIX 0, 1),
    (F.FBK_IDX_CFG_EN 0, 1), (F.FBK_IDX_CFG_TOL 0, 5), (F.FBK_RATIO_RATIO 0, 65536)] live
  s.setFbk 0 { s.fbk 0 with u }
/-- A correction of axis 0 waits for the tick; context 0 takes its events. -/
def correcting : State :=
  let s := setAll [(F.HIF_CTX_CFG_EN 0, 1), (F.HIF_CTX_AXES_AXES 0, 1)] (quad 13)
  s.setFbk 0 { s.fbk 0 with fix := some 3 }
def stepped : State := live.wr (F.FBK_CFG_MODE 0) 3
def pulsing : State := (live.wr (F.FBK_CFG_CMP_OUT 0) 1).setFbk 0 { live.fbk 0 with hit := true }

theorem witness_edges : isQuad (quad 13) 0 ∧ fbkOn (quad 13) 0 ∧ indexSeek (quad 13) 0 = none ∧
    indexDev 1000 10 13 = 3 ∧ indexDev 1000 10 10 = 0 ∧ indexDev 1000 10 30 = 20 ∧ (quad 13).flag (F.FBK_IDX_CFG_EN 0) ∧
    correcting.atTick ∧ (correcting.ctxOn 0 ∧ (correcting.ctx 0).lost = 0 ∧ correcting.eventRoom 0) ∧ bit 0 (correcting.rd (F.HIF_CTX_AXES_AXES 0)) ∧
    (∀ j : Ctx, j ≠ 0 → (correcting.ctxOn j && bit 0 (correcting.rd (F.HIF_CTX_AXES_AXES j))) = false) ∧
    stepped.rd (F.FBK_CFG_MODE 0) = 3 ∧ fbkOn stepped 0 ∧ (pulsing.fbk 0).hit ∧ pulsing.flag (F.FBK_CFG_CMP_OUT 0) := by
  decide +kernel

/-- A HOME METHOD 0 on axis 3 has passed its third phase and seeks its index. -/
theorem witness_index_home : let s := (run 8 (desc 3 []) true .moving (Motion.still 0)).wr (F.FBK_CFG_MODE 3) 2
    isQuad s 3 ∧ (indexSeek s 3).map (·.2) = some true ∧ (s.fbk 3).err = false ∧ (s.fbk 3).homeIdx = none := by
  decide +kernel

/-- Axis 0 stands beyond its travel limit; its compare is armed at 40 with spacing 7, between the last position and now. -/
def crossing : State :=
  let s := setAll [(F.FBK_CMP_CTRL_EN 0, 1), (F.FBK_CMP_STAT_ARMED 0, 1), (F.FBK_CMP_SPACE_SPACE 0, 7)] (quad 60)
  let s := (s.wrS64 (Reg.FBK_CMP_NEXT_LO 0) 40).setPlan 0 { s.plan 0 with st := .standing, homed := true }
  s.setFbk 0 { s.fbk 0 with xPrev := 30 }

theorem witness_latch : nextLatch crossing = some 2875 ∧ fbkOn crossing 0 ∧ isQuad crossing 0 ∧
    crossing.flag (F.FBK_CMP_STAT_ARMED 0) ∧ (crossing.plan 0).travelOut = false ∧
    hitCount 30 60 40 7 = 3 ∧ isSerial wording 0 ∧ (wording.fbk 0).fresh = none ∧
    ((wording.wr (F.FBK_CMP_CTRL_ARM 0) 1).flag (F.FBK_CMP_CTRL_ARM 0)) := by decide +kernel

/-! ### The gate stage and safe torque off -/

/-- Bank 0's detectors are on; axis 0 is driven with its gate enables present, half-bridge 1 in a soft turn-off. -/
def gated : State :=
  let s := setAll [(F.GDR_OC_OCTH 0, 5), (F.GDR_DIDT_EN 0, 1), (F.GDR_VDS_VDSTH 0, 5), (F.GDR_TRIP_CFG_ENA 0, 1),
    (F.GDR_TRIP_CFG_MODEA 0, 1), (F.GDR_STO_STAT_EN, 1), (F.GDR_BRK_CFG_MAXON 0, 4)] live
  let s := s.setPlan 0 { s.plan 0 with st := .standing }
  let s := s.setHb 1 { s.hb 1 with soft := some ⟨60⟩ }
  s.setGdr 0 { s.gdr 0 with brkAt := some 5 }

theorem witness_detectors : gated.powered 1 ∧ analogOn gated 0 ∧ gated.rd (F.GDR_OC_OCTH 0) ≠ 0 ∧
    gated.flag (F.GDR_DIDT_EN 0) ∧ gated.rd (F.GDR_VDS_VDSTH 0) ≠ 0 ∧ (gated.hb 0).bst = false ∧ gateOn gated 0 ∧
    (live.wr (F.GDR_OC_OCTH 0) 0).rd (F.GDR_OC_OCTH 0) = 0 ∧ (live.wr (F.GDR_DIDT_EN 0) 0).flag (F.GDR_DIDT_EN 0) = false ∧ (gated.hb 1).soft = some ⟨60⟩ ∧
    tripEn gated 0 false ∧ tripCycle gated 0 false ∧ tripEn gated 0 true = false ∧ (gated.gdr 0).inA = false ∧
    gated.powered 8 ∧
    (gated.gdr 0).vgLow = false ∧ (gated.gdr 0).edgeLost = false ∧ (gated.gdr 0).brkAt = some 5 ∧
    gated.rd (F.GDR_BRK_CFG_MAXON 0) ≠ 0 ∧ (gated.gdr 0).brkOver = false ∧
    ((gated.setGdr 0 { gated.gdr 0 with vgLow := true }).gdr 0).vgLow := by decide +kernel

/-- A supply near its limits, its monitor armed, the brake off. -/
def supplied : State :=
  let s := setAll [(F.GDR_VMS_LIM_OV 0, 600), (F.GDR_VMS_LIM_UV 0, 200), (F.GDR_VMS_BRK_ON 0, 550),
    (F.GDR_VMS_BRK_OFF 0, 500)] gated
  s.setGdr 0 { s.gdr 0 with ovRun := 1, uvRun := 7, uvArmed := true }
/-- Axis 0's serial encoder is valid and has failed for as many half-frames as ERR_N asks. -/
def failing : State :=
  let s := setAll [(F.FBK_CFG_MODE 0, 1), (F.FBK_STAT_VALID 0, 1), (F.FBK_CFG_ERR_N 0, 3)] live
  s.setFbk 0 { s.fbk 0 with errRun := 3 }

def permitted : State := (live.wr F.GDR_STO_STAT_A 1).wr F.GDR_STO_STAT_B 1

theorem witness_supply : supplied.powered 1 ∧ analogOn supplied 0 ∧ encoder failing 0 ∧ fbkOn failing 0 ∧
    failing.flag (F.FBK_STAT_VALID 0) ∧ failing.rd (F.FBK_CFG_ERR_N 0) ≤ (failing.fbk 0).errRun ∧
    gatesMay live = live.lcs.tested ∧ live.fcs.discWait = false ∧ live.flag F.GDR_STO_STAT_B = false ∧
    (permitted.flag F.GDR_STO_STAT_A ∧ permitted.flag F.GDR_STO_STAT_B) ∧
    (permitted.wr F.GDR_STO_STAT_A 0).flag F.GDR_STO_STAT_A = false ∧ permitted.fcs.discWait = false ∧
    (live.gdr 0).ntcOut = false ∧ (live.wr (F.GDR_NTC_LIM_EN 0) 1).flag (F.GDR_NTC_LIM_EN 0) := by decide +kernel

/-! ### Conversion -/

/-- An open-wire test of bank 0 is asked for; axis 0 is driven. -/
def wiring : State := let s := moving (.owt 0) live
  s.setPlan 0 { s.plan 0 with st := .standing }
/-- The test runs on coils 2 and 3. -/
def probing : State := live.setAdc 0 { live.adc 0 with owt := some (5, 12) }
def convertD : Desc := desc 0 [3#8, 0#8, 1#8]
def converting (begun : Bool) (data : List Nat) : State :=
  { live with ops := [{ opOn 7 0x1A convertD begun with data }] }
/-- Slice 4 rests, calibrated or not. -/
def rotating (calDone : Bool) : State :=
  (setAll [(F.ADC_ROT_REST 0, 4), (F.ADC_ROT_INSVC 0, 15)] live).setAdc 0 { live.adc 0 with calDone }
def goodCal : SliceCal := ⟨3, 5, 7, true⟩
def calibratingAll : State := { live with ops := [opOn 7 0x1B (desc 0 [1#8]) true] }

theorem witness_conversions : wiring.atTick ∧ wiring.ripe (.owt 0) ∧ wiring.powered 12 ∧ (probing.adc 0).owt = some (5, 12) ∧
    probing.powered 1 ∧ ((converting false []).ops.map (·.begun)) = [false] ∧ convertD.bank = 0 ∧
    (adcLive live 0 && 4 ≤ (inService live 0).length) ∧ Machine.resting (rotating true) 0 = some 4 ∧ adcLive (rotating true) 0 ∧
    ((rotating true).adc 0).calDone ∧ ((rotating false).adc 0).calDone = false ∧ sliceOk goodCal ∧
    sliceOk { goodCal with meanOk := false } = false ∧
    (calibratingAll.ops.find? fun o => o.op = 0x1B && o.d.u8 16 = 1 && o.begun).isSome := by decide +kernel

theorem witness_injected : ((converting true [2, 40, 100]).opOf 7).map (fun o => (o.op, o.begun, o.data)) =
      some (0x1A, true, [2, 40, 100]) ∧
    ((List.range 100).find? fun i => injectable (live.advToGtc 0) 0 ((live.advToGtc 0).clk + i)
      ((live.advToGtc 0).clk + i + 30 + 80)).isSome ∧
    ((converting true []).opOf 7).map (·.data) = some [] := by decide +kernel

/-! ### The condition monitor and the ledger -/

/-- CND runs, with one reading of quantity 6. -/
def gathering : State :=
  let s := setAll [(F.CND_CFG_EN, 1), (F.CND_CFG_REPLAN, 1), (F.LCS_LC_STAT_STATE, 3), (F.HIF_CTX_CFG_EN 0, 1)] geared
  { s with clk := 7, cnd := { s.cnd with acc := [(6, 3, 40)], trend := [(6, 3, 30, 2)], baseAt := some 3, hist := [(1, 0, 5), (1, 0, 9)], starts := [(1, 0, 3)] } }
/-- A tighter friction of axis 3 is wanted, and a looser one proposed and approved. -/
def wanting : State :=
  let s := gathering.wr (F.MPL_FRIC_FRIC 3) 20
  { s with clk := s.tickClk, cnd := { s.cnd with
      wants := [⟨Reg.MPL_FRIC 3, 6, 25, 0⟩], props := [⟨0, 4, Reg.MPL_FRIC 3, 6, 15, 5, true⟩] } }
def lapsing : State := { gathering with cnd := { gathering.cnd with props := [⟨0, 4, Reg.MPL_FRIC 3, 6, 15, 5, false⟩] } }

theorem witness_cnd : gathering.cndRuns ∧ gathering.cnd.acc = [(6, 3, 40)] ∧ replanTime wanting ∧
    tighterThan 6 25 (workGet 6 (wanting.reg (Reg.MPL_FRIC 3))) ∧ wanting.ledFull = false ∧
    workOk { wanting with cnd := { wanting.cnd with wants := [] } } (Reg.MPL_FRIC 3)
      (workPut 6 (wanting.reg (Reg.MPL_FRIC 3)) 25) ∧
    workClamp wanting 6 (Reg.MPL_FRIC 3) 25 = 25 ∧ workClamp wanting 6 (Reg.MPL_FRIC 3) 15 = 15 ∧
    (wanting.ctxOn 0 ∧ (wanting.ctx 0).lost = 0 ∧ wanting.eventRoom 0) ∧ 0x10000 ≤ Reg.MPL_FRIC 3 ∧
    Reg.MPL_FRIC 3 < 0x40000 ∧ (wanting.cnd.props.filter fun x => x.ok).length = 1 ∧
    tighterThan 6 (workGet 6 (wanting.reg (Reg.MPL_FRIC 3))) (workGet 6 (BitVec.ofNat 32 15)) ∧
    (lapsing.cnd.props.filter fun x => !x.ok).length = 1 := by decide +kernel

def entry : LedEntry := ⟨5, 2, 9, [1#32], none⟩
def queued (bad : List Nat) : State :=
  { gathering with ledger := { gathering.ledger with queue := [entry], bad, nextSeq := 6, waits := [⟨0, 6, 3, [], none⟩] } }

theorem witness_ledger : (queued []).ledger.queue = [entry] ∧ (queued []).powered 5 ∧ 5 ∉ (queued []).ledger.bad ∧
    5 ∈ (queued [5]).ledger.bad ∧ gathering.powered 1 ∧ gathering.lcState ≠ lcBlank ∧ gathering.lcState ≠ lcRetired ∧
    ({ gathering with cnd := { gathering.cnd with dexAt := some 3 } }).cnd.dexAt = some 3 ∧
    gathering.cnd.starts = [(1, 0, 3)] ∧ gathering.ledger.queue.length ≤ 212 ∧ gathering.ledger.reserve = [] ∧
    worst 6 (gathering.cnd.trend.filter fun y => y.1 = 6 && ofBank 6 y.2.1 0) = some (6, 3, 30, 2) := by decide +kernel

/-! ### Well-formedness: one ill-formed command for each check -/

theorem smoke_frame_tick : ¬ (Instr.frameTick [(1, []), (1, [])] [] []).wellFormed ∧
    ¬ (Instr.frameTick [] [(2, 0), (2, 1)] []).wellFormed ∧ ¬ (Instr.frameTick [] [] [3, 3]).wellFormed ∧
    (Instr.frameTick [(1, []), (2, [])] [(2, 0)] [3]).wellFormed ∧ ¬ (Instr.halfFrameTick [0, 0]).wellFormed := by decide +kernel

theorem smoke_descriptors : ¬ (Instr.badOpcode 0 0x01 (desc 0 [])).wellFormed ∧
    (Instr.badOpcode 0 0x7F (desc 0 [])).wellFormed ∧
    ¬ (Instr.telemetryStart 0 (desc 0 [])).wellFormed ∧ ¬ (Instr.telemetryStop 0 (desc 0 [0#8, 1#8])).wellFormed ∧
    ¬ (Instr.calibrateSlice 0 (desc 0 [1#8])).wellFormed ∧ ¬ (Instr.calibrateSlice 0 (desc 0 [2#8])).wellFormed ∧
    ¬ (Instr.calibrateFull 0 (desc 0 [0#8])).wellFormed ∧ ¬ (Instr.calibrateIdentify 0 (desc 0 [1#8])).wellFormed := by
  decide +kernel

theorem smoke_events : ¬ (Instr.faultTrip 1 none).wellFormed ∧ ¬ (Instr.faultTrip 20 (some 0)).wellFormed ∧
    (Instr.faultTrip 36 (some 0)).wellFormed ∧ ¬ (Instr.fullCalibrationDone [] [(0, 0), (0, 0)]).wellFormed ∧
    ¬ (Instr.domainPowered 0 [] [] none).wellFormed ∧ ¬ (Instr.registerWrite .A 2 0 0xF false).wellFormed ∧
    ¬ (Instr.cndApprove .A 0x10).wellFormed ∧ ¬ (Instr.cndDecline .A 0x8000).wellFormed := by decide +kernel

end Sys2Proof.Tests
end

namespace Sys2Proof.Machine

/-! ### What writing records reaches -/

section Reporting

variable {R Q : Nat → Bool} {z s t : State}

/-- The registers that writing an event may change: EQ_TAIL and STAT of a context page, and the MSI-X pending bits (R96, R114,
R116, R124). -/
def eventReg (o : Nat) : Bool :=
  (0x40000 ≤ o && o < 0x80000 && (o % 0x1000 = 0x14 || o % 0x1000 = 0x1c)) ||
  (0x81000 ≤ o && o < 0x81008) || (portBBase + 0x81000 ≤ o && o < portBBase + 0x81008)

/-- The registers that writing records may change: with completions also CQ_TAIL (R104). -/
def ringReg (o : Nat) : Bool := eventReg o || (0x40000 ≤ o && o < 0x80000 && o % 0x1000 = 0x10)

/-- The registers that writing fault records and showing the sequencer's state may change: FCS_STAT, FCS_REC_CNT and CND_STAT
besides (R359, R372, R449). -/
def reportReg (o : Nat) : Bool := ringReg o || o = Reg.FCS_STAT || o = Reg.FCS_REC_CNT || o = Reg.CND_STAT

/-- From s to t records have been written or held and noted in FCS and the ledger (R96, R113, R124, R357, R449): registers
outside R and every part of the state not listed are untouched, ports change in what they hold alone, and contexts in how
they count and signal. Where R leaves the count of records alone, no record was made: FCS and the ledger are untouched. -/
structure Reports (R : Nat → Bool) (s t : State) : Prop where
  rest : t = { s with
    regs := t.regs, seqDone := t.seqDone, cntNow := t.cntNow, portA := t.portA, portB := t.portB, ctxs := t.ctxs
    sent := t.sent, ledger := t.ledger, fcs := { s.fcs with recs := t.fcs.recs, recN := t.fcs.recN } }
  regs : ∀ o, R o = false → t.reg o = s.reg o
  portA : t.portA = { s.portA with held := t.portA.held }
  portB : t.portB = { s.portB with held := t.portB.held }
  ctx : ∀ k, t.ctx k = { s.ctx k with
    unsig := (t.ctx k).unsig, unsigAt := (t.ctx k).unsigAt, modTime := (t.ctx k).modTime, lost := (t.ctx k).lost }
  store : R Reg.FCS_REC_CNT = false → t.fcs = s.fcs ∧ t.ledger = s.ledger

theorem Reports.refl (s : State) : Reports R s s :=
  ⟨rfl, fun _ _ => rfl, rfl, rfl, fun _ => rfl, fun _ => ⟨rfl, rfl⟩⟩

theorem Reports.trans {a b c : State} (h : Reports R a b) (k : Reports R b c) : Reports R a c := by
  refine ⟨?_, fun o e => (k.regs o e).trans (h.regs o e), ?_, ?_, fun x => ?_, fun e =>
    ⟨(k.store e).1.trans (h.store e).1, (k.store e).2.trans (h.store e).2⟩⟩
  · have e := k.rest
    rw [h.rest] at e
    exact e
  · rw [k.portA, h.portA]
  · rw [k.portB, h.portB]
  · rw [k.ctx x, h.ctx x]

theorem Reports.mono (h : Reports R s t) (hr : ∀ o, R o = true → Q o = true) : Reports Q s t :=
  have less : ∀ o, Q o = false → R o = false := fun o e => by
    by_contra hc
    exact absurd (hr o (by simpa using hc)) (by simp [e])
  ⟨h.rest, fun o e => h.regs o (less o e), h.portA, h.portB, h.ctx, fun e => h.store (less _ e)⟩

theorem Reports.ite {c : Prop} [Decidable c] {a b : State} (h : Reports R z a) (k : Reports R z b) :
    Reports R z (if c then a else b) := by
  split <;> assumption

theorem Reports.each {α : Type} {l : List α} {f : State → α → State} (hf : ∀ s a, Reports R s (f s a)) :
    Reports R s (Machine.each l f s) := by
  induction l generalizing s with
  | nil => exact Reports.refl s
  | cons a l ih => exact (hf s a).trans ih

/-- An update of the notes of the clock or of what was sent. -/
theorem Reports.note {x5 : List (Nat × Word)} {x6 : List (Nat × Nat × Nat)} {se : List Out} :
    Reports R s { s with seqDone := x5, cntNow := x6, sent := se } :=
  ⟨rfl, fun _ _ => rfl, rfl, rfl, fun _ => rfl, fun _ => ⟨rfl, rfl⟩⟩

/-- An update of the ledger or of the record store. -/
theorem Reports.record {ld : LedgerS} {re : List (List Word)} {rn : Nat} :
    Reports reportReg s { s with ledger := ld, fcs := { s.fcs with recs := re, recN := rn } } :=
  ⟨rfl, fun _ _ => rfl, rfl, rfl, fun _ => rfl, fun e => absurd e (by decide +kernel)⟩

theorem State.setReg_reports (o : Nat) (w : Word) (ho : R o = true) : Reports R s (s.setReg o w) := by
  refine ⟨rfl, fun o' e => State.reg_setReg_ne s w ?_, rfl, rfl, fun _ => rfl, fun _ => ⟨rfl, rfl⟩⟩
  rintro rfl
  simp [ho] at e

theorem State.wr_reports (f : Fld) (v : Nat) (ho : R f.off = true) : Reports R s (s.wr f v) :=
  State.setReg_reports _ _ ho

theorem State.sqcMask_reports (o m : Nat) (ho : R o = true) : Reports R s (s.sqcMask o m) := by
  obtain ⟨w, b, e⟩ := s.sqcMask_shape o m
  rw [e]
  exact (State.setReg_reports o w ho).trans Reports.note

theorem State.sqc_reports (f : Fld) (ho : R f.off = true) : Reports R s (s.sqc f) := State.sqcMask_reports _ _ ho

theorem State.cnt_reports (f : Fld) (n : Nat) (ho : R f.off = true) : Reports R s (s.cnt f n) :=
  Reports.trans (b := s.noteCnt f n) Reports.note (State.wr_reports _ _ ho)

theorem State.cntWrap_reports (f : Fld) (n : Nat) (ho : R f.off = true) : Reports R s (s.cntWrap f n) :=
  Reports.trans (b := s.noteCnt f n) Reports.note (State.wr_reports _ _ ho)

theorem State.emit_reports (o : Out) : Reports R s (s.emit o) := Reports.note

theorem State.setCtx_reports (k : Ctx) (x : CtxS)
    (hx : x = { s.ctx k with unsig := x.unsig, unsigAt := x.unsigAt, modTime := x.modTime, lost := x.lost }) :
    Reports R s (s.setCtx k x) := by
  refine ⟨rfl, fun _ _ => rfl, rfl, rfl, fun j => ?_, fun _ => ⟨rfl, rfl⟩⟩
  by_cases e : j = k
  · subst e
    rw [State.ctx_setCtx_self]
    exact hx
  · rw [State.ctx_setCtx_ne _ _ e]

theorem State.setHeld_reports (p : Port) (l : List Held) : Reports R s (s.setPort p { s.port p with held := l }) := by
  cases p <;> exact ⟨rfl, fun _ _ => rfl, rfl, rfl, fun _ => rfl, fun _ => ⟨rfl, rfl⟩⟩

/-! The registers of a record. -/

theorem ringReg_of_eventReg (o : Nat) (h : eventReg o = true) : ringReg o = true := by simp [ringReg, h]
theorem reportReg_of_ringReg (o : Nat) (h : ringReg o = true) : reportReg o = true := by simp [reportReg, h]

theorem eventReg_page {b : Nat} (k : Ctx) (h : b = 0x40014 ∨ b = 0x4001c) : eventReg (b + 0x1000 * k) = true := by
  simp only [eventReg, Bool.or_eq_true, Bool.and_eq_true, decide_eq_true_eq]
  omega
theorem eventReg_eqTail (k : Ctx) : eventReg (F.HIF_CTX_EQ_TAIL_TAIL k).off = true := eventReg_page k (.inl rfl)
theorem eventReg_ctxStat (k : Ctx) : eventReg (Reg.HIF_CTX_STAT k) = true := eventReg_page k (.inr rfl)
theorem eventReg_pend (p : Port) (k : Ctx) : eventReg (msixPend p k).off = true := by
  have : k.val / 32 < 2 := by omega
  simp only [eventReg, Bool.or_eq_true, Bool.and_eq_true, decide_eq_true_eq]
  cases p <;> · unfold msixPend portOff portBBase; dsimp only; omega
theorem ringReg_cqTail (k : Ctx) : ringReg (F.HIF_CTX_CQ_TAIL_TAIL k).off = true := by
  change ringReg (0x40010 + 0x1000 * k.val) = true
  simp only [ringReg, Bool.or_eq_true, Bool.and_eq_true, decide_eq_true_eq]
  omega

/-! Operations. -/

theorem State.message_reports (p : Port) (k : Ctx) : Reports eventReg s (s.message p k) := by
  unfold State.message
  exact (Reports.ite (State.setCtx_reports k _ rfl) (Reports.refl s)).trans (State.emit_reports _)

theorem State.signal_reports (k : Ctx) : Reports eventReg s (s.signal k) :=
  Reports.ite (State.wr_reports _ _ (eventReg_pend _ _)) (State.message_reports _ _)

theorem State.issued_reports (k : Ctx) (urgent : Bool) : Reports eventReg s (s.issued k urgent) := by
  unfold State.issued
  extract_lets c time c' s'
  have h : Reports eventReg s s' := State.setCtx_reports k _ rfl
  exact Reports.ite (h.trans (State.signal_reports k)) h

theorem State.place_reports (k : Ctx) (cls : Dma) (index addr : Nat) (ws : List Word) (urgent : Bool) :
    Reports eventReg s (s.place k cls index addr ws urgent) :=
  Reports.ite ((State.emit_reports _).trans (State.issued_reports _ _))
    ((State.setHeld_reports _ _).trans (State.wr_reports _ _ (eventReg_ctxStat k)))

theorem State.complete_reports (k : Ctx) (ws : List Word) : Reports ringReg s (s.complete k ws) :=
  (State.wr_reports _ _ (ringReg_cqTail k)).trans ((State.place_reports _ _ _ _ _ _).mono ringReg_of_eventReg)

theorem State.putEvent_reports (k : Ctx) (e : Event) : Reports eventReg s (s.putEvent k e) :=
  (State.wr_reports _ _ (eventReg_eqTail k)).trans (State.place_reports _ _ _ _ _ _)

theorem State.dropEvent_reports (k : Ctx) : Reports eventReg s (s.dropEvent k) :=
  (State.cnt_reports (F.HIF_CTX_STAT_EV_DROP k) 1 (eventReg_ctxStat k)).trans (State.setCtx_reports k _ rfl)

theorem State.flushLost_reports (k : Ctx) : Reports eventReg s (s.flushLost k) :=
  Reports.ite ((State.setCtx_reports k _ rfl).trans (State.putEvent_reports _ _)) (Reports.refl s)

theorem State.eventTo_reports (k : Ctx) (e : Event) : Reports eventReg s (s.eventTo k e) :=
  Reports.ite ((State.flushLost_reports k).trans
    (Reports.ite (State.putEvent_reports _ _) (State.dropEvent_reports _))) (Reports.refl s)

theorem State.ledEnter_reports (e : LedEntry) : Reports reportReg s (s.ledEnter e) := Reports.record

theorem State.ledPush_reports (typ : Nat) (data : List Word) (src : Option Nat) : Reports reportReg s (s.ledPush typ data src) := by
  unfold State.ledPush
  refine Reports.ite (Reports.refl s) (Reports.ite (State.ledEnter_reports _) (Reports.ite Reports.record
    (Reports.ite (Reports.trans ?_ (State.sqc_reports F.CND_STAT_SUPP (by decide +kernel))) Reports.record)))
  exact Reports.record

theorem State.faultRecord_reports (src : Nat) (object : Option Nat) (r : FaultRec) :
    Reports reportReg s (s.faultRecord src object r) := by
  unfold State.faultRecord
  extract_lets d0 e i ws full _ s1 s2 s3 s4
  have h1 : Reports reportReg s s1 := Reports.record
  have h2 : Reports reportReg s1 s2 := Reports.ite (State.sqc_reports F.FCS_STAT_REC_OVF (by decide +kernel)) (Reports.refl _)
  have h3 : Reports reportReg s2 s3 :=
    (State.cntWrap_reports F.FCS_REC_CNT_RECS 1 (by decide +kernel)).trans (State.wr_reports F.FCS_STAT_LAST src (by decide +kernel))
  have h4 : Reports reportReg s s4 := ((h1.trans h2).trans h3).trans ((State.eventTo_reports _ _).mono fun o h => reportReg_of_ringReg o (ringReg_of_eventReg o h))
  exact Reports.ite (Reports.refl s) (Reports.ite (h4.trans (State.ledPush_reports _ _ _)) h4)

theorem State.fcsStat_reports : Reports reportReg s s.fcsStat := by
  unfold State.fcsStat
  extract_lets s1
  have h1 : Reports reportReg s s1 :=
    (State.wr_reports F.FCS_STAT_DEVOFF _ (by decide +kernel)).trans (State.wr_reports F.FCS_STAT_LOCKSTEP _ (by decide +kernel))
  exact Reports.ite ((h1.trans (State.wr_reports F.FCS_STAT_ALIVE_A 0 (by decide +kernel))).trans
    (State.wr_reports F.FCS_STAT_ALIVE_B 0 (by decide +kernel))) h1

theorem State.flushHeld_reports (p : Port) : Reports eventReg s (s.flushHeld p) := by
  unfold State.flushHeld
  extract_lets hs _ s1
  have h1 : Reports eventReg s s1 := Reports.ite (State.setHeld_reports p []) (Reports.refl s)
  refine h1.trans (Reports.each fun s h => ?_)
  cases h with
  | record k cls i addr ws =>
    change Reports eventReg s (((s.emit _).wr (F.HIF_CTX_STAT_HELD k) 0).issued k _)
    exact ((State.emit_reports _).trans (State.wr_reports (F.HIF_CTX_STAT_HELD k) 0 (eventReg_ctxStat k))).trans
      (State.issued_reports k _)
  | data addr ws => exact State.emit_reports _

theorem State.arranged_reports (a : State) : Reports R s (State.arranged a s) :=
  ⟨rfl, fun _ _ => rfl, rfl, rfl, fun _ => rfl, fun _ => ⟨rfl, rfl⟩⟩

end Reporting

end Sys2Proof.Machine

namespace Sys2Proof.Machine

section Clears

variable {R : Nat → Bool} {s t : State}

/-! ### What a report leaves alone -/

theorem Reports.plans (h : Reports R s t) : t.plans = s.plans := by rw [h.rest]
theorem Reports.ops (h : Reports R s t) : t.ops = s.ops := by rw [h.rest]
theorem Reports.hbs (h : Reports R s t) : t.hbs = s.hbs := by rw [h.rest]
theorem Reports.clk (h : Reports R s t) : t.clk = s.clk := by rw [h.rest]
theorem Reports.reqs (h : Reports R s t) : t.reqs = s.reqs := by rw [h.rest]
theorem Reports.src (h : Reports R s t) (j : Nat) : t.src j = s.src j := by
  unfold State.src
  rw [show t.fcs.srcs = s.fcs.srcs by rw [h.rest]]

/-- A source's entry carries its number. -/
theorem State.src_src (s : State) (k : Nat) : (s.src k).src = k := by
  unfold State.src
  split
  · rename_i h; simpa using List.find?_some h
  · rfl

/-- A source that differs from one never raised is listed. -/
theorem State.src_listed {k : Nat} (h : (s.src k).severe = true) : k ∈ s.fcs.srcs.map (·.src) := by
  unfold State.src at h
  split at h
  · rename_i x hx
    have : x.src = k := by simpa using List.find?_some hx
    exact List.mem_map.2 ⟨x, List.mem_of_find?_eq_some hx, this⟩
  · cases h

/-! ### Clears (R349) -/

/-- What the clear of a source leaves of its entry (R349). -/
def SrcS.cleared (x : SrcS) : SrcS := { x with severe := false, stamps := [], scope := 0, since := 0, recorded := false }

/-- No record of a clear goes to the ledger, so an entry waits there as before. -/
theorem State.faultRecord_ledger {k : Nat} {ob : Option Nat} {r : FaultRec} (h1 : r.kind ≠ 1) (h2 : r.widened = false) :
    (s.faultRecord k ob r).ledger = s.ledger := by
  have ev : ∀ (s : State) (e : Event), (s.eventTo 0 e).ledger = s.ledger := fun s e => by
    have place : ∀ (s : State) (k : Ctx) cls i a ws u, (s.place k cls i a ws u).ledger = s.ledger := by
      intro s k cls i a ws u
      rw [(State.place_placed s k cls i a ws u).rest]
    have put : ∀ (s : State) (e : Event), (s.putEvent 0 e).ledger = s.ledger := fun s e => place _ _ _ _ _ _ _
    have flush : (s.flushLost 0).ledger = s.ledger := by
      unfold State.flushLost
      split
      · exact put _ _
      · rfl
    unfold State.eventTo
    dsimp only
    split
    · split
      · rw [put, flush]
      · exact flush
    · rfl
  unfold State.faultRecord
  split
  · rfl
  · simp only [h1, h2, decide_false, Bool.or_false, Bool.false_eq_true, if_false, ev, State.wr_ledger, State.cntWrap_ledger]
    split
    · rw [State.sqc_ledger]
    · rfl

theorem State.clearSrc_reports (s : State) (k : Nat) : Reports reportReg (s.setSrc (s.src k).cleared) (s.clearSrc k) :=
  (State.faultRecord_reports _ _ _).trans State.fcsStat_reports

theorem State.clearSrc_src_self (s : State) (k : Nat) : (s.clearSrc k).src k = (s.src k).cleared := by
  rw [(s.clearSrc_reports k).src]
  have := s.src_setSrc_self (s.src k).cleared
  rwa [show (s.src k).cleared.src = k from s.src_src k] at this

theorem State.clearSrc_src_ne (s : State) {k j : Nat} (h : j ≠ k) : (s.clearSrc k).src j = s.src j := by
  rw [(s.clearSrc_reports k).src]
  exact s.src_setSrc_ne _ fun e => h (e.trans (s.src_src k))

theorem State.clearSrc_ledger (s : State) (k : Nat) : (s.clearSrc k).ledger = s.ledger := by
  have h : ∀ s : State, s.fcsStat.ledger = s.ledger := by
    intro s
    unfold State.fcsStat
    dsimp only
    split <;> rfl
  unfold State.clearSrc
  rw [h, State.faultRecord_ledger (fun h => by cases h) rfl]
  rfl

/-- Whether the clear of a source is refused rests on its own entry and on the ledger (R349). -/
theorem clearRefused_congr {k : Nat} (h : t.src k = s.src k) (hl : t.ledger = s.ledger) : clearRefused t k = clearRefused s k := by
  simp only [clearRefused, State.ledWaiting, h, hl]

theorem clearRefused_of_clear {k : Nat} (h : (s.src k).severe = false) : clearRefused s k = true := by
  simp [clearRefused, h]

/-- What FAULT_CLEAR of one source or of all leaves of everything but sources, records and FCS_CLR. -/
structure ClearsOnly (s t : State) : Prop where
  plans : t.plans = s.plans
  ops : t.ops = s.ops
  hbs : t.hbs = s.hbs
  clk : t.clk = s.clk
  reqs : t.reqs = s.reqs
  ledger : t.ledger = s.ledger

theorem ClearsOnly.refl (s : State) : ClearsOnly s s := ⟨rfl, rfl, rfl, rfl, rfl, rfl⟩

theorem ClearsOnly.trans {a b c : State} (h : ClearsOnly a b) (k : ClearsOnly b c) : ClearsOnly a c :=
  ⟨k.plans.trans h.plans, k.ops.trans h.ops, k.hbs.trans h.hbs, k.clk.trans h.clk, k.reqs.trans h.reqs,
    k.ledger.trans h.ledger⟩

theorem State.clearSrc_only (s : State) (k : Nat) : ClearsOnly s (s.clearSrc k) :=
  have h := s.clearSrc_reports k
  ⟨h.plans, h.ops, h.hbs, h.clk, h.reqs, s.clearSrc_ledger k⟩

/-- One round of the clear of every source. -/
def clearIfDue (s : State) (k : Nat) : State := if clearRefused s k then s else s.clearSrc k

theorem clearIfDue_only (s : State) (k : Nat) : ClearsOnly s (clearIfDue s k) := by
  unfold clearIfDue
  split
  · exact ClearsOnly.refl s
  · exact s.clearSrc_only k

theorem clearIfDue_src_ne {k j : Nat} (s : State) (h : j ≠ k) : (clearIfDue s k).src j = s.src j := by
  unfold clearIfDue
  split
  · rfl
  · exact s.clearSrc_src_ne h

theorem clearIfDue_refused {k : Nat} (j : Nat) (h : clearRefused s k = true) :
    (clearIfDue s j).src k = s.src k := by
  by_cases e : k = j
  · subst e; rw [clearIfDue, if_pos h]
  · exact clearIfDue_src_ne s e

/-- Clears in turn: a source whose clear is refused keeps its entry, another that is listed loses its latch. -/
theorem clearEach_spec (l : List Nat) (k : Nat) (s : State) :
    ClearsOnly s (each l clearIfDue s) ∧ (clearRefused s k = true → (each l clearIfDue s).src k = s.src k) ∧
      (clearRefused s k = false → k ∈ l → ((each l clearIfDue s).src k).severe = false) := by
  induction l generalizing s with
  | nil => exact ⟨ClearsOnly.refl s, fun _ => rfl, fun _ h => absurd h (List.not_mem_nil)⟩
  | cons j l ih =>
    obtain ⟨h1, h2, h3⟩ := ih (clearIfDue s j)
    have h0 := clearIfDue_only s j
    refine ⟨h0.trans h1, fun hr => ?_, fun hr hk => ?_⟩
    · have e := clearIfDue_refused j hr
      exact (h2 ((clearRefused_congr e h0.ledger).trans hr)).trans e
    · by_cases e : k = j
      · subst e
        have hc : ((clearIfDue s k).src k).severe = false := by
          rw [clearIfDue, if_neg (by simp [hr]), State.clearSrc_src_self]; rfl
        exact (congrArg SrcS.severe (h2 (clearRefused_of_clear hc))).trans hc
      · have e' := clearIfDue_src_ne s e
        exact h3 ((clearRefused_congr e' h0.ledger).trans hr) ((List.mem_cons.1 hk).resolve_left e)

theorem State.clearEvery_only (s : State) : ClearsOnly s s.clearEvery := (clearEach_spec _ 0 s).1

theorem State.clearEvery_src (s : State) (k : Nat) :
    (clearRefused s k = false → (s.clearEvery.src k).severe = false) ∧ (clearRefused s k = true → s.clearEvery.src k = s.src k) := by
  obtain ⟨-, h2, h3⟩ := clearEach_spec (s.fcs.srcs.map (·.src)) k s
  refine ⟨fun h => h3 h (State.src_listed ?_), h2⟩
  simp only [clearRefused, Bool.or_eq_false_iff, Bool.not_eq_false'] at h
  exact h.1.1.1

theorem State.clearReq_only_reqs (s : State) {r : Req} (h : isClear r = true) : (s.clearReq r).reqs = s.reqs := by
  cases r with
  | clearSrc k =>
    unfold State.clearReq
    dsimp only
    split
    · exact State.sqc_reqs _ _
    · exact (s.clearSrc_only k).reqs
  | clearAll => exact s.clearEvery_only.reqs
  | _ => cases h

theorem State.clearReq_refused {k : Nat} (h : clearRefused s k = true) : s.clearReq (.clearSrc k) = s.sqc F.FCS_STAT_CLR_REF :=
  if_pos h

theorem State.clearReq_clears {k : Nat} (h : clearRefused s k = false) : s.clearReq (.clearSrc k) = s.clearSrc k :=
  if_neg (by rw [h]; decide)

/-- FAULT_CLEAR with one request that is due: it is carried out, and GO clears (R349). -/
theorem exec_faultClear_one {r : Req} {c : Nat} (ht : s.atTick = true) (hr : s.reqs = [(r, c)]) (hc : c < s.tickClk)
    (hi : isClear r = true) : exec .faultClear s = .next ((({ s with reqs := [] } : State).clearReq r).wr F.FCS_CLR_GO 0) := by
  have e := State.clearReq_only_reqs { s with reqs := [] } hi
  change execFaultClear s = _
  simp [execFaultClear, ht, hr, hi, hc, each, e]

end Clears

end Sys2Proof.Machine

namespace Sys2Proof.Machine

section Off

variable {z s t : State}

/-! ### Reactions energise no axis and begin no operation -/

/-- No axis that is off in s is on in t, and no operation that has begun in t is other than in s, but for what a STOP
(opcode 4) still waits for. -/
structure StaysOff (s t : State) : Prop where
  off : ∀ n, (s.plan n).st = .off → (t.plan n).st = .off
  ops : ∀ o ∈ t.ops, o.begun = true → o.op ≠ 4 → o ∈ s.ops

theorem StaysOff.refl (s : State) : StaysOff s s := ⟨fun _ => id, fun _ h _ _ => h⟩

theorem StaysOff.trans {a b c : State} (h : StaysOff a b) (k : StaysOff b c) : StaysOff a c :=
  ⟨fun n e => k.off n (h.off n e), fun o e eb e4 => h.ops o (k.ops o e eb e4) eb e4⟩

theorem StaysOff.after {a b c : State} (k : StaysOff b c) (h : StaysOff a b) : StaysOff a c := h.trans k

theorem StaysOff.ite {c : Prop} [Decidable c] {a b : State} (h : StaysOff z a) (k : StaysOff z b) :
    StaysOff z (if c then a else b) := by
  split <;> assumption

theorem StaysOff.each_mem {α : Type} {l : List α} {f : State → α → State} (hf : ∀ s, ∀ a ∈ l, StaysOff s (f s a)) :
    StaysOff s (Machine.each l f s) := by
  induction l generalizing s with
  | nil => exact StaysOff.refl s
  | cons a l ih => exact (hf s a (by simp)).trans (ih fun s b hb => hf s b (by simp [hb]))

theorem StaysOff.each {α : Type} {l : List α} {f : State → α → State} (hf : ∀ s a, StaysOff s (f s a)) :
    StaysOff s (Machine.each l f s) := StaysOff.each_mem fun s a _ => hf s a

theorem StaysOff.of_plans (h : t.plans = s.plans) (k : t.ops = s.ops) : StaysOff s t :=
  ⟨fun n e => by rwa [State.plan, h], fun o e _ _ => k ▸ e⟩

theorem Reports.staysOff {R : Nat → Bool} (h : Reports R s t) : StaysOff s t := StaysOff.of_plans h.plans h.ops

theorem State.setPlan_staysOff (s : State) (n : Axis) (x : AxisPlan) (h : (s.plan n).st = .off → x.st = .off) :
    StaysOff s (s.setPlan n x) := by
  refine ⟨fun m e => ?_, fun _ e _ _ => e⟩
  by_cases hm : m = n
  · subst hm; rw [State.plan_setPlan_self]; exact h e
  · rwa [State.plan_setPlan_ne _ _ hm]

theorem State.finish_staysOff (s : State) (tag : Nat) (st : Status) (t1 t2 detail fl : Nat) :
    StaysOff s (s.finish tag st t1 t2 detail fl) := by
  unfold State.finish
  split
  · exact StaysOff.refl s
  · rename_i o _
    refine StaysOff.trans ⟨fun n e => ?_, fun x e _ _ => ?_⟩ (State.complete_reports o.ctx _).staysOff
    · rw [State.countEnd_rest]
      simpa [State.plan] using e
    · rw [State.countEnd_rest] at e
      exact (List.mem_filter.1 e).1

theorem State.setHb_staysOff (s : State) (h : HalfBridge) (x : HbS) : StaysOff s (s.setHb h x) :=
  StaysOff.of_plans rfl rfl

theorem State.softStart_staysOff (s : State) (h : HalfBridge) : StaysOff s (s.softStart h) :=
  StaysOff.ite (State.setHb_staysOff _ _ _) (StaysOff.refl s)

theorem State.softSto_staysOff (s : State) (h : HalfBridge) : StaysOff s (s.softSto h) := by
  unfold State.softSto
  split
  · exact State.setHb_staysOff _ _ _
  · exact State.softStart_staysOff _ _

theorem State.reactOff_staysOff (s : State) (h : HalfBridge) : StaysOff s (s.reactOff h) :=
  (State.softStart_staysOff s h).trans (State.setHb_staysOff _ _ _)

theorem State.deenergise_plan (s : State) (n : Axis) : (s.deenergise n).plans = (s.setPlan n { s.plan n with
    st := .off, ref := Motion.still (refNow s n).1, follow := none, homed := (s.plan n).homed && absActive s n
    leave := none }).plans := by
  unfold State.deenergise
  dsimp only
  split <;> rfl

theorem State.deenergise_ops (s : State) (n : Axis) : (s.deenergise n).ops = s.ops := by
  unfold State.deenergise
  dsimp only
  split <;> simp

theorem State.deenergise_off (s : State) (n : Axis) : ((s.deenergise n).plan n).st = .off := by
  rw [State.plan, State.deenergise_plan]
  exact congrArg AxisPlan.st (State.plan_setPlan_self _ _ _)

theorem State.deenergise_staysOff (s : State) (n : Axis) : StaysOff s (s.deenergise n) :=
  (StaysOff.of_plans (State.deenergise_plan s n) (State.deenergise_ops s n)).after (State.setPlan_staysOff s n _ fun _ => rfl)

theorem State.unbook_staysOff (s : State) (n : Axis) : StaysOff s (s.unbook n) := State.setPlan_staysOff s n _ id

/-- What a STOP still waits for. -/
theorem State.setStop_staysOff (s : State) (o : Op) (h : o.op = 4) : StaysOff s (s.setOp o) := by
  refine ⟨fun _ e => e, fun x e _ hx => ?_⟩
  obtain ⟨y, hy, rfl⟩ := List.mem_map.1 e
  by_cases ht : y.tag = o.tag
  · rw [if_pos ht] at hx
    exact absurd h hx
  · rw [if_neg ht]
    exact hy

theorem State.stopStood_staysOff (s : State) (n : Axis) (t2 : Nat) : StaysOff s (s.stopStood n t2) :=
  StaysOff.each_mem fun s o ho => by
    have h4 : o.op = 4 := by
      obtain ⟨-, h⟩ := List.mem_filter.1 ho
      simp only [Bool.and_eq_true, decide_eq_true_eq] at h
      exact h.1.1
    have hs := s.setStop_staysOff { o with left := o.left.filter (· ≠ n) } h4
    exact StaysOff.ite ((State.finish_staysOff _ _ _ _ _ _ _).after hs) hs

theorem State.curtSettle_staysOff (s : State) (b : Bank) : StaysOff s (s.curtSettle b) :=
  StaysOff.ite (StaysOff.of_plans rfl rfl) (StaysOff.refl s)

theorem State.uncurtail_staysOff (s : State) (n : Axis) : StaysOff s (s.uncurtail n) :=
  (State.curtSettle_staysOff _ _).after (StaysOff.of_plans rfl rfl)


theorem State.turnOff_eq (s : State) (n : Axis) (c : Cause) : ∃ u, StaysOff s u ∧
    s.turnOff n c = (((u.deenergise n).unbook n).stopStood n ((u.deenergise n).unbook n).now).uncurtail n := by
  unfold State.turnOff
  refine ⟨_, ?_, rfl⟩
  refine StaysOff.trans (b := match inProg s n with
    | some g => s.finish g.tag (causeOwn c).1 g.t1 s.now (causeOwn c).2 0
    | none => s) ?_ ?_
  · split
    · exact State.finish_staysOff _ _ _ _ _ _ _
    · exact StaysOff.refl s
  · refine StaysOff.trans (StaysOff.each fun _ _ => State.finish_staysOff _ _ _ _ _ _ _) (StaysOff.each fun _ _ => ?_)
    exact StaysOff.ite (State.softSto_staysOff _ _) (State.reactOff_staysOff _ _)

theorem State.turnOff_staysOff (s : State) (n : Axis) (c : Cause) : StaysOff s (s.turnOff n c) := by
  obtain ⟨u, h, e⟩ := s.turnOff_eq n c
  rw [e]
  exact (((h.trans (State.deenergise_staysOff _ _)).trans (State.unbook_staysOff _ _)).trans
    (State.stopStood_staysOff _ _ _)).trans (State.uncurtail_staysOff _ _)

/-- An axis that is turned off is off. -/
theorem State.turnOff_off (s : State) (n : Axis) (c : Cause) : ((s.turnOff n c).plan n).st = .off := by
  obtain ⟨u, -, e⟩ := s.turnOff_eq n c
  rw [e]
  exact (((State.unbook_staysOff _ _).trans (State.stopStood_staysOff _ _ _)).trans (State.uncurtail_staysOff _ _)).off n
    (State.deenergise_off u n)

/-- Axes turned off in turn are off. -/
theorem State.turnOff_each_off (l : List Axis) (c : Axis → Cause) (s : State) {n : Axis} (h : n ∈ l) :
    ((each l (fun s n => s.turnOff n (c n)) s).plan n).st = .off := by
  induction l generalizing s with
  | nil => exact absurd h List.not_mem_nil
  | cons a l ih =>
    rcases List.mem_cons.1 h with rfl | h
    · have h : StaysOff (s.turnOff n (c n)) (each l (fun s n => s.turnOff n (c n)) (s.turnOff n (c n))) :=
        StaysOff.each fun s n => s.turnOff_staysOff n (c n)
      exact h.off n (s.turnOff_off n (c n))
    · exact ih _ h

theorem State.clearObs_staysOff (s : State) (n : Axis) : StaysOff s (s.clearObs n) := StaysOff.of_plans rfl rfl

theorem State.reach_staysOff (s : State) (n : Axis) (c : Cause) (g : Bool) (due : Nat) : StaysOff s (s.reach n c g due) := by
  unfold State.reach
  extract_lets p fresh
  split
  · exact (State.clearObs_staysOff _ _).after (State.setPlan_staysOff s n _ id)
  · exact StaysOff.ite (StaysOff.ite (State.setPlan_staysOff s n _ id)
      (StaysOff.ite (State.setPlan_staysOff s n _ id) (StaysOff.refl s))) (State.setPlan_staysOff s n _ id)

theorem State.markSs1_staysOff (s : State) (n : Axis) (c : Cause) : StaysOff s (s.markSs1 n c) :=
  (State.reach_staysOff _ _ _ _ _).after (StaysOff.ite (StaysOff.of_plans rfl rfl) (StaysOff.refl s))

theorem State.launch_staysOff (s : State) (src scope : Nat) (ob : Option Nat) : StaysOff s (s.launch src scope ob) :=
  StaysOff.ite (StaysOff.refl s) (StaysOff.ite (StaysOff.each fun _ _ => State.markSs1_staysOff _ _ _)
    (StaysOff.each fun _ _ => State.turnOff_staysOff _ _ _))

theorem State.openWindow_staysOff (s : State) (src : Nat) (axes : List Axis) : StaysOff s (s.openWindow src axes) :=
  StaysOff.ite (StaysOff.refl s) (StaysOff.of_plans rfl rfl)

theorem tripPrimary_staysOff (s : State) (x : SrcS) (ob : Option Nat) (loc : Bool) : StaysOff s (tripPrimary s x ob loc) := by
  unfold tripPrimary
  extract_lets src tag count st scope u v w
  refine StaysOff.ite ?_ (StaysOff.ite ((State.faultRecord_reports _ _ _).staysOff.after (StaysOff.of_plans rfl rfl)) (StaysOff.of_plans rfl rfl))
  exact (((State.faultRecord_reports _ _ _).staysOff.after (State.launch_staysOff _ _ _ _)).after
    (State.openWindow_staysOff _ _ _)).after (StaysOff.of_plans rfl rfl)

theorem tripSecondary_staysOff (s : State) (x : SrcS) (w : Win) (ob : Option Nat) (loc : Bool) :
    StaysOff s (tripSecondary s x w ob loc) := by
  unfold tripSecondary
  extract_lets src tag scope axes u v w'
  refine StaysOff.ite ?_ (StaysOff.ite (StaysOff.of_plans rfl rfl) ((State.faultRecord_reports _ _ _).staysOff.after (StaysOff.of_plans rfl rfl)))
  exact (((State.faultRecord_reports _ _ _).staysOff.after (State.launch_staysOff _ _ _ _)).after
    (State.openWindow_staysOff _ _ _)).after (StaysOff.of_plans rfl rfl)

theorem tripLatched_staysOff (s : State) (x : SrcS) (ob : Option Nat) (loc : Bool) : StaysOff s (tripLatched s x ob loc) := by
  unfold tripLatched
  extract_lets since
  exact StaysOff.ite ((State.faultRecord_reports _ _ _).staysOff.after (StaysOff.of_plans rfl rfl)) (StaysOff.of_plans rfl rfl)

theorem demandWindow_staysOff (a s : State) (k : Nat) : StaysOff s (demandWindow a s k) :=
  StaysOff.ite (StaysOff.refl s) (StaysOff.ite (StaysOff.of_plans rfl rfl) (State.openWindow_staysOff _ _ _))

/-- A trip energises no axis and begins no operation. -/
theorem State.trip_staysOff (s : State) (k : Nat) (act : Bool) (ob : Option Nat) (loc : Bool) :
    StaysOff s (s.trip k act ob loc) := by
  unfold State.trip
  extract_lets x x' u
  have hu : StaysOff s u := by
    refine StaysOff.ite (tripLatched_staysOff _ _ _ _) ?_
    split
    · exact tripSecondary_staysOff _ _ _ _ _
    · exact tripPrimary_staysOff _ _ _ _
  exact StaysOff.ite (StaysOff.refl s) (((hu.trans (demandWindow_staysOff _ _ _)).trans
    State.fcsStat_reports.staysOff).trans (State.arranged_reports (R := reportReg) _).staysOff)

end Off

end Sys2Proof.Machine

namespace Sys2Proof.Machine

section Reads

variable {s t : State}

/-! ### Reads beside a write -/

/-- A field of another register keeps its value. -/
theorem State.rd_wr_off (s : State) {f g : Fld} (v : Nat) (h : g.off ≠ f.off) : (s.wr f v).rd g = s.rd g :=
  State.rd_wr_ne s v (.inl h)
theorem State.flag_wr_off (s : State) {f g : Fld} (v : Nat) (h : g.off ≠ f.off) : (s.wr f v).flag g = s.flag g := by
  rw [State.flag, State.rd_wr_off s v h]; rfl
theorem State.rd_sqc_off (s : State) {f g : Fld} (h : g.off ≠ f.off) : (s.sqc f).rd g = s.rd g :=
  congrArg g.get (State.reg_sqc_ne s h)

/-- A field whose register is the same in two states reads the same. -/
theorem State.rd_of_reg {f : Fld} (h : t.reg f.off = s.reg f.off) : t.rd f = s.rd f := congrArg f.get h
theorem State.flag_of_reg {f : Fld} (h : t.reg f.off = s.reg f.off) : t.flag f = s.flag f := by
  rw [State.flag, State.rd_of_reg h]; rfl

/-- A domain is powered as PMU_DOM_STAT shows it, and D0 as VAON is. -/
theorem State.powered_congr (hp : t.pmu.vaon = s.pmu.vaon) (hr : t.reg Reg.PMU_DOM_STAT = s.reg Reg.PMU_DOM_STAT) (d : Nat) :
    t.powered d = s.powered d := by
  have : t.rd F.PMU_DOM_STAT_PG = s.rd F.PMU_DOM_STAT_PG := State.rd_of_reg hr
  simp only [State.powered, hp, this]

theorem Reaction.powered (h : Reaction s t) (d : Nat) : t.powered d = s.powered d :=
  State.powered_congr (by rw [h.rest]) (h.regs _ (by decide +kernel)) d

theorem Tripped.powered {k : Nat} {act : Bool} (h : Tripped k act s t) (d : Nat) : t.powered d = s.powered d :=
  h.reaction.powered d

theorem State.powered_advTo (s : State) (c d : Nat) : (s.advTo c).powered d = s.powered d := by
  unfold State.powered
  rw [State.advTo_pmu, State.advTo_rd]

end Reads

section Held

/-! ### HELD (R93, R94) -/

/-- Turning the axes off, the enables and the showing of it: what entering HELD does beside noting its cause. -/
def State.holdOff (s : State) (src : Nat) : State :=
  each allAxes (fun s n => s.turnOff n (.fault src)) (each (List.finRange 128) (fun s h => s.softStart h) s)

theorem State.holdOff_reaction (s : State) (src : Nat) : Reaction s (s.holdOff src) :=
  Reaction.each (fun _ _ h => State.turnOff_reacts _ _ _ h)
    (Reaction.each (fun _ _ h => State.softStart_reacts _ _ h) (Reaction.refl s))

theorem State.holdOff_off (s : State) (src : Nat) (n : Axis) : ((s.holdOff src).plan n).st = .off :=
  State.turnOff_each_off allAxes (fun _ => .fault src) _ (List.mem_finRange n)

/-- The cause of HELD is noted; the first shows in CAUSE (R93). -/
def State.noteHeld (s : State) (cause : Nat) : State :=
  let cs := if s.lcs.causes.contains cause then s.lcs.causes else s.lcs.causes ++ [cause]
  let s := { s with lcs := { s.lcs with causes := cs } }
  if s.inHeld then s else (s.wr F.LCS_LC_STAT_HELD 1).wr F.LCS_LC_STAT_CAUSE cause

theorem State.enterHeld_eq (s : State) (cause src : Nat) :
    s.enterHeld cause src = (((((s.noteHeld cause).holdOff src).wr F.GDR_STO_STAT_EN 0).fcsStat).flushHeld .A).flushHeld .B := rfl

theorem State.noteHeld_causes (s : State) (c : Nat) : c ∈ (s.noteHeld c).lcs.causes := by
  unfold State.noteHeld
  extract_lets cs u
  have : c ∈ cs := by
    unfold cs
    split
    · rename_i h; simpa using h
    · simp
  split <;> exact this

theorem State.noteHeld_inHeld (s : State) (c : Nat) : (s.noteHeld c).inHeld = true := by
  unfold State.noteHeld
  extract_lets cs u
  split
  · assumption
  · unfold State.inHeld State.flag
    rw [State.rd_wr_ne _ _ (.inr (by decide)), State.rd_wr_self _ (by decide)]
    rfl

theorem State.noteHeld_cause {c : Nat} (s : State) (hc : c < 16) (h : s.inHeld = false) :
    (s.noteHeld c).rd F.LCS_LC_STAT_CAUSE = c := by
  unfold State.noteHeld
  extract_lets cs _ u
  rw [if_neg (show ¬ u.inHeld = true by rw [show u.inHeld = s.inHeld from rfl, h]; decide), State.rd_wr_self _ (by decide)]
  exact Nat.mod_eq_of_lt hc

/-- Noting the cause changes LCS's list and LCS_LC_STAT alone. -/
theorem State.noteHeld_rest (s : State) (c : Nat) : (∃ cs r, s.noteHeld c = { s with lcs := { s.lcs with causes := cs }, regs := r }) ∧
    RegsBut [Reg.LCS_LC_STAT] s (s.noteHeld c) := by
  unfold State.noteHeld
  extract_lets cs u
  split
  · exact ⟨⟨cs, s.regs, rfl⟩, fun _ _ => rfl⟩
  · refine ⟨⟨cs, _, rfl⟩, fun o ho => ?_⟩
    have ho : o ≠ Reg.LCS_LC_STAT := by simpa using ho
    rw [State.reg_wr_ne _ _ ho, State.reg_wr_ne _ _ ho]
    rfl

/-- The registers that entering HELD may write: those of a reaction, HELD itself and the gate enables (R93, R94). -/
def heldReg (o : Nat) : Bool := faultReg o || o = Reg.LCS_LC_STAT || o = Reg.GDR_STO_STAT

theorem heldReg_false {o : Nat} (h : heldReg o = false) : faultReg o = false ∧ o ≠ Reg.LCS_LC_STAT ∧ o ≠ Reg.GDR_STO_STAT := by
  simpa [heldReg, and_assoc] using h

/-- From s to t the device has entered HELD or reacted (R93, R94): every part of the state not listed is untouched. -/
structure HoldsOnly (s t : State) : Prop where
  rest : t = { s with
    regs := t.regs, seqDone := t.seqDone, cntNow := t.cntNow, inClk := t.inClk, portA := t.portA, portB := t.portB,
    ctxs := t.ctxs, sent := t.sent, ops := t.ops, plans := t.plans, banks := t.banks, hbs := t.hbs, clps := t.clps,
    less := t.less, ledger := t.ledger, cnd := t.cnd, lcs := { s.lcs with causes := t.lcs.causes }
    fcs := { s.fcs with wins := t.fcs.wins, recs := t.fcs.recs, recN := t.fcs.recN, ss1 := t.fcs.ss1 } }
  regs : ∀ o, heldReg o = false → t.reg o = s.reg o
  clps : ∀ n, t.clp n = { s.clp n with fresh := (t.clp n).fresh }

theorem HoldsOnly.trans {a b c : State} (h : HoldsOnly a b) (k : HoldsOnly b c) : HoldsOnly a c := by
  refine ⟨?_, fun o e => (k.regs o e).trans (h.regs o e), fun n => ?_⟩
  · have e := k.rest
    rw [h.rest] at e
    exact e
  · rw [k.clps n, h.clps n]

theorem Reaction.holdsOnly {s t : State} (h : Reaction s t) : HoldsOnly s t :=
  ⟨by have e := h.rest; exact e ▸ rfl, fun o e => h.regs o (heldReg_false e).1, h.clps⟩

theorem faultReg_of_reportReg (o : Nat) (h : reportReg o = true) : faultReg o = true := by
  simp only [reportReg, ringReg, eventReg, Bool.or_eq_true, Bool.and_eq_true, decide_eq_true_eq] at h
  simp only [faultReg, Bool.or_eq_true, Bool.and_eq_true, decide_eq_true_eq]
  tauto

/-- Writing records is a reaction that reaches no axis. -/
theorem Reports.reaction {s t : State} (h : Reports reportReg s t) : Reaction s t := by
  obtain ⟨e, hr, -, -, -⟩ := h
  refine ⟨by have e' := e; exact e' ▸ rfl, fun o ho => hr o ?_, fun x => ?_, fun n => ?_, ?_⟩
  · by_contra hc
    exact absurd (faultReg_of_reportReg o (by simpa using hc)) (by simp [ho])
  · rw [e]; rfl
  · rw [e]; rfl
  · rw [e]

theorem Reports.toReport {R : Nat → Bool} {s t : State} (h : Reports R s t) (hr : ∀ o, R o = true → ringReg o = true) :
    Reports reportReg s t := h.mono fun o e => reportReg_of_ringReg o (hr o e)

theorem State.flushHeld_reaction (s : State) (p : Port) : Reaction s (s.flushHeld p) :=
  ((State.flushHeld_reports p).toReport ringReg_of_eventReg).reaction

theorem State.noteHeld_holdsOnly (s : State) (c : Nat) : HoldsOnly s (s.noteHeld c) := by
  obtain ⟨⟨cs, r, e⟩, hb⟩ := s.noteHeld_rest c
  exact ⟨by rw [e], fun o h => hb o (by simpa using (heldReg_false h).2.1), fun n => by rw [e]; rfl⟩

theorem State.wr_holdsOnly (s : State) {f : Fld} (v : Nat) (h : heldReg f.off = true) : HoldsOnly s (s.wr f v) :=
  ⟨rfl, fun o ho => State.reg_wr_ne s v (by rintro rfl; simp [h] at ho), fun _ => rfl⟩

/-- What entering HELD leaves alone (R93, R94). -/
theorem State.enterHeld_holdsOnly (s : State) (c src : Nat) : HoldsOnly s (s.enterHeld c src) := by
  rw [State.enterHeld_eq]
  have h1 := (s.noteHeld_holdsOnly c).trans (State.holdOff_reaction (s.noteHeld c) src).holdsOnly
  have h2 := h1.trans (State.wr_holdsOnly _ (f := F.GDR_STO_STAT_EN) 0 (by decide +kernel))
  have h3 := h2.trans State.fcsStat_reports.reaction.holdsOnly
  exact (h3.trans (State.flushHeld_reaction _ _).holdsOnly).trans (State.flushHeld_reaction _ _).holdsOnly

end Held

end Sys2Proof.Machine

namespace Sys2Proof.Machine

section Alive

variable {s : State}

/-! ### The ALIVE outputs (R366, R367) -/

theorem exec_aliveAEdge_toggles (ha : s.flag F.FCS_STAT_ALIVE_A = true) (hs : s.aliveStop = false)
    (h34 : (s.src 34).active = false) :
    exec .aliveAEdge s = .next ((s.advTo (s.fcs.edgeA + usClk 250)).aliveEdge true (!s.fcs.levelA)) := by
  change execAliveAEdge s = _
  simp [execAliveAEdge, ha, hs, h34]

theorem exec_aliveAEdge_stops (h : s.flag F.FCS_STAT_ALIVE_A = false ∨ s.aliveStop = true) (hl : s.fcs.levelA = true) :
    exec .aliveAEdge s = .next (s.aliveEdge true false) := by
  change execAliveAEdge s = _
  rcases h with h | h <;> simp [execAliveAEdge, h, hl]

theorem exec_aliveBEdge_toggles (hb : s.flag F.FCS_STAT_ALIVE_B = true) (hs : s.aliveStop = false) (ht : s.atTick = true)
    (he : s.fcs.edgeB + usClk 500 ≤ s.clk) : exec .aliveBEdge s = .next (s.aliveEdge false (!s.fcs.levelB)) := by
  change execAliveBEdge s = _
  simp [execAliveBEdge, hb, hs, ht, he]

theorem exec_aliveBEdge_stops (h : s.flag F.FCS_STAT_ALIVE_B = false ∨ s.aliveStop = true) (hl : s.fcs.levelB = true) :
    exec .aliveBEdge s = .next (s.aliveEdge false false) := by
  change execAliveBEdge s = _
  rcases h with h | h <;> simp [execAliveBEdge, h, hl]

theorem exec_aliveWatchdogExpiry (hb : s.flag F.FCS_STAT_ALIVE_B = true) :
    exec .aliveWatchdogExpiry s = .next (if s.fcs.levelB then
      ((s.advTo (s.fcs.edgeA + msClk 1)).wr F.FCS_STAT_ALIVE_B 0).aliveEdge false false
      else (s.advTo (s.fcs.edgeA + msClk 1)).wr F.FCS_STAT_ALIVE_B 0) := by
  change execAliveWatchdogExpiry s = _
  rw [execAliveWatchdogExpiry, if_pos hb]
  dsimp only
  rw [State.wr_fcs, State.advTo_fcs]

theorem exec_aliveRestart (ht : s.atTick = true) (hs : s.aliveStop = false)
    (h : s.flag F.FCS_STAT_ALIVE_A = false ∨ s.flag F.FCS_STAT_ALIVE_B = false) :
    exec .aliveRestart s = .next ((((s.wr F.FCS_STAT_ALIVE_A 1).wr F.FCS_STAT_ALIVE_B 1).aliveEdge true true).aliveEdge
      false true) := by
  change execAliveRestart s = _
  rcases h with h | h <;> simp [execAliveRestart, ht, hs, h]

/-! ### Detectors of FCS (R18, R368) -/

theorem exec_frameTickMissing (ht : s.ticking = true) (hp : s.powered 1 = true) (h34 : (s.src 34).active = false) :
    exec .frameTickMissing s = .next ((s.advTo (s.tickClk + 2 * s.period)).trip 34 true) := by
  change execFrameTickMissing s = _
  simp [execFrameTickMissing, ht, hp, h34]

/-- The sequencer's flags show, and a reason to keep the ALIVE outputs low takes them away (R367, R372). -/
theorem State.fcsStat_stopped (s : State) (h : s.inHeld = true) :
    s.fcsStat.flag F.FCS_STAT_ALIVE_A = false ∧ s.fcsStat.flag F.FCS_STAT_ALIVE_B = false := by
  unfold State.fcsStat
  extract_lets u
  have hu : u.aliveStop = true := by
    have : u.inHeld = true := by
      unfold State.inHeld
      unfold u
      rw [State.wrB_eq, State.wrB_eq, State.flag_wr_off _ _ (by decide), State.flag_wr_off _ _ (by decide)]
      exact h
    simp [State.aliveStop, this]
  rw [if_pos hu]
  refine ⟨?_, State.flag_wr_self _ (by decide) 0⟩
  rw [State.flag, State.rd_wr_ne _ _ (.inr (by decide)), State.rd_wr_self _ (by decide)]
  rfl

/-- A reaction, and then another after the gate enables went, leave what noting HELD has shown. -/
theorem noteHeld_stands {s u t : State} {c : Nat} (hr : Reaction (s.noteHeld c) u)
    (hf : Reaction (u.wr F.GDR_STO_STAT_EN 0) t) :
    t.reg Reg.LCS_LC_STAT = (s.noteHeld c).reg Reg.LCS_LC_STAT ∧ t.lcs = (s.noteHeld c).lcs := by
  constructor
  · rw [hf.regs _ (by decide +kernel), State.reg_wr_ne _ _ (by decide), hr.regs _ (by decide +kernel)]
  · rw [hf.rest, State.wr_lcs, hr.rest]

theorem State.holdEnds_reports (s : State) : Reports eventReg s.fcsStat ((s.fcsStat.flushHeld .A).flushHeld .B) :=
  (State.flushHeld_reports .A).trans (State.flushHeld_reports .B)

/-- HELD shows once it is entered, with its cause among LCS's causes, and the first one in CAUSE (R93). -/
theorem State.enterHeld_shows (s : State) {c : Nat} (hc : c < 16) (src : Nat) :
    (s.enterHeld c src).inHeld = true ∧ c ∈ (s.enterHeld c src).lcs.causes ∧
      (s.inHeld = false → (s.enterHeld c src).rd F.LCS_LC_STAT_CAUSE = c) := by
  obtain ⟨hl, hc'⟩ : (s.enterHeld c src).reg Reg.LCS_LC_STAT = (s.noteHeld c).reg Reg.LCS_LC_STAT ∧
      (s.enterHeld c src).lcs = (s.noteHeld c).lcs :=
    noteHeld_stands (State.holdOff_reaction _ src) (State.fcsStat_reports.reaction.trans
      ((State.holdEnds_reports _).toReport ringReg_of_eventReg).reaction)
  refine ⟨?_, ?_, fun h => ?_⟩
  · rw [State.inHeld, State.flag_of_reg (f := F.LCS_LC_STAT_HELD) hl]
    exact s.noteHeld_inHeld c
  · rw [hc']
    exact s.noteHeld_causes c
  · rw [State.rd_of_reg (f := F.LCS_LC_STAT_CAUSE) hl]
    exact s.noteHeld_cause hc h

/-- Taking the enables away in HELD and showing it takes the ALIVE outputs away too (R94, R367). -/
theorem State.holdEnds_stops {u t : State} (h : u.inHeld = true)
    (ht : Reports eventReg (u.wr F.GDR_STO_STAT_EN 0).fcsStat t) :
    t.flag F.GDR_STO_STAT_EN = false ∧ t.plans = u.plans ∧ t.flag F.FCS_STAT_ALIVE_A = false ∧
      t.flag F.FCS_STAT_ALIVE_B = false := by
  have hv : (u.wr F.GDR_STO_STAT_EN 0).inHeld = true := by
    rw [State.inHeld, State.flag_wr_off _ _ (by decide)]
    exact h
  have he : Reports reportReg (u.wr F.GDR_STO_STAT_EN 0) (u.wr F.GDR_STO_STAT_EN 0).fcsStat := State.fcsStat_reports
  refine ⟨?_, ?_, ?_, ?_⟩
  · rw [State.flag_of_reg (ht.regs F.GDR_STO_STAT_EN.off (by decide +kernel)),
      State.flag_of_reg (he.regs F.GDR_STO_STAT_EN.off (by decide +kernel))]
    exact State.flag_wr_self _ (by decide) 0
  · rw [ht.plans, he.plans, State.wr_plans]
  · rw [State.flag_of_reg (ht.regs F.FCS_STAT_ALIVE_A.off (by decide +kernel))]
    exact (State.fcsStat_stopped _ hv).1
  · rw [State.flag_of_reg (ht.regs F.FCS_STAT_ALIVE_B.off (by decide +kernel))]
    exact (State.fcsStat_stopped _ hv).2

/-- In HELD every axis is off, the gate enables are gone, and so are the ALIVE outputs (R94, R367). -/
theorem State.enterHeld_stops (s : State) (c src : Nat) :
    (s.enterHeld c src).flag F.GDR_STO_STAT_EN = false ∧ (∀ n, ((s.enterHeld c src).plan n).st = .off) ∧
      (s.enterHeld c src).flag F.FCS_STAT_ALIVE_A = false ∧ (s.enterHeld c src).flag F.FCS_STAT_ALIVE_B = false := by
  have hu : ((s.noteHeld c).holdOff src).inHeld = true := by
    rw [State.inHeld, State.flag_of_reg (f := F.LCS_LC_STAT_HELD) ((State.holdOff_reaction _ src).regs _ (by decide +kernel))]
    exact s.noteHeld_inHeld c
  obtain ⟨h1, h2, h3, h4⟩ := State.holdEnds_stops (t := s.enterHeld c src) hu (State.holdEnds_reports _)
  refine ⟨h1, fun n => ?_, h3, h4⟩
  rw [State.plan, h2]
  exact (s.noteHeld c).holdOff_off src n

theorem exec_lockstepMismatch (hp : s.powered 1 = true) : exec .lockstepMismatch s = .next ((s.trip 32).enterHeld 4 32) := by
  change execLockstepMismatch s = _
  rw [execLockstepMismatch, if_pos hp]

theorem Tripped.inHeld {k : Nat} {act : Bool} {u : State} (h : Tripped k act s u) : u.inHeld = s.inHeld :=
  State.flag_of_reg (f := F.LCS_LC_STAT_HELD) (h.reaction.regs _ (by decide +kernel))

theorem HoldsOnly.src {t : State} (h : HoldsOnly s t) (k : Nat) : t.src k = s.src k := by
  unfold State.src
  rw [h.rest]

/-- Entering HELD keeps everything that LCS, FCS and the axes' plans do not own. -/
theorem HoldsOnly.keeps {t : State} (h : HoldsOnly s t) :
    t.clk = s.clk ∧ t.gtc = s.gtc ∧ t.reqs = s.reqs ∧ t.coils = s.coils ∧
      (∀ n, t.clp n = { s.clp n with fresh := (t.clp n).fresh }) ∧ t.fbks = s.fbks ∧ t.gdrs = s.gdrs ∧ t.adcs = s.adcs ∧
      t.streams = s.streams ∧ t.bufs = s.bufs ∧ t.dirty = s.dirty ∧ t.ckg = s.ckg ∧ t.pmu = s.pmu ∧ t.tbs = s.tbs := by
  have hc := h.clps
  rw [h.rest] at hc ⊢
  exact ⟨rfl, rfl, rfl, rfl, hc, rfl, rfl, rfl, rfl, rfl, rfl, rfl, rfl, rfl⟩

/-- A trip and then HELD leave alone what entering HELD does, but for the entries of the sources. -/
theorem Tripped.holdsOnly {k : Nat} {act : Bool} {u t : State} (h : Tripped k act s u) (ht : HoldsOnly u t) :
    HoldsOnly s { t with fcs := { t.fcs with srcs := s.fcs.srcs } } :=
  h.reaction.holdsOnly.trans ⟨by have e := ht.rest; exact e ▸ rfl, fun o ho => ht.regs o ho, fun n => ht.clps n⟩

theorem Tripped.held_keeps {k : Nat} {act : Bool} {u t : State} (h : Tripped k act s u) (ht : HoldsOnly u t) :
    t.clk = s.clk ∧ t.gtc = s.gtc ∧ t.reqs = s.reqs ∧ t.coils = s.coils ∧
      (∀ n, t.clp n = { s.clp n with fresh := (t.clp n).fresh }) ∧ t.fbks = s.fbks ∧ t.gdrs = s.gdrs ∧ t.adcs = s.adcs ∧
      t.streams = s.streams ∧ t.bufs = s.bufs ∧ t.dirty = s.dirty ∧ t.ckg = s.ckg ∧ t.pmu = s.pmu ∧ t.tbs = s.tbs :=
  (h.holdsOnly ht).keeps

end Alive

/-- Settles O47: each clause is one run of its row, read off the lemmas on clears, on entering HELD and on the outputs. -/
theorem clearsDetectorsAndAlive : Obligations.ClearsDetectorsAndAlive := by
  intro s edge
  have edge_eq : ∀ (u : State) (a high : Bool), edge u a high = u.aliveEdge a high := fun u a high => by
    cases a <;> rfl
  refine ⟨fun k c ht hr hc => ⟨fun h => ?_, fun h => ?_⟩, fun c ht hr hc => ?_, fun hp => ?_, fun ht hp h34 => ?_,
    fun ha hs h34 => ?_, fun h hl => ?_, fun hb hs ht he => ?_, fun h hl => ?_, fun hb => ?_, fun ht hs h => ?_⟩
  case refine_1 =>
    refine ⟨_, exec_faultClear_one ht hr hc rfl, ?_⟩
    rw [State.clearReq_refused ((clearRefused_congr (t := { s with reqs := [] }) rfl rfl).trans h)]
  case refine_2 =>
    refine ⟨_, exec_faultClear_one ht hr hc rfl, ?_⟩
    rw [State.clearReq_clears ((clearRefused_congr (t := { s with reqs := [] }) rfl rfl).trans h)]
    have hk := State.clearSrc_only { s with reqs := [] } k
    refine ⟨State.flag_wr_self _ (by decide) 0, hk.reqs, State.clearSrc_src_self _ k, fun j hj => State.clearSrc_src_ne _ hj,
      hk.plans, hk.ops, hk.clk, hk.hbs⟩
  case refine_3 =>
    refine ⟨_, exec_faultClear_one ht hr hc rfl, State.flag_wr_self _ (by decide) 0, ?_⟩
    have hk := State.clearEvery_only { s with reqs := [] }
    refine ⟨hk.reqs, hk.plans, hk.ops, hk.hbs, fun k => ?_⟩
    exact State.clearEvery_src { s with reqs := [] } k
  case refine_4 =>
    have ht := State.trip_tripped s 32 false none false (by decide) hp
    obtain ⟨hh, hc, hcause⟩ := State.enterHeld_shows (s.trip 32) (c := 4) (by decide) 32
    obtain ⟨he, hoff, ha, hb⟩ := State.enterHeld_stops (s.trip 32) 4 32
    have hk := State.enterHeld_holdsOnly (s.trip 32) 4 32
    exact ⟨_, exec_lockstepMismatch hp, hh, hc, fun h => hcause (ht.inHeld.trans h), he, hoff,
      (congrArg SrcS.total (hk.src 32)).trans ht.total, by rw [State.aliveStop, hh]; simp, ha, hb, ht.held_keeps hk⟩
  case refine_5 =>
    exact ⟨_, exec_frameTickMissing ht hp h34, State.trip_tripped _ _ _ _ _ (by decide) ((State.powered_advTo ..).trans hp)⟩
  case refine_6 => exact ⟨_, exec_aliveAEdge_toggles ha hs h34, by rw [edge_eq]⟩
  case refine_7 => exact ⟨_, exec_aliveAEdge_stops h hl, by rw [edge_eq]⟩
  case refine_8 => exact ⟨_, exec_aliveBEdge_toggles hb hs ht he, by rw [edge_eq]⟩
  case refine_9 => exact ⟨_, exec_aliveBEdge_stops h hl, by rw [edge_eq]⟩
  case refine_10 =>
    exact ⟨_, exec_aliveWatchdogExpiry hb, by rw [edge_eq]⟩
  case refine_11 => exact ⟨_, exec_aliveRestart ht hs h, by rw [edge_eq, edge_eq]⟩

end Sys2Proof.Machine

namespace Sys2Proof.Machine

/-! ### Lists of steps and bit sets -/

section Steps

variable {s : State} {α : Type} {f : State → α → State}

/-- Steps that change nothing change nothing in turn. -/
theorem each_idle {l : List α} (h : ∀ a ∈ l, f s a = s) : each l f s = s := by
  induction l with
  | nil => rfl
  | cons a l ih =>
    change each l f (f s a) = s
    rw [h a (by simp)]
    exact ih fun b hb => h b (by simp [hb])

theorem each_cons (a : α) (l : List α) (s : State) : each (a :: l) f s = each l f (f s a) := rfl

theorem each_append (l m : List α) (s : State) : each (l ++ m) f s = each m f (each l f s) := List.foldl_append

/-- Where one element of a list alone has something to do, the whole list does that. -/
theorem each_only {l : List α} {b : α} (hb : b ∈ l) (hl : l.Nodup) (h : ∀ a, a ≠ b → f s a = s)
    (h' : ∀ a, a ≠ b → f (f s b) a = f s b) : each l f s = f s b := by
  obtain ⟨l₁, l₂, rfl⟩ := List.append_of_mem hb
  obtain ⟨-, h2, hd⟩ := List.nodup_append.1 hl
  rw [each_append, each_idle fun a ha => h a fun e => hd a ha b (by simp) e]
  exact each_idle fun a ha => h' a fun e => (List.nodup_cons.1 h2).1 (e ▸ ha)

theorem bit_set_clear : ∀ (q : Fin 5) (g : Fin 32) (b : Bool),
    bit q.val (((if b then (if bit q.val g.val then g.val - 2 ^ q.val else g.val) + 2 ^ q.val
      else (if bit q.val g.val then g.val - 2 ^ q.val else g.val))) % 2 ^ 5) = b := by decide

theorem State.rd_lt (s : State) (f : Fld) : s.rd f < 2 ^ (f.hi + 1 - f.lo) := Nat.mod_lt _ (Nat.two_pow_pos _)

theorem State.powered_wr (s : State) {f : Fld} (v d : Nat) (h : Reg.PMU_DOM_STAT ≠ f.off) : (s.wr f v).powered d = s.powered d :=
  State.powered_congr (s := s) (t := s.wr f v) rfl (State.reg_wr_ne s v h) d

/-- From s to t registers of l have been written, and nothing else has changed. -/
structure Writes (l : List Nat) (s t : State) : Prop where
  shape : ∃ r, t = { s with regs := r }
  regs : RegsBut l s t

theorem Writes.refl (l : List Nat) (s : State) : Writes l s s := ⟨⟨s.regs, rfl⟩, RegsBut.refl l s⟩

theorem Writes.setReg {l : List Nat} {s t : State} (h : Writes l s t) {o : Nat} (w : Word) (ho : o ∈ l) :
    Writes l s (t.setReg o w) := by
  obtain ⟨⟨r, rfl⟩, hr⟩ := h
  exact ⟨⟨_, rfl⟩, fun j hj => (State.reg_setReg_ne _ w fun e : j = o => hj (by rw [e]; exact ho)).trans (hr j hj)⟩

theorem Writes.wr {l : List Nat} {s t : State} (h : Writes l s t) {f : Fld} (v : Nat) (hf : f.off ∈ l) :
    Writes l s (t.wr f v) := h.setReg _ hf

theorem Writes.rest {l : List Nat} {s t : State} (h : Writes l s t) : t = { s with regs := t.regs } := by
  obtain ⟨⟨r, rfl⟩, -⟩ := h
  rfl

end Steps

end Sys2Proof.Machine

namespace Sys2Proof.Machine

section Cores

variable {s : State}

/-! ### Planner cores (R13, R425 to R428) -/

theorem coreOf_eq (s : State) (b : Bank) : coreOf s b = s.rd (coreFld b) := rfl

theorem coreFld_ok (b : Bank) : (coreFld b).ok = true := by revert b; decide
theorem coreFld_apart {a b : Bank} (h : a ≠ b) : (coreFld b).apart (coreFld a) = true := by revert a b; decide
theorem coreFld_apart_spare (b : Bank) : (coreFld b).apart F.MPL_CORE_MAP_SPARE = true ∧
    F.MPL_CORE_MAP_SPARE.apart (coreFld b) = true := by revert b; decide
theorem coreFld_apart_failed (b : Bank) : (coreFld b).apart F.MPL_CORE_MAP_FAILED = true := by revert b; decide

theorem sourceRow_core (q : Core) : (sourceRow (40 + q.val)).isSome = true := by revert q; decide

theorem coreFailed_congr {t : State} (h : t.rd F.MPL_CORE_MAP_FAILED = s.rd F.MPL_CORE_MAP_FAILED) (q : Nat) :
    coreFailed t q = coreFailed s q := by rw [coreFailed, h]; rfl

/-- A spare that fails is no spare any more. -/
def State.spareLost (s : State) (q : Nat) : State :=
  if s.rd F.MPL_CORE_MAP_SPARE = q then s.wr F.MPL_CORE_MAP_SPARE 7 else s

/-- The load of a core that fails ends. -/
def State.loadLost (s : State) (q : Nat) : State :=
  let loads : Bool := match s.lcs.load with | some (r, _) => r == q | none => false
  if loads then { s.wr F.LCS_FW_STAT_LOADING 0 with lcs := { s.lcs with load := none } } else s

theorem State.spareLost_other {q : Nat} (h : s.rd F.MPL_CORE_MAP_SPARE ≠ q) : s.spareLost q = s := if_neg h

theorem State.loadLost_none (q : Nat) (h : s.lcs.load = none) : s.loadLost q = s := by simp [State.loadLost, h]

/-- A core that works is marked FAILED and lost as the spare and to a load, and its source trips (R426, R427). -/
theorem State.failCore_works {q : Nat} (hf : coreFailed s q = false) :
    s.failCore q = (((s.wr F.MPL_CORE_MAP_FAILED (s.rd F.MPL_CORE_MAP_FAILED + 2 ^ q)).spareLost q).loadLost q).trip (40 + q) :=
  if_neg (by rw [hf]; decide)

/-- A core that works, is not the spare and is not on its way is marked FAILED, and its source trips. -/
theorem State.failCore_eq {q : Nat} (hf : coreFailed s q = false) (hs : s.rd F.MPL_CORE_MAP_SPARE ≠ q)
    (hl : s.lcs.load = none) :
    s.failCore q = (s.wr F.MPL_CORE_MAP_FAILED (s.rd F.MPL_CORE_MAP_FAILED + 2 ^ q)).trip (40 + q) := by
  have e := State.rd_wr_ne s (f := F.MPL_CORE_MAP_FAILED) (g := F.MPL_CORE_MAP_SPARE)
    (s.rd F.MPL_CORE_MAP_FAILED + 2 ^ q) (.inr (by decide))
  rw [State.failCore_works hf, State.spareLost_other (by rw [e]; exact hs), State.loadLost_none q (by rw [State.wr_lcs, hl])]

theorem State.failCore_tripped {q : Core} (hf : coreFailed s q.val = false) (hs : s.rd F.MPL_CORE_MAP_SPARE ≠ q.val)
    (hl : s.lcs.load = none) (hp : s.powered 1 = true) :
    Tripped (40 + q.val) false (s.wr F.MPL_CORE_MAP_FAILED (s.rd F.MPL_CORE_MAP_FAILED + 2 ^ q.val)) (s.failCore q.val) := by
  rw [State.failCore_eq hf hs hl]
  refine State.trip_tripped _ _ _ _ _ (sourceRow_core q) ?_
  rw [State.powered_wr _ _ _ (by decide), hp]

/-! ### The spare's load (R426) -/

/-- What a load's end shows before the check's outcome acts. -/
def State.loadOver (s : State) : State :=
  { s.wr F.LCS_FW_STAT_LOADING 0 with lcs := { s.lcs with load := none } }

/-- The spare shows the image loaded and stands ready. -/
def State.spareReady (s : State) (q : Nat) (stg : Bool) : State :=
  let g := s.rd F.LCS_CORE_IMG_STG
  let g := if bit q g then g - 2 ^ q else g
  (s.wr F.LCS_CORE_IMG_STG (if stg then g + 2 ^ q else g)).wr F.MPL_CORE_MAP_SPARE q

theorem State.spareReady_shows (q : Core) (stg : Bool) :
    (s.spareReady q.val stg).rd F.MPL_CORE_MAP_SPARE = q.val ∧
      bit q.val ((s.spareReady q.val stg).rd F.LCS_CORE_IMG_STG) = stg ∧
      RegsBut [Reg.MPL_CORE_MAP, Reg.LCS_CORE_IMG] s (s.spareReady q.val stg) := by
  unfold State.spareReady
  extract_lets g g'
  refine ⟨?_, ?_, ?_⟩
  · rw [State.rd_wr_self _ (by decide)]
    exact Nat.mod_eq_of_lt (by have := q.isLt; change q.val < 8; omega)
  · rw [State.rd_wr_off _ _ (by decide), State.rd_wr_self _ (by decide)]
    exact bit_set_clear q ⟨g, s.rd_lt F.LCS_CORE_IMG_STG⟩ stg
  · exact ((State.wr_regsBut _ _ _).mono (by decide)).trans ((State.wr_regsBut _ _ _).mono (by decide))

theorem State.spareReady_writes (q : Nat) (stg : Bool) :
    Writes [Reg.MPL_CORE_MAP, Reg.LCS_CORE_IMG] s (s.spareReady q stg) := by
  unfold State.spareReady
  exact ((Writes.refl _ s).wr _ (by decide)).wr _ (by decide)

theorem State.loadOver_writes (s : State) : Writes [Reg.LCS_FW_STAT] { s with lcs := { s.lcs with load := none } } s.loadOver :=
  (Writes.refl _ { s with lcs := { s.lcs with load := none } }).wr _ (by decide)

theorem State.loadOver_eq (s : State) :
    s.loadOver = ({ s with lcs := { s.lcs with load := none } } : State).wr F.LCS_FW_STAT_LOADING 0 := rfl

theorem State.loadOver_loading (s : State) : s.loadOver.flag F.LCS_FW_STAT_LOADING = false := by
  rw [State.loadOver_eq]
  exact State.flag_wr_self _ (by decide) 0

/-- The length of a slot's image, where it holds one. -/
def imageLen (i : Option Image) : Nat := match i with | some i => i.len | none => 0

/-- The clock at which the load under way ends (R426). -/
def State.loadEnd (s : State) (n : Nat) : Nat :=
  n + ceilDiv (imageLen (if s.flag F.LCS_FW_STAT_STG_VALID then s.lcs.staged else s.lcs.active)) 4096 * usClk 100

theorem exec_spareLoadDone {q n : Nat} (good : Bool) (h : s.lcs.load = some (q, n)) :
    exec (.spareLoadDone good) s = .next (
      if good then (s.advTo (s.loadEnd n)).loadOver.spareReady q (s.flag F.LCS_FW_STAT_STG_VALID)
      else (s.advTo (s.loadEnd n)).loadOver.failCore q) := by
  change execSpareLoadDone good s = _
  unfold execSpareLoadDone State.loadEnd
  rw [h]
  dsimp only
  generalize (if s.flag F.LCS_FW_STAT_STG_VALID then s.lcs.staged else s.lcs.active) = i
  cases i with
  | none => rfl
  | some i => rfl

theorem exec_spareLoadDone_good {q n : Nat} (h : s.lcs.load = some (q, n)) :
    exec (.spareLoadDone true) s = .next ((s.advTo (s.loadEnd n)).loadOver.spareReady q (s.flag F.LCS_FW_STAT_STG_VALID)) :=
  (exec_spareLoadDone true h).trans (congrArg _ (if_pos rfl))

theorem exec_spareLoadDone_bad {q n : Nat} (h : s.lcs.load = some (q, n)) :
    exec (.spareLoadDone false) s = .next ((s.advTo (s.loadEnd n)).loadOver.failCore q) :=
  (exec_spareLoadDone false h).trans (congrArg _ (if_neg Bool.false_ne_true))

/-- Once the load is over, the spare's registers are all that changes. -/
theorem load_rest {u v t : State} (h1 : ∃ r, v = { u with lcs := { u.lcs with load := none }, regs := r })
    (h2 : ∃ r, t = { v with regs := r }) (hl : u.lcs = s.lcs) :
    t = { u with regs := t.regs, lcs := { s.lcs with load := none } } := by
  obtain ⟨r, rfl⟩ := h1
  obtain ⟨r', rfl⟩ := h2
  rw [hl]

theorem State.loadOver_reg (n : Nat) {o : Nat} (h : o ≠ Reg.LCS_FW_STAT) : (s.advTo n).loadOver.reg o = s.reg o :=
  ((s.advTo n).loadOver_writes.regs o (by simpa using h)).trans (State.advTo_reg ..)

theorem State.loadOver_rd (n : Nat) {f : Fld} (h : f.off ≠ Reg.LCS_FW_STAT) : (s.advTo n).loadOver.rd f = s.rd f :=
  State.rd_of_reg (State.loadOver_reg n h)

/-- A spare whose load passes stands ready on the image loaded. -/
theorem spareLoadDone_good {q : Core} {n : Nat} (h : s.lcs.load = some (q.val, n)) :
    Gives (.spareLoadDone true) s fun t =>
      t.rd F.MPL_CORE_MAP_SPARE = q.val ∧ t.flag F.LCS_FW_STAT_LOADING = false ∧
      bit q.val (t.rd F.LCS_CORE_IMG_STG) = s.flag F.LCS_FW_STAT_STG_VALID ∧
      RegsBut [Reg.MPL_CORE_MAP, Reg.LCS_FW_STAT, Reg.LCS_CORE_IMG] s t ∧
      t = { s.advTo (s.loadEnd n) with regs := t.regs, lcs := { s.lcs with load := none } } := by
  have hw := State.spareReady_writes (s := (s.advTo (s.loadEnd n)).loadOver) q.val (s.flag F.LCS_FW_STAT_STG_VALID)
  obtain ⟨hsp, himg, hr⟩ := State.spareReady_shows (s := (s.advTo (s.loadEnd n)).loadOver) q (s.flag F.LCS_FW_STAT_STG_VALID)
  have hrest := load_rest (u := s.advTo (s.loadEnd n)) (s.advTo (s.loadEnd n)).loadOver_writes.shape hw.shape (s.advTo_lcs _)
  refine ⟨_, exec_spareLoadDone_good h, hsp, ?_, himg, fun o ho => ?_, hrest⟩
  · exact (State.flag_of_reg (hr _ (by decide))).trans (State.loadOver_loading _)
  · simp only [List.mem_cons, List.not_mem_nil, or_false, not_or] at ho
    exact (hr o (by simp [ho])).trans (State.loadOver_reg _ ho.2.1)

theorem Tripped.base {k : Nat} {act : Bool} {u v t : State} (h : Tripped k act u t) (e : u = v) : Tripped k act v t := e ▸ h

theorem spareLoadDone_bad {q : Core} {n : Nat} (h : s.lcs.load = some (q.val, n)) (hf : coreFailed s q.val = false)
    (hs : s.rd F.MPL_CORE_MAP_SPARE ≠ q.val) (hp : s.powered 1 = true) :
    Gives (.spareLoadDone false) s (Tripped (40 + q.val) false
      ({ (s.advTo (s.loadEnd n)).wr F.LCS_FW_STAT_LOADING 0 with lcs := { s.lcs with load := none } }.wr F.MPL_CORE_MAP_FAILED
          (s.rd F.MPL_CORE_MAP_FAILED + 2 ^ q.val))) := by
  have hpow : (s.advTo (s.loadEnd n)).loadOver.powered 1 = true := by
    have hv : (s.advTo (s.loadEnd n)).loadOver.pmu = s.pmu := by
      obtain ⟨r, e⟩ := (s.advTo (s.loadEnd n)).loadOver_writes.shape
      rw [e, State.advTo_pmu]
    rw [State.powered_congr (s := s) (by rw [hv]) (State.loadOver_reg _ (by decide)), hp]
  have ht := State.failCore_tripped (s := (s.advTo (s.loadEnd n)).loadOver) (q := q)
    ((coreFailed_congr (State.loadOver_rd _ (by decide)) _).trans hf) (by rw [State.loadOver_rd _ (by decide)]; exact hs) rfl hpow
  refine ⟨_, exec_spareLoadDone_bad h, ht.base ?_⟩
  rw [State.loadOver_rd _ (by decide), State.loadOver, State.advTo_lcs]

/-! ### Swap and replacement (R425, R428) -/

/-- Where nothing of the bank's timeline waits, it stands still at its hold current's draw. -/
def State.standBook (s : State) (n : Axis) : State :=
  let p := s.plan n
  let stand := if s.energised n then [⟨s.now, none, (s.load n).standDraw (s.rd (F.MPL_IHOLD_IHOLD n))⟩] else []
  if p.galley = [] then s.setPlan n { p with book := stand } else s

/-- Timelines are renewed from s to t on the axes of l alone. -/
def Rebooked (l : List Axis) (s t : State) : Prop :=
  (∃ p, t = { s with plans := p }) ∧ ∀ n, t.plan n = { s.plan n with book := (t.plan n).book } ∧ (n ∉ l → t.plan n = s.plan n)

theorem State.standBook_rebooked (s : State) (n : Axis) : Rebooked [n] s (s.standBook n) := by
  unfold State.standBook
  extract_lets p stand
  split
  · refine ⟨⟨_, rfl⟩, fun m => ?_⟩
    by_cases e : m = n
    · subst e
      rw [State.plan_setPlan_self]
      exact ⟨rfl, fun h => absurd (List.mem_singleton.2 rfl) h⟩
    · rw [State.plan_setPlan_ne _ _ e]
      exact ⟨rfl, fun _ => rfl⟩
  · exact ⟨⟨_, rfl⟩, fun _ => ⟨rfl, fun _ => rfl⟩⟩

theorem Rebooked.trans {l m : List Axis} {a b c : State} (h : Rebooked l a b) (k : Rebooked m b c) : Rebooked (l ++ m) a c := by
  obtain ⟨⟨p, rfl⟩, h2⟩ := h
  obtain ⟨⟨q, rfl⟩, k2⟩ := k
  refine ⟨⟨q, rfl⟩, fun n => ⟨?_, fun hn => ?_⟩⟩
  · have e := (k2 n).1
    rw [(h2 n).1] at e
    exact e
  · simp only [List.mem_append, not_or] at hn
    exact ((k2 n).2 hn.2).trans ((h2 n).2 hn.1)

/-- Renewed timelines between writes of registers. -/
theorem Rebooked.onRegs {l : List Axis} {u v w : State} (h : Rebooked l u v) (hu : ∃ r, u = { s with regs := r })
    (hw : ∃ r, w = { v with regs := r }) : Rebooked l { s with regs := w.regs } w := by
  obtain ⟨⟨p, rfl⟩, h2⟩ := h
  obtain ⟨r, rfl⟩ := hu
  obtain ⟨r', rfl⟩ := hw
  exact ⟨⟨p, rfl⟩, h2⟩

theorem State.standBook_each (l : List Axis) (s : State) : Rebooked l s (each l State.standBook s) := by
  induction l generalizing s with
  | nil => exact ⟨⟨_, rfl⟩, fun _ => ⟨rfl, fun _ => rfl⟩⟩
  | cons a l ih => exact (s.standBook_rebooked a).trans (ih _)

/-- The spare's number goes into the bank's field of the core map, and no core is the spare. -/
def State.spareTakes (s : State) (b : Bank) : State :=
  (s.wr (coreFld b) (s.rd F.MPL_CORE_MAP_SPARE)).wr F.MPL_CORE_MAP_SPARE 7

theorem State.spareTakes_writes (s : State) (b : Bank) : Writes [Reg.MPL_CORE_MAP] s (s.spareTakes b) :=
  ((Writes.refl _ s).wr _ (by simp [coreFld])).wr _ (by decide)

theorem State.spareTakes_shows (s : State) (b : Bank) :
    coreOf (s.spareTakes b) b = s.rd F.MPL_CORE_MAP_SPARE ∧ (s.spareTakes b).rd F.MPL_CORE_MAP_SPARE = 7 ∧
      (∀ a, a ≠ b → coreOf (s.spareTakes b) a = coreOf s a) ∧
      (s.spareTakes b).rd F.MPL_CORE_MAP_FAILED = s.rd F.MPL_CORE_MAP_FAILED := by
  obtain ⟨hb, hs⟩ := coreFld_apart_spare b
  unfold State.spareTakes
  refine ⟨?_, State.rd_wr_self _ (by decide) 7, fun a ha => ?_, ?_⟩
  · rw [coreOf_eq, State.rd_wr_ne _ _ (.inr ⟨by decide, coreFld_ok b, hs⟩), State.rd_wr_self _ (coreFld_ok b)]
    have hw : (coreFld b).hi + 1 - (coreFld b).lo = 3 := by revert b; decide
    rw [hw]
    exact Nat.mod_eq_of_lt (s.rd_lt F.MPL_CORE_MAP_SPARE)
  · rw [coreOf_eq, State.rd_wr_ne _ _ (.inr ⟨by decide, coreFld_ok a, (coreFld_apart_spare a).2⟩),
      State.rd_wr_ne _ _ (.inr ⟨coreFld_ok b, coreFld_ok a, coreFld_apart ha⟩)]
    rfl
  · rw [State.rd_wr_ne _ _ (.inr (by decide)), State.rd_wr_ne _ _ (.inr ⟨coreFld_ok b, by decide, coreFld_apart_failed b⟩)]

theorem State.replaceCore_idle {b : Bank} (h : coreOf s b = 7 ∨ coreFailed s (coreOf s b) = false) : s.replaceCore b = s := by
  refine if_pos ?_
  rcases h with h | h <;> simp [h]

theorem State.replaceCore_eq {b : Bank} (h : coreOf s b ≠ 7) (hf : coreFailed s (coreOf s b) = true) :
    s.replaceCore b = (each (axesOfBank b) State.standBook (s.spareTakes b)).wrB F.LCS_FW_STAT_MIXED
      (mixedNow (each (axesOfBank b) State.standBook (s.spareTakes b))) :=
  if_neg (by simp [h, hf])

/-- What a bank's replacement does to the registers and the timelines. -/
theorem State.replaceCore_shows {b : Bank} (h : coreOf s b ≠ 7) (hf : coreFailed s (coreOf s b) = true) :
    (∀ a, coreOf (s.replaceCore b) a = coreOf (s.spareTakes b) a) ∧
      (∀ g, g.off = Reg.MPL_CORE_MAP → (s.replaceCore b).rd g = (s.spareTakes b).rd g) ∧
      Rebooked (axesOfBank b) { s with regs := (s.replaceCore b).regs } (s.replaceCore b) ∧
      RegsBut [Reg.MPL_CORE_MAP, Reg.LCS_FW_STAT] s (s.replaceCore b) := by
  rw [State.replaceCore_eq h hf]
  have hr := State.standBook_each (axesOfBank b) (s.spareTakes b)
  generalize each (axesOfBank b) State.standBook (s.spareTakes b) = v at hr
  have hv : v.regs = (s.spareTakes b).regs := by obtain ⟨⟨p, e⟩, -⟩ := hr; rw [e]
  have hreg : ∀ o, v.reg o = (s.spareTakes b).reg o := fun o => by rw [State.reg, hv]; rfl
  have hg : ∀ g : Fld, g.off = Reg.MPL_CORE_MAP → (v.wrB F.LCS_FW_STAT_MIXED (mixedNow v)).rd g = (s.spareTakes b).rd g := by
    intro g e
    rw [State.wrB_eq, State.rd_wr_off _ _ (by rw [e]; decide)]
    exact State.rd_of_reg (hreg _)
  refine ⟨fun a => hg (coreFld a) rfl, hg, hr.onRegs (s.spareTakes_writes b).shape ((Writes.refl [Reg.LCS_FW_STAT] v).wr _ (by decide)).shape, fun o ho => ?_⟩
  simp only [List.mem_cons, List.not_mem_nil, or_false, not_or] at ho
  rw [State.wrB_eq, State.reg_wr_ne _ _ ho.2, hreg]
  exact (s.spareTakes_writes b).regs o (by simpa using ho.1)

theorem exec_plannerCoreReplace (ht : s.atTick = true) (hf : ¬ firstPending s = true) :
    exec .plannerCoreReplace s = .next (each allBanks (fun s b => s.replaceCore b) s) := by
  change execPlannerCoreReplace s = _
  simp [execPlannerCoreReplace, ht, hf]

theorem mem_axesOfBank (n : Axis) (b : Bank) : n ∈ axesOfBank b ↔ bankOfAxis n = b := by revert n b; decide

/-- With one bank's core failed, replacement is that bank's alone. -/
theorem exec_plannerCoreReplace_one {b : Bank} (ht : s.atTick = true) (hp : ¬ firstPending s = true) (h : coreOf s b ≠ 7)
    (hf : coreFailed s (coreOf s b) = true) (ho : ∀ a, a ≠ b → coreOf s a = 7 ∨ coreFailed s (coreOf s a) = false) :
    exec .plannerCoreReplace s = .next (s.replaceCore b) := by
  obtain ⟨hb, hg, -, -⟩ := State.replaceCore_shows h hf
  obtain ⟨-, -, hother, hfail⟩ := s.spareTakes_shows b
  rw [exec_plannerCoreReplace ht hp]
  refine congrArg _ (each_only (List.mem_finRange b) (List.nodup_finRange 4) (fun a ha => State.replaceCore_idle (ho a ha))
    fun a ha => State.replaceCore_idle ?_)
  rw [hb, hother a ha, coreFailed_congr ((hg _ rfl).trans hfail)]
  exact ho a ha

theorem exec_plannerCoreReplace_none (ht : s.atTick = true) (hp : ¬ firstPending s = true)
    (ho : ∀ a, coreOf s a = 7 ∨ coreFailed s (coreOf s a) = false) : exec .plannerCoreReplace s = .next s := by
  rw [exec_plannerCoreReplace ht hp]
  exact congrArg _ (each_idle fun a _ => State.replaceCore_idle (ho a))

/-- A core map that a replacement leaves keeps the plan of the other banks. -/
theorem State.replaceCore_rest {b : Bank} (h : coreOf s b ≠ 7) (hf : coreFailed s (coreOf s b) = true) :
    s.replaceCore b = { s with regs := (s.replaceCore b).regs, plans := (s.replaceCore b).plans } := by
  obtain ⟨-, -, ⟨⟨p, e⟩, -⟩, -⟩ := State.replaceCore_shows h hf
  rw [e]

/-! ### A swap at its boundary (R425) -/

/-- The spare takes the bank and the old core is loaded. -/
def State.swapTo (s : State) (b : Bank) : State :=
  ((s.wr (coreFld b) (s.rd F.MPL_CORE_MAP_SPARE)).wrB F.LCS_FW_STAT_MIXED true).startLoad (coreOf s b)

theorem State.startLoad_ops (s : State) (q : Nat) : (s.startLoad q).ops = s.ops := by
  rw [State.startLoad, State.wr_ops, State.wr_ops]
theorem State.startLoad_gtc (s : State) (q : Nat) : (s.startLoad q).gtc = s.gtc := by
  rw [State.startLoad, State.wr_gtc, State.wr_gtc]

theorem State.swapTo_now (s : State) (b : Bank) : (s.swapTo b).now = s.now := by
  rw [State.now, State.swapTo, State.startLoad_gtc, State.wrB_eq, State.wr_gtc, State.wr_gtc]
  rfl
theorem State.swapTo_ops (s : State) (b : Bank) : (s.swapTo b).ops = s.ops := by
  rw [State.swapTo, State.startLoad_ops, State.wrB_eq, State.wr_ops, State.wr_ops]

/-- The load that starts in t is the one noted in s, where LCS and the clock are the same. -/
theorem State.load_congr {s t : State} (q : Nat) (hl : t.lcs = s.lcs) (hc : t.clk = s.clk) :
    ({ t with lcs := { t.lcs with load := some (q, t.clk) } } : State) =
      { t with lcs := { s.lcs with load := some (q, s.clk) } } := by
  rw [hl, hc]

theorem State.swapTo_eq (s : State) (b : Bank) : s.swapTo b =
    { (((s.wr (coreFld b) (s.rd F.MPL_CORE_MAP_SPARE)).wr F.LCS_FW_STAT_MIXED 1).wr F.MPL_CORE_MAP_SPARE 7).wr
        F.LCS_FW_STAT_LOADING 1 with
      lcs := { s.lcs with load := some (coreOf s b, s.clk) } } := by
  rw [State.swapTo, State.startLoad, State.wrB_eq, if_pos rfl]
  exact State.load_congr _ (by rw [State.wr_lcs, State.wr_lcs, State.wr_lcs, State.wr_lcs])
    (by rw [State.wr_clk, State.wr_clk, State.wr_clk, State.wr_clk])

/-- What the swap command does once its boundary is reached. -/
theorem exec_plannerCoreSwap {o : Op} (h : s.ops.find? (fun o : Op => o.op = 0x29) = some o) (ht : s.atTick = true)
    (hn : o.t1 ≤ s.now) (hp : ¬ firstPending s = true) :
    exec .plannerCoreSwap s = .next (
      if swapDeferred s o.d.bank then s.setOp { o with deferred := true }
      else if coreOf s o.d.bank = 7 || s.rd F.MPL_CORE_MAP_SPARE = 7 then
        s.finish o.tag .fault o.t1 s.now (40 + ((List.range 5).find? (coreFailed s)).getD 0) 0
      else (s.swapTo o.d.bank).finish o.tag .done o.t1 s.now 0 0) := by
  change execPlannerCoreSwap s = _
  unfold execPlannerCoreSwap
  rw [h]
  dsimp only
  rw [if_neg (by simp [ht, hp, hn])]
  rw [← State.swapTo_now s o.d.bank]
  rfl

/-- The swap command, case by case: deferred, carried out, or refused by a core that has failed (log entry 106). -/
theorem plannerCoreSwap_cases {o : Op} (h : s.ops.find? (fun o : Op => o.op = 0x29) = some o) (ho : s.opOf o.tag = some o)
    (ht : s.atTick = true) (hn : o.t1 ≤ s.now) (hp : ¬ firstPending s = true) : Gives .plannerCoreSwap s fun t =>
      (swapDeferred s o.d.bank = true → t = s.setOp { o with deferred := true }) ∧
      (¬ swapDeferred s o.d.bank = true → coreOf s o.d.bank ≠ 7 → s.rd F.MPL_CORE_MAP_SPARE ≠ 7 →
        Ended o .done o.t1 s.now 0 ((if o.unaligned then 1 else 0) + (if o.deferred then 8 else 0)) (s.swapTo o.d.bank) t) ∧
      (¬ swapDeferred s o.d.bank = true → coreOf s o.d.bank = 7 ∨ s.rd F.MPL_CORE_MAP_SPARE = 7 →
        Ended o .fault o.t1 s.now (40 + ((List.range 5).find? (coreFailed s)).getD 0)
          ((if o.unaligned then 1 else 0) + (if o.deferred then 8 else 0)) s t) := by
  refine ⟨_, exec_plannerCoreSwap h ht hn hp, fun hd => if_pos hd, fun hd h1 h2 => ?_, fun hd h1 => ?_⟩
  · rw [if_neg hd, if_neg (show ¬ (coreOf s o.d.bank = 7 || s.rd F.MPL_CORE_MAP_SPARE = 7) = true by simp [h1, h2])]
    have e := State.finish_ended (s.swapTo o.d.bank) o .done o.t1 s.now 0 0
      (by rw [State.opOf, State.swapTo_ops]; exact ho)
    rw [Nat.zero_add] at e
    exact e
  · rw [if_neg hd, if_pos (show (coreOf s o.d.bank = 7 || s.rd F.MPL_CORE_MAP_SPARE = 7) = true by simpa using h1)]
    have e := State.finish_ended s o .fault o.t1 s.now (40 + ((List.range 5).find? (coreFailed s)).getD 0) 0 ho
    rw [Nat.zero_add] at e
    exact e

theorem exec_plannerCoreFailure {q : Core} {memory : Bool}
    (h : memory = true ∨ ∃ b, coreOf s b = q.val ∧ 2 ≤ (s.bank b).missRun) :
    exec (.plannerCoreFailure q memory) s = .next (s.failCore q.val) := by
  change execPlannerCoreFailure q memory s = _
  unfold execPlannerCoreFailure
  extract_lets late
  refine congrArg _ (if_pos ?_)
  rcases h with h | ⟨b, h1, h2⟩
  · rw [h, Bool.true_or]
  · have : late = true := List.any_eq_true.2 ⟨b, List.mem_finRange b, by simp [h1, h2]⟩
    rw [this, Bool.or_true]

end Cores

section Firmware

variable {s : State}

/-! ### The staged image becomes ACTIVE (R424) -/

/-- What a commit writes before the ledger notes it. -/
def State.commits (s : State) (i : Image) : State :=
  let s := { s with lcs := { s.lcs with active := some i, staged := none } }
  let s := s.wr F.LCS_FW_STAT_MIN_SVN (max (minSvn s) i.svn)
  ((s.wr F.LCS_FW_STAT_MIXED 0).showImages false).setReg Reg.LCS_CORE_IMG 0#32

theorem State.fwCommit_eq {i : Image} (h : s.lcs.staged = some i) : ∃ data, s.fwCommit = (s.commits i).ledPush 4 data := by
  unfold State.fwCommit
  rw [h]
  exact ⟨_, rfl⟩

/-- The registers of the slots as a commit leaves them. -/
def State.commitRegs (s : State) (i : Image) : State :=
  (((((((s.wr F.LCS_FW_STAT_MIN_SVN (max (minSvn s) i.svn)).wr F.LCS_FW_STAT_MIXED 0).wr F.LCS_FW_STAT_ACT_SVN i.svn).setReg
    Reg.LCS_FW_BUILD_ACT (wordOf i.build)).wr F.LCS_FW_STAT_STG_VALID 0).wr F.LCS_FW_STAT_STG_SVN 0).setReg
    Reg.LCS_FW_BUILD_STG 0#32).setReg Reg.LCS_CORE_IMG 0#32

theorem State.commits_eq (s : State) (i : Image) :
    s.commits i = State.commitRegs { s with lcs := { s.lcs with active := some i, staged := none } } i := rfl

theorem State.rd_setReg_off (s : State) {f : Fld} {o : Nat} (w : Word) (h : f.off ≠ o) : (s.setReg o w).rd f = s.rd f :=
  congrArg f.get (State.reg_setReg_ne s w h)

theorem State.commitRegs_shows (s : State) (i : Image) :
    (s.commitRegs i).rd F.LCS_FW_STAT_MIN_SVN = max (minSvn s) i.svn % 64 ∧
      (s.commitRegs i).rd F.LCS_FW_STAT_ACT_SVN = i.svn % 64 ∧
      (s.commitRegs i).reg Reg.LCS_FW_BUILD_ACT = wordOf i.build ∧ (s.commitRegs i).rd F.LCS_FW_STAT_STG_VALID = 0 ∧
      (s.commitRegs i).rd F.LCS_FW_STAT_MIXED = 0 ∧ (s.commitRegs i).reg Reg.LCS_CORE_IMG = 0#32 := by
  unfold State.commitRegs
  refine ⟨?_, ?_, ?_, ?_, ?_, State.reg_setReg_self ..⟩
  · rw [State.rd_setReg_off _ _ (by decide), State.rd_setReg_off _ _ (by decide), State.rd_wr_ne _ _ (.inr (by decide)),
      State.rd_wr_ne _ _ (.inr (by decide)), State.rd_setReg_off _ _ (by decide), State.rd_wr_ne _ _ (.inr (by decide)),
      State.rd_wr_ne _ _ (.inr (by decide)), State.rd_wr_self _ (by decide)]
    rfl
  · rw [State.rd_setReg_off _ _ (by decide), State.rd_setReg_off _ _ (by decide), State.rd_wr_ne _ _ (.inr (by decide)),
      State.rd_wr_ne _ _ (.inr (by decide)), State.rd_setReg_off _ _ (by decide), State.rd_wr_self _ (by decide)]
    rfl
  · rw [State.reg_setReg_ne _ _ (by decide), State.reg_setReg_ne _ _ (by decide), State.reg_wr_ne _ _ (by decide),
      State.reg_wr_ne _ _ (by decide), State.reg_setReg_self]
  · rw [State.rd_setReg_off _ _ (by decide), State.rd_setReg_off _ _ (by decide), State.rd_wr_ne _ _ (.inr (by decide)),
      State.rd_wr_self _ (by decide)]
    rfl
  · rw [State.rd_setReg_off _ _ (by decide), State.rd_setReg_off _ _ (by decide), State.rd_wr_ne _ _ (.inr (by decide)),
      State.rd_wr_ne _ _ (.inr (by decide)), State.rd_setReg_off _ _ (by decide), State.rd_wr_ne _ _ (.inr (by decide)),
      State.rd_wr_self _ (by decide)]
    rfl

theorem State.commitRegs_writes (s : State) (i : Image) :
    Writes [Reg.LCS_FW_STAT, Reg.LCS_FW_BUILD_ACT, Reg.LCS_FW_BUILD_STG, Reg.LCS_CORE_IMG] s (s.commitRegs i) :=
  ((((((((Writes.refl _ s).wr _ (by decide)).wr _ (by decide)).wr _ (by decide)).setReg _ (by decide)).wr _ (by decide)).wr _
    (by decide)).setReg _ (by decide)).setReg _ (by decide)

/-- A commit to the ledger changes the ledger and CND_STAT alone. -/
theorem State.ledPush_shape (typ : Nat) (data : List Word) (src : Option Nat) :
    (∃ r q l, s.ledPush typ data src = { s with regs := r, seqDone := q, ledger := l }) ∧
      RegsBut [Reg.CND_STAT] s (s.ledPush typ data src) := by
  have stay : ∀ l, (∃ r q l', ({ s with ledger := l } : State) = { s with regs := r, seqDone := q, ledger := l' }) ∧
      RegsBut [Reg.CND_STAT] s { s with ledger := l } := fun l => ⟨⟨s.regs, s.seqDone, l, rfl⟩, fun _ _ => rfl⟩
  unfold State.ledPush
  dsimp only
  split
  · exact stay s.ledger
  split
  · exact stay _
  split
  · exact stay _
  split
  · refine ⟨?_, fun o ho => (State.reg_sqc_ne (f := F.CND_STAT_SUPP) _ (List.ne_of_not_mem_cons ho)).trans rfl⟩
    obtain ⟨w, b, e⟩ := State.sqcMask_shape { s with ledger := { s.ledger with dropped := s.ledger.dropped + 1, lastType := typ } }
      Reg.CND_STAT (2 ^ F.CND_STAT_SUPP.lo)
    exact ⟨_, _, _, e⟩
  · exact stay _

theorem State.ledPush_rd {f : Fld} (s : State) (typ : Nat) (data : List Word) (src : Option Nat) (h : f.off ≠ Reg.CND_STAT) :
    (s.ledPush typ data src).rd f = s.rd f :=
  State.rd_of_reg ((State.ledPush_shape typ data src).2 _ (by simpa using h))

theorem exec_firmwareCommit (ht : s.atTick = true) (hv : s.flag F.LCS_FW_STAT_STG_VALID = true)
    (hq : ∀ q < 5, bit q (s.rd F.LCS_CORE_IMG_STG) = true ∨ coreFailed s q = true) : exec .firmwareCommit s = .next s.fwCommit := by
  change execFirmwareCommit s = _
  unfold execFirmwareCommit
  refine congrArg _ (if_pos ?_)
  rw [ht, hv, Bool.true_and, Bool.true_and, List.all_eq_true]
  intro q h
  rw [Bool.or_eq_true]
  exact hq q (List.mem_range.1 h)

/-- What a commit shows, and what it leaves alone (R424). -/
theorem State.fwCommit_shows {i : Image} (h : s.lcs.staged = some i) :
    s.fwCommit.lcs = { s.lcs with active := some i, staged := none } ∧
      s.fwCommit.rd F.LCS_FW_STAT_MIN_SVN = max (minSvn s) i.svn % 64 ∧ s.fwCommit.rd F.LCS_FW_STAT_ACT_SVN = i.svn % 64 ∧
      s.fwCommit.reg Reg.LCS_FW_BUILD_ACT = wordOf i.build ∧ s.fwCommit.rd F.LCS_FW_STAT_STG_VALID = 0 ∧
      s.fwCommit.rd F.LCS_FW_STAT_MIXED = 0 ∧ s.fwCommit.reg Reg.LCS_CORE_IMG = 0#32 ∧
      s.fwCommit = { s with regs := s.fwCommit.regs, seqDone := s.fwCommit.seqDone, lcs := s.fwCommit.lcs, ledger := s.fwCommit.ledger } := by
  obtain ⟨data, e⟩ := State.fwCommit_eq h
  obtain ⟨hmin, hact, hbuild, hvalid, hmixed, himg⟩ :=
    State.commitRegs_shows { s with lcs := { s.lcs with active := some i, staged := none } } i
  obtain ⟨r, hr⟩ := (State.commitRegs_writes { s with lcs := { s.lcs with active := some i, staged := none } } i).shape
  rw [← State.commits_eq] at hmin hact hbuild hvalid hmixed himg hr
  obtain ⟨⟨r', q, l, hl⟩, hb⟩ := State.ledPush_shape (s := s.commits i) 4 data none
  rw [e]
  refine ⟨?_, (State.ledPush_rd _ _ _ _ (by decide)).trans hmin, (State.ledPush_rd _ _ _ _ (by decide)).trans hact,
    (hb _ (by decide)).trans hbuild, (State.ledPush_rd _ _ _ _ (by decide)).trans hvalid,
    (State.ledPush_rd _ _ _ _ (by decide)).trans hmixed, (hb _ (by decide)).trans himg, ?_⟩
  · rw [hl, hr]
  · rw [hl, hr]

end Firmware

/-- Settles O17, command by command. -/
theorem plannerCoresSwapAndFail : Obligations.PlannerCoresSwapAndFail := by
  intro s
  refine ⟨fun q n h => ⟨?_, fun hf hs hp => ?_⟩, fun o h ho ht hn hp => ?_,
    fun q memory h hf hs hl hp => ⟨_, exec_plannerCoreFailure h, State.failCore_tripped hf hs hl hp⟩, fun ht hp => ?_,
    fun i ht hv hi hq => ?_⟩
  case refine_1 => exact spareLoadDone_good h
  case refine_2 => exact spareLoadDone_bad h hf hs hp
  case refine_3 =>
    have := plannerCoreSwap_cases h ho ht hn hp
    rw [State.swapTo_eq] at this
    exact this
  case refine_4 =>
    by_cases hn : ∀ a, coreOf s a = 7 ∨ coreFailed s (coreOf s a) = false
    · refine ⟨s, exec_plannerCoreReplace_none ht hp hn, fun _ => rfl, fun b h hf => ?_⟩
      rcases hn b with e | e
      · exact absurd e h
      · rw [e] at hf
        cases hf
    · refine ⟨_, exec_plannerCoreReplace ht hp, fun h => absurd h hn, fun b h hf hs ho => ?_⟩
      obtain ⟨hcore, hfld, ⟨-, hplan⟩, hregs⟩ := State.replaceCore_shows h hf
      obtain ⟨hb, hspare, hother, -⟩ := s.spareTakes_shows b
      have he := (exec_plannerCoreReplace ht hp).symm.trans (exec_plannerCoreReplace_one ht hp h hf ho)
      simp only [Host.Outcome.next.injEq] at he
      rw [he]
      exact ⟨(hcore b).trans hb, (hfld F.MPL_CORE_MAP_SPARE rfl).trans hspare, fun a ha => (hcore a).trans (hother a ha),
        fun n hn => (hplan n).2 fun e => hn ((mem_axesOfBank n b).1 e), fun n _ => (hplan n).1, hregs,
        State.replaceCore_rest h hf⟩
  case refine_5 =>
    obtain ⟨hl, hmin, hact, hbuild, hvalid, hmixed, himg, hrest⟩ := State.fwCommit_shows hi
    refine ⟨_, exec_firmwareCommit ht hv hq, hl, fun hsvn => ?_, hmin, hact, hbuild, ?_, ?_, himg, hrest⟩
    · have hlt : minSvn s < 64 := s.rd_lt F.LCS_FW_STAT_MIN_SVN
      rw [hmin, Nat.mod_eq_of_lt (Nat.max_lt.2 ⟨hlt, hsvn⟩)]
      exact Nat.le_max_left ..
    · rw [State.flag, hvalid]; rfl
    · rw [State.flag, hmixed]; rfl

end Sys2Proof.Machine

namespace Sys2Proof.Machine

/-! ### Bits of a number -/

theorem bit_eq_testBit (i w : Nat) : bit i w = w.testBit i := (Nat.testBit_eq_decide_div_mod_eq).symm

/-- Adding a power of two whose bit is clear sets that bit. -/
theorem add_two_pow_eq_or {d w : Nat} (h : w.testBit d = false) : w + 2 ^ d = w ||| 2 ^ d := by
  have hr : w % 2 ^ (d + 1) < 2 ^ d := by
    rw [Nat.testBit_eq_decide_div_mod_eq, decide_eq_false_iff_not] at h
    rw [Nat.pow_succ, Nat.mod_mul]
    have := Nat.mod_lt w (Nat.two_pow_pos d)
    have h0 : w / 2 ^ d % 2 = 0 := by omega
    rw [h0]
    omega
  have e1 : w = 2 ^ (d + 1) * (w / 2 ^ (d + 1)) ||| w % 2 ^ (d + 1) := by
    rw [← Nat.two_pow_add_eq_or_of_lt (Nat.mod_lt _ (Nat.two_pow_pos _)), Nat.div_add_mod]
  have e2 : 2 ^ d ||| w % 2 ^ (d + 1) = 2 ^ d + w % 2 ^ (d + 1) := by
    rw [← Nat.mul_one (2 ^ d), ← Nat.two_pow_add_eq_or_of_lt hr]
  calc w + 2 ^ d = 2 ^ (d + 1) * (w / 2 ^ (d + 1)) + (2 ^ d + w % 2 ^ (d + 1)) := by
        have := Nat.div_add_mod w (2 ^ (d + 1)); omega
    _ = 2 ^ (d + 1) * (w / 2 ^ (d + 1)) ||| (2 ^ d ||| w % 2 ^ (d + 1)) := by
        rw [e2]
        refine Nat.two_pow_add_eq_or_of_lt ?_ _
        have := Nat.pow_succ' (m := 2) (n := d)
        omega
    _ = w ||| 2 ^ d := by
        rw [Nat.or_comm (2 ^ d), ← Nat.or_assoc, ← e1]

theorem bit_add_two_pow {d w : Nat} (h : bit d w = false) (e : Nat) : bit e (w + 2 ^ d) = (bit e w || Decidable.decide (e = d)) := by
  rw [bit_eq_testBit] at h
  rw [bit_eq_testBit, bit_eq_testBit, add_two_pow_eq_or h, Nat.testBit_or, Nat.testBit_two_pow]
  simp only [eq_comm]

theorem bit_sub_two_pow {d w : Nat} (h : bit d w = true) (e : Nat) : bit e (w - 2 ^ d) = (bit e w && Decidable.decide (e ≠ d)) := by
  have hle : 2 ^ d ≤ w := by
    by_contra hc
    simp [bit, Nat.div_eq_of_lt (Nat.lt_of_not_le hc)] at h
  obtain ⟨y, rfl⟩ : ∃ y, w = y + 2 ^ d := ⟨w - 2 ^ d, by omega⟩
  have hy : bit d y = false := by
    simp only [bit, decide_eq_true_eq, Nat.add_div_right y (Nat.two_pow_pos d)] at h
    simp only [bit, decide_eq_false_iff_not]
    omega
  rw [Nat.add_sub_cancel, bit_add_two_pow hy]
  by_cases he : e = d
  · subst he; simp [hy]
  · simp [he]

theorem bit_mod_two_pow {i n : Nat} (w : Nat) (h : i < n) : bit i (w % 2 ^ n) = bit i w := by
  rw [bit_eq_testBit, bit_eq_testBit, Nat.testBit_mod_two_pow]
  simp [h]

theorem bit_of_lt {i n w : Nat} (h : w < 2 ^ n) (hi : n ≤ i) : bit i w = false := by
  rw [bit_eq_testBit]
  exact Nat.testBit_lt_two_pow (h.trans_le (Nat.pow_le_pow_right (by decide) hi))

section Power

variable {s t : State}

/-! ### Power-good (R394) -/

theorem State.powered_eq (s : State) {e : Nat} (h : e ≠ 0) : s.powered e = bit e (s.rd F.PMU_DOM_STAT_PG) := if_neg h

/-- Putting a number of 16 bits into PG shows its bits. -/
theorem State.powered_wr_pg (s : State) {v : Nat} (hv : v < 2 ^ 16) {e : Nat} (he : e ≠ 0) :
    (s.wr F.PMU_DOM_STAT_PG v).powered e = bit e v := by
  rw [State.powered_eq _ he, State.rd_wr_self _ (by decide)]
  exact congrArg (bit e) (Nat.mod_eq_of_lt hv)

theorem State.setPg_powered (s : State) {d e : Nat} (hd : d < 16) (hd0 : d ≠ 0) :
    (s.setPg d).powered e = (s.powered e || Decidable.decide (e = d)) := by
  by_cases he : e = 0
  · subst he
    have : (s.setPg d).pmu = s.pmu := by unfold State.setPg; dsimp only; split <;> rfl
    simp [State.powered, this, hd0.symm]
  unfold State.setPg
  extract_lets pg
  split
  · rename_i h
    by_cases e' : e = d
    · subst e'; rw [State.powered_eq _ he, h]; simp
    · simp [e']
  · rename_i h
    have hf : bit d pg = false := by simpa using h
    have hlt : pg + 2 ^ d < 2 ^ 16 := by
      rw [add_two_pow_eq_or (by rwa [← bit_eq_testBit])]
      exact Nat.or_lt_two_pow (s.rd_lt F.PMU_DOM_STAT_PG) (Nat.pow_lt_pow_right (by decide) hd)
    rw [State.powered_wr_pg s hlt he, bit_add_two_pow hf, State.powered_eq _ he]

theorem State.setPg_writes (s : State) (d : Nat) : Writes [Reg.PMU_DOM_STAT] s (s.setPg d) := by
  unfold State.setPg
  extract_lets pg
  split
  · exact Writes.refl _ s
  · exact (Writes.refl _ s).wr _ (by decide)

end Power

end Sys2Proof.Machine

namespace Sys2Proof.Machine

/-! ### Registers of a domain that is switched off (R68, R69) -/

section Registers

variable {s t : State}

/-- What a register file reads, entry by entry. -/
theorem fileGet_cons (dflt : Nat → Word) (x : Nat × Word) (l : List (Nat × Word)) (o : Nat) :
    fileGet dflt (x :: l) o = if o = x.1 then x.2 else fileGet dflt l o := by
  unfold fileGet
  rw [List.lookup_cons]
  by_cases h : o = x.1
  · simp [h]
  · rw [if_neg h, beq_false_of_ne h]

/-- A filter that keeps the key of what it keeps and each entry of one key leaves that register alone. -/
theorem fileGet_filterMap_keep (dflt : Nat → Word) (keep : Nat × Word → Option (Nat × Word)) (o : Nat)
    (hk : ∀ x y, keep x = some y → y.1 = x.1) (ho : ∀ w, keep (o, w) = some (o, w)) (l : List (Nat × Word)) :
    fileGet dflt (l.filterMap keep) o = fileGet dflt l o := by
  induction l with
  | nil => rfl
  | cons x l ih =>
    rw [fileGet_cons]
    by_cases e : o = x.1
    · rw [List.filterMap_cons_some (b := x) (by rw [← Prod.mk.eta (p := x), ← e]; exact ho _), fileGet_cons]
      rw [if_pos e, if_pos e]
    · rw [if_neg e]
      cases h : keep x with
      | none => rw [List.filterMap_cons_none h, ih]
      | some y => rw [List.filterMap_cons_some h, fileGet_cons, if_neg (by rw [hk x y h]; exact e), ih]

/-- A filter that lets no entry of one key pass leaves that register at its reset word. -/
theorem fileGet_filterMap_none (dflt : Nat → Word) (keep : Nat × Word → Option (Nat × Word)) (o : Nat)
    (hk : ∀ x y, keep x = some y → y.1 = x.1) (ho : ∀ w, keep (o, w) = none) (l : List (Nat × Word)) :
    fileGet dflt (l.filterMap keep) o = dflt o := by
  induction l with
  | nil => rfl
  | cons x l ih =>
    cases h : keep x with
    | none => rw [List.filterMap_cons_none h, ih]
    | some y =>
      have e : o ≠ y.1 := fun e => by
        rw [← Prod.mk.eta (p := x), ← hk x y h, ← e, ho] at h
        cases h
      rw [List.filterMap_cons_some h, fileGet_cons, if_neg e, ih]

/-- What a domain's loss keeps of an entry (R68, R69). -/
def keepReg (d : Nat) (x : Nat × Word) : Option (Nat × Word) :=
  if domOfKey x.1 ≠ d || isCoeff x.1 then some x
  else
    let w := mergeMask (keyRwb x.1) (resetWord x.1) x.2
    if w = resetWord x.1 then none else some (x.1, w)

theorem State.dropRegs_regs (s : State) (d : Nat) : (s.dropRegs d).regs = s.regs.filterMap (keepReg d) := rfl

theorem keepReg_key (d : Nat) (x y : Nat × Word) (h : keepReg d x = some y) : y.1 = x.1 := by
  unfold keepReg at h
  split at h
  · cases h; rfl
  · dsimp only at h
    split at h <;> cases h
    rfl

theorem State.dropRegs_reg_other (s : State) {d o : Nat} (h : domOfKey o ≠ d) : (s.dropRegs d).reg o = s.reg o := by
  rw [State.reg, State.dropRegs_regs]
  exact fileGet_filterMap_keep _ _ _ (keepReg_key d) (fun w => if_pos (by simp [h])) _

theorem mergeMask_zero (old new : Word) : mergeMask 0 old new = old := by
  rw [mergeMask, show BitVec.ofNat 32 0 = 0#32 from rfl, BitVec.not_zero, BitVec.and_allOnes, BitVec.and_zero, BitVec.or_zero]

/-- A register of the domain without an RWB field reads its reset word (R68). -/
theorem State.dropRegs_reg_reset (s : State) {d o : Nat} (h : domOfKey o = d) (hr : keyRwb o = 0) (hc : isCoeff o = false) :
    (s.dropRegs d).reg o = resetWord o := by
  rw [State.reg, State.dropRegs_regs]
  refine fileGet_filterMap_none _ _ _ (keepReg_key d) (fun w => ?_) _
  rw [keepReg, if_neg (by simp [h, hc])]
  dsimp only
  rw [hr, mergeMask_zero, if_pos rfl]

end Registers

/-! ### The link of a port goes with its domain (R121, R400) -/

section Links

variable {s t : State} {xs : List Nat}

/-- From s to t a port's fetching has ended and precision time may be lost: the clocks, the supplies and the registers outside xs
that no report reaches stand, and no axis is energised. -/
structure Unlinks (xs : List Nat) (s t : State) : Prop where
  clk : t.clk = s.clk
  ticking : t.ticking = s.ticking
  gtcRuns : t.gtcRuns = s.gtcRuns
  pmu : t.pmu = s.pmu
  ckg : t.ckg = s.ckg
  regs : ∀ o, faultReg o = false → o ∉ xs → t.reg o = s.reg o
  off : StaysOff s t

theorem Unlinks.refl (s : State) : Unlinks xs s s := ⟨rfl, rfl, rfl, rfl, rfl, fun _ _ _ => rfl, StaysOff.refl s⟩

theorem Unlinks.trans {a b c : State} (h : Unlinks xs a b) (k : Unlinks xs b c) : Unlinks xs a c :=
  ⟨k.clk.trans h.clk, k.ticking.trans h.ticking, k.gtcRuns.trans h.gtcRuns, k.pmu.trans h.pmu, k.ckg.trans h.ckg,
    fun o h1 h2 => (k.regs o h1 h2).trans (h.regs o h1 h2), h.off.trans k.off⟩

theorem Unlinks.ite {c : Prop} [Decidable c] {z a b : State} (h : Unlinks xs z a) (k : Unlinks xs z b) :
    Unlinks xs z (if c then a else b) := by
  split <;> assumption

theorem Unlinks.each {α : Type} {l : List α} {f : State → α → State} (hf : ∀ s a, Unlinks xs s (f s a)) :
    Unlinks xs s (Machine.each l f s) := by
  induction l generalizing s with
  | nil => exact Unlinks.refl s
  | cons a l ih => exact (hf s a).trans ih

theorem Reports.unlinks {R : Nat → Bool} (h : Reports R s t) (hr : ∀ o, R o = true → faultReg o = true) : Unlinks xs s t := by
  refine ⟨?_, ?_, ?_, ?_, ?_, fun o ho _ => h.regs o ?_, h.staysOff⟩
  · rw [h.rest]
  · rw [h.rest]
  · rw [h.rest]
  · rw [h.rest]
  · rw [h.rest]
  · by_contra hc
    rw [hr o (by simpa using hc)] at ho
    cases ho

theorem State.setCtx_unlinks (s : State) (k : Ctx) (x : CtxS) : Unlinks xs s (s.setCtx k x) :=
  ⟨rfl, rfl, rfl, rfl, rfl, fun _ _ _ => rfl, StaysOff.of_plans rfl rfl⟩

theorem State.setPort_unlinks (s : State) (p : Port) (x : PortS) : Unlinks xs s (s.setPort p x) := by
  cases p <;> exact ⟨rfl, rfl, rfl, rfl, rfl, fun _ _ _ => rfl, StaysOff.of_plans rfl rfl⟩

theorem State.complete_unlinks (s : State) (k : Ctx) (ws : List Word) : Unlinks xs s (s.complete k ws) :=
  (State.complete_reports k ws).unlinks fun o h => faultReg_of_reportReg o (reportReg_of_ringReg o h)

theorem State.devEvent_unlinks (s : State) (kind d0 d1 d2 : Nat) (fault : Bool) : Unlinks xs s (s.devEvent kind d0 d1 d2 fault) :=
  (State.eventTo_reports 0 _).unlinks fun o h => faultReg_of_reportReg o (reportReg_of_ringReg o (ringReg_of_eventReg o h))

theorem State.flushKept_unlinks (s : State) (k : Ctx) : Unlinks xs s (s.flushKept k) :=
  Unlinks.ite ((State.setCtx_unlinks _ _ _).trans (Unlinks.each fun s _ => s.complete_unlinks k _)) (Unlinks.refl s)

theorem State.refuseMembers_unlinks (s : State) (k : Ctx) (r : Refuse) : Unlinks xs s (s.refuseMembers k r) := by
  unfold State.refuseMembers
  exact ((State.setCtx_unlinks _ _ _).trans (Unlinks.each fun s _ => s.complete_unlinks k _)).trans (State.flushKept_unlinks _ k)

theorem State.fetchEnd_unlinks (s : State) (k : Ctx) : Unlinks xs s (s.fetchEnd k) :=
  Unlinks.ite (s.refuseMembers_unlinks k _) (Unlinks.refl s)

theorem State.fetchStop_unlinks (s : State) (p : Port) : Unlinks xs s (s.fetchStop p) := by
  unfold State.fetchStop
  exact (State.setPort_unlinks _ _ _).trans (Unlinks.each fun s k => (State.setCtx_unlinks _ _ _).trans (State.fetchEnd_unlinks _ k))

theorem Reaction.unlinks (h : Reaction s { t with fcs := { t.fcs with srcs := s.fcs.srcs } }) (ho : StaysOff s t) : Unlinks xs s t := by
  have e := h.rest
  exact ⟨(congrArg State.clk e :), (congrArg State.ticking e :), (congrArg State.gtcRuns e :), (congrArg State.pmu e :),
    (congrArg State.ckg e :), fun o h1 _ => h.regs o h1, ho⟩

/-- Where the sequencer is without power nothing trips; elsewhere the source does. -/
theorem State.trip_cases (s : State) (k : Nat) (act : Bool) (ob : Option Nat) (loc : Bool) :
    s.trip k act ob loc = s ∨ Tripped k act s (s.trip k act ob loc) := by
  by_cases h : (sourceRow k).isNone || !s.powered 1
  · exact .inl (if_pos h)
  · simp only [Bool.or_eq_true, Bool.not_eq_true', not_or, Bool.not_eq_false, Option.isNone_iff_eq_none] at h
    exact .inr (State.trip_tripped s k act ob loc (Option.isSome_iff_ne_none.2 h.1) h.2)

theorem State.trip_unlinks (s : State) (k : Nat) (act : Bool) (ob : Option Nat) (loc : Bool) :
    Unlinks xs s (s.trip k act ob loc) := by
  rcases s.trip_cases k act ob loc with h | h
  · rw [h]; exact Unlinks.refl s
  · exact h.reaction.unlinks (State.trip_staysOff s k act ob loc)

/-- Precision time is lost (R39): TBS_PTM_STAT shows it and source 21 trips. -/
theorem State.ptmLose_unlinks (s : State) : Unlinks [Reg.TBS_PTM_STAT] s s.ptmLose := by
  unfold State.ptmLose
  extract_lets _ u v w
  have hu : Unlinks [Reg.TBS_PTM_STAT] s u := ⟨rfl, rfl, rfl, rfl, rfl, fun _ _ _ => rfl, StaysOff.of_plans rfl rfl⟩
  have hv : Unlinks [Reg.TBS_PTM_STAT] u v := by
    refine ⟨?_, ?_, ?_, ?_, ?_, fun o _ h => ?_, StaysOff.of_plans ?_ ?_⟩ <;> unfold v
    · rw [State.sqc_clk, State.wr_clk]
    · rw [State.sqc_ticking, State.wr_ticking]
    · rw [State.sqc_gtcRuns, State.wr_gtcRuns]
    · rw [State.sqc_pmu, State.wr_pmu]
    · rw [State.sqc_ckg, State.wr_ckg]
    · have h : o ≠ Reg.TBS_PTM_STAT := by simpa using h
      rw [State.reg_sqc_ne _ h, State.reg_wr_ne _ _ h]
    · rw [State.sqc_plans, State.wr_plans]
    · rw [State.sqc_ops, State.wr_ops]
  have hw : Unlinks [Reg.TBS_PTM_STAT] v w := by
    refine ⟨rfl, rfl, rfl, rfl, rfl, fun _ _ _ => rfl, fun _ => id, fun o ho hb _ => ?_⟩
    obtain ⟨x, hx, e⟩ := List.mem_map.1 ho
    by_cases h : x.begun = true
    · rwa [← e, if_pos h]
    · rw [← e, if_neg h] at hb
      exact absurd hb h
  exact Unlinks.ite (((hu.trans hv).trans hw).trans ((State.trip_unlinks _ _ _ _ _).trans (State.devEvent_unlinks _ _ _ _ _ _))) hu

theorem State.unpowerPort_unlinks (s : State) (p : Port) : Unlinks [Reg.TBS_PTM_STAT] s (s.unpowerPort p) := by
  unfold State.unpowerPort
  extract_lets up _ u
  have hu : Unlinks [Reg.TBS_PTM_STAT] s u := Unlinks.ite ((State.setPort_unlinks _ _ _).trans (State.fetchStop_unlinks _ _)) (Unlinks.refl s)
  exact Unlinks.ite (hu.trans u.ptmLose_unlinks) hu

end Links

end Sys2Proof.Machine

namespace Sys2Proof.Machine

section Domains

variable {s t : State} {xs : List Nat}

/-! ### What the logic of a domain held (R69, R408) -/

/-- From s to t the stores of coils, axes, half-bridges and analog banks may have changed, and nothing else. -/
def BankReset (s t : State) : Prop := ∃ co cl fb hb ad gd,
  t = { s with coils := co, clps := cl, fbks := fb, hbs := hb, adcs := ad, gdrs := gd }

theorem BankReset.refl (s : State) : BankReset s s := ⟨_, _, _, _, _, _, rfl⟩

theorem BankReset.trans {a b c : State} (h : BankReset a b) (k : BankReset b c) : BankReset a c := by
  obtain ⟨_, _, _, _, _, _, rfl⟩ := h
  obtain ⟨_, _, _, _, _, _, rfl⟩ := k
  exact ⟨_, _, _, _, _, _, rfl⟩

theorem BankReset.each {α : Type} {l : List α} {f : State → α → State} (hf : ∀ s a, BankReset s (f s a)) :
    BankReset s (Machine.each l f s) := by
  induction l generalizing s with
  | nil => exact BankReset.refl s
  | cons a l ih => exact (hf s a).trans ih

theorem State.setGdr_bankReset (s : State) (b : Bank) (x : GdrS) : BankReset s (s.setGdr b x) := ⟨_, _, _, _, _, _, rfl⟩
theorem State.setAdc_bankReset (s : State) (b : Bank) (x : AdcS) : BankReset s (s.setAdc b x) := ⟨_, _, _, _, _, _, rfl⟩
theorem State.setCoil_bankReset (s : State) (p : Coil) (x : CoilS) : BankReset s (s.setCoil p x) := ⟨_, _, _, _, _, _, rfl⟩
theorem State.setClp_bankReset (s : State) (n : Axis) (x : ClpS) : BankReset s (s.setClp n x) := ⟨_, _, _, _, _, _, rfl⟩
theorem State.setFbk_bankReset (s : State) (n : Axis) (x : FbkS) : BankReset s (s.setFbk n x) := ⟨_, _, _, _, _, _, rfl⟩
theorem State.setHb_bankReset (s : State) (h : HalfBridge) (x : HbS) : BankReset s (s.setHb h x) := ⟨_, _, _, _, _, _, rfl⟩

/-- Where the domain is no port's, nor the sequencer's or the core clock's, its banks' stores are all that goes. -/
theorem State.clearDom_bankReset (s : State) {d : Nat} (h : 5 ≤ d) : BankReset s (s.clearDom d) := by
  unfold State.clearDom
  rw [if_neg (by omega), if_neg (by omega), if_neg (by omega), if_neg (by omega)]
  split
  · exact (((s.setGdr_bankReset _ _).trans (BankReset.each fun s _ => s.setCoil_bankReset _ _)).trans
      (BankReset.each fun s _ => (s.setClp_bankReset _ _).trans (State.setFbk_bankReset _ _ _))).trans
      (BankReset.each fun s _ => s.setHb_bankReset _ _)
  split
  · exact ((s.setAdc_bankReset _ _).trans (State.setGdr_bankReset _ _ _)).trans (BankReset.each fun s _ => s.setHb_bankReset _ _)
  · exact BankReset.refl s

/-- What a domain's loss leaves alone, whichever domain it is. -/
structure LogicGone (s t : State) : Prop where
  regs : t.regs = s.regs
  clk : t.clk = s.clk
  ticking : t.ticking = s.ticking
  gtcRuns : t.gtcRuns = s.gtcRuns
  pmu : t.pmu = s.pmu
  plans : t.plans = s.plans
  ops : t.ops = s.ops

theorem BankReset.logicGone (h : BankReset s t) : LogicGone s t := by
  obtain ⟨_, _, _, _, _, _, rfl⟩ := h
  exact ⟨rfl, rfl, rfl, rfl, rfl, rfl, rfl⟩

theorem State.clearDom_logicGone (s : State) (d : Nat) : LogicGone s (s.clearDom d) := by
  by_cases h : 5 ≤ d
  · exact (s.clearDom_bankReset h).logicGone
  · unfold State.clearDom
    split; · exact ⟨rfl, rfl, rfl, rfl, rfl, rfl, rfl⟩
    split; · exact ⟨rfl, rfl, rfl, rfl, rfl, rfl, rfl⟩
    split; · exact ⟨rfl, rfl, rfl, rfl, rfl, rfl, rfl⟩
    split; · exact ⟨rfl, rfl, rfl, rfl, rfl, rfl, rfl⟩
    rw [if_neg (by simp; omega), if_neg (by omega)]
    exact ⟨rfl, rfl, rfl, rfl, rfl, rfl, rfl⟩

/-! ### A domain is switched off, part by part (R20, R21) -/

/-- A port's link goes with its domain. -/
def State.portGone (s : State) (d : Nat) : State :=
  if d = 3 then s.unpowerPort .A else if d = 4 then s.unpowerPort .B else s

/-- The domain's registers and logic go; the crystal's state outlives the core clock. -/
def State.logicGone (s : State) (d : Nat) : State :=
  let xo := s.rd F.CLK_STAT_XO
  let s := (s.dropRegs d).clearDom d
  if d = 2 then s.wr F.CLK_STAT_XO xo else s

/-- Power-good goes. -/
def State.pgGone (s : State) (d : Nat) : State :=
  let pg := s.rd F.PMU_DOM_STAT_PG
  if bit d pg then s.wr F.PMU_DOM_STAT_PG (pg - 2 ^ d) else s

/-- Power-good goes, and with the core clock or TBS the frames. -/
def State.supplyGone (s : State) (d : Nat) : State :=
  let s := s.pgGone d
  let s := { s with pmu := { s.pmu with rising := s.pmu.rising.filter fun x : Nat × Nat => x.1 ≠ d } }
  if d = 2 || d = 5 then { s with ticking := false, gtcRuns := false } else s

/-- The recovered clock goes with port A. -/
def State.recGone (s : State) (d : Nat) : State := if d = 3 then s.recUpdate else s

theorem State.dropDomain_eq (s : State) (d : Nat) :
    s.dropDomain d = (((s.portGone d).logicGone d).supplyGone d).recGone d := rfl

theorem State.portGone_unlinks (s : State) (d : Nat) : Unlinks [Reg.TBS_PTM_STAT] s (s.portGone d) :=
  Unlinks.ite (s.unpowerPort_unlinks _) (Unlinks.ite (s.unpowerPort_unlinks _) (Unlinks.refl s))

theorem State.portGone_other (s : State) {d : Nat} (h3 : d ≠ 3) (h4 : d ≠ 4) : s.portGone d = s := by
  rw [State.portGone, if_neg h3, if_neg h4]

theorem State.logicGone_frame (s : State) (d : Nat) :
    (s.logicGone d).clk = s.clk ∧ (s.logicGone d).ticking = s.ticking ∧ (s.logicGone d).gtcRuns = s.gtcRuns ∧
      (s.logicGone d).pmu = s.pmu ∧ (s.logicGone d).plans = s.plans ∧ (s.logicGone d).ops = s.ops := by
  obtain ⟨-, h1, h2, h3, h4, h5, h6⟩ := (s.dropRegs d).clearDom_logicGone d
  unfold State.logicGone
  extract_lets xo u
  split
  · exact ⟨h1, h2, h3, h4, h5, h6⟩
  · exact ⟨h1, h2, h3, h4, h5, h6⟩

theorem State.logicGone_reg (s : State) {d o : Nat} (h : d = 2 → o ≠ Reg.CLK_STAT) :
    (s.logicGone d).reg o = (s.dropRegs d).reg o := by
  have hr : ((s.dropRegs d).clearDom d).reg o = (s.dropRegs d).reg o := by
    rw [State.reg, ((s.dropRegs d).clearDom_logicGone d).regs]; rfl
  unfold State.logicGone
  extract_lets xo u
  split
  · rename_i e
    rw [State.reg_wr_ne _ _ (h e)]
    exact hr
  · exact hr

theorem State.logicGone_xo (s : State) (d : Nat) : (s.logicGone d).rd F.CLK_STAT_XO = s.rd F.CLK_STAT_XO := by
  by_cases h : d = 2
  · subst h
    rw [State.logicGone, if_pos rfl, State.rd_wr_self _ (by decide)]
    exact Nat.mod_eq_of_lt (s.rd_lt F.CLK_STAT_XO)
  · have hk : domOfKey F.CLK_STAT_XO.off ≠ d := by
      rw [show domOfKey F.CLK_STAT_XO.off = 2 by decide +kernel]
      exact Ne.symm h
    exact State.rd_of_reg ((s.logicGone_reg fun e => absurd e h).trans (s.dropRegs_reg_other hk))

theorem State.pgGone_writes (s : State) (d : Nat) : Writes [Reg.PMU_DOM_STAT] s (s.pgGone d) := by
  unfold State.pgGone
  extract_lets pg
  split
  · exact (Writes.refl _ s).wr _ (by decide)
  · exact Writes.refl _ s

theorem State.pgGone_powered (s : State) (d : Nat) {e : Nat} (he : e ≠ 0) :
    (s.pgGone d).powered e = (s.powered e && Decidable.decide (e ≠ d)) := by
  unfold State.pgGone
  extract_lets pg
  split
  · rename_i h
    rw [State.powered_wr_pg s ((Nat.sub_le _ _).trans_lt (s.rd_lt F.PMU_DOM_STAT_PG)) he, bit_sub_two_pow h, State.powered_eq _ he]
  · rename_i h
    by_cases e' : e = d
    · subst e'; rw [State.powered_eq _ he]; simpa using h
    · simp [e']

theorem State.supplyGone_frame (s : State) (d : Nat) :
    s.supplyGone d = { s with
      regs := (s.pgGone d).regs, pmu := { s.pmu with rising := s.pmu.rising.filter fun x : Nat × Nat => x.1 ≠ d }
      ticking := s.ticking && !(d = 2 || d = 5), gtcRuns := s.gtcRuns && !(d = 2 || d = 5) } := by
  obtain ⟨⟨r, e⟩, -⟩ := s.pgGone_writes d
  unfold State.supplyGone
  rw [e]
  dsimp only
  split
  · rename_i h; simp only [h, Bool.not_true, Bool.and_false]
  · rename_i h; simp only [h, Bool.not_false, Bool.and_true]

theorem State.supplyGone_reg (s : State) (d o : Nat) : (s.supplyGone d).reg o = (s.pgGone d).reg o := by
  rw [State.supplyGone_frame]
  rfl

theorem State.supplyGone_powered (s : State) {d : Nat} (hd : d ≠ 0) (e : Nat) :
    (s.supplyGone d).powered e = (s.powered e && Decidable.decide (e ≠ d)) := by
  by_cases he : e = 0
  · subst he
    rw [State.supplyGone_frame]
    simp [State.powered, hd.symm]
  · rw [← s.pgGone_powered d he, State.powered_eq _ he, State.powered_eq _ he, State.rd_of_reg (s.supplyGone_reg d _)]

/-- The recovered clock's state is all that goes with port A's link. -/
theorem State.recGone_frame (s : State) (d : Nat) : (∃ r c, s.recGone d = { s with regs := r, ckg := c }) ∧
    (∀ o, (d = 3 → o ≠ Reg.CLK_STAT) → (s.recGone d).reg o = s.reg o) ∧ (s.recGone d).rd F.CLK_STAT_XO = s.rd F.CLK_STAT_XO := by
  have idle : (∃ r c, s = { s with regs := r, ckg := c }) ∧ (∀ o, (d = 3 → o ≠ Reg.CLK_STAT) → s.reg o = s.reg o) ∧
    s.rd F.CLK_STAT_XO = s.rd F.CLK_STAT_XO := ⟨⟨_, _, rfl⟩, fun _ _ => rfl, rfl⟩
  have put : ∀ (v : Nat) c, d = 3 → (∃ r c', ({ s.wr F.CLK_STAT_REC v with ckg := c } : State) = { s with regs := r, ckg := c' }) ∧
      (∀ o, (d = 3 → o ≠ Reg.CLK_STAT) → ({ s.wr F.CLK_STAT_REC v with ckg := c } : State).reg o = s.reg o) ∧
      ({ s.wr F.CLK_STAT_REC v with ckg := c } : State).rd F.CLK_STAT_XO = s.rd F.CLK_STAT_XO := fun v c h =>
    ⟨⟨_, _, rfl⟩, fun o ho => State.reg_wr_ne s v (ho h), State.rd_wr_ne s v (.inr (by decide))⟩
  unfold State.recGone State.recUpdate
  dsimp only
  split
  · rename_i h
    split
    · split
      · exact put 1 _ h
      · exact idle
    · split
      · exact put 0 s.ckg h
      · exact idle
  · exact idle

/-! ### The whole of it -/

/-- The registers that switching domain d off may change beside those of the domain: power-good, the records of what it
does to a port, and the clocks' state. -/
def dropReg (d o : Nat) : Bool :=
  o = Reg.PMU_DOM_STAT || (d = 3 || d = 4) && (faultReg o || o = Reg.TBS_PTM_STAT) || (d = 2 || d = 3) && o = Reg.CLK_STAT

/-- From s to t domain d has been switched off (R21). -/
structure Dropped (d : Nat) (s t : State) : Prop where
  clk : t.clk = s.clk
  powered : ∀ e, t.powered e = (s.powered e && Decidable.decide (e ≠ d))
  pmu : t.pmu = { s.pmu with rising := s.pmu.rising.filter fun x : Nat × Nat => x.1 ≠ d }
  off : StaysOff s t
  ticking : t.ticking = (s.ticking && !(d = 2 || d = 5))
  gtcRuns : t.gtcRuns = (s.gtcRuns && !(d = 2 || d = 5))
  kept : ∀ o, domOfKey o ≠ d → dropReg d o = false → t.reg o = s.reg o
  reset : ∀ o, domOfKey o = d → keyRwb o = 0 → isCoeff o = false → o ≠ Reg.PMU_DOM_STAT → o ≠ Reg.CLK_STAT →
    t.reg o = resetWord o
  xo : t.rd F.CLK_STAT_XO = s.rd F.CLK_STAT_XO

theorem State.portGone_reg (s : State) {d o : Nat} (h : dropReg d o = false) : (s.portGone d).reg o = s.reg o := by
  by_cases hd : d = 3 ∨ d = 4
  · simp only [dropReg, Bool.or_eq_false_iff, Bool.and_eq_false_iff, decide_eq_false_iff_not] at h
    obtain ⟨⟨-, h | ⟨h1, h2⟩⟩, -⟩ := h
    · exact absurd hd (by simpa using h)
    · exact (s.portGone_unlinks d).regs o h1 (by simpa using h2)
  · rw [s.portGone_other (by tauto) (by tauto)]

theorem State.domainGone_reg (s : State) {d o : Nat} (h1 : o ≠ Reg.PMU_DOM_STAT) (h2 : d = 2 ∨ d = 3 → o ≠ Reg.CLK_STAT) :
    (((s.logicGone d).supplyGone d).recGone d).reg o = (s.dropRegs d).reg o := by
  rw [(State.recGone_frame _ d).2.1 o fun e => h2 (.inr e), State.supplyGone_reg,
    (State.pgGone_writes _ d).regs o (by simpa using h1), s.logicGone_reg fun e => h2 (.inl e)]

theorem State.dropDomain_powered (s : State) {d : Nat} (hd : d ≠ 0) (e : Nat) :
    (s.dropDomain d).powered e = (s.powered e && Decidable.decide (e ≠ d)) := by
  have hu := s.portGone_unlinks d
  obtain ⟨-, -, -, hpmu, -⟩ := (s.portGone d).logicGone_frame d
  obtain ⟨⟨r, c, hr⟩, hreg, -⟩ := State.recGone_frame (((s.portGone d).logicGone d).supplyGone d) d
  rw [State.dropDomain_eq, State.powered_congr (s := ((s.portGone d).logicGone d).supplyGone d) (by rw [hr])
    (hreg _ fun _ => by decide), State.supplyGone_powered _ hd,
    State.powered_congr (s := s) (by rw [hpmu, hu.pmu]) ?_]
  rw [State.logicGone_reg _ fun _ => by decide]
  have hk : domOfKey Reg.PMU_DOM_STAT ≠ d := by
    rw [show domOfKey Reg.PMU_DOM_STAT = 0 by decide +kernel]
    exact Ne.symm hd
  rw [State.dropRegs_reg_other _ hk]
  exact hu.regs _ (by decide +kernel) (by decide)

theorem State.dropDomain_xo (s : State) (d : Nat) : (s.dropDomain d).rd F.CLK_STAT_XO = s.rd F.CLK_STAT_XO := by
  rw [State.dropDomain_eq, (State.recGone_frame _ d).2.2, State.rd_of_reg (State.supplyGone_reg _ d _),
    State.rd_of_reg ((State.pgGone_writes _ d).regs F.CLK_STAT_XO.off (by decide)), State.logicGone_xo]
  exact State.rd_of_reg ((s.portGone_unlinks d).regs _ (by decide +kernel) (by decide))

theorem State.dropDomain_rest (s : State) (d : Nat) : ∃ r c, s.dropDomain d = { (s.portGone d).logicGone d with
    regs := r, ckg := c
    pmu := { s.pmu with rising := s.pmu.rising.filter fun x : Nat × Nat => x.1 ≠ d }
    ticking := s.ticking && !(d = 2 || d = 5), gtcRuns := s.gtcRuns && !(d = 2 || d = 5) } := by
  have hu := s.portGone_unlinks d
  obtain ⟨-, ht, hg, hpmu, -⟩ := (s.portGone d).logicGone_frame d
  obtain ⟨⟨r, c, hr⟩, -, -⟩ := State.recGone_frame (((s.portGone d).logicGone d).supplyGone d) d
  refine ⟨r, c, ?_⟩
  rw [State.dropDomain_eq, hr, State.supplyGone_frame, hpmu, ht, hg, hu.pmu, hu.ticking, hu.gtcRuns]

theorem State.dropDomain_dropped (s : State) {d : Nat} (hd : d ≠ 0) : Dropped d s (s.dropDomain d) := by
  have hu := s.portGone_unlinks d
  obtain ⟨hclk, -, -, -, hplans, hops⟩ := (s.portGone d).logicGone_frame d
  obtain ⟨r, c, hr⟩ := s.dropDomain_rest d
  refine ⟨?_, s.dropDomain_powered hd, by rw [hr], hu.off.trans (StaysOff.of_plans ?_ ?_), by rw [hr], by rw [hr],
    fun o h1 h2 => ?_, fun o h1 h2 h3 h4 h5 => ?_, s.dropDomain_xo d⟩
  · rw [hr]; exact hclk.trans hu.clk
  · rw [hr]; exact hplans
  · rw [hr]; exact hops
  · rw [State.dropDomain_eq, State.domainGone_reg, State.dropRegs_reg_other _ h1, s.portGone_reg h2]
    · rintro rfl; simp [dropReg] at h2
    · rintro h rfl; simp [dropReg] at h2; tauto
  · rw [State.dropDomain_eq, State.domainGone_reg _ h4 fun _ => h5, State.dropRegs_reg_reset _ h1 h2 h3]

end Domains

end Sys2Proof.Machine

namespace Sys2Proof.Machine

section Loss

variable {s t : State} {xs : List Nat}

/-! ### Detections of one clock (R372) -/

theorem each_detect (l : List Nat) (s : State) : each l (fun s src => s.detect src) s =
    { s with inClk := { s.inClk with trips := s.inClk.trips ++ l.map fun src => ⟨src, false, none, false⟩ } } := by
  induction l generalizing s with
  | nil => simp [each]
  | cons a l ih =>
    change each l (fun s src => s.detect src) (s.detect a) = _
    rw [ih]
    simp [State.detect]

/-- The trips that sources in l, detected in one clock, come to. -/
def tripsOf (l : List Nat) : List TripReq := (l.map fun src => ⟨src, false, none, false⟩).insertionSort fun a b => a.src ≤ b.src

def State.runEach (s : State) (l : List TripReq) : State := each l (fun s x => s.trip x.src x.active x.object x.loc) s

/-- The clock's detections are yet to be made. -/
def State.noTrips (s : State) : State := { s with inClk := { s.inClk with trips := [] } }

theorem State.noTrips_src (s : State) (k : Nat) : s.noTrips.src k = s.src k := rfl
theorem State.noTrips_powered (s : State) (d : Nat) : s.noTrips.powered d = s.powered d := rfl
theorem State.noTrips_unlinks (s : State) : Unlinks xs s s.noTrips :=
  ⟨rfl, rfl, rfl, rfl, rfl, fun _ _ _ => rfl, StaysOff.of_plans rfl rfl⟩

theorem State.finding_detects (s : State) (l : List Nat) : s.finding (each l fun s src => s.detect src) =
    s.noTrips.runEach (tripsOf l) := by
  rw [State.finding, each_detect]
  rfl

theorem State.finding_nothing (s : State) : s.finding (each [] fun s src => s.detect src) = s.noTrips := by
  rw [State.finding_detects]
  rfl

theorem tripsOf_srcs (l : List Nat) : ((tripsOf l).map (·.src)).Perm l := by
  refine ((List.perm_insertionSort _ _).map _).trans ?_
  rw [List.map_map]
  simp [Function.comp_def]

theorem State.runEach_unlinks (s : State) (l : List TripReq) : Unlinks xs s (s.runEach l) :=
  Unlinks.each fun s x => s.trip_unlinks x.src x.active x.object x.loc

theorem State.finding_unlinks (s : State) (l : List Nat) : Unlinks xs s (s.finding (each l fun s src => s.detect src)) := by
  rw [State.finding_detects]
  exact s.noTrips_unlinks.trans (State.runEach_unlinks _ _)

/-- Sources that trip once each in one clock count one each. -/
theorem State.runEach_total (l : List TripReq) (hl : (l.map (·.src)).Nodup) (hk : ∀ x ∈ l, (sourceRow x.src).isSome = true)
    (s : State) (hp : s.powered 1 = true) (k : Nat) : ((s.runEach l).src k).total =
      if k ∈ l.map (·.src) then min 255 ((s.src k).total + 1) else (s.src k).total := by
  induction l generalizing s with
  | nil => simp [State.runEach, each]
  | cons x l ih =>
    have ht := s.trip_tripped x.src x.active x.object x.loc (hk x (by simp)) hp
    have hp' := (ht.powered 1).trans hp
    rw [List.map_cons, List.nodup_cons] at hl
    have e := ih hl.2 (fun y hy => hk y (by simp [hy])) _ hp'
    rw [State.runEach, each] at e ⊢
    rw [List.foldl_cons, e, List.map_cons]
    by_cases hx : k = x.src
    · subst hx
      rw [if_neg hl.1, if_pos (by simp), ht.total]
    · rw [ht.others k hx]
      simp [hx]

theorem State.finding_total (l : List Nat) (hl : l.Nodup) (hk : ∀ x ∈ l, (sourceRow x).isSome = true) (hp : s.powered 1 = true)
    (k : Nat) : ((s.finding (each l fun s src => s.detect src)).src k).total =
      if k ∈ l then min 255 ((s.src k).total + 1) else (s.src k).total := by
  have hperm := tripsOf_srcs l
  rw [State.finding_detects, State.runEach_total (tripsOf l) (hperm.nodup_iff.2 hl)
    (fun x hx => hk _ (hperm.subset (List.mem_map_of_mem hx))) _ ((s.noTrips_powered 1).trans hp)]
  simp only [hperm.mem_iff, State.noTrips_src]

/-! ### Several domains are switched off in turn -/

theorem Dropped.staysOff_ne {d : Nat} (h : Dropped d s t) {e : Nat} (he : e ≠ d) : t.powered e = s.powered e := by
  rw [h.powered]; simp [he]

def State.dropEach (s : State) (l : List Nat) : State := each l (fun s d => s.dropDomain d) s

theorem State.dropEach_cons (s : State) (d : Nat) (l : List Nat) : s.dropEach (d :: l) = (s.dropDomain d).dropEach l := rfl

theorem State.dropEach_powered (l : List Nat) (hl : 0 ∉ l) (s : State) (e : Nat) :
    (s.dropEach l).powered e = (s.powered e && Decidable.decide (e ∉ l)) := by
  induction l generalizing s with
  | nil => simp [State.dropEach, each]
  | cons d l ih =>
    simp only [List.mem_cons, not_or] at hl
    rw [State.dropEach_cons, ih hl.2, s.dropDomain_powered (Ne.symm hl.1)]
    by_cases h : e = d <;> simp [h]

/-- The clock, the crystal's state, and with the core clock or TBS the frames. -/
theorem State.dropEach_clocks (l : List Nat) (hl : 0 ∉ l) (s : State) : (s.dropEach l).clk = s.clk ∧
    (s.dropEach l).rd F.CLK_STAT_XO = s.rd F.CLK_STAT_XO ∧ StaysOff s (s.dropEach l) ∧
    (2 ∈ l ∨ 5 ∈ l ∨ (s.ticking = false ∧ s.gtcRuns = false) →
      (s.dropEach l).ticking = false ∧ (s.dropEach l).gtcRuns = false) := by
  induction l generalizing s with
  | nil => exact ⟨rfl, rfl, StaysOff.refl s, fun h => by
    obtain h := (h.resolve_left List.not_mem_nil).resolve_left List.not_mem_nil
    exact h⟩
  | cons d l ih =>
    simp only [List.mem_cons, not_or] at hl
    have hd := s.dropDomain_dropped (Ne.symm hl.1)
    obtain ⟨h1, h2, h3, h4⟩ := ih hl.2 (s.dropDomain d)
    refine ⟨h1.trans hd.clk, h2.trans hd.xo, hd.off.trans h3, fun h => h4 ?_⟩
    rw [hd.ticking, hd.gtcRuns]
    by_cases hx : d = 2 ∨ d = 5
    · exact .inr (.inr (by rcases hx with rfl | rfl <;> simp))
    · rcases h with h | h | ⟨h, h'⟩
      · exact .inl ((List.mem_cons.1 h).resolve_left fun e => hx (.inl e.symm))
      · exact .inr (.inl ((List.mem_cons.1 h).resolve_left fun e => hx (.inr e.symm)))
      · exact .inr (.inr ⟨by simp [h], by simp [h']⟩)

/-- A register of a domain that stays, which none of the others touches, stays. -/
theorem State.dropEach_kept (l : List Nat) (s : State) {o : Nat}
    (h : ∀ d ∈ l, d ≠ 0 ∧ domOfKey o ≠ d ∧ dropReg d o = false) : (s.dropEach l).reg o = s.reg o := by
  induction l generalizing s with
  | nil => rfl
  | cons d l ih =>
    obtain ⟨h0, h1, h2⟩ := h d (by simp)
    rw [State.dropEach_cons, ih _ fun e he => h e (by simp [he])]
    exact (s.dropDomain_dropped h0).kept o h1 h2

/-- The order in which domains are switched off: each once, and TBS after the ports (R21). -/
def offOrder (a b : Nat) : Bool := a ≠ b && !(a = 5 && (b = 3 || b = 4))

theorem offOrder_lost (d : Fin 16) : (below d.val ++ [d.val]).Pairwise fun a b => offOrder a b = true := by
  revert d
  decide

theorem mem_lost_bounds : ∀ d : Fin 16, d ≠ 0 → ∀ e ∈ below d.val ++ [d.val], e ≠ 0 ∧ e < 16 ∧ (6 ≤ d.val → 6 ≤ e) ∧
    (e = 1 → d = 1) ∧ (d.val ∉ [1, 2, 3, 4, 5] → 6 ≤ e) := by
  decide

/-- A register outside what is touched elsewhere keeps what its own domain's loss left. -/
theorem dropReg_false {d o : Nat} (hf : faultReg o = false) (hs : o ≠ Reg.PMU_DOM_STAT) (hc : o ≠ Reg.CLK_STAT)
    (hp : o = Reg.TBS_PTM_STAT → ¬ (d = 3 ∨ d = 4)) : dropReg d o = false := by
  simp only [dropReg, hf, hs, hc, Bool.false_or, decide_false, Bool.and_false, Bool.or_false, Bool.and_eq_false_iff,
    Bool.or_eq_false_iff, decide_eq_false_iff_not]
  tauto

/-- With a domain its registers without an RWB field read their reset words (R68, R69). -/
theorem State.dropEach_reset (l : List Nat) (hl : l.Pairwise fun a b => offOrder a b = true) (h0 : 0 ∉ l) (s : State) {o : Nat}
    (ho : domOfKey o ∈ l) (hr : keyRwb o = 0) (hi : isCoeff o = false) (hf : faultReg o = false) (hs : o ≠ Reg.PMU_DOM_STAT)
    (hc : o ≠ Reg.CLK_STAT) : (s.dropEach l).reg o = resetWord o := by
  induction l generalizing s with
  | nil => exact absurd ho List.not_mem_nil
  | cons d l ih =>
    rw [List.pairwise_cons] at hl
    simp only [List.mem_cons, not_or] at h0
    rw [State.dropEach_cons]
    by_cases hd : domOfKey o ∈ l
    · exact ih hl.2 h0.2 _ hd
    · have e : domOfKey o = d := (List.mem_cons.1 ho).resolve_right hd
      rw [State.dropEach_kept l _ fun b hb => ?_]
      · exact (s.dropDomain_dropped (Ne.symm h0.1)).reset o e hr hi hs hc
      · refine ⟨fun h => h0.2 (h ▸ hb), fun h => hd (h ▸ hb), dropReg_false hf hs hc fun hp hb' => ?_⟩
        have h5 : d = 5 := by rw [← e, hp]; decide +kernel
        have := hl.1 b hb
        simp only [offOrder, Bool.and_eq_true, Bool.not_eq_true', Bool.and_eq_false_iff, Bool.or_eq_false_iff,
          decide_eq_false_iff_not] at this
        tauto

end Loss

end Sys2Proof.Machine

namespace Sys2Proof.Machine

section Loss

variable {s t : State} {xs : List Nat}

/-! ### The loss of a domain (R20, R22, R391, R393) -/

/-- The domains that go with domain d, children first. -/
def lostBy (s : State) (d : Nat) : List Nat := (below d ++ [d]).filter s.powered

theorem mem_lostBy (s : State) (d e : Nat) : e ∈ lostBy s d ↔ s.powered e = true ∧ (e = d ∨ e ∈ below d) := by
  simp only [lostBy, List.mem_filter, List.mem_append, List.mem_singleton]
  tauto

/-- What the loss's sources come to. -/
def State.lossTrips (s : State) (l : List Nat) : State :=
  s.finding (each (l.filterMap (lossSource s)) fun s src => s.detect src)

/-- The axes that a loss leaves without drive are off. -/
def State.lossStops (s : State) (l : List Nat) : State :=
  each (lossAxes s l) (fun s n => s.turnOff n (.fault (64 + 16 * (bankOfAxis n).val + 12))) s

theorem exec_domainPowerGoodLost {d : Fin 16} (hp : s.powered d.val = true) (hd : d ≠ 0) :
    exec (.domainPowerGoodLost d) s =
      .next (State.arranged s (((s.lossTrips (lostBy s d.val)).lossStops (lostBy s d.val)).dropEach (lostBy s d.val)).fcsStat) := by
  change execDomainPowerGoodLost d s = _
  unfold execDomainPowerGoodLost
  rw [if_neg (by simp [hp, hd])]
  rfl

theorem Reaction.unlinks' (h : Reaction s t) (ho : StaysOff s t) : Unlinks xs s t := by
  have e := h.rest
  exact ⟨(congrArg State.clk e :), (congrArg State.ticking e :), (congrArg State.gtcRuns e :), (congrArg State.pmu e :),
    (congrArg State.ckg e :), fun o h1 _ => h.regs o h1, ho⟩

theorem State.lossStops_unlinks (s : State) (l : List Nat) : Unlinks xs s (s.lossStops l) :=
  Unlinks.each fun s n => (State.turnOff_reacts s n _ (Reaction.refl s)).unlinks' (s.turnOff_staysOff n _)

theorem State.lossStops_src (s : State) (l : List Nat) (k : Nat) : (s.lossStops l).src k = s.src k :=
  Reaction.src (Reaction.each (fun _ _ h => State.turnOff_reacts _ _ _ h) (Reaction.refl s)) k

/-- The axes of a bank without its analog domain are off. -/
theorem State.lossStops_off (s : State) {l : List Nat} {n : Axis} (h : 12 + (bankOfAxis n).val ∈ l) :
    ((s.lossStops l).plan n).st = .off := by
  by_cases he : s.energised n = true
  · refine State.turnOff_each_off (lossAxes s l) _ s (List.mem_filter.2 ⟨List.mem_finRange n, ?_⟩)
    simp [h, he]
  · exact (s.lossStops_unlinks (xs := []) l).off.off n (by simpa [State.energised] using he)

theorem State.lossTrips_unlinks (s : State) (l : List Nat) : Unlinks xs s (s.lossTrips l) := s.finding_unlinks _

theorem bankOfDom_val (e : Nat) : (bankOfDom e).val = e % 4 := rfl

/-- The sources of a loss, domain by domain (R391). -/
theorem lossSource_eq (s : State) {e k : Nat} (he : e < 16) : lossSource s e = some k ↔
    ∃ b : Bank, s.bankEnergised b = true ∧ ((e = 8 + b.val ∧ k = 74 + 16 * b.val) ∨ (e = 12 + b.val ∧ k = 76 + 16 * b.val)) := by
  have hb : ∀ b : Bank, e = 8 + b.val ∨ e = 12 + b.val → bankOfDom e = b := fun b h => Fin.ext (by
    rw [bankOfDom_val]; omega)
  unfold lossSource
  constructor
  · intro h
    split at h
    · rename_i hc
      simp only [Bool.and_eq_true, decide_eq_true_eq] at hc
      refine ⟨bankOfDom e, hc.2, ?_⟩
      simp only [Option.some.injEq, bankOfDom_val] at h ⊢
      split at h <;> omega
    · cases h
  · rintro ⟨b, h1, h2⟩
    rw [hb b (h2.imp And.left And.left), if_pos (by simp [h1]; omega)]
    rcases h2 with ⟨rfl, rfl⟩ | ⟨rfl, rfl⟩
    · rw [if_neg (by omega)]; exact congrArg some (by omega)
    · rw [if_pos (by omega)]; exact congrArg some (by omega)

theorem mem_lostBy_lt {d : Fin 16} (hd : d ≠ 0) {e : Nat} (h : e ∈ lostBy s d.val) : e ≠ 0 ∧ e < 16 := by
  obtain ⟨h1, h2, -⟩ := mem_lost_bounds d hd e (List.mem_of_mem_filter h)
  exact ⟨h1, h2⟩

theorem lostBy_order (s : State) (d : Fin 16) : (lostBy s d.val).Pairwise fun a b => offOrder a b = true :=
  (offOrder_lost d).filter _

/-- A source of the loss is raised once (R391). -/
theorem lossSources_nodup (s : State) {d : Fin 16} (hd : d ≠ 0) : ((lostBy s d.val).filterMap (lossSource s)).Nodup := by
  rw [List.Nodup, List.pairwise_filterMap]
  refine (lostBy_order s d).imp_of_mem fun {a b} ha hb hab k hk k' hk' e => ?_
  obtain ⟨x, -, hx⟩ := (lossSource_eq s (mem_lostBy_lt hd ha).2).1 hk
  obtain ⟨y, -, hy⟩ := (lossSource_eq s (mem_lostBy_lt hd hb).2).1 hk'
  have hne : a ≠ b := fun h => by simp [offOrder, h] at hab
  have := x.isLt
  have := y.isLt
  omega

theorem lossSources_rows (s : State) {d : Fin 16} (hd : d ≠ 0) :
    ∀ k ∈ (lostBy s d.val).filterMap (lossSource s), (sourceRow k).isSome = true := by
  have rows : ∀ b : Bank, (sourceRow (74 + 16 * b.val)).isSome = true ∧ (sourceRow (76 + 16 * b.val)).isSome = true := by decide
  intro k hk
  obtain ⟨e, he, hk⟩ := List.mem_filterMap.1 hk
  obtain ⟨b, -, ⟨-, rfl⟩ | ⟨-, rfl⟩⟩ := (lossSource_eq s (mem_lostBy_lt hd he).2).1 hk
  · exact (rows b).1
  · exact (rows b).2

/-- Which of a bank's two sources the loss raises (R22, R391). -/
theorem mem_lossSources (s : State) {d : Fin 16} (hd : d ≠ 0) (b : Bank) {x : Nat × Nat} (hx : x ∈ [(74, 8), (76, 12)]) :
    x.1 + 16 * b.val ∈ (lostBy s d.val).filterMap (lossSource s) ↔ x.2 + b.val ∈ lostBy s d.val ∧ s.bankEnergised b = true := by
  have hxv : x = (74, 8) ∨ x = (76, 12) := by simpa using hx
  rw [List.mem_filterMap]
  constructor
  · rintro ⟨e, he, hk⟩
    obtain ⟨c, hc, h⟩ := (lossSource_eq s (mem_lostBy_lt hd he).2).1 hk
    have hcb : c = b ∧ e = x.2 + b.val := by
      rcases hxv with rfl | rfl
      · exact ⟨Fin.ext (by dsimp only at h; omega), by dsimp only at h ⊢; omega⟩
      · exact ⟨Fin.ext (by dsimp only at h; omega), by dsimp only at h ⊢; omega⟩
    exact ⟨hcb.2 ▸ he, hcb.1 ▸ hc⟩
  · rintro ⟨he, hb⟩
    refine ⟨_, he, (lossSource_eq s (mem_lostBy_lt hd he).2).2 ⟨b, hb, ?_⟩⟩
    rcases hxv with rfl | rfl
    · exact .inl ⟨rfl, rfl⟩
    · exact .inr ⟨rfl, rfl⟩

/-- What the loss keeps of everything that no report reaches. -/
theorem State.shows_unlinks (a s : State) : Unlinks xs s (State.arranged a s.fcsStat) :=
  (State.fcsStat_reports.unlinks faultReg_of_reportReg).trans
    ((State.arranged_reports (R := reportReg) a).unlinks faultReg_of_reportReg)

theorem Unlinks.powered (h : Unlinks [] s t) (d : Nat) : t.powered d = s.powered d :=
  State.powered_congr (by rw [h.pmu]) (h.regs _ (by decide +kernel) List.not_mem_nil) d

/-- Switching domains off between reactions: what holds of each domain then. -/
theorem lost_dropped {d : Fin 16} {a t : State} (hd : d ≠ 0) {l : List Nat} (hl : l = lostBy s d.val) (ha : Unlinks [] s a)
    (hc : Unlinks [] (a.dropEach l) t) :
    t.clk = s.clk ∧ (∀ e, t.powered e = (s.powered e && Decidable.decide (e ∉ l))) ∧
      (∀ o, domOfKey o ∈ l → keyRwb o = 0 → isCoeff o = false → faultReg o = false → o ≠ Reg.CLK_STAT → t.reg o = resetWord o) ∧
      (6 ≤ d.val → ∀ o, domOfKey o ∉ l → faultReg o = false → o ≠ Reg.PMU_DOM_STAT → t.reg o = s.reg o) ∧
      t.rd F.CLK_STAT_XO = s.rd F.CLK_STAT_XO ∧ StaysOff a t ∧
      (2 ∈ l ∨ 5 ∈ l → t.ticking = false ∧ t.gtcRuns = false) := by
  have h0 : 0 ∉ l := fun h => (mem_lostBy_lt hd (hl ▸ h)).1 rfl
  obtain ⟨k1, k2, k3, k4⟩ := State.dropEach_clocks l h0 a
  have xo {u v : State} (h : Unlinks [] u v) : v.rd F.CLK_STAT_XO = u.rd F.CLK_STAT_XO :=
    State.rd_of_reg (h.regs _ (by decide +kernel) List.not_mem_nil)
  refine ⟨hc.clk.trans (k1.trans ha.clk), fun e => ?_, fun o h1 h2 h3 h4 h5 => ?_, fun h6 o h1 h2 h3 => ?_,
    (xo hc).trans (k2.trans (xo ha)), k3.trans hc.off, fun h => ?_⟩
  · rw [hc.powered, State.dropEach_powered l h0, ha.powered]
  · rw [hc.regs o h4 List.not_mem_nil]
    refine State.dropEach_reset l (hl ▸ lostBy_order s d) h0 a h1 h2 h3 h4 ?_ h5
    rintro rfl
    exact h0 (by rwa [show domOfKey Reg.PMU_DOM_STAT = 0 by decide +kernel] at h1)
  · rw [hc.regs o h2 List.not_mem_nil, State.dropEach_kept l a fun e he => ?_, ha.regs o h2 List.not_mem_nil]
    have hb := (mem_lost_bounds d hd e (List.mem_of_mem_filter (hl ▸ he))).2.2.1 h6
    refine ⟨by omega, fun hx => h1 (hx ▸ he), ?_⟩
    have e2 : e ≠ 2 := by omega
    have e3 : e ≠ 3 := by omega
    have e4 : e ≠ 4 := by omega
    simp [dropReg, h3, e2, e3, e4]
  · rw [hc.ticking, hc.gtcRuns]
    exact k4 (by tauto)

/-! ### The sequencer's sources -/

theorem State.src_of_fcs (h : t.fcs = s.fcs) (k : Nat) : t.src k = s.src k := by
  unfold State.src
  rw [h]

theorem State.logicGone_bank (s : State) {d : Nat} (h : 5 ≤ d) : BankReset (s.dropRegs d) (s.logicGone d) := by
  unfold State.logicGone
  extract_lets xo u
  rw [if_neg (by omega)]
  exact (s.dropRegs d).clearDom_bankReset h

theorem State.dropDomain_fcs (s : State) {d : Nat} (h : 5 ≤ d) : (s.dropDomain d).fcs = s.fcs := by
  obtain ⟨r, c, e⟩ := s.dropDomain_rest d
  obtain ⟨_, _, _, _, _, _, e'⟩ := (s.portGone d).logicGone_bank h
  rw [e, s.portGone_other (by omega) (by omega)]
  rw [s.portGone_other (by omega) (by omega)] at e'
  rw [e']
  rfl

theorem State.dropDomain_one_fcs (s : State) : (s.dropDomain 1).fcs = FcsS.init := by
  obtain ⟨r, c, e⟩ := s.dropDomain_rest 1
  rw [e]
  rfl

theorem State.dropEach_fcs (l : List Nat) (h : ∀ d ∈ l, 5 ≤ d) (s : State) : (s.dropEach l).fcs = s.fcs := by
  induction l generalizing s with
  | nil => rfl
  | cons d l ih =>
    rw [State.dropEach_cons, ih (fun e he => h e (by simp [he])), s.dropDomain_fcs (h d (by simp))]

theorem State.fcsStat_fcs (s : State) : s.fcsStat.fcs = s.fcs := by
  unfold State.fcsStat
  extract_lets u
  have hu : u.fcs = s.fcs := by unfold u; rw [State.wrB_eq, State.wrB_eq, State.wr_fcs, State.wr_fcs]
  split
  · rw [State.wr_fcs, State.wr_fcs, hu]
  · exact hu

/-- Without its domain the sequencer holds nothing (R69). -/
theorem State.dropEach_one (a s : State) (l : List Nat) : (State.arranged a (s.dropEach (l ++ [1])).fcsStat).fcs = FcsS.init := by
  have h : s.dropEach (l ++ [1]) = (s.dropEach l).dropDomain 1 := each_append ..
  rw [h]
  exact (State.fcsStat_fcs _).trans (State.dropDomain_one_fcs _)

theorem lostBy_one (h : s.powered 1 = true) : ∃ l, lostBy s 1 = l ++ [1] :=
  ⟨(below 1).filter s.powered, by simp [lostBy, h]⟩

/-- The sources of a bank's loss count it once, and no other source counts (R391). -/
theorem loss_totals {d : Fin 16} (hd : d ≠ 0) (hp : s.powered 1 = true) (h6 : d.val ∉ [1, 2, 3, 4, 5]) (k : Nat) :
    ((State.arranged s (((s.lossTrips (lostBy s d.val)).lossStops (lostBy s d.val)).dropEach (lostBy s d.val)).fcsStat).src k).total =
      if k ∈ (lostBy s d.val).filterMap (lossSource s) then min 255 ((s.src k).total + 1) else (s.src k).total := by
  have hl : ∀ e ∈ lostBy s d.val, 5 ≤ e := fun e he => by
    have := (mem_lost_bounds d hd e (List.mem_of_mem_filter he)).2.2.2.2 h6
    omega
  have hf : (State.arranged s (((s.lossTrips (lostBy s d.val)).lossStops (lostBy s d.val)).dropEach (lostBy s d.val)).fcsStat).fcs =
      ((s.lossTrips (lostBy s d.val)).lossStops (lostBy s d.val)).fcs :=
    (State.fcsStat_fcs _).trans (State.dropEach_fcs _ hl _)
  rw [State.src_of_fcs hf, State.lossStops_src]
  exact State.finding_total _ (lossSources_nodup s hd) (lossSources_rows s hd) hp k

/-! ### Links -/

/-- A port without its domain has no link (R121). -/
theorem linkUp_of_reset {p : Port} (h : t.reg (portOff p Reg.HIF_PORT_STAT) = resetWord (portOff p Reg.HIF_PORT_STAT)) :
    t.linkUp p = false := by
  have hw : ∀ p : Port, (onPort p F.HIF_PORT_STAT_LINK_UP).get (resetWord (portOff p Reg.HIF_PORT_STAT)) = 0 := by
    intro p
    cases p <;> decide +kernel
  rw [State.linkUp, State.flag, State.rd, show (onPort p F.HIF_PORT_STAT_LINK_UP).off = portOff p Reg.HIF_PORT_STAT from rfl, h, hw]
  rfl

theorem portStat_dom (p : Port) : domOfKey (portOff p Reg.HIF_PORT_STAT) = 3 + p.num ∧ keyRwb (portOff p Reg.HIF_PORT_STAT) = 0 ∧
    isCoeff (portOff p Reg.HIF_PORT_STAT) = false ∧ faultReg (portOff p Reg.HIF_PORT_STAT) = false ∧
    portOff p Reg.HIF_PORT_STAT ≠ Reg.CLK_STAT := by
  cases p <;> decide +kernel

/-! ### The debug domain alone (R20) -/

theorem lostBy_seven (h : s.powered 7 = true) : lostBy s 7 = [7] := by
  simp [lostBy, below, h]

theorem State.clearDom_seven (s : State) : s.clearDom 7 = s := rfl

/-- Switching the debug domain off takes its registers and power-good alone. -/
theorem State.dropDomain_seven (s : State) : ∃ r lo,
    s.dropDomain 7 = { s with regs := r, loHeld := lo, pmu := { s.pmu with rising := s.pmu.rising.filter fun x : Nat × Nat => x.1 ≠ 7 } } := by
  have hl : s.logicGone 7 = s.dropRegs 7 := by
    rw [State.logicGone, State.clearDom_seven]
    exact if_neg (by decide)
  refine ⟨((s.dropRegs 7).pgGone 7).regs, (s.dropRegs 7).loHeld, ?_⟩
  rw [State.dropDomain_eq, s.portGone_other (by decide) (by decide), hl, State.recGone, if_neg (by decide), State.supplyGone_frame]
  simp only [State.dropRegs, Bool.and_true, show ((7 = 2 || 7 = 5 : Bool)) = false from rfl, Bool.not_false]

theorem State.fcsStat_regs (s : State) : ∃ r, s.fcsStat = { s with regs := r } := by
  unfold State.fcsStat
  extract_lets u
  have hu : Writes [Reg.FCS_STAT] s u := ((Writes.refl _ s).wr _ (by decide)).wr _ (by decide)
  split
  · exact ((hu.wr _ (by decide)).wr _ (by decide)).shape
  · exact hu.shape

theorem seven_arranged {u v : State} {x : List (Nat × Nat)} (hu : ∃ r lo, u = { s.noTrips with
    regs := r, loHeld := lo, pmu := { s.noTrips.pmu with rising := x } }) (hv : ∃ r, v = { u with regs := r }) :
    State.arranged s v = { s with regs := (State.arranged s v).regs, loHeld := (State.arranged s v).loHeld,
                                  inClk := (State.arranged s v).inClk,
                                  pmu := { s.pmu with rising := (State.arranged s v).pmu.rising } } := by
  obtain ⟨r, lo, hu⟩ := hu
  obtain ⟨r', hv⟩ := hv
  rw [hu] at hv
  rw [State.arranged_quiet s v (by rw [hv]; rfl) (by rw [hv]; rfl) (by rw [hv]; rfl), hv]
  rfl

/-- The loss of the debug domain touches nothing else. -/
theorem lossSeven (h : s.powered 7 = true) {t : State}
    (ht : t = State.arranged s (((s.lossTrips (lostBy s 7)).lossStops (lostBy s 7)).dropEach (lostBy s 7)).fcsStat) :
    t = { s with regs := t.regs, loHeld := t.loHeld, inClk := t.inClk, pmu := { s.pmu with rising := t.pmu.rising } } := by
  have htrips : s.lossTrips [7] = s.noTrips := s.finding_nothing
  have hstops : s.noTrips.lossStops [7] = s.noTrips := by
    have hx : lossAxes s.noTrips [7] = [] := by
      refine List.filter_eq_nil_iff.2 fun n _ => ?_
      simp
      omega
    rw [State.lossStops, hx]
    rfl
  rw [lostBy_seven h, htrips, hstops, State.dropEach_cons] at ht
  rw [ht]
  exact seven_arranged s.noTrips.dropDomain_seven (s.noTrips.dropDomain 7).fcsStat_regs

end Loss

/-- Settles O12: the loss's detections and stops, and then the domains in their order. -/
theorem lostDomainsAreOff : Obligations.LostDomainsAreOff := by
  intro s d hp hd lost
  have hlost : ∀ e, lost e ↔ e ∈ lostBy s d.val := fun e => (mem_lostBy s d.val e).symm
  have ha : Unlinks [] s ((s.lossTrips (lostBy s d.val)).lossStops (lostBy s d.val)) :=
    (s.lossTrips_unlinks _).trans (State.lossStops_unlinks _ _)
  obtain ⟨hclk, hpow, hreset, hkept, hxo, hoff, htick⟩ := lost_dropped hd rfl ha (State.shows_unlinks s _)
  refine ⟨_, exec_domainPowerGoodLost hp hd, hclk, fun e h => ?_, fun e h => ?_, fun o h => hreset o ((hlost _).1 h),
    fun h6 o h => hkept h6 o (mt (hlost _).2 h), hxo, fun h7 => ?_, fun h1 => ?_, fun h3 => ?_, fun h4 => ?_,
    fun h => htick (h.imp (hlost 2).1 (hlost 5).1), fun n h => ?_, fun b h1 h6 x hx => ?_⟩
  case refine_1 => rw [hpow, decide_eq_false (not_not.2 ((hlost e).1 h)), Bool.and_false]
  case refine_2 => rw [hpow, decide_eq_true (mt (hlost e).2 h), Bool.and_true]
  case refine_3 =>
    rw [h7] at hp
    exact lossSeven hp (by rw [h7])
  case refine_4 =>
    have h := (hlost 1).1 h1
    have e : d = 1 := (mem_lost_bounds d hd 1 (List.mem_of_mem_filter h)).2.2.2.1 rfl
    subst e
    obtain ⟨l, hl⟩ := lostBy_one hp
    change (State.arranged s (((s.lossTrips (lostBy s 1)).lossStops (lostBy s 1)).dropEach (lostBy s 1)).fcsStat).fcs = _
    rw [hl]
    exact State.dropEach_one _ _ _
  case refine_5 =>
    obtain ⟨k1, k2, k3, k4, k5⟩ := portStat_dom .A
    exact linkUp_of_reset (hreset _ (by rw [k1]; exact (hlost 3).1 h3) k2 k3 k4 k5)
  case refine_6 =>
    obtain ⟨k1, k2, k3, k4, k5⟩ := portStat_dom .B
    exact linkUp_of_reset (hreset _ (by rw [k1]; exact (hlost 4).1 h4) k2 k3 k4 k5)
  case refine_7 =>
    have := hoff.off n (State.lossStops_off _ ((hlost _).1 h))
    simp [State.energised, this]
  case refine_8 =>
    dsimp only
    rw [loss_totals hd h1 h6]
    simp only [mem_lossSources s hd b hx, hlost]

end Sys2Proof.Machine

namespace Sys2Proof.Machine

section Restart

variable {s t : State}

/-! ### Quadrature counters restart (R193, R321) -/

theorem Writes.wr64 {l : List Nat} (h : Writes l s t) {o : Nat} (v : Nat) (ho : o ∈ l ∧ o + 4 ∈ l) : Writes l s (t.wr64 o v) :=
  (h.setReg _ ho.1).setReg _ ho.2

/-- The registers that restarting the counter of axis n writes. -/
def quadRegs (n : Axis) : List Nat :=
  [Reg.FBK_ADJ_LO n, Reg.FBK_ADJ_LO n + 4, Reg.FBK_POS_LO n, Reg.FBK_POS_LO n + 4, Reg.FBK_STAT n]

/-- From s to t the counters of the axes in l have restarted, and nothing else has changed. -/
structure Restarted (l : List Axis) (s t : State) : Prop where
  shape : ∃ r f p, t = { s with regs := r, fbks := f, plans := p }
  regs : ∀ o, (∀ n ∈ l, o ∉ quadRegs n) → t.reg o = s.reg o
  shown : ∀ n ∈ l, (t.fbk n).u = 0 ∧ (t.fbk n).eLast = none ∧ t.rd (F.FBK_STAT_VALID n) = 1
  homed : ∀ n, t.plan n = { s.plan n with homed := (s.plan n).homed && Decidable.decide (n ∉ l) }
  others : ∀ n, n ∉ l → t.fbk n = s.fbk n

theorem FBK_STAT_not_mem_quadRegs {n m : Axis} (h : n ≠ m) : Reg.FBK_STAT n ∉ quadRegs m := by
  have hn := n.isLt
  have hm := m.isLt
  have h' : n.val ≠ m.val := fun e => h (Fin.ext e)
  simp only [quadRegs, Reg.FBK_STAT, Reg.FBK_ADJ_LO, Reg.FBK_POS_LO, List.mem_cons, List.not_mem_nil, or_false, not_or]
  omega

theorem Restarted.refl (s : State) : Restarted [] s s :=
  ⟨⟨_, _, _, rfl⟩, fun _ _ => rfl, fun n hn => absurd hn List.not_mem_nil, fun n => by simp, fun _ _ => rfl⟩

theorem Restarted.trans {n : Axis} {l : List Axis} {a b c : State} (h : Restarted [n] a b) (k : Restarted l b c) :
    Restarted (n :: l) a c := by
  obtain ⟨⟨r, f, p, rfl⟩, hr, hs, hh, ho⟩ := h
  obtain ⟨⟨r', f', p', rfl⟩, kr, ks, kh, ko⟩ := k
  refine ⟨⟨_, _, _, rfl⟩, fun o h => ?_, fun m hm => ?_, fun m => ?_, fun m hm => ?_⟩
  · rw [kr o fun x hx => h x (by simp [hx]), hr o fun x hx => h x (by simp [List.mem_singleton.1 hx])]
  · by_cases hl : m ∈ l
    · exact ks m hl
    · have e : m = n := (List.mem_cons.1 hm).resolve_right hl
      subst e
      obtain ⟨h1, h2, h3⟩ := hs m (by simp)
      rw [ko m hl, State.rd_of_reg (kr (F.FBK_STAT_VALID m).off fun x hx => FBK_STAT_not_mem_quadRegs fun e => hl (e ▸ hx))]
      exact ⟨h1, h2, h3⟩
  · rw [kh m, hh m]
    simp only [List.mem_cons, List.not_mem_nil, or_false, Bool.and_assoc, ← Bool.decide_and, not_or]
  · simp only [List.mem_cons, not_or] at hm
    rw [ko m hm.2, ho m (by simpa using hm.1)]

theorem State.setAdj_writes (s : State) (n : Axis) (u x : Int) : Writes (quadRegs n) s (s.setAdj n u x) := by
  unfold State.setAdj State.wrS64
  exact ((Writes.refl _ s).wr64 _ (by simp [quadRegs])).wr64 _ (by simp [quadRegs])

theorem Writes.fbk {l : List Nat} (h : Writes l s t) (n : Axis) : t.fbk n = s.fbk n := by
  obtain ⟨⟨r, rfl⟩, -⟩ := h
  rfl

theorem Writes.plan {l : List Nat} (h : Writes l s t) (n : Axis) : t.plan n = s.plan n := by
  obtain ⟨⟨r, rfl⟩, -⟩ := h
  rfl

/-- The steps of a restart: the counter's state, its offset, the homing, the position. -/
theorem Restarted.of_steps {n : Axis} {a b c d : State} {x : FbkS} (y : Rat) (hx : x.u = 0 ∧ x.eLast = none)
    (ha : a = s.setFbk n x) (hb : Writes (quadRegs n) a b)
    (hc : c = (b.setPlan n { a.plan n with homed := false }).setFbk n
      { (b.setPlan n { a.plan n with homed := false }).fbk n with xPrev := y })
    (hd : Writes (quadRegs n) c d) (hv : d.rd (F.FBK_STAT_VALID n) = 1) : Restarted [n] s d := by
  have hfa : ∀ m, m ≠ n → a.fbk m = s.fbk m := fun m e => by rw [ha, State.fbk_setFbk_ne _ _ e]
  have hpa : ∀ m, a.plan m = s.plan m := fun m => by rw [ha]; rfl
  have hfb : ∀ m, (b.setPlan n { a.plan n with homed := false }).fbk m = a.fbk m := fun m => hb.fbk m
  refine ⟨?_, fun o ho => ?_, fun m hm => ?_, fun m => ?_, fun m hm => ?_⟩
  · obtain ⟨⟨r, rfl⟩, -⟩ := hb
    obtain ⟨⟨r', rfl⟩, -⟩ := hd
    subst ha hc
    exact ⟨_, _, _, rfl⟩
  · have ho := ho n (by simp)
    rw [hd.regs o ho, hc]
    exact (hb.regs o ho).trans (by rw [ha]; rfl)
  · obtain rfl : m = n := by simpa using hm
    rw [hd.fbk, hc, State.fbk_setFbk_self, hfb, ha, State.fbk_setFbk_self]
    exact ⟨hx.1, hx.2, hv⟩
  · rw [hd.plan, hc]
    by_cases e : m = n
    · subst e
      exact (State.plan_setPlan_self _ _ _).trans (by rw [hpa]; simp)
    · exact (State.plan_setPlan_ne _ _ e).trans (by rw [hb.plan, hpa]; simp [e])
  · have e : m ≠ n := by simpa using hm
    rw [hd.fbk, hc, State.fbk_setFbk_ne _ _ e, hfb, hfa m e]

theorem State.restartQuad_restarted (s : State) (n : Axis) : Restarted [n] s (s.restartQuad n) := by
  unfold State.restartQuad
  extract_lets _ a _ b x step _ c
  refine Restarted.of_steps (a := a) (b := a.setAdj n 0 (refNow a n).1.floor) (c := c) ((b.fbk n).xPrev + step) ⟨rfl, rfl⟩ rfl
    (a.setAdj_writes n _ _) rfl (((Writes.refl _ c).wr64 _ ?_).wr _ ?_) ?_
  · simp [quadRegs]
  · simp [quadRegs, F.FBK_STAT_VALID]
  · rw [State.rd_wr_self _ (by rfl)]
    rfl

theorem State.restartQuad_each (l : List Axis) (s : State) : Restarted l s (each l (fun s n => s.restartQuad n) s) := by
  induction l generalizing s with
  | nil => exact Restarted.refl s
  | cons n l ih =>
    rw [each_cons]
    exact (s.restartQuad_restarted n).trans (ih _)

end Restart

section PowerUp

variable {s : State}

/-! ### A domain reaches power-good (R394) -/

/-- Power-good, once the supply has risen. -/
def State.poweredUp (s : State) (d : Nat) : State :=
  State.setPg { s with pmu := { s.pmu with rising := s.pmu.rising.filter fun x : Nat × Nat => x.1 ≠ d } } d

theorem State.poweredUp_writes (s : State) (d : Nat) : Writes [Reg.PMU_DOM_STAT]
    { s with pmu := { s.pmu with rising := s.pmu.rising.filter fun x : Nat × Nat => x.1 ≠ d } } (s.poweredUp d) :=
  State.setPg_writes _ d

theorem State.poweredUp_reg (s : State) (d : Nat) {o : Nat} (h : o ≠ Reg.PMU_DOM_STAT) : (s.poweredUp d).reg o = s.reg o :=
  (s.poweredUp_writes d).regs o (by simpa using h)

theorem State.poweredUp_powered (s : State) {d : Nat} (hd : d < 16) (h0 : d ≠ 0) (e : Nat) :
    (s.poweredUp d).powered e = (s.powered e || Decidable.decide (e = d)) := State.setPg_powered _ hd h0

theorem allRisen {u : State} {d c : Nat} (r : List (Nat × Word)) (hu : u.pmu = s.pmu) (h : s.pmu.rising = [(d, c)]) :
    ({ u with pmu := { u.pmu with rising := u.pmu.rising.filter fun x : Nat × Nat => x.1 ≠ d }, regs := r } : State) =
      { u with regs := r, pmu := { s.pmu with rising := [] } } := by
  rw [hu, h]
  simp

/-- Where one domain alone is on its way, none is once it has risen. -/
theorem State.poweredUp_rest {d c : Nat} (n : Nat) (h : s.pmu.rising = [(d, c)]) : ∃ r,
    (s.advTo n).poweredUp d = { s.advTo n with regs := r, pmu := { s.pmu with rising := [] } } := by
  obtain ⟨⟨r, e⟩, -⟩ := (s.advTo n).poweredUp_writes d
  exact ⟨r, e.trans (allRisen r ((s.advTo_pmu n).trans rfl) h)⟩

theorem exec_domainPowered {d : Fin 16} {cals : List (Bank × Fin 5 × SliceCal)} {offs : List (Coil × BitVec 16)}
    {items : Option Bool} {c : Nat} (h : s.pmu.rising = [(d.val, c)]) (hp : (parents d.val).all s.powered = true) (hd : d.val < 8) :
    exec (.domainPowered d cals offs items) s = .next ((s.advTo (c + usClk 20)).poweredUp d.val) := by
  change execDomainPowered d cals offs items s = _
  unfold execDomainPowered
  rw [h, List.find?_cons_of_pos (by simp)]
  dsimp only
  rw [if_neg (show ¬ (!(parents d.val).all s.powered) = true by rw [hp]; decide), if_pos hd]
  unfold State.poweredUp
  rfl

theorem exec_domainPowered_digital {d : Fin 16} {cals : List (Bank × Fin 5 × SliceCal)} {offs : List (Coil × BitVec 16)}
    {items : Option Bool} {c : Nat} {b : Bank} (h : s.pmu.rising = [(d.val, c)]) (hp : (parents d.val).all s.powered = true)
    (hd : d.val = 8 + b.val) :
    exec (.domainPowered d cals offs items) s = .next (
      each ((axesOfBank b).filter fun n => isQuad ((s.advTo (c + usClk 20)).poweredUp d.val) n) (fun s n => s.restartQuad n)
        ((s.advTo (c + usClk 20)).poweredUp d.val)) := by
  have hb : ∀ h, (⟨(d.val - 8) % 4, h⟩ : Bank) = b := fun _ => Fin.ext (by dsimp only; omega)
  change execDomainPowered d cals offs items s = _
  unfold execDomainPowered
  rw [h, List.find?_cons_of_pos (by simp)]
  dsimp only
  rw [if_neg (show ¬ (!(parents d.val).all s.powered) = true by rw [hp]; decide), if_neg (show ¬ d.val < 8 by omega),
    if_pos (show d.val < 12 by omega), hb]
  unfold State.poweredUp
  rfl

/-- A bank's rotation starts, after a FULL calibration where it has no coefficients (R298). -/
def State.rotates (s : State) (cals : List (Bank × Fin 5 × SliceCal)) (offs : List (Coil × BitVec 16)) (b : Bank) (full : Bool) :
    State :=
  let s := if full then fullBank cals offs s b else s.setAdc b { s.adc b with calAt := s.clk, auxAt := s.clk }
  s.setGdr b { s.gdr b with markAt := s.clk }

/-- The items of a bank that was untested have been run (R414). -/
def State.bankTested (s : State) (b : Bank) (untested : Bool) (items : Option Bool) : State :=
  if untested then
    match items with
    | some true => s.wr F.LCS_ST_RES_UNTESTED (s.rd F.LCS_ST_RES_UNTESTED - 2 ^ b.val)
    | some false => (s.wr F.LCS_ST_RES_BANK (Nat.lor (s.rd F.LCS_ST_RES_BANK) (2 ^ b.val))).enterHeld 1 (76 + 16 * b.val)
    | none => s
  else s

/-- How long a bank analog domain takes (R298, R394, R414). -/
def analogWait (full untested : Bool) (items : Option Bool) : Nat :=
  usClk 20 + (if full then 1300000 else 0) + (if untested && items.isSome then msClk 65 else 0)

theorem exec_domainPowered_analog {d : Fin 16} {cals : List (Bank × Fin 5 × SliceCal)} {offs : List (Coil × BitVec 16)}
    {items : Option Bool} {c : Nat} {b : Bank} {full untested : Bool} (h : s.pmu.rising = [(d.val, c)])
    (hp : (parents d.val).all s.powered = true) (hd : d.val = 12 + b.val) (hf : full = (!(s.adc b).valid && !s.lcs.booting))
    (hu : untested = bit b.val (s.rd F.LCS_ST_RES_UNTESTED)) :
    exec (.domainPowered d cals offs items) s = .next (
      ((((s.advTo (c + analogWait full untested items)).rotates cals offs b full).poweredUp d.val).bankTested b untested items)) := by
  have hb : b = ⟨(d.val - 12) % 4, Nat.mod_lt _ (by decide)⟩ := Fin.ext (by dsimp only; omega)
  subst hb hf hu
  change execDomainPowered d cals offs items s = _
  unfold execDomainPowered
  rw [h, List.find?_cons_of_pos (by simp)]
  dsimp only
  rw [if_neg (show ¬ (!(parents d.val).all s.powered) = true by rw [hp]; decide), if_neg (show ¬ d.val < 8 by omega),
    if_neg (show ¬ d.val < 12 by omega)]
  unfold State.bankTested State.poweredUp State.rotates analogWait
  rfl

/-! ### What a bank's calibration and its tests leave alone -/

/-- From s to t the supplies have not changed. -/
structure Powers (s t : State) : Prop where
  pmu : t.pmu = s.pmu
  reg : t.reg Reg.PMU_DOM_STAT = s.reg Reg.PMU_DOM_STAT

theorem Powers.refl (s : State) : Powers s s := ⟨rfl, rfl⟩

theorem Powers.trans {a b c : State} (h : Powers a b) (k : Powers b c) : Powers a c := ⟨k.pmu.trans h.pmu, k.reg.trans h.reg⟩

theorem Powers.powered {t : State} (h : Powers s t) (d : Nat) : t.powered d = s.powered d :=
  State.powered_congr (by rw [h.pmu]) h.reg d

theorem Powers.each {α : Type} {l : List α} {f : State → α → State} (hf : ∀ s a, Powers s (f s a)) :
    Powers s (Machine.each l f s) := by
  induction l generalizing s with
  | nil => exact Powers.refl s
  | cons a l ih => exact (hf s a).trans ih

theorem Powers.ite {c : Prop} [Decidable c] {z a b : State} (h : Powers z a) (k : Powers z b) : Powers z (if c then a else b) := by
  split <;> assumption

theorem State.wr_powers (s : State) {f : Fld} (v : Nat) (h : Reg.PMU_DOM_STAT ≠ f.off) : Powers s (s.wr f v) :=
  ⟨State.wr_pmu _ _ _, State.reg_wr_ne s v h⟩

theorem State.sqc_powers (s : State) {f : Fld} (h : Reg.PMU_DOM_STAT ≠ f.off) : Powers s (s.sqc f) :=
  ⟨State.sqc_pmu _ _, State.reg_sqc_ne s h⟩

theorem State.setAdc_powers (s : State) (b : Bank) (x : AdcS) : Powers s (s.setAdc b x) := ⟨rfl, rfl⟩
theorem State.setGdr_powers (s : State) (b : Bank) (x : GdrS) : Powers s (s.setGdr b x) := ⟨rfl, rfl⟩

theorem Unlinks.powers {t : State} (h : Unlinks [] s t) : Powers s t :=
  ⟨h.pmu, h.regs _ (by decide +kernel) List.not_mem_nil⟩

theorem State.reading_powers (s : State) (q o : Nat) (v : Int) (largest : Bool) : Powers s (s.reading q o v largest) :=
  Powers.ite ⟨rfl, rfl⟩ (Powers.refl s)

theorem State.readDrift_powers (s : State) (o : Nat) (v : Int) : Powers s (s.readDrift o v) := by
  unfold State.readDrift
  extract_lets prev _ u
  have hu : Powers s u := ⟨rfl, rfl⟩
  clear_value prev
  cases prev with
  | some x => exact Powers.ite (hu.trans (State.reading_powers _ _ _ _ _)) hu
  | none => exact hu

/-- The registers of the converters lie far from power-good. -/
theorem adcReg_ne {o : Nat} (h : 0x10000 ≤ o) : Reg.PMU_DOM_STAT ≠ o := by
  unfold Reg.PMU_DOM_STAT
  omega

theorem latchSlice_powers (s : State) (b : Bank) (q : Fin 5) (x : SliceCal) : Powers s (latchSlice s b q x) := by
  have hg : ∀ i, 0x10000 ≤ Reg.ADC_SLC_OG i := fun i => by unfold Reg.ADC_SLC_OG; omega
  have hk : ∀ i, 0x10000 ≤ Reg.ADC_SLC_SK i := fun i => by unfold Reg.ADC_SLC_SK; omega
  unfold latchSlice
  exact ((((State.wr_powers s _ (adcReg_ne (hg _))).trans (State.wr_powers _ _ (adcReg_ne (hg _)))).trans
    (State.wr_powers _ _ (adcReg_ne (hk _)))).trans (State.setAdc_powers _ _ _)).trans (State.readDrift_powers _ _ _)

theorem adcRot_ne (i : Nat) : Reg.PMU_DOM_STAT ≠ Reg.ADC_ROT i := adcReg_ne (by unfold Reg.ADC_ROT; omega)

theorem failSlice_powers (s : State) (b : Bank) (q : Fin 5) : Powers s (failSlice s b q) := by
  unfold failSlice
  exact ((((State.wr_powers s _ (adcRot_ne _)).trans (State.wr_powers _ _ (adcRot_ne _))).trans
    (State.sqc_powers _ (adcReg_ne (by unfold F.ADC_STAT_SLICE Reg.ADC_STAT; dsimp only; omega)))).trans
    (State.wr_powers _ _ (adcRot_ne _))).trans (State.trip_unlinks _ _ _ _ _).powers

theorem fullBank_powers (cals : List (Bank × Fin 5 × SliceCal)) (offs : List (Coil × BitVec 16)) (s : State) (b : Bank) :
    Powers s (fullBank cals offs s b) := by
  unfold fullBank
  extract_lets rest0 find good u keep mask v w _ x
  have hu : Powers s u := Powers.each fun s q => by
    split
    · exact latchSlice_powers _ _ _ _
    · exact Powers.refl _
  have hv : Powers u v := ((State.wr_powers _ _ (adcRot_ne _)).trans (State.wr_powers _ _ (adcRot_ne _))).trans
    (State.wr_powers _ _ (adcRot_ne _))
  have hw : Powers v w := Powers.each fun s q => failSlice_powers s b q
  have hx : Powers w x := State.setAdc_powers _ _ _
  refine (((hu.trans hv).trans hw).trans hx).trans (Powers.each fun s i => ?_)
  split
  · exact (State.setAdc_powers _ _ _).trans (State.readDrift_powers _ _ _)
  · exact Powers.refl _

theorem State.rotates_powers (s : State) (cals : List (Bank × Fin 5 × SliceCal)) (offs : List (Coil × BitVec 16)) (b : Bank)
    (full : Bool) : Powers s (s.rotates cals offs b full) := by
  unfold State.rotates
  exact (Powers.ite (fullBank_powers _ _ _ _) (State.setAdc_powers _ _ _)).trans (State.setGdr_powers _ _ _)

theorem HoldsOnly.powers {t : State} (h : HoldsOnly s t) : Powers s t :=
  ⟨by rw [h.rest], h.regs _ (by decide +kernel)⟩

theorem State.bankTested_powers (s : State) (b : Bank) (untested : Bool) (items : Option Bool) :
    Powers s (s.bankTested b untested items) := by
  unfold State.bankTested
  refine Powers.ite ?_ (Powers.refl s)
  split
  · exact State.wr_powers _ _ (by decide)
  · exact (State.wr_powers _ _ (by decide)).trans (State.enterHeld_holdsOnly _ _ _).powers
  · exact Powers.refl s

end PowerUp

end Sys2Proof.Machine

namespace Sys2Proof.Machine

section Requests

variable {s t : State}

/-! ### A domain request at its frame tick (R394) -/

/-- Setting a clear bit of a field sets it and no other. -/
theorem State.bit_rd_wr_add (s : State) {f : Fld} (hf : f.ok = true) {d : Nat} (hd : d < f.hi + 1 - f.lo)
    (h : bit d (s.rd f) = false) (e : Nat) :
    bit e ((s.wr f (s.rd f + 2 ^ d)).rd f) = (bit e (s.rd f) || Decidable.decide (e = d)) := by
  have hlt : s.rd f + 2 ^ d < 2 ^ (f.hi + 1 - f.lo) := by
    rw [add_two_pow_eq_or (by rwa [← bit_eq_testBit])]
    exact Nat.or_lt_two_pow (s.rd_lt f) (Nat.pow_lt_pow_right (by decide) hd)
  rw [State.rd_wr_self s hf, Nat.mod_eq_of_lt hlt, bit_add_two_pow h]

/-- What the host has asked to be on. -/
def asked (s : State) (d : Nat) : Bool := bit d (s.rd F.PMU_DOM_REQ_REQ)

theorem wants_congr (hp : t.pmu = s.pmu) (hr : t.reg Reg.PMU_DOM_STAT = s.reg Reg.PMU_DOM_STAT) (e : Nat) :
    wants t e = wants s e := by
  rw [wants, State.powered_congr (by rw [hp]) hr, hp]
  rfl

theorem asked_congr (h : t.reg Reg.PMU_DOM_REQ = s.reg Reg.PMU_DOM_REQ) (e : Nat) : asked t e = asked s e :=
  congrArg (bit e) (State.rd_of_reg (f := F.PMU_DOM_REQ_REQ) h)

/-- From s to t domain d has been removed or its removal refused. -/
structure RequestedOff (d : Nat) (s t : State) : Prop where
  clk : t.clk = s.clk
  wants_ne : ∀ e, e ≠ d → wants t e = wants s e
  asked_ne : ∀ e, e ≠ d → asked t e = asked s e
  asked : asked s d = true → asked t d = true
  done : wants t d = true → Machine.asked t d = true
  state : t.rd F.PMU_STAT_STATE = s.rd F.PMU_STAT_STATE

theorem dropDomain_wants (s : State) {d : Nat} (hd : d ≠ 0) (e : Nat) :
    wants (s.dropDomain d) e = (wants s e && Decidable.decide (e ≠ d)) := by
  have h := s.dropDomain_dropped hd
  rw [wants, wants, h.powered, h.pmu]
  dsimp only
  rw [List.any_filter, Bool.and_or_distrib_right]
  congr 1
  by_cases he : e = d
  · subst he; simp
  · simp only [ne_eq, he, not_false_eq_true, decide_true, Bool.and_true]
    congr 1
    funext x
    by_cases hx : x.1 = e
    · simp [hx, he]
    · simp [hx]

theorem dropDomain_keeps (s : State) {d o : Nat} (hd : d ≠ 0) (hk : domOfKey o = 0) (ho : ∀ d, dropReg d o = false) :
    (s.dropDomain d).reg o = s.reg o :=
  (s.dropDomain_dropped hd).kept o (by rw [hk]; exact Ne.symm hd) (ho d)

theorem dropReg_pmu (d : Nat) : dropReg d Reg.PMU_DOM_REQ = false ∧ dropReg d Reg.PMU_STAT = false := by
  have h : ∀ o, o = Reg.PMU_DOM_REQ ∨ o = Reg.PMU_STAT → dropReg d o = false := by
    rintro o (rfl | rfl) <;>
    exact dropReg_false (by decide +kernel) (by decide) (by decide) fun h => absurd h (by decide)
  exact ⟨h _ (.inl rfl), h _ (.inr rfl)⟩

/-- The refusal of a removal: REQ and its buffer show the domain again, and DOM_REF that it was refused. -/
def State.removalRefused (s : State) (d : Nat) : State :=
  let s := s.wr F.PMU_DOM_REQ_REQ (s.rd F.PMU_DOM_REQ_REQ + 2 ^ d)
  let b := F.PMU_DOM_REQ_REQ.get (s.buf Reg.PMU_DOM_REQ)
  let s := if bit d b then s else s.setBuf Reg.PMU_DOM_REQ (F.PMU_DOM_REQ_REQ.put (s.buf Reg.PMU_DOM_REQ) (b + 2 ^ d))
  s.sqc F.PMU_STAT_DOM_REF

theorem State.removalRefused_frame (s : State) (d : Nat) : ∃ r bu q, s.removalRefused d = { s with regs := r, bufs := bu, seqDone := q } := by
  unfold State.removalRefused
  extract_lets u b v
  have hv : ∃ bu, v = { u with bufs := bu } := by unfold v; split; exacts [⟨_, rfl⟩, ⟨_, rfl⟩]
  obtain ⟨bu, hv⟩ := hv
  obtain ⟨w, q, e⟩ := v.sqcMask_shape Reg.PMU_STAT (2 ^ F.PMU_STAT_DOM_REF.lo)
  exact ⟨_, bu, q, e.trans (by rw [hv]; rfl)⟩

theorem State.removalRefused_reg (s : State) (d : Nat) {o : Nat} (h : o ≠ Reg.PMU_STAT) :
    (s.removalRefused d).reg o = (s.wr F.PMU_DOM_REQ_REQ (s.rd F.PMU_DOM_REQ_REQ + 2 ^ d)).reg o := by
  unfold State.removalRefused
  extract_lets u b v
  rw [State.reg_sqc_ne v h]
  unfold v
  split <;> rfl

theorem requestOff_eq (s : State) (d : Nat) : requestOff s d =
    if asked s d || !wants s d then s else if removeRefused s d then s.removalRefused d else s.dropDomain d := rfl

/-- A status field above bit 2 leaves the lowest three bits of its register alone. -/
theorem or_low (w : Word) (m : Nat) (h : m % 8 = 0) : (w ||| BitVec.ofNat 32 m).toNat % 8 = w.toNat % 8 := by
  have e : m % 2 ^ 32 % 2 ^ 3 = 0 := by omega
  have := Nat.or_mod_two_pow (a := w.toNat) (b := m % 2 ^ 32) (n := 3)
  rw [e, Nat.or_zero] at this
  rwa [BitVec.toNat_or, BitVec.toNat_ofNat]

/-- A status register with a bit set, and its count of changes stepped or not (R83). -/
theorem State.sqcMask_set (s : State) (o m : Nat) : ∃ w b, s.sqcMask o m = { s.setReg o w with seqDone := b } ∧
    (w = s.reg o ||| BitVec.ofNat 32 m ∨ ∃ q, w = Fld.put ⟨o, 31, 24⟩ (s.reg o ||| BitVec.ofNat 32 m) q) := by
  unfold State.sqcMask
  split
  · exact ⟨_, _, rfl, .inl rfl⟩
  · exact ⟨_, _, rfl, .inr ⟨_, rfl⟩⟩

theorem State.sqcMask_reg_self (s : State) (o m : Nat) : (s.sqcMask o m).reg o = s.reg o ||| BitVec.ofNat 32 m ∨
    ∃ q, (s.sqcMask o m).reg o = Fld.put ⟨o, 31, 24⟩ (s.reg o ||| BitVec.ofNat 32 m) q := by
  obtain ⟨w, b, e, hw⟩ := s.sqcMask_set o m
  have h : (s.sqcMask o m).reg o = w := by
    rw [e]
    exact State.reg_setReg_self s o w
  rw [h]
  exact hw

theorem State.sqc_state (s : State) : (s.sqc F.PMU_STAT_DOM_REF).rd F.PMU_STAT_STATE = s.rd F.PMU_STAT_STATE := by
  have hw : ∀ w : Word, F.PMU_STAT_STATE.get (w ||| BitVec.ofNat 32 (2 ^ F.PMU_STAT_DOM_REF.lo)) = F.PMU_STAT_STATE.get w := by
    intro w
    have := or_low w (2 ^ F.PMU_STAT_DOM_REF.lo) (by decide)
    simpa [Fld.get, bits, F.PMU_STAT_STATE] using this
  obtain h | ⟨q, h⟩ := s.sqcMask_reg_self Reg.PMU_STAT (2 ^ F.PMU_STAT_DOM_REF.lo)
  · exact (congrArg F.PMU_STAT_STATE.get h).trans (hw _)
  · refine (congrArg F.PMU_STAT_STATE.get h).trans (Eq.trans ?_ (hw _))
    exact Fld.get_put_apart (by decide) (by decide) (by decide) _ _

theorem State.removalRefused_state (s : State) (d : Nat) : (s.removalRefused d).rd F.PMU_STAT_STATE = s.rd F.PMU_STAT_STATE := by
  unfold State.removalRefused
  extract_lets u b v
  rw [State.sqc_state]
  have hv : v.rd F.PMU_STAT_STATE = u.rd F.PMU_STAT_STATE := by unfold v; split <;> rfl
  rw [hv]
  exact State.rd_wr_off _ _ (by decide)

theorem State.removalRefused_asked (s : State) {d : Nat} (hd : d < 16) (h : asked s d = false) (e : Nat) :
    asked (s.removalRefused d) e = (asked s e || Decidable.decide (e = d)) := by
  rw [asked, State.rd_of_reg (State.removalRefused_reg s d (o := F.PMU_DOM_REQ_REQ.off) (by decide))]
  exact s.bit_rd_wr_add (by decide) hd h e

theorem requestOff_requested (s : State) {d : Nat} (hd : d < 16) (h0 : d ≠ 0) : RequestedOff d s (requestOff s d) := by
  rw [requestOff_eq]
  split
  · rename_i h
    refine ⟨rfl, fun _ _ => rfl, fun _ _ => rfl, id, fun hw => ?_, rfl⟩
    simpa [hw] using h
  rename_i h
  have ha : asked s d = false := by
    simp only [Bool.or_eq_true, not_or, Bool.not_eq_true] at h
    exact h.1
  split
  · obtain ⟨r, bu, q, e⟩ := s.removalRefused_frame d
    have hs : ∀ x, wants (s.removalRefused d) x = wants s x := wants_congr (by rw [e])
      ((s.removalRefused_reg d (by decide)).trans (State.reg_wr_ne _ _ (by decide)))
    have hb := s.removalRefused_asked hd ha
    refine ⟨by rw [e], fun x _ => hs x, fun x hx => ?_, fun _ => ?_, fun _ => ?_, s.removalRefused_state d⟩
    · rw [hb]; simp [hx]
    · rw [hb]; simp
    · rw [hb]; simp
  · have hk : ∀ o, o = Reg.PMU_DOM_REQ ∨ o = Reg.PMU_STAT → (s.dropDomain d).reg o = s.reg o := by
      rintro o (rfl | rfl)
      · exact dropDomain_keeps s h0 (by decide +kernel) fun d => (dropReg_pmu d).1
      · exact dropDomain_keeps s h0 (by decide +kernel) fun d => (dropReg_pmu d).2
    have hb : ∀ x, asked (s.dropDomain d) x = asked s x := asked_congr (hk _ (.inl rfl))
    refine ⟨(s.dropDomain_dropped h0).clk, fun x hx => ?_, fun x _ => hb x, fun h => (hb d).trans h, fun hw => ?_,
      State.rd_of_reg (hk _ (.inr rfl))⟩
    · rw [dropDomain_wants s h0]; simp [hx]
    · rw [dropDomain_wants s h0] at hw; simp at hw

/-- From s to t the domains in l have been removed where they are not asked for. -/
structure RequestsOff (l : List Nat) (s t : State) : Prop where
  clk : t.clk = s.clk
  wants_ne : ∀ e, e ∉ l → wants t e = wants s e
  asked_ne : ∀ e, e ∉ l → asked t e = asked s e
  asked : ∀ e, asked s e = true → asked t e = true
  done : ∀ e ∈ l, wants t e = true → Machine.asked t e = true
  state : t.rd F.PMU_STAT_STATE = s.rd F.PMU_STAT_STATE

theorem requestOff_each (l : List Nat) (hl : l.Nodup) (h : ∀ d ∈ l, d < 16 ∧ d ≠ 0) (s : State) :
    RequestsOff l s (each l requestOff s) := by
  induction l generalizing s with
  | nil => exact ⟨rfl, fun _ _ => rfl, fun _ _ => rfl, fun _ => id, fun e he => absurd he List.not_mem_nil, rfl⟩
  | cons d l ih =>
    obtain ⟨hd, h0⟩ := h d (by simp)
    obtain ⟨hnot, hl⟩ := List.nodup_cons.1 hl
    have h1 := requestOff_requested s hd h0
    have h2 := ih hl (fun e he => h e (by simp [he])) (requestOff s d)
    rw [each_cons]
    refine ⟨h2.clk.trans h1.clk, fun e he => ?_, fun e he => ?_, fun e he => ?_, fun e he hw => ?_, h2.state.trans h1.state⟩
    · simp only [List.mem_cons, not_or] at he
      rw [h2.wants_ne e he.2, h1.wants_ne e he.1]
    · simp only [List.mem_cons, not_or] at he
      rw [h2.asked_ne e he.2, h1.asked_ne e he.1]
    · refine h2.asked e ?_
      by_cases hx : e = d
      · subst hx; exact h1.asked he
      · rw [h1.asked_ne e hx]; exact he
    · by_cases hx : e ∈ l
      · exact h2.done e hx hw
      · obtain rfl : e = d := (List.mem_cons.1 he).resolve_right hx
        rw [h2.asked_ne e hx]
        exact h1.done (by rwa [h2.wants_ne e hx] at hw)

/-! What is switched on. -/

theorem State.raise_wants (s : State) (d c e : Nat) : wants (s.raise d c) e = (wants s e || Decidable.decide (e = d)) := by
  unfold State.raise
  by_cases hw : wants s d = true
  · have h : (s.powered d || s.pmu.rising.any fun x : Nat × Nat => x.1 = d) = true := hw
    rw [if_pos h]
    by_cases he : e = d
    · subst he; simp [hw]
    · simp [he]
  · have h : ¬ (s.powered d || s.pmu.rising.any fun x : Nat × Nat => x.1 = d) = true := hw
    rw [if_neg h]
    simp [wants, State.powered, State.rd, State.reg, eq_comm, Bool.or_assoc]

theorem State.raise_frame (s : State) (d c : Nat) : ∃ x, s.raise d c = { s with pmu := { s.pmu with rising := x } } := by
  unfold State.raise
  split
  · exact ⟨_, rfl⟩
  · exact ⟨_, rfl⟩

/-- From s to t supplies have been switched on. -/
def Raises (s t : State) : Prop := ∃ x, t = { s with pmu := { s.pmu with rising := x } }

theorem Raises.refl (s : State) : Raises s s := ⟨_, rfl⟩
theorem Raises.trans {a b c : State} (h : Raises a b) (k : Raises b c) : Raises a c := by
  obtain ⟨x, rfl⟩ := h
  obtain ⟨y, rfl⟩ := k
  exact ⟨y, rfl⟩

theorem Raises.asked (h : Raises s t) (e : Nat) : asked t e = asked s e := by
  obtain ⟨x, rfl⟩ := h
  rfl

theorem requestOn_spec (s : State) (d : Nat) : Raises s (requestOn s d) ∧ ∀ e, wants (requestOn s d) e =
    (wants s e || (asked s d && (Decidable.decide (e = d) || Decidable.decide (12 ≤ d ∧ e = d - 4)))) := by
  unfold requestOn
  split
  · rename_i h
    have h : asked s d = false := by simpa [asked] using h
    exact ⟨Raises.refl s, fun e => by simp [h]⟩
  · rename_i h
    have h : asked s d = true := by simpa [asked] using h
    extract_lets u
    have hu : Raises s u := by unfold u; split; exacts [s.raise_frame _ _, Raises.refl s]
    have hw : ∀ e, wants u e = (wants s e || Decidable.decide (12 ≤ d ∧ e = d - 4)) := fun e => by
      unfold u
      split
      · rename_i h12; rw [State.raise_wants]; simp [h12]
      · rename_i h12; simp [h12]
    refine ⟨hu.trans (u.raise_frame _ _), fun e => ?_⟩
    rw [State.raise_wants, hw, h, Bool.true_and, Bool.or_assoc, Bool.or_comm (Decidable.decide (12 ≤ d ∧ e = d - 4))]

theorem requestOn_each (l : List Nat) (s : State) : Raises s (each l requestOn s) ∧ ∀ e, wants (each l requestOn s) e =
    (wants s e || l.any fun d => asked s d && (Decidable.decide (e = d) || Decidable.decide (12 ≤ d ∧ e = d - 4))) := by
  induction l generalizing s with
  | nil => exact ⟨Raises.refl s, fun e => by simp [each]⟩
  | cons d l ih =>
    obtain ⟨h1, h2⟩ := requestOn_spec s d
    obtain ⟨k1, k2⟩ := ih (requestOn s d)
    rw [each_cons]
    refine ⟨h1.trans k1, fun e => ?_⟩
    rw [k2 e, h2 e, List.any_cons, Bool.or_assoc]
    simp only [h1.asked]

/-! What removals of bank domains leave alone. -/

/-- From s to t bank domains have been removed or switched on. -/
structure BankRequests (s t : State) : Prop where
  rest : ∃ r bu lo q co cl fb hb ad gd x, t = { s with
    regs := r, bufs := bu, loHeld := lo, seqDone := q, coils := co, clps := cl, fbks := fb, hbs := hb, adcs := ad, gdrs := gd
    pmu := { s.pmu with rising := x } }
  regs : ∀ o, domOfKey o < 8 → o ∉ [Reg.PMU_DOM_REQ, Reg.PMU_DOM_STAT, Reg.PMU_STAT] → t.reg o = s.reg o

theorem BankRequests.refl (s : State) : BankRequests s s := ⟨⟨_, _, _, _, _, _, _, _, _, _, _, rfl⟩, fun _ _ _ => rfl⟩

theorem BankRequests.trans {a b c : State} (h : BankRequests a b) (k : BankRequests b c) : BankRequests a c := by
  obtain ⟨⟨_, _, _, _, _, _, _, _, _, _, _, rfl⟩, h2⟩ := h
  obtain ⟨⟨_, _, _, _, _, _, _, _, _, _, _, rfl⟩, k2⟩ := k
  exact ⟨⟨_, _, _, _, _, _, _, _, _, _, _, rfl⟩, fun o h1 h3 => (k2 o h1 h3).trans (h2 o h1 h3)⟩

theorem BankRequests.each {l : List Nat} {f : State → Nat → State} (hf : ∀ s, ∀ d ∈ l, BankRequests s (f s d)) :
    BankRequests s (Machine.each l f s) := by
  induction l generalizing s with
  | nil => exact BankRequests.refl s
  | cons d l ih =>
    rw [each_cons]
    exact (hf s d (by simp)).trans (ih fun s e he => hf s e (by simp [he]))

theorem Raises.bankRequests (h : Raises s t) : BankRequests s t := by
  obtain ⟨x, rfl⟩ := h
  exact ⟨⟨_, _, _, _, _, _, _, _, _, _, x, rfl⟩, fun _ _ _ => rfl⟩

theorem State.dropDomain_bank (s : State) {d : Nat} (hd : 8 ≤ d) : BankRequests s (s.dropDomain d) := by
  refine ⟨?_, fun o h1 h2 => (s.dropDomain_dropped (by omega)).kept o (by omega) ?_⟩
  · obtain ⟨co, cl, fb, hb, ad, gd, h⟩ := s.logicGone_bank (show 5 ≤ d by omega)
    have h25 : (d = 2 || d = 5 : Bool) = false := by simp; omega
    rw [State.dropDomain_eq, s.portGone_other (by omega) (by omega), State.recGone, if_neg (by omega), State.supplyGone_frame, h, h25]
    simp only [Bool.not_false, Bool.and_true]
    exact ⟨_, s.bufs, (s.dropRegs d).loHeld, s.seqDone, co, cl, fb, hb, ad, gd, _, rfl⟩
  · simp only [List.mem_cons, List.not_mem_nil, or_false, not_or] at h2
    have e : ∀ k, k < 8 → d ≠ k := fun k hk => by omega
    simp [dropReg, h2.2.1, e 2 (by decide), e 3 (by decide), e 4 (by decide)]

theorem requestOff_bank (s : State) {d : Nat} (hd : 8 ≤ d) : BankRequests s (requestOff s d) := by
  rw [requestOff_eq]
  split
  · exact BankRequests.refl s
  split
  · obtain ⟨r, bu, q, e⟩ := s.removalRefused_frame d
    refine ⟨⟨r, bu, s.loHeld, q, s.coils, s.clps, s.fbks, s.hbs, s.adcs, s.gdrs, s.pmu.rising, e⟩, fun o _ h => ?_⟩
    simp only [List.mem_cons, List.not_mem_nil, or_false, not_or] at h
    rw [State.removalRefused_reg s d h.2.2, State.reg_wr_ne _ _ h.1]
  · exact s.dropDomain_bank hd

theorem requestOff_asked (s : State) {d : Nat} (h : asked s d = true) : requestOff s d = s := by
  rw [requestOff_eq, h]
  rfl

/-- The removals of an applied request, analog domains before digital ones and those before the ports (R21). -/
def State.removals (s : State) : State := each [15, 14, 13, 12, 11, 10, 9, 8, 4, 3] requestOff s

theorem State.removals_spec (s : State) : RequestsOff [15, 14, 13, 12, 11, 10, 9, 8, 4, 3] s s.removals :=
  requestOff_each _ (by decide) (by decide) s

theorem State.removals_bank (s : State) (h3 : asked s 3 = true) (h4 : asked s 4 = true) : BankRequests s s.removals := by
  have hu := requestOff_each [15, 14, 13, 12, 11, 10, 9, 8] (by decide) (by decide) s
  have hb : BankRequests s (each [15, 14, 13, 12, 11, 10, 9, 8] requestOff s) :=
    BankRequests.each fun s d hd => requestOff_bank s ((show ∀ d ∈ [15, 14, 13, 12, 11, 10, 9, 8], 8 ≤ d by decide) d hd)
  have e : s.removals = each [15, 14, 13, 12, 11, 10, 9, 8] requestOff s := by
    rw [State.removals, show [15, 14, 13, 12, 11, 10, 9, 8, 4, 3] = [15, 14, 13, 12, 11, 10, 9, 8] ++ [4, 3] from rfl,
      each_append, each_cons, requestOff_asked _ (hu.asked 4 h4), each_cons, requestOff_asked _ (hu.asked 3 h3)]
    rfl
  rw [e]
  exact hb

theorem exec_domainRequestApply (ht : s.atTick = true) (hb : ¬ s.lcs.booting = true) : exec .domainRequestApply s =
    .next (each ([3, 4, 8, 9, 10, 11, 12, 13, 14, 15].filter (stateKeeps s.removals)) requestOn s.removals) := by
  change execDomainRequestApply s = _
  unfold execDomainRequestApply
  rw [if_neg (by simp [ht, hb])]
  rfl

/-- In IDLE and ACTIVE every domain may be on. -/
theorem stateKeeps_all (h : s.rd F.PMU_STAT_STATE < 2) (l : List Nat) : l.filter (stateKeeps s) = l :=
  List.filter_eq_self.2 fun d _ => by simp [stateKeeps, h]

/-- The domains that an applied request leaves on or on their way (R394). -/
theorem applied_wants {d : Nat} (hd : d ∈ [3, 4, 8, 9, 10, 11, 12, 13, 14, 15]) :
    wants (each [3, 4, 8, 9, 10, 11, 12, 13, 14, 15] requestOn s.removals) d =
      (asked s.removals d || Decidable.decide (8 ≤ d ∧ d < 12 ∧ asked s.removals (d + 4) = true)) := by
  have hoff := s.removals_spec.done d ((show ∀ d ∈ [3, 4, 8, 9, 10, 11, 12, 13, 14, 15],
    d ∈ [15, 14, 13, 12, 11, 10, 9, 8, 4, 3] by decide) d hd)
  rw [(requestOn_each _ s.removals).2 d]
  cases hw : wants s.removals d with
  | true => simp [hoff hw]
  | false =>
    simp only [List.mem_cons, List.not_mem_nil, or_false] at hd
    rcases hd with rfl | rfl | rfl | rfl | rfl | rfl | rfl | rfl | rfl | rfl <;> simp

end Requests

end Sys2Proof.Machine

namespace Sys2Proof.Machine

section Clauses

variable {s : State} {d : Fin 16} {cals : List (Bank × Fin 5 × SliceCal)} {offs : List (Coil × BitVec 16)} {items : Option Bool}
  {c : Nat} {b : Bank}

/-- A domain outside the banks reaches power-good (R394). -/
theorem domainPowered_low (h : s.pmu.rising = [(d.val, c)]) (hp : (parents d.val).all s.powered = true) (hd : d.val < 8) :
    Gives (.domainPowered d cals offs items) s fun t => RegsBut [Reg.PMU_DOM_STAT] s t ∧
      (d.val ≠ 0 → ∀ e, t.powered e = (s.powered e || Decidable.decide (e = d.val))) ∧
      t = { s.advTo (c + usClk 20) with regs := t.regs, pmu := { s.pmu with rising := [] } } := by
  obtain ⟨r, hr⟩ := State.poweredUp_rest (c + usClk 20) h
  refine ⟨_, exec_domainPowered h hp hd, fun o ho => ?_, fun h0 e => ?_, ?_⟩
  · rw [State.poweredUp_reg _ _ (by simpa using ho), State.advTo_reg]
  · rw [State.poweredUp_powered _ d.isLt h0, State.powered_advTo]
  · rw [hr]

theorem parents_digital {k : Nat} (h : k < 4) : parents (8 + k) = [5, 6] := by
  unfold parents
  rw [if_neg (by simp; omega), if_neg (by omega), if_neg (by omega), if_pos (by simp; omega)]

theorem parents_analog {k : Nat} (h : k < 4) : parents (12 + k) = [1, 8 + k] := by
  unfold parents
  rw [if_neg (by simp; omega), if_neg (by omega), if_neg (by omega), if_neg (by simp), if_pos (by omega),
    show 12 + k - 4 = 8 + k by omega]

theorem DOM_STAT_not_mem_quadRegs (n : Axis) : Reg.PMU_DOM_STAT ∉ quadRegs n := by
  simp only [quadRegs, Reg.PMU_DOM_STAT, Reg.FBK_STAT, Reg.FBK_ADJ_LO, Reg.FBK_POS_LO, List.mem_cons, List.not_mem_nil, or_false, not_or]
  omega

theorem Restarted.powered {l : List Axis} {u v : State} (h : Restarted l u v) (e : Nat) : v.powered e = u.powered e := by
  refine State.powered_congr ?_ (h.regs _ fun n _ => DOM_STAT_not_mem_quadRegs n) e
  obtain ⟨⟨r, f, p, rfl⟩, -⟩ := h
  rfl

theorem Restarted.rest {l : List Axis} {m : Nat} {x : PmuS} {u v : State} (h : Restarted l u v)
    (hu : ∃ r, u = { s.advTo m with regs := r, pmu := x }) :
    v = { s.advTo m with regs := v.regs, fbks := v.fbks, plans := v.plans, pmu := x } := by
  obtain ⟨⟨r, f, p, rfl⟩, -⟩ := h
  obtain ⟨r', rfl⟩ := hu
  rfl

/-- The counters of a bank restart as the axes' encoders are. -/
theorem restarted_bank {u v : State} (hq : ∀ n, isQuad u n = isQuad s n) (hf : ∀ n, u.fbk n = s.fbk n) (hp : ∀ n, u.plan n = s.plan n)
    (h : Restarted ((axesOfBank b).filter fun n => isQuad u n) u v) :
    (∀ n, bankOfAxis n = b → isQuad s n = true → (v.fbk n).u = 0 ∧ (v.fbk n).eLast = none ∧ v.flag (F.FBK_STAT_VALID n) = true) ∧
      (∀ n, bankOfAxis n ≠ b → v.fbk n = s.fbk n) ∧
      (∀ n, v.plan n = { s.plan n with homed := (s.plan n).homed && !(Decidable.decide (bankOfAxis n = b) && isQuad s n) }) := by
  have hm : ∀ n, n ∈ (axesOfBank b).filter (fun n => isQuad u n) ↔ bankOfAxis n = b ∧ isQuad s n = true := fun n => by
    rw [List.mem_filter, mem_axesOfBank, hq]
  refine ⟨fun n h1 h2 => ?_, fun n h1 => ?_, fun n => ?_⟩
  · obtain ⟨k1, k2, k3⟩ := h.shown n ((hm n).2 ⟨h1, h2⟩)
    exact ⟨k1, k2, by rw [State.flag, k3]; rfl⟩
  · rw [h.others n fun e => h1 ((hm n).1 e).1, hf]
  · rw [h.homed, hp]
    have e : Decidable.decide (n ∉ (axesOfBank b).filter fun n => isQuad u n) =
        !(Decidable.decide (bankOfAxis n = b) && isQuad s n) := by
      by_cases h1 : bankOfAxis n = b <;> cases h2 : isQuad s n <;> simp [hm, h1, h2]
    rw [e]

/-- A bank digital domain restarts its quadrature counters (R193, R321). -/
theorem domainPowered_digital (h : s.pmu.rising = [(d.val, c)]) (hd : d.val = 8 + b.val) (h5 : s.powered 5 = true)
    (h6 : s.powered 6 = true) : Gives (.domainPowered d cals offs items) s fun t =>
      (∀ e, t.powered e = (s.powered e || Decidable.decide (e = d.val))) ∧ t.clk = max s.clk (c + usClk 20) ∧
      (∀ n, bankOfAxis n = b → isQuad s n = true → (t.fbk n).u = 0 ∧ (t.fbk n).eLast = none ∧ t.flag (F.FBK_STAT_VALID n) = true) ∧
      (∀ n, bankOfAxis n ≠ b → t.fbk n = s.fbk n) ∧
      (∀ n, t.plan n = { s.plan n with homed := (s.plan n).homed && !(Decidable.decide (bankOfAxis n = b) && isQuad s n) }) ∧
      t = { s.advTo (c + usClk 20) with
        regs := t.regs, fbks := t.fbks, plans := t.plans, pmu := { s.pmu with rising := [] } } := by
  obtain ⟨r, hr⟩ := State.poweredUp_rest (c + usClk 20) h
  have hq := State.restartQuad_each ((axesOfBank b).filter fun n => isQuad ((s.advTo (c + usClk 20)).poweredUp d.val) n)
    ((s.advTo (c + usClk 20)).poweredUp d.val)
  have hrest := hq.rest ⟨r, hr⟩
  have hi : ∀ n, isQuad ((s.advTo (c + usClk 20)).poweredUp d.val) n = isQuad s n := fun n => by
    unfold isQuad
    rw [State.rd_of_reg (State.poweredUp_reg _ _ ?_), State.advTo_rd]
    unfold F.FBK_CFG_MODE Reg.FBK_CFG Reg.PMU_DOM_STAT
    dsimp only
    omega
  obtain ⟨k1, k2, k3⟩ := restarted_bank (s := s) hi (fun n => by rw [hr, State.fbk, State.advTo_fbks]; rfl)
    (fun n => by rw [hr, State.plan, State.advTo_plans]; rfl) hq
  refine ⟨_, exec_domainPowered_digital h ?_ hd, fun e => ?_, ?_, k1, k2, k3, hrest⟩
  · rw [hd, parents_digital b.isLt]
    simp [h5, h6]
  · rw [hq.powered, State.poweredUp_powered _ d.isLt (by omega), State.powered_advTo]
  · rw [hrest]
    exact State.clk_advTo ..

/-! A bank analog domain (R298, R414). -/

/-- What a bank analog domain comes to. -/
def State.analogUp (s : State) (d : Nat) (b : Bank) (cals : List (Bank × Fin 5 × SliceCal)) (offs : List (Coil × BitVec 16))
    (items : Option Bool) (c : Nat) (full untested : Bool) : State :=
  (((s.advTo (c + analogWait full untested items)).rotates cals offs b full).poweredUp d).bankTested b untested items

theorem State.analogUp_powered (s : State) (hd : d.val = 12 + b.val) (full untested : Bool) (e : Nat) :
    (s.analogUp d.val b cals offs items c full untested).powered e = (s.powered e || Decidable.decide (e = d.val)) := by
  rw [State.analogUp, (State.bankTested_powers _ _ _ _).powered, State.poweredUp_powered _ d.isLt (by omega),
    (State.rotates_powers _ _ _ _ _).powered, State.powered_advTo]

theorem analogWait_tested : analogWait false false items = usClk 20 := by simp [analogWait]
theorem analogWait_untested {x : Bool} (c : Nat) : c + analogWait false true (some x) = c + usClk 20 + msClk 65 := by
  simp only [analogWait, Bool.false_eq_true, if_false, Option.isSome_some, Bool.and_self, if_true, Nat.add_zero, Nat.add_assoc]

/-- With its coefficients retained a bank starts its rotation. -/
theorem State.rotates_valid (s : State) (cals : List (Bank × Fin 5 × SliceCal)) (offs : List (Coil × BitVec 16)) (b : Bank) :
    s.rotates cals offs b false = { s with
      adcs := s.adcs.set b { s.adc b with calAt := s.clk, auxAt := s.clk }, gdrs := s.gdrs.set b { s.gdr b with markAt := s.clk } } := rfl

theorem State.rotates_adc (s : State) (cals : List (Bank × Fin 5 × SliceCal)) (offs : List (Coil × BitVec 16)) (b : Bank) :
    (s.rotates cals offs b false).adc b = { s.adc b with calAt := s.clk, auxAt := s.clk } ∧
      ∀ a, a ≠ b → (s.rotates cals offs b false).adc a = s.adc a :=
  ⟨State.adc_setAdc_self _ _ _, fun _ ha => State.adc_setAdc_ne _ _ ha⟩

/-- The rotation starts and the domain has risen: what has changed. -/
theorem State.rotates_poweredUp {u v w : State} {d : Nat} (hu : u.pmu = s.pmu) (h : s.pmu.rising = [(d, c)])
    (hv : ∃ ad gd, v = { u with adcs := ad, gdrs := gd }) (hw : Writes [Reg.PMU_DOM_STAT]
      { v with pmu := { v.pmu with rising := v.pmu.rising.filter fun x : Nat × Nat => x.1 ≠ d } } w) :
    w.adcs = v.adcs ∧ w.clk = u.clk ∧ RegsBut [Reg.PMU_DOM_STAT] u w ∧
      w = { u with regs := w.regs, adcs := w.adcs, gdrs := w.gdrs, pmu := { s.pmu with rising := [] } } := by
  obtain ⟨ad, gd, rfl⟩ := hv
  obtain ⟨⟨r, rfl⟩, hr⟩ := hw
  refine ⟨rfl, rfl, hr, ?_⟩
  dsimp only
  rw [hu, h]
  simp

theorem domainPowered_tested (h : s.pmu.rising = [(d.val, c)]) :
    let t := s.analogUp d.val b cals offs items c false false
    t.clk = max s.clk (c + usClk 20) ∧ RegsBut [Reg.PMU_DOM_STAT] s t ∧
      t.adc b = { s.adc b with calAt := t.clk, auxAt := t.clk } ∧ (∀ a, a ≠ b → t.adc a = s.adc a) ∧
      t = { s.advTo (c + usClk 20) with
        regs := t.regs, adcs := t.adcs, gdrs := t.gdrs, pmu := { s.pmu with rising := [] } } := by
  have ht : s.analogUp d.val b cals offs items c false false =
      ((s.advTo (c + usClk 20)).rotates cals offs b false).poweredUp d.val := by
    rw [State.analogUp, analogWait_tested]
    rfl
  intro t
  obtain ⟨k1, k2, k3, k4⟩ := State.rotates_poweredUp (u := s.advTo (c + usClk 20)) (State.advTo_pmu _ _) h
    ⟨_, _, State.rotates_valid _ cals offs b⟩ (State.poweredUp_writes _ d.val)
  rw [← ht] at k1 k2 k3 k4
  obtain ⟨a1, a2⟩ := (s.advTo (c + usClk 20)).rotates_adc cals offs b
  have hadc : ∀ a, (s.advTo (c + usClk 20)).adc a = s.adc a := fun a => by rw [State.adc, State.advTo_adcs]; rfl
  refine ⟨k2.trans (State.clk_advTo _ _), fun o ho => (k3 o ho).trans (State.advTo_reg _ _ _), ?_, fun a ha => ?_, k4⟩
  · rw [k2, State.adc, k1]
    refine a1.trans ?_
    rw [hadc]
  · rw [State.adc, k1]
    exact (a2 a ha).trans (hadc a)

/-- The state in which a bank's items have been run keeps the register of the results. -/
theorem testedBank_reg (n d : Nat) {o : Nat} (h : o ≠ Reg.PMU_DOM_STAT) :
    (((s.advTo n).rotates cals offs b false).poweredUp d).reg o = s.reg o := by
  rw [State.poweredUp_reg _ _ h, State.rotates_valid]
  exact State.advTo_reg ..

theorem State.bankTested_pass (s : State) (b : Bank) : s.bankTested b true (some true) =
    s.wr F.LCS_ST_RES_UNTESTED (s.rd F.LCS_ST_RES_UNTESTED - 2 ^ b.val) := rfl

theorem bankTested_pass_shows {u : State} (hr : u.reg Reg.LCS_ST_RES = s.reg Reg.LCS_ST_RES)
    (hl : u.reg Reg.LCS_LC_STAT = s.reg Reg.LCS_LC_STAT) (hu : bit b.val (s.rd F.LCS_ST_RES_UNTESTED) = true) :
    (u.bankTested b true (some true)).clk = u.clk ∧
      bit b.val ((u.bankTested b true (some true)).rd F.LCS_ST_RES_UNTESTED) = false ∧
      (u.bankTested b true (some true)).flag F.LCS_LC_STAT_HELD = s.flag F.LCS_LC_STAT_HELD := by
  have hb := u.rd_lt F.LCS_ST_RES_UNTESTED
  have hs : u.rd F.LCS_ST_RES_UNTESTED = s.rd F.LCS_ST_RES_UNTESTED := State.rd_of_reg hr
  rw [State.bankTested_pass]
  refine ⟨State.wr_clk _ _ _, ?_, ?_⟩
  · rw [State.rd_wr_self _ (by decide), Nat.mod_eq_of_lt ((Nat.sub_le _ _).trans_lt hb), hs, bit_sub_two_pow hu]
    simp
  · rw [State.flag_wr_off _ _ (by decide)]
    exact State.flag_of_reg hl

theorem testedBank_clk (n d : Nat) : (((s.advTo n).rotates cals offs b false).poweredUp d).clk = max s.clk n := by
  obtain ⟨⟨r, e⟩, -⟩ := State.poweredUp_writes ((s.advTo n).rotates cals offs b false) d
  rw [e, State.rotates_valid]
  exact State.clk_advTo ..

theorem domainPowered_passes (hu : bit b.val (s.rd F.LCS_ST_RES_UNTESTED) = true) :
    let t := s.analogUp d.val b cals offs (some true) c false true
    t.clk = max s.clk (c + usClk 20 + msClk 65) ∧ bit b.val (t.rd F.LCS_ST_RES_UNTESTED) = false ∧
      t.flag F.LCS_LC_STAT_HELD = s.flag F.LCS_LC_STAT_HELD := by
  obtain ⟨k1, k2⟩ := bankTested_pass_shows (s := s) (b := b) (testedBank_reg (cals := cals) (offs := offs) (b := b)
    (c + analogWait false true (some true)) d.val (by decide)) (testedBank_reg _ _ (by decide)) hu
  refine ⟨k1.trans ((testedBank_clk _ _).trans ?_), k2⟩
  rw [analogWait_untested]

theorem domainPowered_fails :
    let t := s.analogUp d.val b cals offs (some false) c false true
    t.flag F.LCS_LC_STAT_HELD = true ∧ bit b.val (t.rd F.LCS_ST_RES_BANK) = true := by
  intro t
  refine ⟨(State.enterHeld_shows _ (by decide) _).1, ?_⟩
  have hk := fun u : State => (u.enterHeld_holdsOnly 1 (76 + 16 * b.val)).regs F.LCS_ST_RES_BANK.off (by decide +kernel)
  have hr : t.rd F.LCS_ST_RES_BANK = _ := State.rd_of_reg (hk _)
  rw [hr, State.rd_wr_self _ (by decide)]
  refine (bit_mod_two_pow _ b.isLt).trans ?_
  rw [bit_eq_testBit]
  exact (Nat.testBit_or _ _ _).trans (by rw [Nat.testBit_two_pow_self, Bool.or_true])

end Clauses

/-- Settles O11: domain by domain as each rises, and the applied request step by step. -/
theorem domainsFollowRequests : Obligations.DomainsFollowRequests := by
  intro s
  refine ⟨fun d cals offs items c h hp hd => domainPowered_low h hp hd, fun b d cals offs items c h hd h5 h6 =>
    domainPowered_digital h hd h5 h6, fun b d cals offs items c h hd h1 h8 => ?_, fun ht hst hb hen => ?_⟩
  case refine_1 =>
    have hp : (parents d.val).all s.powered = true := by
      rw [hd, parents_analog b.isLt]
      simp [h1, h8]
    refine ⟨s.analogUp d.val b cals offs items c (!(s.adc b).valid && !s.lcs.booting) (bit b.val (s.rd F.LCS_ST_RES_UNTESTED)),
      exec_domainPowered_analog h hp hd rfl rfl, fun e => s.analogUp_powered hd _ _ e, fun hv hu => ?_, fun hv hu hi => ?_,
      fun hv hu hi => ?_⟩
    · rw [hv, Bool.eq_false_iff.2 hu]
      exact domainPowered_tested h
    · rw [hv, hu, hi]
      exact domainPowered_passes hu
    · rw [hv, hu, hi]
      exact domainPowered_fails
  case refine_2 =>
    have hoff := s.removals_spec
    have hon := (requestOn_each [3, 4, 8, 9, 10, 11, 12, 13, 14, 15] s.removals).1
    refine ⟨_, exec_domainRequestApply ht hb, ?_⟩
    rw [stateKeeps_all (by rw [hoff.state]; exact hst)]
    refine ⟨?_, fun d hd => ?_, fun h3 h4 => ?_⟩
    · obtain ⟨x, e⟩ := hon
      rw [e]
      exact hoff.clk
    · rw [applied_wants hd, ← hon.asked d, ← hon.asked (d + 4)]
      rfl
    · have hbank := (s.removals_bank h3 h4).trans hon.bankRequests
      obtain ⟨⟨r, bu, lo, q, co, cl, fb, hb', ad, gd, x, e⟩, hregs⟩ := hbank
      refine ⟨hregs, ?_⟩
      rw [e]

end Sys2Proof.Machine

namespace Sys2Proof.Machine

section Status

variable {s t u : State}

/-! ### Fields beside a status bit (R72, R83) -/

/-- Setting a bit outside a field leaves the field as it was. -/
theorem Fld.get_or_apart {g : Fld} {k : Nat} (h : k < g.lo ∨ g.hi < k) (w : Word) :
    g.get (w ||| BitVec.ofNat 32 (2 ^ k)) = g.get w := by
  unfold Fld.get bits
  refine Nat.eq_of_testBit_eq fun i => ?_
  rw [Nat.testBit_mod_two_pow, Nat.testBit_mod_two_pow]
  by_cases hi : i < g.hi + 1 - g.lo
  · have hne : ¬ k = g.lo + i := by omega
    rw [Nat.testBit_div_two_pow, Nat.testBit_div_two_pow, BitVec.toNat_or, Nat.testBit_or, BitVec.toNat_ofNat,
      Nat.testBit_mod_two_pow, Nat.testBit_two_pow, Nat.add_comm i]
    simp [hne]
  · simp [hi]

/-- A field beside the status bit that is set, and below the count of changes, reads as before. -/
theorem State.rd_sqc_apart (s : State) {f g : Fld} (hg : g.ok = true) (hi : g.hi < 24) (ho : g.off = f.off)
    (h : f.lo < g.lo ∨ g.hi < f.lo) : (s.sqc f).rd g = s.rd g := by
  have seq : (⟨f.off, 31, 24⟩ : Fld).apart g = true := by simp [Fld.apart, hi]
  rw [State.rd, State.rd, ho, State.sqc]
  obtain e | ⟨q, e⟩ := s.sqcMask_reg_self f.off (2 ^ f.lo)
  · rw [e, Fld.get_or_apart h]
  · rw [e, Fld.get_put_apart (by rfl) hg seq, Fld.get_or_apart h]

theorem State.flag_sqc_apart (s : State) {f g : Fld} (hg : g.ok = true) (hi : g.hi < 24) (ho : g.off = f.off)
    (h : f.lo < g.lo ∨ g.hi < f.lo) : (s.sqc f).flag g = s.flag g := by
  rw [State.flag, State.rd_sqc_apart s hg hi ho h]
  rfl

/-- A write changes the registers alone, and counting its notes besides. -/
theorem State.wr_frame (s : State) (f : Fld) (v : Nat) : ∃ r, s.wr f v = { s with regs := r } := ⟨_, rfl⟩
theorem State.cnt_frame (s : State) (f : Fld) (n : Nat) : ∃ r m, s.cnt f n = { s with regs := r, cntNow := m } := ⟨_, _, rfl⟩

/-- A field that shares no bit with the counter. -/
theorem State.rd_cnt_ne (s : State) {f g : Fld} (n : Nat) (h : g.off ≠ f.off ∨ (f.ok = true ∧ g.ok = true ∧ f.apart g = true)) :
    (s.cnt f n).rd g = s.rd g :=
  (State.rd_wr_ne _ _ h).trans rfl

/-! ### A source that is no longer active -/

theorem State.inactive_frame (s : State) (k : Nat) : ∃ x, s.inactive k = { s with fcs := { s.fcs with srcs := x } } := by
  unfold State.inactive
  split
  · exact ⟨_, rfl⟩
  · exact ⟨_, rfl⟩

theorem State.inactive_rest (s : State) (k : Nat) : s.inactive k = { s with fcs := { s.fcs with srcs := (s.inactive k).fcs.srcs } } := by
  obtain ⟨x, e⟩ := s.inactive_frame k
  rw [e]

theorem State.inactive_rd (s : State) (k : Nat) (f : Fld) : (s.inactive k).rd f = s.rd f := by
  obtain ⟨_, e⟩ := s.inactive_frame k
  rw [e]
  rfl

theorem State.inactive_gdr (s : State) (k : Nat) (b : Bank) : (s.inactive k).gdr b = s.gdr b := by
  obtain ⟨_, e⟩ := s.inactive_frame k
  rw [e]
  rfl

theorem State.inactive_self (s : State) (k : Nat) : (s.inactive k).src k = { s.src k with active := false } := by
  unfold State.inactive
  split
  · have := s.src_setSrc_self { s.src k with active := false }
    rwa [show ({ s.src k with active := false } : SrcS).src = k from s.src_src k] at this
  · rename_i h
    rw [← Bool.eq_false_of_not_eq_true h]

theorem State.inactive_ne (s : State) {k j : Nat} (h : j ≠ k) : (s.inactive k).src j = s.src j := by
  unfold State.inactive
  split
  · exact s.src_setSrc_ne _ fun e => h (e.trans (s.src_src k))
  · rfl

/-- What a source shows depends on FCS's sources alone. -/
theorem State.src_congr (h : t.fcs.srcs = s.fcs.srcs) (j : Nat) : t.src j = s.src j := by
  unfold State.src
  rw [h]

/-! ### Sources that end, sources that are raised -/

/-- Source k is no longer ACTIVE where c holds. -/
def State.ceaseIf (s : State) (c : Bool) (k : Nat) : State := if c then s.inactive k else s

/-- Where c holds, its status bit shows and source k trips, ACTIVE. -/
def State.raiseIf (s : State) (c : Bool) (f : Fld) (k : Nat) : State := if c then (s.sqc f).trip k (active := true) else s

theorem State.ceaseIf_frame (s : State) (c : Bool) (k : Nat) :
    ∃ x, s.ceaseIf c k = { s with fcs := { s.fcs with srcs := x } } := by
  cases c
  · exact ⟨_, rfl⟩
  · exact s.inactive_frame k

theorem State.ceaseIf_self (s : State) (c : Bool) (k : Nat) :
    (s.ceaseIf c k).src k = { s.src k with active := (s.src k).active && !c } := by
  cases c
  · simp [State.ceaseIf]
  · rw [Bool.not_true, Bool.and_false]
    exact s.inactive_self k

theorem State.ceaseIf_ne (s : State) (c : Bool) {k j : Nat} (h : j ≠ k) : (s.ceaseIf c k).src j = s.src j := by
  cases c
  · rfl
  · exact s.inactive_ne h

theorem State.src_sqc (s : State) (f : Fld) (j : Nat) : (s.sqc f).src j = s.src j := State.src_congr (by simp) j

theorem State.powered_sqc (s : State) {f : Fld} (h : Reg.PMU_DOM_STAT ≠ f.off) (d : Nat) : (s.sqc f).powered d = s.powered d :=
  State.powered_congr (by simp) (State.reg_sqc_ne s h) d

section

variable {k : Nat} {f : Fld} (hk : (sourceRow k).isSome = true) (hf : Reg.PMU_DOM_STAT ≠ f.off)

include hk hf

theorem State.raise_tripped (hp : s.powered 1 = true) : Tripped k true (s.sqc f) ((s.sqc f).trip k (active := true)) :=
  State.trip_tripped _ _ _ _ _ hk ((s.powered_sqc hf 1).trans hp)

theorem State.raiseIf_self (hp : s.powered 1 = true) (c : Bool) :
    ((s.raiseIf c f k).src k).total = (if c then min 255 ((s.src k).total + 1) else (s.src k).total) ∧
      (c = true → ((s.raiseIf c f k).src k).active = true) ∧ (c = false → (s.raiseIf c f k).src k = s.src k) := by
  cases c
  · exact ⟨rfl, nofun, fun _ => rfl⟩
  · have h := State.raise_tripped hk hf hp
    exact ⟨h.total.trans (by rw [State.src_sqc]; rfl), fun _ => h.active, nofun⟩

theorem State.raiseIf_ne (hp : s.powered 1 = true) (c : Bool) {j : Nat} (h : j ≠ k) : (s.raiseIf c f k).src j = s.src j := by
  cases c
  · rfl
  · exact ((State.raise_tripped hk hf hp).others j h).trans (s.src_sqc f j)

theorem State.raiseIf_flag (hp : s.powered 1 = true) (h : f.ok = true) (hb : f.hi < 24) (hq : faultReg f.off = false) (c : Bool) :
    c = true → (s.raiseIf c f k).flag f = true := by
  rintro rfl
  exact (State.flag_of_reg ((State.raise_tripped hk hf hp).reaction.regs _ hq)).trans (State.flag_sqc s h hb)

theorem State.raiseIf_rd_apart (hp : s.powered 1 = true) (c : Bool) {g : Fld} (hg : g.ok = true) (hi : g.hi < 24)
    (ho : g.off = f.off) (hq : faultReg f.off = false) (h : f.lo < g.lo ∨ g.hi < f.lo) : (s.raiseIf c f k).rd g = s.rd g := by
  cases c
  · rfl
  · refine Eq.trans (State.rd_of_reg ?_) (State.rd_sqc_apart s hg hi ho h)
    exact (State.raise_tripped hk hf hp).reaction.regs _ (ho ▸ hq)

end

end Status

end Sys2Proof.Machine

namespace Sys2Proof.Machine

section Supply

variable {b : Bank} {s t u : State}

/-! ### A sample of the motor supply (R270 to R272) -/

/-- From s to t a supply sample of bank b has been taken: its own register and gate stage apart, only what a fault's reaction
reaches has changed. -/
structure Supplies (b : Bank) (s t : State) : Prop where
  regs : ∀ o, faultReg o = false → o ≠ Reg.GDR_VMS b → t.reg o = s.reg o
  gdr : ∀ d, d ≠ b → t.gdr d = s.gdr d
  clk : t.clk = s.clk
  gtc : t.gtc = s.gtc
  coils : t.coils = s.coils
  clps : ∀ n, t.clp n = { s.clp n with fresh := (t.clp n).fresh }
  fbks : t.fbks = s.fbks
  adcs : t.adcs = s.adcs
  reqs : t.reqs = s.reqs
  pmu : t.pmu = s.pmu

theorem Supplies.refl (s : State) : Supplies b s s :=
  ⟨fun _ _ _ => rfl, fun _ _ => rfl, rfl, rfl, rfl, fun _ => rfl, rfl, rfl, rfl, rfl⟩

theorem Supplies.trans (h : Supplies b s t) (k : Supplies b t u) : Supplies b s u :=
  ⟨fun o e f => (k.regs o e f).trans (h.regs o e f), fun d e => (k.gdr d e).trans (h.gdr d e), k.clk.trans h.clk,
    k.gtc.trans h.gtc, k.coils.trans h.coils, fun n => by rw [k.clps n, h.clps n], k.fbks.trans h.fbks,
    k.adcs.trans h.adcs, k.reqs.trans h.reqs, k.pmu.trans h.pmu⟩

theorem Supplies.powered (h : Supplies b s t) (d : Nat) : t.powered d = s.powered d :=
  State.powered_congr (by rw [h.pmu]) (h.regs _ (by decide +kernel) (by
    have := b.isLt
    show Reg.PMU_DOM_STAT ≠ 0x10070 + 0x2000 * b.val
    unfold Reg.PMU_DOM_STAT
    omega)) d

/-- Writes to the bank's own register, its counts and sources, and the condition monitor's notes. -/
theorem Supplies.of_frame {r : List (Nat × Word)} {q : List (Nat × Word)} {n : List (Nat × Nat × Nat)} {c : CndS} {f : FcsS}
    (h : RegsBut [Reg.GDR_VMS b] s { s with regs := r }) :
    Supplies b s { s with regs := r, seqDone := q, cntNow := n, cnd := c, fcs := f } :=
  ⟨fun o _ e => h o (by simpa using e), fun _ _ => rfl, rfl, rfl, rfl, fun _ => rfl, rfl, rfl, rfl, rfl⟩

theorem State.setGdr_supplies (s : State) (b : Bank) (g : GdrS) : Supplies b s (s.setGdr b g) :=
  ⟨fun _ _ _ => rfl, fun _ e => s.gdr_setGdr_ne _ e, rfl, rfl, rfl, fun _ => rfl, rfl, rfl, rfl, rfl⟩

theorem State.wr_supplies (s : State) {f : Fld} (v : Nat) (h : f.off = Reg.GDR_VMS b) : Supplies b s (s.wr f v) :=
  Supplies.of_frame (q := s.seqDone) (n := s.cntNow) (c := s.cnd) (f := s.fcs) (h ▸ s.wr_regsBut f v)

theorem State.ceaseIf_supplies (s : State) (c : Bool) (k : Nat) : Supplies b s (s.ceaseIf c k) := by
  obtain ⟨x, e⟩ := s.ceaseIf_frame c k
  rw [e]
  exact Supplies.of_frame (RegsBut.refl _ _)

theorem State.inactive_supplies (s : State) (k : Nat) : Supplies b s (s.inactive k) := s.ceaseIf_supplies true k

theorem Tripped.gdr {k : Nat} {act : Bool} (h : Tripped k act s t) (d : Bank) : t.gdr d = s.gdr d := by
  have e : t.gdrs = s.gdrs := (congrArg State.gdrs h.reaction.rest :)
  rw [State.gdr, e]
  rfl

theorem Tripped.supplies {k : Nat} {act : Bool} (h : Tripped k act s t) : Supplies b s t := by
  have e := h.reaction.rest
  exact ⟨fun o ho _ => h.reaction.regs o ho, fun d _ => h.gdr d, (congrArg State.clk e :), (congrArg State.gtc e :),
    (congrArg State.coils e :), h.reaction.clps, (congrArg State.fbks e :), (congrArg State.adcs e :),
    (congrArg State.reqs e :), (congrArg State.pmu e :)⟩

theorem State.sqc_supplies (s : State) {f : Fld} (h : f.off = Reg.GDR_VMS b) : Supplies b s (s.sqc f) := by
  obtain ⟨w, q, e⟩ := s.sqcMask_shape f.off (2 ^ f.lo)
  rw [State.sqc, e, h]
  exact Supplies.of_frame (n := s.cntNow) (c := s.cnd) (f := s.fcs) fun o ho => State.reg_setReg_ne s w (by simpa using ho)

theorem State.setCnd_supplies (s : State) (c : CndS) : Supplies b s { s with cnd := c } :=
  ⟨fun _ _ _ => rfl, fun _ _ => rfl, rfl, rfl, rfl, fun _ => rfl, rfl, rfl, rfl, rfl⟩

theorem State.addCounter_supplies (s : State) (o n : Nat) : Supplies b s (s.addCounter o n) := State.setCnd_supplies s _

/-! The brake (R271). -/

/-- The brake output shows on and counts (R271). -/
def State.brakeShown (s : State) (b : Bank) : State := (s.wr (F.GDR_VMS_BRK b) 1).cnt (F.GDR_VMS_BRKCNT b)

/-- The brake's own notes at a turn-on: the counter kept for the host, the clock, and the drop that will be measured (R434). -/
def State.brakeNoted (s : State) (b : Bank) (old : Nat) : State :=
  let s := s.addCounter (32 + 4 * b.val)
  let s := s.setGdr b { s.gdr b with brkAt := some s.clk, brkOver := false }
  { s with cnd := { s.cnd with before := (s.cnd.before.filter fun x : Nat × Nat × Nat => x.1 ≠ b.val) ++ [(b.val, old, 0)] } }

theorem State.brakeNoted_rd (s : State) (b : Bank) (old : Nat) (f : Fld) : (s.brakeNoted b old).rd f = s.rd f := rfl
theorem State.brakeNoted_src (s : State) (b : Bank) (old j : Nat) : (s.brakeNoted b old).src j = s.src j := State.src_congr rfl j
theorem State.brakeNoted_gdr (s : State) (b : Bank) (old : Nat) :
    (s.brakeNoted b old).gdr b = { s.gdr b with brkAt := some s.clk, brkOver := false } := State.gdr_setGdr_self s b _
theorem State.brakeNoted_supplies (s : State) (b : Bank) (old : Nat) : Supplies b s (s.brakeNoted b old) :=
  (State.addCounter_supplies s _ _).trans ((State.setGdr_supplies _ b _).trans (State.setCnd_supplies _ _))

theorem State.brakeShown_frame (s : State) (b : Bank) : ∃ r n, s.brakeShown b = { s with regs := r, cntNow := n } := by
  obtain ⟨r, e⟩ := s.wr_frame (F.GDR_VMS_BRK b) 1
  obtain ⟨r', n, e'⟩ := (s.wr (F.GDR_VMS_BRK b) 1).cnt_frame (F.GDR_VMS_BRKCNT b) 1
  rw [e] at e'
  exact ⟨r', n, (congrArg (fun z : State => z.cnt (F.GDR_VMS_BRKCNT b)) e).trans e'⟩

theorem State.brakeShown_supplies (s : State) (b : Bank) : Supplies b s (s.brakeShown b) := by
  have hr : RegsBut [Reg.GDR_VMS b] s (s.brakeShown b) := fun o ho => by
    have ho : o ≠ Reg.GDR_VMS b := by simpa using ho
    rw [State.brakeShown, State.reg_cnt_ne _ _ ho, State.reg_wr_ne _ _ ho]
  obtain ⟨r, n, e⟩ := s.brakeShown_frame b
  rw [e] at hr ⊢
  exact Supplies.of_frame (q := s.seqDone) (c := s.cnd) (f := s.fcs) hr

theorem State.brakeShown_brk (s : State) (b : Bank) : (s.brakeShown b).flag (F.GDR_VMS_BRK b) = true := by
  have h : (s.brakeShown b).rd (F.GDR_VMS_BRK b) = 1 :=
    (State.rd_cnt_ne _ _ (.inr ⟨rfl, rfl, rfl⟩)).trans (State.rd_wr_self s (by rfl) 1)
  rw [State.flag, h]
  rfl

theorem State.brakeShown_count (s : State) (b : Bank) :
    (s.brakeShown b).rd (F.GDR_VMS_BRKCNT b) = min 255 (s.rd (F.GDR_VMS_BRKCNT b) + 1) := by
  rw [State.brakeShown, State.rd_cnt_self _ (by rfl), State.rd_wr_ne s _ (.inr ⟨rfl, rfl, rfl⟩)]
  exact Nat.min_comm _ _

theorem State.brakeShown_vm (s : State) (b : Bank) : (s.brakeShown b).rd (F.GDR_VMS_VM b) = s.rd (F.GDR_VMS_VM b) :=
  (State.rd_cnt_ne _ _ (.inr ⟨rfl, rfl, rfl⟩)).trans (State.rd_wr_ne s _ (.inr ⟨rfl, rfl, rfl⟩))

/-- A sample of code c turns the brake output on, or off (R271). -/
def brakeTurnsOn (s : State) (b : Bank) (c : Nat) : Bool :=
  !s.flag (F.GDR_VMS_BRK b) && !(s.gdr b).vgLow && Decidable.decide (s.rd (F.GDR_VMS_BRK_ON b) ≤ c)
def brakeTurnsOff (s : State) (b : Bank) (c : Nat) : Bool :=
  s.flag (F.GDR_VMS_BRK b) && Decidable.decide (c ≤ s.rd (F.GDR_VMS_BRK_OFF b))

theorem brakeSample_eq (s : State) (b : Bank) (old code : Nat) : brakeSample s b old code =
    if brakeTurnsOn s b code then (s.brakeShown b).brakeNoted b old
    else if brakeTurnsOff s b code then brakeOff s b
    else s := rfl

/-- From s to t the brake of bank b has been turned on where on holds, off where off holds. -/
structure Braked (b : Bank) (on off : Bool) (s t : State) : Prop where
  supplies : Supplies b s t
  vm : t.rd (F.GDR_VMS_VM b) = s.rd (F.GDR_VMS_VM b)
  brk : t.flag (F.GDR_VMS_BRK b) = ((s.flag (F.GDR_VMS_BRK b) || on) && !off)
  gdr : ∃ x, t.gdr b = { s.gdr b with
    brkAt := if on then some s.clk else if off then none else (s.gdr b).brkAt, brkOver := x }
  count : on = true → t.rd (F.GDR_VMS_BRKCNT b) = min 255 (s.rd (F.GDR_VMS_BRKCNT b) + 1)
  ended : off = true → (t.src (64 + 16 * b.val + 9)).active = false
  srcs : ∀ j, j ≠ 64 + 16 * b.val + 9 → t.src j = s.src j

theorem Braked.refl (s : State) : Braked b false false s s :=
  ⟨Supplies.refl s, rfl, by simp, ⟨(s.gdr b).brkOver, rfl⟩, nofun, nofun, fun _ _ => rfl⟩

theorem brakeOn_braked (s : State) (b : Bank) (old : Nat) : Braked b true false s ((s.brakeShown b).brakeNoted b old) := by
  have h := s.brakeShown_supplies b
  obtain ⟨r, n, e⟩ := s.brakeShown_frame b
  have hg : (s.brakeShown b).gdr b = s.gdr b := by rw [e]; rfl
  have hs : ∀ j, (s.brakeShown b).src j = s.src j := fun j => State.src_congr (by rw [e]) j
  have rd := (s.brakeShown b).brakeNoted_rd b old
  refine ⟨h.trans ((s.brakeShown b).brakeNoted_supplies b old), (rd _).trans (s.brakeShown_vm b), ?_, ⟨false, ?_⟩,
    fun _ => (rd _).trans (s.brakeShown_count b), nofun, fun j _ => (State.brakeNoted_src _ b old j).trans (hs j)⟩
  · rw [State.flag, rd, Bool.or_true]
    exact s.brakeShown_brk b
  · rw [State.brakeNoted_gdr, hg, h.clk, if_pos rfl]

/-- The brake output shows off, and its bank no longer counts its time (R271). -/
def State.brakeCleared (s : State) (b : Bank) : State :=
  (s.wr (F.GDR_VMS_BRK b) 0).setGdr b { s.gdr b with brkAt := none, brkOver := false }

theorem brakeOff_eq (s : State) (b : Bank) : brakeOff s b = (s.brakeCleared b).inactive (64 + 16 * b.val + 9) := by
  unfold brakeOff State.brakeCleared
  rfl
theorem State.brakeCleared_rd (s : State) (b : Bank) (f : Fld) : (s.brakeCleared b).rd f = (s.wr (F.GDR_VMS_BRK b) 0).rd f := by
  unfold State.brakeCleared
  exact State.setGdr_rd _ _ _ _
theorem State.brakeCleared_src (s : State) (b : Bank) (j : Nat) : (s.brakeCleared b).src j = s.src j :=
  State.src_congr (by simp [State.brakeCleared]) j
theorem State.brakeCleared_gdr (s : State) (b : Bank) : (s.brakeCleared b).gdr b = { s.gdr b with brkAt := none, brkOver := false } :=
  State.gdr_setGdr_self _ b _

theorem brakeOff_braked (s : State) (b : Bank) : Braked b false true s (brakeOff s b) := by
  rw [brakeOff_eq]
  have rd : ∀ f, ((s.brakeCleared b).inactive (64 + 16 * b.val + 9)).rd f = (s.wr (F.GDR_VMS_BRK b) 0).rd f := fun f =>
    (State.inactive_rd _ _ f).trans (s.brakeCleared_rd b f)
  have hu : Supplies b s (s.brakeCleared b) := (s.wr_supplies 0 rfl).trans (State.setGdr_supplies _ b _)
  refine ⟨hu.trans (State.inactive_supplies _ _), (rd _).trans (State.rd_wr_ne s _ (.inr ⟨rfl, rfl, rfl⟩)), ?_, ⟨false, ?_⟩,
    nofun, fun _ => by rw [State.inactive_self], fun j hj => (State.inactive_ne _ hj).trans (s.brakeCleared_src b j)⟩
  · rw [State.flag, rd, State.rd_wr_self s (by rfl)]
    simp
  · rw [State.inactive_gdr, State.brakeCleared_gdr]
    rfl

theorem brakeSample_braked (s : State) (b : Bank) (old code : Nat) :
    Braked b (brakeTurnsOn s b code) (brakeTurnsOff s b code) s (brakeSample s b old code) := by
  rw [brakeSample_eq]
  cases hon : brakeTurnsOn s b code with
  | true =>
    have hoff : brakeTurnsOff s b code = false := by
      simp only [brakeTurnsOn, Bool.and_eq_true, Bool.not_eq_true'] at hon
      simp [brakeTurnsOff, hon.1.1]
    rw [hoff]
    exact brakeOn_braked s b old
  | false =>
    cases hoff : brakeTurnsOff s b code with
    | true => exact brakeOff_braked s b
    | false => exact Braked.refl s

end Supply

end Sys2Proof.Machine

namespace Sys2Proof.Machine

section SupplySources

variable {b : Bank} {s t : State}

/-! Over- and under-voltage (R272). -/

/-- The runs of samples on either side of the limits with a sample of code c. -/
def GdrS.counted (g : GdrS) (ov uv c : Nat) : GdrS :=
  let g := { g with ovRun := if ov ≤ c then g.ovRun + 1 else 0,
                    ovSafe := if ov ≤ c then 0 else g.ovSafe + 1,
                    uvRun := if c < uv then g.uvRun + 1 else 0,
                    uvSafe := if c < uv then 0 else g.uvSafe + 1,
                    uvGood := if uv ≤ c then g.uvGood + 1 else 0 }
  { g with uvArmed := g.uvArmed || 8 ≤ g.uvGood }

/-- An excursion ends with the eighth sample on the safe side. -/
def GdrS.ovEnds (g : GdrS) : Bool := g.ovOut && 8 ≤ g.ovSafe
def GdrS.uvEnds (g : GdrS) : Bool := g.uvOut && 8 ≤ g.uvSafe
/-- An excursion begins with the second sample above the upper limit, and the eighth below the lower. -/
def GdrS.ovBegins (g : GdrS) : Bool := !g.ovOut && 2 ≤ g.ovRun
def GdrS.uvBegins (g : GdrS) : Bool := g.uvArmed && !g.uvOut && 8 ≤ g.uvRun

/-- The excursions that stand after a sample. -/
def GdrS.judged (g : GdrS) : GdrS :=
  { g with ovOut := (g.ovOut && !g.ovEnds) || g.ovBegins, uvOut := (g.uvOut && !g.uvEnds) || g.uvBegins }

/-- What the excursions ending and beginning make of the two sources. -/
def State.supplyRaise (s : State) (b : Bank) (g : GdrS) : State :=
  (((s.ceaseIf g.ovEnds (64 + 16 * b.val)).ceaseIf g.uvEnds (65 + 16 * b.val)).raiseIf g.ovBegins (F.GDR_VMS_OV b)
    (64 + 16 * b.val)).raiseIf g.uvBegins (F.GDR_VMS_UV b) (65 + 16 * b.val)

theorem supplySources_eq (s : State) (b : Bank) (c : Nat) : supplySources s b c =
    (s.setGdr b ((s.gdr b).counted (s.rd (F.GDR_VMS_LIM_OV b)) (s.rd (F.GDR_VMS_LIM_UV b)) c).judged).supplyRaise b
      ((s.gdr b).counted (s.rd (F.GDR_VMS_LIM_OV b)) (s.rd (F.GDR_VMS_LIM_UV b)) c) := by
  unfold supplySources State.supplyRaise State.ceaseIf State.raiseIf GdrS.judged GdrS.ovEnds GdrS.uvEnds GdrS.ovBegins GdrS.uvBegins
  rfl

theorem supply_source (b : Bank) : (sourceRow (64 + 16 * b.val)).isSome = true ∧ (sourceRow (65 + 16 * b.val)).isSome = true := by
  revert b
  decide

theorem pmu_ne_vms (b : Bank) : Reg.PMU_DOM_STAT ≠ Reg.GDR_VMS b := by
  revert b
  decide

theorem faultReg_vms (b : Bank) : faultReg (Reg.GDR_VMS b) = false := by
  revert b
  decide +kernel

theorem State.raiseIf_supplies (s : State) {k : Nat} {f : Fld} (hk : (sourceRow k).isSome = true) (hf : f.off = Reg.GDR_VMS b)
    (hp : s.powered 1 = true) (c : Bool) : Supplies b s (s.raiseIf c f k) := by
  cases c
  · exact Supplies.refl s
  · exact (s.sqc_supplies hf).trans (State.raise_tripped hk (hf ▸ pmu_ne_vms b) hp).supplies

theorem State.raiseIf_gdr (s : State) {k : Nat} {f : Fld} (hk : (sourceRow k).isSome = true) (hf : f.off = Reg.GDR_VMS b)
    (hp : s.powered 1 = true) (c : Bool) : (s.raiseIf c f k).gdr b = s.gdr b := by
  cases c
  · rfl
  · refine ((State.raise_tripped hk (hf ▸ pmu_ne_vms b) hp).gdr b).trans ?_
    have e : (s.sqc f).gdrs = s.gdrs := by simp
    rw [State.gdr, e]
    rfl

theorem State.ceaseIf_rd (s : State) (c : Bool) (k : Nat) (f : Fld) : (s.ceaseIf c k).rd f = s.rd f := by
  cases c
  · rfl
  · exact s.inactive_rd k f

theorem State.ceaseIf_gdr (s : State) (c : Bool) (k : Nat) (d : Bank) : (s.ceaseIf c k).gdr d = s.gdr d := by
  cases c
  · rfl
  · exact s.inactive_gdr k d

/-- From s to t the two sources and their status bits follow the excursions that end and begin. -/
structure Judged (b : Bank) (g : GdrS) (s t : State) : Prop where
  supplies : Supplies b s t
  gdr : t.gdr b = s.gdr b
  rd : ∀ f : Fld, f.off = Reg.GDR_VMS b → f.ok = true → f.hi < 24 → (f.hi < 11 ∨ 12 < f.lo) → t.rd f = s.rd f
  srcs : ∀ j, j ≠ 64 + 16 * b.val → j ≠ 65 + 16 * b.val → t.src j = s.src j
  ov : (t.src (64 + 16 * b.val)).total =
    (if g.ovBegins then min 255 ((s.src (64 + 16 * b.val)).total + 1) else (s.src (64 + 16 * b.val)).total)
  uv : (t.src (65 + 16 * b.val)).total =
    (if g.uvBegins then min 255 ((s.src (65 + 16 * b.val)).total + 1) else (s.src (65 + 16 * b.val)).total)
  ovOn : g.ovBegins = true → (t.src (64 + 16 * b.val)).active = true ∧ t.flag (F.GDR_VMS_OV b) = true
  uvOn : g.uvBegins = true → (t.src (65 + 16 * b.val)).active = true ∧ t.flag (F.GDR_VMS_UV b) = true
  ovOff : g.ovEnds = true → g.ovBegins = false → (t.src (64 + 16 * b.val)).active = false
  uvOff : g.uvEnds = true → g.uvBegins = false → (t.src (65 + 16 * b.val)).active = false

theorem State.supplyRaise_judged (s : State) (b : Bank) (g : GdrS) (hp : s.powered 1 = true) : Judged b g s (s.supplyRaise b g) := by
  obtain ⟨ho, hu⟩ := supply_source b
  have ne : 64 + 16 * b.val ≠ 65 + 16 * b.val := by omega
  let v := s.ceaseIf g.ovEnds (64 + 16 * b.val)
  let w := v.ceaseIf g.uvEnds (65 + 16 * b.val)
  let x := w.raiseIf g.ovBegins (F.GDR_VMS_OV b) (64 + 16 * b.val)
  have hw : Supplies b s w := (s.ceaseIf_supplies _ _).trans (v.ceaseIf_supplies _ _)
  have pw : w.powered 1 = true := (hw.powered 1).trans hp
  have hx : Supplies b w x := w.raiseIf_supplies ho rfl pw _
  have px : x.powered 1 = true := (hx.powered 1).trans pw
  have off : Reg.PMU_DOM_STAT ≠ (F.GDR_VMS_OV b).off ∧ Reg.PMU_DOM_STAT ≠ (F.GDR_VMS_UV b).off := ⟨pmu_ne_vms b, pmu_ne_vms b⟩
  have fov : faultReg (F.GDR_VMS_OV b).off = false ∧ faultReg (F.GDR_VMS_UV b).off = false := ⟨faultReg_vms b, faultReg_vms b⟩
  have hi : (F.GDR_VMS_OV b).hi < 24 ∧ (F.GDR_VMS_UV b).hi < 24 := ⟨show 11 < 24 by decide, show 12 < 24 by decide⟩
  have apart : (F.GDR_VMS_OV b).hi < (F.GDR_VMS_UV b).lo := show 11 < 12 by decide
  obtain ⟨ot, oa, ok⟩ := w.raiseIf_self ho off.1 pw g.ovBegins
  obtain ⟨ut, ua, uk⟩ := x.raiseIf_self hu off.2 px g.uvBegins
  have xk : w.src (64 + 16 * b.val) = { s.src (64 + 16 * b.val) with active := (s.src (64 + 16 * b.val)).active && !g.ovEnds } :=
    (v.ceaseIf_ne _ ne).trans (s.ceaseIf_self _ _)
  have xl : x.src (65 + 16 * b.val) = { s.src (65 + 16 * b.val) with active := (s.src (65 + 16 * b.val)).active && !g.uvEnds } := by
    rw [State.raiseIf_ne ho off.1 pw _ ne.symm, State.ceaseIf_self, State.ceaseIf_ne _ _ ne.symm]
  have tk : (s.supplyRaise b g).src (64 + 16 * b.val) = x.src (64 + 16 * b.val) := x.raiseIf_ne hu off.2 px _ ne
  refine ⟨(hw.trans hx).trans (x.raiseIf_supplies hu rfl px _), ?_, fun f h1 h2 h3 h4 => ?_, fun j h1 h2 => ?_, ?_, ?_,
    fun h => ⟨?_, ?_⟩, fun h => ⟨ua h, x.raiseIf_flag hu off.2 px rfl hi.2 fov.2 _ h⟩, fun h h' => ?_, fun h h' => ?_⟩
  · rw [State.supplyRaise, State.raiseIf_gdr _ hu rfl px, State.raiseIf_gdr _ ho rfl pw, State.ceaseIf_gdr, State.ceaseIf_gdr]
  · have a1 : 12 < f.lo ∨ f.hi < 12 := by omega
    have a2 : 11 < f.lo ∨ f.hi < 11 := by omega
    rw [State.supplyRaise, State.raiseIf_rd_apart hu off.2 px _ h2 h3 h1 fov.2 a1,
      State.raiseIf_rd_apart ho off.1 pw _ h2 h3 h1 fov.1 a2, State.ceaseIf_rd, State.ceaseIf_rd]
  · rw [State.supplyRaise, State.raiseIf_ne hu off.2 px _ h2, State.raiseIf_ne ho off.1 pw _ h1, State.ceaseIf_ne _ _ h2,
      State.ceaseIf_ne _ _ h1]
  · rw [tk, ot, xk]
  · exact ut.trans (by rw [xl])
  · rw [tk]; exact oa h
  · have := w.raiseIf_flag ho off.1 pw rfl hi.1 fov.1 _ h
    refine Eq.trans ?_ this
    exact congrArg (fun z => Decidable.decide (z % 2 = 1)) (x.raiseIf_rd_apart hu off.2 px _ rfl hi.1 rfl fov.2 (.inr apart))
  · rw [tk, ok h', xk, h]; simp
  · exact (congrArg SrcS.active (uk h')).trans (by rw [xl, h]; simp)

theorem supplySources_judged (s : State) (b : Bank) (c : Nat) (hp : s.powered 1 = true) :
    ∃ u, u = s.setGdr b ((s.gdr b).counted (s.rd (F.GDR_VMS_LIM_OV b)) (s.rd (F.GDR_VMS_LIM_UV b)) c).judged ∧
      Judged b ((s.gdr b).counted (s.rd (F.GDR_VMS_LIM_OV b)) (s.rd (F.GDR_VMS_LIM_UV b)) c) u (supplySources s b c) :=
  ⟨_, rfl, supplySources_eq s b c ▸ State.supplyRaise_judged _ b _ (((s.setGdr_supplies b _).powered 1).trans hp)⟩

end SupplySources

end Sys2Proof.Machine

namespace Sys2Proof.Machine

section Sample

variable {b : Bank} {s t : State}

/-! A sample from its start to its end. -/

/-- The sample shows and adds to the mean (R270). -/
def State.supplyShown (s : State) (b : Bank) (c : Nat) : State :=
  (s.wr (F.GDR_VMS_VM b) c).setGdr b { s.gdr b with sum := (s.gdr b).sum + c, cnt := (s.gdr b).cnt + 1 }

theorem exec_motorSupplySample (code : BitVec 10) (ha : analogOn s b = true) :
    exec (.motorSupplySample b code) s = .next (supplySources (brakeSample (esrSample (s.supplyShown b code.toNat) b code.toNat)
      b (s.rd (F.GDR_VMS_VM b)) code.toNat) b code.toNat) := by
  change execMotorSupplySample b code s = _
  unfold execMotorSupplySample State.supplyShown
  rw [ha]
  rfl

theorem State.reading_frame (s : State) (q o : Nat) (v : Int) (l : Bool) : ∃ c, s.reading q o v l = { s with cnd := c } := by
  unfold State.reading
  split
  · exact ⟨_, rfl⟩
  · exact ⟨_, rfl⟩

theorem esrSample_frame (s : State) (b : Bank) (c : Nat) : ∃ x, esrSample s b c = { s with cnd := x } := by
  unfold esrSample
  extract_lets rest
  split
  · exact ⟨_, rfl⟩
  · exact ⟨_, rfl⟩
  · extract_lets esr all w
    split
    · exact ⟨_, rfl⟩
    · exact State.reading_frame w _ _ _ _

theorem State.supplyShown_supplies (s : State) (b : Bank) (c : Nat) : Supplies b s (s.supplyShown b c) :=
  (s.wr_supplies c rfl).trans (State.setGdr_supplies _ b _)

theorem State.supplyShown_rd (s : State) (b : Bank) (c : Nat) (f : Fld) : (s.supplyShown b c).rd f = (s.wr (F.GDR_VMS_VM b) c).rd f := by
  unfold State.supplyShown
  exact State.setGdr_rd _ _ _ _

theorem State.supplyShown_gdr (s : State) (b : Bank) (c : Nat) :
    (s.supplyShown b c).gdr b = { s.gdr b with sum := (s.gdr b).sum + c, cnt := (s.gdr b).cnt + 1 } :=
  State.gdr_setGdr_self _ b _

theorem State.supplyShown_src (s : State) (b : Bank) (c j : Nat) : (s.supplyShown b c).src j = s.src j :=
  State.src_congr (by simp [State.supplyShown]) j

/-- Up to the brake's turn: the sample and its mean show, and nothing else that the brake or the limits read has changed. -/
structure SampleShown (b : Bank) (c : Nat) (s t : State) : Prop where
  supplies : Supplies b s t
  vm : t.rd (F.GDR_VMS_VM b) = c
  brk : t.flag (F.GDR_VMS_BRK b) = s.flag (F.GDR_VMS_BRK b)
  count : t.rd (F.GDR_VMS_BRKCNT b) = s.rd (F.GDR_VMS_BRKCNT b)
  gdr : t.gdr b = { s.gdr b with sum := (s.gdr b).sum + c, cnt := (s.gdr b).cnt + 1 }
  srcs : ∀ j, t.src j = s.src j

theorem State.esrSample_shown (s : State) (b : Bank) {c : Nat} (hc : c < 2 ^ 10) :
    SampleShown b c s (esrSample (s.supplyShown b c) b c) := by
  obtain ⟨x, e⟩ := esrSample_frame (s.supplyShown b c) b c
  have rd : ∀ f, (esrSample (s.supplyShown b c) b c).rd f = (s.wr (F.GDR_VMS_VM b) c).rd f := fun f => by
    rw [e]
    exact s.supplyShown_rd b c f
  have hb : (esrSample (s.supplyShown b c) b c).rd (F.GDR_VMS_BRK b) = s.rd (F.GDR_VMS_BRK b) :=
    (rd _).trans (State.rd_wr_ne s _ (.inr ⟨rfl, rfl, rfl⟩))
  refine ⟨?_, ?_, by rw [State.flag, hb]; rfl, (rd _).trans (State.rd_wr_ne s _ (.inr ⟨rfl, rfl, rfl⟩)), ?_, fun j => ?_⟩
  · rw [e]
    exact (s.supplyShown_supplies b c).trans (State.setCnd_supplies _ x)
  · rw [rd, State.rd_wr_self s (by rfl)]
    exact Nat.mod_eq_of_lt hc
  · rw [e]
    exact s.supplyShown_gdr b c
  · rw [e]
    exact s.supplyShown_src b c j

theorem analog_limits (b : Bank) : faultReg (Reg.GDR_VMS_BRK b) = false ∧ Reg.GDR_VMS_BRK b ≠ Reg.GDR_VMS b ∧
    faultReg (Reg.GDR_VMS_LIM b) = false ∧ Reg.GDR_VMS_LIM b ≠ Reg.GDR_VMS b := by
  revert b
  decide +kernel

theorem Supplies.rd (h : Supplies b s t) {f : Fld} (hq : faultReg f.off = false) (ho : f.off ≠ Reg.GDR_VMS b) : t.rd f = s.rd f :=
  State.rd_of_reg (h.regs _ hq ho)

theorem SampleShown.turns {c : Nat} (h : SampleShown b c s t) (d : Nat) :
    brakeTurnsOn t b d = brakeTurnsOn s b d ∧ brakeTurnsOff t b d = brakeTurnsOff s b d := by
  obtain ⟨q, n, -, -⟩ := analog_limits b
  unfold brakeTurnsOn brakeTurnsOff
  rw [h.brk, h.gdr, h.supplies.rd (f := F.GDR_VMS_BRK_ON b) q n, h.supplies.rd (f := F.GDR_VMS_BRK_OFF b) q n]
  exact ⟨rfl, rfl⟩

/-- The gate stage's store at the judgement of a sample of code c. -/
def GdrS.sampled (g : GdrS) (c : Nat) (at_ : Option Nat) (o : Bool) : GdrS :=
  { g with sum := g.sum + c, cnt := g.cnt + 1, brkAt := at_, brkOver := o }

/-- What a sample does: the brake's turn as seen from the start, then the excursions judged. -/
theorem motorSupplySample_gives (code : BitVec 10) (ha : analogOn s b = true) (hp : s.powered 1 = true) : ∃ w t x g,
    g = ((s.gdr b).sampled code.toNat (if brakeTurnsOn s b code.toNat then some s.clk
      else if brakeTurnsOff s b code.toNat then none else (s.gdr b).brkAt) x).counted (s.rd (F.GDR_VMS_LIM_OV b))
        (s.rd (F.GDR_VMS_LIM_UV b)) code.toNat ∧
    exec (.motorSupplySample b code) s = .next t ∧ Supplies b s w ∧ w.rd (F.GDR_VMS_VM b) = code.toNat ∧
    w.flag (F.GDR_VMS_BRK b) = ((s.flag (F.GDR_VMS_BRK b) || brakeTurnsOn s b code.toNat) && !brakeTurnsOff s b code.toNat) ∧
    (brakeTurnsOn s b code.toNat = true → w.rd (F.GDR_VMS_BRKCNT b) = min 255 (s.rd (F.GDR_VMS_BRKCNT b) + 1)) ∧
    (brakeTurnsOff s b code.toNat = true → (w.src (64 + 16 * b.val + 9)).active = false) ∧
    (∀ j, j ≠ 64 + 16 * b.val + 9 → w.src j = s.src j) ∧ w.gdr b = g.judged ∧ Judged b g w t := by
  have hu := s.esrSample_shown b code.isLt
  have hv := brakeSample_braked (esrSample (s.supplyShown b code.toNat) b code.toNat) b (s.rd (F.GDR_VMS_VM b)) code.toNat
  have he := exec_motorSupplySample code ha
  generalize esrSample (s.supplyShown b code.toNat) b code.toNat = u at hu hv he
  generalize brakeSample u b (s.rd (F.GDR_VMS_VM b)) code.toNat = v at hv he
  have sv := hu.supplies.trans hv.supplies
  obtain ⟨-, -, q, n⟩ := analog_limits b
  obtain ⟨w, hw, hj⟩ := supplySources_judged v b code.toNat ((sv.powered 1).trans hp)
  rw [(hu.turns _).1, (hu.turns _).2] at hv
  rw [sv.rd (f := F.GDR_VMS_LIM_OV b) q n, sv.rd (f := F.GDR_VMS_LIM_UV b) q n] at hw hj
  obtain ⟨x, hg⟩ := hv.gdr
  rw [hu.gdr, hu.supplies.clk] at hg
  rw [hg] at hw hj
  refine ⟨w, _, x, _, rfl, he, ?_, ?_, ?_, fun h => ?_, fun h => ?_, fun j h => ?_, ?_, hj⟩
  · rw [hw]; exact sv.trans (v.setGdr_supplies b _)
  · rw [hw, State.setGdr_rd, hv.vm, hu.vm]
  · rw [hw, State.setGdr_flag, hv.brk, hu.brk]
  · rw [hw, State.setGdr_rd, hv.count h, hu.count]
  · rw [hw]; exact hv.ended h
  · rw [hw]; exact (hv.srcs j h).trans (hu.srcs j)
  · rw [hw, State.gdr_setGdr_self]
    rfl

theorem and_not_and (a d : Bool) : (a && !(a && d)) = (a && !d) := by cases a <;> rfl

/-- An excursion that stood and no longer does has ended, and none has begun. -/
theorem ends_of_judged {out ends begins : Bool} (h : out = true) (hj : (out && !ends || begins) = false) :
    ends = true ∧ begins = false := by
  subst h
  simpa using hj

/-- A supply sample (R270 to R272): the first clause of SupplyAndStoAct. -/
theorem motorSupplySample_acts (b : Bank) (code : BitVec 10) (hp : s.powered 1 = true) (ha : analogOn s b = true) :
    Gives (.motorSupplySample b code) s fun t =>
    let g := s.gdr b
    let c := code.toNat
    let k := 64 + 16 * b.val
    let ov := s.rd (F.GDR_VMS_LIM_OV b)
    let uv := s.rd (F.GDR_VMS_LIM_UV b)
    let ovRun := if ov ≤ c then g.ovRun + 1 else 0
    let uvRun := if c < uv then g.uvRun + 1 else 0
    let armed := g.uvArmed || Decidable.decide (8 ≤ if uv ≤ c then g.uvGood + 1 else 0)
    let ovNew := !g.ovOut && Decidable.decide (2 ≤ ovRun)
    let uvNew := armed && !g.uvOut && Decidable.decide (8 ≤ uvRun)
    let on := s.flag (F.GDR_VMS_BRK b)
    let turnOn := !on && !g.vgLow && Decidable.decide (s.rd (F.GDR_VMS_BRK_ON b) ≤ c)
    let turnOff := on && Decidable.decide (c ≤ s.rd (F.GDR_VMS_BRK_OFF b))
    t.rd (F.GDR_VMS_VM b) = c ∧ (t.gdr b).sum = g.sum + c ∧ (t.gdr b).cnt = g.cnt + 1 ∧
    t.flag (F.GDR_VMS_BRK b) = ((on || turnOn) && !turnOff) ∧
    (t.gdr b).brkAt = (if turnOn then some s.clk else if turnOff then none else g.brkAt) ∧
    (turnOn → t.rd (F.GDR_VMS_BRKCNT b) = min 255 (s.rd (F.GDR_VMS_BRKCNT b) + 1)) ∧
    (turnOff → (t.src (k + 9)).active = false) ∧
    (t.gdr b).ovRun = ovRun ∧ (t.gdr b).uvRun = uvRun ∧ (t.gdr b).uvArmed = armed ∧
    (t.gdr b).ovOut = ((g.ovOut && !Decidable.decide (8 ≤ if ov ≤ c then 0 else g.ovSafe + 1)) || ovNew) ∧
    (t.gdr b).uvOut = ((g.uvOut && !Decidable.decide (8 ≤ if c < uv then 0 else g.uvSafe + 1)) || uvNew) ∧
    (t.src k).total = (if ovNew then min 255 ((s.src k).total + 1) else (s.src k).total) ∧
    (t.src (k + 1)).total = (if uvNew then min 255 ((s.src (k + 1)).total + 1) else (s.src (k + 1)).total) ∧
    (ovNew → (t.src k).active ∧ t.flag (F.GDR_VMS_OV b)) ∧ (uvNew → (t.src (k + 1)).active ∧ t.flag (F.GDR_VMS_UV b)) ∧
    (g.ovOut → (t.gdr b).ovOut = false → (t.src k).active = false) ∧
    (g.uvOut → (t.gdr b).uvOut = false → (t.src (k + 1)).active = false) ∧
    (∀ o, faultReg o = false → o ≠ Reg.GDR_VMS b → t.reg o = s.reg o) ∧ (∀ d, d ≠ b → t.gdr d = s.gdr d) ∧
    t.clk = s.clk ∧ t.gtc = s.gtc ∧ t.coils = s.coils ∧
    (∀ n, t.clp n = { s.clp n with fresh := (t.clp n).fresh }) ∧ t.fbks = s.fbks ∧ t.adcs = s.adcs ∧
    t.reqs = s.reqs := by
  obtain ⟨w, t, x, g, hg, he, sw, hvm, hbrk, hcount, hended, hsrc, hgdr, hj⟩ := motorSupplySample_gives code ha hp
  have k1 : 64 + 16 * b.val + 1 = 65 + 16 * b.val := by omega
  have st := sw.trans hj.supplies
  have gt := hj.gdr.trans hgdr
  have rd : ∀ f : Fld, f.off = Reg.GDR_VMS b → f.ok = true → f.hi < 24 → (f.hi < 11 ∨ 12 < f.lo) → t.rd f = w.rd f := hj.rd
  have brk : t.rd (F.GDR_VMS_BRK b) = w.rd (F.GDR_VMS_BRK b) :=
    rd _ rfl rfl (show 10 < 24 by decide) (.inl (show 10 < 11 by decide))
  have ov := hj.ov
  have uv := hj.uv
  rw [hsrc _ (by omega)] at ov uv
  subst hg
  refine ⟨t, he, (rd _ rfl rfl (show 9 < 24 by decide) (.inl (show 9 < 11 by decide))).trans hvm, congrArg GdrS.sum gt,
    congrArg GdrS.cnt gt, (congrArg (fun z => Decidable.decide (z % 2 = 1)) brk).trans hbrk, congrArg GdrS.brkAt gt,
    fun h => (rd _ rfl rfl (show 23 < 24 by decide) (.inr (show 12 < 16 by decide))).trans (hcount h),
    fun h => (congrArg SrcS.active (hj.srcs _ (by omega) (by omega))).trans (hended h), congrArg GdrS.ovRun gt,
    congrArg GdrS.uvRun gt, congrArg GdrS.uvArmed gt, ?_, ?_, ov, ?_, hj.ovOn, ?_, ?_, ?_, st.regs, st.gdr, st.clk, st.gtc,
    st.coils, st.clps, st.fbks, st.adcs, st.reqs⟩
  · exact (congrArg GdrS.ovOut gt).trans (congrArg (· || _) (and_not_and _ _))
  · exact (congrArg GdrS.uvOut gt).trans (congrArg (· || _) (and_not_and _ _))
  · rw [k1]; exact uv
  · rw [k1]; exact hj.uvOn
  · intro h0 h1
    obtain ⟨e1, e2⟩ := ends_of_judged h0 ((congrArg GdrS.ovOut gt).symm.trans h1)
    exact hj.ovOff e1 e2
  · intro h0 h1
    obtain ⟨e1, e2⟩ := ends_of_judged h0 ((congrArg GdrS.uvOut gt).symm.trans h1)
    rw [k1]
    exact hj.uvOff e1 e2

end Sample

end Sys2Proof.Machine

namespace Sys2Proof.Machine

section Temperature

variable {b : Bank} {s t : State}

/-! ### A temperature sample (R277) -/

/-- The pin voltage is outside the range of a sensor. -/
def ntcBad (u : Nat) : Bool := Decidable.decide (1750000 < u ∨ u < 10000)

/-- The temperature of a sample: the equation's value, or a free one. -/
def ntcDegrees (s : State) (b : Bank) (u : Nat) : Int :=
  clampInt (-32767) 32767 ((ntcTenths u (s.rd (F.GDR_NTC_RNOM b)) (s.rd (F.GDR_NTC_BETA b))).getD (toSigned 16 s.drawn))

/-- The sample is beyond the limits. -/
def ntcOver (s : State) (b : Bank) (u : Nat) : Bool :=
  s.flag (F.GDR_NTC_LIM_EN b) && (ntcBad u || Decidable.decide (s.rdS (F.GDR_NTC_LIM_OT b) ≤ ntcDegrees s b u))

/-- The state from which the sample is taken: a free reading is drawn. -/
def State.ntcDrawn (s : State) (b : Bank) (u : Nat) : State :=
  if ntcBad u ∨ (ntcTenths u (s.rd (F.GDR_NTC_RNOM b)) (s.rd (F.GDR_NTC_BETA b))).isSome then s else s.draw

/-- The sample shows, in its register and the condition monitor. -/
def State.ntcShown (s : State) (b : Bank) (u : Nat) : State :=
  let w := (s.ntcDrawn b u).wr (F.GDR_TEMP_TEMP b) (if ntcBad u then 0x8000 else ofSigned 16 (ntcDegrees s b u))
  if ntcBad u then w else w.reading 11 b.val (ntcDegrees s b u) true

theorem State.ntcDrawn_frame (s : State) (b : Bank) (u : Nat) : ∃ f, s.ntcDrawn b u = { s with freeCtr := f } := by
  unfold State.ntcDrawn
  split
  · exact ⟨_, rfl⟩
  · exact ⟨_, rfl⟩

theorem ntcLim_ne (b : Bank) : Reg.GDR_NTC_LIM b ≠ Reg.GDR_TEMP b ∧ faultReg (Reg.GDR_STAT b) = false ∧
    Reg.PMU_DOM_STAT ≠ Reg.GDR_TEMP b ∧ Reg.PMU_DOM_STAT ≠ Reg.GDR_STAT b ∧ (sourceRow (64 + 16 * b.val + 4)).isSome = true := by
  revert b
  decide +kernel

theorem State.ntcShown_frame (s : State) (b : Bank) (u : Nat) :
    (∃ r c f, s.ntcShown b u = { s with regs := r, cnd := c, freeCtr := f }) ∧ RegsBut [Reg.GDR_TEMP b] s (s.ntcShown b u) := by
  obtain ⟨f, e⟩ := s.ntcDrawn_frame b u
  unfold State.ntcShown
  rw [e]
  extract_lets w
  have hw : RegsBut [Reg.GDR_TEMP b] s w := fun o ho => State.reg_wr_ne { s with freeCtr := f } _ (show o ≠ Reg.GDR_TEMP b by simpa using ho)
  split
  · exact ⟨⟨_, _, f, rfl⟩, hw⟩
  · obtain ⟨c, e⟩ := w.reading_frame 11 b.val (ntcDegrees s b u) true
    rw [e]
    exact ⟨⟨_, c, f, rfl⟩, hw⟩

/-- What the limits read is as it was before the sample. -/
theorem State.ntcShown_limits (s : State) (b : Bank) (u : Nat) : (s.ntcShown b u).flag (F.GDR_NTC_LIM_EN b) = s.flag (F.GDR_NTC_LIM_EN b) ∧
    (s.ntcShown b u).rdS (F.GDR_NTC_LIM_OT b) = s.rdS (F.GDR_NTC_LIM_OT b) ∧ (s.ntcShown b u).gdr b = s.gdr b := by
  obtain ⟨⟨r, c, f, e⟩, h⟩ := s.ntcShown_frame b u
  have h := h _ (by simpa using (ntcLim_ne b).1)
  refine ⟨State.flag_of_reg h, ?_, by rw [e]; rfl⟩
  rw [State.rdS, State.rd_of_reg (f := F.GDR_NTC_LIM_OT b) h]
  rfl

/-- The bank notes whether the sample is beyond the limits. -/
def State.ntcJudged (s : State) (b : Bank) (u : Nat) : State :=
  (s.ntcShown b u).setGdr b { s.gdr b with ntcOut := ntcOver s b u }

theorem exec_ntcSample (uV : BitVec 21) (ha : analogOn s b = true) : exec (.ntcSample b uV) s = .next (
    if ntcOver s b uV.toNat && !(s.gdr b).ntcOut then
      ((s.ntcJudged b uV.toNat).sqc (F.GDR_STAT_OT b)).trip (64 + 16 * b.val + 4) (active := true)
    else if (s.gdr b).ntcOut && !ntcOver s b uV.toNat then (s.ntcJudged b uV.toNat).inactive (64 + 16 * b.val + 4)
    else s.ntcJudged b uV.toNat) := by
  change execNtcSample b uV s = _
  unfold execNtcSample
  rw [ha, Bool.not_true, if_neg Bool.false_ne_true]
  extract_lets u bad r deg z w v out was g x
  have hb : bad = ntcBad u := (Bool.decide_or ..).symm
  have hz : z = s.ntcDrawn b u := by
    unfold z State.ntcDrawn
    rw [hb]
    cases ntcBad u <;> cases hr : ntcTenths u (s.rd (F.GDR_NTC_RNOM b)) (s.rd (F.GDR_NTC_BETA b)) <;> simp [r, hr]
  have hv : v = s.ntcShown b u := by
    unfold v w
    rw [hz, hb]
    rfl
  obtain ⟨h1, h2, h3⟩ := s.ntcShown_limits b u
  have ho : out = ntcOver s b u := by
    unfold out
    rw [hv, h1, h2, hb]
    rfl
  have hx : x = s.ntcJudged b u := by
    unfold x
    rw [hv, show g = s.gdr b by unfold g; rw [hv, h3], ho]
    rfl
  rw [hx, ho, show was = (s.gdr b).ntcOut by unfold was; rw [hv, h3]]

theorem ntcJudged_frame (s : State) (b : Bank) (u : Nat) : (s.ntcJudged b u).powered 1 = s.powered 1 ∧
    (s.ntcJudged b u).fcs = s.fcs := by
  obtain ⟨⟨r, c, f, e⟩, h⟩ := s.ntcShown_frame b u
  have hr := h Reg.PMU_DOM_STAT (by simpa using (ntcLim_ne b).2.2.1)
  have hp : (s.ntcJudged b u).pmu = s.pmu := by rw [State.ntcJudged, State.setGdr_pmu, e]
  exact ⟨State.powered_congr (s := s) (t := s.ntcJudged b u) (by rw [hp]) hr 1, by rw [State.ntcJudged, State.setGdr_fcs, e]⟩

/-- A temperature sample (R277): the second clause of SupplyAndStoAct. -/
theorem ntcSample_acts (b : Bank) (uV : BitVec 21) (hp : s.powered 1 = true) (ha : analogOn s b = true) :
    let u := uV.toNat
    let k := 64 + 16 * b.val + 4
    let out := ntcOver s b u
    let v := s.ntcJudged b u
    (out → (s.gdr b).ntcOut = false → Gives (.ntcSample b uV) s (Tripped k true (v.sqc (F.GDR_STAT_OT b)))) ∧
    ((s.gdr b).ntcOut → out = false → Gives (.ntcSample b uV) s fun t => (t.src k).active = false ∧
      (∀ j, j ≠ k → t.src j = s.src j) ∧ t = { v with fcs := { s.fcs with srcs := t.fcs.srcs } }) ∧
    (out = (s.gdr b).ntcOut → Gives (.ntcSample b uV) s fun t => t = v) := by
  have he := exec_ntcSample uV ha
  obtain ⟨hpow, hfcs⟩ := ntcJudged_frame s b uV.toNat
  intro u k out v
  refine ⟨fun h1 h2 => ⟨_, he, ?_⟩, fun h1 h2 => ⟨_, he, ?_⟩, fun h => ⟨_, he, ?_⟩⟩
  · obtain ⟨-, -, -, hs, hk⟩ := ntcLim_ne b
    rw [show ntcOver s b uV.toNat = true from h1, h2]
    exact State.raise_tripped hk hs (hpow.trans hp)
  · rw [show ntcOver s b uV.toNat = false from h2, h1]
    refine ⟨congrArg SrcS.active (v.inactive_self k), fun j hj => (v.inactive_ne hj).trans (State.src_of_fcs hfcs j), ?_⟩
    have : v.fcs = s.fcs := hfcs
    rw [← this]
    exact v.inactive_rest k
  · rw [show (s.gdr b).ntcOut = ntcOver s b uV.toNat from h.symm]
    cases ntcOver s b uV.toNat <;> rfl

end Temperature

end Sys2Proof.Machine

namespace Sys2Proof.Machine

section Encoder

variable {n : Axis} {s t : State}

/-! ### An encoder that is lost (R337) -/

/-- Where no record is made, writing events touches registers, the notes of the clock, the ports, the contexts and what was
sent. -/
theorem Reports.unstored {R : Nat → Bool} (h : Reports R s t) (hr : R Reg.FCS_REC_CNT = false) : t = { s with
    regs := t.regs, seqDone := t.seqDone, cntNow := t.cntNow, portA := t.portA, portB := t.portB, ctxs := t.ctxs
    sent := t.sent } := by
  obtain ⟨hf, hl⟩ := h.store hr
  have e := h.rest
  rw [hf, hl] at e
  exact e

theorem State.axisEvent_reports (s : State) (n : Axis) (kind d1 d2 : Nat) (tag : Option Nat) (fault : Bool) :
    Reports eventReg s (s.axisEvent n kind d1 d2 tag fault) := Reports.each fun _ k => State.eventTo_reports k _

/-- From s to t axis n has passed to LES: its plan notes that, and its position steps to the estimate. -/
structure TakesLes (n : Axis) (s t : State) : Prop where
  plan : t.plan n = { s.plan n with useLes := true }
  plan_ne : ∀ m, m ≠ n → t.plan m = s.plan m
  fbk : ∃ x, t.fbk n = { s.fbk n with xPrev := x }
  fbk_ne : ∀ m, m ≠ n → t.fbk m = s.fbk m
  regs : ∀ o, eventReg o = false → t.reg o = s.reg o
  rest : t = { s with
    regs := t.regs, plans := t.plans, fbks := t.fbks, less := t.less, ctxs := t.ctxs, portA := t.portA
    portB := t.portB, sent := t.sent, seqDone := t.seqDone, cntNow := t.cntNow }

theorem TakesLes.event {u : State} (h : TakesLes n s t) (r : Reports eventReg t u) : TakesLes n s u := by
  have e := r.unstored (by decide +kernel)
  have hp : ∀ m, u.plan m = t.plan m := fun m => by rw [State.plan, r.plans]; rfl
  have hf : ∀ m, u.fbk m = t.fbk m := fun m => by rw [e]; rfl
  refine ⟨(hp n).trans h.plan, fun m hm => (hp m).trans (h.plan_ne m hm), ?_, fun m hm => (hf m).trans (h.fbk_ne m hm),
    fun o ho => (r.regs o ho).trans (h.regs o ho), ?_⟩
  · obtain ⟨x, hx⟩ := h.fbk
    exact ⟨x, (hf n).trans hx⟩
  · have e' := e
    rw [h.rest] at e'
    rw [e']

/-- The axis's own notes of the passage. -/
def State.lesTaken (s : State) (n : Axis) (d : Rat) : State :=
  let s := s.setPlan n { s.plan n with useLes := true }
  let s := s.setFbk n { s.fbk n with xPrev := (s.fbk n).xPrev + d }
  s.setLes n { s.les n with moved := 0, obsN := 0, blkN := 0 }

theorem State.lesTaken_takes (s : State) (n : Axis) (d : Rat) : TakesLes n s (s.lesTaken n d) :=
  ⟨State.plan_setPlan_self s n _, fun _ hm => State.plan_setPlan_ne s _ hm, ⟨_, State.fbk_setFbk_self _ n _⟩,
    fun _ hm => State.fbk_setFbk_ne _ _ hm, fun _ _ => rfl, rfl⟩

theorem State.switchToLes_takes (s : State) (n : Axis) (x : Rat) (he : encoder s n = true) : TakesLes n s (s.switchToLes n x) := by
  unfold State.switchToLes
  split
  · rename_i h
    have hu : (s.plan n).useLes = true := by simpa [actLes, he] using h
    refine ⟨?_, fun _ _ => rfl, ⟨_, rfl⟩, fun _ _ => rfl, fun _ _ => rfl, rfl⟩
    rw [← hu]
  · exact (s.lesTaken_takes n _).event (State.axisEvent_reports _ _ _ _ _ _ _)

/-- The encoder shows lost, and the words that were to follow are dropped. -/
def State.lossShown (s : State) (n : Axis) : State :=
  let s := (s.wr (F.FBK_STAT_VALID n) 0).sqc (F.FBK_STAT_LOST n)
  s.setFbk n { s.fbk n with words := [], goodRun := 0 }

theorem exec_encoderLost (h : encoder s n = true) (ho : fbkOn s n = true) (hv : s.flag (F.FBK_STAT_VALID n) = true)
    (he : s.rd (F.FBK_CFG_ERR_N n) ≤ (s.fbk n).errRun) : exec (.encoderLost n) s = .next
      (((s.lossShown n).switchToLes n ((s.lossShown n).les n).xEst).trip (128 + 16 * n.val + 13)) := by
  change execEncoderLost n s = _
  unfold execEncoderLost State.lossShown
  rw [if_pos (by simp [h, ho, hv, he])]

theorem fbkStat_ne (n : Axis) : Reg.FBK_CFG n ≠ Reg.FBK_STAT n ∧ Reg.PMU_DOM_STAT ≠ Reg.FBK_STAT n ∧
    eventReg (Reg.FBK_STAT n) = false ∧ (sourceRow (128 + 16 * n.val + 13)).isSome = true := by
  revert n
  decide +kernel

theorem State.lossShown_reg_ne (s : State) (n : Axis) {o : Nat} (h : o ≠ Reg.FBK_STAT n) : (s.lossShown n).reg o = s.reg o :=
  (State.reg_sqc_ne _ h).trans (State.reg_wr_ne s _ h)

theorem State.lossShown_flags (s : State) (n : Axis) : (s.lossShown n).flag (F.FBK_STAT_VALID n) = false ∧
    (s.lossShown n).flag (F.FBK_STAT_LOST n) = true := by
  have rd : ∀ f, (s.lossShown n).flag f = ((s.wr (F.FBK_STAT_VALID n) 0).sqc (F.FBK_STAT_LOST n)).flag f := fun _ => rfl
  refine ⟨(rd _).trans ?_, (rd _).trans (State.flag_sqc _ (by rfl) (show 1 < 24 by decide))⟩
  rw [State.flag_sqc_apart _ (f := F.FBK_STAT_LOST n) (g := F.FBK_STAT_VALID n) (by rfl) (show 0 < 24 by decide) rfl (.inr (show 0 < 1 by decide)), State.flag_wr_self s (by rfl)]
  rfl

theorem State.lossShown_frame (s : State) (n : Axis) : ∃ r q, s.lossShown n = { s with
    regs := r, seqDone := q, fbks := s.fbks.set n { s.fbk n with words := [], goodRun := 0 } } := by
  obtain ⟨w, q, e⟩ := (s.wr (F.FBK_STAT_VALID n) 0).sqcMask_shape (F.FBK_STAT_LOST n).off (2 ^ (F.FBK_STAT_LOST n).lo)
  obtain ⟨r, e'⟩ := s.wr_frame (F.FBK_STAT_VALID n) 0
  unfold State.lossShown
  rw [State.sqc, e, e']
  exact ⟨_, q, rfl⟩

/-- An encoder lost (R337): the third clause of SupplyAndStoAct. -/
theorem encoderLost_acts (hp : s.powered 1 = true) (h : encoder s n = true) (ho : fbkOn s n = true)
    (hv : s.flag (F.FBK_STAT_VALID n) = true) (he : s.rd (F.FBK_CFG_ERR_N n) ≤ (s.fbk n).errRun) :
    Gives (.encoderLost n) s fun t => ∃ v, Tripped (128 + 16 * n.val + 13) false v t ∧
      v.flag (F.FBK_STAT_VALID n) = false ∧ v.flag (F.FBK_STAT_LOST n) ∧ (v.fbk n).words = [] ∧ (v.fbk n).goodRun = 0 ∧
      v.plan n = { s.plan n with useLes := true } ∧ (∀ m, m ≠ n → v.plan m = s.plan m ∧ v.fbk m = s.fbk m) ∧
      (∀ o, faultReg o = false → o ≠ Reg.FBK_STAT n → v.reg o = s.reg o) ∧
      v = { s with
        regs := v.regs, plans := v.plans, fbks := v.fbks, less := v.less, ctxs := v.ctxs, portA := v.portA
        portB := v.portB, sent := v.sent, seqDone := v.seqDone, cntNow := v.cntNow } := by
  obtain ⟨n1, n2, q, hk⟩ := fbkStat_ne n
  obtain ⟨f1, f2⟩ := s.lossShown_flags n
  have he := exec_encoderLost h ho hv he
  have hreg : ∀ o, o ≠ Reg.FBK_STAT n → (s.lossShown n).reg o = s.reg o := fun o => s.lossShown_reg_ne n
  have henc : encoder (s.lossShown n) n = true := by
    unfold encoder
    rw [State.rd_of_reg (f := F.FBK_CFG_MODE n) (hreg _ n1)]
    exact h
  obtain ⟨r, b, e⟩ := s.lossShown_frame n
  have hpow : (s.lossShown n).powered 1 = true := (State.powered_congr (by rw [e]) (hreg _ n2) 1).trans hp
  have hpl : ∀ m, (s.lossShown n).plan m = s.plan m := fun m => by rw [e]; rfl
  have hfb : (s.lossShown n).fbk n = { s.fbk n with words := [], goodRun := 0 } := by rw [e]; exact s.fbk_setFbk_self n _
  have hfn : ∀ m, m ≠ n → (s.lossShown n).fbk m = s.fbk m := fun m hm => by rw [e]; exact s.fbk_setFbk_ne _ hm
  have hl := (s.lossShown n).switchToLes_takes n ((s.lossShown n).les n).xEst henc
  generalize hu : s.lossShown n = u at *
  generalize u.switchToLes n (u.les n).xEst = v at *
  obtain ⟨x, hx⟩ := hl.fbk
  have hpv : v.powered 1 = true := (State.powered_congr (by rw [hl.rest]) (hl.regs _ (by decide +kernel)) 1).trans hpow
  refine ⟨_, he, v, State.trip_tripped _ _ _ _ _ hk hpv, (State.flag_of_reg (hl.regs _ q)).trans f1,
    (State.flag_of_reg (hl.regs _ q)).trans f2, by rw [hx, hfb], by rw [hx, hfb], by rw [hl.plan, hpl],
    fun m hm => ⟨(hl.plan_ne m hm).trans (hpl m), (hl.fbk_ne m hm).trans (hfn m hm)⟩, fun o h1 h2 => ?_, ?_⟩
  · refine (hl.regs o ?_).trans (hreg o h2)
    by_contra hc
    exact absurd (faultReg_of_reportReg o (reportReg_of_ringReg o (ringReg_of_eventReg o (by simpa using hc)))) (by simp [h1])
  · have e' := hl.rest
    rw [e] at e'
    exact e'

end Encoder

end Sys2Proof.Machine

namespace Sys2Proof.Machine

section Sto

variable {s t u v : State}

/-! ### Safe torque off (R278 to R280) -/

theorem faultReg_sto : faultReg Reg.GDR_STO_STAT = false ∧ Reg.PMU_DOM_STAT ≠ Reg.GDR_STO_STAT := by decide +kernel

/-- The levels of the two inputs are shown, and the clock of their latest change noted. -/
def State.stoAt (s : State) (a b : Bool) : Nat :=
  if s.flag F.GDR_STO_STAT_A = a ∧ s.flag F.GDR_STO_STAT_B = b then s.fcs.stoAt else s.clk

theorem State.stoLevels_frame (s : State) (a b : Bool) :
    (∃ r, s.stoLevels a b = { s with regs := r, fcs := { s.fcs with stoAt := s.stoAt a b } }) ∧
      RegsBut [Reg.GDR_STO_STAT] s (s.stoLevels a b) := by
  unfold State.stoLevels State.stoAt
  split
  · exact ⟨⟨s.regs, rfl⟩, RegsBut.refl _ s⟩
  · have h : Writes [Reg.GDR_STO_STAT] s ((s.wrB F.GDR_STO_STAT_A a).wrB F.GDR_STO_STAT_B b) :=
      ((Writes.refl _ s).wr _ (by decide)).wr _ (by decide)
    generalize (s.wrB F.GDR_STO_STAT_A a).wrB F.GDR_STO_STAT_B b = v at h ⊢
    obtain ⟨⟨r, rfl⟩, hr⟩ := h
    exact ⟨⟨r, rfl⟩, hr⟩

theorem flag_wrB_self (s : State) {f : Fld} (hf : f.ok = true) (a : Bool) : (s.wrB f a).flag f = a := by
  rw [State.wrB, State.flag_wr_self s hf]
  cases a <;> rfl

theorem flag_wrB_ne (s : State) {f g : Fld} (a : Bool) (h : f.ok = true ∧ g.ok = true ∧ f.apart g = true) :
    (s.wrB f a).flag g = s.flag g := by
  rw [State.wrB, State.flag, State.rd_wr_ne s _ (.inr h)]
  rfl

theorem State.stoLevels_shows (s : State) (a b : Bool) : (s.stoLevels a b).flag F.GDR_STO_STAT_A = a ∧
    (s.stoLevels a b).flag F.GDR_STO_STAT_B = b ∧ (s.stoLevels a b).flag F.GDR_STO_STAT_EN = s.flag F.GDR_STO_STAT_EN := by
  unfold State.stoLevels
  split
  · rename_i h
    exact ⟨h.1, h.2, rfl⟩
  · have h1 := (flag_wrB_ne (f := F.GDR_STO_STAT_B) (g := F.GDR_STO_STAT_A) (s.wrB F.GDR_STO_STAT_A a) b (by decide)).trans (flag_wrB_self s (by decide) a)
    have h2 := flag_wrB_self (s.wrB F.GDR_STO_STAT_A a) (f := F.GDR_STO_STAT_B) (by decide) b
    have h3 := (flag_wrB_ne (f := F.GDR_STO_STAT_B) (g := F.GDR_STO_STAT_EN) (s.wrB F.GDR_STO_STAT_A a) b (by decide)).trans
      (flag_wrB_ne s a (by decide))
    generalize (s.wrB F.GDR_STO_STAT_A a).wrB F.GDR_STO_STAT_B b = v at h1 h2 h3 ⊢
    exact ⟨h1, h2, h3⟩

/-! Inputs that return, and the enables after them. -/

theorem State.ceaseIf_flag (s : State) (c : Bool) (k : Nat) (f : Fld) : (s.ceaseIf c k).flag f = s.flag f := by
  rw [State.flag, State.ceaseIf_rd]
  rfl

theorem State.stoPermit_eq (s : State) (which : Fin 3) (a b : Bool) (ha : a = (s.flag F.GDR_STO_STAT_A || Decidable.decide (which ≠ 1)))
    (hb : b = (s.flag F.GDR_STO_STAT_B || Decidable.decide (which ≠ 0))) :
    s.stoPermit which = ((s.stoLevels a b).ceaseIf a 8).ceaseIf b 9 := by
  subst ha hb
  unfold State.stoPermit
  generalize hu : s.stoLevels _ _ = u
  obtain ⟨h1, h2, -⟩ := s.stoLevels_shows (s.flag F.GDR_STO_STAT_A || Decidable.decide (which ≠ 1))
    (s.flag F.GDR_STO_STAT_B || Decidable.decide (which ≠ 0))
  rw [hu] at h1 h2
  have h3 := u.ceaseIf_flag (u.flag F.GDR_STO_STAT_A) 8 F.GDR_STO_STAT_B
  rw [← h1, ← h2]
  rw [← h3]
  rfl

theorem exec_stoDemand_permit (which : Fin 3) (hp : s.powered 1 = true) :
    exec (.stoDemand ⟨which, true⟩) s = .next (s.stoPermit which) := by
  change execStoDemand ⟨which, true⟩ s = _
  unfold execStoDemand
  rw [hp]
  rfl

/-- Inputs that come back to the permit level (R278, R285): a clause of SupplyAndStoAct. -/
theorem stoDemand_permits (which : Fin 3) (hp : s.powered 1 = true) : Gives (.stoDemand ⟨which, true⟩) s fun t =>
    let a := s.flag F.GDR_STO_STAT_A || which ≠ 1
    let b := s.flag F.GDR_STO_STAT_B || which ≠ 0
    t.flag F.GDR_STO_STAT_A = a ∧ t.flag F.GDR_STO_STAT_B = b ∧
    (t.src 8).active = ((s.src 8).active && !a) ∧ (t.src 9).active = ((s.src 9).active && !b) ∧
    (∀ j, j ≠ 8 → j ≠ 9 → t.src j = s.src j) ∧ RegsBut [Reg.GDR_STO_STAT] s t ∧
    t.flag F.GDR_STO_STAT_EN = s.flag F.GDR_STO_STAT_EN ∧
    t.fcs.stoAt = (if s.flag F.GDR_STO_STAT_A = a ∧ s.flag F.GDR_STO_STAT_B = b then s.fcs.stoAt else s.clk) ∧
    t = { s with regs := t.regs, fcs := { s.fcs with srcs := t.fcs.srcs, stoAt := t.fcs.stoAt } } := by
  refine ⟨_, exec_stoDemand_permit which hp, ?_⟩
  dsimp only
  generalize ha : (s.flag F.GDR_STO_STAT_A || Decidable.decide (which ≠ 1)) = a
  generalize hb : (s.flag F.GDR_STO_STAT_B || Decidable.decide (which ≠ 0)) = b
  rw [s.stoPermit_eq which a b ha.symm hb.symm]
  obtain ⟨h1, h2, h3⟩ := s.stoLevels_shows a b
  obtain ⟨⟨r, e⟩, hr⟩ := s.stoLevels_frame a b
  have hs : ∀ j, (s.stoLevels a b).src j = s.src j := fun j => State.src_congr (by rw [e]) j
  generalize s.stoLevels a b = u at *
  obtain ⟨x, ex⟩ := u.ceaseIf_frame a 8
  obtain ⟨y, ey⟩ := (u.ceaseIf a 8).ceaseIf_frame b 9
  refine ⟨?_, ?_, ?_, ?_, fun j j1 j2 => ?_, fun o ho => ?_, ?_, ?_, ?_⟩
  · rw [State.ceaseIf_flag, State.ceaseIf_flag, h1]
  · rw [State.ceaseIf_flag, State.ceaseIf_flag, h2]
  · rw [State.ceaseIf_ne _ _ (by decide), State.ceaseIf_self, hs]
  · rw [State.ceaseIf_self, State.ceaseIf_ne _ _ (by decide), hs]
  · rw [State.ceaseIf_ne _ _ j2, State.ceaseIf_ne _ _ j1, hs]
  · rw [ey, ex]; exact hr o ho
  · rw [State.ceaseIf_flag, State.ceaseIf_flag, h3]
  · rw [ey, ex, e]; rfl
  · rw [ey, ex, e]

theorem State.gatesReturn_writes (s : State) : Writes [Reg.GDR_STO_STAT] s s.gatesReturn := by
  unfold State.gatesReturn
  split
  · exact (Writes.refl _ s).wr _ (by decide)
  · exact Writes.refl _ s

theorem State.gatesReturn_eq (s : State) (h : stoPermits s = true) : s.gatesReturn = if gatesMay s then s.wr F.GDR_STO_STAT_EN 1 else s := by
  unfold State.gatesReturn
  rw [h, Bool.true_and]

theorem exec_stoPermitReturn (hp : s.powered 1 = true) (ha : s.flag F.GDR_STO_STAT_A = true) (hb : s.flag F.GDR_STO_STAT_B = true)
    (hu : s.advTo (s.fcs.stoAt + msClk 1) = u) :
    exec .stoPermitReturn s = .next ((u.ceaseIf (!u.fcs.discWait) 10).gatesReturn) := by
  change execStoPermitReturn s = _
  unfold execStoPermitReturn
  rw [hp, ha, hb, if_pos (by decide), hu]
  unfold State.ceaseIf
  dsimp only
  cases u.fcs.discWait <;> rfl

/-- The enables return after both inputs have permitted for 1 ms (R280): a clause of SupplyAndStoAct. -/
theorem stoPermitReturn_returns (hp : s.powered 1 = true) (ha : s.flag F.GDR_STO_STAT_A = true)
    (hb : s.flag F.GDR_STO_STAT_B = true) (hu : s.advTo (s.fcs.stoAt + msClk 1) = u) :
    Gives .stoPermitReturn s fun t => t.flag F.GDR_STO_STAT_EN = (s.flag F.GDR_STO_STAT_EN || gatesMay u) ∧
      (t.src 10).active = ((s.src 10).active && s.fcs.discWait) ∧ (∀ j, j ≠ 10 → t.src j = s.src j) ∧
      RegsBut [Reg.GDR_STO_STAT] s t ∧ t = { u with regs := t.regs, fcs := { s.fcs with srcs := t.fcs.srcs } } := by
  have he := exec_stoPermitReturn hp ha hb hu
  have hclk : s.fcs.stoAt + msClk 1 ≤ u.clk := by
    rw [← hu, State.clk_advTo]
    exact Nat.le_max_right _ _
  have hf : u.fcs = s.fcs := by rw [← hu, State.advTo_fcs]
  have hr : ∀ o, u.reg o = s.reg o := fun o => by rw [← hu, State.advTo_reg]
  rw [hf] at he
  obtain ⟨x, ex⟩ := u.ceaseIf_frame (!s.fcs.discWait) 10
  have hsrc := u.ceaseIf_self (!s.fcs.discWait) 10
  have hne : ∀ j, j ≠ 10 → (u.ceaseIf (!s.fcs.discWait) 10).src j = s.src j := fun j h =>
    (u.ceaseIf_ne _ h).trans (State.src_of_fcs hf j)
  rw [State.src_of_fcs hf, Bool.not_not] at hsrc
  have hperm : stoPermits (u.ceaseIf (!s.fcs.discWait) 10) = true := by
    have h1 : u.flag F.GDR_STO_STAT_A = true := (State.flag_of_reg (hr _)).trans ha
    have h2 : u.flag F.GDR_STO_STAT_B = true := (State.flag_of_reg (hr _)).trans hb
    have h3 : (u.ceaseIf (!s.fcs.discWait) 10).fcs.stoAt + msClk 1 ≤ (u.ceaseIf (!s.fcs.discWait) 10).clk := by
      rw [ex]; exact hf ▸ hclk
    rw [stoPermits, State.ceaseIf_flag, State.ceaseIf_flag, h1, h2, decide_eq_true h3]
    rfl
  have hmay : gatesMay (u.ceaseIf (!s.fcs.discWait) 10) = gatesMay u := by rw [ex]; rfl
  have hen : (u.ceaseIf (!s.fcs.discWait) 10).flag F.GDR_STO_STAT_EN = s.flag F.GDR_STO_STAT_EN :=
    (u.ceaseIf_flag _ _ _).trans (State.flag_of_reg (hr _))
  have hreg : ∀ o, (u.ceaseIf (!s.fcs.discWait) 10).reg o = s.reg o := fun o => by rw [ex]; exact hr o
  have hrest : ∃ y, u.ceaseIf (!s.fcs.discWait) 10 = { u with fcs := { s.fcs with srcs := y } } := ⟨x, by rw [ex, hf]⟩
  generalize u.ceaseIf (!s.fcs.discWait) 10 = v at *
  have hw := v.gatesReturn_writes
  have hfl : v.gatesReturn.flag F.GDR_STO_STAT_EN = (v.flag F.GDR_STO_STAT_EN || gatesMay v) := by
    rw [v.gatesReturn_eq hperm]
    cases gatesMay v
    · simp
    · rw [Bool.or_true]
      exact State.flag_wr_self v (by decide) 1
  generalize v.gatesReturn = t at *
  obtain ⟨⟨r, rfl⟩, ho⟩ := hw
  refine ⟨_, he, by rw [hfl, hen, hmay], congrArg SrcS.active hsrc, hne, fun o h => (ho o h).trans (hreg o), ?_⟩
  obtain ⟨y, rfl⟩ := hrest
  rfl

end Sto

end Sys2Proof.Machine

namespace Sys2Proof.Machine

section Demand

variable {s t u v w : State}

/-! An input that demands (R279). -/

theorem sto_sources : (sourceRow 8).isSome = true ∧ (sourceRow 9).isSome = true ∧ (sourceRow 10).isSome = true := by decide

/-- Every axis is turned off on the demand. -/
def State.stoOff (s : State) (which : Fin 3) : State := each allAxes (fun s n => s.turnOff n (.sto which.val)) s

theorem State.stoOff_reaction (s : State) (which : Fin 3) : Reaction s (s.stoOff which) :=
  Reaction.each (fun _ _ h => State.turnOff_reacts _ _ _ h) (Reaction.refl s)

theorem State.stoOff_off (s : State) (which : Fin 3) (n : Axis) : ((s.stoOff which).plan n).st = .off :=
  State.turnOff_each_off allAxes (fun _ => .sto which.val) s (List.mem_finRange n)

/-- The enables are removed, the demand shows, and with both inputs at demand no discrepancy is left. -/
def State.stoRemoved (s : State) : State :=
  let s := (s.wr F.GDR_STO_STAT_EN 0).sqc F.GDR_STO_STAT_DEMAND
  if !s.flag F.GDR_STO_STAT_A && !s.flag F.GDR_STO_STAT_B then { s with fcs := { s.fcs with discWait := false } } else s

/-- The sources of the inputs that demand. -/
def State.stoTrips (s : State) (which : Fin 3) : State :=
  let s := if which ≠ 1 then s.trip 8 (active := true) else s
  if which ≠ 0 then s.trip 9 (active := true) else s

theorem exec_stoDemand (which : Fin 3) (hp : s.powered 1 = true) : exec (.stoDemand ⟨which, false⟩) s = .next (State.arranged s
    ((((s.stoLevels (s.flag F.GDR_STO_STAT_A && Decidable.decide (which = 1)) (s.flag F.GDR_STO_STAT_B &&
      Decidable.decide (which = 0))).stoOff which).stoRemoved).stoTrips which)) := by
  change execStoDemand ⟨which, false⟩ s = _
  have hn : ∀ p : Prop, [Decidable p] → (!Decidable.decide (¬p)) = Decidable.decide p := fun p _ => by simp
  unfold execStoDemand
  rw [hp, Bool.not_true, if_neg Bool.false_ne_true, if_neg Bool.false_ne_true]
  rw [← hn (which = 1), ← hn (which = 0)]
  rfl

theorem stoRemoved_flag (s : State) {f : Fld} (h : f = F.GDR_STO_STAT_A ∨ f = F.GDR_STO_STAT_B) :
    ((s.wr F.GDR_STO_STAT_EN 0).sqc F.GDR_STO_STAT_DEMAND).flag f = s.flag f := by
  rcases h with rfl | rfl <;>
  · rw [State.flag_sqc_apart _ (by decide) (by decide) (by decide) (by decide), State.flag, State.rd_wr_ne s _ (.inr (by decide))]
    rfl

theorem State.stoRemoved_eq (s : State) : s.stoRemoved = { (s.wr F.GDR_STO_STAT_EN 0).sqc F.GDR_STO_STAT_DEMAND with
    fcs := { ((s.wr F.GDR_STO_STAT_EN 0).sqc F.GDR_STO_STAT_DEMAND).fcs with
      discWait := s.fcs.discWait && (s.flag F.GDR_STO_STAT_A || s.flag F.GDR_STO_STAT_B) } } := by
  have h1 : ((s.wr F.GDR_STO_STAT_EN 0).sqc F.GDR_STO_STAT_DEMAND).flag F.GDR_STO_STAT_A = s.flag F.GDR_STO_STAT_A := stoRemoved_flag s (.inl rfl)
  have h2 : ((s.wr F.GDR_STO_STAT_EN 0).sqc F.GDR_STO_STAT_DEMAND).flag F.GDR_STO_STAT_B = s.flag F.GDR_STO_STAT_B := stoRemoved_flag s (.inr rfl)
  have hf : ((s.wr F.GDR_STO_STAT_EN 0).sqc F.GDR_STO_STAT_DEMAND).fcs = s.fcs := by simp
  unfold State.stoRemoved
  generalize (s.wr F.GDR_STO_STAT_EN 0).sqc F.GDR_STO_STAT_DEMAND = w at *
  dsimp only
  rw [h1, h2, ← hf]
  cases s.flag F.GDR_STO_STAT_A <;> cases s.flag F.GDR_STO_STAT_B <;> simp

theorem State.trip_reg (s : State) (k : Nat) (act : Bool) {o : Nat} (h : faultReg o = false) : (s.trip k act).reg o = s.reg o := by
  rcases s.trip_cases k act none false with e | e
  · rw [e]
  · exact e.reaction.regs o h

theorem State.stoTrips_reg (s : State) (which : Fin 3) {o : Nat} (h : faultReg o = false) : (s.stoTrips which).reg o = s.reg o := by
  unfold State.stoTrips
  split <;> split <;> simp only [State.trip_reg _ _ _ h]

theorem State.stoTrips_staysOff (s : State) (which : Fin 3) : StaysOff s (s.stoTrips which) := by
  unfold State.stoTrips
  exact (StaysOff.ite (State.trip_staysOff _ _ _ _ _) (StaysOff.refl s)).trans
    (StaysOff.ite (State.trip_staysOff _ _ _ _ _) (StaysOff.refl _))

/-- The sources that the demand trips, one for each input. -/
theorem State.stoTrips_tripped (s : State) (hp : s.powered 1 = true) :
    Tripped 8 true s (s.stoTrips 0) ∧ Tripped 9 true s (s.stoTrips 1) ∧
      ∃ x, Tripped 8 true s x ∧ Tripped 9 true x (s.stoTrips 2) := by
  obtain ⟨h8, h9, -⟩ := sto_sources
  have t8 : Tripped 8 true s (s.trip 8 true) := State.trip_tripped _ _ _ _ _ h8 hp
  exact ⟨t8, State.trip_tripped _ _ _ _ _ h9 hp, _, t8, State.trip_tripped _ _ _ _ _ h9 ((t8.powered 1).trans hp)⟩

/-- Removing the enables keeps the axes' plans and D1. -/
theorem State.stoRemoved_keeps (s : State) : s.stoRemoved.plans = s.plans ∧ s.stoRemoved.powered 1 = s.powered 1 ∧
    s.stoRemoved.flag F.GDR_STO_STAT_EN = false := by
  have hp : ((s.wr F.GDR_STO_STAT_EN 0).sqc F.GDR_STO_STAT_DEMAND).plans = s.plans := by simp
  have hq : ((s.wr F.GDR_STO_STAT_EN 0).sqc F.GDR_STO_STAT_DEMAND).powered 1 = s.powered 1 :=
    ((State.powered_sqc _ (by decide) 1).trans (State.powered_wr s 0 1 (by decide)))
  have hf : ((s.wr F.GDR_STO_STAT_EN 0).sqc F.GDR_STO_STAT_DEMAND).flag F.GDR_STO_STAT_EN = false := by
    rw [State.flag_sqc_apart _ (by decide) (by decide) (by decide) (by decide), State.flag_wr_self s (by decide)]
    rfl
  rw [State.stoRemoved_eq]
  generalize (s.wr F.GDR_STO_STAT_EN 0).sqc F.GDR_STO_STAT_DEMAND = w at *
  exact ⟨hp, hq, hf⟩

/-- An input that demands (R279): a clause of SupplyAndStoAct. -/
theorem stoDemand_acts (which : Fin 3) (hp : s.powered 1 = true) : Gives (.stoDemand ⟨which, false⟩) s fun t => ∃ v,
    let u := s.stoLevels (s.flag F.GDR_STO_STAT_A && which = 1) (s.flag F.GDR_STO_STAT_B && which = 0)
    let w := (v.wr F.GDR_STO_STAT_EN 0).sqc F.GDR_STO_STAT_DEMAND
    let w := { w with fcs := { w.fcs with discWait := (s.fcs.discWait &&
      (u.flag F.GDR_STO_STAT_A || u.flag F.GDR_STO_STAT_B)) } }
    u.flag F.GDR_STO_STAT_A = (s.flag F.GDR_STO_STAT_A && which = 1) ∧
    u.flag F.GDR_STO_STAT_B = (s.flag F.GDR_STO_STAT_B && which = 0) ∧ Reaction u v ∧ v.fcs.srcs = s.fcs.srcs ∧
      (∀ n, (v.plan n).st = .off) ∧ (∀ n, (t.plan n).st = .off) ∧
    t.flag F.GDR_STO_STAT_EN = false ∧
    (which = 0 → Tripped 8 true w t) ∧ (which = 1 → Tripped 9 true w t) ∧
    (which = 2 → ∃ x, Tripped 8 true w x ∧ Tripped 9 true x t) := by
  have he := exec_stoDemand which hp
  obtain ⟨ha, hb, -⟩ := s.stoLevels_shows (s.flag F.GDR_STO_STAT_A && Decidable.decide (which = 1))
    (s.flag F.GDR_STO_STAT_B && Decidable.decide (which = 0))
  obtain ⟨⟨r, e⟩, hr⟩ := s.stoLevels_frame (s.flag F.GDR_STO_STAT_A && Decidable.decide (which = 1))
    (s.flag F.GDR_STO_STAT_B && Decidable.decide (which = 0))
  refine ⟨_, he, ?_⟩
  generalize s.stoLevels (s.flag F.GDR_STO_STAT_A && Decidable.decide (which = 1)) (s.flag F.GDR_STO_STAT_B &&
    Decidable.decide (which = 0)) = u at *
  have hv := u.stoOff_reaction which
  have ho := u.stoOff_off which
  have hw := (u.stoOff which).stoRemoved_eq
  have hfcs : (u.stoOff which).fcs.srcs = s.fcs.srcs ∧ (u.stoOff which).fcs.discWait = s.fcs.discWait := by
    constructor <;> rw [hv.rest, e]
  have hfl : (u.stoOff which).flag F.GDR_STO_STAT_A = u.flag F.GDR_STO_STAT_A ∧
      (u.stoOff which).flag F.GDR_STO_STAT_B = u.flag F.GDR_STO_STAT_B :=
    ⟨State.flag_of_reg (hv.regs _ faultReg_sto.1), State.flag_of_reg (hv.regs _ faultReg_sto.1)⟩
  have hpv : (u.stoOff which).powered 1 = true :=
    (hv.powered 1).trans ((State.powered_congr (by rw [e]) (hr _ (by simp [faultReg_sto.2])) 1).trans hp)
  obtain ⟨k1, k2, k3⟩ := (u.stoOff which).stoRemoved_keeps
  rw [hfcs.2, hfl.1, hfl.2] at hw
  generalize u.stoOff which = v at *
  refine ⟨v, ?_⟩
  intro _ _ w
  have hw : v.stoRemoved = w := hw
  clear_value w
  obtain ⟨t8, t9, x, t8x, t9x⟩ := v.stoRemoved.stoTrips_tripped (k2.trans hpv)
  have ar : ∀ y, Reaction y (State.arranged s y) := fun y => State.arranged_reacts s y (Reaction.refl y)
  rw [hw] at t8 t9 t8x t9x
  refine ⟨ha, hb, hv, hfcs.1, ho, fun n => ?_, ?_, ?_, ?_, ?_⟩
  · refine (v.stoRemoved.stoTrips_staysOff which).off n ?_
    rw [State.plan, k1]
    exact ho n
  · exact (State.flag_of_reg (State.stoTrips_reg _ which faultReg_sto.1)).trans k3
  · rintro rfl
    rw [hw]
    exact t8.step (ar _)
  · rintro rfl
    rw [hw]
    exact t9.step (ar _)
  · rintro rfl
    rw [hw]
    exact ⟨x, t8x, t9x.step (ar _)⟩

/-- Without both inputs at the permit level nothing returns (R280). -/
theorem stoPermitReturn_waits (h : s.flag F.GDR_STO_STAT_A = false ∨ s.flag F.GDR_STO_STAT_B = false) :
    Gives .stoPermitReturn s fun t => t = s := by
  refine ⟨s, ?_, rfl⟩
  change execStoPermitReturn s = _
  unfold execStoPermitReturn
  rw [if_neg]
  rcases h with h | h <;> simp [h]

/-- One input at demand for longer than DISC ms keeps the enables removed (R280): the last clause of SupplyAndStoAct. -/
theorem stoDiscrepancy_acts (second : Bool) (hp : s.powered 1 = true) (hd : s.fcs.discWait = false)
    (ha : s.flag F.GDR_STO_STAT_A = second) (hb : s.flag F.GDR_STO_STAT_B = !second)
    (hu : s.advTo (s.fcs.stoAt + msClk (s.rd F.GDR_STO_CFG_DISC) + 1) = u) :
    Gives (.stoDiscrepancy second) s (Tripped 10 true
      (({ u with fcs := { s.fcs with discWait := true } } : State).sqc F.GDR_STO_STAT_DISC)) := by
  have hf : u.fcs = s.fcs := by rw [← hu, State.advTo_fcs]
  have hpu : u.powered 1 = true := by rw [← hu, State.powered_advTo, hp]
  have he : exec (.stoDiscrepancy second) s = .next
      (((({ u with fcs := { u.fcs with discWait := true } } : State).sqc F.GDR_STO_STAT_DISC).trip 10 (active := true))) := by
    change execStoDiscrepancy second s = _
    unfold execStoDiscrepancy
    dsimp only
    rw [hu, ha, hb, hp, hd, if_neg (by cases second <;> decide)]
  rw [hf] at he
  refine ⟨_, he, State.raise_tripped sto_sources.2.2 (by decide) ?_⟩
  exact (State.powered_congr rfl rfl 1 : State.powered _ 1 = u.powered 1).trans hpu

end Demand

/-- Settles O58: each operation's effect is read off its own lemma. -/
theorem supplyAndStoAct : Obligations.SupplyAndStoAct := by
  intro s hp
  exact ⟨fun b code ha => motorSupplySample_acts b code hp ha, fun b uV ha => ntcSample_acts b uV hp ha,
    fun n h ho hv he => encoderLost_acts hp h ho hv he, fun which => stoDemand_acts which hp,
    fun which => stoDemand_permits which hp, fun ha hb => stoPermitReturn_returns hp ha hb rfl,
    fun h => stoPermitReturn_waits h, fun second hd ha hb => stoDiscrepancy_acts second hp hd ha hb rfl⟩

end Sys2Proof.Machine

namespace Sys2Proof.Machine

section Steps

variable {p : Coil} {R : Prop} {s t u : State}

/-! ### What a coil step reaches (R195) -/

/-- The registers that a coil step may write: those of a fault's reaction, its two shadows and CLP_STAT of its axis. -/
def stepReg (p : Coil) (o : Nat) : Bool :=
  faultReg o || o = Reg.PWM_SHD (legs p).1 || o = Reg.PWM_SHD (legs p).2 || o = Reg.CLP_STAT (axisOfCoil p)

/-- From s to t a part of a step of coil p has run: other coils stand, other axes' loops too, what the latches of the axis hold
stays, and where R holds no free value was drawn. -/
structure Steps (p : Coil) (R : Prop) (s t : State) : Prop where
  coils : ∀ q, q ≠ p → t.coil q = s.coil q
  clps : ∀ m, m ≠ axisOfCoil p → t.clp m = { s.clp m with fresh := (t.clp m).fresh }
  sees : ∃ iv zd zq vd vq i q zd0 zq0 f r, t.clp (axisOfCoil p) = { s.clp (axisOfCoil p) with
    iv := iv, zd := zd, zq := zq, vd := vd, vq := vq, idRef := i, iqRef := q, zd0 := zd0, zq0 := zq0, fresh := f, ran := r }
  clk : t.clk = s.clk
  gtc : t.gtc = s.gtc
  fbks : t.fbks = s.fbks
  gdrs : t.gdrs = s.gdrs
  adcs : t.adcs = s.adcs
  reqs : t.reqs = s.reqs
  tbs : t.tbs = s.tbs
  pmu : t.pmu = s.pmu
  free : R → t.freeCtr = s.freeCtr
  regs : ∀ o, stepReg p o = false → t.reg o = s.reg o

theorem Steps.refl (s : State) : Steps p R s s :=
  ⟨fun _ _ => rfl, fun _ _ => rfl, ⟨_, _, _, _, _, _, _, _, _, _, _, rfl⟩, rfl, rfl, rfl, rfl, rfl, rfl, rfl, rfl,
    fun _ => rfl, fun _ _ => rfl⟩

theorem Steps.trans (h : Steps p R s t) (k : Steps p R t u) : Steps p R s u := by
  refine ⟨fun q e => (k.coils q e).trans (h.coils q e), fun m e => by rw [k.clps m e, h.clps m e], ?_, k.clk.trans h.clk,
    k.gtc.trans h.gtc, k.fbks.trans h.fbks, k.gdrs.trans h.gdrs, k.adcs.trans h.adcs, k.reqs.trans h.reqs, k.tbs.trans h.tbs,
    k.pmu.trans h.pmu, fun r => (k.free r).trans (h.free r), fun o e => (k.regs o e).trans (h.regs o e)⟩
  obtain ⟨_, _, _, _, _, _, _, _, _, _, _, e⟩ := h.sees
  obtain ⟨_, _, _, _, _, _, _, _, _, _, _, e'⟩ := k.sees
  rw [e'] at *
  rw [e]
  exact ⟨_, _, _, _, _, _, _, _, _, _, _, rfl⟩

/-- Such a part that makes no fault react: plans and operations stand besides. -/
structure Drives (p : Coil) (R : Prop) (s t : State) : Prop where
  steps : Steps p R s t
  plans : t.plans = s.plans
  ops : t.ops = s.ops

theorem Drives.refl (s : State) : Drives p R s s := ⟨Steps.refl s, rfl, rfl⟩

theorem Drives.trans (h : Drives p R s t) (k : Drives p R t u) : Drives p R s u :=
  ⟨h.steps.trans k.steps, k.plans.trans h.plans, k.ops.trans h.ops⟩

theorem Drives.ite {c : Prop} [Decidable c] {z a b : State} (h : Drives p R z a) (k : Drives p R z b) :
    Drives p R z (if c then a else b) := by
  split <;> assumption

theorem Tripped.steps {k : Nat} {act : Bool} (h : Tripped k act s t) : Steps p R s t := by
  have e := h.reaction.rest
  have hc : t.coils = s.coils := (congrArg State.coils e :)
  refine ⟨fun q _ => by rw [State.coil, hc]; rfl, fun m _ => h.reaction.clps m, ?_, (congrArg State.clk e :),
    (congrArg State.gtc e :), (congrArg State.fbks e :), (congrArg State.gdrs e :), (congrArg State.adcs e :),
    (congrArg State.reqs e :), (congrArg State.tbs e :), (congrArg State.pmu e :), fun _ => (congrArg State.freeCtr e :),
    fun o ho => h.reaction.regs o ?_⟩
  · have := h.reaction.clps (axisOfCoil p)
    exact ⟨_, _, _, _, _, _, _, _, _, _, _, this⟩
  · simp only [stepReg, Bool.or_eq_false_iff] at ho
    exact ho.1.1.1

theorem State.trip_steps (s : State) (k : Nat) (act : Bool) : Steps p R s (s.trip k act) := by
  rcases s.trip_cases k act none false with e | e
  · rw [e]; exact Steps.refl s
  · exact e.steps

/-! The operations of a step. -/

theorem State.setCoil_drives (s : State) (p : Coil) (x : CoilS) : Drives p R s (s.setCoil p x) :=
  ⟨⟨fun _ e => s.coil_setCoil_ne x e, fun _ _ => rfl, ⟨_, _, _, _, _, _, _, _, _, _, _, rfl⟩, rfl, rfl, rfl, rfl, rfl, rfl, rfl, rfl,
    fun _ => rfl, fun _ _ => rfl⟩, rfl, rfl⟩

theorem State.setClp_drives (s : State) {n : Axis} (hn : n = axisOfCoil p) (x : ClpS) (hx : ∃ iv zd zq vd vq i q zd0 zq0 f r, x =
    { s.clp n with
      iv := iv, zd := zd, zq := zq, vd := vd, vq := vq, idRef := i, iqRef := q, zd0 := zd0, zq0 := zq0, fresh := f, ran := r }) : Drives p R s (s.setClp n x) := by
  subst hn
  refine ⟨⟨fun _ _ => rfl, fun m e => by rw [State.clp_setClp_ne _ _ e], ?_, rfl, rfl, rfl, rfl, rfl, rfl, rfl, rfl,
    fun _ => rfl, fun _ _ => rfl⟩, rfl, rfl⟩
  rw [State.clp_setClp_self]
  exact hx

theorem State.setReg_drives (s : State) {o : Nat} (w : Word) (h : stepReg p o = true) : Drives p R s (s.setReg o w) := by
  refine ⟨⟨fun _ _ => rfl, fun _ _ => rfl, ⟨_, _, _, _, _, _, _, _, _, _, _, rfl⟩, rfl, rfl, rfl, rfl, rfl, rfl, rfl, rfl,
    fun _ => rfl, fun o' e => State.reg_setReg_ne s w ?_⟩, rfl, rfl⟩
  rintro rfl
  simp [h] at e

theorem State.wr_drives (s : State) {f : Fld} (v : Nat) (h : stepReg p f.off = true) : Drives p R s (s.wr f v) := s.setReg_drives _ h

/-- Notes of the clock, of the half-bridges and of the condition monitor. -/
theorem Drives.note (s : State) {q : List (Nat × Word)} {c : List (Nat × Nat × Nat)} {h : Vector HbS 128} {d : CndS} :
    Drives p R s { s with seqDone := q, cntNow := c, hbs := h, cnd := d } :=
  ⟨⟨fun _ _ => rfl, fun _ _ => rfl, ⟨_, _, _, _, _, _, _, _, _, _, _, rfl⟩, rfl, rfl, rfl, rfl, rfl, rfl, rfl, rfl,
    fun _ => rfl, fun _ _ => rfl⟩, rfl, rfl⟩

theorem State.sqc_drives (s : State) {f : Fld} (h : stepReg p f.off = true) : Drives p R s (s.sqc f) := by
  obtain ⟨w, b, e⟩ := s.sqcMask_shape f.off (2 ^ f.lo)
  rw [State.sqc, e]
  exact (s.setReg_drives w h).trans (Drives.note _)

theorem State.cnt_drives (s : State) {f : Fld} (n : Nat) (h : stepReg p f.off = true) : Drives p R s (s.cnt f n) :=
  Drives.trans (t := s.noteCnt f n) (Drives.note s) (State.wr_drives _ _ h)

/-- A free value is drawn only where R does not hold. -/
theorem State.draw_drives (s : State) (h : ¬ R) : Drives p R s s.draw :=
  ⟨⟨fun _ _ => rfl, fun _ _ => rfl, ⟨_, _, _, _, _, _, _, _, _, _, _, rfl⟩, rfl, rfl, rfl, rfl, rfl, rfl, rfl, rfl,
    fun r => absurd r h, fun _ _ => rfl⟩, rfl, rfl⟩

/-! The registers of a step. -/

theorem stepReg_shd (p : Coil) : stepReg p (Reg.PWM_SHD (legs p).1) = true ∧ stepReg p (Reg.PWM_SHD (legs p).2) = true ∧
    stepReg p (Reg.CLP_STAT (axisOfCoil p)) = true := by
  simp [stepReg]

theorem stepReg_axis : ∀ (p : Coil) (n : Axis), stepReg p (Reg.CLP_CTRL n) = false ∧ stepReg p (Reg.LES_STAT n) = false ∧
    stepReg p (Reg.FBK_CFG n) = false ∧ stepReg p (Reg.MPL_FMAX n) = false ∧ stepReg p (Reg.CLP_ID_CFG n) = false := by
  decide +kernel

theorem stepReg_frame : ∀ p : Coil, stepReg p Reg.TBS_FRAME = false ∧ stepReg p Reg.PMU_DOM_STAT = false ∧
    stepReg p Reg.LCS_LC_STAT = false := by
  decide +kernel

theorem stepReg_rl : ∀ p q : Coil, stepReg p (Reg.CLP_RL q) = false := by decide +kernel

theorem stepReg_bank : ∀ (p : Coil) (b : Bank), stepReg p (Reg.GDR_VMS b) = false ∧ stepReg p (Reg.PWM_DT_LIM b) = false := by
  decide +kernel

theorem stepReg_hb : ∀ (p : Coil) (h : HalfBridge), stepReg p (Reg.PWM_DT h) = false ∧ stepReg p (Reg.PWM_DT_MEAS h) = false := by
  decide +kernel

/-! What a step's parts read alike. -/

theorem Steps.rd (h : Steps p R s t) {f : Fld} (hf : stepReg p f.off = false) : t.rd f = s.rd f := State.rd_of_reg (h.regs _ hf)
theorem Steps.flag (h : Steps p R s t) {f : Fld} (hf : stepReg p f.off = false) : t.flag f = s.flag f := State.flag_of_reg (h.regs _ hf)

theorem Steps.powered (h : Steps p R s t) (d : Nat) : t.powered d = s.powered d :=
  State.powered_congr (by rw [h.pmu]) (h.regs _ (stepReg_frame p).2.1) d

theorem Steps.motorVolts (h : Steps p R s t) (b : Bank) : motorVolts t b = motorVolts s b := by
  unfold Machine.motorVolts State.gdr
  rw [h.gdrs, h.rd (f := F.GDR_VMS_VM b) (stepReg_bank p b).1]

theorem Steps.period (h : Steps p R s t) : t.period = s.period := by
  unfold State.period
  rw [h.tbs, h.rd (f := F.TBS_FRAME_PERIOD) (stepReg_frame p).1]

theorem Steps.halfSec (h : Steps p R s t) : t.halfSec = s.halfSec := by
  unfold State.halfSec State.tfNs
  rw [h.rd (f := F.TBS_FRAME_PERIOD) (stepReg_frame p).1]

theorem Steps.latchAt (h : Steps p R s t) (hold : Nat) : latchAt t (axisOfCoil p) hold = latchAt s (axisOfCoil p) hold := by
  obtain ⟨_, _, _, _, _, _, _, _, _, _, _, e⟩ := h.sees
  unfold Machine.latchAt
  rw [e]

theorem Steps.posAt (h : Steps p R s t) (hold : Nat) : posAt t (axisOfCoil p) hold = posAt s (axisOfCoil p) hold := by
  unfold Machine.posAt
  rw [h.latchAt]

theorem Steps.speedAt (h : Steps p R s t) (hold : Nat) : speedAt t (axisOfCoil p) hold = speedAt s (axisOfCoil p) hold := by
  unfold Machine.speedAt
  rw [h.latchAt]

theorem Steps.angleAt (h : Steps p R s t) (n : Axis) (x : Int) : angleAt t n x = angleAt s n x := by
  unfold Machine.angleAt
  rw [h.rd (f := F.CLP_CTRL_COMM_OFF n) (stepReg_axis p n).1]

theorem Drives.fromRef (h : Drives p R s t) (n : Axis) : fromRef t n = fromRef s n := by
  obtain ⟨h1, h2, h3, -⟩ := stepReg_axis p n
  unfold Machine.fromRef actLes encoder State.plan
  rw [h.plans, h.steps.flag (f := F.CLP_CTRL_MODE n) h1, h.steps.flag (f := F.LES_STAT_LOWSPD n) h2,
    h.steps.rd (f := F.FBK_CFG_MODE n) h3]

theorem Drives.thetaAt (h : Drives p R s t) (hold : Nat) : thetaAt t (axisOfCoil p) hold = thetaAt s (axisOfCoil p) hold := by
  obtain ⟨_, _, _, _, _, _, _, _, _, _, _, e⟩ := h.steps.sees
  unfold Machine.thetaAt
  rw [h.fromRef, h.steps.posAt, e, h.steps.angleAt]

theorem Drives.identifying (h : Drives p R s t) (n : Axis) : identifying t n = identifying s n := by
  unfold Machine.identifying
  rw [h.ops]

theorem Drives.identifyClk (h : Drives p R s t) (n : Axis) : identifyClk t n = identifyClk s n := by
  unfold Machine.identifyClk
  rw [h.ops, h.steps.clk]

theorem Steps.identifyMa (h : Steps p R s t) (n : Axis) : identifyMa t n = identifyMa s n := by
  obtain ⟨-, -, -, h4, h5⟩ := stepReg_axis p n
  unfold Machine.identifyMa
  rw [h.rd (f := F.CLP_ID_CFG_IID n) h5, h.rd (f := F.MPL_FMAX_IMAX n) h4]

theorem Steps.deadAfter (h : Steps p R s t) (g : HalfBridge) (b : Bool) : deadAfter t g b = deadAfter s g b := by
  obtain ⟨h1, h2⟩ := stepReg_hb p g
  have h3 := (stepReg_bank p (bankOfHb g)).2
  unfold Machine.deadAfter dtTaps
  dsimp only
  rw [h.flag (f := F.PWM_DT_ADAPT g) h1, h.rd (f := F.PWM_DT_MEAS_HOFF g) h2, h.rd (f := F.PWM_DT_MEAS_LOFF g) h2,
    h.rd (f := F.PWM_DT_LIM_FLOOR (bankOfHb g)) h3, h.rd (f := F.PWM_DT_LIM_GUARD (bankOfHb g)) h3,
    h.rd (f := F.PWM_DT_DT_INT g) h1, h.rd (f := F.PWM_DT_DT_FRAC g) h1]

end Steps

end Sys2Proof.Machine

namespace Sys2Proof.Machine

section Outer

variable {p : Coil} {R : Prop} {s t u : State} {hold : Nat}

/-! ### The outer loops (R199 to R201) -/

/-- The integral of the velocity loop with a step, and the torque current before its limits (R199, R201). -/
def servoIv (s : State) (n : Axis) (hold : Nat) : Rat :=
  let c := s.clp n
  let kpv : Rat := s.rd (F.CLP_VLOOP_KPV n)
  let ev := c.vRef + s.rd (F.CLP_PLOOP_KPP n) * (c.xRef - posAt s n hold) / 16 - speedAt s n hold
  c.iv + s.rd (F.CLP_VLOOP_KIV n) * kpv * ev * s.halfSec / 4096

def servoIq (s : State) (n : Axis) (hold : Nat) : Rat :=
  let c := s.clp n
  let kpv : Rat := s.rd (F.CLP_VLOOP_KPV n)
  let ev := c.vRef + s.rd (F.CLP_PLOOP_KPP n) * (c.xRef - posAt s n hold) / 16 - speedAt s n hold
  c.iff + kpv * ev / 4096 + servoIv s n hold + detent s n (thetaAt s n hold)

/-- The loops' references before the following error is judged. -/
def State.servoStep (s : State) (n : Axis) (hold : Nat) : State :=
  let c := s.clp n
  let r := limitIq s n (servoIq s n hold)
  (s.setClp n { c with idRef := 0, iqRef := r.1, iv := if r.2 then c.iv else servoIv s n hold }).wrB (F.CLP_STAT_ILIM n) r.2

/-- The current along the reference position. -/
def State.openStep (s : State) (n : Axis) : State :=
  let c := s.clp n
  let i : Rat := if s.flag (F.CLP_CTRL_MODE n) then s.rd (F.CLP_IMS_IMS n)
    else if s.rd (F.LES_SL_ISL n) = 0 then s.rd (F.MPL_IHOLD_IHOLD n) else s.rd (F.LES_SL_ISL n)
  let j := if (s.plan n).st = .standing then min i (standLimit s n) else i
  let j := match closingClamp s n with | some k => min k j | none => j
  (s.setClp n { c with idRef := j, iqRef := 0 }).wrB (F.CLP_STAT_ILIM n) (j ≠ i)

theorem outerLoops_eq (s : State) (n : Axis) (hold : Nat) : outerLoops s n hold = if fromRef s n then s.openStep n
    else
      let v := s.servoStep n hold
      let ferr := v.rd (F.CLP_FERR_FERR n)
      if ferr ≠ 0 ∧ (ferr : Rat) < absRat ((s.clp n).xRef - posAt s n hold) then v.trip (128 + 16 * n.val + 5) else v := by
  unfold outerLoops State.servoStep State.openStep servoIq servoIv
  rfl

/-- From s to t the outer loops of the axis of coil p have run or, while it is identified, stood. -/
structure Outer (p : Coil) (R : Prop) (s t : State) : Prop where
  steps : Steps p R s t
  coils : t.coils = s.coils
  begun : ∀ o ∈ t.ops, o.begun = true → o.op ≠ 4 → o ∈ s.ops
  count : t.rd (F.CLP_STAT_MISSCNT (axisOfCoil p)) = s.rd (F.CLP_STAT_MISSCNT (axisOfCoil p))
  src : t.src (128 + 16 * (axisOfCoil p).val + 4) = s.src (128 + 16 * (axisOfCoil p).val + 4)

theorem Outer.refl (s : State) : Outer p R s s := ⟨Steps.refl s, rfl, fun _ h _ _ => h, rfl, rfl⟩

theorem Outer.trans (h : Outer p R s t) (k : Outer p R t u) : Outer p R s u :=
  ⟨h.steps.trans k.steps, k.coils.trans h.coils, fun o ho hb h4 => h.begun o (k.begun o ho hb h4) hb h4, k.count.trans h.count,
    k.src.trans h.src⟩

/-- The references of the axis are set and the limits' flag shows. -/
theorem State.setRef_outer (s : State) (x : ClpS) (b : Bool) (hx : ∃ iv zd zq vd vq i q zd0 zq0 f r, x = { s.clp (axisOfCoil p) with
      iv := iv, zd := zd, zq := zq, vd := vd, vq := vq, idRef := i, iqRef := q, zd0 := zd0, zq0 := zq0, fresh := f, ran := r }) :
    Outer p R s ((s.setClp (axisOfCoil p) x).wrB (F.CLP_STAT_ILIM (axisOfCoil p)) b) := by
  have h1 : Drives p R s (s.setClp (axisOfCoil p) x) := s.setClp_drives rfl x hx
  have h2 : Drives p R (s.setClp (axisOfCoil p) x) ((s.setClp (axisOfCoil p) x).wrB (F.CLP_STAT_ILIM (axisOfCoil p)) b) :=
    State.wr_drives _ _ (stepReg_shd p).2.2
  refine ⟨(h1.trans h2).steps, ?_, fun o ho _ _ => ?_, ?_, ?_⟩
  · rw [State.wrB, State.wr_coils, State.setClp_coils]
  · rwa [(h1.trans h2).ops] at ho
  · rw [State.wrB, State.rd_wr_ne _ _ (.inr ⟨rfl, rfl, rfl⟩), State.setClp_rd]
  · exact State.src_congr (by rw [State.wrB, State.wr_fcs, State.setClp_fcs]) _

theorem faultReg_clpStat : ∀ n : Axis, faultReg (Reg.CLP_STAT n) = false := by decide +kernel

/-- A trip of another source than the samples'. -/
theorem State.trip_outer (s : State) {k : Nat} (h : k ≠ 128 + 16 * (axisOfCoil p).val + 4) : Outer p R s (s.trip k) := by
  have hs := (s.trip_staysOff k false none false).ops
  rcases s.trip_cases k false none false with e | e
  · rw [e]; exact Outer.refl s
  · exact ⟨e.steps, (congrArg State.coils e.reaction.rest :), hs, State.rd_of_reg (e.reaction.regs _ (faultReg_clpStat _)), e.others _ h.symm⟩

theorem outerLoops_outer (s : State) (p : Coil) (hold : Nat) : Outer p R s (outerLoops s (axisOfCoil p) hold) := by
  have hv : Outer p R s (s.servoStep (axisOfCoil p) hold) := s.setRef_outer _ _ ⟨_, _, _, _, _, _, _, _, _, _, _, rfl⟩
  rw [outerLoops_eq]
  split
  · exact s.setRef_outer _ _ ⟨_, _, _, _, _, _, _, _, _, _, _, rfl⟩
  · dsimp only
    split
    · exact hv.trans (State.trip_outer _ (by omega))
    · exact hv

/-- What the servo sets. -/
theorem outerLoops_servo (s : State) (n : Axis) (hold : Nat) (h : fromRef s n = false) :
    ∃ f, (outerLoops s n hold).clp n = { s.clp n with
      idRef := 0, iqRef := (limitIq s n (servoIq s n hold)).1,
      iv := if (limitIq s n (servoIq s n hold)).2 then (s.clp n).iv else servoIv s n hold, fresh := f } := by
  have hv : (s.servoStep n hold).clp n = { s.clp n with
      idRef := 0, iqRef := (limitIq s n (servoIq s n hold)).1,
      iv := if (limitIq s n (servoIq s n hold)).2 then (s.clp n).iv else servoIv s n hold } := State.clp_setClp_self s n _
  rw [outerLoops_eq, h, if_neg Bool.false_ne_true]
  dsimp only
  split
  · rcases (s.servoStep n hold).trip_cases (128 + 16 * n.val + 5) false none false with e | e
    · rw [e, hv]; exact ⟨_, rfl⟩
    · have := e.reaction.clps n
      rw [hv] at this
      exact ⟨_, this⟩
  · rw [hv]; exact ⟨_, rfl⟩

/-- The outer loops' part of a coil A step. -/
def State.outerStep (s : State) (p : Coil) (hold : Nat) : State :=
  if p.val % 2 = 0 then
    let s := if identifying s (axisOfCoil p) then s else outerLoops s (axisOfCoil p) hold
    s.setClp (axisOfCoil p) { s.clp (axisOfCoil p) with ran := true }
  else s

theorem State.setRan_outer (s : State) (p : Coil) :
    Outer p R s (s.setClp (axisOfCoil p) { s.clp (axisOfCoil p) with ran := true }) := by
  have h : Drives p R s (s.setClp (axisOfCoil p) { s.clp (axisOfCoil p) with ran := true }) :=
    s.setClp_drives rfl _ ⟨_, _, _, _, _, _, _, _, _, _, _, rfl⟩
  exact ⟨h.steps, rfl, fun _ h _ _ => h, rfl, rfl⟩

theorem State.outerStep_outer (s : State) (p : Coil) (hold : Nat) : Outer p R s (s.outerStep p hold) := by
  unfold State.outerStep
  split
  · dsimp only
    split
    · exact s.setRan_outer p
    · exact (outerLoops_outer s p hold).trans (State.setRan_outer _ p)
  · exact Outer.refl s

theorem State.outerStep_ran (s : State) (hold : Nat) (h : p.val % 2 = 0) : ((s.outerStep p hold).clp (axisOfCoil p)).ran = true := by
  rw [State.outerStep, if_pos h]
  dsimp only
  rw [State.clp_setClp_self]

theorem State.outerStep_odd (s : State) (hold : Nat) (h : p.val % 2 = 1) : s.outerStep p hold = s := if_neg (by omega)

/-- While an axis is identified its outer loops stand. -/
theorem State.outerStep_identifying (s : State) (hold : Nat) (h : identifying s (axisOfCoil p) = true) :
    Drives p R s (s.outerStep p hold) := by
  unfold State.outerStep
  rw [h]
  exact Drives.ite (s.setClp_drives rfl _ ⟨_, _, _, _, _, _, _, _, _, _, _, rfl⟩) (Drives.refl s)

/-- No identification begins in the outer loops. -/
theorem Outer.not_identifying (h : Outer p R s t) (n : Axis) (hi : identifying s n = false) : identifying t n = false := by
  unfold identifying at hi ⊢
  rw [List.any_eq_false] at hi ⊢
  intro o ho hc
  simp only [Bool.and_eq_true, decide_eq_true_eq] at hc
  obtain ⟨⟨hop, hb⟩, hn⟩ := hc
  exact hi o (h.begun o ho hb (by rw [hop]; decide)) (by simp [hop, hb]; simpa using hn)

end Outer

end Sys2Proof.Machine

namespace Sys2Proof.Machine

section Inner

variable {p : Coil} {R : Prop} {s t u : State} {hold : Nat}

/-! ### The current loop (R202, R203) -/

/-- The back-transform of the rotor-frame voltages to coil p (R203). -/
def turnedBack (p : Coil) (c : ClpS) (θ : Int) : Rat :=
  if p.val % 2 = 0 then c.vd * cosA θ - c.vq * sinA θ else c.vd * sinA θ + c.vq * cosA θ

theorem absRat_clampRat_le {m : Rat} (h : 0 < m) (v : Rat) : absRat (clampRat (-m) m v) ≤ m := by
  unfold absRat clampRat
  split_ifs <;> linarith

/-- The rotor-frame currents in mA (R202). -/
theorem rotorFrame_mA (s : State) (n : Axis) (θ : Int) :
    (rotorFrame s n θ).2 * 1000 = (s.coil (coilB n)).mA * cosA θ - (s.coil (coilA n)).mA * sinA θ ∧
      (rotorFrame s n θ).1 * 1000 = (s.coil (coilA n)).mA * cosA θ + (s.coil (coilB n)).mA * sinA θ := by
  unfold rotorFrame
  constructor <;> ring

/-- A coil with its rotor-frame currents and its new voltage (R202, R203). -/
def CoilS.driven (k : CoilS) (i : Rat × Rat) (v : Rat) : CoilS :=
  { k with iq := i.2 * 1000, id := i.1 * 1000, voltOld := k.volt, volt := v }

/-- What the current loop leaves: the coil's currents and voltage follow from the axis's limited voltages. -/
structure Inner (p : Coil) (θ : Int) (s t : State) : Prop where
  coil : t.coil p = (s.coil p).driven (rotorFrame s (axisOfCoil p) θ) (turnedBack p (t.clp (axisOfCoil p)) θ)
  clp : ∃ vd vq zd0 zq0 zd zq, t.clp (axisOfCoil p) = { s.clp (axisOfCoil p) with
    vd := vd, vq := vq, zd0 := zd0, zq0 := zq0, zd := zd, zq := zq }
  limited : 0 < motorVolts s (bankOfAxis (axisOfCoil p)) →
    absRat (t.clp (axisOfCoil p)).vd ≤ motorVolts s (bankOfAxis (axisOfCoil p))

/-- The voltages of the axis are set, and the coil's from them. -/
theorem setVolts_inner (s : State) (p : Coil) (θ : Int) (b : Bool) {vd0 vq zd0 zq0 zd zq vd : Rat}
    (hv : vd = clampRat (-motorVolts s (bankOfAxis (axisOfCoil p))) (motorVolts s (bankOfAxis (axisOfCoil p))) vd0)
    {c : ClpS} (hc : c = { s.clp (axisOfCoil p) with vd := vd, vq := vq, zd0 := zd0, zq0 := zq0, zd := zd, zq := zq })
    (hu : u = (s.setClp (axisOfCoil p) c).wrB (F.CLP_STAT_VSAT (axisOfCoil p)) b)
    (ht : t = u.setCoil p ((u.coil p).driven (rotorFrame s (axisOfCoil p) θ) (turnedBack p c θ))) :
    Inner p θ s t ∧ Drives p R s t := by
  have huc : u.clps = (s.setClp (axisOfCoil p) c).clps ∧ u.coils = s.coils := by
    rw [hu, State.wrB, State.wr_clps, State.wr_coils, State.setClp_coils]
    exact ⟨rfl, rfl⟩
  have hcoil : u.coil p = s.coil p := by rw [State.coil, huc.2]; rfl
  have hclp : t.clp (axisOfCoil p) = c := by
    rw [ht, State.clp, State.setCoil_clps, huc.1]
    exact State.clp_setClp_self s _ c
  have hd : Drives p R s u := by
    rw [hu]
    exact (s.setClp_drives rfl c ⟨_, _, _, _, _, _, _, _, _, _, _, hc⟩).trans (State.wr_drives _ _ (stepReg_shd p).2.2)
  refine ⟨⟨?_, ⟨vd, vq, zd0, zq0, zd, zq, hclp.trans hc⟩, fun h => ?_⟩, ?_⟩
  · rw [hclp, ht, State.coil_setCoil_self, hcoil]
  · rw [hclp, hc]
    dsimp only
    rw [hv]
    exact absRat_clampRat_le h vd0
  · rw [ht]
    exact hd.trans (State.setCoil_drives u p _)

theorem innerLoop_inner (s : State) (p : Coil) (θ : Int) (g : Gains) :
    Inner p θ s (innerLoop s (axisOfCoil p) p θ g) ∧ Drives p R s (innerLoop s (axisOfCoil p) p θ g) := by
  unfold innerLoop
  extract_lets c isA i h ed eq zd zq w vd0 vq0 vm vd room vq sat z0d z0q v v' k x
  exact setVolts_inner s p θ _ (vd0 := vd0) (vd := vd) rfl (c := { c with vd, vq, zd0 := z0d, zq0 := z0q, zd := if sat then z0d else zd, zq := if sat then z0q else zq }) rfl
    (u := v') rfl rfl

/-- The sampled coil: its current is taken (R195, R227). -/
def State.takeSample (s : State) (p : Coil) (x : Sample) : State :=
  let k := s.coil p
  let e := if k.bad = 0 then backEmf s p x.mA else k.emf
  s.setCoil p { k.shiftEmf e with mA := x.mA, mAOld := k.mA, bad := 0 }

/-- The running axis: the current loop, and the torque current in the frame of the active source (R202, R235). -/
structure Ran (p : Coil) (hold : Nat) (s t : State) : Prop where
  coil : t.coil p = { (s.coil p).driven (rotorFrame s (axisOfCoil p) (thetaAt s (axisOfCoil p) hold))
      (turnedBack p (t.clp (axisOfCoil p)) (thetaAt s (axisOfCoil p) hold)) with
    iqOld := (s.coil p).iqAct
    iqAct := (rotorFrame s (axisOfCoil p) (angleAt s (axisOfCoil p) (posAt s (axisOfCoil p) hold))).2 * 1000 }
  clp : ∃ vd vq zd0 zq0 zd zq, t.clp (axisOfCoil p) = { s.clp (axisOfCoil p) with
    vd := vd, vq := vq, zd0 := zd0, zq0 := zq0, zd := zd, zq := zq }
  limited : 0 < motorVolts s (bankOfAxis (axisOfCoil p)) →
    absRat (t.clp (axisOfCoil p)).vd ≤ motorVolts s (bankOfAxis (axisOfCoil p))

theorem rotorFrame_congr {n : Axis} (h : ∀ q, (t.coil q).mA = (s.coil q).mA) (θ : Int) : rotorFrame t n θ = rotorFrame s n θ := by
  unfold rotorFrame
  rw [h, h]

theorem Inner.mA {θ : Int} (h : Inner p θ s t) (k : Drives p R s t) (q : Coil) : (t.coil q).mA = (s.coil q).mA := by
  by_cases e : q = p
  · subst e; rw [h.coil]; rfl
  · rw [k.steps.coils q e]

theorem runLoop_ran (s : State) (p : Coil) (hold : Nat) :
    Ran p hold s (runLoop s (axisOfCoil p) p hold) ∧ Drives p R s (runLoop s (axisOfCoil p) p hold) := by
  obtain ⟨hi, hd⟩ := innerLoop_inner (R := R) s p (thetaAt s (axisOfCoil p) hold) (runGains s (axisOfCoil p) hold)
  unfold runLoop
  generalize innerLoop s (axisOfCoil p) p (thetaAt s (axisOfCoil p) hold) (runGains s (axisOfCoil p) hold) = v at *
  dsimp only
  refine ⟨⟨?_, hi.clp, hi.limited⟩, hd.trans (v.setCoil_drives p _)⟩
  rw [State.coil_setCoil_self, rotorFrame_congr (hi.mA hd), hd.steps.angleAt, hd.steps.posAt, hi.coil]
  rfl

end Inner

end Sys2Proof.Machine

namespace Sys2Proof.Machine

section Legs

variable {p : Coil} {R : Prop} {s t u : State}

/-! ### The compare values (R204) -/

/-- The supply and the limit that the compare values need are there. -/
def legsReady (s : State) (n : Axis) : Prop := 0 < motorVolts s (bankOfAxis n) ∧ s.rd (F.MPL_FMAX_IMAX n) ≠ 0

theorem Steps.legsReady (h : Steps p R s t) {n : Axis} (hr : legsReady s n) : legsReady t n := by
  obtain ⟨-, -, -, h4, -⟩ := stepReg_axis p n
  unfold Machine.legsReady
  rw [h.motorVolts, h.rd (f := F.MPL_FMAX_IMAX n) h4]
  exact hr

theorem legCompare_noDraw {n : Axis} (h : legsReady s n) (g : HalfBridge) (b : Bool) : (legCompare s n p g b).2 = false := by
  obtain ⟨h1, h2⟩ := h
  unfold legCompare
  dsimp only
  rw [if_neg]
  simp only [Bool.or_eq_true, decide_eq_true_eq, not_or]
  exact ⟨not_le.2 h1, by exact_mod_cast h2⟩

theorem Steps.legCompare (h : Steps p R s t) (hc : t.coil p = s.coil p) {n : Axis} (hr : Machine.legsReady s n) (g : HalfBridge) (b : Bool) :
    legCompare t n p g b = legCompare s n p g b := by
  obtain ⟨h1, h2⟩ := hr
  obtain ⟨-, -, -, h4, -⟩ := stepReg_axis p n
  have hne : ¬ ((Decidable.decide (Machine.motorVolts s (bankOfAxis n) ≤ 0) ||
      Decidable.decide ((s.rd (F.MPL_FMAX_IMAX n) : Rat) = 0)) = true) := by
    simp only [Bool.or_eq_true, decide_eq_true_eq, not_or]
    exact ⟨not_le.2 h1, by exact_mod_cast h2⟩
  unfold Machine.legCompare
  dsimp only
  rw [h.motorVolts, h.rd (f := F.MPL_FMAX_IMAX n) h4, if_neg hne, if_neg hne, hc, h.period, h.deadAfter]

theorem State.setShadow_drives (s : State) {g : HalfBridge} (v : Nat) (h : stepReg p (Reg.PWM_SHD g) = true) :
    Drives p R s (s.setShadow g v) := by
  unfold State.setShadow
  exact (Drives.note s (q := s.seqDone) (c := s.cntNow) (d := s.cnd)).trans (State.wr_drives _ v h)

theorem State.setShadow_rd (s : State) (g : HalfBridge) (v : Nat) : (s.setShadow g v).rd (F.PWM_SHD_SHD g) = v % 2 ^ 20 :=
  State.rd_wr_self _ (by rfl) v

theorem State.setShadow_reg_ne (s : State) {g : HalfBridge} (v : Nat) {o : Nat} (h : o ≠ Reg.PWM_SHD g) :
    (s.setShadow g v).reg o = s.reg o := State.reg_wr_ne _ v h

theorem shd_ne : ∀ p : Coil, Reg.PWM_SHD (legs p).1 ≠ Reg.PWM_SHD (legs p).2 ∧
    Reg.CLP_STAT (axisOfCoil p) ≠ Reg.PWM_SHD (legs p).1 ∧ Reg.CLP_STAT (axisOfCoil p) ≠ Reg.PWM_SHD (legs p).2 := by
  decide +kernel

/-- Both compare values show in the shadows. -/
def Shown (p : Coil) (t : State) : Prop :=
  t.rd (F.PWM_SHD_SHD (legs p).1) = (legCompare t (axisOfCoil p) p (legs p).1 true).1 % 2 ^ 20 ∧
    t.rd (F.PWM_SHD_SHD (legs p).2) = (legCompare t (axisOfCoil p) p (legs p).2 false).1 % 2 ^ 20

/-- What the end of a step leaves alone: all but the shadows, a new sample's mark, and the monitor's notes. -/
structure Ends (p : Coil) (R : Prop) (s t : State) : Prop where
  drives : Drives p R s t
  coils : t.coils = s.coils
  clp : ∃ f, t.clp (axisOfCoil p) = { s.clp (axisOfCoil p) with fresh := f }
  stat : t.reg (Reg.CLP_STAT (axisOfCoil p)) = s.reg (Reg.CLP_STAT (axisOfCoil p))
  fcs : t.fcs = s.fcs

theorem Ends.refl (s : State) : Ends p R s s := ⟨Drives.refl s, rfl, ⟨_, rfl⟩, rfl, rfl⟩

theorem Ends.trans (h : Ends p R s t) (k : Ends p R t u) : Ends p R s u := by
  obtain ⟨f, e⟩ := h.clp
  obtain ⟨f', e'⟩ := k.clp
  exact ⟨h.drives.trans k.drives, k.coils.trans h.coils, ⟨f', by rw [e', e]⟩, k.stat.trans h.stat, k.fcs.trans h.fcs⟩

theorem Ends.ite {c : Prop} [Decidable c] {z a b : State} (h : c → Ends p R z a) (k : Ends p R z b) :
    Ends p R z (if c then a else b) := by
  split
  · exact h ‹c›
  · exact k

theorem State.draw_ends (s : State) (h : ¬ R) : Ends p R s s.draw := ⟨s.draw_drives h, rfl, ⟨_, rfl⟩, rfl, rfl⟩

theorem State.setShadow_ends (s : State) {g : HalfBridge} (v : Nat) (h : stepReg p (Reg.PWM_SHD g) = true)
    (hs : Reg.CLP_STAT (axisOfCoil p) ≠ Reg.PWM_SHD g) : Ends p R s (s.setShadow g v) :=
  ⟨s.setShadow_drives v h, rfl, ⟨_, rfl⟩, s.setShadow_reg_ne v hs, rfl⟩

/-- The compare values of both legs, written to their shadows: where they are ready none is drawn. -/
theorem writeLegs_ends (s : State) (p : Coil) (hr : R → legsReady s (axisOfCoil p)) :
    Ends p R s (writeLegs s (axisOfCoil p) p) ∧ (R → Shown p (writeLegs s (axisOfCoil p) p)) := by
  obtain ⟨n0, n1, n2⟩ := shd_ne p
  obtain ⟨q1, q2, -⟩ := stepReg_shd p
  unfold writeLegs
  extract_lets h a u b v
  have hu : Ends p R s u := Ends.ite (fun ha => s.draw_ends fun r => by
    rw [legCompare_noDraw (hr r)] at ha
    cases ha) (Ends.refl s)
  have hv : Ends p R u v := Ends.ite (fun hb => u.draw_ends fun r => by
    rw [legCompare_noDraw (hu.drives.steps.legsReady (hr r))] at hb
    cases hb) (Ends.refl u)
  have hw : Ends p R v (v.setShadow h.1 a.1) := v.setShadow_ends a.1 q1 n1
  have hx : Ends p R (v.setShadow h.1 a.1) ((v.setShadow h.1 a.1).setShadow h.2 b.1) := State.setShadow_ends _ b.1 q2 n2
  refine ⟨((hu.trans hv).trans hw).trans hx, fun r => ?_⟩
  have hs := (((hu.trans hv).trans hw).trans hx)
  have hc : ((v.setShadow h.1 a.1).setShadow h.2 b.1).coil p = s.coil p := by rw [State.coil, hs.coils]; rfl
  have hb : b = legCompare s (axisOfCoil p) p h.2 false :=
    hu.drives.steps.legCompare (by rw [State.coil, hu.coils]; rfl) (hr r) _ _
  constructor
  · rw [hs.drives.steps.legCompare hc (hr r), State.rd_of_reg (f := F.PWM_SHD_SHD (legs p).1) (State.setShadow_reg_ne _ b.1 n0)]
    exact v.setShadow_rd _ _
  · rw [hs.drives.steps.legCompare hc (hr r), ← hb]
    exact State.setShadow_rd _ _ _

end Legs

end Sys2Proof.Machine

namespace Sys2Proof.Machine

section Parts

variable {p : Coil} {R : Prop} {s t u : State}

/-! ### The end of a step, an identification, an unusable sample -/

/-- The mark of a new sample. -/
def State.markFresh (s : State) (p : Coil) (x : Sample) : State :=
  if x.ok ∧ s.energised (axisOfCoil p) then
    s.setClp (axisOfCoil p) { s.clp (axisOfCoil p) with fresh := true }
  else s

/-- The end of a step: the mark of a new sample, the monitor's notes, the compare values. -/
def State.endStep (s : State) (p : Coil) (x : Sample) : State :=
  let s := s.markFresh p x
  let still := x.ok && (s.plan (axisOfCoil p)).st = .standing && speedAt s (axisOfCoil p) x.hold = 0 &&
    !identifying s (axisOfCoil p)
  writeLegs (s.readLoop p still (s.coil p).voltOld (s.coil p).mA) (axisOfCoil p) p

theorem State.setCnd_ends (s : State) (d : CndS) : Ends p R s { s with cnd := d } :=
  ⟨Drives.note s (q := s.seqDone) (c := s.cntNow) (h := s.hbs), rfl, ⟨_, rfl⟩, rfl, rfl⟩

theorem State.readLoop_frame (s : State) (p : Coil) (b : Bool) (v m : Rat) : ∃ d, s.readLoop p b v m = { s with cnd := d } := by
  unfold State.readLoop
  extract_lets span rest
  clear_value span
  obtain _ | ⟨_, c, vi, ii⟩ := span <;> dsimp only
  · split
    · exact ⟨_, rfl⟩
    · exact ⟨_, rfl⟩
  · split
    · split
      · exact State.reading_frame { s with cnd := { s.cnd with spans := rest ++ [(p.val, c, vi + v * m / 1000, ii + m * m / 1000000)] } } _ _ _ _
      · exact ⟨_, rfl⟩
    · exact ⟨_, rfl⟩

theorem State.markFresh_ends (s : State) (p : Coil) (x : Sample) : Ends p R s (s.markFresh p x) := by
  unfold State.markFresh
  split
  · exact ⟨s.setClp_drives rfl _ ⟨_, _, _, _, _, _, _, _, _, _, _, rfl⟩, rfl, ⟨true, State.clp_setClp_self s _ _⟩, rfl, rfl⟩
  · exact Ends.refl s

theorem State.endStep_ends (s : State) (p : Coil) (x : Sample) (hr : R → legsReady s (axisOfCoil p)) :
    Ends p R s (s.endStep p x) ∧ (R → Shown p (s.endStep p x)) := by
  unfold State.endStep
  have h1 : Ends p R s (s.markFresh p x) := s.markFresh_ends p x
  generalize s.markFresh p x = u at *
  dsimp only
  obtain ⟨d, e⟩ := u.readLoop_frame p (x.ok && (u.plan (axisOfCoil p)).st = .standing && speedAt u (axisOfCoil p) x.hold = 0 &&
    !identifying u (axisOfCoil p)) (u.coil p).voltOld (u.coil p).mA
  rw [e]
  have h2 := h1.trans (u.setCnd_ends d)
  obtain ⟨h3, h4⟩ := writeLegs_ends (R := R) { u with cnd := d } p fun r => h2.drives.steps.legsReady (hr r)
  exact ⟨h2.trans h3, h4⟩

/-! An identification (R207). -/

/-- Its second half is coil B's; the clock of the coil under test, and that coil. -/
def idSecond (s : State) (n : Axis) : Bool := Decidable.decide (msClk 50 ≤ identifyClk s n)
def idClk (s : State) (n : Axis) : Nat := if idSecond s n then identifyClk s n - msClk 50 else identifyClk s n
def idOwn (s : State) (n : Axis) : Coil := if idSecond s n then coilB n else coilA n
def idAngle (s : State) (n : Axis) : Int := if idSecond s n then 16384 else 0

/-- The voltage of pulse i: that of the coil under test alone. -/
def idPulse (s : State) (p : Coil) (i : Nat) : Rat :=
  let n := axisOfCoil p
  let q := motorVolts s (bankOfAxis n) / 4
  if p = idOwn s n then (if i % 2 = 0 then q else -q) else 0

/-- A pulse is on. -/
def pulsing (s : State) (n : Axis) (i : Nat) : Prop :=
  identifyStep (identifyMa s n) (idClk s n) = .pulse i ∧ pulseOver s n (idOwn s n) i (idClk s n) = false

theorem own_iff (s : State) (p : Coil) : (Decidable.decide (p.val % 2 = 1) = idSecond s (axisOfCoil p)) ↔
    p = idOwn s (axisOfCoil p) := by
  unfold idOwn
  rw [Fin.ext_iff]
  cases idSecond s (axisOfCoil p)
  · simp only [decide_eq_false_iff_not, Bool.false_eq_true, if_false]
    change ¬ p.val % 2 = 1 ↔ p.val = 2 * (p.val / 2)
    omega
  · simp only [decide_eq_true_eq, if_true]
    change p.val % 2 = 1 ↔ p.val = 2 * (p.val / 2) + 1
    omega

/-- The gains of an identification. -/
def idGains (n : Axis) (mA : Rat) : Gains :=
  { idRef := mA / 1000, iqRef := 0, kp := twoPi * 200 / 100, ki := (Config.identifyKi n.val : Rat), ell := 1 / 100, v := 0, emf := 0 }

theorem identifyLoop_eq (s : State) (n : Axis) (p : Coil) : identifyLoop s n p =
    match identifyStep (identifyMa s n) (idClk s n) with
    | .regulate mA => innerLoop s n p (idAngle s n) (idGains n mA)
    | .pulse i =>
      if pulseOver s n (idOwn s n) i (idClk s n) then innerLoop s n p (idAngle s n) (idGains n 0)
      else
        let q := motorVolts s (bankOfAxis n) / 4
        s.setCoil p { s.coil p with voltOld := (s.coil p).volt,
                                    volt := if Decidable.decide (p.val % 2 = 1) = idSecond s n then (if i % 2 = 0 then q else -q) else 0 } := by
  unfold identifyLoop idOwn idClk idSecond idAngle idGains
  dsimp only
  generalize identifyStep _ _ = z
  cases z <;> rfl

theorem identifyLoop_drives (s : State) (p : Coil) : Drives p R s (identifyLoop s (axisOfCoil p) p) := by
  rw [identifyLoop_eq]
  generalize identifyStep _ _ = z
  cases z with
  | regulate mA => exact (innerLoop_inner s p _ _).2
  | pulse i =>
    dsimp only
    split
    · exact (innerLoop_inner s p _ _).2
    · exact s.setCoil_drives p _

/-- A pulse applies its voltage and leaves the rest of the coil. -/
theorem identifyLoop_pulse (s : State) (p : Coil) {i : Nat} (h : pulsing s (axisOfCoil p) i) :
    (identifyLoop s (axisOfCoil p) p).coil p = { s.coil p with voltOld := (s.coil p).volt, volt := idPulse s p i } ∧
      (identifyLoop s (axisOfCoil p) p).clps = s.clps := by
  obtain ⟨h1, h2⟩ := h
  rw [identifyLoop_eq, h1]
  dsimp only
  rw [if_neg (by rw [h2]; decide)]
  refine ⟨?_, rfl⟩
  rw [State.coil_setCoil_self]
  simp only [own_iff s p]
  rfl

/-- Without one the coil's own current is regulated. -/
theorem identifyLoop_regulates (s : State) (p : Coil) (h : ∀ i, ¬ pulsing s (axisOfCoil p) i) :
    Inner p (idAngle s (axisOfCoil p)) s (identifyLoop s (axisOfCoil p) p) := by
  rw [identifyLoop_eq]
  generalize hz : identifyStep _ _ = z
  cases z with
  | regulate mA => exact (innerLoop_inner (R := True) s p _ _).1
  | pulse i =>
    dsimp only
    rw [if_pos (by
      by_contra hc
      exact h i ⟨hz, by simpa using hc⟩)]
    exact (innerLoop_inner (R := True) s p _ _).1

/-! An unusable sample (R24). -/

/-- What an unusable sample does. -/
structure Missed (p : Coil) (R : Prop) (s t : State) : Prop where
  steps : Steps p R s t
  coil : t.coil p = { s.coil p with
    bad := (s.coil p).bad + 1, voltOld := (s.coil p).volt, emfOld2 := (s.coil p).emfOld, emfOld := (s.coil p).emf
    iqOld := (s.coil p).iqAct, mAOld := (s.coil p).mA }
  ran : (t.clp (axisOfCoil p)).ran = (s.clp (axisOfCoil p)).ran
  miss : t.flag (F.CLP_STAT_MISS (axisOfCoil p)) = true
  count : t.rd (F.CLP_STAT_MISSCNT (axisOfCoil p)) = min 255 (s.rd (F.CLP_STAT_MISSCNT (axisOfCoil p)) + 1)

theorem missCount (s : State) (n : Axis) :
    ((s.sqc (F.CLP_STAT_MISS n)).cnt (F.CLP_STAT_MISSCNT n)).flag (F.CLP_STAT_MISS n) = true ∧
      ((s.sqc (F.CLP_STAT_MISS n)).cnt (F.CLP_STAT_MISSCNT n)).rd (F.CLP_STAT_MISSCNT n) =
        min 255 (s.rd (F.CLP_STAT_MISSCNT n) + 1) := by
  constructor
  · rw [State.flag, State.rd_cnt_ne _ _ (.inr ⟨rfl, rfl, rfl⟩)]
    exact State.flag_sqc s (by rfl) (show 2 < 24 by decide)
  · rw [State.rd_cnt_self _ (by rfl), State.rd_sqc_apart s (f := F.CLP_STAT_MISS n) (g := F.CLP_STAT_MISSCNT n) (by rfl) (show 15 < 24 by decide) rfl (.inl (show 2 < 8 by decide))]
    exact Nat.min_comm _ _

/-- The coil after an unusable sample: its values move on by one interval, and the voltage stays. -/
def CoilS.missed (k : CoilS) : CoilS :=
  { k.shiftEmf k.emf with bad := k.bad + 1, voltOld := k.volt, iqOld := k.iqAct, mAOld := k.mA }

/-- The sample counts, and the voltage's limit shows no more. -/
def State.countMiss (s : State) (p : Coil) : State :=
  let s := (s.sqc (F.CLP_STAT_MISS (axisOfCoil p))).cnt (F.CLP_STAT_MISSCNT (axisOfCoil p))
  let s := s.setCoil p (s.coil p).missed
  let c := s.clp (axisOfCoil p)
  if p.val % 2 = 0 then
    (s.setClp (axisOfCoil p) { c with zd0 := c.zd, zq0 := c.zq }).wr (F.CLP_STAT_VSAT (axisOfCoil p)) 0
  else s

theorem badSample_eq (s : State) (p : Coil) : badSample s (axisOfCoil p) p =
    if (((s.sqc (F.CLP_STAT_MISS (axisOfCoil p))).cnt (F.CLP_STAT_MISSCNT (axisOfCoil p))).coil p).bad = 1 then
      (s.countMiss p).trip (128 + 16 * (axisOfCoil p).val + 4)
    else s.countMiss p := by
  unfold badSample State.countMiss CoilS.missed
  rfl

theorem State.clearSat_missed {v : State} (hd : Drives p R s v) (hc : v.coil p = (s.coil p).missed)
    (hr : (v.clp (axisOfCoil p)).ran = (s.clp (axisOfCoil p)).ran) (hm : v.flag (F.CLP_STAT_MISS (axisOfCoil p)) = true)
    (hn : v.rd (F.CLP_STAT_MISSCNT (axisOfCoil p)) = min 255 (s.rd (F.CLP_STAT_MISSCNT (axisOfCoil p)) + 1)) {c : ClpS}
    (e : c = { v.clp (axisOfCoil p) with zd0 := (v.clp (axisOfCoil p)).zd, zq0 := (v.clp (axisOfCoil p)).zq }) :
    Missed p R s ((v.setClp (axisOfCoil p) c).wr (F.CLP_STAT_VSAT (axisOfCoil p)) 0) := by
  have h1 : Drives p R v (v.setClp (axisOfCoil p) c) := v.setClp_drives rfl c ⟨_, _, _, _, _, _, _, _, _, _, _, e⟩
  have h2 : Drives p R (v.setClp (axisOfCoil p) c) ((v.setClp (axisOfCoil p) c).wr (F.CLP_STAT_VSAT (axisOfCoil p)) 0) :=
    State.wr_drives _ 0 (stepReg_shd p).2.2
  refine ⟨((hd.trans h1).trans h2).steps, ?_, ?_, ?_, ?_⟩
  · rw [State.coil, State.wr_coils, State.setClp_coils]
    exact hc
  · rw [State.clp, State.wr_clps]
    refine (congrArg ClpS.ran (State.clp_setClp_self v _ c)).trans ?_
    rw [e]
    exact hr
  · rw [State.flag, State.rd_wr_ne _ _ (.inr ⟨rfl, rfl, rfl⟩), State.setClp_rd]
    exact hm
  · rw [State.rd_wr_ne _ _ (.inr ⟨rfl, rfl, rfl⟩), State.setClp_rd]
    exact hn

theorem State.countMiss_missed (s : State) (p : Coil) : Missed p R s (s.countMiss p) ∧ (s.countMiss p).fcs = s.fcs := by
  obtain ⟨hm, hn⟩ := missCount s (axisOfCoil p)
  have h1 : Drives p R s (s.sqc (F.CLP_STAT_MISS (axisOfCoil p))) := s.sqc_drives (stepReg_shd p).2.2
  have h2 : Drives p R (s.sqc (F.CLP_STAT_MISS (axisOfCoil p))) ((s.sqc (F.CLP_STAT_MISS (axisOfCoil p))).cnt (F.CLP_STAT_MISSCNT (axisOfCoil p))) :=
    State.cnt_drives _ 1 (stepReg_shd p).2.2
  have hd := h1.trans h2
  have hc : ((s.sqc (F.CLP_STAT_MISS (axisOfCoil p))).cnt (F.CLP_STAT_MISSCNT (axisOfCoil p))).coils = s.coils := by simp
  have hl : ((s.sqc (F.CLP_STAT_MISS (axisOfCoil p))).cnt (F.CLP_STAT_MISSCNT (axisOfCoil p))).clps = s.clps := by simp
  have hf : ((s.sqc (F.CLP_STAT_MISS (axisOfCoil p))).cnt (F.CLP_STAT_MISSCNT (axisOfCoil p))).fcs = s.fcs := by simp
  unfold State.countMiss
  generalize (s.sqc (F.CLP_STAT_MISS (axisOfCoil p))).cnt (F.CLP_STAT_MISSCNT (axisOfCoil p)) = v at *
  have hk : v.coil p = s.coil p := by rw [State.coil, hc]; rfl
  have hw : Drives p R s (v.setCoil p (v.coil p).missed) := hd.trans (v.setCoil_drives p _)
  have hwc : (v.setCoil p (v.coil p).missed).coil p = (s.coil p).missed := by rw [State.coil_setCoil_self, hk]
  have hwr : ((v.setCoil p (v.coil p).missed).clp (axisOfCoil p)).ran = (s.clp (axisOfCoil p)).ran := by
    rw [State.clp, State.setCoil_clps, hl]
    rfl
  dsimp only
  split
  · refine ⟨State.clearSat_missed hw hwc hwr ?_ ?_ rfl, ?_⟩
    · exact hm
    · exact hn
    · rw [State.wr_fcs, State.setClp_fcs, State.setCoil_fcs, hf]
  · exact ⟨⟨hw.steps, hwc, hwr, hm, hn⟩, hf⟩

theorem axis_source : ∀ n : Axis, (sourceRow (128 + 16 * n.val + 4)).isSome = true := by decide

theorem badSample_missed (s : State) (p : Coil) (hp : s.powered 1 = true) : Missed p R s (badSample s (axisOfCoil p) p) ∧
    ((badSample s (axisOfCoil p) p).src (128 + 16 * (axisOfCoil p).val + 4)).total =
      (if (s.coil p).bad = 1 then min 255 ((s.src (128 + 16 * (axisOfCoil p).val + 4)).total + 1)
       else (s.src (128 + 16 * (axisOfCoil p).val + 4)).total) := by
  obtain ⟨h, hf⟩ := s.countMiss_missed (R := R) p
  have hc : ((s.sqc (F.CLP_STAT_MISS (axisOfCoil p))).cnt (F.CLP_STAT_MISSCNT (axisOfCoil p))).coil p = s.coil p := by
    rw [State.coil, State.cnt_coils, State.sqc_coils]
    rfl
  rw [badSample_eq, hc]
  have hs : ∀ j, (s.countMiss p).src j = s.src j := State.src_of_fcs hf
  have ht : Tripped (128 + 16 * (axisOfCoil p).val + 4) false (s.countMiss p) ((s.countMiss p).trip (128 + 16 * (axisOfCoil p).val + 4)) :=
    State.trip_tripped _ _ _ _ _ (axis_source _) ((h.steps.powered 1).trans hp)
  generalize s.countMiss p = v at *
  split
  · have hk := ht.reaction.regs _ (faultReg_clpStat (axisOfCoil p))
    refine ⟨⟨h.steps.trans ht.steps, ?_, ?_, (State.flag_of_reg hk).trans h.miss, (State.rd_of_reg hk).trans h.count⟩, ?_⟩
    · have e : (v.trip (128 + 16 * (axisOfCoil p).val + 4)).coils = v.coils := (congrArg State.coils ht.reaction.rest :)
      rw [State.coil, e]
      exact h.coil
    · refine (congrArg ClpS.ran (ht.reaction.clps (axisOfCoil p))).trans h.ran
    · rw [ht.total, hs]
  · exact ⟨h, by rw [hs]⟩

end Parts

end Sys2Proof.Machine

namespace Sys2Proof.Machine

section Step

variable {p : Coil} {x : Sample} {R : Prop} {s t u : State}

/-! ### The step as a whole (R195) -/

/-- The clock of the step has come, and its sample is taken from the coil. -/
def State.stepTaken (s : State) (p : Coil) (x : Sample) : State :=
  let u := s.advTo (x.hold + if p.val % 16 < 8 then 152 else 204)
  u.setCoil p { s.coil p with waiting := none, doneAt := u.clk }

/-- The axis of the coil is driven. -/
def coilDriven (s : State) (p : Coil) : Bool :=
  (s.energised (axisOfCoil p) || (hbsOfAxis (axisOfCoil p)).any fun h => (s.hb h).react) && !s.halted &&
    s.powered (8 + (bankOfAxis (axisOfCoil p)).val)

theorem State.advTo_frame (s : State) (c : Nat) : ∃ k g q m i, s.advTo c = { s with clk := k, gtc := g, seqDone := q, cntNow := m, inClk := i } := by
  unfold State.advTo
  split
  · exact ⟨_, _, _, _, _, rfl⟩
  · exact ⟨_, _, _, _, _, rfl⟩

theorem State.stepTaken_frame (s : State) (p : Coil) (x : Sample) : ∃ c g q m i k d, s.stepTaken p x =
    { s with clk := c, gtc := g, seqDone := q, cntNow := m, inClk := i, coils := s.coils.set p k } ∧
      k = { s.coil p with waiting := none, doneAt := d } := by
  obtain ⟨c, g, q, m, i, e⟩ := s.advTo_frame (x.hold + if p.val % 16 < 8 then 152 else 204)
  unfold State.stepTaken
  rw [e]
  exact ⟨_, _, _, _, _, _, _, rfl, rfl⟩

theorem coilDriven_stepTaken (s : State) (p : Coil) (x : Sample) : coilDriven (s.stepTaken p x) p = coilDriven s p := by
  obtain ⟨c, g, q, m, i, k, d, e, -⟩ := s.stepTaken_frame p x
  rw [e]
  rfl

theorem exec_coilStep (h : (s.coil p).waiting = some x) : exec (.coilStep p) s = .next
    (if coilDriven s p then coilStep (s.stepTaken p x) p x else s.stepTaken p x) := by
  change execCoilStep p s = _
  rw [← coilDriven_stepTaken s p x]
  unfold execCoilStep
  rw [h]
  have e : (s.advTo (x.hold + if p.val % 16 < 8 then 152 else 204)).coil p = s.coil p := by
    rw [State.coil, State.advTo_coils]
    rfl
  dsimp only
  rw [e]
  rfl

theorem coilStep_eq (s : State) (p : Coil) (x : Sample) : coilStep s p x = State.endStep
    (if x.ok then
      let v := (s.outerStep p x.hold).takeSample p x
      if identifying v (axisOfCoil p) then identifyLoop v (axisOfCoil p) p else runLoop v (axisOfCoil p) p x.hold
    else badSample (s.outerStep p x.hold) (axisOfCoil p) p) p x := by
  unfold coilStep State.endStep State.markFresh State.outerStep State.takeSample
  rfl

theorem State.takeSample_drives (s : State) (p : Coil) (x : Sample) : Drives p R s (s.takeSample p x) := s.setCoil_drives p _

theorem State.takeSample_coil (s : State) (p : Coil) (x : Sample) : (s.takeSample p x).coil p = { (s.coil p).shiftEmf
    (if (s.coil p).bad = 0 then backEmf s p x.mA else (s.coil p).emf) with mA := x.mA, mAOld := (s.coil p).mA, bad := 0 } :=
  State.coil_setCoil_self s p _

theorem Steps.backEmf (h : Steps p R s t) (hc : t.coil p = s.coil p) (m : Rat) : backEmf t p m = backEmf s p m := by
  unfold Machine.backEmf
  dsimp only
  rw [hc, h.halfSec, h.rd (f := F.CLP_RL_RES p) (stepReg_rl p p), h.rd (f := F.CLP_RL_IND p) (stepReg_rl p p)]

/-- The sampled coil as seen from the start. -/
def sampledCoil (s : State) (p : Coil) (x : Sample) (k : CoilS) : CoilS :=
  { k with
    mA := x.mA, mAOld := (s.coil p).mA, bad := 0, emfOld2 := (s.coil p).emfOld, emfOld := (s.coil p).emf
    emf := if (s.coil p).bad = 0 then Machine.backEmf s p x.mA else (s.coil p).emf, voltOld := (s.coil p).volt }

/-- What a step leaves alone, as the statement says it. -/
def CoilFrame (s : State) (p : Coil) (x : Sample) (t : State) : Prop :=
  (∀ q, q ≠ p → t.coil q = s.coil q) ∧ (∀ m, m ≠ axisOfCoil p → t.clp m = { s.clp m with fresh := (t.clp m).fresh }) ∧
    (p.val % 2 = 0 → (t.clp (axisOfCoil p)).ran) ∧ t.clk = (s.stepTaken p x).clk ∧ t.gtc = (s.stepTaken p x).gtc ∧
    t.fbks = s.fbks ∧ t.gdrs = s.gdrs ∧ t.adcs = s.adcs ∧ t.reqs = s.reqs ∧
    ∀ o, faultReg o = false → o ∉ [Reg.PWM_SHD (legs p).1, Reg.PWM_SHD (legs p).2, Reg.CLP_STAT (axisOfCoil p)] → t.reg o = s.reg o

theorem Steps.coilFrame (h : Steps p R (s.stepTaken p x) t) (hr : p.val % 2 = 0 → (t.clp (axisOfCoil p)).ran = true) :
    CoilFrame s p x t := by
  obtain ⟨c, g, q, m, i, k, d, e, -⟩ := s.stepTaken_frame p x
  have hclk := h.clk
  have hgtc := h.gtc
  rw [e] at h
  refine ⟨fun q hq => (h.coils q hq).trans (s.coil_setCoil_ne k hq), h.clps, hr, hclk, hgtc, h.fbks, h.gdrs, h.adcs, h.reqs,
    fun o h1 h2 => h.regs o ?_⟩
  simp only [List.mem_cons, List.not_mem_nil, or_false, not_or] at h2
  simp [stepReg, h1, h2]

/-- The start of a step: the outer loops, and the sample. -/
def State.sampled (s : State) (p : Coil) (x : Sample) : State := ((s.stepTaken p x).outerStep p x.hold).takeSample p x

/-- From the start of a step to its sample. -/
structure Sampled (p : Coil) (R : Prop) (x : Sample) (s v : State) : Prop where
  steps : Steps p R (s.stepTaken p x) v
  coil : ∃ k, k = { s.coil p with waiting := none, doneAt := (s.stepTaken p x).clk } ∧
    v.coil p = { sampledCoil s p x k with voltOld := (s.coil p).voltOld }
  clp : v.clp (axisOfCoil p) = ((s.stepTaken p x).outerStep p x.hold).clp (axisOfCoil p)

theorem State.stepTaken_coil (s : State) (p : Coil) (x : Sample) :
    (s.stepTaken p x).coil p = { s.coil p with waiting := none, doneAt := (s.stepTaken p x).clk } := by
  unfold State.stepTaken
  rw [State.coil_setCoil_self]
  rfl

theorem backEmf_stepTaken (s : State) (p : Coil) (x : Sample) (m : Rat) : backEmf (s.stepTaken p x) p m = backEmf s p m := by
  have hc := s.stepTaken_coil p x
  obtain ⟨c, g, q, n, i, k, d, e, -⟩ := s.stepTaken_frame p x
  unfold backEmf
  dsimp only
  rw [hc, e]
  rfl

theorem State.sampled_sampled (s : State) (p : Coil) (x : Sample) : Sampled p R x s (s.sampled p x) := by
  have ho := (s.stepTaken p x).outerStep_outer (R := R) p x.hold
  have hv := ((s.stepTaken p x).outerStep p x.hold).takeSample_drives (R := R) p x
  have hc : ((s.stepTaken p x).outerStep p x.hold).coil p = (s.stepTaken p x).coil p := by rw [State.coil, ho.coils]; rfl
  refine ⟨ho.steps.trans hv.steps, ⟨_, rfl, ?_⟩, rfl⟩
  rw [State.sampled, State.takeSample_coil, ho.steps.backEmf hc, backEmf_stepTaken, hc, State.stepTaken_coil]
  rfl

theorem identifying_stepTaken (s : State) (p : Coil) (x : Sample) (n : Axis) : identifying (s.stepTaken p x) n = identifying s n := by
  obtain ⟨c, g, q, m, i, k, d, e, -⟩ := s.stepTaken_frame p x
  rw [e]
  rfl

/-- No identification begins up to the sample. -/
theorem sampled_identifying (s : State) (p : Coil) (x : Sample) : identifying (s.sampled p x) (axisOfCoil p) = identifying s (axisOfCoil p) := by
  have hv := ((s.stepTaken p x).outerStep p x.hold).takeSample_drives (R := True) p x
  rw [State.sampled, hv.identifying]
  cases hi : identifying s (axisOfCoil p) with
  | true =>
    rw [((s.stepTaken p x).outerStep_identifying (R := True) x.hold ((identifying_stepTaken s p x _).trans hi)).identifying,
      identifying_stepTaken, hi]
  | false =>
    exact ((s.stepTaken p x).outerStep_outer (R := True) p x.hold).not_identifying _ ((identifying_stepTaken s p x _).trans hi)

/-- The axis's loop at the sample: a coil B step leaves the references. -/
theorem Sampled.odd (h : Sampled p R x s t) (hp : p.val % 2 = 1) : t.clp (axisOfCoil p) = s.clp (axisOfCoil p) := by
  rw [h.clp, State.outerStep_odd _ _ hp]
  obtain ⟨c, g, q, m, i, k, d, e, -⟩ := s.stepTaken_frame p x
  rw [e]
  rfl

theorem Sampled.ran (h : Sampled p R x s t) (hp : p.val % 2 = 0) : (t.clp (axisOfCoil p)).ran = true := by
  rw [h.clp]
  exact State.outerStep_ran _ _ hp

theorem servo_stepTaken (s : State) (p : Coil) (x : Sample) (n : Axis) (hold : Nat) : fromRef (s.stepTaken p x) n = fromRef s n ∧
    servoIv (s.stepTaken p x) n hold = servoIv s n hold ∧ servoIq (s.stepTaken p x) n hold = servoIq s n hold ∧
    (s.stepTaken p x).clp n = s.clp n := by
  obtain ⟨c, g, q, m, i, k, d, e, -⟩ := s.stepTaken_frame p x
  rw [e]
  exact ⟨rfl, rfl, rfl, rfl⟩

/-- A coil A step with the servo renews the torque reference (R199, R201). -/
theorem Sampled.servo (h : Sampled p R x s t) (hp : p.val % 2 = 0) (hi : identifying s (axisOfCoil p) = false)
    (hf : fromRef s (axisOfCoil p) = false) : (t.clp (axisOfCoil p)).idRef = 0 ∧
    (t.clp (axisOfCoil p)).iqRef = (limitIq (s.stepTaken p x) (axisOfCoil p) (servoIq s (axisOfCoil p) x.hold)).1 ∧
    (t.clp (axisOfCoil p)).iv = if (limitIq (s.stepTaken p x) (axisOfCoil p) (servoIq s (axisOfCoil p) x.hold)).2 then
      (s.clp (axisOfCoil p)).iv else servoIv s (axisOfCoil p) x.hold := by
  obtain ⟨h1, h2, h3, h4⟩ := servo_stepTaken s p x (axisOfCoil p) x.hold
  obtain ⟨f, hl⟩ := outerLoops_servo (s.stepTaken p x) (axisOfCoil p) x.hold (h1.trans hf)
  have hc : t.clp (axisOfCoil p) = { (outerLoops (s.stepTaken p x) (axisOfCoil p) x.hold).clp (axisOfCoil p) with ran := true } := by
    rw [h.clp, State.outerStep, if_pos hp, identifying_stepTaken, hi]
    exact State.clp_setClp_self _ _ _
  rw [hc, hl, h2, h3, h4]
  exact ⟨rfl, rfl, rfl⟩

end Step

end Sys2Proof.Machine

namespace Sys2Proof.Machine

section Clauses

variable {p : Coil} {x : Sample} {R : Prop} {s t v w : State}

theorem Ends.mA (h : Ends p R s t) (q : Coil) : (t.coil q).mA = (s.coil q).mA := by
  rw [State.coil, h.coils]
  rfl

theorem Ran.mA {hold : Nat} (h : Ran p hold s t) (k : Drives p R s t) (q : Coil) : (t.coil q).mA = (s.coil q).mA := by
  by_cases e : q = p
  · subst e
    rw [h.coil]
    rfl
  · rw [k.steps.coils q e]

theorem Ends.turnedBack (h : Ends p R s t) (q : Coil) (θ : Int) :
    turnedBack q (t.clp (axisOfCoil p)) θ = turnedBack q (s.clp (axisOfCoil p)) θ := by
  obtain ⟨f, e⟩ := h.clp
  rw [e]
  rfl

theorem legsReady_sampled (h : Sampled p R x s v) (hr : legsReady s (axisOfCoil p)) : legsReady v (axisOfCoil p) := by
  refine h.steps.legsReady ?_
  obtain ⟨c, g, q, m, i, k, d, e, -⟩ := s.stepTaken_frame p x
  rw [e]
  exact hr

theorem motorVolts_stepTaken (s : State) (p : Coil) (x : Sample) (b : Bank) : motorVolts (s.stepTaken p x) b = motorVolts s b := by
  obtain ⟨c, g, q, m, i, k, d, e, -⟩ := s.stepTaken_frame p x
  rw [e]
  rfl

theorem freeCtr_stepTaken (s : State) (p : Coil) (x : Sample) : (s.stepTaken p x).freeCtr = s.freeCtr := by
  obtain ⟨c, g, q, m, i, k, d, e, -⟩ := s.stepTaken_frame p x
  rw [e]

/-- A usable sample of a running axis, from the coil's parts. -/
theorem coilStep_runs (hx : (s.coil p).waiting = some x) (hd : coilDriven s p = true) (ho : x.ok = true)
    (hi : identifying s (axisOfCoil p) = false) : ∃ v w t, exec (.coilStep p) s = .next t ∧
      Sampled p (legsReady s (axisOfCoil p)) x s v ∧ Ran p x.hold v w ∧ Drives p (legsReady s (axisOfCoil p)) v w ∧
      Ends p (legsReady s (axisOfCoil p)) w t ∧ (legsReady s (axisOfCoil p) → Shown p t) := by
  have hv := s.sampled_sampled (R := legsReady s (axisOfCoil p)) p x
  obtain ⟨hw, hwd⟩ := runLoop_ran (R := legsReady s (axisOfCoil p)) (s.sampled p x) p x.hold
  obtain ⟨he, hsh⟩ := State.endStep_ends (R := legsReady s (axisOfCoil p)) (runLoop (s.sampled p x) (axisOfCoil p) p x.hold) p x
    fun r => hwd.steps.legsReady (legsReady_sampled hv r)
  refine ⟨_, _, _, ?_, hv, hw, hwd, he, hsh⟩
  rw [exec_coilStep hx, hd, if_pos rfl, coilStep_eq, if_pos ho]
  have := sampled_identifying s p x
  rw [hi] at this
  rw [show ((s.stepTaken p x).outerStep p x.hold).takeSample p x = s.sampled p x from rfl]
  dsimp only
  rw [this, if_neg Bool.false_ne_true]

/-- A usable sample of a running axis (R195, R198 to R204): the second clause of CoilStepsDriveTheBridges. -/
theorem coilStep_running (hx : (s.coil p).waiting = some x) (hd : coilDriven s p = true) (ho : x.ok = true)
    (hi : identifying s (axisOfCoil p) = false) : Gives (.coilStep p) s fun t =>
    let n := axisOfCoil p
    let θ := thetaAt t n x.hold
    let φ := angleAt t n (posAt t n x.hold)
    let ia := (t.coil (coilA n)).mA
    let ib := (t.coil (coilB n)).mA
    let c := t.clp n
    t.coil p = { sampledCoil s p x ((s.stepTaken p x).coil p) with
      iq := ib * cosA θ - ia * sinA θ, id := ia * cosA θ + ib * sinA θ
      iqOld := (s.coil p).iqAct, iqAct := ib * cosA φ - ia * sinA φ, volt := turnedBack p c θ } ∧
    (0 < motorVolts s (bankOfAxis n) → absRat c.vd ≤ motorVolts s (bankOfAxis n)) ∧
    (p.val % 2 = 1 → c.iqRef = (s.clp n).iqRef ∧ c.idRef = (s.clp n).idRef) ∧
    (p.val % 2 = 0 → fromRef s n = false → c.idRef = 0 ∧
      c.iqRef = (limitIq (s.stepTaken p x) n (servoIq s n x.hold)).1 ∧
      c.iv = if (limitIq (s.stepTaken p x) n (servoIq s n x.hold)).2 then (s.clp n).iv else servoIv s n x.hold) ∧
    (legsReady s n → Shown p t ∧ t.freeCtr = s.freeCtr) ∧ CoilFrame s p x t := by
  obtain ⟨v, w, t, he, hv, hw, hd, hend, hshow⟩ := coilStep_runs hx hd ho hi
  have hvt := hd.trans hend.drives
  have hst := hv.steps.trans hvt.steps
  have hmA : ∀ q, (t.coil q).mA = (v.coil q).mA := fun q => (hend.mA q).trans (hw.mA hd q)
  obtain ⟨f, hc⟩ := hend.clp
  obtain ⟨vd, vq, zd0, zq0, zd, zq, hcw⟩ := hw.clp
  obtain ⟨k, rfl, hk⟩ := hv.coil
  refine ⟨t, he, ?_⟩
  beta_reduce
  intro n θ φ ia ib c
  have hθ : θ = thetaAt v n x.hold := hvt.thetaAt x.hold
  have hφ : φ = angleAt v n (posAt v n x.hold) := by
    unfold φ
    rw [hvt.steps.angleAt, hvt.steps.posAt]
  obtain ⟨r2, r1⟩ := rotorFrame_mA v n θ
  obtain ⟨a2, -⟩ := rotorFrame_mA v n φ
  rw [← hmA, ← hmA] at r1 r2 a2
  have hcc : c.iqRef = (v.clp n).iqRef ∧ c.idRef = (v.clp n).idRef ∧ c.iv = (v.clp n).iv ∧ c.ran = (v.clp n).ran := by
    unfold c
    rw [hc, hcw]
    exact ⟨rfl, rfl, rfl, rfl⟩
  obtain ⟨c1, c2, c3, c4⟩ := hcc
  refine ⟨?_, fun h => ?_, fun h => ?_, fun h hf => ?_, fun h => ⟨hshow h, (hst.free h).trans (freeCtr_stepTaken s p x)⟩,
    hst.coilFrame fun h => c4.trans (hv.ran h)⟩
  · have : t.coil p = w.coil p := by rw [State.coil, hend.coils]; rfl
    rw [this, hw.coil, ← hθ, ← hφ, hk, ← hend.turnedBack, State.stepTaken_coil]
    unfold CoilS.driven
    rw [r1, r2, a2]
    rfl
  · have hm : motorVolts v (bankOfAxis n) = motorVolts s (bankOfAxis n) := (hv.steps.motorVolts _).trans (motorVolts_stepTaken ..)
    have := hw.limited (by rw [hm]; exact h)
    rw [hm] at this
    unfold c
    rw [hc]
    exact this
  · rw [c1, c2, hv.odd h]
    exact ⟨rfl, rfl⟩
  · obtain ⟨s1, s2, s3⟩ := hv.servo h hi hf
    exact ⟨c2.trans s1, c1.trans s2, c3.trans s3⟩

/-- While the axis is identified the timetable is the same at the sample as at the start. -/
theorem sampled_timetable (s : State) (p : Coil) (x : Sample) (hi : identifying s (axisOfCoil p) = true) :
    identifyClk (s.sampled p x) (axisOfCoil p) = identifyClk (s.stepTaken p x) (axisOfCoil p) := by
  have h1 := (s.stepTaken p x).outerStep_identifying (R := True) x.hold ((identifying_stepTaken s p x _).trans hi)
  exact (h1.trans (State.takeSample_drives _ p x)).identifyClk _

/-- What an identification leaves of the coil: its currents' frame values and its voltage are new. -/
structure Identified (p : Coil) (s t : State) : Prop where
  coil : ∃ iq id v, t.coil p = { s.coil p with iq := iq, id := id, voltOld := (s.coil p).volt, volt := v }
  ran : (t.clp (axisOfCoil p)).ran = (s.clp (axisOfCoil p)).ran

theorem identifyLoop_identified (s : State) (p : Coil) : Identified p s (identifyLoop s (axisOfCoil p) p) := by
  by_cases h : ∃ i, pulsing s (axisOfCoil p) i
  · obtain ⟨i, hi⟩ := h
    obtain ⟨h1, h2⟩ := identifyLoop_pulse s p hi
    exact ⟨⟨_, _, _, h1⟩, by rw [State.clp, h2]; rfl⟩
  · have h := identifyLoop_regulates s p fun i hi => h ⟨i, hi⟩
    obtain ⟨_, _, _, _, _, _, hc⟩ := h.clp
    exact ⟨⟨_, _, _, h.coil⟩, by rw [hc]⟩

theorem Identified.mA (h : Identified p s t) (k : Drives p R s t) (q : Coil) : (t.coil q).mA = (s.coil q).mA := by
  by_cases e : q = p
  · obtain ⟨_, _, _, h⟩ := h.coil
    subst e
    rw [h]
  · rw [k.steps.coils q e]

/-- A usable sample of an axis that is identified, from the coil's parts. -/
theorem coilStep_identifies (hx : (s.coil p).waiting = some x) (hd : coilDriven s p = true) (ho : x.ok = true)
    (hi : identifying s (axisOfCoil p) = true) : ∃ v t, exec (.coilStep p) s = .next t ∧
      Sampled p (legsReady s (axisOfCoil p)) x s v ∧ identifyClk v (axisOfCoil p) = identifyClk (s.stepTaken p x) (axisOfCoil p) ∧
      Ends p (legsReady s (axisOfCoil p)) (identifyLoop v (axisOfCoil p) p) t ∧ (legsReady s (axisOfCoil p) → Shown p t) := by
  have hv := s.sampled_sampled (R := legsReady s (axisOfCoil p)) p x
  have hwd := identifyLoop_drives (R := legsReady s (axisOfCoil p)) (s.sampled p x) p
  obtain ⟨he, hsh⟩ := State.endStep_ends (R := legsReady s (axisOfCoil p)) (identifyLoop (s.sampled p x) (axisOfCoil p) p) p x
    fun r => hwd.steps.legsReady (legsReady_sampled hv r)
  refine ⟨_, _, ?_, hv, sampled_timetable s p x hi, he, hsh⟩
  have := sampled_identifying s p x
  rw [hi] at this
  rw [exec_coilStep hx, hd, if_pos rfl, coilStep_eq, if_pos ho,
    show ((s.stepTaken p x).outerStep p x.hold).takeSample p x = s.sampled p x from rfl]
  dsimp only
  rw [this, if_pos rfl]

/-- A usable sample of an axis that is identified (R207): the third clause of CoilStepsDriveTheBridges. -/
theorem coilStep_identifying (hx : (s.coil p).waiting = some x) (hd : coilDriven s p = true) (ho : x.ok = true)
    (hi : identifying s (axisOfCoil p) = true) : Gives (.coilStep p) s fun t =>
    let n := axisOfCoil p
    let u := s.stepTaken p x
    let vm := motorVolts s (bankOfAxis n)
    let own := idOwn u n
    t.coil p = { sampledCoil s p x (u.coil p) with
      iq := (t.coil p).iq, id := (t.coil p).id, volt := (t.coil p).volt } ∧
    let pulse := fun i => identifyStep (identifyMa s n) (idClk u n) = .pulse i ∧ pulseOver t n own i (idClk u n) = false
    (∀ i, pulse i → (t.coil p).volt = if p = own then (if i % 2 = 0 then vm / 4 else -(vm / 4)) else 0) ∧
    ((∀ i, ¬ pulse i) → (0 < vm → absRat (t.clp n).vd ≤ vm) ∧ (t.coil p).volt = turnedBack p (t.clp n) (idAngle u n)) ∧
    (legsReady s n → Shown p t ∧ t.freeCtr = s.freeCtr) ∧ CoilFrame s p x t := by
  obtain ⟨v, t, he, hv, hclk, hend, hshow⟩ := coilStep_identifies hx hd ho hi
  have hw := identifyLoop_identified v p
  have hwd := identifyLoop_drives (R := legsReady s (axisOfCoil p)) v p
  have hvt := hwd.trans hend.drives
  have hst := hv.steps.trans hvt.steps
  have hmA : ∀ q, (t.coil q).mA = (v.coil q).mA := fun q => (hend.mA q).trans (hw.mA hwd q)
  obtain ⟨f, hc⟩ := hend.clp
  obtain ⟨k, rfl, hk⟩ := hv.coil
  have htc : t.coil p = (identifyLoop v (axisOfCoil p) p).coil p := by rw [State.coil, hend.coils]; rfl
  refine ⟨t, he, ?_⟩
  beta_reduce
  intro n u vm own
  have h1 : idSecond v n = idSecond u n := by rw [idSecond, hclk]; rfl
  have h2 : idClk v n = idClk u n := by rw [idClk, h1, hclk]; rfl
  have h3 : idOwn v n = own := by rw [idOwn, h1]; rfl
  have h4 : idAngle v n = idAngle u n := by rw [idAngle, h1]; rfl
  have hu : identifyMa u n = identifyMa s n := by
    obtain ⟨c, g, q, m, i, k, d, e, -⟩ := s.stepTaken_frame p x
    unfold u
    rw [e]
    rfl
  have h5 : identifyMa v n = identifyMa s n := (hv.steps.identifyMa n).trans hu
  have h6 : identifyMa t n = identifyMa s n := (hst.identifyMa n).trans hu
  have hm : motorVolts v (bankOfAxis n) = vm := (hv.steps.motorVolts _).trans (motorVolts_stepTaken ..)
  have hpulse : ∀ i, (identifyStep (identifyMa s n) (idClk u n) = .pulse i ∧ pulseOver t n own i (idClk u n) = false) ↔
      pulsing v n i := fun i => by
    unfold pulsing
    rw [h2, h3, h5]
    unfold pulseOver
    rw [hmA, h5, h6]
  refine ⟨?_, fun i hp => ?_, fun hno => ?_, fun h => ⟨hshow h, (hst.free h).trans (freeCtr_stepTaken s p x)⟩,
    hst.coilFrame fun h => ?_⟩
  · obtain ⟨iq, id, volt, hcoil⟩ := hw.coil
    rw [htc, hcoil, hk, State.stepTaken_coil]
    rfl
  · have := (identifyLoop_pulse v p ((hpulse i).1 hp)).1
    rw [htc, this]
    change idPulse v p i = _
    unfold idPulse
    dsimp only
    rw [hm, h3]
  · have hr := identifyLoop_regulates v p fun i hi => hno i ((hpulse i).2 hi)
    constructor
    · intro h
      have := hr.limited (by rw [hm]; exact h)
      rw [hm] at this
      rw [hc]
      exact this
    · rw [htc, hr.coil, ← h4, hend.turnedBack]
      rfl
  · rw [hc]
    exact hw.ran.trans (hv.ran h)

/-- A sample not usable, from the coil's parts. -/
theorem coilStep_misses (hx : (s.coil p).waiting = some x) (hd : coilDriven s p = true) (ho : x.ok = false) (hp : s.powered 1 = true) :
    Gives (.coilStep p) s fun t =>
    let n := axisOfCoil p
    let k := s.coil p
    t.coil p = { (s.stepTaken p x).coil p with
      bad := k.bad + 1, voltOld := k.volt, emfOld2 := k.emfOld, emfOld := k.emf, iqOld := k.iqAct, mAOld := k.mA } ∧
    t.flag (F.CLP_STAT_MISS n) ∧ t.rd (F.CLP_STAT_MISSCNT n) = min 255 (s.rd (F.CLP_STAT_MISSCNT n) + 1) ∧
    (t.src (128 + 16 * n.val + 4)).total =
      (if k.bad = 1 then min 255 ((s.src (128 + 16 * n.val + 4)).total + 1)
       else (s.src (128 + 16 * n.val + 4)).total) ∧ (legsReady s n → Shown p t) ∧ CoilFrame s p x t := by
  have hou := (s.stepTaken p x).outerStep_outer (R := legsReady s (axisOfCoil p)) p x.hold
  have hran := (s.stepTaken p x).outerStep_ran (p := p) x.hold
  have he : exec (.coilStep p) s = .next
      ((badSample ((s.stepTaken p x).outerStep p x.hold) (axisOfCoil p) p).endStep p x) := by
    rw [exec_coilStep hx, hd, if_pos rfl, coilStep_eq, if_neg (by simp [ho])]
  have hcoil := s.stepTaken_coil p x
  have hreg : ∀ f, (s.stepTaken p x).rd f = s.rd f := fun f => by
    unfold State.stepTaken
    rw [State.setCoil_rd, State.advTo_rd]
  have hsrc : ∀ j, (s.stepTaken p x).src j = s.src j := fun j => by
    obtain ⟨c, g, q, m, i, k, d, e, -⟩ := s.stepTaken_frame p x
    exact State.src_of_fcs (by rw [e]) j
  have hpow : (s.stepTaken p x).powered 1 = true := by
    obtain ⟨c, g, q, m, i, k, d, e, -⟩ := s.stepTaken_frame p x
    rw [e]
    exact hp
  have hready : legsReady s (axisOfCoil p) → legsReady (s.stepTaken p x) (axisOfCoil p) := fun h => by
    obtain ⟨c, g, q, m, i, k, d, e, -⟩ := s.stepTaken_frame p x
    rw [e]
    exact h
  generalize hu : s.stepTaken p x = u at *
  have hoc : (u.outerStep p x.hold).coil p = u.coil p := by rw [State.coil, hou.coils]; rfl
  obtain ⟨hm, ht⟩ := badSample_missed (R := legsReady s (axisOfCoil p)) (u.outerStep p x.hold) p ((hou.steps.powered 1).trans hpow)
  have hst := hou.steps.trans hm.steps
  obtain ⟨hend, hshow⟩ := State.endStep_ends (R := legsReady s (axisOfCoil p)) (badSample (u.outerStep p x.hold) (axisOfCoil p) p) p x
    fun r => hst.legsReady (hready r)
  refine ⟨_, he, ?_⟩
  generalize badSample (u.outerStep p x.hold) (axisOfCoil p) p = w at *
  generalize w.endStep p x = t at *
  obtain ⟨f, hc⟩ := hend.clp
  refine ⟨?_, (State.flag_of_reg hend.stat).trans hm.miss, ?_, ?_, hshow, ?_⟩
  · have : t.coil p = w.coil p := by rw [State.coil, hend.coils]; rfl
    rw [this, hm.coil, hoc, hcoil]
  · rw [State.rd_of_reg (f := F.CLP_STAT_MISSCNT (axisOfCoil p)) hend.stat, hm.count, hou.count, hreg]
  · rw [State.src_of_fcs hend.fcs, ht, hou.src, hsrc, hoc, hcoil]
  · refine Steps.coilFrame (hu ▸ hst.trans hend.drives.steps) fun h => ?_
    rw [hc]
    exact hm.ran.trans (hran h)

end Clauses

/-- Settles O52: the step is its outer loops, its sample, its current loop and its compare values, each by its own lemma. -/
theorem coilStepsDriveTheBridges : Obligations.CoilStepsDriveTheBridges := by
  intro s p x hx
  refine ⟨fun hd => ⟨_, exec_coilStep hx, ?_⟩, fun hd ho hi => coilStep_running hx hd ho hi,
    fun hd ho hi => coilStep_identifying hx hd ho hi, fun hd ho hp => coilStep_misses hx hd ho hp⟩
  exact if_neg (by
    rw [show coilDriven s p = false from hd]
    decide)

end Sys2Proof.Machine

namespace Sys2Proof.Machine

/-! ### What the work of a tick reaches (R14, R29, R34) -/

/-- The parts of the state that only some of a tick's work changes: the plans, of these the last stop ramps, the operations,
what CLP has taken of the axes, the runs of missing setpoints, the streams, the gate stages, the sources, what was detected in
this clock, and how the ports fetch. -/
inductive Part where
  | plan | ramp | ops | clp | miss | stream | gdr | src | trips | port
deriving DecidableEq

/-- The registers of LES that show its estimate, its force and its flags (R228 to R248). -/
def lesReg (o : Nat) : Bool := 0x20000 ≤ o && o < 0x28000 && 0x118 ≤ o % 0x400 && o % 0x400 < 0x134

/-- The registers that reactions, records and LES may change in a tick's work: what a fault's reaction writes, by its own registers
alone, and those of LES. -/
def stirReg (o : Nat) : Bool :=
  reportReg o || o = Reg.FCS_SS1_DEM || (0x10000 ≤ o && o < 0x18000 && o % 0x2000 = 0x18) || lesReg o

/-- From s to t a part of a tick's work has run: registers outside R stand, parts of the state not in P too, and every part
that is not listed; of what is listed, steps counted stay, no index or edge is marked, no follower starts and no coil A step
is noted; what is detected is not ACTIVE, and of an axis or the missing setpoints of a bank. -/
structure Stirs (R : Nat → Bool) (P : List Part) (s t : State) : Prop where
  rest : t = { s with
    regs := t.regs, seqDone := t.seqDone, cntNow := t.cntNow, inClk := { s.inClk with dem := t.inClk.dem, trips := t.inClk.trips }
    portA := t.portA, portB := t.portB, ctxs := t.ctxs, streams := t.streams, sent := t.sent, ops := t.ops, plans := t.plans
    banks := t.banks, hbs := t.hbs, clps := t.clps, less := t.less, fbks := t.fbks, gdrs := t.gdrs, adcs := t.adcs
    ledger := t.ledger, cnd := t.cnd, freeCtr := t.freeCtr, pmu := { s.pmu with since := t.pmu.since }
    fcs := { s.fcs with srcs := t.fcs.srcs, wins := t.fcs.wins, recs := t.fcs.recs, recN := t.fcs.recN, ss1 := t.fcs.ss1 } }
  regs : ∀ o, R o = false → t.reg o = s.reg o
  fbk : ∀ n, (t.fbk n).steps = (s.fbk n).steps ∧ ((s.fbk n).idxSeen = false → (t.fbk n).idxSeen = false)
  follow : ∀ n, (s.plan n).follow = none → (t.plan n).follow = none
  ran : ∀ n, (s.clp n).ran = false → (t.clp n).ran = false
  edge : ∀ h, (s.hb h).edge = false → (t.hb h).edge = false
  plan : Part.plan ∉ P → t.plans = s.plans
  ramp : Part.ramp ∉ P → ∀ n, (t.plan n).stopRamp = (s.plan n).stopRamp
  ops : Part.ops ∉ P → ∀ o ∈ t.ops, ∃ x ∈ s.ops, x.op = o.op
  clp : Part.clp ∉ P → ∀ n, t.clp n = { s.clp n with fresh := (t.clp n).fresh, ran := (t.clp n).ran }
  miss : Part.miss ∉ P → ∀ b, (t.bank b).missRun = (s.bank b).missRun
  stream : Part.stream ∉ P → t.streams = s.streams
  gdr : Part.gdr ∉ P → t.gdrs = s.gdrs
  src : Part.src ∉ P → t.fcs.srcs = s.fcs.srcs
  trips : Part.trips ∉ P → ∃ l, t.inClk.trips = s.inClk.trips ++ l ∧ ∀ x ∈ l, x.active = false ∧
    (128 ≤ x.src ∨ Part.miss ∈ P ∧ ∃ b : Bank, x.src = 64 + 16 * b.val + 5)
  port : Part.port ∉ P → ∀ p, t.port p = { s.port p with held := (t.port p).held }

section Stir

variable {R Q : Nat → Bool} {P M : List Part} {s t u z : State}

theorem Stirs.refl (s : State) : Stirs R P s s := by
  refine ⟨rfl, fun _ _ => rfl, fun _ => ⟨rfl, id⟩, fun _ => id, fun _ => id, fun _ => id, fun _ => rfl, fun _ _ => rfl, fun _ o h => ⟨o, h, rfl⟩,
    fun _ _ => rfl, fun _ _ => rfl, fun _ => rfl, fun _ => rfl, fun _ => rfl, fun _ => ⟨[], by simp⟩, fun _ _ => rfl⟩

theorem Stirs.trans (h : Stirs R P s t) (k : Stirs R P t u) : Stirs R P s u where
  rest := by
    have e := k.rest
    rw [h.rest] at e
    exact e
  regs o e := (k.regs o e).trans (h.regs o e)
  fbk n := ⟨(k.fbk n).1.trans (h.fbk n).1, fun e => (k.fbk n).2 ((h.fbk n).2 e)⟩
  follow n e := k.follow n (h.follow n e)
  ran n e := k.ran n (h.ran n e)
  edge n e := k.edge n (h.edge n e)
  plan e := (k.plan e).trans (h.plan e)
  ramp e n := (k.ramp e n).trans (h.ramp e n)
  ops e o ho := by
    obtain ⟨x, hx, e1⟩ := k.ops e o ho
    obtain ⟨y, hy, e2⟩ := h.ops e x hx
    exact ⟨y, hy, e2.trans e1⟩
  clp e n := by rw [k.clp e n, h.clp e n]
  miss e b := (k.miss e b).trans (h.miss e b)
  stream e := (k.stream e).trans (h.stream e)
  gdr e := (k.gdr e).trans (h.gdr e)
  src e := (k.src e).trans (h.src e)
  trips e := by
    obtain ⟨l, e1, h1⟩ := h.trips e
    obtain ⟨m, e2, h2⟩ := k.trips e
    refine ⟨l ++ m, by rw [e2, e1, List.append_assoc], fun x hx => ?_⟩
    rcases List.mem_append.1 hx with hx | hx
    · exact h1 x hx
    · exact h2 x hx
  port e p := by rw [k.port e p, h.port e p]

theorem Stirs.after (k : Stirs R P t u) (h : Stirs R P s t) : Stirs R P s u := h.trans k

theorem Stirs.ite {c : Prop} [Decidable c] {a b : State} (h : Stirs R P z a) (k : Stirs R P z b) :
    Stirs R P z (if c then a else b) := by
  split <;> assumption

theorem Stirs.each_mem {α : Type} {l : List α} {f : State → α → State} (hf : ∀ s, ∀ a ∈ l, Stirs R P s (f s a)) :
    Stirs R P s (Machine.each l f s) := by
  induction l generalizing s with
  | nil => exact Stirs.refl s
  | cons a l ih => exact (hf s a (by simp)).trans (ih fun s b hb => hf s b (by simp [hb]))

theorem Stirs.each {α : Type} {l : List α} {f : State → α → State} (hf : ∀ s a, Stirs R P s (f s a)) :
    Stirs R P s (Machine.each l f s) := Stirs.each_mem fun s a _ => hf s a

/-- More registers and more parts may change. -/
theorem Stirs.mono (h : Stirs R P s t) (hr : ∀ o, R o = true → Q o = true) (hp : ∀ x ∈ P, x ∈ M) : Stirs Q M s t := by
  have less : ∀ o, Q o = false → R o = false := fun o e => by
    by_contra hc
    exact absurd (hr o (by simpa using hc)) (by simp [e])
  refine ⟨h.rest, fun o e => h.regs o (less o e), h.fbk, h.follow, h.ran, h.edge, fun e => h.plan fun k => e (hp _ k),
    fun e => h.ramp fun k => e (hp _ k), fun e => h.ops fun k => e (hp _ k), fun e => h.clp fun k => e (hp _ k),
    fun e => h.miss fun k => e (hp _ k), fun e => h.stream fun k => e (hp _ k), fun e => h.gdr fun k => e (hp _ k),
    fun e => h.src fun k => e (hp _ k), fun e => ?_, fun e => h.port fun k => e (hp _ k)⟩
  obtain ⟨l, e1, h1⟩ := h.trips fun k => e (hp _ k)
  exact ⟨l, e1, fun x hx => ⟨(h1 x hx).1, (h1 x hx).2.imp_right fun k => ⟨hp _ k.1, k.2⟩⟩⟩

theorem Stirs.parts (h : Stirs R P s t) (hp : ∀ x ∈ P, x ∈ M) : Stirs R M s t := h.mono (fun _ e => e) hp

/-- Steps in turn, each of which keeps what holds against the state before them all. -/
theorem Stirs.each_from {α : Type} {l : List α} {f : State → α → State} (hf : ∀ s, Stirs R P z s → ∀ a ∈ l, Stirs R P z (f s a))
    (h : Stirs R P z s) : Stirs R P z (Machine.each l f s) := by
  induction l generalizing s with
  | nil => exact h
  | cons a l ih => exact ih (fun s hs b hb => hf s hs b (by simp [hb])) (hf s h a (by simp))

/-- Operations that may have changed, where each of them has the opcode of one there was. -/
theorem Stirs.opsFrom (h : Stirs R (Part.ops :: P) s t) (k : ∀ o ∈ t.ops, ∃ x ∈ s.ops, x.op = o.op) : Stirs R P s t := by
  have le : ∀ {x}, x ≠ Part.ops → x ∉ P → x ∉ Part.ops :: P := fun h e => by simp [h, e]
  refine ⟨h.rest, h.regs, h.fbk, h.follow, h.ran, h.edge, fun e => h.plan (le nofun e), fun e => h.ramp (le nofun e), fun _ => k,
    fun e => h.clp (le nofun e), fun e => h.miss (le nofun e), fun e => h.stream (le nofun e), fun e => h.gdr (le nofun e),
    fun e => h.src (le nofun e), fun e => ?_, fun e => h.port (le nofun e)⟩
  obtain ⟨l, e1, h1⟩ := h.trips (le nofun e)
  exact ⟨l, e1, fun x hx => ⟨(h1 x hx).1, (h1 x hx).2.imp_right fun k => ⟨by simpa using k.1, k.2⟩⟩⟩

/-! The parts of the state. -/

/-- Changes of the notes of the clock, the contexts, what was sent, the estimators, the converters, the ledger, the monitor, the
records and windows, the free values drawn and the dwell. -/
theorem Stirs.note {sd : List (Nat × Word)} {cn : List (Nat × Nat × Nat)} {dm : Nat} {cx : Vector CtxS 64} {se : List Out}
    {le : Vector LesS 32} {ad : Vector AdcS 4} {lg : LedgerS} {cd : CndS} {fr : Nat} {si : Option (Nat × Nat)} {w : List Win}
    {rc : List (List Word)} {rn : Nat} {sx : Vector (Option Ss1) 32} :
    Stirs R P s { s with
      seqDone := sd, cntNow := cn, inClk := { s.inClk with dem := dm }, ctxs := cx, sent := se, less := le, adcs := ad
      ledger := lg, cnd := cd, freeCtr := fr, pmu := { s.pmu with since := si }
      fcs := { s.fcs with wins := w, recs := rc, recN := rn, ss1 := sx } } :=
  ⟨rfl, fun _ _ => rfl, fun _ => ⟨rfl, id⟩, fun _ => id, fun _ => id, fun _ => id, fun _ => rfl, fun _ _ => rfl, fun _ o h => ⟨o, h, rfl⟩,
    fun _ _ => rfl, fun _ _ => rfl, fun _ => rfl, fun _ => rfl, fun _ => rfl, fun _ => ⟨[], by simp⟩, fun _ p => by cases p <;> rfl⟩

theorem State.setReg_stirs (s : State) {o : Nat} (w : Word) (ho : R o = true) : Stirs R P s (s.setReg o w) := by
  refine ⟨rfl, fun o' e => State.reg_setReg_ne s w ?_, fun _ => ⟨rfl, id⟩, fun _ => id, fun _ => id, fun _ => id, fun _ => rfl, fun _ _ => rfl, fun _ o h => ⟨o, h, rfl⟩,
    fun _ _ => rfl, fun _ _ => rfl, fun _ => rfl, fun _ => rfl, fun _ => rfl, fun _ => ⟨[], by simp⟩, fun _ p => by cases p <;> rfl⟩
  rintro rfl
  simp [ho] at e

theorem State.wr_stirs (s : State) {f : Fld} (v : Nat) (ho : R f.off = true) : Stirs R P s (s.wr f v) := s.setReg_stirs _ ho
theorem State.wrB_stirs (s : State) {f : Fld} (v : Bool) (ho : R f.off = true) : Stirs R P s (s.wrB f v) := s.setReg_stirs _ ho
theorem State.wrS_stirs (s : State) {f : Fld} (v : Int) (ho : R f.off = true) : Stirs R P s (s.wrS f v) := s.setReg_stirs _ ho
theorem State.wr64_stirs (s : State) {o : Nat} (v : Nat) (h1 : R o = true) (h2 : R (o + 4) = true) :
    Stirs R P s (s.wr64 o v) := (s.setReg_stirs _ h1).trans (State.setReg_stirs _ _ h2)

theorem State.setPlan_stirs (s : State) (n : Axis) (x : AxisPlan) (hp : Part.plan ∈ P)
    (hr : Part.ramp ∈ P ∨ x.stopRamp = (s.plan n).stopRamp) (hf : (s.plan n).follow = none → x.follow = none) :
    Stirs R P s (s.setPlan n x) := by
  refine ⟨rfl, fun _ _ => rfl, fun _ => ⟨rfl, id⟩, fun m e => ?_, fun _ => id, fun _ => id, fun e => absurd hp e, fun e m => ?_, fun _ o h => ⟨o, h, rfl⟩,
    fun _ _ => rfl, fun _ _ => rfl, fun _ => rfl, fun _ => rfl, fun _ => rfl, fun _ => ⟨[], by simp⟩, fun _ p => by cases p <;> rfl⟩
  · by_cases hm : m = n
    · subst hm; rw [State.plan_setPlan_self]; exact hf e
    · rwa [State.plan_setPlan_ne _ _ hm]
  · by_cases hm : m = n
    · subst hm; rw [State.plan_setPlan_self]; exact hr.resolve_left e
    · rw [State.plan_setPlan_ne _ _ hm]

theorem State.setClp_stirs (s : State) (n : Axis) (x : ClpS) (hc : Part.clp ∈ P ∨ x = { s.clp n with fresh := x.fresh, ran := x.ran })
    (hr : (s.clp n).ran = false → x.ran = false) : Stirs R P s (s.setClp n x) := by
  refine ⟨rfl, fun _ _ => rfl, fun _ => ⟨rfl, id⟩, fun _ => id, fun m e => ?_, fun _ => id, fun _ => rfl, fun _ _ => rfl, fun _ o h => ⟨o, h, rfl⟩,
    fun e m => ?_, fun _ _ => rfl, fun _ => rfl, fun _ => rfl, fun _ => rfl, fun _ => ⟨[], by simp⟩, fun _ p => by cases p <;> rfl⟩
  · by_cases hm : m = n
    · subst hm; rw [State.clp_setClp_self]; exact hr e
    · rwa [State.clp_setClp_ne _ _ hm]
  · by_cases hm : m = n
    · subst hm; rw [State.clp_setClp_self]; exact hc.resolve_left e
    · rw [State.clp_setClp_ne _ _ hm]

theorem State.setHb_stirs (s : State) (h : HalfBridge) (x : HbS) (hx : (s.hb h).edge = false → x.edge = false) :
    Stirs R P s (s.setHb h x) := by
  refine ⟨rfl, fun _ _ => rfl, fun _ => ⟨rfl, id⟩, fun _ => id, fun _ => id, fun m e => ?_, fun _ => rfl, fun _ _ => rfl, fun _ o h => ⟨o, h, rfl⟩,
    fun _ _ => rfl, fun _ _ => rfl, fun _ => rfl, fun _ => rfl, fun _ => rfl, fun _ => ⟨[], by simp⟩, fun _ p => by cases p <;> rfl⟩
  by_cases hm : m = h
  · subst hm; rw [State.hb_setHb_self]; exact hx e
  · rwa [State.hb_setHb_ne _ _ hm]

theorem State.setFbk_stirs (s : State) (n : Axis) (x : FbkS) (h1 : x.steps = (s.fbk n).steps)
    (h2 : (s.fbk n).idxSeen = false → x.idxSeen = false) : Stirs R P s (s.setFbk n x) := by
  refine ⟨rfl, fun _ _ => rfl, fun m => ?_, fun _ => id, fun _ => id, fun _ => id, fun _ => rfl, fun _ _ => rfl, fun _ o h => ⟨o, h, rfl⟩,
    fun _ _ => rfl, fun _ _ => rfl, fun _ => rfl, fun _ => rfl, fun _ => rfl, fun _ => ⟨[], by simp⟩, fun _ p => by cases p <;> rfl⟩
  by_cases hm : m = n
  · subst hm; rw [State.fbk_setFbk_self]; exact ⟨h1, h2⟩
  · rw [State.fbk_setFbk_ne _ _ hm]; exact ⟨rfl, id⟩

theorem State.setBank_stirs (s : State) (b : Bank) (x : BankS) (h : Part.miss ∈ P ∨ x.missRun = (s.bank b).missRun) :
    Stirs R P s (s.setBank b x) := by
  refine ⟨rfl, fun _ _ => rfl, fun _ => ⟨rfl, id⟩, fun _ => id, fun _ => id, fun _ => id, fun _ => rfl, fun _ _ => rfl, fun _ o h => ⟨o, h, rfl⟩,
    fun _ _ => rfl, fun e c => ?_, fun _ => rfl, fun _ => rfl, fun _ => rfl, fun _ => ⟨[], by simp⟩, fun _ p => by cases p <;> rfl⟩
  by_cases hm : c = b
  · subst hm; rw [State.bank_setBank_self]; exact h.resolve_left e
  · rw [State.bank_setBank_ne _ _ hm]

theorem State.setStream_stirs (s : State) (i : Fin 8) (x : StreamS) (h : Part.stream ∈ P) : Stirs R P s (s.setStream i x) :=
  ⟨rfl, fun _ _ => rfl, fun _ => ⟨rfl, id⟩, fun _ => id, fun _ => id, fun _ => id, fun _ => rfl, fun _ _ => rfl, fun _ o h => ⟨o, h, rfl⟩,
    fun _ _ => rfl, fun _ _ => rfl, fun e => absurd h e, fun _ => rfl, fun _ => rfl, fun _ => ⟨[], by simp⟩, fun _ p => by cases p <;> rfl⟩

theorem State.setGdr_stirs (s : State) (b : Bank) (x : GdrS) (h : Part.gdr ∈ P) : Stirs R P s (s.setGdr b x) :=
  ⟨rfl, fun _ _ => rfl, fun _ => ⟨rfl, id⟩, fun _ => id, fun _ => id, fun _ => id, fun _ => rfl, fun _ _ => rfl, fun _ o h => ⟨o, h, rfl⟩,
    fun _ _ => rfl, fun _ _ => rfl, fun _ => rfl, fun e => absurd h e, fun _ => rfl, fun _ => ⟨[], by simp⟩, fun _ p => by cases p <;> rfl⟩

/-- A change of the sources. -/
theorem Stirs.srcs (h : Part.src ∈ P) {x : List SrcS} : Stirs R P s { s with fcs := { s.fcs with srcs := x } } :=
  ⟨rfl, fun _ _ => rfl, fun _ => ⟨rfl, id⟩, fun _ => id, fun _ => id, fun _ => id, fun _ => rfl, fun _ _ => rfl, fun _ o h => ⟨o, h, rfl⟩,
    fun _ _ => rfl, fun _ _ => rfl, fun _ => rfl, fun _ => rfl, fun e => absurd h e, fun _ => ⟨[], by simp⟩, fun _ p => by cases p <;> rfl⟩

theorem State.setSrc_stirs (s : State) (x : SrcS) (h : Part.src ∈ P) : Stirs R P s (s.setSrc x) := Stirs.srcs h

theorem State.inactive_stirs (s : State) (k : Nat) (h : Part.src ∈ P) : Stirs R P s (s.inactive k) :=
  Stirs.ite (s.setSrc_stirs _ h) (Stirs.refl s)

/-- What is detected in this clock is forgotten. -/
theorem Stirs.clear (h : Part.trips ∈ P) {l : List TripReq} : Stirs R P s { s with inClk := { s.inClk with trips := l } } :=
  ⟨rfl, fun _ _ => rfl, fun _ => ⟨rfl, id⟩, fun _ => id, fun _ => id, fun _ => id, fun _ => rfl, fun _ _ => rfl, fun _ o h => ⟨o, h, rfl⟩,
    fun _ _ => rfl, fun _ _ => rfl, fun _ => rfl, fun _ => rfl, fun _ => rfl, fun e => absurd h e, fun _ p => by cases p <;> rfl⟩

theorem State.detect_stirs (s : State) (k : Nat) (h : 128 ≤ k ∨ Part.miss ∈ P ∧ ∃ b : Bank, k = 64 + 16 * b.val + 5) :
    Stirs R P s (s.detect k) :=
  ⟨rfl, fun _ _ => rfl, fun _ => ⟨rfl, id⟩, fun _ => id, fun _ => id, fun _ => id, fun _ => rfl, fun _ _ => rfl, fun _ o h => ⟨o, h, rfl⟩,
    fun _ _ => rfl, fun _ _ => rfl, fun _ => rfl, fun _ => rfl, fun _ => rfl,
    fun _ => ⟨[⟨k, false, none, false⟩], rfl, fun x hx => by rw [List.mem_singleton.1 hx]; exact ⟨rfl, h⟩⟩, fun _ p => by cases p <;> rfl⟩

/-- Operations that end or are updated. -/
theorem Stirs.opsTo {x : List Op} (h : Part.ops ∈ P ∨ ∀ o ∈ x, ∃ y ∈ s.ops, y.op = o.op) : Stirs R P s { s with ops := x } :=
  ⟨rfl, fun _ _ => rfl, fun _ => ⟨rfl, id⟩, fun _ => id, fun _ => id, fun _ => id, fun _ => rfl, fun _ _ => rfl, fun e => h.resolve_left e,
    fun _ _ => rfl, fun _ _ => rfl, fun _ => rfl, fun _ => rfl, fun _ => rfl, fun _ => ⟨[], by simp⟩, fun _ p => by cases p <;> rfl⟩

/-- Galleys that lose segments. -/
theorem Stirs.galleys {x : Vector AxisPlan 32} (hp : Part.plan ∈ P)
    (h : ∀ n : Axis, (x[n]).stopRamp = (s.plan n).stopRamp ∧ (x[n]).follow = (s.plan n).follow) : Stirs R P s { s with plans := x } :=
  ⟨rfl, fun _ _ => rfl, fun _ => ⟨rfl, id⟩, fun n e => (h n).2.trans e, fun _ => id, fun _ => id, fun e => absurd hp e, fun _ n => (h n).1,
    fun _ o h => ⟨o, h, rfl⟩, fun _ _ => rfl, fun _ _ => rfl, fun _ => rfl, fun _ => rfl, fun _ => rfl, fun _ => ⟨[], by simp⟩, fun _ p => by cases p <;> rfl⟩

theorem State.setPort_stirs (s : State) (p : Port) (x : PortS) (h : Part.port ∈ P) : Stirs R P s (s.setPort p x) := by
  cases p <;> exact ⟨rfl, fun _ _ => rfl, fun _ => ⟨rfl, id⟩, fun _ => id, fun _ => id, fun _ => id, fun _ => rfl, fun _ _ => rfl, fun _ o h => ⟨o, h, rfl⟩,
    fun _ _ => rfl, fun _ _ => rfl, fun _ => rfl, fun _ => rfl, fun _ => rfl, fun _ => ⟨[], by simp⟩, fun e => absurd h e⟩

/-- Writing records stirs the registers it reaches alone. -/
theorem Reports.stirs (h : Reports Q s t) (hr : ∀ o, Q o = true → R o = true) : Stirs R P s t := by
  have h := h.mono hr
  have hc : t.clps = s.clps := by rw [h.rest]
  have hb : t.banks = s.banks := by rw [h.rest]
  have hp := h.plans
  refine ⟨by have e := h.rest; exact e ▸ rfl, h.regs, fun n => ?_, fun n => ?_, fun n => ?_, fun n => ?_, fun _ => hp, fun _ n => ?_, fun _ o => ?_,
    fun _ n => ?_, fun _ n => ?_, fun _ => by rw [h.rest], fun _ => by rw [h.rest], fun _ => by rw [h.rest],
    fun _ => ⟨[], by rw [h.rest]; simp⟩, fun _ p => ?_⟩
  · rw [State.fbk, show t.fbks = s.fbks by rw [h.rest]]; exact ⟨rfl, id⟩
  · rw [show t.plan n = s.plan n by rw [State.plan, hp]; rfl]; exact id
  · rw [show t.clp n = s.clp n by rw [State.clp, hc]; rfl]; exact id
  · rw [show t.hb n = s.hb n by rw [State.hb, h.hbs]; rfl]; exact id
  · rw [State.plan, hp]; rfl
  · rw [h.ops]; exact fun ho => ⟨o, ho, rfl⟩
  · rw [State.clp, hc]; rfl
  · rw [State.bank, hb]; rfl
  · cases p
    · exact h.portA
    · exact h.portB

end Stir

end Sys2Proof.Machine

namespace Sys2Proof.Machine

section Reacting

variable {P : List Part} {s t z : State}

/-! ### Reactions in a tick's work -/

theorem stirReg_of_reportReg (o : Nat) (h : reportReg o = true) : stirReg o = true := by simp [stirReg, h]
theorem stirReg_of_ringReg (o : Nat) (h : ringReg o = true) : stirReg o = true := stirReg_of_reportReg o (reportReg_of_ringReg o h)
theorem stirReg_of_eventReg (o : Nat) (h : eventReg o = true) : stirReg o = true := stirReg_of_ringReg o (ringReg_of_eventReg o h)

theorem stirReg_curt : ∀ b : Bank, stirReg (Reg.MPL_CURT_STAT b) = true := by decide +kernel

theorem State.complete_stirs (s : State) (k : Ctx) (ws : List Word) : Stirs stirReg P s (s.complete k ws) :=
  (State.complete_reports k ws).stirs stirReg_of_ringReg

theorem State.setOp_stirs (s : State) (o : Op) (h : Part.ops ∈ P ∨ ∃ x ∈ s.ops, x.op = o.op) : Stirs stirReg P s (s.setOp o) := by
  refine Stirs.opsTo (h.imp_right fun ⟨y, hy, e⟩ x hx => ?_)
  obtain ⟨w, hw, rfl⟩ := List.mem_map.1 hx
  split
  · exact ⟨y, hy, e⟩
  · exact ⟨w, hw, rfl⟩

theorem Stirs.setOp (h : Stirs stirReg P z s) {o : Op} (ho : ∃ x ∈ z.ops, x.op = o.op) : Stirs stirReg P z (s.setOp o) := by
  by_cases hP : Part.ops ∈ P
  · exact h.trans (s.setOp_stirs o (.inl hP))
  refine Stirs.opsFrom ((h.parts fun _ e => by simp [e]).trans (s.setOp_stirs o (.inl (by simp)))) fun x hx => ?_
  obtain ⟨w, hw, rfl⟩ := List.mem_map.1 hx
  split
  · exact ho
  · exact h.ops hP w hw

theorem State.setLes_stirs (s : State) (n : Axis) (x : LesS) : Stirs stirReg P s (s.setLes n x) := Stirs.note
theorem State.setSs1_stirs (s : State) (n : Axis) (x : Option Ss1) : Stirs stirReg P s (s.setSs1 n x) := Stirs.note
theorem State.clearObs_stirs (s : State) (n : Axis) : Stirs stirReg P s (s.clearObs n) := Stirs.note
theorem State.draw_stirs (s : State) : Stirs stirReg P s s.draw := Stirs.note

theorem State.sqc_stirs (s : State) {R : Nat → Bool} {f : Fld} (h : R f.off = true) : Stirs R P s (s.sqc f) :=
  (State.sqc_reports (R := R) f h).stirs fun _ e => e

theorem State.cnt_stirs (s : State) {R : Nat → Bool} {f : Fld} (n : Nat) (h : R f.off = true) : Stirs R P s (s.cnt f n) :=
  (State.cnt_reports (R := R) f n h).stirs fun _ e => e

theorem State.softStart_stirs (s : State) (h : HalfBridge) : Stirs stirReg P s (s.softStart h) :=
  Stirs.ite (s.setHb_stirs h _ id) (Stirs.refl s)

theorem State.softSto_stirs (s : State) (h : HalfBridge) : Stirs stirReg P s (s.softSto h) := by
  unfold State.softSto
  split
  · exact s.setHb_stirs h _ id
  · exact s.softStart_stirs h

theorem State.reactOff_stirs (s : State) (h : HalfBridge) : Stirs stirReg P s (s.reactOff h) :=
  (s.softStart_stirs h).trans (State.setHb_stirs _ _ _ id)

theorem State.curtSettle_stirs (s : State) (b : Bank) : Stirs stirReg P s (s.curtSettle b) :=
  Stirs.ite (s.wr_stirs _ (stirReg_curt b)) (Stirs.refl s)

theorem State.uncurtail_stirs (s : State) (n : Axis) : Stirs stirReg P s (s.uncurtail n) :=
  (State.curtSettle_stirs _ _).after (s.setBank_stirs _ _ (.inr rfl))

theorem State.openWindow_stirs (s : State) (k : Nat) (axes : List Axis) : Stirs stirReg P s (s.openWindow k axes) :=
  Stirs.ite (Stirs.refl s) Stirs.note

theorem State.markSeen_stirs (s : State) (w : Win) (k : Nat) : Stirs stirReg P s (s.markSeen w k) := Stirs.note

theorem State.faultRecord_stirs (s : State) (k : Nat) (ob : Option Nat) (r : FaultRec) :
    Stirs stirReg P s (s.faultRecord k ob r) := (State.faultRecord_reports k ob r).stirs stirReg_of_reportReg

theorem State.fcsStat_stirs (s : State) : Stirs stirReg P s s.fcsStat := State.fcsStat_reports.stirs stirReg_of_reportReg

theorem demandWindow_stirs (a s : State) (k : Nat) : Stirs stirReg P s (demandWindow a s k) :=
  Stirs.ite (Stirs.refl s) (Stirs.ite Stirs.note (s.openWindow_stirs _ _))

theorem State.arranged_stirs {R : Nat → Bool} (a s : State) : Stirs R P s (State.arranged a s) :=
  (State.arranged_reports (R := R) a).stirs fun _ e => e

variable (hp : Part.plan ∈ P)

include hp

theorem State.finish_stirs (s : State) (tag : Nat) (st : Status) (t1 t2 detail fl : Nat) :
    Stirs stirReg P s (s.finish tag st t1 t2 detail fl) := by
  unfold State.finish
  split
  · exact Stirs.refl s
  · rename_i o _
    dsimp only
    have h1 : Stirs stirReg P s (s.countEnd o st) := by
      rw [State.countEnd_rest]
      exact Stirs.note
    generalize s.countEnd o st = u at *
    refine h1.trans (Stirs.trans (t := { u with ops := u.ops.filter (fun x => x.tag ≠ tag) }) ?_ ((State.complete_stirs _ _ _).after ?_))
    · exact Stirs.opsTo (.inr fun x hx => ⟨x, (List.mem_filter.1 hx).1, rfl⟩)
    · exact Stirs.galleys hp fun n => by simp [State.plan]

theorem State.deenergise_stirs (s : State) (n : Axis) : Stirs stirReg P s (s.deenergise n) := by
  unfold State.deenergise
  extract_lets p x a _ b _ c dem _ _ d
  have ha : Stirs stirReg P s a := s.setPlan_stirs n _ hp (.inr rfl) fun _ => rfl
  have hc : Stirs stirReg P a c := (a.setLes_stirs n _).trans (b.setClp_stirs n _ (.inr rfl) id)
  have hd : Stirs stirReg P c d :=
    Stirs.ite (Stirs.note.after (c.wr_stirs (f := F.FCS_SS1_DEM_AXES) (dem - 2 ^ n.val) (by decide +kernel))) (Stirs.refl c)
  exact ((ha.trans hc).trans hd).trans (d.setSs1_stirs n none)

theorem State.unbook_stirs (s : State) (n : Axis) : Stirs stirReg P s (s.unbook n) := s.setPlan_stirs n _ hp (.inr rfl) id

theorem State.stopStood_stirs (s : State) (n : Axis) (t2 : Nat) : Stirs stirReg P s (s.stopStood n t2) := by
  refine Stirs.each_from (fun u hu o ho => ?_) (Stirs.refl s)
  have hs := hu.setOp (o := { o with left := o.left.filter (· ≠ n) }) ⟨o, (List.mem_filter.1 ho).1, rfl⟩
  exact Stirs.ite ((State.finish_stirs hp _ _ _ _ _ _ _).after hs) hs

theorem State.turnOff_stirs (s : State) (n : Axis) (c : Cause) : Stirs stirReg P s (s.turnOff n c) := by
  have fin : Stirs stirReg P s (match inProg s n with
      | some g => s.finish g.tag (causeOwn c).1 g.t1 s.now (causeOwn c).2 0
      | none => s) := by
    split
    · exact State.finish_stirs hp _ _ _ _ _ _ _
    · exact Stirs.refl s
  have off : ∀ s : State, Stirs stirReg P s ((((s.deenergise n).unbook n).stopStood n ((s.deenergise n).unbook n).now).uncurtail n) :=
    fun s => (((State.deenergise_stirs hp s n).trans (State.unbook_stirs hp _ n)).trans (State.stopStood_stirs hp _ n _)).trans
      (State.uncurtail_stirs _ n)
  unfold State.turnOff
  refine (fin.trans (Stirs.each fun _ _ => ?_)).trans ((off _).after (Stirs.each fun s h => ?_))
  · exact State.finish_stirs hp _ _ _ _ _ _ _
  · exact Stirs.ite (s.softSto_stirs h) (s.reactOff_stirs h)

theorem State.reach_stirs (s : State) (n : Axis) (c : Cause) (g : Bool) (due : Nat) : Stirs stirReg P s (s.reach n c g due) := by
  have set : ∀ l, Stirs stirReg P s (s.setPlan n { s.plan n with leave := l }) := fun l => s.setPlan_stirs n _ hp (.inr rfl) id
  unfold State.reach
  extract_lets p fresh
  split
  · exact (set _).trans (State.clearObs_stirs _ n)
  · exact Stirs.ite (Stirs.ite (set _) (Stirs.ite (set _) (Stirs.refl s))) (set _)

theorem State.markSs1_stirs (s : State) (n : Axis) (c : Cause) : Stirs stirReg P s (s.markSs1 n c) :=
  (State.reach_stirs hp _ _ _ _ _).after (Stirs.ite (s.setSs1_stirs n _) (Stirs.refl s))

theorem State.launch_stirs (s : State) (k scope : Nat) (ob : Option Nat) : Stirs stirReg P s (s.launch k scope ob) :=
  Stirs.ite (Stirs.refl s) (Stirs.ite (Stirs.each fun s n => State.markSs1_stirs hp s n _)
    (Stirs.each fun s n => State.turnOff_stirs hp s n _))

variable (hs : Part.src ∈ P)

include hs

theorem tripPrimary_stirs (s : State) (x : SrcS) (ob : Option Nat) (loc : Bool) : Stirs stirReg P s (tripPrimary s x ob loc) := by
  unfold tripPrimary
  extract_lets k tag count st scope u v w
  refine Stirs.ite ?_ (Stirs.ite ((State.faultRecord_stirs w _ _ _).after (s.setSrc_stirs _ hs)) (s.setSrc_stirs _ hs))
  have hu : Stirs stirReg P s u := s.setSrc_stirs _ hs
  exact ((hu.trans (State.openWindow_stirs _ _ _)).trans (State.launch_stirs hp _ _ _ _)).trans (State.faultRecord_stirs _ _ _ _)

theorem tripSecondary_stirs (s : State) (x : SrcS) (w : Win) (ob : Option Nat) (loc : Bool) :
    Stirs stirReg P s (tripSecondary s x w ob loc) := by
  unfold tripSecondary
  extract_lets k tag scope axes u v w'
  have hw : Stirs stirReg P s w' := s.setSrc_stirs _ hs
  refine Stirs.ite ?_ (Stirs.ite hw ((hw.trans (State.markSeen_stirs _ _ _)).trans (State.faultRecord_stirs _ _ _ _)))
  have hu : Stirs stirReg P s u := s.setSrc_stirs _ hs
  exact (((hu.trans (State.markSeen_stirs _ _ _)).trans (State.openWindow_stirs _ _ _)).trans
    (State.launch_stirs hp _ _ _ _)).trans (State.faultRecord_stirs _ _ _ _)

omit hp in
theorem tripLatched_stirs (s : State) (x : SrcS) (ob : Option Nat) (loc : Bool) : Stirs stirReg P s (tripLatched s x ob loc) := by
  unfold tripLatched
  extract_lets since
  exact Stirs.ite ((State.faultRecord_stirs _ _ _ _).after (s.setSrc_stirs _ hs)) (s.setSrc_stirs _ hs)

theorem State.trip_stirs (s : State) (k : Nat) (act : Bool) (ob : Option Nat) (loc : Bool) :
    Stirs stirReg P s (s.trip k act ob loc) := by
  unfold State.trip
  extract_lets x x' u
  have hu : Stirs stirReg P s u := by
    refine Stirs.ite (tripLatched_stirs hs _ _ _ _) ?_
    split
    · exact tripSecondary_stirs hp hs _ _ _ _ _
    · exact tripPrimary_stirs hp hs _ _ _ _
  exact Stirs.ite (Stirs.refl s) (((hu.trans (demandWindow_stirs _ _ _)).trans (State.fcsStat_stirs _)).trans
    (State.arranged_stirs s _))

theorem State.runTrips_stirs (s : State) (ht : Part.trips ∈ P) : Stirs stirReg P s s.runTrips :=
  (Stirs.each fun s (x : TripReq) => State.trip_stirs hp hs s x.src x.active x.object x.loc).after (Stirs.clear ht)

end Reacting

end Sys2Proof.Machine

namespace Sys2Proof.Machine

section Leaves

variable {P : List Part} {s t z : State} (hp : Part.plan ∈ P)

include hp

/-! ### Axes that leave (R160, R174) -/

theorem State.unbookOthers_stirs (s : State) (n : Axis) (tag : Nat) : Stirs stirReg P s (s.unbookOthers n tag) := by
  unfold State.unbookOthers
  split
  · exact Stirs.refl s
  · exact Stirs.ite (Stirs.each fun s m => s.setPlan_stirs m _ hp (.inr rfl) id) (Stirs.refl s)

theorem State.cancelQueued_stirs (s : State) (n : Axis) (c : Cause) : Stirs stirReg P s (s.cancelQueued n c) :=
  Stirs.each fun s g => (State.unbookOthers_stirs hp s n g.tag).trans (State.finish_stirs hp _ _ _ _ _ _ _)

theorem State.endProg_stirs (s : State) (n : Axis) (c : Cause) (t2 fl : Nat) : Stirs stirReg P s (s.endProg n c t2 fl) := by
  unfold State.endProg
  split
  · exact Stirs.refl s
  · exact State.finish_stirs hp _ _ _ _ _ _ _

theorem State.standstill_stirs (s : State) (n : Axis) (t2 : Nat) : Stirs stirReg P s (s.standstill n t2) := by
  unfold State.standstill
  split
  · exact Stirs.refl s
  · rename_i l _
    extract_lets x u p v
    have hu : Stirs stirReg P s u := State.endProg_stirs hp s n _ _ _
    have hv : Stirs stirReg P u v := u.setPlan_stirs n _ hp (.inr rfl) id
    exact ((hu.trans hv).trans (State.stopStood_stirs hp _ n _)).trans (State.uncurtail_stirs _ n)

theorem State.beginLeave_stirs (s : State) (n : Axis) : Stirs stirReg P s (s.beginLeave n) := by
  unfold State.beginLeave
  split
  · exact Stirs.refl s
  · rename_i l _
    refine Stirs.ite (Stirs.refl s) ((State.cancelQueued_stirs hp s n l.cause).trans ?_)
    generalize s.cancelQueued n l.cause = u
    refine Stirs.ite ?_ ?_
    · exact (((State.endProg_stirs hp u n _ _ _).trans (State.deenergise_stirs hp _ n)).trans (State.unbook_stirs hp _ n)).trans
        ((State.stopStood_stirs hp _ n _).trans (State.uncurtail_stirs _ n))
    · extract_lets r m isRev rev opening p v w
      have hv : Stirs stirReg P u v := u.setPlan_stirs n _ hp (.inr rfl) fun _ => rfl
      have hw : Stirs stirReg P u w := hv.trans (v.clearObs_stirs n)
      exact Stirs.ite (hw.trans (State.standstill_stirs hp w n _)) hw

theorem beginDue_stirs (s : State) (n : Axis) : Stirs stirReg P s (beginDue s n) := by
  unfold beginDue
  split
  · refine Stirs.ite (Stirs.trans ?_ (State.beginLeave_stirs hp _ n)) (Stirs.refl s)
    split
    · exact Stirs.ite (s.setSs1_stirs n _) (Stirs.refl s)
    · exact Stirs.refl s
  · exact Stirs.refl s

end Leaves

end Sys2Proof.Machine

namespace Sys2Proof.Machine

section Estimates

variable {P : List Part} {s t z : State}

/-! ### What LES hands over (R227 to R248) -/

theorem stirReg_les : ∀ n : Axis, stirReg (Reg.LES_STAT n) = true ∧ stirReg (Reg.LES_FORCE n) = true ∧
    stirReg (Reg.LES_LOAD n) = true ∧ stirReg (Reg.LES_DIFF n) = true ∧ stirReg (Reg.LES_EST_LO n) = true ∧
    stirReg (Reg.LES_EST_LO n + 4) = true := by
  decide +kernel

theorem stirReg_lesStat (n : Axis) : stirReg (Reg.LES_STAT n) = true := (stirReg_les n).1

theorem State.detectAxis_stirs (s : State) (n : Axis) (k : Nat) : Stirs stirReg P s (s.detect (128 + 16 * n.val + k)) :=
  s.detect_stirs _ (.inl (by omega))

theorem State.axisEvent_stirs (s : State) (n : Axis) (kind d1 d2 : Nat) (tag : Option Nat) (fault : Bool) :
    Stirs stirReg P s (s.axisEvent n kind d1 d2 tag fault) :=
  (State.axisEvent_reports s n kind d1 d2 tag fault).stirs stirReg_of_eventReg

theorem trackValid_stirs (s : State) (n : Axis) : Stirs stirReg P s (trackValid s n) := by
  unfold trackValid
  extract_lets l h wn eps w step off lose theta u
  have hu : Stirs stirReg P s u := s.setLes_stirs n _
  exact Stirs.ite ((hu.trans (u.wr_stirs (f := F.LES_STAT_VALID n) 0 (stirReg_lesStat n))).trans
    (State.wr_stirs _ (f := F.LES_STAT_LOWSPD n) 1 (stirReg_lesStat n))) hu

theorem trackBlind_stirs (s : State) (n : Axis) : Stirs stirReg P s (trackBlind s n) := by
  unfold trackBlind
  extract_lets l vRef move theta fast eps phi acq blind
  refine Stirs.ite (Stirs.trans ?_ (State.wr_stirs _ (f := F.LES_STAT_LOWSPD n) 0 (stirReg_lesStat n))) (s.setLes_stirs n _)
  exact Stirs.after (State.wr_stirs _ (f := F.LES_STAT_VALID n) 1 (stirReg_lesStat n)) (s.setLes_stirs n _)

theorem lesTrack_stirs (s : State) (n : Axis) : Stirs stirReg P s (lesTrack s n) :=
  Stirs.ite (trackValid_stirs s n) (trackBlind_stirs s n)

theorem lesShow_stirs (s : State) (n : Axis) : Stirs stirReg P s (lesShow s n) :=
  have ⟨_, _, _, _, h1, h2⟩ := stirReg_les n
  s.wr64_stirs _ h1 h2

theorem lesForce_stirs (s : State) (n : Axis) : Stirs stirReg P s (lesForce s n) := by
  unfold lesForce
  extract_lets l m iq win sum mean a vRef fr fx u
  obtain ⟨-, hf, -⟩ := stirReg_les n
  have hu : Stirs stirReg P s u := s.setLes_stirs n _
  exact hu.trans (u.wrS_stirs (f := F.LES_FORCE_FX n) _ hf)

theorem lesLoad_stirs (s : State) (n : Axis) : Stirs stirReg P s (lesLoad s n) := by
  unfold lesLoad
  extract_lets i imax load u cur rotor delta
  have hu : Stirs stirReg P s u := Stirs.ite s.draw_stirs (Stirs.refl s)
  obtain ⟨-, -, hl, -⟩ := stirReg_les n
  exact (hu.trans (u.wr_stirs (f := F.LES_LOAD_DELTA n) _ hl)).trans (State.wr_stirs _ (f := F.LES_LOAD_LOAD n) _ hl)

theorem lesValidity_stirs (s : State) (n : Axis) : Stirs stirReg P s (lesValidity s n) := by
  unfold lesValidity
  extract_lets ok u l
  have hu : Stirs stirReg P s u := s.wrB_stirs (f := F.LES_STAT_FVALID n) _ (stirReg_lesStat n)
  exact Stirs.ite ((hu.trans (u.setLes_stirs n _)).trans (State.detectAxis_stirs _ n _)) (Stirs.ite (hu.trans (u.setLes_stirs n _)) hu)

theorem lesStall_stirs (s : State) (n : Axis) (obs : Bool) : Stirs stirReg P s (lesStall s n obs) := by
  unfold lesStall
  extract_lets l m out ek ak u k met _ v x w
  have hu : Stirs stirReg P s u := s.setLes_stirs n _
  have hx : Stirs stirReg P u x := (u.setLes_stirs n _).trans (v.sqc_stirs (f := F.LES_STAT_STALL n) (stirReg_lesStat n))
  exact Stirs.ite (((hu.trans hx).trans (State.axisEvent_stirs _ n _ _ _ _ _)).trans (State.detectAxis_stirs _ n _)) hu

theorem lesNoSource_stirs (s : State) (n : Axis) : Stirs stirReg P s (lesNoSource s n) :=
  Stirs.ite ((s.setLes_stirs n _).trans (State.detectAxis_stirs _ n _)) (Stirs.refl s)

/-- Readings change the condition monitor alone. -/
theorem State.reading_stirs {R : Nat → Bool} (s : State) (q o : Nat) (v : Int) (l : Bool) : Stirs R P s (s.reading q o v l) := by
  obtain ⟨c, e⟩ := s.reading_frame q o v l
  rw [e]
  exact Stirs.note

theorem State.readFriction_stirs (s : State) (n : Axis) : Stirs stirReg P s (s.readFriction n) := by
  unfold State.readFriction
  extract_lets cur rest _ drop
  have hd : Stirs stirReg P s drop := Stirs.note
  split
  · extract_lets t0 len
    refine Stirs.ite (Stirs.ite hd (Stirs.refl s)) (Stirs.ite (Stirs.refl s) (Stirs.ite Stirs.note ?_))
    clear_value cur
    obtain _ | ⟨_, k, q⟩ := cur
    · exact Stirs.refl s
    · exact Stirs.after (State.reading_stirs _ _ _ _ _) Stirs.note
  · exact Stirs.ite hd (Stirs.refl s)

variable (hp : Part.plan ∈ P)

include hp

theorem State.switchToLes_stirs (s : State) (n : Axis) (x : Rat) : Stirs stirReg P s (s.switchToLes n x) := by
  unfold State.switchToLes
  extract_lets old _ u _ v w
  refine Stirs.ite (Stirs.refl s) ?_
  have hu : Stirs stirReg P s u := s.setPlan_stirs n _ hp (.inr rfl) id
  have hv : Stirs stirReg P u v := u.setFbk_stirs n _ rfl id
  exact ((hu.trans hv).trans (v.setLes_stirs n _)).trans (State.axisEvent_stirs _ n _ _ _ _ _)

theorem State.reversePartner_stirs (s : State) (n : Axis) (f : Nat) : Stirs stirReg P s (s.reversePartner n f) :=
  Stirs.ite (Stirs.ite ((State.reach_stirs hp s _ _ _ _).trans (State.clearObs_stirs _ _)) (Stirs.refl s)) (Stirs.refl s)

theorem State.obstruct_stirs (s : State) (n : Axis) (g : Seg) (f : Nat) : Stirs stirReg P s (s.obstruct n g f) := by
  unfold State.obstruct
  extract_lets u pos v ended w
  have hu : Stirs stirReg P s u := (s.sqc_stirs (f := F.LES_STAT_OBS n) (stirReg_lesStat n)).trans
    (State.cnt_stirs _ (f := F.LES_STAT_OBSCNT n) 1 (stirReg_lesStat n))
  have hw : Stirs stirReg P s w := (hu.trans (State.axisEvent_stirs _ n _ _ _ _ _)).trans (State.clearObs_stirs _ n)
  exact Stirs.ite (hw.trans ((State.reach_stirs hp w n _ _ _).trans (State.reversePartner_stirs hp _ n f))) hw

theorem lesObstruct_stirs (s : State) (n : Axis) : Stirs stirReg P s (lesObstruct s n).1 := by
  unfold lesObstruct
  split
  · extract_lets met l k u
    split
    · exact (s.setLes_stirs n _).trans (State.setFbk_stirs _ n _ rfl id)
    · exact s.setLes_stirs n _
  · split
    · exact State.clearObs_stirs s n
    · rename_i g _
      extract_lets l dir f lag berr k b u
      have hu : Stirs stirReg P s u := s.setLes_stirs n _
      split
      · exact hu.trans (State.obstruct_stirs hp u n g _)
      · exact Stirs.ite (hu.trans (State.clearObs_stirs _ n)) hu

theorem lesCompare_stirs (s : State) (n : Axis) (x : Rat) : Stirs stirReg P s (lesCompare s n x) := by
  unfold lesCompare
  extract_lets l diff u tol k v w
  obtain ⟨-, -, -, hd, -⟩ := stirReg_les n
  have hu : Stirs stirReg P s u := s.wrS_stirs (f := F.LES_DIFF_DIFF n) _ hd
  have hv : Stirs stirReg P s v := hu.trans (u.setLes_stirs n _)
  refine Stirs.ite (Stirs.refl s) (Stirs.ite ?_ hv)
  exact (((hv.trans (v.setLes_stirs n _)).trans (State.sqc_stirs _ (f := F.LES_STAT_PLAUS n) (stirReg_lesStat n))).trans
    (State.switchToLes_stirs hp _ n x)).trans (State.detectAxis_stirs _ n _)

theorem lesHandoff_stirs (s : State) (n : Axis) : Stirs stirReg P s (lesHandoff s n) := by
  unfold lesHandoff
  extract_lets x whole _ u v w y a r b c _ d
  refine Stirs.ite (Stirs.refl s) (Stirs.ite ?_ ((lesShow_stirs s n).trans (lesCompare_stirs hp _ n x)))
  have hu : Stirs stirReg P s u := s.setLes_stirs n _
  have hw : Stirs stirReg P s w := ((hu.trans (lesTrack_stirs u n)).trans (lesShow_stirs _ n)).trans
    ((lesForce_stirs _ n).trans (lesLoad_stirs _ n))
  have ha : Stirs stirReg P w a := (w.wrB_stirs (f := F.LES_STAT_BOUND n) _ (stirReg_lesStat n)).trans (lesValidity_stirs _ n)
  have hc : Stirs stirReg P a c := ((lesObstruct_stirs hp a n).trans (lesStall_stirs _ n _)).trans
    ((lesCompare_stirs hp _ n x).trans (lesNoSource_stirs _ n))
  have hd : Stirs stirReg P c d := Stirs.ite (c.setLes_stirs n _) (Stirs.refl c)
  exact (((hw.trans ha).trans hc).trans hd).trans (d.setClp_stirs n _ (.inr rfl) id)

end Estimates

end Sys2Proof.Machine

namespace Sys2Proof.Machine

section HandingOver

variable {R : Nat → Bool} {P : List Part} {s t z : State}

/-! ### Setpoints, followers, streams, gate stages -/

theorem State.addPart_stirs (s : State) (o : Nat) (q : Rat) : Stirs R P s (s.addPart o q) := by
  unfold State.addPart
  extract_lets v n _ u
  have hu : Stirs R P s u := Stirs.note
  exact Stirs.ite hu (hu.trans Stirs.note)

theorem State.emit_stirs (s : State) (o : Out) : Stirs R P s (s.emit o) := Stirs.note

theorem followStep_stirs (s : State) (n : Axis) (hp : Part.plan ∈ P) : Stirs stirReg P s (followStep s n) := by
  unfold followStep
  split
  · rename_i f g hf hg
    extract_lets l f' h left jerk r lag _ u
    have hu : Stirs stirReg P s u :=
      Stirs.after (State.draw_stirs _) (s.setPlan_stirs n _ hp (.inr rfl) fun e => by rw [hf] at e; cases e)
    exact Stirs.ite (hu.trans (State.detectAxis_stirs _ n _)) hu
  · exact Stirs.refl s

theorem reference_stirs (missed : List Bank) (s : State) (b : Bank) (hp : Part.plan ∈ P) (hm : Part.miss ∈ P) :
    Stirs stirReg P s (reference missed s b) := by
  unfold reference
  extract_lets run _ u v
  have hu : Stirs stirReg P s u := s.setBank_stirs b _ (.inl hm)
  have hv : Stirs stirReg P s v := s.setBank_stirs b _ (.inl hm)
  refine Stirs.ite (Stirs.ite (hu.trans (u.detect_stirs _ (.inr ⟨hm, b, rfl⟩))) hu) (Stirs.ite hv ?_)
  exact hv.trans (Stirs.each fun s n => followStep_stirs s n hp)

theorem giveSetpoint_stirs (s : State) (n : Axis) (hp : Part.plan ∈ P) (hr : Part.ramp ∈ P) (hc : Part.clp ∈ P) :
    Stirs R P s (giveSetpoint s n) := by
  unfold giveSetpoint
  extract_lets r moved u _ v
  have hu : Stirs R P s u := Stirs.ite (s.addPart_stirs _ _) (Stirs.refl s)
  have hv : Stirs R P u v := u.setClp_stirs n _ (.inl hc) id
  exact (hu.trans hv).trans (v.setPlan_stirs n _ hp (.inl hr) id)

/-- CLP runs the last stop ramp of one axis (R24). -/
def runStop (s : State) (n : Axis) : State :=
  let p := s.plan n
  let s := if p.ref = p.stopRamp then s else s.setPlan n { p with ref := p.stopRamp, follow := none }
  let r := refNow s n
  s.setClp n { s.clp n with xRef := r.1, vRef := r.2.1, aRef := r.2.2, iff := feedForward s n r.2.1 r.2.2 }

theorem missBank_eq (s : State) (b : Bank) : missBank s b = each ((axesOfBank b).filter s.energised) runStop s := rfl

theorem runStop_stirs (s : State) (n : Axis) (hp : Part.plan ∈ P) (hc : Part.clp ∈ P) : Stirs R P s (runStop s n) := by
  unfold runStop
  extract_lets p u r
  have hu : Stirs R P s u := Stirs.ite (Stirs.refl s) (s.setPlan_stirs n _ hp (.inr rfl) fun _ => rfl)
  exact hu.trans (u.setClp_stirs n _ (.inl hc) id)

theorem handOver_stirs (s : State) (b : Bank) (hp : Part.plan ∈ P) (hr : Part.ramp ∈ P) (hc : Part.clp ∈ P) :
    Stirs R P s (handOver s b) := by
  unfold handOver
  refine Stirs.ite ?_ (Stirs.ite (Stirs.refl s) (Stirs.each fun s n => giveSetpoint_stirs s n hp hr hc))
  rw [missBank_eq]
  exact Stirs.each fun s n => runStop_stirs s n hp hc

theorem State.clpTick_stirs (s : State) (n : Axis) (h : R (Reg.CLP_STAT n) = true) : Stirs R P s (s.clpTick n) := by
  unfold State.clpTick
  extract_lets u
  have hu : Stirs R P s u := Stirs.ite (Stirs.refl s)
    ((s.wr_stirs (f := F.CLP_STAT_VSAT n) 0 h).trans (State.wr_stirs _ (f := F.CLP_STAT_ILIM n) 0 h))
  exact Stirs.ite (hu.trans (u.setClp_stirs n _ (.inr rfl) fun _ => rfl)) hu

theorem State.issueBlock_stirs (s : State) (i : Fin 8) (h1 : R (Reg.HIF_TLM_TAIL i) = true) (h2 : R (Reg.HIF_TLM_STAT i) = true)
    (hs : Part.stream ∈ P) : Stirs R P s (s.issueBlock i) := by
  unfold State.issueBlock
  extract_lets x
  split
  · exact Stirs.refl s
  · rename_i w _
    refine Stirs.ite ?_ (Stirs.ite Stirs.note ?_)
    · exact ((s.setStream_stirs i _ hs).trans (State.cnt_stirs _ (f := F.HIF_TLM_STAT_DROP i) 1 h2)).trans
        (State.setStream_stirs _ i _ hs)
    · have hu : Stirs R P s (each w.parts (fun s x => s.emit (.block w.port i x.last x.addr x.words)) s.draw) :=
        Stirs.trans Stirs.note (Stirs.each fun s _ => s.emit_stirs _)
      exact (hu.trans (State.wr_stirs _ (f := F.HIF_TLM_TAIL_TAIL i) _ h1)).trans (State.setStream_stirs _ i _ hs)

theorem streamTick_stirs (s : State) (i : Fin 8) (h1 : R (Reg.HIF_TLM_TAIL i) = true) (h2 : R (Reg.HIF_TLM_STAT i) = true)
    (hs : Part.stream ∈ P) : Stirs R P s (streamTick s i) :=
  have hu := s.issueBlock_stirs i h1 h2 hs
  Stirs.ite (hu.trans (State.setStream_stirs _ i _ hs)) hu

theorem bankTick_stirs (s : State) (b : Bank) (hg : Part.gdr ∈ P) (hs : Part.src ∈ P) : Stirs R P s (bankTick s b) := by
  unfold bankTick
  extract_lets g mean u v w
  have hv : Stirs R P s v := (s.setGdr_stirs b _ hg).trans (Stirs.ite (State.inactive_stirs _ _ hs) (Stirs.refl _))
  refine Stirs.ite (Stirs.ite ?_ hv) (s.setGdr_stirs b _ hg)
  exact (hv.trans (State.setGdr_stirs _ b _ hg)).trans (Stirs.each fun s h => s.setHb_stirs h _ fun _ => rfl)

theorem countMinutes_stirs (s : State) : Stirs R P s (countMinutes s) := by
  unfold countMinutes
  extract_lets q _ u v
  have hu : Stirs R P s u := Stirs.note
  have hv : Stirs R P u v := Stirs.ite (u.addPart_stirs _ _) (Stirs.refl u)
  exact (hu.trans hv).trans (Stirs.each fun s b => s.addPart_stirs _ _)

end HandingOver

end Sys2Proof.Machine

namespace Sys2Proof.Machine

section Work

variable {R : Nat → Bool} {P : List Part} {s t z : State}

/-! ### The work of a half-frame tick, in its parts -/

/-- What the tick's work finds, before it acts (R50). -/
def sought (missed : List Bank) (s : State) : State :=
  each allBanks (reference missed) (each allAxes (fun s n => (lesHandoff s n).readFriction n) s)

theorem halfFinds_eq (missed : List Bank) (s : State) : halfFinds missed s = (sought missed s.noTrips).runTrips := rfl

/-- CLP's half-frame is closed and what is due begins to brake. -/
def closes (s : State) : State := each allAxes beginDue (each allAxes (fun s n => s.clpTick n) s)

def halfCloses (missed : List Bank) (s : State) : State := closes (halfFinds missed s)

/-- The streams count and the gate stages take their means. -/
def halfCounts (s : State) : State :=
  each allBanks bankTick (each (List.finRange 8) streamTick (each allBanks (fun s b => s.curtSettle b) s))

theorem halfWork_eq (missed : List Bank) (s : State) :
    halfWork missed s = State.arranged s (halfCounts (each allBanks handOver (halfCloses missed s))) := rfl

/-- The registers that the close of a half-frame may change: with those of reactions and LES, CLP_STAT. -/
def closeReg (o : Nat) : Bool := stirReg o || (0x20000 ≤ o && o < 0x28000 && o % 0x400 = 0xa4)

/-- The registers that the counting of a half-frame may change: with those of reactions and LES, what the streams show. -/
def countReg (o : Nat) : Bool := stirReg o || (0x3000 ≤ o && o < 0x3100 && (o % 0x20 = 0x10 || o % 0x20 = 0x14))

/-- The registers of a tick's work. -/
def workReg (o : Nat) : Bool := closeReg o || countReg o

theorem closeReg_of_stirReg (o : Nat) (h : stirReg o = true) : closeReg o = true := by simp [closeReg, h]
theorem countReg_of_stirReg (o : Nat) (h : stirReg o = true) : countReg o = true := by simp [countReg, h]
theorem workReg_of_closeReg (o : Nat) (h : closeReg o = true) : workReg o = true := by simp [workReg, h]
theorem workReg_of_countReg (o : Nat) (h : countReg o = true) : workReg o = true := by simp [workReg, h]
theorem workReg_of_stirReg (o : Nat) (h : stirReg o = true) : workReg o = true := workReg_of_closeReg o (closeReg_of_stirReg o h)

theorem closeReg_clpStat : ∀ n : Axis, closeReg (Reg.CLP_STAT n) = true := by decide +kernel

theorem countReg_tlm : ∀ i : Fin 8, countReg (Reg.HIF_TLM_TAIL i) = true ∧ countReg (Reg.HIF_TLM_STAT i) = true := by decide +kernel

theorem handoffs_stirs (s : State) (hp : Part.plan ∈ P) :
    Stirs stirReg P s (each allAxes (fun s n => (lesHandoff s n).readFriction n) s) :=
  Stirs.each fun s n => (lesHandoff_stirs hp s n).trans (State.readFriction_stirs _ n)

theorem sought_stirs (missed : List Bank) (s : State) (hp : Part.plan ∈ P) (hm : Part.miss ∈ P) :
    Stirs stirReg P s (sought missed s) :=
  (handoffs_stirs s hp).trans (Stirs.each fun s b => reference_stirs missed s b hp hm)

theorem halfFinds_stirs (missed : List Bank) (s : State) : Stirs stirReg [.plan, .miss, .src, .trips] s (halfFinds missed s) := by
  rw [halfFinds_eq]
  have h1 : Stirs stirReg [.plan, .miss, .src, .trips] s s.noTrips := Stirs.clear (by decide)
  exact (h1.trans (sought_stirs missed _ (by decide) (by decide))).trans (State.runTrips_stirs (by decide) (by decide) _ (by decide))

theorem closes_stirs (s : State) (hp : Part.plan ∈ P) : Stirs closeReg P s (closes s) :=
  Stirs.trans (Stirs.each fun s n => s.clpTick_stirs n (closeReg_clpStat n))
    (Stirs.each fun s n => (beginDue_stirs hp s n).mono closeReg_of_stirReg fun _ e => e)

theorem halfCloses_stirs (missed : List Bank) (s : State) :
    Stirs closeReg [.plan, .miss, .src, .trips] s (halfCloses missed s) :=
  ((halfFinds_stirs missed s).mono closeReg_of_stirReg fun _ e => e).trans (closes_stirs _ (by decide))

theorem handOvers_stirs (s : State) : Stirs R [.plan, .ramp, .clp] s (each allBanks handOver s) :=
  Stirs.each fun s b => handOver_stirs s b (by decide) (by decide) (by decide)

/-- The curtailments settle and the streams count. -/
def streamCounts (s : State) : State := each (List.finRange 8) streamTick (each allBanks (fun s b => s.curtSettle b) s)

theorem halfCounts_eq (s : State) : halfCounts s = each allBanks bankTick (streamCounts s) := rfl

theorem curtSettles_stirs (s : State) : Stirs stirReg P s (each allBanks (fun s b => s.curtSettle b) s) :=
  Stirs.each fun s b => s.curtSettle_stirs b

theorem streamCounts_stirs (s : State) : Stirs countReg [.stream] s (streamCounts s) :=
  ((curtSettles_stirs s).mono countReg_of_stirReg fun _ e => e).trans
    (Stirs.each fun s i => streamTick_stirs s i (countReg_tlm i).1 (countReg_tlm i).2 (by decide))

theorem bankTicks_stirs (s : State) : Stirs R [.gdr, .src] s (each allBanks bankTick s) :=
  Stirs.each fun s b => bankTick_stirs s b (by decide) (by decide)

theorem halfCounts_stirs (s : State) : Stirs countReg [.stream, .gdr, .src] s (halfCounts s) :=
  ((streamCounts_stirs s).parts (by decide)).trans ((bankTicks_stirs _).parts (by decide))

theorem halfWork_stirs (missed : List Bank) (s : State) :
    Stirs workReg [.plan, .miss, .src, .trips, .ramp, .clp, .stream, .gdr] s (halfWork missed s) := by
  rw [halfWork_eq]
  exact ((((halfCloses_stirs missed s).mono workReg_of_closeReg (by decide)).trans ((handOvers_stirs _).parts (by decide))).trans
    ((halfCounts_stirs _).mono workReg_of_countReg (by decide))).trans (State.arranged_stirs _ _)

/-! ### Sources in a tick's work -/

theorem State.trip_inactive (s : State) (k : Nat) (ob : Option Nat) (loc : Bool) {j : Nat} (h : (s.src j).active = false) :
    ((s.trip k false ob loc).src j).active = false := by
  rcases s.trip_cases k false ob loc with e | e
  · rw [e]; exact h
  · by_cases hj : j = k
    · subst hj; exact e.active
    · rw [e.others j hj]; exact h

theorem State.runEach_inactive (l : List TripReq) (hl : ∀ x ∈ l, x.active = false) (s : State) {j : Nat}
    (h : (s.src j).active = false) : ((s.runEach l).src j).active = false := by
  induction l generalizing s with
  | nil => exact h
  | cons x l ih =>
    refine ih (fun y hy => hl y (by simp [hy])) _ ?_
    beta_reduce
    rw [hl x (by simp)]
    exact s.trip_inactive _ _ _ h

theorem State.runTrips_eq (s : State) : s.runTrips = s.noTrips.runEach (s.inClk.trips.insertionSort fun a b => a.src ≤ b.src) := rfl

theorem sought_srcs (missed : List Bank) (s : State) : (sought missed s.noTrips).fcs.srcs = s.fcs.srcs :=
  (sought_stirs (P := [.plan, .miss]) missed s.noTrips (by decide) (by decide)).src (by decide)

/-- What a tick's work finds is not ACTIVE, and of an axis or of missing setpoints. -/
theorem sought_trips (missed : List Bank) (s : State) : ∀ x ∈ (sought missed s.noTrips).inClk.trips,
    x.active = false ∧ (128 ≤ x.src ∨ ∃ b : Bank, x.src = 64 + 16 * b.val + 5) := by
  obtain ⟨l, e, h⟩ := (sought_stirs (P := [.plan, .miss]) missed s.noTrips (by decide) (by decide)).trips (by decide)
  intro x hx
  rw [e] at hx
  exact ⟨(h x hx).1, (h x hx).2.imp_right fun k => k.2⟩

theorem halfFinds_inactive (missed : List Bank) (s : State) {j : Nat} (h : (s.src j).active = false) :
    ((halfFinds missed s).src j).active = false := by
  rw [halfFinds_eq, State.runTrips_eq]
  refine State.runEach_inactive _ (fun x hx => ?_) _ ?_
  · exact (sought_trips missed s x ((List.perm_insertionSort _ _).subset hx)).1
  · rw [State.noTrips_src, State.src_congr (sought_srcs missed s)]
    exact h

theorem State.inactive_inactive (s : State) (k : Nat) {j : Nat} (h : (s.src j).active = false) :
    ((s.inactive k).src j).active = false := by
  by_cases e : j = k
  · subst e; rw [State.inactive_self]
  · rw [s.inactive_ne e]; exact h

/-- The gates of a bank that edges held follow again. -/
def State.followEdges (s : State) (b : Bank) : State :=
  each (hbsOfBank b) (fun s h => s.setHb h { s.hb h with edge := false }) (s.setGdr b { s.gdr b with edgeLost := false })

/-- The mean of a half-frame's supply codes, none without one. -/
def GdrS.taken (g : GdrS) : Option Rat := if g.cnt = 0 then none else some ((g.sum : Rat) / g.cnt)

theorem bankTick_off (s : State) (b : Bank) (h : s.powered (8 + b.val) = false) :
    bankTick s b = s.setGdr b { s.gdr b with sum := 0, cnt := 0, mean := (s.gdr b).taken } := by
  unfold bankTick
  exact if_neg (by simp [h])

theorem bankTick_on (s : State) (b : Bank) (h : s.powered (8 + b.val) = true) : ∃ u, u =
    (s.setGdr b { s.gdr b with markAt := s.clk, sum := 0, cnt := 0, mean := (s.gdr b).taken }).ceaseIf (s.gdr b).edgeLost (74 + 16 * b.val) ∧
    bankTick s b = if (s.gdr b).edgeLost && !(u.src (74 + 16 * b.val)).severe then u.followEdges b else u := by
  refine ⟨_, rfl, ?_⟩
  unfold bankTick
  exact if_pos h

theorem State.followEdges_stirs (s : State) (b : Bank) (hg : Part.gdr ∈ P) : Stirs R P s (s.followEdges b) :=
  (s.setGdr_stirs b _ hg).trans (Stirs.each fun s h => s.setHb_stirs h _ fun _ => rfl)

theorem State.ceaseIf_inactive (s : State) (c : Bool) (k : Nat) {j : Nat} (h : (s.src j).active = false) :
    ((s.ceaseIf c k).src j).active = false := by
  cases c
  · exact h
  · exact s.inactive_inactive k h

theorem bankTick_inactive (s : State) (b : Bank) {j : Nat} (h : (s.src j).active = false) :
    ((bankTick s b).src j).active = false := by
  cases hp : s.powered (8 + b.val)
  · rw [bankTick_off s b hp]
    exact h
  · obtain ⟨u, hu, e⟩ := bankTick_on s b hp
    have hj : (u.src j).active = false := by
      rw [hu]
      exact State.ceaseIf_inactive _ _ _ h
    rw [e]
    split
    · rw [State.src_congr ((u.followEdges_stirs (R := stirReg) (P := [.gdr]) b (by decide)).src (by decide))]
      exact hj
    · exact hj

/-- A property that each step keeps is kept by all. -/
theorem each_keep {α : Type} {p : State → Prop} {l : List α} {f : State → α → State} (hf : ∀ s, p s → ∀ a ∈ l, p (f s a))
    (h : p s) : p (each l f s) := by
  induction l generalizing s with
  | nil => exact h
  | cons a l ih => exact ih (fun s hs b hb => hf s hs b (by simp [hb])) (hf s h a (by simp))

theorem halfWork_inactive (missed : List Bank) (s : State) {j : Nat} (h : (s.src j).active = false) :
    ((halfWork missed s).src j).active = false := by
  have e1 := (closes_stirs (P := [.plan]) (halfFinds missed s) (by decide)).src (by decide)
  have e2 := (handOvers_stirs (R := stirReg) (halfCloses missed s)).src (by decide)
  rw [halfWork_eq, (State.arranged_reports (R := reportReg) _).src]
  generalize each allBanks handOver (halfCloses missed s) = u at *
  refine each_keep (fun s hs b _ => bankTick_inactive s b hs) ?_
  have e3 := (streamCounts_stirs u).src (by decide)
  rw [show each (List.finRange 8) streamTick (each allBanks (fun s b => s.curtSettle b) u) = streamCounts u from rfl,
    State.src_congr e3, State.src_congr e2, halfCloses, State.src_congr e1]
  exact halfFinds_inactive missed s h

end Work

end Sys2Proof.Machine

namespace Sys2Proof.Machine

section Frame

variable {R : Nat → Bool} {P : List Part} {s t z : State}

/-! ### The rest of a frame tick's work (R34, R207, R289, R298, R301) -/

/-- The registers of a frame tick's work: with those of the half-frame's the auxiliary results and the rotation. -/
def frameReg (o : Nat) : Bool :=
  workReg o || (0x10000 ≤ o && o < 0x18000 && ((0x304 ≤ o % 0x2000 && o % 0x2000 < 0x384) || o % 0x2000 = 0xc0))

theorem frameReg_of_workReg (o : Nat) (h : workReg o = true) : frameReg o = true := by simp [frameReg, h]
theorem frameReg_of_stirReg (o : Nat) (h : stirReg o = true) : frameReg o = true := frameReg_of_workReg o (workReg_of_stirReg o h)

theorem frameReg_aux : ∀ e : Fin 64, frameReg (Reg.ADC_AUX e) = true := by decide +kernel
theorem frameReg_rot : ∀ b : Bank, frameReg (Reg.ADC_ROT b) = true := by decide +kernel

theorem Stirs.frame (h : Stirs stirReg P s t) : Stirs frameReg P s t := h.mono frameReg_of_stirReg fun _ e => e

theorem State.setAdc_stirs (s : State) (b : Bank) (x : AdcS) : Stirs R P s (s.setAdc b x) := Stirs.note

/-! The converters. -/

theorem pickSlice_adcs (s : State) (b : Bank) (e : List (Fin 5)) (c : Nat) : ∃ a, (pickSlice s b e c).1 = { s with adcs := a } := by
  unfold pickSlice
  dsimp only
  split
  · exact ⟨_, rfl⟩
  · exact ⟨_, rfl⟩

theorem auxStart_adcs (wins : List Nat) (b : Bank) (lim : Nat) (s : State) (k : Fin 16) :
    ∃ a, auxStart wins b lim s k = { s with adcs := a } := by
  unfold auxStart
  extract_lets ts c at_
  clear_value at_
  obtain _ | ⟨t, l⟩ := at_
  · exact ⟨_, rfl⟩
  · dsimp only
    obtain ⟨a, e⟩ := pickSlice_adcs s b (freeSlices s b (l.foldl min t)) (l.foldl min t + ts + 80)
    generalize pickSlice s b (freeSlices s b (l.foldl min t)) (l.foldl min t + ts + 80) = x at *
    obtain ⟨u, q⟩ := x
    obtain rfl : u = { s with adcs := a } := e
    cases q
    · exact ⟨s.adcs, rfl⟩
    · exact ⟨_, rfl⟩

theorem foldl_adcs {α : Type} {f : State → α → State} (hf : ∀ s x, ∃ a, f s x = { s with adcs := a }) (l : List α) (s : State) :
    ∃ a, l.foldl f s = { s with adcs := a } := by
  induction l generalizing s with
  | nil => exact ⟨s.adcs, rfl⟩
  | cons x l ih =>
    obtain ⟨a, e⟩ := hf s x
    obtain ⟨a', e'⟩ := ih (f s x)
    exact ⟨a', by rw [List.foldl_cons, e', e]⟩

theorem auxRun_adcs (s : State) (b : Bank) (lim : Nat) : ∃ a, auxRun s b lim = { s with adcs := a } := by
  unfold auxRun
  split
  · exact foldl_adcs (auxStart_adcs _ b lim) _ s
  · exact ⟨s.adcs, rfl⟩

theorem auxEntry_stirs (hR : ∀ e : Fin 64, R (Reg.ADC_AUX e) = true) (raws : List (Fin 64 × List Raw)) (s : State) (e : Fin 64) :
    Stirs R P s (auxEntry raws s e) := by
  have put : ∀ (s : State) w, Stirs R P s (s.setReg (Reg.ADC_AUX e) w) := fun s w => s.setReg_stirs w (hR e)
  unfold auxEntry
  extract_lets b k src put' precise n given codes u conv a clip diff sum len hist mean top code value settling v
  refine Stirs.ite (put s _) (Stirs.ite (put s _) ?_)
  have hu : Stirs R P s u := Stirs.ite Stirs.note (Stirs.refl s)
  exact (hu.trans (u.setAdc_stirs b _)).trans (put v _)

theorem foldl_stirs {α : Type} {f : State → α → State} (hf : ∀ s x, Stirs R P s (f s x)) (l : List α) (s : State) :
    Stirs R P s (l.foldl f s) := Stirs.each hf

theorem auxPublish_stirs (hR : ∀ e : Fin 64, R (Reg.ADC_AUX e) = true) (raws : List (Fin 64 × List Raw)) (s : State) :
    Stirs R P s (auxPublish raws s) :=
  (foldl_stirs (auxEntry_stirs hR raws) _ s).trans (Stirs.each fun s b => s.setAdc_stirs b _)

theorem State.readDrift_stirs (s : State) (o : Nat) (v : Int) : Stirs R P s (s.readDrift o v) := by
  unfold State.readDrift
  extract_lets prev _ u
  have hu : Stirs R P s u := Stirs.note
  clear_value prev
  obtain _ | ⟨_, w, t⟩ := prev
  · exact hu
  · exact Stirs.ite (hu.trans (State.reading_stirs _ _ _ _ _)) hu

theorem takeOffsets_stirs (offs : List (Coil × BitVec 16)) (s : State) : Stirs R P s (takeOffsets offs s) := by
  refine Stirs.each fun s p => ?_
  extract_lets b i a
  refine Stirs.ite (s.setAdc_stirs b _) ?_
  split
  · exact s.setAdc_stirs b _
  · rename_i t _
    extract_lets u
    have hu : Stirs R P s u := s.setAdc_stirs b _
    split
    · exact Stirs.ite ((hu.trans (u.setAdc_stirs b _)).trans (State.readDrift_stirs _ _ _)) hu
    · exact hu

/-! Calibrations that begin (R207, R298). -/

theorem State.energise_stirs (s : State) (n : Axis) (hp : Part.plan ∈ P) (hc : Part.clp ∈ P) (hg : Part.gdr ∈ P) :
    Stirs stirReg P s (s.energise n) := by
  unfold State.energise
  extract_lets les b s0 _ u v _ x y
  refine Stirs.ite (Stirs.refl s) ?_
  have hu : Stirs stirReg P s u := (s.setLes_stirs n _).trans (State.setClp_stirs _ n _ (.inl hc) id)
  have hv : Stirs stirReg P u v := (u.wr_stirs (f := F.LES_STAT_VALID n) 0 (stirReg_lesStat n)).trans
    (State.wr_stirs _ (f := F.LES_STAT_LOWSPD n) 1 (stirReg_lesStat n))
  have hx : Stirs stirReg P v x := v.setGdr_stirs b _ hg
  have hy : Stirs stirReg P x y := Stirs.each fun s h => s.setHb_stirs h _ id
  exact Stirs.after (State.setFbk_stirs _ n _ rfl id)
    ((((hu.trans hv).trans hx).trans hy).trans (y.setPlan_stirs n _ hp (.inr rfl) id))

theorem calBegun_stirs (s : State) (o : Op) (b : Bank) (ho : Part.ops ∈ P) (x : AdcS) :
    Stirs frameReg P s ((s.setOp { o with begun := true }).setAdc b x) :=
  (s.setOp_stirs _ (.inl ho)).frame.trans (State.setAdc_stirs _ b x)

theorem calSlice_stirs (s : State) (o : Op) (hp : Part.plan ∈ P) (ho : Part.ops ∈ P) : Stirs frameReg P s (calSlice s o) := by
  unfold calSlice
  extract_lets b begun
  refine Stirs.ite (State.finish_stirs hp s _ _ _ _ _ _).frame (Stirs.ite (Stirs.refl s) (Stirs.ite (calBegun_stirs s o b ho _) ?_))
  split
  · rename_i q _
    have hu := s.wr_stirs (P := P) (f := F.ADC_ROT_INSVC b) (s.rd (F.ADC_ROT_INSVC b) - 2 ^ q.val) (frameReg_rot b)
    have hv := State.wr_stirs (P := P) (s.wr (F.ADC_ROT_INSVC b) (s.rd (F.ADC_ROT_INSVC b) - 2 ^ q.val)) (f := F.ADC_ROT_REST b)
      q.val (frameReg_rot b)
    exact (hu.trans hv).trans (calBegun_stirs _ o b ho _)
  · exact Stirs.refl s

theorem calStart_stirs (s : State) (o : Op) (hp : Part.plan ∈ P) (ho : Part.ops ∈ P) (hc : Part.clp ∈ P) (hg : Part.gdr ∈ P) :
    Stirs frameReg P s (calStart s o) := by
  unfold calStart
  extract_lets scope u
  have hu : Stirs frameReg P s u := (s.setOp_stirs _ (.inl ho)).frame
  have h0 := Stirs.refl (R := frameReg) (P := P) s
  refine Stirs.ite h0 (Stirs.ite (Stirs.ite h0 (calSlice_stirs s o hp ho)) (Stirs.ite ?_ (Stirs.ite ?_ (Stirs.ite h0 ?_))))
  · exact Stirs.ite (State.deenergise_stirs hp s _).frame h0
  · exact Stirs.ite h0 (Stirs.trans (s.setOp_stirs _ (.inl ho)).frame (Stirs.each fun s b => s.setAdc_stirs b _))
  · exact Stirs.ite hu (hu.trans (u.energise_stirs _ hp hc hg).frame)

/-- Without a calibration nothing begins. -/
theorem calStart_other (s : State) (o : Op) (h : o.op ≠ 0x1B) : calStart s o = s := if_pos h

/-- The index pulses of the frame are forgotten. -/
def forgetIndex (s : State) (n : Axis) : State :=
  if (s.fbk n).idxSeen then s.setFbk n { s.fbk n with idxSeen := false } else s

theorem forgetIndex_stirs (s : State) (n : Axis) : Stirs R P s (forgetIndex s n) :=
  Stirs.ite (s.setFbk_stirs n _ rfl fun _ => rfl) (Stirs.refl s)

theorem forgetIndex_forgets (s : State) (n : Axis) : ((forgetIndex s n).fbk n).idxSeen = false := by
  unfold forgetIndex
  split
  · rw [State.fbk_setFbk_self]
  · exact Bool.eq_false_iff.2 ‹_›

theorem forgetIndex_each (l : List Axis) (s : State) {n : Axis} (h : n ∈ l) : ((each l forgetIndex s).fbk n).idxSeen = false := by
  induction l generalizing s with
  | nil => exact absurd h List.not_mem_nil
  | cons a l ih =>
    rcases List.mem_cons.1 h with rfl | h
    · have hs : Stirs stirReg [] (forgetIndex s n) (each l forgetIndex (forgetIndex s n)) := Stirs.each forgetIndex_stirs
      exact (hs.fbk n).2 (forgetIndex_forgets s n)
    · exact ih _ h

end Frame

end Sys2Proof.Machine

namespace Sys2Proof.Machine

section Sent

variable {s t u a : State}

/-! ### What is sent and is no record stays among what was sent -/

theorem refill_mem {α : Type} {get : α → Option (List Word)} {set : α → List Word → α} {x : α} (hx : get x = none) {l : List α}
    (h : x ∈ l) (ws : List (List Word)) : x ∈ refill get set l ws := by
  induction l generalizing ws with
  | nil => exact h
  | cons y l ih =>
    unfold refill
    rcases List.mem_cons.1 h with rfl | h
    · rw [hx]
      exact List.mem_cons_self
    · split
      · exact List.mem_cons_of_mem _ (ih h _)
      · exact List.mem_cons_of_mem _ (ih h _)

theorem orderStreams_mem {α : Type} {stream : α → Option (Ctx × Dma)} {words : α → List Word} {set : α → List Word → α}
    {ops : List Op} {l : List α} {x : α} (hx : stream x = none) (h : x ∈ l) : x ∈ orderStreams stream words set ops l := by
  unfold orderStreams
  generalize (l.filterMap stream).dedup = ks
  induction ks generalizing l with
  | nil => exact h
  | cons k ks ih => exact ih (refill_mem (by simp [hx]) h _)

theorem State.arranged_sent_drop (hp : a.sent.length ≤ s.sent.length) : (State.arranged a s).sent.drop a.sent.length =
    (orderStreams Out.stream Out.words Out.withWords a.ops (s.sent.drop a.sent.length)).insertionSort fun a b => a.rank ≤ b.rank := by
  unfold State.arranged
  dsimp only
  rw [List.drop_append_of_le_length (by simp [hp]), List.drop_take]
  simp

/-- A read or a block sent since state a stays among what was sent since then. -/
theorem State.arranged_sent_mem (hp : a.sent.length ≤ s.sent.length) {x : Out} (hx : x.stream = none)
    (h : x ∈ s.sent.drop a.sent.length) : x ∈ (State.arranged a s).sent.drop a.sent.length := by
  rw [State.arranged_sent_drop hp]
  exact (List.perm_insertionSort _ _).symm.subset (orderStreams_mem hx h)

theorem mem_drop_of_le {α : Type} {l : List α} {m n : Nat} (h : m ≤ n) {x : α} (hx : x ∈ l.drop n) : x ∈ l.drop m := by
  rw [← Nat.add_sub_cancel' h, ← List.drop_drop] at hx
  exact List.mem_of_mem_drop hx

theorem mem_drop_of_prefix {α : Type} {l m : List α} (h : l <+: m) {n : Nat} {x : α} (hx : x ∈ l.drop n) : x ∈ m.drop n := by
  obtain ⟨r, rfl⟩ := h
  rw [List.drop_append]
  exact List.mem_append_left _ hx

end Sent

section Serving

variable {s t u z : State} {p q : Port} {k : Ctx}

/-! ### What serving the contexts reaches (R107, R108, R110) -/

/-- From s to t pages have been asked for and contexts served: what records write, how the ports of L fetch, and of the contexts
how they count, signal and fetch; what a frame's fetching starts from stays. -/
structure Serves (L : List Port) (s t : State) : Prop where
  rest : t = { s with
    regs := t.regs, seqDone := t.seqDone, cntNow := t.cntNow, portA := t.portA, portB := t.portB, ctxs := t.ctxs
    sent := t.sent, pmu := { s.pmu with since := t.pmu.since } }
  regs : ∀ o, eventReg o = false → t.reg o = s.reg o
  ctx : ∀ k, (t.ctx k).snapDb = (s.ctx k).snapDb ∧ (t.ctx k).snapF = (s.ctx k).snapF
  port : ∀ p, t.port p = { s.port p with held := (t.port p).held, page := (t.port p).page, mmio := (t.port p).mmio }
  asks : ∀ p, p ∉ L → (t.port p).page = (s.port p).page ∧ (t.port p).mmio = (s.port p).mmio

section

variable {L M : List Port}

theorem Serves.refl (s : State) : Serves L s s := ⟨rfl, fun _ _ => rfl, fun _ => ⟨rfl, rfl⟩, fun _ => rfl, fun _ _ => ⟨rfl, rfl⟩⟩

theorem Serves.trans (h : Serves L s t) (k : Serves L t u) : Serves L s u where
  rest := by
    have e := k.rest
    rw [h.rest] at e
    exact e
  regs o e := (k.regs o e).trans (h.regs o e)
  ctx c := ⟨(k.ctx c).1.trans (h.ctx c).1, (k.ctx c).2.trans (h.ctx c).2⟩
  port p := by rw [k.port p, h.port p]
  asks p e := ⟨(k.asks p e).1.trans (h.asks p e).1, (k.asks p e).2.trans (h.asks p e).2⟩

theorem Serves.mono (h : Serves L s t) (hm : ∀ p ∈ L, p ∈ M) : Serves M s t :=
  ⟨h.rest, h.regs, h.ctx, h.port, fun p e => h.asks p fun k => e (hm p k)⟩

theorem Serves.ite {c : Prop} [Decidable c] {a b : State} (h : Serves L z a) (k : Serves L z b) :
    Serves L z (if c then a else b) := by
  split <;> assumption

theorem Serves.each {α : Type} {l : List α} {f : State → α → State} (hf : ∀ s a, Serves L s (f s a)) :
    Serves L s (Machine.each l f s) := by
  induction l generalizing s with
  | nil => exact Serves.refl s
  | cons a l ih => exact (hf s a).trans ih

theorem Reports.port {R : Nat → Bool} (h : Reports R s t) (p : Port) : t.port p = { s.port p with held := (t.port p).held } := by
  cases p
  · exact h.portA
  · exact h.portB

theorem Reports.serves (h : Reports eventReg s t) : Serves L s t := by
  refine ⟨?_, h.regs, fun k => ?_, fun p => ?_, fun p _ => ?_⟩
  · have e := h.unstored (by decide +kernel)
    rw [e]
  · rw [h.ctx k]; exact ⟨rfl, rfl⟩
  · rw [h.port p]
  · rw [h.port p]; exact ⟨rfl, rfl⟩

theorem State.setCtx_serves (s : State) (k : Ctx) (x : CtxS) (h : x.snapDb = (s.ctx k).snapDb ∧ x.snapF = (s.ctx k).snapF) :
    Serves L s (s.setCtx k x) := by
  refine ⟨rfl, fun _ _ => rfl, fun j => ?_, fun p => by cases p <;> rfl, fun p _ => by cases p <;> exact ⟨rfl, rfl⟩⟩
  by_cases e : j = k
  · subst e; rw [State.ctx_setCtx_self]; exact h
  · rw [State.ctx_setCtx_ne _ _ e]; exact ⟨rfl, rfl⟩

theorem State.setPort_serves (s : State) (p : Port) (x : PortS) (hp : p ∈ L)
    (h : x = { s.port p with held := x.held, page := x.page, mmio := x.mmio }) : Serves L s (s.setPort p x) := by
  refine ⟨by cases p <;> rfl, fun o _ => by cases p <;> rfl, fun k => by cases p <;> exact ⟨rfl, rfl⟩, fun q => ?_, fun q hq => ?_⟩
  · by_cases e : q = p
    · subst e; rw [State.port_setPort_self]; exact h
    · rw [State.port_setPort_ne _ _ e]
  · rw [State.port_setPort_ne _ _ fun e : q = p => hq (by rw [e]; exact hp)]; exact ⟨rfl, rfl⟩

theorem State.setOverrun_serves (s : State) (k : Ctx) (n : Option Nat) :
    Serves L s (s.setCtx k { s.ctx k with overrunAt := n }) := s.setCtx_serves k _ ⟨rfl, rfl⟩

theorem State.setDue_serves (s : State) (k : Ctx) (m : Nat) : Serves L s (s.setCtx k { s.ctx k with due := m }) :=
  s.setCtx_serves k _ ⟨rfl, rfl⟩

theorem serveCtx_serves (p : Port) (page : Vector Word 64) (s : State) (k : Ctx) : Serves L s (serveCtx p page s k) := by
  have hk := eventReg_ctxStat k
  unfold serveCtx
  extract_lets prod cons a size room want s1 e c s2 m base w _ v
  have hc : c = (s1.eventTo 0 e).ctx k := rfl
  clear_value c
  subst hc
  have h1 : Serves L s s1 := (State.sqc_reports (F.HIF_CTX_STAT_OVERRUN k) hk).serves
  have h2 : Serves L s s2 := (h1.trans (State.eventTo_reports 0 e).serves).trans (State.setOverrun_serves _ k _)
  have hw : Serves L s w := (State.wr_reports (F.HIF_CTX_STAT_CQ_WAIT k) _ hk).serves
  have hv : Serves L w v := State.setDue_serves w k m
  refine Serves.ite (Serves.ite (Serves.ite h2 (h2.trans (State.eventTo_reports k e).serves)) h1) ?_
  exact Serves.trans (hw.trans hv) (Serves.each fun s _ => (State.emit_reports _).serves)

theorem servePort_serves (p : Port) (page : Vector Word 64) (only : State → Ctx → Bool) (s : State) :
    Serves L s (servePort p page only s) :=
  Serves.trans (Serves.each fun s k => serveCtx_serves p page s k) (State.arranged_reports s).serves

/-! What stays reads the same. -/

theorem Serves.rd (h : Serves L s t) {f : Fld} (hf : eventReg f.off = false) : t.rd f = s.rd f := State.rd_of_reg (h.regs _ hf)
theorem Serves.flag (h : Serves L s t) {f : Fld} (hf : eventReg f.off = false) : t.flag f = s.flag f := State.flag_of_reg (h.regs _ hf)

theorem Serves.strobeRuns (h : Serves L s t) : Machine.strobeRuns t = Machine.strobeRuns s := by
  simp only [Machine.strobeRuns, State.inHeld, State.halted, h.flag (f := F.LCS_LC_STAT_READY) (by decide +kernel),
    h.flag (f := F.LCS_LC_STAT_HELD) (by decide +kernel), h.flag (f := F.LCS_LC_STAT_HALTED) (by decide +kernel)]

theorem Serves.hifServes (h : Serves L s t) : Machine.hifServes t = Machine.hifServes s := by
  simp only [Machine.hifServes, State.inHeld, h.flag (f := F.LCS_LC_STAT_READY) (by decide +kernel),
    h.flag (f := F.LCS_LC_STAT_HELD) (by decide +kernel), h.rd (f := F.PMU_STAT_STATE) (by decide +kernel)]

theorem eventReg_portStat (p : Port) : eventReg (portOff p Reg.HIF_PORT_STAT) = false := by
  cases p <;> decide +kernel

theorem eventReg_dbBase (p : Port) : eventReg (portOff p Reg.HIF_DB_BASE_LO) = false ∧
    eventReg (portOff p Reg.HIF_DB_BASE_LO + 4) = false := by
  cases p <;> decide +kernel

theorem Serves.fetches (h : Serves L s t) (p : Port) : t.fetches p = s.fetches p := by
  have hl : t.linkUp p = s.linkUp p := h.flag (f := onPort p F.HIF_PORT_STAT_LINK_UP) (eventReg_portStat p)
  simp only [State.fetches, State.canSend, hl, h.flag (f := F.LCS_LC_STAT_READY) (by decide +kernel),
    h.flag (f := F.LCS_LC_STAT_HELD) (by decide +kernel)]
  rw [h.port p]

theorem Serves.dbBase (h : Serves L s t) (p : Port) : Machine.dbBase t p = Machine.dbBase s p := by
  obtain ⟨h1, h2⟩ := eventReg_dbBase p
  simp only [Machine.dbBase, State.rd64, h.regs _ h1, h.regs _ h2]

theorem Serves.readMax (h : Serves L s t) (p : Port) : Machine.readMax t p = Machine.readMax s p := by
  rw [Machine.readMax, h.port p]
  rfl

theorem Serves.ripe (h : Serves L s t) (r : Req) : t.ripe r = s.ripe r := by
  rw [h.rest]
  rfl

theorem Serves.firstPending (h : Serves L s t) : Machine.firstPending t = Machine.firstPending s := by
  have ho : t.ops = s.ops := by rw [h.rest]
  have hc : ∀ o, configDue t o = configDue s o := fun o => by
    have h1 : t.atTick = s.atTick := by rw [h.rest]; rfl
    have h2 : t.now = s.now := by rw [h.rest]; rfl
    unfold configDue State.tfNs
    rw [h1, h2, h.rd (f := F.TBS_FRAME_PERIOD) (by decide +kernel)]
  simp only [Machine.firstPending, h.strobeRuns, h.ripe, ho, funext hc]

/-! A tick asks for the pages (R107). -/

/-- A port reads its doorbell page. -/
def readsPage (s : State) (p : Port) : Bool := hifServes s && s.fetches p && Decidable.decide (dbBase s p ≠ 0)
/-- A port serves contexts in MMIO mode instead. -/
def readsNone (s : State) (p : Port) : Bool := hifServes s && s.fetches p && Decidable.decide (dbBase s p = 0)

theorem Serves.readsPage (h : Serves L s t) (p : Port) : Machine.readsPage t p = Machine.readsPage s p := by
  simp only [Machine.readsPage, h.hifServes, h.fetches, h.dbBase]
theorem Serves.readsNone (h : Serves L s t) (p : Port) : Machine.readsNone t p = Machine.readsNone s p := by
  simp only [Machine.readsNone, h.hifServes, h.fetches, h.dbBase]

theorem State.readHost_serves (s : State) (p : Port) (cls : Dma) (addr len : Nat) : Serves L s (s.readHost p cls addr len) :=
  Serves.each fun _ _ => (State.emit_reports _).serves

theorem portTick_serves (s : State) (p : Port) : Serves [p] s (portTick s p) := by
  unfold portTick
  refine Serves.ite (Serves.ite (Serves.trans ?_ (State.readHost_serves _ p _ _ _)) ?_) ?_
  · exact s.setPort_serves p _ (by simp) rfl
  · exact s.setPort_serves p _ (by simp) rfl
  · exact s.setPort_serves p _ (by simp) rfl

theorem portTick_asks (s : State) (p : Port) : ((portTick s p).port p).page = readsPage s p ∧
    ((portTick s p).port p).mmio = readsNone s p := by
  unfold portTick readsPage readsNone
  split
  · rename_i h
    rw [h]
    split
    · rename_i h'
      have e := State.readHost_serves (L := []) (s.setPort p { s.port p with page := true, mmio := false }) p .page (dbBase s p) 256
      obtain ⟨e1, e2⟩ := e.asks p (by simp)
      rw [e1, e2, State.port_setPort_self]
      simp [h']
    · rename_i h'
      rw [State.port_setPort_self]
      simp [not_not.1 h']
  · rename_i h
    rw [State.port_setPort_self, Bool.eq_false_iff.2 h]
    exact ⟨rfl, rfl⟩

theorem mmioServe_serves (s : State) : Serves [.A, .B] s s.mmioServe := by
  unfold State.mmioServe
  refine Serves.ite (Serves.refl s) (Serves.each fun s p => Serves.ite (Serves.trans ?_ (servePort_serves _ _ _ _)) (Serves.refl s))
  exact s.setPort_serves p _ (by cases p <;> decide) rfl

end

end Serving

end Sys2Proof.Machine

namespace Sys2Proof.Machine

section Snap

variable {s t u : State}

/-! ### What a context's fetching starts from (R107, R110) -/

/-- Context k has taken its producer index and its free completion entries, as s shows them. -/
def Snapped (s : State) (k : Ctx) (c : CtxS) : Prop :=
  c.snapDb = (s.before (Reg.HIF_CTX_DB k)).toNat ∧
  c.snapF = cqSize s k - idxDiff (s.rd (F.HIF_CTX_CQ_TAIL_TAIL k)) (s.rd (F.HIF_CTX_CQ_HEAD_HEAD k))

theorem eventReg_snap : ∀ k : Ctx, eventReg (Reg.HIF_CTX_DB k) = false ∧ eventReg (Reg.HIF_CTX_CQ_TAIL k) = false ∧
    eventReg (Reg.HIF_CTX_CQ_HEAD k) = false ∧ eventReg (Reg.HIF_CTX_CFG k) = false := by
  decide +kernel

theorem Snapped.congr {k : Ctx} {c : CtxS} (hw : t.inClk = s.inClk) (hr : ∀ o, eventReg o = false → t.reg o = s.reg o)
    (h : Snapped t k c) : Snapped s k c := by
  obtain ⟨h1, h2, h3, h4⟩ := eventReg_snap k
  obtain ⟨e1, e2⟩ := h
  have hb : t.before (Reg.HIF_CTX_DB k) = s.before (Reg.HIF_CTX_DB k) := by unfold State.before; rw [hw, hr _ h1]
  have hc : cqSize t k = cqSize s k := by unfold cqSize; rw [State.rd_of_reg (f := F.HIF_CTX_CFG_CQ_LOG k) (hr _ h4)]
  rw [hb] at e1
  rw [hc, State.rd_of_reg (f := F.HIF_CTX_CQ_TAIL_TAIL k) (hr _ h2), State.rd_of_reg (f := F.HIF_CTX_CQ_HEAD_HEAD k) (hr _ h3)] at e2
  exact ⟨e1, e2⟩

theorem snapCtx_frame (s : State) (k : Ctx) : (∃ r c, snapCtx s k = { s with regs := r, ctxs := c }) ∧
    (∀ o, eventReg o = false → (snapCtx s k).reg o = s.reg o) ∧ Snapped s k ((snapCtx s k).ctx k) ∧
    ∀ j, j ≠ k → (snapCtx s k).ctx j = s.ctx j := by
  unfold snapCtx
  extract_lets free
  refine ⟨⟨_, _, rfl⟩, fun o ho => ?_, ?_, fun j hj => State.ctx_setCtx_ne _ _ hj⟩
  · refine (State.reg_wr_ne s (f := F.HIF_CTX_STAT_CQ_WAIT k) 0 fun e => ?_)
    rw [e, show eventReg (F.HIF_CTX_STAT_CQ_WAIT k).off = true from eventReg_ctxStat k] at ho
    cases ho
  · rw [State.ctx_setCtx_self]
    exact ⟨rfl, rfl⟩

theorem snapEach (l : List Ctx) (s : State) : (∃ r c, each l snapCtx s = { s with regs := r, ctxs := c }) ∧
    (∀ o, eventReg o = false → (each l snapCtx s).reg o = s.reg o) ∧
    ∀ k, (k ∈ l → Snapped s k ((each l snapCtx s).ctx k)) ∧ (k ∉ l → (each l snapCtx s).ctx k = s.ctx k) := by
  induction l generalizing s with
  | nil => exact ⟨⟨s.regs, s.ctxs, rfl⟩, fun _ _ => rfl, fun k => ⟨fun h => absurd h List.not_mem_nil, fun _ => rfl⟩⟩
  | cons a l ih =>
    obtain ⟨⟨r, c, e⟩, hr, hs, hn⟩ := snapCtx_frame s a
    obtain ⟨⟨r', c', e'⟩, hr', hk⟩ := ih (snapCtx s a)
    rw [each_cons]
    refine ⟨⟨r', c', by rw [e', e]⟩, fun o ho => (hr' o ho).trans (hr o ho), fun k => ⟨fun hm => ?_, fun hm => ?_⟩⟩
    · by_cases hl : k ∈ l
      · exact ((hk k).1 hl).congr (by rw [e]) hr
      · obtain rfl := (List.mem_cons.1 hm).resolve_right hl
        rw [(hk k).2 hl]
        exact hs
    · simp only [List.mem_cons, not_or] at hm
      rw [(hk k).2 hm.2, hn k hm.1]

end Snap

section Ask

variable {s t u : State} {p q : Port}

/-! ### Ports that read no page -/

/-- Port p serves its contexts in MMIO mode, where it waits to. -/
def serveMmio (s : State) (p : Port) : State :=
  if (s.port p).mmio then
    servePort p (Vector.replicate 64 0#32) (fun s k => s.flag (F.HIF_CTX_CFG_DB_MODE k)) (s.setPort p { s.port p with mmio := false })
  else s

theorem serveMmio_port (s : State) (p q : Port) : ((serveMmio s p).port q).page = (s.port q).page ∧
    ((serveMmio s p).port q).mmio = ((s.port q).mmio && Decidable.decide (q ≠ p)) := by
  unfold serveMmio
  split
  · obtain ⟨e1, e2⟩ := (servePort_serves (L := []) p (Vector.replicate 64 0#32) (fun s k => s.flag (F.HIF_CTX_CFG_DB_MODE k))
      (s.setPort p { s.port p with mmio := false })).asks q (by simp)
    rw [e1, e2]
    by_cases h : q = p
    · subst h
      rw [State.port_setPort_self]
      simp
    · rw [State.port_setPort_ne _ _ h]
      simp [h]
  · rename_i h
    refine ⟨rfl, ?_⟩
    by_cases e : q = p
    · subst e
      simp [Bool.eq_false_iff.2 h]
    · simp [e]

theorem mmioServe_eq (s : State) : s.mmioServe = if firstPending s then s else serveMmio (serveMmio s .A) .B := rfl

theorem mmioServe_port (s : State) (p : Port) : ((s.mmioServe).port p).page = (s.port p).page ∧
    ((s.mmioServe).port p).mmio = ((s.port p).mmio && firstPending s) := by
  rw [mmioServe_eq]
  split
  · rename_i h
    simp [h]
  · rename_i h
    obtain ⟨a1, a2⟩ := serveMmio_port s .A p
    obtain ⟨b1, b2⟩ := serveMmio_port (serveMmio s .A) .B p
    rw [b1, b2, a1, a2, Bool.eq_false_iff.2 h]
    cases p <;> simp

/-- The reads of a page, in requests no larger than the programmed size. -/
theorem State.readHost_sent (s : State) (p : Port) (cls : Dma) (addr len : Nat) {i : Nat} (hi : i < ceilDiv len (readMax s p)) :
    Out.read p cls (addr + readMax s p * i) (min (readMax s p) (len - readMax s p * i)) ∈
      (s.readHost p cls addr len).sent.drop s.sent.length := by
  have emits : ∀ (f : Nat → Out) (l : List Nat) (s : State), (each l (fun s i => s.emit (f i)) s).sent = s.sent ++ l.map f := by
    intro f l
    induction l with
    | nil => simp [each]
    | cons a l ih =>
      intro s
      rw [each_cons, ih]
      simp [State.emit]
  unfold State.readHost
  dsimp only
  rw [emits (fun i => Out.read p cls (addr + readMax s p * i) (min (readMax s p) (len - readMax s p * i))), List.drop_left]
  exact List.mem_map.2 ⟨i, List.mem_range.2 hi, rfl⟩

theorem portTick_sent (s : State) (p : Port) (h : readsPage s p = true) {i : Nat} (hi : i < ceilDiv 256 (readMax s p)) :
    Out.read p .page (dbBase s p + readMax s p * i) (min (readMax s p) (256 - readMax s p * i)) ∈
      (portTick s p).sent.drop s.sent.length := by
  simp only [readsPage, Bool.and_eq_true, decide_eq_true_eq] at h
  unfold portTick
  rw [if_pos (by simp [h]), if_pos h.2]
  have hm : readMax (s.setPort p { s.port p with page := true, mmio := false }) p = readMax s p := by
    unfold readMax
    rw [State.port_setPort_self]
  have hs : (s.setPort p { s.port p with page := true, mmio := false }).sent = s.sent := by cases p <;> rfl
  have := State.readHost_sent (s.setPort p { s.port p with page := true, mmio := false }) p .page (dbBase s p) 256 (hm.symm ▸ hi)
  rwa [hm, hs] at this

end Ask

end Sys2Proof.Machine

namespace Sys2Proof.Machine

section Opens

variable {s t u : State}

/-! ### A frame tick, in its parts (R34) -/

/-- The tick is marked and the frame's notes start anew. -/
def State.frameAt (s : State) : State :=
  { s with tickClk := s.clk, tickGtc := s.gtc, half := false, latches := 0, cutoff := false, horizon := s.rd F.TBS_ADMIT_HORIZON }

/-- Source 34 ceases, the follower's frame is taken, the counters step and SYNC_OUT takes its level. -/
def State.frameCounts (s : State) : State :=
  let s := (s.inactive 34).syncTick
  ((s.wr F.TBS_FRAME_CNT_FRAME ((s.rd F.TBS_FRAME_CNT_FRAME + 1) % 2 ^ 32)).wr64 Reg.TBS_TICK_GTC_LO s.now).syncRises

/-- What the ending frame measured is shown. -/
def frameShows (raws : List (Fin 64 × List Raw)) (offs : List (Coil × BitVec 16)) (s : State) : State :=
  takeOffsets offs (auxPublish raws (countMinutes s))

/-- What follows the half-frame's work: index pulses are forgotten and calibrations begin. -/
def frameBegins (s : State) : State :=
  let s := each allAxes forgetIndex s
  each s.ops calStart s

/-- Fetching starts anew, and the ports ask for their pages. -/
def frameAsks (s : State) : State := portTick (portTick (each allCtxs snapCtx s).dwellTick .A) .B

theorem exec_frameTick (raws : List (Fin 64 × List Raw)) (offs : List (Coil × BitVec 16)) (missed : List Bank)
    (h : s.ticking = true) : ∃ a, exec (.frameTick raws offs missed) s = .next
      (let z := ({ s.advTo (s.tickClk + s.period) with adcs := a } : State).frameAt
       State.arranged z (frameAsks (frameBegins (halfWork missed (frameShows raws offs z.frameCounts)))).mmioServe) := by
  obtain ⟨a, ha⟩ := foldl_adcs (fun s b => auxRun_adcs s b (s.tickClk + s.period)) allBanks s
  refine ⟨a, ?_⟩
  change execFrameTick raws offs missed s = _
  unfold execFrameTick
  rw [if_neg (by simp [h])]
  have e : (each allBanks (fun s b => auxRun s b (s.tickClk + s.period)) s).advTo (s.tickClk + s.period) =
      { s.advTo (s.tickClk + s.period) with adcs := a } := by
    rw [each, ha]
    unfold State.advTo
    split
    · rfl
    · rfl
  rw [e]
  rfl

/-- From s to t a frame has begun (R34, R46). -/
structure Opened (s t : State) : Prop where
  rest : t = { s with regs := t.regs, tbs := t.tbs, fcs := { s.fcs with srcs := t.fcs.srcs } }
  regs : ∀ o, o ∉ [Reg.TBS_FRAME_CNT, Reg.TBS_TICK_GTC_LO, Reg.TBS_TICK_GTC_HI] → t.reg o = s.reg o
  count : t.rd F.TBS_FRAME_CNT_FRAME = (s.rd F.TBS_FRAME_CNT_FRAME + 1) % 2 ^ 32
  stamp : t.rd64 Reg.TBS_TICK_GTC_LO = s.now
  rise : t.tbs.syncRise = if syncMode s = 1 ∨ syncMode s = 3 then some s.clk else none
  src : ∀ j, t.src j = if j = 34 then { s.src j with active := false } else s.src j

theorem State.rd64_wr64 (s : State) (o v : Nat) (h : v < 2 ^ 64) : (s.wr64 o v).rd64 o = v := by
  unfold State.rd64 State.wr64
  rw [State.reg_setReg_ne _ _ (by omega), State.reg_setReg_self, State.reg_setReg_self]
  simp only [BitVec.toNat_ofNat]
  omega

theorem State.inactive_cases (s : State) (k j : Nat) :
    (s.inactive k).src j = if j = k then { s.src j with active := false } else s.src j := by
  split
  · rename_i h
    subst h
    exact s.inactive_self j
  · exact s.inactive_ne ‹_›

/-- The counters of the frame step. -/
def State.frameSteps (s : State) : State :=
  (s.wr F.TBS_FRAME_CNT_FRAME ((s.rd F.TBS_FRAME_CNT_FRAME + 1) % 2 ^ 32)).wr64 Reg.TBS_TICK_GTC_LO s.now

theorem State.now_lt (s : State) : s.now < 2 ^ 64 := Nat.mod_lt _ (by decide)

theorem State.frameSteps_regs (s : State) :
    (∀ o, o ∉ [Reg.TBS_FRAME_CNT, Reg.TBS_TICK_GTC_LO, Reg.TBS_TICK_GTC_HI] → s.frameSteps.reg o = s.reg o) ∧
    s.frameSteps.rd F.TBS_FRAME_CNT_FRAME = (s.rd F.TBS_FRAME_CNT_FRAME + 1) % 2 ^ 32 ∧
    s.frameSteps.rd64 Reg.TBS_TICK_GTC_LO = s.now := by
  refine ⟨fun o ho => ?_, ?_, State.rd64_wr64 _ _ _ s.now_lt⟩
  · simp only [List.mem_cons, List.not_mem_nil, or_false, not_or] at ho
    obtain ⟨h1, h2, h3⟩ := ho
    exact ((State.reg_setReg_ne _ _ h3).trans (State.reg_setReg_ne _ _ h2)).trans (State.reg_wr_ne _ _ h1)
  · have e : s.frameSteps.reg Reg.TBS_FRAME_CNT = (s.wr F.TBS_FRAME_CNT_FRAME ((s.rd F.TBS_FRAME_CNT_FRAME + 1) % 2 ^ 32)).reg
        Reg.TBS_FRAME_CNT := (State.reg_setReg_ne _ _ (by decide)).trans (State.reg_setReg_ne _ _ (by decide))
    rw [State.rd_of_reg (f := F.TBS_FRAME_CNT_FRAME) e, State.rd_wr_self _ (by decide)]
    exact Nat.mod_mod _ _

theorem State.frameSteps_frame (s : State) : ∃ r, s.frameSteps = { s with regs := r } := ⟨_, rfl⟩

/-- What ends a source and takes the follower's frame changes the sources and the time base alone. -/
theorem State.syncTick_frame (s : State) : ∃ b, s.syncTick = { s with tbs := b } := ⟨_, rfl⟩

theorem State.syncRises_frame (s : State) (ha : s.atTick = true) : ∃ b, s.syncRises = { s with tbs := b } ∧
    b.syncRise = if syncMode s = 1 ∨ syncMode s = 3 then some s.clk else none := by
  refine ⟨_, rfl, ?_⟩
  simp [ha]

theorem State.frameCounts_opened (s : State) (ha : s.atTick = true) : Opened s s.frameCounts := by
  obtain ⟨x, hx⟩ := s.inactive_frame 34
  have hs := s.inactive_cases 34
  rw [hx] at hs
  obtain ⟨b, hb⟩ := State.syncTick_frame { s with fcs := { s.fcs with srcs := x } }
  have e : s.frameCounts = (({ s with fcs := { s.fcs with srcs := x }, tbs := b } : State).frameSteps).syncRises := by
    rw [← hb, ← hx]
    rfl
  generalize hv : ({ s with fcs := { s.fcs with srcs := x }, tbs := b } : State) = v at *
  obtain ⟨h1, h2, h3⟩ := v.frameSteps_regs
  obtain ⟨r, hr⟩ := v.frameSteps_frame
  have hreg : ∀ o, v.reg o = s.reg o := fun o => by rw [← hv]; rfl
  have hm : syncMode v.frameSteps = syncMode s :=
    State.rd_of_reg (f := F.TBS_SYNC_CTRL_MODE) ((h1 _ (by decide)).trans (hreg _))
  obtain ⟨b', hb', hrise⟩ := v.frameSteps.syncRises_frame (by rw [hr, ← hv]; exact ha)
  rw [e, hb']
  refine ⟨by rw [hr, ← hv], fun o ho => (h1 o ho).trans (hreg o), ?_, ?_, ?_, fun j => ?_⟩
  · exact h2.trans (by rw [State.rd_of_reg (f := F.TBS_FRAME_CNT_FRAME) (hreg _)])
  · exact h3.trans (by rw [← hv]; rfl)
  · rw [hrise, hm, hr, ← hv]
  · rw [← hs j]
    exact State.src_congr (by rw [hr, ← hv]) j

theorem State.frameAt_atTick (s : State) (h : s.ticking = true) : s.frameAt.atTick = true := by
  simp [State.frameAt, State.atTick, h]

end Opens

end Sys2Proof.Machine

namespace Sys2Proof.Machine

section Begins

variable {s t u w z : State}

/-! ### The parts of a frame tick, together -/

theorem frameShows_stirs {R : Nat → Bool} {P : List Part} (hR : ∀ e : Fin 64, R (Reg.ADC_AUX e) = true)
    (raws : List (Fin 64 × List Raw)) (offs : List (Coil × BitVec 16)) (s : State) : Stirs R P s (frameShows raws offs s) :=
  ((countMinutes_stirs s).trans (auxPublish_stirs hR raws _)).trans (takeOffsets_stirs offs _)

theorem forgetIndexes_stirs {R : Nat → Bool} {P : List Part} (s : State) : Stirs R P s (each allAxes forgetIndex s) :=
  Stirs.each forgetIndex_stirs

theorem calStarts_stirs {P : List Part} (l : List Op) (s : State) (hp : Part.plan ∈ P) (ho : Part.ops ∈ P) (hc : Part.clp ∈ P)
    (hg : Part.gdr ∈ P) : Stirs frameReg P s (each l calStart s) :=
  Stirs.each fun s o => calStart_stirs s o hp ho hc hg

theorem frameBegins_stirs (s : State) : Stirs frameReg [.plan, .ops, .clp, .gdr] s (frameBegins s) :=
  (forgetIndexes_stirs s).trans (calStarts_stirs _ _ (by decide) (by decide) (by decide) (by decide))

theorem frameBegins_idxSeen (s : State) (n : Axis) : ((frameBegins s).fbk n).idxSeen = false := by
  have h := calStarts_stirs (P := [.plan, .ops, .clp, .gdr]) (each allAxes forgetIndex s).ops (each allAxes forgetIndex s)
    (by decide) (by decide) (by decide) (by decide)
  exact (h.fbk n).2 (forgetIndex_each allAxes s (List.mem_finRange n))

/-- All of the work of a frame tick between its opening and its fetching. -/
def frameWork (raws : List (Fin 64 × List Raw)) (offs : List (Coil × BitVec 16)) (missed : List Bank) (s : State) : State :=
  frameBegins (halfWork missed (frameShows raws offs s))

variable (raws : List (Fin 64 × List Raw)) (offs : List (Coil × BitVec 16)) (missed : List Bank)

theorem frameWork_stirs (s : State) : Stirs frameReg [.plan, .miss, .src, .trips, .ramp, .clp, .stream, .gdr, .ops] s
    (frameWork raws offs missed s) :=
  ((frameShows_stirs frameReg_aux raws offs s).trans ((halfWork_stirs missed _).mono frameReg_of_workReg (by decide))).trans
    ((frameBegins_stirs _).parts (by decide))

theorem frameWork_inactive (s : State) {j : Nat} (h : (s.src j).active = false) :
    ((frameWork raws offs missed s).src j).active = false := by
  have e1 := (frameShows_stirs (P := []) frameReg_aux raws offs s).src (by decide)
  have e2 := (frameBegins_stirs (halfWork missed (frameShows raws offs s))).src (by decide)
  rw [frameWork, State.src_congr e2]
  exact halfWork_inactive missed _ (by rw [State.src_congr e1]; exact h)

theorem frameShows_keeps (s : State) (h : Keeps z s) : Keeps z (frameShows raws offs s) :=
  takeOffsets_keeps _ _ (auxPublish_keeps _ _ (countMinutes_keeps _ h))

theorem frameBegins_keeps (s : State) (h : Keeps z s) : Keeps z (frameBegins s) :=
  Keeps.each (fun _ _ h => calStart_keeps _ _ h) (Keeps.each (fun _ _ h => Keeps.ite (State.setFbk_keeps _ _ _ h) h) h)

theorem frameWork_keeps (s : State) (h : Keeps z s) : Keeps z (frameWork raws offs missed s) :=
  frameBegins_keeps _ (halfWork_keeps _ _ (frameShows_keeps raws offs _ h))

theorem State.frameCounts_keeps (s : State) (h : Keeps z s) : Keeps z s.frameCounts :=
  State.syncRises_keeps _ (State.wr64_keeps (State.wr_keeps (State.syncTick_keeps _ (State.inactive_keeps _ _ h)) _ _) _ _)

/-! ### What the fetching of the frame begins with -/

theorem State.dwellTick_serves (s : State) : Serves [.A, .B] s s.dwellTick :=
  ⟨rfl, fun _ _ => rfl, fun _ => ⟨rfl, rfl⟩, fun p => by cases p <;> rfl, fun p _ => by cases p <;> exact ⟨rfl, rfl⟩⟩

theorem frameAsks_serves (s : State) : Serves [.A, .B] (each allCtxs snapCtx s) (frameAsks s) :=
  ((State.dwellTick_serves _).trans ((portTick_serves _ .A).mono (by decide))).trans ((portTick_serves _ .B).mono (by decide))

/-- How each port fetches, once both were asked. -/
theorem frameAsks_port (s : State) (p : Port) : ((frameAsks s).port p).page = readsPage (frameAsks s) p ∧
    ((frameAsks s).port p).mmio = readsNone (frameAsks s) p := by
  generalize hd : (each allCtxs snapCtx s).dwellTick = d
  have e : frameAsks s = portTick (portTick d .A) .B := by rw [frameAsks, hd]
  have hA := portTick_serves d .A
  have hB := portTick_serves (portTick d .A) .B
  rw [e]
  cases p
  · obtain ⟨a1, a2⟩ := portTick_asks d .A
    obtain ⟨b1, b2⟩ := hB.asks .A (by decide)
    rw [b1, b2, a1, a2, hB.readsPage, hB.readsNone, hA.readsPage, hA.readsNone]
    exact ⟨rfl, rfl⟩
  · obtain ⟨b1, b2⟩ := portTick_asks (portTick d .A) .B
    rw [b1, b2, hB.readsPage, hB.readsNone]
    exact ⟨rfl, rfl⟩

/-- The reads of the pages that the ports are asked for. -/
theorem frameAsks_sent (s : State) (p : Port) (h : readsPage (frameAsks s) p = true) {i : Nat}
    (hi : i < ceilDiv 256 (readMax (frameAsks s) p)) :
    Out.read p .page (dbBase (frameAsks s) p + readMax (frameAsks s) p * i)
      (min (readMax (frameAsks s) p) (256 - readMax (frameAsks s) p * i)) ∈ (frameAsks s).sent.drop s.sent.length := by
  generalize hd : (each allCtxs snapCtx s).dwellTick = d
  have hk : Keeps s d := by
    rw [← hd]
    exact State.dwellTick_keeps _ (Keeps.each (fun _ _ h => snapCtx_keeps _ _ h) (Keeps.refl s))
  have e : frameAsks s = portTick (portTick d .A) .B := by rw [frameAsks, hd]
  have hA := portTick_serves d .A
  have hB := portTick_serves (portTick d .A) .B
  have kA : Keeps d (portTick d .A) := portTick_keeps _ _ (Keeps.refl d)
  have kB : Keeps (portTick d .A) (portTick (portTick d .A) .B) := portTick_keeps _ _ (Keeps.refl _)
  rw [e] at h hi ⊢
  cases p
  · rw [hB.readsPage, hA.readsPage] at h
    rw [hB.readMax, hA.readMax] at hi ⊢
    rw [hB.dbBase, hA.dbBase]
    exact mem_drop_of_le hk.out.length_le (mem_drop_of_prefix kB.out (portTick_sent d .A h hi))
  · rw [hB.readsPage] at h
    rw [hB.readMax] at hi ⊢
    rw [hB.dbBase]
    exact mem_drop_of_le (hk.trans kA).out.length_le (portTick_sent _ .B h hi)

theorem frameAsks_keeps (s : State) (h : Keeps z s) : Keeps z (frameAsks s) :=
  portTick_keeps _ _ (portTick_keeps _ _ (State.dwellTick_keeps _ (Keeps.each (fun _ _ h => snapCtx_keeps _ _ h) h)))

/-- From w to t the fetching of a frame has begun; z is the state against which it is arranged. -/
structure Asks (z w t : State) : Prop where
  rest : t = { w with
    regs := t.regs, seqDone := t.seqDone, cntNow := t.cntNow, portA := t.portA, portB := t.portB, ctxs := t.ctxs
    sent := t.sent, pmu := { w.pmu with since := t.pmu.since } }
  regs : ∀ o, eventReg o = false → t.reg o = w.reg o
  snap : ∀ k, Snapped w k (t.ctx k)
  page : ∀ p, (t.port p).page = readsPage t p
  mmio : ∀ p, (t.port p).mmio = (readsNone t p && firstPending t)
  reads : ∀ p, readsPage t p = true → ∀ i < ceilDiv 256 (readMax t p),
    Out.read p .page (dbBase t p + readMax t p * i) (min (readMax t p) (256 - readMax t p * i)) ∈ t.sent.drop z.sent.length

theorem frameAsks_asks (w : State) (hz : Keeps z w) : Asks z w (State.arranged z (frameAsks w).mmioServe) := by
  obtain ⟨⟨r, c, e⟩, hr, hs⟩ := snapEach allCtxs w
  have ha := frameAsks_serves w
  have hm := mmioServe_serves (frameAsks w)
  have hv : Serves [.A, .B] (frameAsks w).mmioServe (State.arranged z (frameAsks w).mmioServe) := (State.arranged_reports z).serves
  have hmv := hm.trans hv
  have hall := ha.trans hmv
  have km : Keeps (frameAsks w) (frameAsks w).mmioServe := State.mmioServe_keeps _ (Keeps.refl _)
  have kz : Keeps z (frameAsks w).mmioServe := (frameAsks_keeps w hz).trans km
  have port : ∀ p, ((State.arranged z (frameAsks w).mmioServe).port p).page = readsPage (frameAsks w) p ∧
      ((State.arranged z (frameAsks w).mmioServe).port p).mmio = (readsNone (frameAsks w) p && firstPending (frameAsks w)) := fun p => by
    have hv' : Serves [] (frameAsks w).mmioServe (State.arranged z (frameAsks w).mmioServe) := (State.arranged_reports z).serves
    obtain ⟨v1, v2⟩ := hv'.asks p List.not_mem_nil
    obtain ⟨m1, m2⟩ := mmioServe_port (frameAsks w) p
    obtain ⟨a1, a2⟩ := frameAsks_port w p
    rw [v1, v2, m1, m2, a1, a2]
    exact ⟨rfl, rfl⟩
  refine ⟨?_, fun o ho => (hall.regs o ho).trans (hr o ho), fun k => ?_, fun p => ?_, fun p => ?_, fun p h i hi => ?_⟩
  · have e' := hall.rest
    rw [e] at e'
    exact e'
  · obtain ⟨e1, e2⟩ := (hs k).1 (List.mem_finRange k)
    obtain ⟨f1, f2⟩ := hall.ctx k
    exact ⟨f1.trans e1, f2.trans e2⟩
  · rw [(port p).1, hmv.readsPage]
  · rw [(port p).2, hmv.readsNone, hmv.firstPending]
  · rw [hmv.readsPage] at h
    rw [hmv.readMax] at hi ⊢
    rw [hmv.dbBase]
    refine State.arranged_sent_mem kz.out.length_le rfl ?_
    exact mem_drop_of_le hz.out.length_le (mem_drop_of_prefix km.out (frameAsks_sent w p h hi))

end Begins

end Sys2Proof.Machine

namespace Sys2Proof.Machine

section Settle

variable {s t u w z : State} (raws : List (Fin 64 × List Raw)) (offs : List (Coil × BitVec 16)) (missed : List Bank)

theorem frameReg_kept : frameReg Reg.TBS_FRAME_CNT = false ∧ frameReg Reg.TBS_TICK_GTC_LO = false ∧
    frameReg (Reg.TBS_TICK_GTC_LO + 4) = false ∧ ∀ k : Ctx, frameReg (Reg.HIF_CTX_DB k) = false := by
  decide +kernel

theorem frameReg_of_eventReg (o : Nat) (h : frameReg o = false) : eventReg o = false := by
  by_contra hc
  rw [frameReg_of_stirReg o (stirReg_of_eventReg o (by simpa using hc))] at h
  cases h

/-- A frame tick at state u, from its opening at v over its work at w to its end at t, arranged against z. -/
structure Framed (u z v w t : State) : Prop where
  ends : ∃ a, z = ({ u with adcs := a } : State).frameAt
  opens : Opened z v
  works : Stirs frameReg [.plan, .miss, .src, .trips, .ramp, .clp, .stream, .gdr, .ops] v w
  quiet : ∀ j, (v.src j).active = false → (w.src j).active = false
  index : ∀ n, (w.fbk n).idxSeen = false
  asks : Asks z w t

theorem exec_frameTick_framed (h : s.ticking = true) : ∃ z v w t, exec (.frameTick raws offs missed) s = .next t ∧
    Framed (s.advTo (s.tickClk + s.period)) z v w t := by
  obtain ⟨a, e⟩ := exec_frameTick raws offs missed h
  generalize hu : s.advTo (s.tickClk + s.period) = u at *
  have ht : u.ticking = true := by rw [← hu, State.advTo_ticking]; exact h
  generalize hz : ({ u with adcs := a } : State).frameAt = z at *
  have hat : z.atTick = true := by rw [← hz]; exact State.frameAt_atTick _ ht
  exact ⟨z, z.frameCounts, frameWork raws offs missed z.frameCounts, _, e, ⟨a, hz.symm⟩, z.frameCounts_opened hat,
    frameWork_stirs raws offs missed _, fun j hj => frameWork_inactive raws offs missed _ hj,
    fun n => frameBegins_idxSeen _ n, frameAsks_asks _ (frameWork_keeps raws offs missed _ (State.frameCounts_keeps z (Keeps.refl z)))⟩

variable {v : State}

/-- What a frame tick leaves of the rest of the state. -/
theorem Framed.kept (h : Framed u z v w t) : t.clk = u.clk ∧ t.gtc = u.gtc ∧ t.tickClk = u.clk ∧ t.tickGtc = u.gtc ∧
    t.half = false ∧ t.cutoff = false ∧ t.latches = 0 ∧ t.horizon = u.rd F.TBS_ADMIT_HORIZON ∧ t.tbs = v.tbs ∧
    w.inClk.words = u.inClk.words ∧ t.reqs = u.reqs ∧ t.bufs = u.bufs ∧ t.dirty = u.dirty ∧ t.lcs = u.lcs ∧ t.ckg = u.ckg ∧
    t.pending = u.pending ∧ t.fbks = w.fbks ∧ t.fcs.srcs = w.fcs.srcs ∧ z.sent = u.sent := by
  obtain ⟨a, rfl⟩ := h.ends
  have ew := h.works.rest
  rw [h.opens.rest] at ew
  have et := h.asks.rest
  have hf : t.fbks = w.fbks := (congrArg State.fbks et :)
  have hs : t.fcs = w.fcs := (congrArg State.fcs et :)
  have hi : w.inClk.words = u.inClk.words := (congrArg (fun x => x.inClk.words) ew :)
  rw [ew] at et
  exact ⟨(congrArg State.clk et :), (congrArg State.gtc et :), (congrArg State.tickClk et :), (congrArg State.tickGtc et :),
    (congrArg State.half et :), (congrArg State.cutoff et :), (congrArg State.latches et :), (congrArg State.horizon et :),
    (congrArg State.tbs et :), hi, (congrArg State.reqs et :), (congrArg State.bufs et :), (congrArg State.dirty et :),
    (congrArg State.lcs et :), (congrArg State.ckg et :), (congrArg State.pending et :), hf, congrArg FcsS.srcs hs, rfl⟩

theorem Framed.reg (h : Framed u z v w t) {o : Nat} (ho : frameReg o = false) : t.reg o = v.reg o :=
  (h.asks.regs o (frameReg_of_eventReg o ho)).trans (h.works.regs o ho)

theorem Framed.base_reg (h : Framed u z v w t) (o : Nat) : z.reg o = u.reg o := by
  obtain ⟨a, rfl⟩ := h.ends
  rfl

/-- The counters that a frame tick steps. -/
theorem Framed.counters (h : Framed u z v w t) : t.rd F.TBS_FRAME_CNT_FRAME = (u.rd F.TBS_FRAME_CNT_FRAME + 1) % 2 ^ 32 ∧
    t.rd64 Reg.TBS_TICK_GTC_LO = u.now := by
  obtain ⟨f1, f2, f3, -⟩ := frameReg_kept
  constructor
  · rw [State.rd_of_reg (f := F.TBS_FRAME_CNT_FRAME) (h.reg f1), h.opens.count,
      State.rd_of_reg (f := F.TBS_FRAME_CNT_FRAME) (h.base_reg _)]
  · have e : t.rd64 Reg.TBS_TICK_GTC_LO = v.rd64 Reg.TBS_TICK_GTC_LO := by unfold State.rd64; rw [h.reg f2, h.reg f3]
    obtain ⟨a, hz⟩ := h.ends
    rw [e, h.opens.stamp, hz]
    rfl

/-- What a context's fetching starts from at a frame tick. -/
theorem Framed.snap (h : Framed u z v w t) (k : Ctx) : (t.ctx k).snapDb = (u.before (Reg.HIF_CTX_DB k)).toNat ∧
    (t.ctx k).snapF = cqSize t k - idxDiff (t.rd (F.HIF_CTX_CQ_TAIL_TAIL k)) (t.rd (F.HIF_CTX_CQ_HEAD_HEAD k)) := by
  obtain ⟨e1, -⟩ := h.asks.snap k
  have hw : t.inClk = w.inClk := (congrArg State.inClk h.asks.rest :)
  obtain ⟨-, e2⟩ := (h.asks.snap k).congr (s := t) hw.symm fun o ho => (h.asks.regs o ho).symm
  refine ⟨?_, e2⟩
  obtain ⟨-, -, -, -, -, -, -, -, -, hi, -⟩ := h.kept
  have hd : w.reg (Reg.HIF_CTX_DB k) = u.reg (Reg.HIF_CTX_DB k) := by
    obtain ⟨-, -, -, f4⟩ := frameReg_kept
    rw [h.works.regs _ (f4 k), h.opens.regs _ (by simp [Reg.HIF_CTX_DB, Reg.TBS_FRAME_CNT, Reg.TBS_TICK_GTC_LO, Reg.TBS_TICK_GTC_HI]; omega),
      h.base_reg]
  rw [e1, State.before, State.before, hi, hd]

theorem Framed.source (h : Framed u z v w t) : (t.src 34).active = false := by
  obtain ⟨-, -, -, -, -, -, -, -, -, -, -, -, -, -, -, -, -, hs, -⟩ := h.kept
  rw [State.src_congr hs]
  refine h.quiet 34 ?_
  rw [h.opens.src, if_pos rfl]

theorem Framed.rise (h : Framed u z v w t) :
    t.tbs.syncRise = if syncMode u = 1 ∨ syncMode u = 3 then some u.clk else none := by
  obtain ⟨-, -, -, -, -, -, -, -, ht, -⟩ := h.kept
  rw [ht, h.opens.rise]
  obtain ⟨a, rfl⟩ := h.ends
  rfl

end Settle

/-- Settles O48, by the parts of a frame tick: its opening, its work, which stirs what it opened with nowhere, and its fetching. -/
theorem frameTicksBeginAFrame : Obligations.FrameTicksBeginAFrame := by
  unfold Obligations.FrameTicksBeginAFrame
  intro s raws offs missed ht u
  obtain ⟨z, v, w, t, e, h⟩ := exec_frameTick_framed raws offs missed ht
  obtain ⟨c1, c2, c3, c4, c5, c6, c7, c8, -, -, c9, c10, c11, c12, c13, c14, hf, -, hz⟩ := h.kept
  obtain ⟨d1, d2⟩ := h.counters
  refine ⟨t, e, ?_⟩
  beta_reduce
  refine ⟨c1, c2, c3, c4, c5, c6, c7, c8.trans (s.advTo_rd _ _), d1.trans (by rw [State.advTo_rd]), ?_, h.source, ?_, h.snap,
    fun p => ⟨h.asks.page p, h.asks.mmio p, ?_⟩, fun n => ?_, ?_, ?_, ?_, ?_, ?_, ?_⟩
  · rw [d2, Nat.mod_eq_of_lt (State.now_lt _)]
  · rw [h.rise]
    simp only [syncMode, State.advTo_rd]
    rfl
  · intro m hp i hi
    have := h.asks.reads p (by rw [← h.asks.page p]; exact hp) i hi
    rwa [hz, State.advTo_sent] at this
  · rw [State.fbk, hf]
    exact h.index n
  · rw [c9, State.advTo_reqs]
  · rw [c10, State.advTo_bufs]
  · rw [c11, State.advTo_dirty]
  · rw [c12, State.advTo_lcs]
  · rw [c13, State.advTo_ckg]
  · rw [c14, State.advTo_pending]

end Sys2Proof.Machine

namespace Sys2Proof.Machine

section Turns

variable {α : Type} {l : List α} {f : State → α → State} {s t : State} {b : α}

/-! ### One step among others -/

/-- What a step brings about, and every step keeps, holds after all where that step is among them. -/
theorem each_reaches {I p : State → Prop} (hI : ∀ s a, I s → I (f s a)) (hb : ∀ s, I s → p (f s b))
    (hk : ∀ s a, a ≠ b → I s → p s → p (f s a)) (hm : b ∈ l) (h : I s) : p (each l f s) := by
  have keep : ∀ (l : List α) s, I s → p s → p (each l f s) := by
    intro l
    induction l with
    | nil => exact fun _ _ h => h
    | cons a l ih =>
      intro s hs hp
      refine ih _ (hI s a hs) ?_
      by_cases e : a = b
      · subst e; exact hb s hs
      · exact hk s a e hs hp
  induction l generalizing s with
  | nil => exact absurd hm List.not_mem_nil
  | cons a l ih =>
    rw [each_cons]
    by_cases e : b = a
    · subst e; exact keep l _ (hI s b h) (hb s h)
    · exact ih ((List.mem_cons.1 hm).resolve_left e) (hI s a h)

/-- One step among others that are all different from it: what comes before and after is a matter of the others. -/
theorem each_at {T : State → State → Prop} (refl : ∀ s, T s s) (trans : ∀ a b c, T a b → T b c → T a c)
    (hf : ∀ s a, a ≠ b → T s (f s a)) (hm : b ∈ l) (hn : l.Nodup) (s : State) : ∃ u, T s u ∧ T (f u b) (each l f s) := by
  have others : ∀ (l : List α) s, b ∉ l → T s (each l f s) := by
    intro l
    induction l with
    | nil => exact fun s _ => refl s
    | cons a l ih =>
      intro s h
      simp only [List.mem_cons, not_or] at h
      exact trans _ _ _ (hf s a (Ne.symm h.1)) (ih (f s a) h.2)
  obtain ⟨l₁, l₂, rfl⟩ := List.append_of_mem hm
  obtain ⟨-, h2, hd⟩ := List.nodup_append.1 hn
  refine ⟨each l₁ f s, others l₁ s fun h => hd b h b (by simp) rfl, ?_⟩
  rw [each_append, each_cons]
  exact others l₂ _ (List.nodup_cons.1 h2).1

end Turns

section Given

variable {R : Nat → Bool} {P : List Part} {s t u : State} {n m : Axis}

/-! ### What CLP takes of an axis (R14, R168) -/

/-- CLP has taken of axis n its reference with the feed-forward, and the Headland from it is its last stop ramp. -/
def Given (n : Axis) (t : State) : Prop :=
  let r := motionAt (t.plan n).ref t.now
  (t.clp n).xRef = r.1 ∧ (t.clp n).vRef = r.2.1 ∧ (t.clp n).aRef = r.2.2 ∧
  (t.clp n).iff = feedForward t n r.2.1 r.2.2 ∧ (t.clp n).start = startOffset t n ∧
  (t.plan n).stopRamp = headland t.now r.1 r.2.1 r.2.2 (hdec t n) (hjerk t n)

/-- The registers that the setpoints of an axis are made from. -/
def givenRegs (n : Axis) : List Nat :=
  [Reg.MPL_KF n, Reg.MPL_FRIC n, Reg.MPL_FMAX n, Reg.MPL_MASS n, Reg.MPL_SCALE n, Reg.MPL_HDEC n, Reg.MPL_HJERK n, Reg.TBS_FRAME]

/-- What of an axis the setpoints are made from stands from s to t. -/
structure SameGiven (n : Axis) (s t : State) : Prop where
  ref : (t.plan n).ref = (s.plan n).ref
  galley : (t.plan n).galley = (s.plan n).galley
  gtc : t.gtc = s.gtc
  tbs : t.tbs = s.tbs
  regs : ∀ o ∈ givenRegs n, t.reg o = s.reg o

theorem SameGiven.now (h : SameGiven n s t) : t.now = s.now := by rw [State.now, h.gtc]; rfl
theorem SameGiven.rd (h : SameGiven n s t) {f : Fld} (hf : f.off ∈ givenRegs n) : t.rd f = s.rd f := State.rd_of_reg (h.regs _ hf)

theorem SameGiven.period (h : SameGiven n s t) : t.period = s.period := by
  rw [State.period, h.tbs, h.rd (f := F.TBS_FRAME_PERIOD) (by simp [givenRegs, F.TBS_FRAME_PERIOD])]
  rfl

theorem SameGiven.kfEq (h : SameGiven n s t) : Machine.kf t n = Machine.kf s n := by
  rw [Machine.kf, h.rd (f := F.MPL_KF_KF n) (by simp [givenRegs, F.MPL_KF_KF])]
  rfl

theorem SameGiven.closingClamp (h : SameGiven n s t) : Machine.closingClamp t n = Machine.closingClamp s n := by
  have hp : inProg t n = inProg s n := by rw [inProg, h.galley]; rfl
  rw [Machine.closingClamp, Machine.closingClamp, hp, h.kfEq]

theorem SameGiven.feedForward (h : SameGiven n s t) (v a : Rat) : Machine.feedForward t n v a = Machine.feedForward s n v a := by
  have hm : massForce t n a = massForce s n a := by
    rw [massForce, h.rd (f := F.MPL_MASS_MASS n) (by simp [givenRegs, F.MPL_MASS_MASS]),
      h.rd (f := F.MPL_SCALE_SCALE n) (by simp [givenRegs, F.MPL_SCALE_SCALE])]
    rfl
  rw [Machine.feedForward, Machine.feedForward, h.kfEq, h.closingClamp, hm,
    h.rd (f := F.MPL_FRIC_FRIC n) (by simp [givenRegs, F.MPL_FRIC_FRIC]),
    h.rd (f := F.MPL_FMAX_IMAX n) (by simp [givenRegs, F.MPL_FMAX_IMAX])]

theorem SameGiven.startOffset (h : SameGiven n s t) : Machine.startOffset t n = Machine.startOffset s n := by
  rw [Machine.startOffset, Machine.startOffset, h.galley, h.now, h.period]

theorem SameGiven.hdec (h : SameGiven n s t) : Machine.hdec t n = Machine.hdec s n :=
  h.rd (f := F.MPL_HDEC_HDEC n) (by simp [givenRegs, F.MPL_HDEC_HDEC])

theorem SameGiven.hjerk (h : SameGiven n s t) : Machine.hjerk t n = Machine.hjerk s n := by
  rw [Machine.hjerk, h.rd (f := F.MPL_HJERK_HJERK n) (by simp [givenRegs, F.MPL_HJERK_HJERK])]
  rfl

theorem Given.congr (h : Given n s) (k : SameGiven n s t) (hr : (t.plan n).stopRamp = (s.plan n).stopRamp)
    (hc : ∃ f r, t.clp n = { s.clp n with fresh := f, ran := r }) : Given n t := by
  obtain ⟨h1, h2, h3, h4, h5, h6⟩ := h
  obtain ⟨f, r, hc⟩ := hc
  unfold Given
  rw [hc, k.ref, k.now]
  dsimp only
  rw [k.feedForward, k.startOffset, hr, k.hdec, k.hjerk]
  exact ⟨h1, h2, h3, h4, h5, h6⟩

theorem Stirs.sameGiven (h : Stirs R P s t) (hR : ∀ o ∈ givenRegs n, R o = false) (hr : (t.plan n).ref = (s.plan n).ref)
    (hg : (t.plan n).galley = (s.plan n).galley) : SameGiven n s t :=
  ⟨hr, hg, (congrArg State.gtc h.rest :), (congrArg State.tbs h.rest :), fun o ho => h.regs o (hR o ho)⟩

theorem State.addPart_cnd (s : State) (o : Nat) (q : Rat) : ∃ c, s.addPart o q = { s with cnd := c } := by
  unfold State.addPart
  extract_lets v n _ u
  split
  · exact ⟨_, rfl⟩
  · exact ⟨_, rfl⟩

/-- What CLP takes of axis n at reference r. -/
def takes (s : State) (n : Axis) (r : Rat × Rat × Rat) : ClpS :=
  { s.clp n with start := startOffset s n, xRef := r.1, vRef := r.2.1, aRef := r.2.2, iff := feedForward s n r.2.1 r.2.2 }

/-- The plan of axis n with its last stop ramp from reference r. -/
def ramps (s : State) (n : Axis) (r : Rat × Rat × Rat) : AxisPlan :=
  { s.plan n with stopRamp := headland s.now r.1 r.2.1 r.2.2 (Machine.hdec s n) (Machine.hjerk s n) }

/-- Giving an axis its setpoint changes the travel counted, what CLP takes of it, and its last stop ramp. -/
theorem giveSetpoint_shape (s : State) (n : Axis) : ∃ c, ∃ u : State, u = { s with cnd := c } ∧
    giveSetpoint s n = (u.setClp n (takes u n (refNow s n))).setPlan n (ramps u n (refNow s n)) := by
  have hu : ∃ c, (if s.energised n && Decidable.decide (absRat ((refNow s n).1 - (s.clp n).xRef) * s.rd (F.MPL_SCALE_SCALE n) / 10000000000 ≠ 0)
      then s.addPart (68 + 12 * n.val) (absRat ((refNow s n).1 - (s.clp n).xRef) * s.rd (F.MPL_SCALE_SCALE n) / 10000000000)
      else s) = { s with cnd := c } := by
    split
    · exact s.addPart_cnd _ _
    · exact ⟨s.cnd, rfl⟩
  obtain ⟨c, hc⟩ := hu
  refine ⟨c, _, rfl, ?_⟩
  unfold giveSetpoint
  dsimp only
  rw [hc]
  rfl

theorem giveSetpoint_ne (s : State) (h : m ≠ n) : (giveSetpoint s n).plan m = s.plan m ∧ (giveSetpoint s n).clp m = s.clp m := by
  obtain ⟨c, u, rfl, e⟩ := giveSetpoint_shape s n
  rw [e]
  exact ⟨State.plan_setPlan_ne _ _ h, State.clp_setClp_ne _ _ h⟩

theorem giveSetpoint_given (s : State) (h : (s.plan n).follow = none) : Given n (giveSetpoint s n) := by
  obtain ⟨c, u, hu, e⟩ := giveSetpoint_shape s n
  have hr : refNow s n = motionAt (u.plan n).ref u.now := by rw [refNow, h, hu]; rfl
  rw [e, hr]
  generalize hv : (u.setClp n (takes u n (motionAt (u.plan n).ref u.now))).setPlan n (ramps u n (motionAt (u.plan n).ref u.now)) = v
  have hp : v.plan n = ramps u n (motionAt (u.plan n).ref u.now) := by rw [← hv, State.plan_setPlan_self]
  have hc : v.clp n = takes u n (motionAt (u.plan n).ref u.now) := by rw [← hv]; exact State.clp_setClp_self u n _
  have k : SameGiven n u v := ⟨by rw [hp]; rfl, by rw [hp]; rfl, by rw [← hv]; rfl, by rw [← hv]; rfl, fun o _ => by rw [← hv]; rfl⟩
  unfold Given
  rw [hc, k.ref, k.now]
  dsimp only
  rw [k.feedForward, k.startOffset, k.hdec, k.hjerk, hp]
  exact ⟨rfl, rfl, rfl, rfl, rfl, rfl⟩

theorem giveSetpoint_keeps_given (s : State) (h : m ≠ n) (hg : Given m s) : Given m (giveSetpoint s n) := by
  obtain ⟨hp, hc⟩ := giveSetpoint_ne s h
  have k := giveSetpoint_stirs (R := fun _ => false) (P := [.plan, .ramp, .clp]) s n (by decide) (by decide) (by decide)
  exact hg.congr (k.sameGiven (fun _ _ => rfl) (by rw [hp]) (by rw [hp])) (by rw [hp]) ⟨_, _, hc⟩

/-- No axis has a follower. -/
def NoFollower (s : State) : Prop := ∀ n, (s.plan n).follow = none

theorem Stirs.noFollower (h : Stirs R P s t) (hf : NoFollower s) : NoFollower t := fun n => h.follow n (hf n)

/-- Every bank is served and none of the setpoints is held back. -/
structure Serving (s : State) : Prop where
  follow : NoFollower s
  halted : s.halted = false
  miss : ∀ b, (s.bank b).missRun = 0

theorem Stirs.serving (h : Stirs R P s t) (hR : R Reg.LCS_LC_STAT = false) (hm : Part.miss ∉ P) (hs : Serving s) : Serving t :=
  ⟨h.noFollower hs.follow, (State.flag_of_reg (f := F.LCS_LC_STAT_HALTED) (h.regs _ hR)).trans hs.halted,
    fun b => (h.miss hm b).trans (hs.miss b)⟩

theorem handOver_serving (s : State) (b : Bank) (h : Serving s) : handOver s b = each (axesOfBank b) giveSetpoint s := by
  unfold handOver
  rw [if_neg (by simp [h.miss b]), if_neg (by simp [h.halted])]

theorem givesEach_given (s : State) (b : Bank) (hf : NoFollower s) (hn : n ∈ axesOfBank b) :
    Given n (each (axesOfBank b) giveSetpoint s) :=
  each_reaches (I := NoFollower)
    (fun s a h => (giveSetpoint_stirs (R := stirReg) (P := [.plan, .ramp, .clp]) s a (by decide) (by decide) (by decide)).noFollower h)
    (fun s h => giveSetpoint_given s (h n)) (fun s _ ha _ hg => giveSetpoint_keeps_given s (Ne.symm ha) hg) hn hf

theorem givesEach_keeps (s : State) (l : List Axis) (hn : n ∉ l) (hg : Given n s) : Given n (each l giveSetpoint s) :=
  each_keep (fun s hs _ ha => giveSetpoint_keeps_given s (fun e => hn (e ▸ ha)) hs) hg

/-- With every bank served CLP takes the setpoint of each axis. -/
theorem handOvers_given (s : State) (h : Serving s) (n : Axis) : Given n (each allBanks handOver s) := by
  refine each_reaches (I := Serving) (b := bankOfAxis n) (fun s b hs => ?_) (fun s hs => ?_) (fun s b hb hs hg => ?_)
    (List.mem_finRange _) h
  · exact (handOver_stirs (R := stirReg) (P := [.plan, .ramp, .clp]) s b (by decide) (by decide) (by decide)).serving
      (by decide +kernel) (by decide) hs
  · rw [handOver_serving s _ hs]
    exact givesEach_given s _ hs.follow ((mem_axesOfBank n _).2 rfl)
  · rw [handOver_serving s b hs]
    exact givesEach_keeps s _ (fun hm => hb ((mem_axesOfBank n b).1 hm).symm) hg

end Given

end Sys2Proof.Machine

namespace Sys2Proof.Machine

section Missing

variable {R : Nat → Bool} {P : List Part} {missed : List Bank} {s t u : State} {b c : Bank}

/-! ### Sources found together (R50) -/

theorem State.runEach_apart (l : List TripReq) (s : State) {k : Nat} (h : k ∉ l.map (·.src)) : (s.runEach l).src k = s.src k := by
  induction l generalizing s with
  | nil => rfl
  | cons x l ih =>
    simp only [List.map_cons, List.mem_cons, not_or] at h
    refine (ih _ h.2).trans ?_
    beta_reduce
    rcases s.trip_cases x.src x.active x.object x.loc with e | e
    · rw [e]
    · exact e.others k h.1

/-- A source found once counts once. -/
theorem State.runEach_once (l : List TripReq) (s : State) {k : Nat} (h : (l.map (·.src)).count k = 1)
    (hk : (sourceRow k).isSome = true) (hp : s.powered 1 = true) :
    ((s.runEach l).src k).total = min 255 ((s.src k).total + 1) := by
  induction l generalizing s with
  | nil => simp at h
  | cons x l ih =>
    have e : s.runEach (x :: l) = (s.trip x.src x.active x.object x.loc).runEach l := rfl
    rw [List.map_cons, List.count_cons] at h
    rw [e]
    by_cases hx : x.src = k
    · subst hx
      rw [State.runEach_apart l _ (List.count_eq_zero.1 (by simpa using h))]
      exact (s.trip_tripped _ _ _ _ hk hp).total
    · rw [ih _ (by simpa [hx] using h) ?_]
      · rcases s.trip_cases x.src x.active x.object x.loc with e | e
        · rw [e]
        · rw [e.others k (Ne.symm hx)]
      · rcases s.trip_cases x.src x.active x.object x.loc with e | e
        · rw [e]; exact hp
        · exact (e.powered 1).trans hp

/-! ### Setpoints that come or are missing (R24) -/

/-- The source of a bank's missing setpoints. -/
def missSrc (b : Bank) : Nat := 64 + 16 * b.val + 5

/-- From s to t no setpoint of bank b was looked for: its run stands, and its source was not found. -/
structure Apart (b : Bank) (s t : State) : Prop where
  stirs : Stirs stirReg [.plan, .miss] s t
  run : (t.bank b).missRun = (s.bank b).missRun
  trips : ∃ l, t.inClk.trips = s.inClk.trips ++ l ∧ ∀ x ∈ l, x.src ≠ missSrc b

theorem Apart.refl (b : Bank) (s : State) : Apart b s s := ⟨Stirs.refl s, rfl, [], by simp⟩

theorem Apart.trans (h : Apart b s t) (k : Apart b t u) : Apart b s u := by
  obtain ⟨l, e1, h1⟩ := h.trips
  obtain ⟨m, e2, h2⟩ := k.trips
  refine ⟨h.stirs.trans k.stirs, k.run.trans h.run, l ++ m, by rw [e2, e1, List.append_assoc], fun x hx => ?_⟩
  rcases List.mem_append.1 hx with hx | hx
  · exact h1 x hx
  · exact h2 x hx

theorem Stirs.apart (h : Stirs stirReg [.plan] s t) (b : Bank) : Apart b s t := by
  obtain ⟨l, e, hl⟩ := h.trips (by decide)
  refine ⟨h.parts (by decide), h.miss (by decide) b, l, e, fun x hx => ?_⟩
  have := b.isLt
  rcases (hl x hx).2 with h | ⟨h, -⟩
  · unfold missSrc; omega
  · exact absurd h (by decide)

/-- A bank's setpoints are missing: the run goes on, and the first of a run raises the source. -/
theorem reference_missing (h : setpointMissing s missed b = true) : reference missed s b =
    if (s.bank b).missRun + 1 = 1 then (s.setBank b { s.bank b with missRun := (s.bank b).missRun + 1 }).detect (missSrc b)
    else s.setBank b { s.bank b with missRun := (s.bank b).missRun + 1 } := if_pos h

/-- A bank's setpoints come: its run ends. -/
theorem reference_served (h : setpointMissing s missed b = false) :
    Stirs stirReg [.plan] (s.setBank b { s.bank b with missRun := 0 }) (reference missed s b) := by
  unfold reference
  rw [if_neg (by simp [h])]
  exact Stirs.ite (Stirs.refl _) (Stirs.each fun s n => followStep_stirs s n (by decide))

theorem missSrc_inj (h : missSrc b = missSrc c) : b = c := Fin.ext (by unfold missSrc at h; omega)

theorem setRun_apart (s : State) (h : c ≠ b) (n : Nat) : Apart b s (s.setBank c { s.bank c with missRun := n }) :=
  ⟨s.setBank_stirs c _ (.inl (by decide)), by rw [State.bank_setBank_ne _ _ (Ne.symm h)], [], by simp [State.setBank], by simp⟩

theorem detect_apart (s : State) (h : c ≠ b) : Apart b s (s.detect (missSrc c)) :=
  ⟨s.detect_stirs _ (.inr ⟨by decide, c, rfl⟩), rfl, [⟨missSrc c, false, none, false⟩], rfl, fun x hx => by
    rw [List.mem_singleton.1 hx]
    exact fun e => h (missSrc_inj e)⟩

theorem reference_apart (missed : List Bank) (s : State) (h : c ≠ b) : Apart b s (reference missed s c) := by
  cases hm : setpointMissing s missed c
  · exact (setRun_apart s h 0).trans ((reference_served hm).apart b)
  · rw [reference_missing hm]
    split
    · exact (setRun_apart s h _).trans (detect_apart _ h)
    · exact setRun_apart s h _

theorem sought_apart (missed : List Bank) (s : State) (b : Bank) :
    ∃ u, Apart b s u ∧ Apart b (reference missed u b) (sought missed s) := by
  obtain ⟨u, h1, h2⟩ := each_at (T := Apart b) (Apart.refl b) (fun _ _ _ h k => h.trans k)
    (fun s c h => reference_apart missed s h) (List.mem_finRange b) (List.nodup_finRange 4)
    (each allAxes (fun s n => (lesHandoff s n).readFriction n) s)
  exact ⟨u, (Stirs.apart (handoffs_stirs s (by decide)) b).trans h1, h2⟩

/-- With every bank served no setpoint is missing. -/
theorem sought_runs (hw : ∀ b, b ∉ missed ∧ coreWorks s b = true) (b : Bank) : ((sought missed s).bank b).missRun = 0 := by
  obtain ⟨u, h1, h2⟩ := sought_apart missed s b
  have hc : coreWorks u b = true := by
    have hr := h1.stirs.regs Reg.MPL_CORE_MAP (by decide +kernel)
    obtain ⟨-, hs⟩ := hw b
    unfold coreWorks coreFailed coreOf at hs ⊢
    rw [State.rd_of_reg (f := F.MPL_CORE_MAP_FAILED) hr, hr]
    exact hs
  have hm : setpointMissing u missed b = false := by simp [setpointMissing, hc, (hw b).1]
  rw [h2.run, (reference_served hm).miss (by decide), State.bank_setBank_self]

/-- The device runs, and its banks' setpoints are looked for. -/
structure Looks (s : State) : Prop where
  halted : s.halted = false
  held : s.inHeld = false
  ready : s.flag F.LCS_LC_STAT_READY = true

theorem Looks.congr (h : Looks s) (hr : t.reg Reg.LCS_LC_STAT = s.reg Reg.LCS_LC_STAT) : Looks t :=
  ⟨(State.flag_of_reg (f := F.LCS_LC_STAT_HALTED) hr).trans h.halted, (State.flag_of_reg (f := F.LCS_LC_STAT_HELD) hr).trans h.held,
    (State.flag_of_reg (f := F.LCS_LC_STAT_READY) hr).trans h.ready⟩

theorem Stirs.powered (h : Stirs R P s t) (hR : R Reg.PMU_DOM_STAT = false) (d : Nat) : t.powered d = s.powered d :=
  State.powered_congr (by have e : t.pmu = { s.pmu with since := t.pmu.since } := (congrArg State.pmu h.rest :); rw [e])
    (h.regs _ hR) d

theorem Looks.missing (h : Looks s) (hp : s.powered (8 + b.val) = true) (hb : b ∈ missed) : setpointMissing s missed b = true := by
  simp [setpointMissing, hp, h.halted, h.held, h.ready, hb]

theorem count_apart {l : List TripReq} (h : ∀ x ∈ l, x.src ≠ missSrc b) : (l.map (·.src)).count (missSrc b) = 0 := by
  refine List.count_eq_zero.2 fun hm => ?_
  obtain ⟨x, hx, e⟩ := List.mem_map.1 hm
  exact h x hx e

/-- A bank's setpoints are missing: the run goes on, and the first miss of a run is found once. -/
theorem sought_misses (h : Looks s) (hp : s.powered (8 + b.val) = true) (hb : b ∈ missed) (ht : s.inClk.trips = []) :
    ((sought missed s).bank b).missRun = (s.bank b).missRun + 1 ∧
    ((sought missed s).inClk.trips.map (·.src)).count (missSrc b) = if (s.bank b).missRun = 0 then 1 else 0 := by
  obtain ⟨u, h1, h2⟩ := sought_apart missed s b
  obtain ⟨l, e1, hl⟩ := h1.trips
  obtain ⟨m, e2, hm⟩ := h2.trips
  have hu := (h.congr (h1.stirs.regs _ (by decide +kernel))).missing ((h1.stirs.powered (by decide +kernel) _).trans hp) hb
  rw [reference_missing hu, h1.run] at e2
  have hrun := h2.run
  rw [reference_missing hu, h1.run] at hrun
  rw [hrun, e2]
  by_cases hz : (s.bank b).missRun = 0
  · rw [if_pos (show (s.bank b).missRun + 1 = 1 by omega), if_pos hz]
    refine ⟨congrArg BankS.missRun (State.bank_setBank_self u b _), ?_⟩
    simp only [State.detect, List.map_append, List.count_append, count_apart hm]
    rw [show (u.setBank b { u.bank b with missRun := (s.bank b).missRun + 1 }).inClk.trips = l by
      rw [State.setBank, e1, ht]; rfl, count_apart hl]
    simp
  · rw [if_neg (show ¬ (s.bank b).missRun + 1 = 1 by omega), if_neg hz]
    refine ⟨congrArg BankS.missRun (State.bank_setBank_self u b _), ?_⟩
    simp only [List.map_append, List.count_append, count_apart hm]
    rw [show (u.setBank b { u.bank b with missRun := (s.bank b).missRun + 1 }).inClk.trips = l by
      rw [State.setBank, e1, ht]; rfl, count_apart hl]

theorem missSrc_row : ∀ b : Bank, (sourceRow (missSrc b)).isSome = true := by decide +kernel

/-- What the half-frame finds of a bank whose setpoints are missing. -/
theorem halfFinds_misses (h : Looks s) (hd : s.powered 1 = true) (hp : s.powered (8 + b.val) = true) (hb : b ∈ missed) :
    ((halfFinds missed s).bank b).missRun = (s.bank b).missRun + 1 ∧
    ((halfFinds missed s).src (missSrc b)).total =
      if (s.bank b).missRun = 0 then min 255 ((s.src (missSrc b)).total + 1) else (s.src (missSrc b)).total := by
  obtain ⟨e1, e2⟩ := sought_misses (s := s.noTrips) (missed := missed) (h.congr rfl) hp hb rfl
  have hq := sought_stirs (P := [.plan, .miss]) missed s.noTrips (by decide) (by decide)
  have hsrc : (sought missed s.noTrips).src (missSrc b) = s.src (missSrc b) := State.src_congr (sought_srcs missed s) _
  have hpow : (sought missed s.noTrips).powered 1 = true := (hq.powered (by decide +kernel) 1).trans hd
  rw [halfFinds_eq]
  generalize sought missed s.noTrips = q at *
  refine ⟨((State.runTrips_stirs (P := [.plan, .src, .trips]) (by decide) (by decide) q (by decide)).miss (by decide) b).trans e1, ?_⟩
  rw [State.runTrips_eq, ← hsrc]
  have hperm := (List.perm_insertionSort (fun a b : TripReq => a.src ≤ b.src) q.inClk.trips).map (·.src)
  rw [← hperm.count_eq] at e2
  split
  · rename_i hz
    rw [show (s.noTrips.bank b).missRun = (s.bank b).missRun from rfl, if_pos hz] at e2
    exact State.runEach_once _ _ e2 (missSrc_row b) hpow
  · rename_i hz
    rw [show (s.noTrips.bank b).missRun = (s.bank b).missRun from rfl, if_neg hz] at e2
    exact congrArg SrcS.total (State.runEach_apart _ _ (List.count_eq_zero.1 e2))

/-- A source that a half-frame does not look for stands. -/
theorem halfFinds_others (missed : List Bank) (s : State) {j : Nat} (h : j < 128) (hm : ∀ b, j ≠ missSrc b) :
    (halfFinds missed s).src j = s.src j := by
  rw [halfFinds_eq, State.runTrips_eq, State.runEach_apart]
  · exact State.src_congr (sought_srcs missed s) j
  · intro hj
    obtain ⟨x, hx, e⟩ := List.mem_map.1 hj
    rcases (sought_trips missed s x ((List.perm_insertionSort _ _).subset hx)).2 with h' | ⟨b, h'⟩
    · omega
    · exact hm b (by rw [← e, h']; rfl)

end Missing

end Sys2Proof.Machine

namespace Sys2Proof.Machine

section Stops

variable {s t u : State} {n m : Axis} {b c : Bank}

/-! ### The last stop ramp runs where setpoints are missing (R24) -/

theorem runStop_plan_ne (s : State) (h : m ≠ n) : (runStop s n).plan m = s.plan m := by
  unfold runStop
  dsimp only
  split
  · rfl
  · exact State.plan_setPlan_ne s _ h

theorem runStop_ref (s : State) (n : Axis) : ((runStop s n).plan n).ref = (s.plan n).stopRamp := by
  unfold runStop
  dsimp only
  split
  · assumption
  · exact congrArg AxisPlan.ref (State.plan_setPlan_self s n _)

theorem runStop_ramp (s : State) (n m : Axis) : ((runStop s n).plan m).stopRamp = (s.plan m).stopRamp :=
  (runStop_stirs (R := stirReg) (P := [.plan, .clp]) s n (by decide) (by decide)).ramp (by decide) m

/-- An axis is off, or runs ramp r. -/
def OffOrOn (r : Motion) (n : Axis) (s : State) : Prop := (s.plan n).st = .off ∨ (s.plan n).ref = r

theorem missBank_stops (s : State) (b : Bank) (hn : n ∈ axesOfBank b) : OffOrOn (s.plan n).stopRamp n (missBank s b) := by
  rw [missBank_eq]
  by_cases he : (s.plan n).st = .off
  · refine .inl (each_keep (p := fun u => (u.plan n).st = .off) (fun u hu a ha => ?_) he)
    have hne : n ≠ a := fun e => by
      have := (List.mem_filter.1 ha).2
      simp [← e, State.energised, he] at this
    rw [runStop_plan_ne u hne]
    exact hu
  · refine .inr (each_reaches (I := fun u => (u.plan n).stopRamp = (s.plan n).stopRamp)
      (p := fun u => (u.plan n).ref = (s.plan n).stopRamp) (b := n) (fun u a hu => (runStop_ramp u a n).trans hu)
      (fun u hu => (runStop_ref u n).trans hu) (fun u a ha _ hu => ?_) (List.mem_filter.2 ⟨hn, by simp [State.energised, he]⟩) rfl)
    rw [runStop_plan_ne u (Ne.symm ha)]
    exact hu

/-- A hand-over to one bank leaves the axes of another. -/
theorem handOver_plan_ne (s : State) (hn : n ∈ axesOfBank b) (h : c ≠ b) : (handOver s c).plan n = s.plan n := by
  have hne : ∀ a ∈ axesOfBank c, n ≠ a := fun a ha e => h (((mem_axesOfBank a c).1 ha).symm.trans (e ▸ (mem_axesOfBank n b).1 hn))
  unfold handOver
  split
  · rw [missBank_eq]
    exact each_keep (p := fun u => u.plan n = s.plan n)
      (fun u hu a ha => (runStop_plan_ne u (hne a (List.mem_filter.1 ha).1)).trans hu) rfl
  · split
    · rfl
    · exact each_keep (p := fun u => u.plan n = s.plan n) (fun u hu a ha => (giveSetpoint_ne u (hne a ha)).1.trans hu) rfl

theorem handOver_runs (s : State) (c : Bank) : ((handOver s c).bank b).missRun = (s.bank b).missRun :=
  (handOver_stirs (R := stirReg) (P := [.plan, .ramp, .clp]) s c (by decide) (by decide) (by decide)).miss (by decide) b

theorem handOver_missing (s : State) (h : (s.bank b).missRun ≠ 0) : handOver s b = missBank s b := if_pos h

/-- Where a bank's setpoints are missing its axes are off or run the last stop ramp. -/
theorem handOvers_stops (s : State) (h : (s.bank b).missRun ≠ 0) (hn : n ∈ axesOfBank b) :
    OffOrOn (s.plan n).stopRamp n (each allBanks handOver s) := by
  have hI : ∀ u c, (u.bank b).missRun ≠ 0 ∧ (u.plan n).stopRamp = (s.plan n).stopRamp →
      ((handOver u c).bank b).missRun ≠ 0 ∧ ((handOver u c).plan n).stopRamp = (s.plan n).stopRamp := by
    intro u c ⟨h1, h2⟩
    refine ⟨by rwa [handOver_runs], ?_⟩
    by_cases e : c = b
    · subst e
      rw [handOver_missing u h1, missBank_eq]
      exact each_keep (p := fun u => (u.plan n).stopRamp = (s.plan n).stopRamp) (fun u hu a _ => (runStop_ramp u a n).trans hu) h2
    · rw [handOver_plan_ne u hn e]
      exact h2
  refine each_reaches (I := fun u => (u.bank b).missRun ≠ 0 ∧ (u.plan n).stopRamp = (s.plan n).stopRamp) (b := b) hI
    (fun u ⟨h1, h2⟩ => ?_) (fun u c hc _ hu => ?_) (List.mem_finRange b) ⟨h, rfl⟩
  · rw [handOver_missing u h1, ← h2]
    exact missBank_stops u b hn
  · unfold OffOrOn
    rw [handOver_plan_ne u hn hc]
    exact hu

/-! ### What CLP's half-frame leaves (R206) -/

theorem State.clpTick_ran (s : State) (n : Axis) : ((s.clpTick n).clp n).ran = false := by
  unfold State.clpTick
  extract_lets v
  have hv : ∀ m, v.clp m = s.clp m := fun m => by
    unfold v
    split
    · rfl
    · rfl
  split
  · rw [State.clp_setClp_self]
  · rename_i h
    rw [hv]
    exact Bool.eq_false_iff.2 fun e => h (by rw [hv]; exact e)

/-- With no coil A step in the half-frame VSAT and ILIM clear. -/
theorem State.clpTick_flags (s : State) (n : Axis) (h : (s.clp n).ran = false) :
    (s.clpTick n).flag (F.CLP_STAT_VSAT n) = false ∧ (s.clpTick n).flag (F.CLP_STAT_ILIM n) = false := by
  have e : s.clpTick n = (s.wr (F.CLP_STAT_VSAT n) 0).wr (F.CLP_STAT_ILIM n) 0 := by
    have hc : (((s.wr (F.CLP_STAT_VSAT n) 0).wr (F.CLP_STAT_ILIM n) 0).clp n).ran = false := h
    unfold State.clpTick
    extract_lets v
    have hv : v = (s.wr (F.CLP_STAT_VSAT n) 0).wr (F.CLP_STAT_ILIM n) 0 := if_neg (by simp [h])
    rw [if_neg (by rw [hv, hc]; simp)]
    exact hv
  rw [e]
  constructor
  · rw [State.flag, State.rd_wr_ne _ _ (.inr ⟨rfl, rfl, rfl⟩), ← State.flag, State.flag_wr_self s (by rfl)]
    rfl
  · rw [State.flag_wr_self _ (by rfl)]
    rfl

theorem closes_ran (s : State) (n : Axis) : ((closes s).clp n).ran = false := by
  unfold closes
  refine (Stirs.each (R := stirReg) (P := [.plan]) (f := beginDue) fun s n => beginDue_stirs (by decide) s n).ran n ?_
  exact each_reaches (I := fun _ => True) (b := n) (fun _ _ _ => trivial) (fun u _ => u.clpTick_ran n)
    (fun u a _ _ hu => (u.clpTick_stirs (R := closeReg) (P := []) a (closeReg_clpStat a)).ran n hu) (List.mem_finRange n) trivial

theorem clpStat_ne : ∀ m n : Axis, Reg.CLP_STAT m = Reg.CLP_STAT n → m = n := by
  intro m n h
  unfold Reg.CLP_STAT at h
  exact Fin.ext (by omega)

theorem stirReg_clpStat : ∀ n : Axis, stirReg (Reg.CLP_STAT n) = false := by decide +kernel

/-- What the ticks of the other axes keep of an axis's CLP_STAT and of its steps. -/
theorem State.clpTick_apart (s : State) {a n : Axis} (ha : a ≠ n) : (s.clpTick a).reg (Reg.CLP_STAT n) = s.reg (Reg.CLP_STAT n) ∧
    ((s.clp n).ran = false → ((s.clpTick a).clp n).ran = false) := by
  have k := s.clpTick_stirs (R := fun o => Decidable.decide (o = Reg.CLP_STAT a)) (P := []) a (by simp)
  exact ⟨k.regs _ (by simpa using fun e => ha (clpStat_ne n a e).symm), k.ran n⟩

theorem closes_flags (s : State) (n : Axis) (h : (s.clp n).ran = false) :
    (closes s).flag (F.CLP_STAT_VSAT n) = false ∧ (closes s).flag (F.CLP_STAT_ILIM n) = false := by
  obtain ⟨u, ⟨-, h1⟩, h2, -⟩ := each_at (f := fun s n => s.clpTick n) (b := n)
    (T := fun s t => t.reg (Reg.CLP_STAT n) = s.reg (Reg.CLP_STAT n) ∧ ((s.clp n).ran = false → (t.clp n).ran = false))
    (fun _ => ⟨rfl, id⟩) (fun _ _ _ h k => ⟨k.1.trans h.1, fun e => k.2 (h.2 e)⟩) (fun s _ ha => s.clpTick_apart ha)
    (List.mem_finRange n) (List.nodup_finRange 32) s
  obtain ⟨f1, f2⟩ := u.clpTick_flags n (h1 h)
  have hb := (Stirs.each (R := stirReg) (P := [.plan]) (l := allAxes) (f := beginDue)
    (s := each allAxes (fun s n => s.clpTick n) s) fun s n => beginDue_stirs (by decide) s n).regs _ (stirReg_clpStat n)
  have e : (closes s).reg (Reg.CLP_STAT n) = (u.clpTick n).reg (Reg.CLP_STAT n) := hb.trans h2
  exact ⟨(State.flag_of_reg (f := F.CLP_STAT_VSAT n) e).trans f1, (State.flag_of_reg (f := F.CLP_STAT_ILIM n) e).trans f2⟩

end Stops

end Sys2Proof.Machine

namespace Sys2Proof.Machine

section Streams

variable {R : Nat → Bool} {P : List Part} {s t u : State} {i j : Fin 8}

/-! ### A stream's half-frame (R97, R118, R121, R140) -/

/-- From s to t another stream had its half-frame: stream i and what its blocks need stand. -/
structure StreamApart (i : Fin 8) (s t : State) : Prop where
  stream : t.stream i = s.stream i
  send : ∀ p, t.canSend p = s.canSend p
  act : t.flag (F.HIF_TLM_STAT_ACTIVE i) = s.flag (F.HIF_TLM_STAT_ACTIVE i)
  sent : s.sent <+: t.sent

theorem StreamApart.refl (i : Fin 8) (s : State) : StreamApart i s s := ⟨rfl, fun _ => rfl, rfl, List.prefix_rfl⟩

theorem StreamApart.trans (h : StreamApart i s t) (k : StreamApart i t u) : StreamApart i s u :=
  ⟨k.stream.trans h.stream, fun p => (k.send p).trans (h.send p), k.act.trans h.act, h.sent.trans k.sent⟩

theorem Stirs.canSend (h : Stirs R P s t) (h1 : ∀ p, R (portOff p Reg.HIF_PORT_STAT) = false) (h2 : R Reg.LCS_LC_STAT = false)
    (hp : Part.port ∉ P) (p : Port) : t.canSend p = s.canSend p := by
  have hl : t.linkUp p = s.linkUp p := State.flag_of_reg (f := onPort p F.HIF_PORT_STAT_LINK_UP) (h.regs _ (h1 p))
  unfold State.canSend
  rw [hl, State.flag_of_reg (f := F.LCS_LC_STAT_READY) (h.regs _ h2), State.flag_of_reg (f := F.LCS_LC_STAT_HELD) (h.regs _ h2),
    h.port hp p]

/-- The registers of a stream's half-frame: its tail and its status. -/
def tlmReg (j : Fin 8) (o : Nat) : Bool := o = Reg.HIF_TLM_TAIL j || o = Reg.HIF_TLM_STAT j

theorem tlmReg_kept : ∀ j : Fin 8, (∀ p, tlmReg j (portOff p Reg.HIF_PORT_STAT) = false) ∧ tlmReg j Reg.LCS_LC_STAT = false ∧
    ∀ i : Fin 8, i ≠ j → tlmReg j (Reg.HIF_TLM_STAT i) = false := by
  have ports : ∀ j : Fin 8, tlmReg j (portOff .A Reg.HIF_PORT_STAT) = false ∧ tlmReg j (portOff .B Reg.HIF_PORT_STAT) = false := by
    decide +kernel
  have rest : ∀ j : Fin 8, tlmReg j Reg.LCS_LC_STAT = false ∧ ∀ i : Fin 8, i ≠ j → tlmReg j (Reg.HIF_TLM_STAT i) = false := by
    decide +kernel
  refine fun j => ⟨fun p => ?_, rest j⟩
  cases p
  · exact (ports j).1
  · exact (ports j).2

theorem streamTick_tlm (s : State) (j : Fin 8) : Stirs (tlmReg j) [.stream] s (streamTick s j) :=
  streamTick_stirs s j (by simp [tlmReg]) (by simp [tlmReg]) (by decide)

theorem issueBlock_stream_ne (s : State) (h : i ≠ j) : (s.issueBlock j).stream i = s.stream i := by
  have emits : ∀ {α : Type} (f : α → Out) (l : List α) (s : State), (each l (fun s x => s.emit (f x)) s).streams = s.streams := by
    intro α f l
    induction l with
    | nil => exact fun _ => rfl
    | cons a l ih => exact fun s => ih (s.emit (f a))
  unfold State.issueBlock
  dsimp only
  split
  · rfl
  · rename_i w _
    split
    · unfold State.dropBlock
      rw [State.stream_setStream_ne _ _ h]
      exact State.stream_setStream_ne s _ h
    · split
      · rfl
      · rw [State.stream_setStream_ne _ _ h]
        unfold State.stream State.wr
        exact congrArg (·[i]) (emits _ _ _)

theorem streamTick_stream_ne (s : State) (h : i ≠ j) : (streamTick s j).stream i = s.stream i := by
  unfold streamTick
  dsimp only
  split
  · exact (State.stream_setStream_ne _ _ h).trans (issueBlock_stream_ne s h)
  · exact issueBlock_stream_ne s h

theorem streamTick_apart (s : State) (h : j ≠ i) : StreamApart i s (streamTick s j) := by
  obtain ⟨h1, h2, h3⟩ := tlmReg_kept j
  have k := streamTick_tlm s j
  exact ⟨streamTick_stream_ne s (Ne.symm h), k.canSend h1 h2 (by decide),
    State.flag_of_reg (f := F.HIF_TLM_STAT_ACTIVE i) (k.regs _ (h3 i (Ne.symm h))), (streamTick_keeps s j (Keeps.refl s)).out⟩

/-- A stream counts a half-frame where it is ACTIVE. -/
def StreamS.counted (x : StreamS) (active : Bool) : StreamS := { x with count := x.count + if active then 1 else 0 }

theorem streamTick_stream (s : State) (i : Fin 8) :
    (streamTick s i).stream i = ((s.issueBlock i).stream i).counted ((s.issueBlock i).flag (F.HIF_TLM_STAT_ACTIVE i)) ∧
    (streamTick s i).sent = (s.issueBlock i).sent := by
  unfold streamTick
  dsimp only
  split
  · rename_i h
    rw [State.stream_setStream_self, h]
    exact ⟨rfl, rfl⟩
  · rename_i h
    rw [Bool.eq_false_iff.2 h]
    exact ⟨rfl, rfl⟩

/-- What a block that waits comes to at its stream's half-frame. -/
structure Issues (s t : State) (i : Fin 8) : Prop where
  act : t.flag (F.HIF_TLM_STAT_ACTIVE i) = s.flag (F.HIF_TLM_STAT_ACTIVE i)
  idle : (s.stream i).wait = none → t.stream i = s.stream i
  drop : ∀ w, (s.stream i).wait = some w → s.canSend w.port = false → t.stream i = { s.stream i with wait := none, gap := true }
  out : ∀ w, (s.stream i).wait = some w → s.canSend w.port = true → t.stream i = s.stream i ∨
    (t.stream i = { s.stream i with wait := none, gap := false } ∧
      ∀ b ∈ w.parts, Out.block w.port i b.last b.addr b.words ∈ t.sent.drop s.sent.length)

theorem emits_sent {α : Type} (f : α → Out) (l : List α) (s : State) : (each l (fun s x => s.emit (f x)) s).sent = s.sent ++ l.map f := by
  induction l generalizing s with
  | nil => simp [each]
  | cons a l ih =>
    rw [each_cons, ih]
    simp [State.emit]

theorem emits_frame {α : Type} (f : α → Out) (l : List α) (s : State) :
    ∃ o, each l (fun s x => s.emit (f x)) s = { s with sent := o } := by
  induction l generalizing s with
  | nil => exact ⟨s.sent, rfl⟩
  | cons a l ih =>
    obtain ⟨o, e⟩ := ih (s.emit (f a))
    exact ⟨o, by rw [each_cons, e]; rfl⟩

/-- Without a link that can send, the block that waits is dropped (R121). -/
theorem State.dropBlock_spec (s : State) (i : Fin 8) : ((s.dropBlock i).stream i) = { s.stream i with gap := true } ∧
    (s.dropBlock i).flag (F.HIF_TLM_STAT_ACTIVE i) = s.flag (F.HIF_TLM_STAT_ACTIVE i) := by
  unfold State.dropBlock
  refine ⟨State.stream_setStream_self _ i _, ?_⟩
  exact congrArg (fun n : Nat => Decidable.decide (n % 2 = 1)) (State.rd_cnt_ne s 1 (.inr ⟨rfl, rfl, rfl⟩))

/-- What sending a block does beside the block itself. -/
def State.blockSent (s : State) (i : Fin 8) (bytes : Nat) (x : StreamS) : State :=
  (s.wr (F.HIF_TLM_TAIL_TAIL i) ((s.rd (F.HIF_TLM_TAIL_TAIL i) + bytes) % 2 ^ 32)).setStream i { x with gap := false, wait := none }

theorem State.blockSent_spec (s : State) (i : Fin 8) (bytes : Nat) (x : StreamS) :
    (s.blockSent i bytes x).stream i = { x with gap := false, wait := none } ∧ (s.blockSent i bytes x).sent = s.sent ∧
    (s.blockSent i bytes x).flag (F.HIF_TLM_STAT_ACTIVE i) = s.flag (F.HIF_TLM_STAT_ACTIVE i) := by
  refine ⟨State.stream_setStream_self _ i _, rfl, ?_⟩
  refine State.flag_wr_off s _ ?_
  change 0x3014 + 0x20 * i.val ≠ 0x3010 + 0x20 * i.val
  omega

theorem issueBlock_idle (s : State) (i : Fin 8) (h : (s.stream i).wait = none) : s.issueBlock i = s := by
  unfold State.issueBlock
  dsimp only
  rw [h]

theorem issueBlock_waiting (s : State) (i : Fin 8) {w : Block} (h : (s.stream i).wait = some w) : s.issueBlock i =
    if s.canSend w.port = true then
      if s.drawn % 2 = 1 then s.draw
      else (each w.parts (fun s x => s.emit (.block w.port i x.last x.addr x.words)) s.draw).blockSent i w.bytes (s.stream i)
    else (s.setStream i { s.stream i with wait := none }).dropBlock i := by
  unfold State.issueBlock
  dsimp only
  rw [h]
  dsimp only
  cases s.canSend w.port
  · rfl
  · rfl

theorem issueBlock_issues (s : State) (i : Fin 8) : Issues s (s.issueBlock i) i := by
  cases hw : (s.stream i).wait with
  | none =>
    rw [issueBlock_idle s i hw]
    exact ⟨rfl, fun _ => rfl, fun w h => by simp [hw] at h, fun w h => by simp [hw] at h⟩
  | some w =>
    have only : ∀ w', (s.stream i).wait = some w' → w' = w := fun w' h => Option.some.inj (h.symm.trans hw)
    rw [issueBlock_waiting s i hw]
    cases hc : s.canSend w.port
    · obtain ⟨e1, e2⟩ := (s.setStream i { s.stream i with wait := none }).dropBlock_spec i
      rw [if_neg (by simp)]
      refine ⟨e2, fun h => by simp [hw] at h, fun _ _ _ => ?_, fun w' h h' => ?_⟩
      · rw [e1, State.stream_setStream_self]
      · rw [only w' h, hc] at h'
        cases h'
    · rw [if_pos rfl]
      have drop : ∀ w', (s.stream i).wait = some w' → s.canSend w'.port = false → False := fun w' h h' => by
        rw [only w' h, hc] at h'
        cases h'
      split
      · exact ⟨rfl, fun _ => rfl, fun w' h h' => (drop w' h h').elim, fun _ _ _ => .inl rfl⟩
      · have hs := emits_sent (fun x : BlockPart => Out.block w.port i x.last x.addr x.words) w.parts s.draw
        obtain ⟨o, ho⟩ := emits_frame (fun x : BlockPart => Out.block w.port i x.last x.addr x.words) w.parts s.draw
        generalize each w.parts (fun s x => s.emit (.block w.port i x.last x.addr x.words)) s.draw = v at *
        obtain ⟨e1, e2, e3⟩ := v.blockSent_spec i w.bytes (s.stream i)
        refine ⟨e3.trans (by rw [ho]; rfl), fun h => by simp [hw] at h, fun w' h h' => (drop w' h h').elim, fun w' h _ => .inr ⟨e1, fun b hb => ?_⟩⟩
        rw [only w' h] at hb ⊢
        rw [e2, hs, show s.draw.sent = s.sent from rfl, List.drop_left]
        exact List.mem_map.2 ⟨b, hb, rfl⟩

/-- What comes of stream i and its block over the half-frames of all streams. -/
theorem streamTicks_spec (s : State) (i : Fin 8) : ∃ u v, StreamApart i s u ∧ Issues u v i ∧
    (each (List.finRange 8) streamTick s).stream i = (v.stream i).counted (s.flag (F.HIF_TLM_STAT_ACTIVE i)) ∧
    v.sent <+: (each (List.finRange 8) streamTick s).sent := by
  obtain ⟨u, h1, h2⟩ := each_at (T := StreamApart i) (StreamApart.refl i) (fun _ _ _ h k => h.trans k)
    (fun s j h => streamTick_apart s h) (List.mem_finRange i) (List.nodup_finRange 8) s
  obtain ⟨e1, e2⟩ := streamTick_stream u i
  have hi := issueBlock_issues u i
  refine ⟨u, u.issueBlock i, h1, hi, ?_, e2 ▸ h2.sent⟩
  rw [h2.stream, e1, hi.act, h1.act]

end Streams

end Sys2Proof.Machine

namespace Sys2Proof.Machine

section Gates

variable {s t u : State} {b c : Bank}

/-! ### The gate stage of a bank at a marker (R261, R270) -/

/-- The source of a bank's lost gate edges. -/
def edgeSrc (b : Bank) : Nat := 74 + 16 * b.val

theorem edgeSrc_inj (h : edgeSrc b = edgeSrc c) : b = c := Fin.ext (by unfold edgeSrc at h; omega)

/-- From s to t another bank's gate stage had its marker. -/
structure GateApart (b : Bank) (s t : State) : Prop where
  gdr : t.gdr b = s.gdr b
  powered : ∀ d, t.powered d = s.powered d
  severe : (t.src (edgeSrc b)).severe = (s.src (edgeSrc b)).severe
  total : ∀ j, (t.src j).total = (s.src j).total
  clk : t.clk = s.clk
  edge : ∀ h, (s.hb h).edge = false → (t.hb h).edge = false

theorem GateApart.refl (b : Bank) (s : State) : GateApart b s s := ⟨rfl, fun _ => rfl, rfl, fun _ => rfl, rfl, fun _ => id⟩

theorem GateApart.trans (h : GateApart b s t) (k : GateApart b t u) : GateApart b s u :=
  ⟨k.gdr.trans h.gdr, fun d => (k.powered d).trans (h.powered d), k.severe.trans h.severe, fun j => (k.total j).trans (h.total j),
    k.clk.trans h.clk, fun h' e => k.edge h' (h.edge h' e)⟩

theorem followEdges_gdr_ne (s : State) (h : b ≠ c) : (s.followEdges c).gdr b = s.gdr b := by
  have e : ∀ (l : List HalfBridge) (s : State), (each l (fun s h => s.setHb h { s.hb h with edge := false }) s).gdr b = s.gdr b := by
    intro l
    induction l with
    | nil => exact fun _ => rfl
    | cons a l ih => exact fun s => ih (s.setHb a _)
  unfold State.followEdges
  rw [e, State.gdr_setGdr_ne _ _ h]

theorem followEdges_gdr (s : State) (b : Bank) : (s.followEdges b).gdr b = { s.gdr b with edgeLost := false } := by
  have e : ∀ (l : List HalfBridge) (s : State), (each l (fun s h => s.setHb h { s.hb h with edge := false }) s).gdr b = s.gdr b := by
    intro l
    induction l with
    | nil => exact fun _ => rfl
    | cons a l ih => exact fun s => ih (s.setHb a _)
  unfold State.followEdges
  rw [e, State.gdr_setGdr_self]

theorem followEdges_edge (s : State) {h : HalfBridge} (hh : h ∈ hbsOfBank b) : ((s.followEdges b).hb h).edge = false := by
  unfold State.followEdges
  exact each_reaches (I := fun _ => True) (b := h) (p := fun u => (u.hb h).edge = false) (fun _ _ _ => trivial)
    (fun u _ => by rw [State.hb_setHb_self]) (fun u a ha _ hu => by rwa [State.hb_setHb_ne _ _ (Ne.symm ha)]) hh trivial

theorem State.ceaseIf_total (s : State) (x : Bool) (k j : Nat) : ((s.ceaseIf x k).src j).total = (s.src j).total ∧
    ((s.ceaseIf x k).src j).severe = (s.src j).severe := by
  by_cases h : j = k
  · subst h
    rw [State.ceaseIf_self]
    exact ⟨rfl, rfl⟩
  · rw [s.ceaseIf_ne x h]
    exact ⟨rfl, rfl⟩

theorem followEdges_src (s : State) (b : Bank) (j : Nat) : (s.followEdges b).src j = s.src j :=
  State.src_congr ((s.followEdges_stirs (R := stirReg) (P := [.gdr]) b (by decide)).src (by decide)) j

theorem bankTick_src (s : State) (c : Bank) (j : Nat) : ((bankTick s c).src j).total = (s.src j).total ∧
    ((bankTick s c).src j).severe = (s.src j).severe := by
  cases hp : s.powered (8 + c.val)
  · rw [bankTick_off s c hp]
    exact ⟨rfl, rfl⟩
  · obtain ⟨u, hu, e⟩ := bankTick_on s c hp
    have hj : (u.src j).total = (s.src j).total ∧ (u.src j).severe = (s.src j).severe := by
      rw [hu]
      exact State.ceaseIf_total _ _ _ _
    rw [e]
    split
    · rw [followEdges_src]
      exact hj
    · exact hj

theorem bankTick_gdr_ne (s : State) (h : b ≠ c) : (bankTick s c).gdr b = s.gdr b := by
  cases hp : s.powered (8 + c.val)
  · rw [bankTick_off s c hp, State.gdr_setGdr_ne _ _ h]
  · obtain ⟨u, hu, e⟩ := bankTick_on s c hp
    have hg : u.gdr b = s.gdr b := by
      obtain ⟨x, ex⟩ := State.ceaseIf_frame
        (s.setGdr c { s.gdr c with markAt := s.clk, sum := 0, cnt := 0, mean := (s.gdr c).taken }) (s.gdr c).edgeLost (74 + 16 * c.val)
      rw [hu, ex]
      exact State.gdr_setGdr_ne s _ h
    rw [e]
    split
    · rw [followEdges_gdr_ne u h, hg]
    · exact hg

theorem bankTick_apart (s : State) (h : c ≠ b) : GateApart b s (bankTick s c) := by
  have k := bankTick_stirs (R := stirReg) (P := [.gdr, .src]) s c (by decide) (by decide)
  exact ⟨bankTick_gdr_ne s (Ne.symm h), k.powered (by decide +kernel), (bankTick_src s c _).2, fun j => (bankTick_src s c j).1,
    (congrArg State.clk k.rest :), k.edge⟩

/-- Whether lost edges still hold the gates of a bank. -/
def edgesHold (s : State) (b : Bank) : Bool :=
  (s.gdr b).edgeLost && (!s.powered (8 + b.val) || (s.src (edgeSrc b)).severe)

/-- What a bank's gate stage comes to at its marker. -/
def marked (s : State) (b : Bank) : GdrS :=
  let g := s.gdr b
  { g with
    sum := 0, cnt := 0, mean := if g.cnt = 0 then none else some ((g.sum : Rat) / g.cnt)
    markAt := if s.powered (8 + b.val) then s.clk else g.markAt, edgeLost := edgesHold s b }

theorem bankTick_marked (s : State) (b : Bank) : (bankTick s b).gdr b = marked s b ∧
    ((s.gdr b).edgeLost = true → edgesHold s b = false → ∀ h ∈ hbsOfBank b, ((bankTick s b).hb h).edge = false) := by
  cases hp : s.powered (8 + b.val)
  · have hh : edgesHold s b = (s.gdr b).edgeLost := by simp [edgesHold, hp]
    rw [bankTick_off s b hp, State.gdr_setGdr_self]
    refine ⟨by simp [marked, hh, hp, GdrS.taken], fun h1 h2 => ?_⟩
    rw [hh, h1] at h2
    cases h2
  · obtain ⟨u, hu, e⟩ := bankTick_on s b hp
    obtain ⟨x, ex⟩ := State.ceaseIf_frame
      (s.setGdr b { s.gdr b with markAt := s.clk, sum := 0, cnt := 0, mean := (s.gdr b).taken }) (s.gdr b).edgeLost (74 + 16 * b.val)
    have hg : u.gdr b = { s.gdr b with markAt := s.clk, sum := 0, cnt := 0, mean := (s.gdr b).taken } := by
      rw [hu, ex]
      exact State.gdr_setGdr_self s b _
    have hs : (u.src (74 + 16 * b.val)).severe = (s.src (edgeSrc b)).severe := by
      rw [hu]
      exact (State.ceaseIf_total _ _ _ _).2
    have hh : edgesHold s b = ((s.gdr b).edgeLost && (s.src (edgeSrc b)).severe) := by simp [edgesHold, hp]
    rw [e, hs]
    cases hl : (s.gdr b).edgeLost
    · rw [hl] at hh
      rw [if_neg (by simp), hg]
      exact ⟨by simp [marked, hh, hp, GdrS.taken, hl], nofun⟩
    · cases hv : (s.src (edgeSrc b)).severe
      · rw [hl, hv] at hh
        rw [if_pos (by simp), followEdges_gdr, hg]
        exact ⟨by simp [marked, hh, hp, GdrS.taken], fun _ _ h => followEdges_edge u⟩
      · rw [hl, hv] at hh
        rw [if_neg (by simp), hg]
        refine ⟨by simp [marked, hh, hp, GdrS.taken, hl], fun _ h => ?_⟩
        rw [hh] at h
        cases h

/-- What comes of a bank's gate stage over the markers of all. -/
theorem bankTicks_marked (s : State) (b : Bank) : (each allBanks bankTick s).gdr b = marked s b ∧
    ((s.gdr b).edgeLost = true → edgesHold s b = false → ∀ h ∈ hbsOfBank b, ((each allBanks bankTick s).hb h).edge = false) := by
  obtain ⟨u, h1, h2⟩ := each_at (T := GateApart b) (GateApart.refl b) (fun _ _ _ h k => h.trans k)
    (fun s c h => bankTick_apart s h) (List.mem_finRange b) (List.nodup_finRange 4) s
  obtain ⟨e1, e2⟩ := bankTick_marked u b
  have hh : edgesHold u b = edgesHold s b := by unfold edgesHold; rw [h1.gdr, h1.powered, h1.severe]
  have hm : marked u b = marked s b := by unfold marked; rw [hh, h1.gdr, h1.powered, h1.clk]
  refine ⟨h2.gdr.trans (e1.trans hm), fun hl hn h hb => h2.edge h (e2 ?_ ?_ h hb)⟩
  · rw [h1.gdr]; exact hl
  · rw [hh]; exact hn

end Gates

end Sys2Proof.Machine

namespace Sys2Proof.Machine

section Handed

variable {s p t u : State} {missed : List Bank} {b : Bank} {n : Axis}

/-! ### From a tick's start over its work to its end -/

/-- The registers that a frame tick may have changed before its half-frame's work: its counters and the auxiliary results. -/
def openReg (o : Nat) : Bool :=
  o = Reg.TBS_FRAME_CNT || o = Reg.TBS_TICK_GTC_LO || o = Reg.TBS_TICK_GTC_HI ||
  (0x10000 ≤ o && o < 0x18000 && 0x304 ≤ o % 0x2000 && o % 0x2000 < 0x384)

/-- The state p at which a tick's work begins, against the state s before the tick. -/
structure Poised (s p : State) : Prop where
  regs : ∀ o, openReg o = false → p.reg o = s.reg o
  plans : p.plans = s.plans
  ran : ∀ n, (s.clp n).ran = false → (p.clp n).ran = false
  miss : ∀ b, (p.bank b).missRun = (s.bank b).missRun
  streams : p.streams = s.streams
  gdrs : p.gdrs = s.gdrs
  vaon : p.pmu.vaon = s.pmu.vaon
  steps : ∀ n, (p.fbk n).steps = (s.fbk n).steps
  src : ∀ j, j ≠ 34 → p.src j = s.src j
  ops : ∀ o ∈ p.ops, ∃ x ∈ s.ops, x.op = o.op
  port : ∀ q, p.port q = { s.port q with held := (p.port q).held }
  sent : s.sent <+: p.sent

/-- The state t at which a tick ends, against the state p at which its work began and the state s before it. -/
structure Worked (missed : List Bank) (s p t : State) : Prop where
  stirs : Stirs stirReg [.port] (halfWork missed p) t
  sent : ∀ x : Out, x.stream = none → x ∈ (halfWork missed p).sent.drop s.sent.length → x ∈ t.sent.drop s.sent.length

theorem Poised.flag (h : Poised s p) {f : Fld} (hf : openReg f.off = false) : p.flag f = s.flag f := State.flag_of_reg (h.regs _ hf)
theorem Poised.powered (h : Poised s p) (d : Nat) : p.powered d = s.powered d :=
  State.powered_congr h.vaon (h.regs _ (by decide +kernel)) d

theorem openReg_kept : (∀ q, openReg (portOff q Reg.HIF_PORT_STAT) = false) ∧ ∀ i : Fin 8, openReg (Reg.HIF_TLM_STAT i) = false := by
  refine ⟨fun q => ?_, by decide +kernel⟩
  cases q <;> decide +kernel

theorem closeReg_kept : (∀ q, closeReg (portOff q Reg.HIF_PORT_STAT) = false) ∧ ∀ i : Fin 8, closeReg (Reg.HIF_TLM_STAT i) = false := by
  refine ⟨fun q => ?_, by decide +kernel⟩
  cases q <;> decide +kernel

theorem Poised.canSend (h : Poised s p) (q : Port) : p.canSend q = s.canSend q := by
  have hl : p.linkUp q = s.linkUp q := h.flag (f := onPort q F.HIF_PORT_STAT_LINK_UP) (openReg_kept.1 q)
  unfold State.canSend
  rw [hl, h.flag (f := F.LCS_LC_STAT_READY) (by decide +kernel), h.flag (f := F.LCS_LC_STAT_HELD) (by decide +kernel), h.port q]

/-- The banks' setpoints, handed over. -/
def setpoints (missed : List Bank) (p : State) : State := each allBanks handOver (halfCloses missed p)

theorem setpoints_stirs (missed : List Bank) (p : State) :
    Stirs closeReg [.plan, .miss, .src, .trips, .ramp, .clp] p (setpoints missed p) :=
  ((halfCloses_stirs missed p).parts (by decide)).trans ((handOvers_stirs _).parts (by decide))

theorem halfWork_counts (missed : List Bank) (p : State) :
    halfWork missed p = State.arranged p (halfCounts (setpoints missed p)) := rfl

/-- What is left of a tick once the setpoints are handed over. -/
theorem Worked.counts (h : Worked missed s p t) : Stirs countReg [.stream, .gdr, .src, .port] (setpoints missed p) t := by
  have k := h.stirs
  rw [halfWork_counts] at k
  exact (((halfCounts_stirs _).parts (by decide)).trans (State.arranged_stirs p _)).trans (k.mono countReg_of_stirReg (by decide))

/-! Setpoints that come. -/

theorem givenRegs_kept : ∀ n : Axis, ∀ o ∈ givenRegs n, countReg o = false := by decide +kernel

theorem Poised.serving (h : Poised s p) (hh : s.halted = false) (hw : ∀ b, b ∉ missed ∧ coreWorks s b = true) (hf : NoFollower s) :
    Serving (halfCloses missed p) := by
  have hfp : NoFollower p := fun n => by rw [State.plan, h.plans]; exact hf n
  have hc : ∀ b, b ∉ missed ∧ coreWorks p.noTrips b = true := fun b => by
    obtain ⟨h1, h2⟩ := hw b
    have hr := h.regs Reg.MPL_CORE_MAP (by decide +kernel)
    refine ⟨h1, ?_⟩
    unfold coreWorks coreFailed coreOf at h2 ⊢
    rw [show p.noTrips.reg Reg.MPL_CORE_MAP = p.reg Reg.MPL_CORE_MAP from rfl, hr,
      show p.noTrips.rd F.MPL_CORE_MAP_FAILED = s.rd F.MPL_CORE_MAP_FAILED from State.rd_of_reg (f := F.MPL_CORE_MAP_FAILED) hr]
    exact h2
  have k := halfCloses_stirs missed p
  refine ⟨k.noFollower hfp, ?_, fun b => ?_⟩
  · exact ((State.flag_of_reg (f := F.LCS_LC_STAT_HALTED) (k.regs _ (by decide +kernel))).trans
      (h.flag (f := F.LCS_LC_STAT_HALTED) (by decide +kernel))).trans hh
  · have e1 := (closes_stirs (P := [.plan]) (halfFinds missed p) (by decide)).miss (by decide) b
    have e2 := (State.runTrips_stirs (P := [.plan, .src, .trips]) (by decide) (by decide) (sought missed p.noTrips) (by decide)).miss
      (by decide) b
    rw [halfCloses, e1, halfFinds_eq, e2]
    exact sought_runs hc b

theorem Worked.given (h : Worked missed s p t) (hs : Serving (halfCloses missed p)) (n : Axis) :
    Given n t ∧ (t.bank (bankOfAxis n)).missRun = 0 := by
  have k := h.counts
  have hp : ∀ m, t.plan m = (setpoints missed p).plan m := fun m => by rw [State.plan, k.plan (by decide)]; rfl
  refine ⟨?_, ?_⟩
  · exact (handOvers_given _ hs n).congr (k.sameGiven (givenRegs_kept n) (congrArg AxisPlan.ref (hp n)) (congrArg AxisPlan.galley (hp n)))
      (congrArg AxisPlan.stopRamp (hp n))
      ⟨_, _, k.clp (by decide) n⟩
  · rw [k.miss (by decide)]
    exact ((handOvers_stirs (R := stirReg) _).miss (by decide) _).trans (hs.miss _)

/-! Setpoints that are missing. -/

theorem missSrc_ne (b : Bank) : missSrc b ≠ 34 := by unfold missSrc; omega

theorem halfCounts_total (v : State) (j : Nat) : ((halfCounts v).src j).total = (v.src j).total := by
  rw [halfCounts_eq]
  refine each_keep (p := fun u => (u.src j).total = (v.src j).total) (fun u hu c _ => (bankTick_src u c j).1.trans hu) ?_
  rw [State.src_congr ((streamCounts_stirs v).src (by decide))]

theorem setpoints_src (missed : List Bank) (p : State) (j : Nat) : (setpoints missed p).src j = (halfFinds missed p).src j := by
  have e1 := (closes_stirs (P := [.plan]) (halfFinds missed p) (by decide)).src (by decide)
  have e2 := (handOvers_stirs (R := stirReg) (halfCloses missed p)).src (by decide)
  rw [setpoints, State.src_congr e2, halfCloses, State.src_congr e1]

theorem Worked.total (h : Worked missed s p t) (j : Nat) : (t.src j).total = ((halfFinds missed p).src j).total := by
  have k := h.stirs.src (by decide)
  rw [State.src_congr k, halfWork_counts, (State.arranged_reports (R := reportReg) _).src, halfCounts_total, setpoints_src]

theorem Poised.looks (h : Poised s p) (hs : Looks s) : Looks p := hs.congr (h.regs _ (by decide +kernel))

theorem Worked.missing (h : Worked missed s p t) (hp : Poised s p) (hl : Looks s) (h1 : s.powered 1 = true) (hb : b ∈ missed)
    (hd : s.powered (8 + b.val) = true) : (t.bank b).missRun = (s.bank b).missRun + 1 ∧
      (∀ n ∈ axesOfBank b, t.energised n = true → (t.plan n).ref = (s.plan n).stopRamp) ∧
      (t.src (missSrc b)).total = if (s.bank b).missRun = 0 then min 255 ((s.src (missSrc b)).total + 1)
        else (s.src (missSrc b)).total := by
  obtain ⟨e1, e2⟩ := halfFinds_misses (hp.looks hl) ((hp.powered 1).trans h1) ((hp.powered _).trans hd) hb
  rw [hp.miss b] at e1 e2
  rw [hp.src _ (missSrc_ne b)] at e2
  have hA := (closes_stirs (P := [.plan]) (halfFinds missed p) (by decide)).miss (by decide) b
  have hrun : ((halfCloses missed p).bank b).missRun = (s.bank b).missRun + 1 := hA.trans e1
  refine ⟨?_, fun n hn he => ?_, (h.total _).trans e2⟩
  · rw [h.counts.miss (by decide)]
    exact ((handOvers_stirs (R := stirReg) _).miss (by decide) b).trans hrun
  · have hpl : t.plan n = (setpoints missed p).plan n := by rw [State.plan, h.counts.plan (by decide)]; rfl
    have hr : ((halfCloses missed p).plan n).stopRamp = (s.plan n).stopRamp := by
      rw [(halfCloses_stirs missed p).ramp (by decide) n, State.plan, hp.plans]
      rfl
    rw [← hr]
    rcases handOvers_stops (halfCloses missed p) (b := b) (n := n) (by rw [hrun]; omega) hn with ho | ho
    · have hoff : (t.plan n).st = .off := (congrArg AxisPlan.st hpl).trans ho
      simp [State.energised, hoff] at he
    · rw [hpl]
      exact ho

end Handed

end Sys2Proof.Machine

namespace Sys2Proof.Machine

section Taken

variable {s p t z : State} {missed : List Bank} {b : Bank} {n : Axis} {i : Fin 8} {x : Out}

/-! ### What comes of the streams, the gate stages and CLP over a tick -/

theorem setpoints_keeps (missed : List Bank) (p : State) (h : Keeps z p) : Keeps z (setpoints missed p) := by
  have hf := halfFinds_keeps missed p h
  have hc : Keeps z (each allAxes (fun s n => s.clpTick n) (halfFinds missed p)) := Keeps.each (fun u n k => State.clpTick_keeps u n k) hf
  have hd : Keeps z (halfCloses missed p) := Keeps.each (fun u n k => beginDue_keeps u n k) hc
  exact Keeps.each (fun u b k => handOver_keeps u b k) hd

/-- The state at which the streams' half-frames begin. -/
def settled (missed : List Bank) (p : State) : State := each allBanks (fun s b => s.curtSettle b) (setpoints missed p)

theorem settled_stirs (missed : List Bank) (p : State) :
    Stirs closeReg [.plan, .miss, .src, .trips, .ramp, .clp] p (settled missed p) :=
  (setpoints_stirs missed p).trans ((curtSettles_stirs _).mono closeReg_of_stirReg fun _ e => e)

theorem settled_keeps (missed : List Bank) (p : State) : Keeps p (settled missed p) :=
  Keeps.each (fun u b k => State.curtSettle_keeps u b k) (setpoints_keeps missed p (Keeps.refl p))

theorem streamCounts_settled (missed : List Bank) (p : State) :
    streamCounts (setpoints missed p) = each (List.finRange 8) streamTick (settled missed p) := rfl

theorem Worked.stream (h : Worked missed s p t) (i : Fin 8) : t.stream i = (streamCounts (setpoints missed p)).stream i := by
  have e1 := (bankTicks_stirs (R := stirReg) (streamCounts (setpoints missed p))).stream (by decide)
  have e2 := (State.arranged_stirs (R := stirReg) (P := []) p (halfCounts (setpoints missed p))).stream (by decide)
  have e3 := h.stirs.stream (by decide)
  exact congrArg (fun v : Vector StreamS 8 => v[i]) (e3.trans (e2.trans e1))

/-- A block that goes out at the streams' half-frames is among what the tick sends. -/
theorem Worked.block (h : Worked missed s p t) (hp : Poised s p) (hx : x.stream = none)
    (hs : x ∈ (streamCounts (setpoints missed p)).sent.drop p.sent.length) : x ∈ t.sent.drop s.sent.length := by
  have hk : Keeps (streamCounts (setpoints missed p)) (halfCounts (setpoints missed p)) :=
    Keeps.each (fun u c k => bankTick_keeps u c k) (Keeps.refl _)
  have hc : Keeps p (streamCounts (setpoints missed p)) := Keeps.each (fun u j k => streamTick_keeps u j k) (settled_keeps missed p)
  refine h.sent x hx (mem_drop_of_le hp.sent.length_le ?_)
  rw [halfWork_counts]
  exact State.arranged_sent_mem (hc.trans hk).out.length_le hx (mem_drop_of_prefix hk.out hs)

/-- What comes of a stream and its block that waits over a tick. -/
def Tallied (s t : State) (i : Fin 8) : Prop :=
  let x := s.stream i
  let y := { x with count := x.count + if s.flag (F.HIF_TLM_STAT_ACTIVE i) then 1 else 0 }
  match x.wait with
  | none => t.stream i = y
  | some w =>
    (s.canSend w.port = false → t.stream i = { y with wait := none, gap := true }) ∧
    (s.canSend w.port → t.stream i = y ∨ (t.stream i = { y with wait := none, gap := false } ∧
      ∀ b ∈ w.parts, Out.block w.port i b.last b.addr b.words ∈ t.sent.drop s.sent.length))

theorem Worked.tallied (h : Worked missed s p t) (hp : Poised s p) (i : Fin 8) : Tallied s t i := by
  have k := settled_stirs missed p
  have hs : (settled missed p).stream i = s.stream i :=
    congrArg (fun v : Vector StreamS 8 => v[i]) ((k.stream (by decide)).trans hp.streams)
  have hf : (settled missed p).flag (F.HIF_TLM_STAT_ACTIVE i) = s.flag (F.HIF_TLM_STAT_ACTIVE i) :=
    (State.flag_of_reg (f := F.HIF_TLM_STAT_ACTIVE i) (k.regs _ (closeReg_kept.2 i))).trans
      (hp.flag (f := F.HIF_TLM_STAT_ACTIVE i) (openReg_kept.2 i))
  have hc : ∀ q, (settled missed p).canSend q = s.canSend q := fun q =>
    (k.canSend closeReg_kept.1 (by decide +kernel) (by decide) q).trans (hp.canSend q)
  obtain ⟨u, v, ha, hi, e, hv⟩ := streamTicks_spec (settled missed p) i
  have hu : u.stream i = s.stream i := ha.stream.trans hs
  have ht : t.stream i = (v.stream i).counted (s.flag (F.HIF_TLM_STAT_ACTIVE i)) := by
    rw [h.stream i, streamCounts_settled, e, hf]
  have hl : p.sent.length ≤ u.sent.length := ((settled_keeps missed p).out.trans ha.sent).length_le
  unfold Tallied
  dsimp only
  cases hw : (s.stream i).wait with
  | none =>
    have hwu : (u.stream i).wait = none := by rw [hu]; exact hw
    dsimp only
    rw [ht, hi.idle hwu, hu, StreamS.counted, hw]
  | some w =>
    have hwu : (u.stream i).wait = some w := by rw [hu]; exact hw
    dsimp only
    refine ⟨fun hn => ?_, fun hy => ?_⟩
    · rw [ht, hi.drop w hwu (by rw [ha.send, hc]; exact hn), hu]
      rfl
    · rcases hi.out w hwu (by rw [ha.send, hc]; exact hy) with ho | ⟨ho, hb⟩
      · exact .inl (by rw [ht, ho, hu, StreamS.counted, hw])
      · refine .inr ⟨by rw [ht, ho, hu]; rfl, fun b hm => h.block hp rfl ?_⟩
        rw [streamCounts_settled]
        exact mem_drop_of_prefix hv (mem_drop_of_le hl (hb b hm))

end Taken

end Sys2Proof.Machine

namespace Sys2Proof.Machine

section Shown

variable {s p t z : State} {missed : List Bank} {b : Bank} {n : Axis}

/-! The gate stages. -/

theorem counted_stirs (missed : List Bank) (p : State) :
    Stirs workReg [.plan, .miss, .src, .trips, .ramp, .clp, .stream] p (streamCounts (setpoints missed p)) :=
  ((setpoints_stirs missed p).mono workReg_of_closeReg (by decide)).trans
    ((streamCounts_stirs _).mono workReg_of_countReg (by decide))

theorem edgeSrc_apart (b : Bank) : edgeSrc b < 128 ∧ edgeSrc b ≠ 34 ∧ ∀ c, edgeSrc b ≠ missSrc c := by
  have := b.isLt
  unfold edgeSrc missSrc
  exact ⟨by omega, by omega, fun c => by omega⟩

theorem counted_edgeSrc (missed : List Bank) (hp : Poised s p) (b : Bank) :
    (streamCounts (setpoints missed p)).src (edgeSrc b) = s.src (edgeSrc b) := by
  obtain ⟨h1, h2, h3⟩ := edgeSrc_apart b
  rw [State.src_congr ((streamCounts_stirs _).src (by decide)), setpoints_src, halfFinds_others missed p h1 h3, hp.src _ h2]

theorem Worked.clk (h : Worked missed s p t) : t.clk = p.clk :=
  (congrArg State.clk h.stirs.rest :).trans (congrArg State.clk (halfWork_stirs missed p).rest :)

theorem Worked.marked (h : Worked missed s p t) (hp : Poised s p) (b : Bank) :
    t.gdr b = { marked s b with markAt := if s.powered (8 + b.val) then t.clk else (s.gdr b).markAt } ∧
    ((s.gdr b).edgeLost = true → edgesHold s b = false → ∀ h ∈ hbsOfBank b, (t.hb h).edge = false) := by
  have k := counted_stirs missed p
  have hg : (streamCounts (setpoints missed p)).gdr b = s.gdr b :=
    congrArg (fun v : Vector GdrS 4 => v[b]) ((k.gdr (by decide)).trans hp.gdrs)
  have hd : ∀ d, (streamCounts (setpoints missed p)).powered d = s.powered d := fun d =>
    (k.powered (by decide +kernel) d).trans (hp.powered d)
  have hc : (streamCounts (setpoints missed p)).clk = t.clk := (congrArg State.clk k.rest :).trans h.clk.symm
  have he : edgesHold (streamCounts (setpoints missed p)) b = edgesHold s b := by
    unfold edgesHold
    rw [hg, hd, counted_edgeSrc missed hp b]
  obtain ⟨e1, e2⟩ := bankTicks_marked (streamCounts (setpoints missed p)) b
  rw [hg, he] at e2
  have ha := State.arranged_stirs (R := stirReg) (P := []) p (halfCounts (setpoints missed p))
  rw [halfCounts_eq] at ha
  refine ⟨?_, fun h1 h2 x hx => h.stirs.edge x ?_⟩
  · have ht : t.gdr b = (each allBanks bankTick (streamCounts (setpoints missed p))).gdr b :=
      congrArg (fun v : Vector GdrS 4 => v[b]) ((h.stirs.gdr (by decide)).trans (ha.gdr (by decide)))
    rw [ht, e1]
    unfold Machine.marked
    rw [he, hg, hd, hc]
  · rw [halfWork_counts, halfCounts_eq]
    exact ha.edge x (e2 h1 h2 x hx)

/-! What CLP and the feedback of an axis show. -/

theorem Worked.steps (h : Worked missed s p t) (hp : Poised s p) (n : Axis) : (t.fbk n).steps = (s.fbk n).steps :=
  ((h.stirs.fbk n).1.trans ((halfWork_stirs missed p).fbk n).1).trans (hp.steps n)

theorem Worked.ran (h : Worked missed s p t) (n : Axis) : (t.clp n).ran = false :=
  h.counts.ran n ((handOvers_stirs (R := stirReg) (halfCloses missed p)).ran n (closes_ran _ n))

theorem countReg_clpStat : ∀ n : Axis, countReg (Reg.CLP_STAT n) = false := by decide +kernel

theorem Worked.flags (h : Worked missed s p t) (hp : Poised s p) (n : Axis) (hr : (s.clp n).ran = false) :
    t.flag (F.CLP_STAT_VSAT n) = false ∧ t.flag (F.CLP_STAT_ILIM n) = false := by
  obtain ⟨f1, f2⟩ := closes_flags (halfFinds missed p) n ((halfFinds_stirs missed p).ran n (hp.ran n hr))
  have e : t.reg (Reg.CLP_STAT n) = (closes (halfFinds missed p)).reg (Reg.CLP_STAT n) :=
    (h.counts.regs _ (countReg_clpStat n)).trans ((handOvers_stirs (R := fun _ => false) (halfCloses missed p)).regs _ rfl)
  exact ⟨(State.flag_of_reg (f := F.CLP_STAT_VSAT n) e).trans f1, (State.flag_of_reg (f := F.CLP_STAT_ILIM n) e).trans f2⟩

end Shown

end Sys2Proof.Machine

namespace Sys2Proof.Machine

section Ticks

variable {s u v w z p t : State} {missed : List Bank}

/-! ### The two ticks -/

theorem Poised.trans (h : Poised s u) (k : Poised u v) : Poised s v where
  regs o e := (k.regs o e).trans (h.regs o e)
  plans := k.plans.trans h.plans
  ran n e := k.ran n (h.ran n e)
  miss b := (k.miss b).trans (h.miss b)
  streams := k.streams.trans h.streams
  gdrs := k.gdrs.trans h.gdrs
  vaon := k.vaon.trans h.vaon
  steps n := (k.steps n).trans (h.steps n)
  src j e := (k.src j e).trans (h.src j e)
  ops o ho := by
    obtain ⟨y, hy, e1⟩ := k.ops o ho
    obtain ⟨x, hx, e2⟩ := h.ops y hy
    exact ⟨x, hx, e2.trans e1⟩
  port q := by rw [k.port q, h.port q]
  sent := h.sent.trans k.sent

/-- The clock, its notes, the marks of the tick and the converters' conversions open a tick. -/
theorem Poised.marks {k g tc tg la ho : Nat} {hf co : Bool} {q : List (Nat × Word)} {m : List (Nat × Nat × Nat)} {i : InClk}
    {a : Vector AdcS 4} : Poised s { s with
      clk := k, gtc := g, seqDone := q, cntNow := m, inClk := i, tickClk := tc, tickGtc := tg, half := hf, latches := la
      horizon := ho, cutoff := co, adcs := a } :=
  ⟨fun _ _ => rfl, rfl, fun _ => id, fun _ => rfl, rfl, rfl, rfl, fun _ => rfl, fun _ _ => rfl, fun o h => ⟨o, h, rfl⟩,
    fun q => by cases q <;> rfl, List.prefix_rfl⟩

theorem State.advTo_poised (s : State) (c : Nat) : Poised s (s.advTo c) := by
  obtain ⟨k, g, q, m, i, e⟩ := s.advTo_frame c
  rw [e]
  exact Poised.marks

theorem halved_poised (s : State) : Poised s { s with half := true } := Poised.marks

theorem frameAt_poised (s : State) (a : Vector AdcS 4) : Poised s ({ s with adcs := a } : State).frameAt := Poised.marks

theorem Opened.poised (h : Opened s t) : Poised s t := by
  have e := h.rest
  have hp : t.plans = s.plans := (congrArg State.plans e :)
  have hc : t.clps = s.clps := (congrArg State.clps e :)
  have hcl : ∀ n, t.clp n = s.clp n := fun n => congrArg (fun v : Vector ClpS 32 => v[n]) hc
  have hb : t.banks = s.banks := (congrArg State.banks e :)
  have hf : t.fbks = s.fbks := (congrArg State.fbks e :)
  have ho : t.ops = s.ops := (congrArg State.ops e :)
  refine ⟨fun o hr => h.regs o ?_, hp, fun n => ?_, fun b => ?_, (congrArg State.streams e :), (congrArg State.gdrs e :),
    (congrArg (fun x : State => x.pmu.vaon) e :), fun n => ?_, fun j hj => ?_, fun o hm => ⟨o, ho ▸ hm, rfl⟩, fun q => ?_, ?_⟩
  · intro hm
    simp only [List.mem_cons, List.not_mem_nil, or_false] at hm
    rcases hm with rfl | rfl | rfl <;> revert hr <;> decide +kernel
  · rw [hcl]; exact id
  · rw [State.bank, hb]; rfl
  · rw [State.fbk, hf]; rfl
  · rw [h.src, if_neg hj]
  · have ha : t.portA = s.portA := (congrArg State.portA e :)
    have hb : t.portB = s.portB := (congrArg State.portB e :)
    cases q
    · exact congrArg (fun x : PortS => { x with held := t.portA.held }) ha
    · exact congrArg (fun x : PortS => { x with held := t.portB.held }) hb
  · rw [show t.sent = s.sent from (congrArg State.sent e :)]

theorem openReg_aux : ∀ e : Fin 64, openReg (Reg.ADC_AUX e) = true := by decide +kernel

theorem frameShows_poised (raws : List (Fin 64 × List Raw)) (offs : List (Coil × BitVec 16)) (s : State) :
    Poised s (frameShows raws offs s) := by
  have h : Stirs openReg [] s (frameShows raws offs s) := frameShows_stirs openReg_aux raws offs s
  have hn : ∀ x : Part, x ∉ [] := fun _ => List.not_mem_nil
  have hv : (frameShows raws offs s).pmu.vaon = s.pmu.vaon := (congrArg (fun x : State => x.pmu.vaon) h.rest :)
  exact ⟨h.regs, h.plan (hn _), h.ran, h.miss (hn _), h.stream (hn _), h.gdr (hn _), hv, fun n => (h.fbk n).1,
    fun j _ => State.src_congr (h.src (hn _)) j, h.ops (hn _), h.port (hn _), (frameShows_keeps raws offs s (Keeps.refl s)).out⟩

/-! What follows a frame's work. -/

theorem Asks.stirs (h : Asks z w t) : Stirs stirReg [.port] w t := by
  have e := h.rest
  have hp : t.plans = w.plans := (congrArg State.plans e :)
  have hc : t.clps = w.clps := (congrArg State.clps e :)
  have hb : t.banks = w.banks := (congrArg State.banks e :)
  have hf : t.fbks = w.fbks := (congrArg State.fbks e :)
  have hh : ∀ x, t.hb x = w.hb x := fun x => congrArg (fun v : Vector HbS 128 => v[x]) (congrArg State.hbs e :)
  have ho : t.ops = w.ops := (congrArg State.ops e :)
  have hi : t.inClk = w.inClk := (congrArg State.inClk e :)
  have hpl : ∀ n, t.plan n = w.plan n := fun n => congrArg (fun v : Vector AxisPlan 32 => v[n]) hp
  have hcl : ∀ n, t.clp n = w.clp n := fun n => congrArg (fun v : Vector ClpS 32 => v[n]) hc
  refine ⟨?_, fun o hr => h.regs o ?_, fun n => ?_, fun n => ?_, fun n => ?_, fun x => ?_, fun _ => hp, fun _ n => ?_,
    fun _ o hm => ⟨o, ho ▸ hm, rfl⟩, fun _ n => ?_, fun _ b => ?_, fun _ => (congrArg State.streams e :),
    fun _ => (congrArg State.gdrs e :), fun _ => (congrArg (fun x : State => x.fcs.srcs) e :), fun _ => ⟨[], ?_, by simp⟩,
    fun hn => absurd (List.mem_singleton.2 rfl) hn⟩
  · rw [e]
  · by_contra hq
    rw [stirReg_of_eventReg o (by simpa using hq)] at hr
    cases hr
  · rw [State.fbk, hf]; exact ⟨rfl, id⟩
  · rw [hpl]; exact id
  · rw [hcl]; exact id
  · rw [hh]; exact id
  · rw [hpl]
  · rw [hcl]
  · rw [State.bank, hb]; rfl
  · rw [hi, List.append_nil]

/-- With no calibration to begin, a frame's work ends with its index pulses forgotten. -/
theorem frameBegins_uncalled (h : ∀ o ∈ s.ops, o.op ≠ 0x1B) : frameBegins s = each allAxes forgetIndex s := by
  have k : Stirs stirReg [] s (each allAxes forgetIndex s) := forgetIndexes_stirs s
  have hn : ∀ o ∈ (each allAxes forgetIndex s).ops, o.op ≠ 0x1B := fun o ho => by
    obtain ⟨x, hx, e⟩ := k.ops List.not_mem_nil o ho
    exact e ▸ h x hx
  unfold frameBegins
  extract_lets v
  change ∀ o ∈ v.ops, o.op ≠ 0x1B at hn
  exact each_keep (p := fun u => u = v) (fun u hu o ho => (calStart_other u o (hn o ho)).trans hu) rfl

theorem half_worked (missed : List Bank) (s p : State) : Worked missed s p (halfWork missed p) :=
  ⟨Stirs.refl _, fun _ _ h => h⟩

theorem frame_worked (hs : z.sent = s.sent) (hz : Keeps z p) (hp : Poised s p) (ho : ∀ o ∈ s.ops, o.op ≠ 0x1B) :
    Worked missed s p (State.arranged z (frameAsks (frameBegins (halfWork missed p))).mmioServe) := by
  have hw : ∀ o ∈ (halfWork missed p).ops, o.op ≠ 0x1B := fun o hm => by
    obtain ⟨y, hy, e1⟩ := (halfWork_stirs missed p).ops (by decide) o hm
    obtain ⟨x, hx, e2⟩ := hp.ops y hy
    exact e1 ▸ e2 ▸ ho x hx
  have hk : Keeps z (halfWork missed p) := halfWork_keeps missed p hz
  have kb : Keeps (halfWork missed p) (frameBegins (halfWork missed p)) := frameBegins_keeps _ (Keeps.refl _)
  have hf : Stirs stirReg [.port] (halfWork missed p) (frameBegins (halfWork missed p)) := by
    rw [frameBegins_uncalled hw]
    exact forgetIndexes_stirs _
  generalize frameBegins (halfWork missed p) = w at *
  have km : Keeps w (frameAsks w).mmioServe := State.mmioServe_keeps _ (frameAsks_keeps w (Keeps.refl w))
  refine ⟨hf.trans (frameAsks_asks w (hk.trans kb)).stirs, fun x hx hm => ?_⟩
  rw [← hs] at hm ⊢
  exact State.arranged_sent_mem ((hk.trans kb).trans km).out.length_le hx (mem_drop_of_prefix (kb.trans km).out hm)

end Ticks

end Sys2Proof.Machine

namespace Sys2Proof.Machine

/-- The state at which a half-frame's work begins. -/
def State.halfAt (s : State) : State := { s.advTo (s.tickClk + s.period / 2) with half := true }

theorem exec_halfFrameTick (s : State) (missed : List Bank) (ht : s.ticking = true) (hh : s.half = false) :
    exec (.halfFrameTick missed) s = .next (halfWork missed s.halfAt) := by
  change execHalfFrameTick missed s = _
  unfold execHalfFrameTick
  rw [if_neg (by simp [ht, hh])]
  rfl

theorem exec_halfFrameTick_over (s : State) (missed : List Bank) (hh : s.half = true) :
    exec (.halfFrameTick missed) s = .next s := by
  change execHalfFrameTick missed s = _
  unfold execHalfFrameTick
  rw [if_pos (by simp [hh])]

theorem State.halfAt_poised (s : State) : Poised s s.halfAt := (s.advTo_poised _).trans (halved_poised _)

/-- What a half-frame tick leaves of the tick. -/
theorem halfWork_halfAt (s : State) (missed : List Bank) : (halfWork missed s.halfAt).clk = (s.advTo (s.tickClk + s.period / 2)).clk ∧
    (halfWork missed s.halfAt).half = true ∧ (halfWork missed s.halfAt).tickClk = s.tickClk ∧
    (halfWork missed s.halfAt).reqs = s.reqs := by
  obtain ⟨k, g, q, m, i, e⟩ := s.advTo_frame (s.tickClk + s.period / 2)
  have h := (halfWork_stirs missed s.halfAt).rest
  have ht : s.halfAt.tickClk = s.tickClk := by rw [State.halfAt, e]
  have hr : s.halfAt.reqs = s.reqs := by rw [State.halfAt, e]
  exact ⟨(congrArg State.clk h :), (congrArg State.half h :), (congrArg State.tickClk h :).trans ht,
    (congrArg State.reqs h :).trans hr⟩

/-- A frame tick with no calibration to begin does the half-frame's work on a state that it opens. -/
theorem exec_frameTick_worked (s : State) (raws : List (Fin 64 × List Raw)) (offs : List (Coil × BitVec 16)) (missed : List Bank)
    (ht : s.ticking = true) (ho : ∀ o ∈ s.ops, o.op ≠ 0x1B) :
    ∃ p t, exec (.frameTick raws offs missed) s = .next t ∧ Poised s p ∧ Worked missed s p t := by
  obtain ⟨a, e⟩ := exec_frameTick raws offs missed ht
  have ha := s.advTo_poised (s.tickClk + s.period)
  have hs := s.advTo_sent (s.tickClk + s.period)
  have hu : (s.advTo (s.tickClk + s.period)).ticking = true := by rw [State.advTo_ticking]; exact ht
  generalize s.advTo (s.tickClk + s.period) = u at *
  have hz := ha.trans (frameAt_poised u a)
  have hat : ({ u with adcs := a } : State).frameAt.atTick = true := State.frameAt_atTick _ hu
  have hsent : ({ u with adcs := a } : State).frameAt.sent = s.sent := hs
  generalize ({ u with adcs := a } : State).frameAt = z at *
  have hp := (hz.trans (z.frameCounts_opened hat).poised).trans (frameShows_poised raws offs _)
  have hk := frameShows_keeps raws offs _ (State.frameCounts_keeps z (Keeps.refl z))
  exact ⟨_, _, e, hp, frame_worked hsent hk hp ho⟩

/-- Settles O49: both ticks do the half-frame's work, the frame tick on the state that its opening leaves; the work comes in
parts, each of which lets stand what the others hand over. -/
theorem ticksHandOver : Obligations.TicksHandOver := by
  unfold Obligations.TicksHandOver
  intro s raws offs missed ht handed
  have hands : ∀ p t, Poised s p → Worked missed s p t → handed t := fun p t hp h => by
    refine ⟨fun hh hw hf n => ?_, fun h1 h2 h3 h4 b hb hd => h.missing hp ⟨h1, h2, h3⟩ h4 hb hd, h.tallied hp, h.marked hp,
      fun n => ⟨h.steps hp n, h.ran n, h.flags hp n⟩⟩
    obtain ⟨⟨g1, g2, g3, g4, g5, g6⟩, g7⟩ := h.given (hp.serving hh hw hf) n
    exact ⟨g1, g2, g3, g4, g5, g6, g7⟩
  refine ⟨fun hh => ?_, fun hh => exec_halfFrameTick_over s missed hh, fun ho => ?_⟩
  · obtain ⟨c1, c2, c3, c4⟩ := halfWork_halfAt s missed
    exact ⟨_, exec_halfFrameTick s missed ht hh, c1, c2, c3, c4, hands _ _ s.halfAt_poised (half_worked missed s _)⟩
  · obtain ⟨p, t, e, hp, h⟩ := exec_frameTick_worked s raws offs missed ht ho
    exact ⟨t, e, hands p t hp h⟩

end Sys2Proof.Machine

namespace Sys2Proof.Machine

/-! ### Every command answers a next state and takes nothing back (R52, R54, R96) -/

/-- An outcome that answers a next state, and takes back nothing of s. -/
def Answers (s : State) (o : Host.Outcome State Fault Refusal) : Prop := ∃ t, o = .next t ∧ Keeps s t

theorem Answers.next {s t : State} (h : Keeps s t) : Answers s (.next t) := ⟨t, rfl, h⟩

/-- Whatever decides a descriptor, it arrives in ring order first (R54, R110). -/
theorem descriptor_answers {s : State} {k : Ctx} {op : Nat} {d : Desc} {f : State → Nat → State}
    (hf : ∀ t i, Keeps s t → Keeps s (f t i)) : Answers s (.next (descriptor k op d f s)) :=
  Answers.next (descriptor_keeps k op d f hf s (Keeps.refl s))

theorem execCoilStep_answers (p : Coil) (s : State) : Answers s (execCoilStep p s) := by
  unfold execCoilStep
  refine Answers.next ?_
  repeat' with_reducible first
    | exact Keeps.refl s | apply State.advTo_keeps | apply State.setCoil_keeps | apply coilStep_keeps
    | apply Keeps.ite | split

theorem execCarrierReload_answers (p : Coil) (m1 m2 : HbMeas) (s : State) :
    Answers s (execCarrierReload p m1 m2 s) := by
  unfold execCarrierReload
  refine Answers.next ?_
  repeat' with_reducible first
    | exact Keeps.refl s | apply State.advTo_keeps | apply reloadHb_keeps | apply State.setCoil_keeps
    | apply Keeps.ite | split

theorem execTripRelease_answers (h : HalfBridge) (s : State) : Answers s (execTripRelease h s) := by
  unfold execTripRelease
  refine Answers.next ?_
  repeat' with_reducible first
    | exact Keeps.refl s | apply State.advTo_keeps | apply State.release_keeps | apply Keeps.ite | split

theorem execSyncSample_answers (b : Bank) (j : Fin 8) (r1 r2 : Raw) (s : State) :
    Answers s (execSyncSample b j r1 r2 s) := by
  unfold execSyncSample
  refine Answers.next ?_
  repeat' with_reducible first
    | exact Keeps.refl s | apply auxRun_keeps | apply State.advTo_keeps | apply pickSlice_keeps | apply syncCoil_keeps
    | apply Keeps.ite | split

theorem execInjectedWindowOpen_answers (tag : Fin 1024) (s : State) : Answers s (execInjectedWindowOpen tag s) := by
  unfold execInjectedWindowOpen
  refine Answers.next ?_
  repeat' with_reducible first
    | exact Keeps.refl s | apply auxRun_keeps | apply State.advToGtc_keeps | apply State.setOp_keeps
    | apply State.advTo_keeps | apply pickSlice_keeps | apply Keeps.ite | split | refine Keeps.record ?_ rfl

theorem execInjectedResultReady_answers (tag : Fin 1024) (r : Raw) (s : State) :
    Answers s (execInjectedResultReady tag r s) := by
  unfold execInjectedResultReady
  refine Answers.next ?_
  repeat' with_reducible first
    | exact Keeps.refl s | apply State.advTo_keeps | apply State.finish_keeps | apply Keeps.ite | split

theorem execInjectedDrop_answers (tag : Fin 1024) (s : State) : Answers s (execInjectedDrop tag s) := by
  unfold execInjectedDrop
  refine Answers.next ?_
  repeat' with_reducible first
    | exact Keeps.refl s | apply State.advToGtc_keeps | apply State.cnt_keeps | apply State.finish_keeps
    | apply Keeps.ite | split

theorem execSliceCalibrationDone_answers (b : Bank) (x : SliceCal) (s : State) :
    Answers s (execSliceCalibrationDone b x s) := by
  unfold execSliceCalibrationDone
  refine Answers.next ?_
  repeat' with_reducible first
    | exact Keeps.refl s | apply State.advTo_keeps | apply latchSlice_keeps | apply State.setAdc_keeps
    | apply State.wr_keeps | apply failSlice_keeps | apply endSliceOp_keeps | apply Keeps.ite | split

theorem execSliceRotation_answers (b : Bank) (s : State) : Answers s (execSliceRotation b s) := by
  unfold execSliceRotation
  refine Answers.next ?_
  repeat' with_reducible first
    | exact Keeps.refl s | apply auxRun_keeps | apply State.advTo_keeps | apply State.wr_keeps
    | apply State.setAdc_keeps | apply Keeps.ite | split

theorem execFullCalibrationDone_answers (cals : List (Bank × Fin 5 × SliceCal)) (offs : List (Coil × BitVec 16))
    (s : State) :
    Answers s (execFullCalibrationDone cals offs s) := by
  unfold execFullCalibrationDone
  refine Answers.next ?_
  repeat' with_reducible first
    | exact Keeps.refl s | assumption | intro x | apply State.advTo_keeps | apply fullBank_keeps
    | apply State.finish_keeps | apply Keeps.each | split

theorem execOpenWireTestStart_answers (b : Bank) (s : State) : Answers s (execOpenWireTestStart b s) := by
  unfold execOpenWireTestStart
  refine Answers.next ?_
  repeat' with_reducible first
    | exact Keeps.refl s | apply State.drop_keeps | apply State.wr_keeps | apply State.setAdc_keeps | apply Keeps.ite

theorem execOpenWireTestDone_answers (b : Bank) (above : BitVec 16) (s : State) :
    Answers s (execOpenWireTestDone b above s) := by
  unfold execOpenWireTestDone
  refine Answers.next ?_
  repeat' with_reducible first
    | exact Keeps.refl s | assumption | intro x | apply State.advTo_keeps | apply State.setAdc_keeps
    | apply State.wr_keeps | apply State.sqc_keeps | apply State.goEnd_keeps | apply State.post_keeps
    | apply State.trip_keeps | apply Keeps.each | split

theorem execSerialWordStart_answers (n : Axis) (dataHigh : Bool) (s : State) :
    Answers s (execSerialWordStart n dataHigh s) := by
  unfold execSerialWordStart
  refine Answers.next ?_
  repeat' with_reducible first
    | exact Keeps.refl s | apply State.advTo_keeps | apply State.setFbk_keeps | apply State.wordTmo_keeps
    | apply Keeps.ite | split

theorem execSerialWordDone_answers (n : Axis) (w : SerialWord) (s : State) : Answers s (execSerialWordDone n w s) := by
  unfold execSerialWordDone
  refine Answers.next ?_
  repeat' with_reducible first
    | exact Keeps.refl s | apply State.advTo_keeps | apply State.wordTmo_keeps | apply State.sqc_keeps
    | apply State.wordError_keeps | apply State.setFbk_keeps | apply State.trip_keeps | apply goodWord_keeps
    | apply Keeps.ite | split

theorem execSerialTimeout_answers (n : Axis) (echo : Bool) (s : State) : Answers s (execSerialTimeout n echo s) := by
  unfold execSerialTimeout
  refine Answers.next ?_
  repeat' with_reducible first
    | exact Keeps.refl s | apply State.advTo_keeps | apply State.wordTmo_keeps | apply Keeps.ite | split

theorem execEncoderLost_answers (n : Axis) (s : State) : Answers s (execEncoderLost n s) := by
  unfold execEncoderLost
  refine Answers.next ?_
  repeat' with_reducible first
    | exact Keeps.refl s | apply State.wr_keeps | apply State.sqc_keeps | apply State.setFbk_keeps
    | apply State.switchToLes_keeps | apply State.trip_keeps | apply Keeps.ite

theorem execQuadEdge_answers (n : Axis) (up illegal : Bool) (s : State) : Answers s (execQuadEdge n up illegal s) := by
  unfold execQuadEdge
  refine Answers.next ?_
  repeat' with_reducible first
    | exact Keeps.refl s | apply State.sqc_keeps | apply State.setFbk_keeps | apply Keeps.ite

theorem execIndexEvent_answers (n : Axis) (s : State) : Answers s (execIndexEvent n s) := by
  unfold execIndexEvent
  refine Answers.next ?_
  repeat' with_reducible first
    | exact Keeps.refl s | apply State.setFbk_keeps | apply State.cnt_keeps | apply State.wrS_keeps
    | apply State.trip_keeps | apply Keeps.ite | split

theorem execIndexCorrection_answers (n : Axis) (s : State) : Answers s (execIndexCorrection n s) := by
  unfold execIndexCorrection
  refine Answers.next ?_
  repeat' with_reducible first
    | exact Keeps.refl s | apply State.setFbk_keeps | apply State.cnt_keeps | apply State.axisEvent_keeps
    | apply Keeps.ite | split

theorem execStepEdge_answers (n : Axis) (dirHigh held enableHigh : Bool) (s : State) :
    Answers s (execStepEdge n dirHigh held enableHigh s) := by
  unfold execStepEdge
  refine Answers.next ?_
  repeat' with_reducible first
    | exact Keeps.refl s | apply State.wrB_keeps | apply State.sqc_keeps | apply State.advTo_keeps
    | apply State.wrS_keeps | apply Keeps.ite

theorem execLatchPoint_answers (s : State) : Answers s (execLatchPoint s) := by
  unfold execLatchPoint
  refine Answers.next ?_
  repeat' with_reducible first
    | exact Keeps.refl s | assumption | intro x | apply State.advTo_keeps | apply State.arranged_keeps
    | apply State.finding_keeps | apply latchOne_keeps | apply Keeps.each | split | refine Keeps.record ?_ rfl

theorem execCompareOutputPulse_answers (n : Axis) (s : State) : Answers s (execCompareOutputPulse n s) := by
  unfold execCompareOutputPulse
  refine Answers.next ?_
  repeat' with_reducible first
    | exact Keeps.refl s | apply State.advTo_keeps | apply State.emit_keeps | apply State.setFbk_keeps
    | apply Keeps.ite

theorem execSegmentStart_answers (tag : Fin 1024) (s : State) : Answers s (execSegmentStart tag s) := by
  unfold execSegmentStart
  refine Answers.next ?_
  repeat' with_reducible first
    | exact Keeps.refl s | assumption | intro x | apply State.arranged_keeps | apply State.advToGtc_keeps
    | apply State.cancelStart_keeps | apply State.endBefore_keeps | apply State.setOp_keeps | apply startOn_keeps
    | apply Keeps.each | apply Keeps.ite | split | refine Keeps.record ?_ rfl

theorem execSegmentEnd_answers (tag : Fin 1024) (s : State) : Answers s (execSegmentEnd tag s) := by
  unfold execSegmentEnd
  refine Answers.next ?_
  split
  · exact Keeps.refl s
  · dsimp only
    split
    · exact Keeps.refl s
    · exact Keeps.ite (State.segEnd_keeps _ _ _ (State.advToGtc_keeps (Keeps.refl s) _)) (Keeps.refl s)

theorem execHomeIndexFound_answers (n : Axis) (s : State) : Answers s (execHomeIndexFound n s) := by
  unfold execHomeIndexFound
  refine Answers.next ?_
  repeat' with_reducible first
    | exact Keeps.refl s | apply State.setFbk_keeps | apply State.homeFound_keeps | apply Keeps.ite | split

theorem execHomeHardStopFound_answers (n : Axis) (s : State) : Answers s (execHomeHardStopFound n s) := by
  unfold execHomeHardStopFound
  refine Answers.next ?_
  repeat' with_reducible first
    | exact Keeps.refl s | apply State.homeFound_keeps | apply Keeps.ite | split

theorem execStopEffect_answers (tag : Fin 1024) (s : State) : Answers s (execStopEffect tag s) := by
  unfold execStopEffect
  refine Answers.next ?_
  repeat' with_reducible first
    | exact Keeps.refl s | assumption | intro x | apply State.arranged_keeps | apply State.setOp_keeps
    | apply State.markSs1_keeps | apply State.reach_keeps | apply State.setSs1_keeps | apply State.beginLeave_keeps
    | apply Keeps.each | apply Keeps.ite | split

theorem execBrakingStandstill_answers (n : Axis) (s : State) : Answers s (execBrakingStandstill n s) := by
  unfold execBrakingStandstill
  refine Answers.next ?_
  repeat' with_reducible first
    | exact Keeps.refl s | apply State.arranged_keeps | apply State.advToGtc_keeps | apply State.standstill_keeps
    | apply Keeps.ite | split

theorem execReversalBrakeStandstill_answers (n : Axis) (s : State) : Answers s (execReversalBrakeStandstill n s) := by
  unfold execReversalBrakeStandstill
  refine Answers.next ?_
  repeat' with_reducible first
    | exact Keeps.refl s | apply State.advToGtc_keeps | apply State.setPlan_keeps | apply Keeps.ite | split

theorem execReversalEnd_answers (n : Axis) (s : State) : Answers s (execReversalEnd n s) := by
  unfold execReversalEnd
  refine Answers.next ?_
  repeat' with_reducible first
    | exact Keeps.refl s | apply State.arranged_keeps | apply State.advToGtc_keeps | apply State.standstill_keeps
    | apply Keeps.ite | split

theorem execSs1BrakingStart_answers (n : Axis) (s : State) : Answers s (execSs1BrakingStart n s) := by
  unfold execSs1BrakingStart
  refine Answers.next ?_
  repeat' with_reducible first
    | exact Keeps.refl s | apply State.arranged_keeps | apply State.setSs1_keeps | apply State.beginLeave_keeps
    | apply Keeps.ite | split

theorem execSs1Standstill_answers (n : Axis) (s : State) : Answers s (execSs1Standstill n s) := by
  unfold execSs1Standstill
  refine Answers.next ?_
  repeat' with_reducible first
    | exact Keeps.refl s | apply State.arranged_keeps | apply State.ss1Off_keeps | apply Keeps.ite | split

theorem execSs1Timeout_answers (n : Axis) (s : State) : Answers s (execSs1Timeout n s) := by
  unfold execSs1Timeout
  refine Answers.next ?_
  repeat' with_reducible first
    | exact Keeps.refl s | apply State.arranged_keeps | apply State.advTo_keeps | apply State.cancelQueued_keeps
    | apply State.ss1Off_keeps | apply Keeps.ite | split

theorem execPtmDialogueStart_answers (s : State) : Answers s (execPtmDialogueStart s) := by
  unfold execPtmDialogueStart
  refine Answers.next ?_
  repeat' with_reducible first
    | exact Keeps.refl s | apply State.advTo_keeps | apply State.ptmLose_keeps | apply State.emit_keeps
    | apply Keeps.ite | refine Keeps.record ?_ rfl

theorem execPtmDialogueDone_answers (r : PtmReply) (s : State) : Answers s (execPtmDialogueDone r s) := by
  unfold execPtmDialogueDone
  refine Answers.next ?_
  repeat' with_reducible first
    | exact Keeps.refl s | apply State.wrS_keeps | apply ptmSteer_keeps | apply State.ptmLose_keeps
    | apply State.wr_keeps | apply State.devEvent_keeps | apply Keeps.ite | refine Keeps.record ?_ rfl

theorem execPtmDialogueFailed_answers (s : State) : Answers s (execPtmDialogueFailed s) := by
  unfold execPtmDialogueFailed
  refine Answers.next ?_
  repeat' with_reducible first
    | exact Keeps.refl s | apply State.cnt_keeps | apply State.ptmLose_keeps | apply Keeps.ite
    | refine Keeps.record ?_ rfl

theorem execGtcStep_answers (s : State) : Answers s (execGtcStep s) := by
  unfold execGtcStep
  refine Answers.next ?_
  repeat' with_reducible first
    | exact Keeps.refl s | apply State.drop_keeps | apply State.wr64_keeps | apply State.wrS_keeps | apply Keeps.ite
    | split | refine Keeps.record ?_ rfl

theorem execSyncInEdge_answers (late : Fin 4) (s : State) : Answers s (execSyncInEdge late s) := by
  unfold execSyncInEdge
  refine Answers.next ?_
  repeat' with_reducible first
    | exact Keeps.refl s | apply State.sqc_keeps | apply State.syncUse_keeps | apply Keeps.ite | split
    | refine Keeps.record ?_ rfl

theorem execSyncLost_answers (s : State) : Answers s (execSyncLost s) := by
  unfold execSyncLost
  refine Answers.next ?_
  repeat' with_reducible first
    | exact Keeps.refl s | apply State.syncLose_keeps | apply Keeps.ite

theorem execHalfFrameTick_answers (missed : List Bank) (s : State) : Answers s (execHalfFrameTick missed s) := by
  unfold execHalfFrameTick
  refine Answers.next ?_
  repeat' with_reducible first
    | exact Keeps.refl s | apply State.advTo_keeps | apply halfWork_keeps | apply Keeps.ite
    | refine Keeps.record ?_ rfl

theorem execFrameTick_answers (raws : List (Fin 64 × List Raw)) (offs : List (Coil × BitVec 16))
    (missed : List Bank) (s : State) :
    Answers s (execFrameTick raws offs missed s) := by
  cases h : s.ticking with
  | false => exact ⟨s, by simp [execFrameTick, h], Keeps.refl s⟩
  | true =>
    obtain ⟨a, e⟩ := exec_frameTick raws offs missed h
    have hz : Keeps s ({ s.advTo (s.tickClk + s.period) with adcs := a } : State).frameAt :=
      (State.advTo_keeps (Keeps.refl s) _).upd rfl rfl rfl rfl rfl rfl rfl rfl
    have hf := fun z => frameWork_keeps raws offs missed _ (State.frameCounts_keeps z (Keeps.refl z))
    exact ⟨_, e, State.arranged_keeps _ hz (State.mmioServe_keeps _ (frameAsks_keeps _ (hf _)))⟩

theorem execCoilOvercurrentTrip_answers (p : Coil) (s : State) : Answers s (execCoilOvercurrentTrip p s) := by
  unfold execCoilOvercurrentTrip
  refine Answers.next ?_
  repeat' with_reducible first
    | exact Keeps.refl s | apply coilTrip_keeps | apply Keeps.ite

theorem execDidtTrip_answers (p : Coil) (s : State) : Answers s (execDidtTrip p s) := by
  unfold execDidtTrip
  refine Answers.next ?_
  repeat' with_reducible first
    | exact Keeps.refl s | apply coilTrip_keeps | apply Keeps.ite

theorem execSwitchSaturationTrip_answers (h : HalfBridge) (s : State) : Answers s (execSwitchSaturationTrip h s) := by
  unfold execSwitchSaturationTrip
  refine Answers.next ?_
  repeat' with_reducible first
    | exact Keeps.refl s | apply hbTrip_keeps | apply Keeps.ite

theorem execBootstrapUvTrip_answers (h : HalfBridge) (s : State) : Answers s (execBootstrapUvTrip h s) := by
  unfold execBootstrapUvTrip
  refine Answers.next ?_
  repeat' with_reducible first
    | exact Keeps.refl s | apply hbTrip_keeps | apply State.setHb_keeps | apply Keeps.ite

theorem execTripInput_answers (b : Bank) (second : Bool) (s : State) : Answers s (execTripInput b second s) := by
  unfold execTripInput
  refine Answers.next ?_
  repeat' with_reducible first
    | exact Keeps.refl s | assumption | intro x | apply State.setIn_keeps | apply State.trip_keeps
    | apply State.tripHb_keeps | apply State.sqc_keeps | apply Keeps.each | apply Keeps.ite

theorem execTripInputRelease_answers (b : Bank) (second : Bool) (s : State) :
    Answers s (execTripInputRelease b second s) := by
  unfold execTripInputRelease
  refine Answers.next ?_
  repeat' with_reducible first
    | exact Keeps.refl s | apply State.setIn_keeps | apply State.inactive_keeps

theorem execSoftTurnoffStep2_answers (h : HalfBridge) (s : State) : Answers s (execSoftTurnoffStep2 h s) := by
  unfold execSoftTurnoffStep2
  refine Answers.next ?_
  repeat' with_reducible first
    | exact Keeps.refl s | apply State.advTo_keeps | apply State.setHb_keeps | split

theorem execGatePathFault_answers (h : HalfBridge) (s : State) : Answers s (execGatePathFault h s) := by
  unfold execGatePathFault
  refine Answers.next ?_
  repeat' with_reducible first
    | exact Keeps.refl s | apply State.gdrStat_keeps | apply State.trip_keeps | apply Keeps.ite

theorem execInterlockActed_answers (h : HalfBridge) (s : State) : Answers s (execInterlockActed h s) := by
  unfold execInterlockActed
  refine Answers.next ?_
  repeat' with_reducible first
    | exact Keeps.refl s | apply State.setHb_keeps | apply State.gdrStat_keeps | apply State.trip_keeps
    | apply Keeps.ite

theorem execVgUndervoltage_answers (b : Bank) (s : State) : Answers s (execVgUndervoltage b s) := by
  unfold execVgUndervoltage
  refine Answers.next ?_
  repeat' with_reducible first
    | exact Keeps.refl s | assumption | intro x | apply State.setGdr_keeps | apply State.setHb_keeps
    | apply brakeOff_keeps | apply State.sqc_keeps | apply State.trip_keeps | apply Keeps.each | apply Keeps.ite

theorem execVgRecovered_answers (b : Bank) (s : State) : Answers s (execVgRecovered b s) := by
  unfold execVgRecovered
  refine Answers.next ?_
  repeat' with_reducible first
    | exact Keeps.refl s | apply State.setGdr_keeps | apply State.inactive_keeps | apply Keeps.ite

theorem execPwmEdgesLost_answers (b : Bank) (s : State) : Answers s (execPwmEdgesLost b s) := by
  unfold execPwmEdgesLost
  refine Answers.next ?_
  repeat' with_reducible first
    | exact Keeps.refl s | assumption | intro x | apply State.advTo_keeps | apply State.softStart_keeps
    | apply State.setHb_keeps | apply State.setGdr_keeps | apply State.sqc_keeps | apply State.trip_keeps
    | apply Keeps.each | apply Keeps.ite

theorem execMotorSupplySample_answers (b : Bank) (code : BitVec 10) (s : State) :
    Answers s (execMotorSupplySample b code s) := by
  unfold execMotorSupplySample
  refine Answers.next ?_
  repeat' with_reducible first
    | exact Keeps.refl s | apply State.wr_keeps | apply State.setGdr_keeps | apply brakeSample_keeps
    | apply esrSample_keeps | apply supplySources_keeps | apply Keeps.ite

theorem execBrakeOnTimeExceeded_answers (b : Bank) (s : State) : Answers s (execBrakeOnTimeExceeded b s) := by
  unfold execBrakeOnTimeExceeded
  refine Answers.next ?_
  repeat' with_reducible first
    | exact Keeps.refl s | apply State.advTo_keeps | apply State.setGdr_keeps | apply State.sqc_keeps
    | apply State.trip_keeps | apply Keeps.ite | split

theorem execNtcSample_answers (b : Bank) (uV : BitVec 21) (s : State) : Answers s (execNtcSample b uV s) := by
  unfold execNtcSample
  refine Answers.next ?_
  repeat' with_reducible first
    | exact Keeps.refl s | apply State.draw_keeps | apply State.wr_keeps | apply State.reading_keeps
    | apply State.setGdr_keeps | apply State.sqc_keeps | apply State.trip_keeps | apply State.inactive_keeps
    | apply Keeps.ite

theorem execStoDemand_answers (e : StoEdge) (s : State) : Answers s (execStoDemand e s) := by
  unfold execStoDemand
  refine Answers.next ?_
  repeat' with_reducible first
    | exact Keeps.refl s | assumption | intro x | apply State.stoPermit_keeps | apply State.arranged_keeps
    | apply State.stoLevels_keeps | apply State.turnOff_keeps | apply State.wr_keeps | apply State.sqc_keeps
    | apply State.trip_keeps | apply Keeps.each | apply Keeps.ite | refine Keeps.record ?_ rfl

theorem execStoPermitReturn_answers (s : State) : Answers s (execStoPermitReturn s) := by
  unfold execStoPermitReturn
  refine Answers.next ?_
  repeat' with_reducible first
    | exact Keeps.refl s | apply State.advTo_keeps | apply State.inactive_keeps | apply State.gatesReturn_keeps
    | apply Keeps.ite

theorem execStoDiscrepancy_answers (second : Bool) (s : State) : Answers s (execStoDiscrepancy second s) := by
  unfold execStoDiscrepancy
  refine Answers.next ?_
  repeat' with_reducible first
    | exact Keeps.refl s | apply State.advTo_keeps | apply State.sqc_keeps | apply State.trip_keeps | apply Keeps.ite
    | refine Keeps.record ?_ rfl

theorem execClockStopDetected_answers (src : Fin 3) (s : State) : Answers s (execClockStopDetected src s) := by
  unfold execClockStopDetected
  refine Answers.next ?_
  repeat' with_reducible first
    | exact Keeps.refl s | apply State.sqc_keeps | apply State.srcFailed_keeps | apply State.recUpdate_keeps
    | apply Keeps.ite | refine Keeps.record ?_ rfl

theorem execClockMonitorWindow_answers (src : Fin 3) (ppm : BitVec 20) (amp : Bool) (s : State) :
    Answers s (execClockMonitorWindow src ppm amp s) := by
  unfold execClockMonitorWindow
  refine Answers.next ?_
  repeat' with_reducible first
    | exact Keeps.refl s | apply State.sqc_keeps | apply State.srcValid_keeps | apply State.wr_keeps
    | apply State.srcFailed_keeps | apply State.recUpdate_keeps | apply Keeps.ite | refine Keeps.record ?_ rfl

theorem execClockSwitchForced_answers (s : State) : Answers s (execClockSwitchForced s) := by
  unfold execClockSwitchForced
  refine Answers.next ?_
  repeat' with_reducible first
    | exact Keeps.refl s | apply State.advTo_keeps | apply State.sqc_keeps | apply State.cnt_keeps
    | apply State.toRef_keeps | apply State.trip_keeps | apply Keeps.ite | split | refine Keeps.record ?_ rfl

theorem execPllLocked_answers (s : State) : Answers s (execPllLocked s) := by
  unfold execPllLocked
  refine Answers.next ?_
  repeat' with_reducible first
    | exact Keeps.refl s | apply State.wr_keeps | apply State.enterHeld_keeps | apply State.switchTo_keeps
    | apply Keeps.ite

theorem execPllLockLost_answers (s : State) : Answers s (execPllLockLost s) := by
  unfold execPllLockLost
  refine Answers.next ?_
  repeat' with_reducible first
    | exact Keeps.refl s | apply State.wr_keeps | apply State.trip_keeps | apply State.enterHeld_keeps
    | apply Keeps.ite | refine Keeps.record ?_ rfl

theorem execPllLockRetry_answers (s : State) : Answers s (execPllLockRetry s) := by
  unfold execPllLockRetry
  refine Answers.next ?_
  repeat' with_reducible first
    | exact Keeps.refl s | apply State.advTo_keeps | apply Keeps.ite | refine Keeps.record ?_ rfl

theorem execHoldoverExpiry_answers (s : State) : Answers s (execHoldoverExpiry s) := by
  unfold execHoldoverExpiry
  refine Answers.next ?_
  repeat' with_reducible first
    | exact Keeps.refl s | assumption | intro x | apply State.advTo_keeps | apply State.wr_keeps
    | apply State.softStart_keeps | apply State.turnOff_keeps | apply State.inactive_keeps | apply Keeps.each
    | apply Keeps.ite | refine Keeps.record ?_ rfl

theorem execHeldExit_answers (s : State) : Answers s (execHeldExit s) := by
  unfold execHeldExit
  refine Answers.next ?_
  repeat' with_reducible first
    | exact Keeps.refl s | apply State.wr_keeps | apply State.gatesReturn_keeps | apply State.fcsStat_keeps
    | apply Keeps.ite | refine Keeps.record ?_ rfl

theorem execXoStartTimeout_answers (s : State) : Answers s (execXoStartTimeout s) := by
  unfold execXoStartTimeout
  refine Answers.next ?_
  repeat' with_reducible first
    | exact Keeps.refl s | apply State.advTo_keeps | apply State.wr_keeps | apply Keeps.ite

theorem execPrefReturn_answers (s : State) : Answers s (execPrefReturn s) := by
  unfold execPrefReturn
  refine Answers.next ?_
  repeat' with_reducible first
    | exact Keeps.refl s | apply State.drop_keeps | apply State.goDone_keeps | apply State.switchTo_keeps
    | apply Keeps.ite

theorem execLinkTrained_answers (p : Port) (x : Training) (s : State) : Answers s (execLinkTrained p x s) := by
  unfold execLinkTrained
  refine Answers.next ?_
  repeat' with_reducible first
    | exact Keeps.refl s | apply State.wr_keeps | apply State.setPort_keeps | apply State.setUp_keeps
    | apply State.inactive_keeps | apply State.recUpdate_keeps | apply State.flushHeld_keeps
    | apply State.sendPendings_keeps | apply Keeps.ite

theorem execHotReset_answers (p : Port) (n : Nat) (s : State) : Answers s (execHotReset p n s) := by
  unfold execHotReset
  refine Answers.next ?_
  repeat' with_reducible first
    | exact Keeps.refl s | apply State.linkLost_keeps | apply State.clearPort_keeps | apply Keeps.ite

theorem execLinkDisable_answers (p : Port) (n : Nat) (s : State) : Answers s (execLinkDisable p n s) := by
  unfold execLinkDisable
  refine Answers.next ?_
  repeat' with_reducible first
    | exact Keeps.refl s | apply State.linkLost_keeps | apply State.clearPort_keeps | apply Keeps.ite

theorem execPerstAssert_answers (p : Port) (n : Nat) (s : State) : Answers s (execPerstAssert p n s) := by
  unfold execPerstAssert
  refine Answers.next ?_
  repeat' with_reducible first
    | exact Keeps.refl s | apply State.linkLost_keeps | apply State.clearPort_keeps | apply Keeps.ite

theorem execFunctionLevelReset_answers (p : Port) (s : State) : Answers s (execFunctionLevelReset p s) := by
  unfold execFunctionLevelReset
  refine Answers.next ?_
  repeat' with_reducible first
    | exact Keeps.refl s | apply State.setPort_keeps | apply State.fetchStop_keeps | apply State.clearPort_keeps
    | apply Keeps.ite

theorem execBusMasterEnable_answers (x : PortSetup) (s : State) : Answers s (execBusMasterEnable x s) := by
  unfold execBusMasterEnable
  refine Answers.next ?_
  repeat' with_reducible first
    | exact Keeps.refl s | apply State.setUp_keeps | apply State.flushHeld_keeps | apply State.sendPendings_keeps
    | apply Keeps.ite

theorem execLinkL1Entry_answers (p : Port) (s : State) : Answers s (execLinkL1Entry p s) := by
  unfold execLinkL1Entry
  refine Answers.next ?_
  repeat' with_reducible first
    | exact Keeps.refl s | apply State.wr_keeps | apply State.recUpdate_keeps | apply Keeps.ite

theorem execLinkL1Exit_answers (p : Port) (s : State) : Answers s (execLinkL1Exit p s) := by
  unfold execLinkL1Exit
  refine Answers.next ?_
  repeat' with_reducible first
    | exact Keeps.refl s | apply State.wr_keeps | apply State.recUpdate_keeps | apply Keeps.ite

theorem execD3hotRequest_answers (s : State) : Answers s (execD3hotRequest s) := by
  unfold execD3hotRequest
  refine Answers.next ?_
  repeat' with_reducible first
    | exact Keeps.refl s | apply State.switchTo_keeps | apply State.fetchStop_keeps | apply State.setPort_keeps
    | apply Keeps.ite

theorem execOwnershipChange_answers (s : State) : Answers s (execOwnershipChange s) := by
  unfold execOwnershipChange
  refine Answers.next ?_
  repeat' with_reducible first
    | exact Keeps.refl s | apply ownership_keeps | apply State.mmioServe_keeps | apply Keeps.ite

theorem execMsixModerationTimeout_answers (k : Ctx) (s : State) : Answers s (execMsixModerationTimeout k s) := by
  unfold execMsixModerationTimeout
  refine Answers.next ?_
  repeat' with_reducible first
    | exact Keeps.refl s | apply State.advTo_keeps | apply State.signal_keeps | apply Keeps.ite

theorem execMsixVectorUnmask_answers (p : Port) (k : Option Ctx) (s : State) :
    Answers s (execMsixVectorUnmask p k s) := by
  unfold execMsixVectorUnmask
  refine Answers.next ?_
  repeat' with_reducible first
    | exact Keeps.refl s | apply State.wr_keeps | apply State.sendPending_keeps | apply State.setPort_keeps
    | apply State.sendPendings_keeps | apply Keeps.ite | split

theorem execHostWatchdogExpiry_answers (p : Port) (s : State) : Answers s (execHostWatchdogExpiry p s) := by
  unfold execHostWatchdogExpiry
  refine Answers.next ?_
  repeat' with_reducible first
    | exact Keeps.refl s | apply State.advTo_keeps | apply State.setPort_keeps | apply State.trip_keeps
    | apply Keeps.ite

theorem execDebugHalt_answers (s : State) : Answers s (execDebugHalt s) := by
  unfold execDebugHalt
  refine Answers.next ?_
  repeat' with_reducible first
    | exact Keeps.refl s | assumption | intro x | apply State.drop_keeps | apply State.goDone_keeps
    | apply haltRefused_keeps | apply State.setHb_keeps | apply State.wr_keeps | apply State.fcsStat_keeps
    | apply Keeps.each | apply Keeps.ite

theorem execDebugResume_answers (s : State) : Answers s (execDebugResume s) := by
  unfold execDebugResume
  refine Answers.next ?_
  repeat' with_reducible first
    | exact Keeps.refl s | apply State.drop_keeps | apply State.goDone_keeps | apply State.debugResume_keeps
    | apply haltRefused_keeps | apply Keeps.ite

theorem execHaltRefreshNotch_answers (h : HalfBridge) (s : State) : Answers s (execHaltRefreshNotch h s) := by
  unfold execHaltRefreshNotch
  refine Answers.next ?_
  repeat' with_reducible first
    | exact Keeps.refl s | apply State.advTo_keeps | apply State.setHb_keeps | apply Keeps.ite

theorem execDomainPowered_answers (d : Fin 16) (cals : List (Bank × Fin 5 × SliceCal)) (offs : List
    (Coil × BitVec 16)) (items : Option Bool) (s : State) :
    Answers s (execDomainPowered d cals offs items s) := by
  unfold execDomainPowered
  refine Answers.next ?_
  repeat' with_reducible first
    | exact Keeps.refl s | assumption | intro x | apply State.setPg_keeps | apply State.advTo_keeps
    | apply State.restartQuad_keeps | apply fullBank_keeps | apply State.setAdc_keeps | apply State.setGdr_keeps
    | apply State.wr_keeps | apply State.enterHeld_keeps | apply Keeps.each | apply Keeps.ite | split
    | refine Keeps.record ?_ rfl

theorem execDomainRequestApply_answers (s : State) : Answers s (execDomainRequestApply s) := by
  unfold execDomainRequestApply
  refine Answers.next ?_
  repeat' with_reducible first
    | exact Keeps.refl s | assumption | intro x | apply requestOff_keeps | apply requestOn_keeps | apply Keeps.each
    | apply Keeps.ite

theorem execDomainPowerGoodLost_answers (d : Fin 16) (s : State) : Answers s (execDomainPowerGoodLost d s) := by
  unfold execDomainPowerGoodLost
  refine Answers.next (Keeps.ite (Keeps.refl s) (State.arranged_keeps _ (Keeps.refl s) (State.fcsStat_keeps _ ?_)))
  refine Keeps.each (fun t e h => State.dropDomain_keeps t e h) ?_
  refine Keeps.each (fun t n h => State.turnOff_keeps t n _ h) ?_
  exact State.finding_keeps _ _ (fun t h => Keeps.each (fun t k h => State.detect_keeps t k _ _ _ h) h) (Keeps.refl s)

theorem execSupplyOutOfWindow_answers (rail : Fin 3) (s : State) : Answers s (execSupplyOutOfWindow rail s) := by
  unfold execSupplyOutOfWindow
  refine Answers.next ?_
  repeat' with_reducible first
    | exact Keeps.refl s | apply State.trip_keeps | apply Keeps.ite | refine Keeps.record ?_ rfl

theorem execSupplyBackInWindow_answers (rail : Fin 3) (s : State) : Answers s (execSupplyBackInWindow rail s) := by
  unfold execSupplyBackInWindow
  refine Answers.next ?_
  repeat' with_reducible first
    | exact Keeps.refl s | apply State.inactive_keeps | apply Keeps.ite | refine Keeps.record ?_ rfl

theorem execPwrenAssert_answers (s : State) : Answers s (execPwrenAssert s) := by
  unfold execPwrenAssert
  refine Answers.next ?_
  repeat' with_reducible first
    | exact Keeps.refl s | apply State.advTo_keeps | apply Keeps.ite | refine Keeps.record ?_ rfl

theorem execPwrenTimeout_answers (s : State) : Answers s (execPwrenTimeout s) := by
  unfold execPwrenTimeout
  refine Answers.next ?_
  repeat' with_reducible first
    | exact Keeps.refl s | apply State.advTo_keeps | apply State.sqc_keeps | apply Keeps.ite
    | refine Keeps.record ?_ rfl

theorem execPwrenRetry_answers (s : State) : Answers s (execPwrenRetry s) := by
  unfold execPwrenRetry
  refine Answers.next ?_
  repeat' with_reducible first
    | exact Keeps.refl s | apply State.advTo_keeps | apply Keeps.ite | refine Keeps.record ?_ rfl

theorem execTimedWake_answers (s : State) : Answers s (execTimedWake s) := by
  unfold execTimedWake
  refine Answers.next ?_
  repeat' with_reducible first
    | exact Keeps.refl s | apply State.advTo_keeps | apply State.advToGtc_keeps | apply State.wakeEvent_keeps
    | apply Keeps.ite | split

theorem execFallowDwellElapsed_answers (s : State) : Answers s (execFallowDwellElapsed s) := by
  unfold execFallowDwellElapsed
  refine Answers.next ?_
  repeat' with_reducible first
    | exact Keeps.refl s | apply Keeps.ite | split | refine Keeps.record ?_ rfl

theorem execFallowResumeDone_answers (s : State) : Answers s (execFallowResumeDone s) := by
  unfold execFallowResumeDone
  refine Answers.next ?_
  repeat' with_reducible first
    | exact Keeps.refl s | apply State.idleReached_keeps | apply Keeps.ite

theorem execConfigApply_answers (tag : Fin 1024) (s : State) : Answers s (execConfigApply tag s) := by
  unfold execConfigApply
  refine Answers.next ?_
  split
  · next o _ =>
    exact Keeps.ite (State.mmioServe_keeps _ (State.boundary_keeps _ _ (fun t h => State.configApply_keeps t o h)
      (Keeps.refl s))) (Keeps.refl s)
  · exact Keeps.refl s

theorem execStrobeApply_answers (s : State) : Answers s (execStrobeApply s) := by
  have hd := State.drop_keeps s .strobe (Keeps.refl s)
  have hs : ∀ u : State, Keeps s u →
      Keeps s ((each (u.ops.filter (configDue u)) (fun u o => u.configApply o) u).strobe) :=
    fun u h => State.strobe_keeps _ (Keeps.each (fun t o h => State.configApply_keeps t o h) h)
  unfold execStrobeApply
  refine Answers.next (Keeps.ite (Keeps.refl s) (Keeps.ite (Keeps.refl s) (State.mmioServe_keeps _ ?_)))
  exact State.boundary_keeps _ _ hs (State.goDone_keeps _ _ _ (Keeps.ite hd (State.wr_keeps hd _ 0)))

theorem execBudgetApply_answers (b : Bank) (s : State) : Answers s (execBudgetApply b s) := by
  unfold execBudgetApply
  refine Answers.next ?_
  repeat' with_reducible first
    | exact Keeps.refl s | apply State.setBank_keeps | apply State.setBudget_keeps | apply State.reHand_keeps
    | apply Keeps.ite | split

theorem execQuotaApply_answers (k : Ctx) (s : State) : Answers s (execQuotaApply k s) := by
  unfold execQuotaApply
  refine Answers.next ?_
  repeat' with_reducible first
    | exact Keeps.refl s | apply State.setCtx_keeps | apply State.wr_keeps | apply State.setBuf_keeps
    | apply State.setDirty_keeps | apply Keeps.ite | split

theorem execLockUp_answers (s : State) : Answers s (execLockUp s) := by
  unfold execLockUp
  refine Answers.next ?_
  repeat' with_reducible first
    | exact Keeps.refl s | apply State.drop_keeps | apply State.lockRefuse_keeps | apply State.goDone_keeps
    | apply Keeps.ite | refine Keeps.record ?_ rfl

theorem execLockUpComplete_answers (s : State) : Answers s (execLockUpComplete s) := by
  unfold execLockUpComplete
  refine Answers.next ?_
  split
  · exact Keeps.refl s
  · next m t _ =>
    have h := State.goEnd_keeps _ F.LCS_LOCK_CTRL_LOCK (fun s => s.post .lockUp) (fun t h => State.post_keeps t _ h)
      (State.advTo_keeps (Keeps.refl s) (t + msClk 2))
    dsimp only
    split
    · exact State.lockRefuse_keeps _ 2 (Keeps.record h rfl)
    refine State.ledPush_keeps _ _ _ _ ?_
    exact State.setReg_keeps (State.wr_keeps (Keeps.record h rfl) _ _) _ _

theorem execUnlock_answers (s : State) : Answers s (execUnlock s) := by
  unfold execUnlock
  refine Answers.next ?_
  repeat' with_reducible first
    | exact Keeps.refl s | apply State.unlock_keeps | apply State.drop_keeps | apply State.goDone_keeps
    | apply State.lockRefuse_keeps | apply Keeps.ite

theorem execConfigCheckPass_answers (s : State) : Answers s (execConfigCheckPass s) := by
  unfold execConfigCheckPass
  refine Answers.next ?_
  repeat' with_reducible first
    | exact Keeps.refl s | apply State.advTo_keeps | apply State.cntWrap_keeps | apply State.inactive_keeps
    | apply State.sqc_keeps | apply State.trip_keeps | apply Keeps.ite | refine Keeps.record ?_ rfl

theorem execCndEvaluation_answers (ring : Vector (BitVec 24) 5) (s : State) : Answers s (execCndEvaluation ring s) := by
  unfold execCndEvaluation
  refine Answers.next ?_
  repeat' with_reducible first
    | exact Keeps.refl s | assumption | intro x | apply State.advTo_keeps | apply State.readNow_keeps
    | apply State.takeReadings_keeps | apply State.alerts_keeps | apply State.gapCheck_keeps
    | apply State.aimStep_keeps | apply Keeps.each | apply Keeps.ite | refine Keeps.record ?_ rfl

theorem execCndReplanApply_answers (s : State) : Answers s (execCndReplanApply s) := by
  unfold execCndReplanApply
  refine Answers.next ?_
  repeat' with_reducible first
    | exact Keeps.refl s | assumption | intro x | apply State.replan_keeps | apply State.discardReplan_keeps
    | apply State.reHand_keeps | apply Keeps.each | apply Keeps.ite | refine Keeps.record ?_ rfl

theorem execCndLoosenApply_answers (s : State) : Answers s (execCndLoosenApply s) := by
  unfold execCndLoosenApply
  refine Answers.next ?_
  repeat' with_reducible first
    | exact Keeps.refl s | assumption | intro x | apply State.withdraw_keeps | apply State.replan_keeps
    | apply State.reHand_keeps | apply Keeps.each | apply Keeps.ite | refine Keeps.record ?_ rfl

theorem execProposalExpiry_answers (s : State) : Answers s (execProposalExpiry s) := by
  unfold execProposalExpiry
  refine Answers.next ?_
  repeat' with_reducible first
    | exact Keeps.refl s | apply State.advTo_keeps | split | refine Keeps.record ?_ rfl

theorem execLedgerSlotWrite_answers (fails : Fin 4) (s : State) : Answers s (execLedgerSlotWrite fails s) := by
  unfold execLedgerSlotWrite
  refine Answers.next ?_
  repeat' with_reducible first
    | exact Keeps.refl s | apply State.advTo_keeps | apply State.ledPin_keeps | apply State.trip_keeps
    | apply State.ledStore_keeps | apply State.ledRefill_keeps | apply Keeps.ite | split | refine Keeps.record ?_ rfl

theorem execCounterSnapshot_answers (s : State) : Answers s (execCounterSnapshot s) := by
  unfold execCounterSnapshot
  refine Answers.next ?_
  repeat' with_reducible first
    | exact Keeps.refl s | apply State.advTo_keeps | apply State.snapshot_keeps | apply Keeps.ite

theorem execBaselineComplete_answers (s : State) : Answers s (execBaselineComplete s) := by
  unfold execBaselineComplete
  refine Answers.next ?_
  repeat' with_reducible first
    | exact Keeps.refl s | apply State.advTo_keeps | apply State.baseStore_keeps | apply Keeps.ite | split
    | refine Keeps.record ?_ rfl

theorem execCndTrendEntry_answers (s : State) : Answers s (execCndTrendEntry s) := by
  unfold execCndTrendEntry
  refine Answers.next ?_
  repeat' with_reducible first
    | exact Keeps.refl s | assumption | intro x | apply State.advTo_keeps | apply State.ledPush_keeps
    | apply Keeps.each | apply Keeps.ite | split | refine Keeps.record ?_ rfl

theorem execDexcyBuildDone_answers (s : State) : Answers s (execDexcyBuildDone s) := by
  unfold execDexcyBuildDone
  refine Answers.next ?_
  repeat' with_reducible first
    | exact Keeps.refl s | apply State.advTo_keeps | apply State.goEnd_keeps | apply State.dexGo_keeps
    | apply State.sqc_keeps | apply State.ledPush_keeps | split | refine Keeps.record ?_ rfl

theorem execPowerOnReset_answers (s : State) : Answers s (execPowerOnReset s) := by
  unfold execPowerOnReset
  have h := State.resetRegs_keeps (State.wiped_keeps (Keeps.refl s) false false) fun key => decide (domOfKey key = 0)
  refine Answers.next (Keeps.ite (Keeps.refl s) (State.sqc_keeps _ _ (State.wr_keeps (State.xoStart_keeps _ ?_) _ _)))
  exact ⟨h.queue, h.time, h.out, h.free, fun w => ⟨(h.wf w).1, FileCanon.nil, (h.wf w).2.2⟩⟩

theorem execPowerLoss_answers (s : State) : Answers s (execPowerLoss s) := by
  unfold execPowerLoss
  refine Answers.next ?_
  repeat' with_reducible first
    | exact Keeps.refl s | apply State.wiped_keeps | apply State.wr_keeps | refine Keeps.record ?_ rfl

theorem execRailsInWindow_answers (s : State) : Answers s (execRailsInWindow s) := by
  unfold execRailsInWindow
  refine Answers.next ?_
  repeat' with_reducible first
    | exact Keeps.refl s | apply State.railsOn_keeps | apply State.bootStart_keeps | apply Keeps.ite
    | refine Keeps.record ?_ rfl

theorem execPinReset_answers (s : State) : Answers s (execPinReset s) := by
  unfold execPinReset
  refine Answers.next ?_
  repeat' with_reducible first
    | exact Keeps.refl s | apply State.resetFull_keeps | apply Keeps.ite | refine Keeps.record ?_ rfl

theorem execResetPinRelease_answers (s : State) : Answers s (execResetPinRelease s) := by
  unfold execResetPinRelease
  refine Answers.next ?_
  repeat' with_reducible first
    | exact Keeps.refl s | apply State.bootStart_keeps | apply Keeps.ite | refine Keeps.record ?_ rfl

theorem execCommandResetExecute_answers (s : State) : Answers s (execCommandResetExecute s) := by
  unfold execCommandResetExecute
  refine Answers.next ?_
  repeat' with_reducible first
    | exact Keeps.refl s | apply State.advTo_keeps | apply State.resetFull_keeps | apply State.drop_keeps
    | apply State.cmdStart_keeps | apply Keeps.ite | split

theorem execFirmwareVerification_answers (active staged : Bool) (s : State) :
    Answers s (execFirmwareVerification active staged s) := by
  unfold execFirmwareVerification
  refine Answers.next ?_
  repeat' with_reducible first
    | exact Keeps.refl s | apply State.advTo_keeps | apply State.showImages_keeps | apply State.fwCommit_keeps
    | apply State.enterHeld_keeps | apply Keeps.ite | split | refine Keeps.record ?_ rfl

theorem execSpareLoadDone_answers (good : Bool) (s : State) : Answers s (execSpareLoadDone good s) := by
  unfold execSpareLoadDone
  refine Answers.next ?_
  repeat' with_reducible first
    | exact Keeps.refl s | apply State.advTo_keeps | apply State.wr_keeps | apply State.failCore_keeps
    | apply Keeps.ite | split | refine Keeps.record ?_ rfl

theorem execPlannerCoreSwap_answers (s : State) : Answers s (execPlannerCoreSwap s) := by
  unfold execPlannerCoreSwap
  refine Answers.next ?_
  repeat' with_reducible first
    | exact Keeps.refl s | apply State.setOp_keeps | apply State.finish_keeps | apply State.wr_keeps
    | apply State.wrB_keeps | apply State.startLoad_keeps | apply Keeps.ite | split

theorem execPlannerCoreFailure_answers (q : Core) (memory : Bool) (s : State) :
    Answers s (execPlannerCoreFailure q memory s) := by
  unfold execPlannerCoreFailure
  refine Answers.next ?_
  repeat' with_reducible first
    | exact Keeps.refl s | apply State.failCore_keeps | apply Keeps.ite

theorem execPlannerCoreReplace_answers (s : State) : Answers s (execPlannerCoreReplace s) := by
  unfold execPlannerCoreReplace
  refine Answers.next ?_
  repeat' with_reducible first
    | exact Keeps.refl s | assumption | intro x | apply State.replaceCore_keeps | apply Keeps.each | apply Keeps.ite

theorem execFirmwareCommit_answers (s : State) : Answers s (execFirmwareCommit s) := by
  unfold execFirmwareCommit
  refine Answers.next ?_
  repeat' with_reducible first
    | exact Keeps.refl s | apply State.fwCommit_keeps | apply Keeps.ite

theorem execSelfTestDone_answers (t : SelfTest) (s : State) : Answers s (execSelfTestDone t s) := by
  unfold execSelfTestDone
  refine Answers.next ?_
  repeat' with_reducible first
    | exact Keeps.refl s | assumption | intro x | apply State.advTo_keeps | apply State.testResults_keeps
    | apply fullBank_keeps | apply State.testFailures_keeps | apply State.restoreStore_keeps
    | apply State.gatesReturn_keeps | apply Keeps.each | apply Keeps.ite | refine Keeps.record ?_ rfl

theorem execBootReady_answers (s : State) : Answers s (execBootReady s) := by
  unfold execBootReady
  refine Answers.next ?_
  repeat' with_reducible first
    | exact Keeps.refl s | apply State.wr_keeps | apply State.idleReached_keeps | apply State.ledPush_keeps
    | apply State.devEvent_keeps | apply State.startLoad_keeps | apply State.flushHeld_keeps | apply Keeps.ite
    | refine Keeps.record ?_ rfl

theorem execFallowEntry_answers (s : State) : Answers s (execFallowEntry s) := by
  unfold execFallowEntry
  refine Answers.next ?_
  repeat' with_reducible first
    | exact Keeps.refl s
    | exact fun t h => State.snapshot_keeps t true h | assumption | apply State.fallowSwitch_keeps
    | apply State.debugResume_keeps
    | apply State.drop_keeps | apply State.goDone_keeps | apply State.fallowBegin_keeps | apply State.snapshot_keeps
    | apply State.sqc_keeps | apply State.wr_keeps | apply Keeps.ite | split | refine Keeps.record ?_ rfl

theorem execFallowResume_answers (s : State) : Answers s (execFallowResume s) := by
  unfold execFallowResume
  refine Answers.next ?_
  repeat' with_reducible first
    | exact Keeps.refl s | assumption | intro x | apply State.raise_keeps | apply State.keepTests_keeps
    | apply State.wiped_keeps | apply State.wr_keeps | apply State.railsOn_keeps | apply State.sqc_keeps
    | apply State.bootStart_keeps | apply State.xoStart_keeps | apply Keeps.each | apply Keeps.ite
    | refine Keeps.record ?_ rfl

theorem execLifecycleTransition_answers (s : State) : Answers s (execLifecycleTransition s) := by
  unfold execLifecycleTransition
  refine Answers.next ?_
  repeat' with_reducible first
    | exact Keeps.refl s | apply State.debugResume_keeps | apply State.transitEffect_keeps
    | apply State.keepTests_keeps | apply State.wiped_keeps | apply State.wr_keeps | apply State.pmuAwake_keeps
    | apply State.sqc_keeps | apply State.bootStart_keeps | apply Keeps.ite | split

theorem execLcTokenCheck_answers (tag : Fin 1024) (token : Vector Byte 192) (s : State) :
    Answers s (execLcTokenCheck tag token s) := by
  unfold execLcTokenCheck
  refine Answers.next ?_
  repeat' with_reducible first
    | exact Keeps.refl s | apply State.finish_keeps | apply Keeps.ite | split | refine Keeps.record ?_ rfl

theorem execFwStageDone_answers (tag : Fin 1024) (header : Vector Byte 256) (digest : Vector Byte 32) (s : State) :
    Answers s (execFwStageDone tag header digest s) := by
  unfold execFwStageDone
  refine Answers.next ?_
  repeat' with_reducible first
    | exact Keeps.refl s | apply State.advToGtc_keeps | apply State.showImages_keeps | apply State.finish_keeps
    | apply State.setReg_keeps | apply State.startLoad_keeps | apply Keeps.ite | split | refine Keeps.record ?_ rfl

theorem execDieTemperatureSample_answers (banks : Vector (BitVec 16) 4) (others : List (BitVec 16)) (s : State) :
    Answers s (execDieTemperatureSample banks others s) := by
  have hc : ∀ (u : State) (src : Nat) (c : Prop) [Decidable c], Keeps s u →
      Keeps s (if c then (if (u.src src).active then u else u.trip src (active := true)) else u.inactive src) :=
    fun u src c _ h => Keeps.ite (Keeps.ite h (State.trip_keeps u src _ _ _ h)) (State.inactive_keeps u src h)
  unfold execDieTemperatureSample
  refine Answers.next ?_
  dsimp only
  split
  · exact Keeps.refl s
  · exact Keeps.ite (Keeps.refl s) (hc _ _ _ (hc _ _ _ (State.setReg_keeps (Keeps.refl s) _ _)))

theorem execFaultTrip_answers (src : Source) (object : Option Axis) (s : State) :
    Answers s (execFaultTrip src object s) := by
  unfold execFaultTrip
  refine Answers.next ?_
  repeat' with_reducible first
    | exact Keeps.refl s | apply State.trip_keeps

theorem execFaultClear_answers (s : State) : Answers s (execFaultClear s) := by
  unfold execFaultClear
  refine Answers.next ?_
  repeat' with_reducible first
    | exact Keeps.refl s | assumption | intro x | apply State.clearReq_keeps | apply State.wr_keeps | apply Keeps.each
    | apply Keeps.ite | refine Keeps.record ?_ rfl

theorem execLockstepMismatch_answers (s : State) : Answers s (execLockstepMismatch s) := by
  unfold execLockstepMismatch
  refine Answers.next ?_
  repeat' with_reducible first
    | exact Keeps.refl s | apply State.trip_keeps | apply State.enterHeld_keeps | apply Keeps.ite

theorem execFrameTickMissing_answers (s : State) : Answers s (execFrameTickMissing s) := by
  unfold execFrameTickMissing
  refine Answers.next ?_
  repeat' with_reducible first
    | exact Keeps.refl s | apply State.advTo_keeps | apply State.trip_keeps | apply Keeps.ite

theorem execAliveAEdge_answers (s : State) : Answers s (execAliveAEdge s) := by
  unfold execAliveAEdge
  refine Answers.next ?_
  repeat' with_reducible first
    | exact Keeps.refl s | apply State.advTo_keeps | apply State.aliveEdge_keeps | apply Keeps.ite

theorem execAliveBEdge_answers (s : State) : Answers s (execAliveBEdge s) := by
  unfold execAliveBEdge
  refine Answers.next ?_
  repeat' with_reducible first
    | exact Keeps.refl s | apply State.aliveEdge_keeps | apply Keeps.ite

theorem execAliveWatchdogExpiry_answers (s : State) : Answers s (execAliveWatchdogExpiry s) := by
  unfold execAliveWatchdogExpiry
  refine Answers.next ?_
  repeat' with_reducible first
    | exact Keeps.refl s | apply State.advTo_keeps | apply State.wr_keeps | apply State.aliveEdge_keeps
    | apply Keeps.ite

theorem execAliveRestart_answers (s : State) : Answers s (execAliveRestart s) := by
  unfold execAliveRestart
  refine Answers.next ?_
  repeat' with_reducible first
    | exact Keeps.refl s | apply State.wr_keeps | apply State.aliveEdge_keeps | apply Keeps.ite

theorem execTelemetryStreamActivation_answers (i : Fin 8) (s : State) :
    Answers s (execTelemetryStreamActivation i s) := by
  unfold execTelemetryStreamActivation
  refine Answers.next ?_
  repeat' with_reducible first
    | exact Keeps.refl s | apply State.advToGtc_keeps | apply State.wr_keeps | apply State.setStream_keeps
    | apply Keeps.ite

theorem execTelemetryBlock_answers (i : Fin 8) (s : State) : Answers s (execTelemetryBlock i s) := by
  unfold execTelemetryBlock
  refine Answers.next ?_
  repeat' with_reducible first
    | exact Keeps.refl s | apply State.setStream_keeps | apply State.dropBlock_keeps | apply State.putBlock_keeps
    | apply Keeps.ite | split | refine Keeps.record ?_ rfl

theorem execSnapshotCapture_answers (tag : Fin 1024) (s : State) : Answers s (execSnapshotCapture tag s) := by
  unfold execSnapshotCapture
  refine Answers.next ?_
  repeat' with_reducible first
    | exact Keeps.refl s | apply State.draw_keeps | apply State.writeData_keeps | apply State.finish_keeps
    | apply Keeps.ite | split

theorem execLedgerReadDone_answers (tag : Fin 1024) (s : State) : Answers s (execLedgerReadDone tag s) := by
  unfold execLedgerReadDone
  refine Answers.next ?_
  repeat' with_reducible first
    | exact Keeps.refl s | assumption | intro x | apply State.advToGtc_keeps | apply State.writeData_keeps
    | apply State.finish_keeps | apply Keeps.each | apply Keeps.ite | split

theorem execIdentifyDone_answers (tag : Fin 1024) (a b : IdCoil) (s : State) :
    Answers s (execIdentifyDone tag a b s) := by
  unfold execIdentifyDone
  refine Answers.next ?_
  repeat' with_reducible first
    | exact Keeps.refl s | apply State.advToGtc_keeps | apply State.draw_keeps | apply State.deenergise_keeps
    | apply State.wr_keeps | apply State.finish_keeps | apply Keeps.ite | split

theorem execIndDataRead_answers (p : Port) (s : State) : Answers s (execIndDataRead p s) := by
  unfold execIndDataRead
  refine Answers.next ?_
  repeat' with_reducible first
    | exact Keeps.refl s | apply indDataRead_keeps | apply State.advTo_keeps | apply State.noteAcc_keeps
    | apply Keeps.ite

theorem execIndFetchDone_answers (p : Port) (s : State) : Answers s (execIndFetchDone p s) := by
  unfold execIndFetchDone
  refine Answers.next ?_
  repeat' with_reducible first
    | exact Keeps.refl s | apply State.advTo_keeps | apply State.indDone_keeps | apply Keeps.ite

/-- Every command of the table answers a next state and takes nothing back. -/
theorem exec_answers (c : Instr) (s : State) : Answers s (exec c s) := by
  cases c with
  | frameTick raws offs missed => exact execFrameTick_answers raws offs missed s
  | halfFrameTick missed => exact execHalfFrameTick_answers missed s
  | doorbellPageReturn p page => exact Answers.next (doorbellPageReturn_keeps p page s (Keeps.refl s))
  | doorbellReadLate p => exact Answers.next (doorbellReadLate_keeps p s (Keeps.refl s))
  | phaseStall k => exact Answers.next (phaseStall_keeps k s (Keeps.refl s))
  | admissionCutoff => exact Answers.next (admissionCutoff_keeps s (Keeps.refl s))
  | badOpcode k op d =>
    exact Answers.next (Keeps.ite (Keeps.refl s) (descriptor_keeps _ _ _ _
    (fun _ _ h => State.refuse_keeps _ _ _ _ _ _ h) s (Keeps.refl s)))
  | nop k d => exact descriptor_answers fun _ i h => decideNop_keeps k d _ i h
  | moveAbs k d => exact descriptor_answers fun _ i h => decideMotion_keeps k 1 d _ i h
  | moveRel k d => exact descriptor_answers fun _ i h => decideMotion_keeps k 2 d _ i h
  | jog k d => exact descriptor_answers fun _ i h => decideMotion_keeps k 3 d _ i h
  | stop k d => exact descriptor_answers fun _ i h => decideStop_keeps k d _ i h
  | hold k d => exact descriptor_answers fun _ i h => decideStand_keeps k 5 d _ i h
  | release k d => exact descriptor_answers fun _ i h => decideStand_keeps k 6 d _ i h
  | followStep k d => exact descriptor_answers fun _ i h => decideMotion_keeps k 7 d _ i h
  | home k d => exact descriptor_answers fun _ i h => decideMotion_keeps k 8 d _ i h
  | barrier k d => exact descriptor_answers fun _ i h => decideBarrier_keeps k d _ i h
  | wait k d => exact descriptor_answers fun _ i h => decideStand_keeps k 0xA d _ i h
  | configAxis k d => exact descriptor_answers fun _ i h => decideConfig_keeps k 0x10 d _ i h
  | configBank k d => exact descriptor_answers fun _ i h => decideConfig_keeps k 0x11 d _ i h
  | budget k d => exact descriptor_answers fun _ i h => decideBudget_keeps k d _ i h
  | quota k d => exact descriptor_answers fun _ i h => decideQuota_keeps k d _ i h
  | telemetryStart k d => exact descriptor_answers fun _ i h => decideTelemetry_keeps k d _ i h
  | telemetryStop k d => exact descriptor_answers fun _ i h => decideTelemetry_keeps k d _ i h
  | snapshot k d => exact descriptor_answers fun _ i h => decideSnapshot_keeps k d _ i h
  | convert k d => exact descriptor_answers fun _ i h => decideConvert_keeps k d _ i h
  | calibrateSlice k d => exact descriptor_answers fun _ i h => decideCalibrate_keeps k d _ i h
  | calibrateFull k d => exact descriptor_answers fun _ i h => decideCalibrate_keeps k d _ i h
  | calibrateIdentify k d => exact descriptor_answers fun _ i h => decideCalibrate_keeps k d _ i h
  | ledgerRead k d => exact descriptor_answers fun _ i h => decideLedgerRead_keeps k d _ i h
  | fwStage k d => exact descriptor_answers fun _ i h => decideFwStage_keeps k d _ i h
  | fwSwap k d => exact descriptor_answers fun _ i h => decideFwSwap_keeps k d _ i h
  | lcTransit k d => exact descriptor_answers fun _ i h => decideTransit_keeps k d _ i h
  | segmentStart tag => exact execSegmentStart_answers tag s
  | segmentEnd tag => exact execSegmentEnd_answers tag s
  | homeIndexFound n => exact execHomeIndexFound_answers n s
  | homeHardStopFound n => exact execHomeHardStopFound_answers n s
  | stopEffect tag => exact execStopEffect_answers tag s
  | brakingStandstill n => exact execBrakingStandstill_answers n s
  | reversalBrakeStandstill n => exact execReversalBrakeStandstill_answers n s
  | reversalEnd n => exact execReversalEnd_answers n s
  | configApply tag => exact execConfigApply_answers tag s
  | budgetApply b => exact execBudgetApply_answers b s
  | quotaApply k => exact execQuotaApply_answers k s
  | telemetryBlock i => exact execTelemetryBlock_answers i s
  | snapshotCapture tag => exact execSnapshotCapture_answers tag s
  | ledgerReadDone tag => exact execLedgerReadDone_answers tag s
  | fwStageDone tag header digest => exact execFwStageDone_answers tag header digest s
  | lcTokenCheck tag token => exact execLcTokenCheck_answers tag token s
  | lifecycleTransition => exact execLifecycleTransition_answers s
  | syncSample b j r1 r2 => exact execSyncSample_answers b j r1 r2 s
  | coilStep p => exact execCoilStep_answers p s
  | carrierReload p m1 m2 => exact execCarrierReload_answers p m1 m2 s
  | latchPoint => exact execLatchPoint_answers s
  | compareOutputPulse n => exact execCompareOutputPulse_answers n s
  | serialWordStart n dataHigh => exact execSerialWordStart_answers n dataHigh s
  | serialWordDone n w => exact execSerialWordDone_answers n w s
  | serialTimeout n echo => exact execSerialTimeout_answers n echo s
  | encoderLost n => exact execEncoderLost_answers n s
  | quadEdge n up illegal => exact execQuadEdge_answers n up illegal s
  | indexEvent n => exact execIndexEvent_answers n s
  | indexCorrection n => exact execIndexCorrection_answers n s
  | stepEdge n dirHigh held enableHigh => exact execStepEdge_answers n dirHigh held enableHigh s
  | coilOvercurrentTrip p => exact execCoilOvercurrentTrip_answers p s
  | switchSaturationTrip h => exact execSwitchSaturationTrip_answers h s
  | didtTrip p => exact execDidtTrip_answers p s
  | bootstrapUvTrip h => exact execBootstrapUvTrip_answers h s
  | tripInput b second => exact execTripInput_answers b second s
  | tripRelease h => exact execTripRelease_answers h s
  | softTurnoffStep2 h => exact execSoftTurnoffStep2_answers h s
  | gatePathFault h => exact execGatePathFault_answers h s
  | interlockActed h => exact execInterlockActed_answers h s
  | vgUndervoltage b => exact execVgUndervoltage_answers b s
  | vgRecovered b => exact execVgRecovered_answers b s
  | pwmEdgesLost b => exact execPwmEdgesLost_answers b s
  | motorSupplySample b code => exact execMotorSupplySample_answers b code s
  | brakeOnTimeExceeded b => exact execBrakeOnTimeExceeded_answers b s
  | ntcSample b uV => exact execNtcSample_answers b uV s
  | stoDemand e => exact execStoDemand_answers e s
  | stoPermitReturn => exact execStoPermitReturn_answers s
  | stoDiscrepancy second => exact execStoDiscrepancy_answers second s
  | faultTrip src object => exact execFaultTrip_answers src object s
  | ss1Demand p n => exact Answers.next (hostPut_keeps _ _ _ s (Keeps.refl s))
  | ss1BrakingStart n => exact execSs1BrakingStart_answers n s
  | ss1Standstill n => exact execSs1Standstill_answers n s
  | ss1Timeout n => exact execSs1Timeout_answers n s
  | faultClearRequest p src => exact Answers.next (hostPut_keeps _ _ _ s (Keeps.refl s))
  | faultClearAllRequest p => exact Answers.next (hostPut_keeps _ _ _ s (Keeps.refl s))
  | faultClear => exact execFaultClear_answers s
  | lockstepMismatch => exact execLockstepMismatch_answers s
  | frameTickMissing => exact execFrameTickMissing_answers s
  | aliveAEdge => exact execAliveAEdge_answers s
  | aliveBEdge => exact execAliveBEdge_answers s
  | aliveWatchdogExpiry => exact execAliveWatchdogExpiry_answers s
  | aliveRestart => exact execAliveRestart_answers s
  | linkTrained p x => exact execLinkTrained_answers p x s
  | linkDown p n => exact Answers.next (State.linkLost_keeps s _ _ (Keeps.refl s))
  | functionLevelReset p => exact execFunctionLevelReset_answers p s
  | hotReset p n => exact execHotReset_answers p n s
  | linkDisable p n => exact execLinkDisable_answers p n s
  | perstAssert p n => exact execPerstAssert_answers p n s
  | busMasterEnable x => exact execBusMasterEnable_answers x s
  | handover p => exact Answers.next (hostWrite_keeps _ _ _ _ _ s (Keeps.refl s))
  | claim p => exact Answers.next (hostWrite_keeps _ _ _ _ _ s (Keeps.refl s))
  | ownershipChange => exact execOwnershipChange_answers s
  | cqHeadWrite p k head => exact Answers.next (hostWrite_keeps _ _ _ _ _ s (Keeps.refl s))
  | eqHeadWrite p k head => exact Answers.next (hostWrite_keeps _ _ _ _ _ s (Keeps.refl s))
  | tlmHeadWrite p i head => exact Answers.next (hostWrite_keeps _ _ _ _ _ s (Keeps.refl s))
  | eventsLost k => exact Answers.next (State.flushLost_keeps s _ (Keeps.refl s))
  | msixModerationTimeout k => exact execMsixModerationTimeout_answers k s
  | msixVectorUnmask p k => exact execMsixVectorUnmask_answers p k s
  | hostWatchdogKick p => exact Answers.next (hostWrite_keeps _ _ _ _ _ s (Keeps.refl s))
  | hostWatchdogTimeoutSet p ms => exact Answers.next (hostWrite_keeps _ _ _ _ _ s (Keeps.refl s))
  | hostWatchdogExpiry p => exact execHostWatchdogExpiry_answers p s
  | indAddrWrite p w => exact Answers.next (hostWrite_keeps _ _ _ _ _ s (Keeps.refl s))
  | indDataRead p => exact execIndDataRead_answers p s
  | indDataWrite p be w => exact Answers.next (hostWrite_keeps _ _ _ _ _ s (Keeps.refl s))
  | indFetchDone p => exact execIndFetchDone_answers p s
  | registerWrite p off be w same => exact Answers.next (hostWrite_keeps _ _ _ _ _ s (Keeps.refl s))
  | strobeRequest p => exact Answers.next (hostPut_keeps _ _ _ s (Keeps.refl s))
  | strobeDiscard p => exact Answers.next (hostPut_keeps _ _ _ s (Keeps.refl s))
  | strobeApply => exact execStrobeApply_answers s
  | lockRequest p => exact Answers.next (hostPut_keeps _ _ _ s (Keeps.refl s))
  | unlockRequest p => exact Answers.next (hostPut_keeps _ _ _ s (Keeps.refl s))
  | lockUp => exact execLockUp_answers s
  | lockUpComplete => exact execLockUpComplete_answers s
  | unlock => exact execUnlock_answers s
  | configCheckPass => exact execConfigCheckPass_answers s
  | pwmForceWrite p h w => exact Answers.next (hostWrite_keeps _ _ _ _ _ s (Keeps.refl s))
  | openWireTestRequest p b => exact Answers.next (hostPut_keeps _ _ _ s (Keeps.refl s))
  | openWireTestStart b => exact execOpenWireTestStart_answers b s
  | openWireTestDone b above => exact execOpenWireTestDone_answers b above s
  | compareArm p n => exact Answers.next (hostPut_keeps _ _ _ s (Keeps.refl s))
  | injectedWindowOpen tag => exact execInjectedWindowOpen_answers tag s
  | injectedResultReady tag r => exact execInjectedResultReady_answers tag r s
  | injectedDrop tag => exact execInjectedDrop_answers tag s
  | sliceCalibrationDone b x => exact execSliceCalibrationDone_answers b x s
  | sliceRotation b => exact execSliceRotation_answers b s
  | fullCalibrationDone cals offs => exact execFullCalibrationDone_answers cals offs s
  | identifyDone tag a b => exact execIdentifyDone_answers tag a b s
  | ptmDialogueStart => exact execPtmDialogueStart_answers s
  | ptmDialogueDone r => exact execPtmDialogueDone_answers r s
  | ptmDialogueFailed => exact execPtmDialogueFailed_answers s
  | gtcStep => exact execGtcStep_answers s
  | syncInEdge late => exact execSyncInEdge_answers late s
  | syncLost => exact execSyncLost_answers s
  | clockStopDetected src => exact execClockStopDetected_answers src s
  | clockMonitorWindow src ppm amp => exact execClockMonitorWindow_answers src ppm amp s
  | clockSwitchForced => exact execClockSwitchForced_answers s
  | pllLocked => exact execPllLocked_answers s
  | pllLockLost => exact execPllLockLost_answers s
  | pllLockRetry => exact execPllLockRetry_answers s
  | holdoverExpiry => exact execHoldoverExpiry_answers s
  | heldExit => exact execHeldExit_answers s
  | xoRestart p => exact Answers.next (hostPut_keeps _ _ _ s (Keeps.refl s))
  | xoStartTimeout => exact execXoStartTimeout_answers s
  | clockReturn p => exact Answers.next (hostPut_keeps _ _ _ s (Keeps.refl s))
  | prefReturn => exact execPrefReturn_answers s
  | supplyOutOfWindow rail => exact execSupplyOutOfWindow_answers rail s
  | railsInWindow => exact execRailsInWindow_answers s
  | pwrenTimeout => exact execPwrenTimeout_answers s
  | pwrenRetry => exact execPwrenRetry_answers s
  | domainPowerGoodLost d => exact execDomainPowerGoodLost_answers d s
  | domainRequestApply => exact execDomainRequestApply_answers s
  | domainPowered d cals offs items => exact execDomainPowered_answers d cals offs items s
  | fallowEnterRequest p => exact Answers.next (hostPut_keeps _ _ _ s (Keeps.refl s))
  | fallowDwellElapsed => exact execFallowDwellElapsed_answers s
  | fallowEntry => exact execFallowEntry_answers s
  | wakePin => exact Answers.next (State.wakeEvent_keeps s _ (Keeps.refl s))
  | timedWake => exact execTimedWake_answers s
  | pmuResume p => exact Answers.next (hostPut_keeps _ _ _ s (Keeps.refl s))
  | fallowResume => exact execFallowResume_answers s
  | fallowResumeDone => exact execFallowResumeDone_answers s
  | powerOnReset => exact execPowerOnReset_answers s
  | pinReset => exact execPinReset_answers s
  | commandReset p => exact Answers.next (hostPut_keeps _ _ _ s (Keeps.refl s))
  | commandResetExecute => exact execCommandResetExecute_answers s
  | firmwareVerification active staged => exact execFirmwareVerification_answers active staged s
  | selfTestDone t => exact execSelfTestDone_answers t s
  | bootReady => exact execBootReady_answers s
  | spareLoadDone good => exact execSpareLoadDone_answers good s
  | plannerCoreSwap => exact execPlannerCoreSwap_answers s
  | plannerCoreFailure q memory => exact execPlannerCoreFailure_answers q memory s
  | plannerCoreReplace => exact execPlannerCoreReplace_answers s
  | firmwareCommit => exact execFirmwareCommit_answers s
  | debugHaltRequest p => exact Answers.next (hostPut_keeps _ _ _ s (Keeps.refl s))
  | debugHalt => exact execDebugHalt_answers s
  | debugResumeRequest p => exact Answers.next (hostPut_keeps _ _ _ s (Keeps.refl s))
  | debugResume => exact execDebugResume_answers s
  | cndEvaluation ring => exact execCndEvaluation_answers ring s
  | cndReplanApply => exact execCndReplanApply_answers s
  | cndApprove p w => exact Answers.next (hostWrite_keeps _ _ _ _ _ s (Keeps.refl s))
  | cndDecline p w => exact Answers.next (hostWrite_keeps _ _ _ _ _ s (Keeps.refl s))
  | cndLoosenApply => exact execCndLoosenApply_answers s
  | proposalExpiry => exact execProposalExpiry_answers s
  | rebase p => exact Answers.next (hostPut_keeps _ _ _ s (Keeps.refl s))
  | baselineComplete => exact execBaselineComplete_answers s
  | counterSnapshot => exact execCounterSnapshot_answers s
  | ledgerSlotWrite fails => exact execLedgerSlotWrite_answers fails s
  | dexcyBuild p => exact Answers.next (hostPut_keeps _ _ _ s (Keeps.refl s))
  | dexcyBuildDone => exact execDexcyBuildDone_answers s
  | resetPinRelease => exact execResetPinRelease_answers s
  | pwrenAssert => exact execPwrenAssert_answers s
  | powerLoss => exact execPowerLoss_answers s
  | supplyBackInWindow rail => exact execSupplyBackInWindow_answers rail s
  | tripInputRelease b second => exact execTripInputRelease_answers b second s
  | d3hotRequest => exact execD3hotRequest_answers s
  | linkL1Entry p => exact execLinkL1Entry_answers p s
  | linkL1Exit p => exact execLinkL1Exit_answers p s
  | haltRefreshNotch h => exact execHaltRefreshNotch_answers h s
  | dieTemperatureSample banks others => exact execDieTemperatureSample_answers banks others s
  | cndTrendEntry => exact execCndTrendEntry_answers s
  | telemetryStreamActivation i => exact execTelemetryStreamActivation_answers i s

/-! ### A step -/

/-- Settles O1: both clauses are the two cases of a step, the second the passing of one clock. -/
theorem frontCommandRuns : Obligations.FrontCommandRuns := by
  unfold Obligations.FrontCommandRuns
  refine ⟨fun s c rest => rfl, fun s h => ?_⟩
  have hc : ¬ s.clk + 1 ≤ s.clk := by omega
  rw [step, h]
  simp only [State.advTo, if_neg hc, State.gtcInc, Nat.add_sub_cancel_left, Nat.one_mul, h]

/-- Settles O4: a step takes the front of the queue and its command keeps the rest, or one clock passes. -/
theorem everyStepAnswersAndKeeps : Obligations.EveryStepAnswersAndKeeps := by
  unfold Obligations.EveryStepAnswersAndKeeps
  intro s
  unfold step
  split
  · next h =>
    obtain ⟨hq, ht, ho, hf, -⟩ := State.advTo_keeps (Keeps.refl s) (s.clk + 1)
    exact ⟨_, rfl, by rw [hq, h, List.tail_nil], ht, ho, hf⟩
  · next c rest h =>
    obtain ⟨t, e, hq, ht, ho, hf, -⟩ := exec_answers c { s with pending := rest }
    exact ⟨t, e, by rw [hq, h, List.tail_cons], ht, ho, hf⟩

end Sys2Proof.Machine

namespace Sys2Proof.Machine

variable {s u : State} {k : Ctx} {op i : Nat} {d : Desc} {f : State → Nat → State} {r : Refuse}

/-! ### A descriptor arrives (R54, R104, R105, R110) -/

theorem taken_cutoff (s : State) (k : Ctx) : (taken s k).cutoff = s.cutoff := by simp [taken, State.wr]

theorem taken_lcs (s : State) (k : Ctx) : (taken s k).lcs = s.lcs := by simp [taken, State.wr]

theorem taken_tickNs (s : State) (k : Ctx) : (taken s k).tickNs = s.tickNs := by simp [State.tickNs, taken, State.wr]

theorem taken_ctx (s : State) (k : Ctx) :
    (taken s k).ctx k = { s.ctx k with due := (s.ctx k).due - 1, waits := 0, stalled := false } := by
  simp [taken]

theorem taken_alone (h : Alone s k) : Alone (taken s k) k := by
  unfold Alone
  rw [taken_ctx]
  exact h

theorem State.fetchEnd_alone (s : State) (k : Ctx) (h : (s.ctx k).members = []) : s.fetchEnd k = s := by
  rw [State.fetchEnd, if_neg fun x => x.2 h]

theorem State.fetchEnd_due (s : State) (k : Ctx) (h : (s.ctx k).due ≠ 0) : s.fetchEnd k = s := by
  rw [State.fetchEnd, if_neg fun x => h x.1]

theorem descriptor_unasked (h : ¬ s.expects k) : descriptor k op d f s = s := by
  rw [descriptor, if_neg h]

/-- The state in which a descriptor is decided, and what may follow its decision: it is late, or it is decided by f. -/
theorem descriptor_taken (h : s.expects k) (hp : phaseBit (s.rd (F.HIF_CTX_CONS_CONS k)) (dqSize s k) = d.phase) :
    descriptor k op d f s = ((if s.cutoff then
      (taken s k).refuse k op d (s.rd (F.HIF_CTX_CONS_CONS k)) (.decisionLate, 0)
    else f (taken s k) (s.rd (F.HIF_CTX_CONS_CONS k))).fetchEnd k) := by
  rw [descriptor, if_pos h, ← taken_cutoff s k]
  dsimp only
  rw [if_pos hp]
  rfl

theorem descriptor_off_phase (h : s.expects k) (ha : Alone s k)
    (hp : phaseBit (s.rd (F.HIF_CTX_CONS_CONS k)) (dqSize s k) ≠ d.phase) :
    descriptor k op d f s = (s.wr (F.HIF_CTX_STAT_PHASE_WAIT k) 1).setCtx k
      { s.ctx k with due := 0, waits := (s.ctx k).waits + 1 } := by
  rw [descriptor, if_pos h]
  dsimp only
  rw [if_neg hp]
  exact State.fetchEnd_alone _ k (by simpa using ha.1)

theorem descriptor_arrives (h : Arrives s k d) :
    descriptor k op d f s = (f (taken s k) (s.rd (F.HIF_CTX_CONS_CONS k))).fetchEnd k := by
  obtain ⟨he, hp, hc⟩ := h
  rw [descriptor_taken he hp, hc, if_neg (by decide)]

/-! ### Decisions that end in one record (R53, R147) -/

/-- What a record leaves of the context's barrier members. -/
theorem Recorded.members {ws : List Word} {t : State} (h : Recorded k ws u t) : (t.ctx k).members = (u.ctx k).members := by
  rw [h.own, State.ctx_wr]

theorem State.wakeEvent_ctx (s : State) (c : Nat) (k : Ctx) : (s.wakeEvent c).ctx k = s.ctx k := by
  simp only [State.ctx, State.wakeEvent_ctxs]

theorem Refused.members {t : State} (h : Refused k op d i r u t) : (t.ctx k).members = (u.ctx k).members := by
  obtain ⟨v, hv, rfl⟩ := h
  split
  · rw [State.wakeEvent_ctx, hv.members]
  · exact hv.members

theorem Refused.lcs {t : State} (h : Refused k op d i r u t) : t.lcs = u.lcs := by
  obtain ⟨v, hv, rfl⟩ := h
  have hl : v.lcs = u.lcs := by rw [hv.rest]; simp [State.wr]
  split
  · rw [State.wakeEvent_lcs, hl]
  · exact hl

/-- With no barrier member before it, a decision record is placed at once (R150). -/
theorem State.decide_recorded (u : State) (k : Ctx) (i : Nat) (ws : List Word) (h : (u.ctx k).members = []) :
    Recorded k ws u (u.decide k i ws) := by
  rw [State.decide, if_pos h]
  exact u.complete_recorded k ws

theorem State.refuse_refused (u : State) (k : Ctx) (op : Nat) (d : Desc) (i : Nat) (r : Refuse)
    (h : (u.ctx k).members = []) : Refused k op d i r u (u.refuse k op d i r) :=
  ⟨_, u.decide_recorded k i _ h, rfl⟩

/-! ### The commands that carry a descriptor (R130) -/

/-- An instruction brings its descriptor to the device, where it is decided by f. -/
def Brings (c : Ctx → Desc → Instr) (op : Nat) (f : Ctx → Desc → State → Nat → State) : Prop :=
  ∀ k d s, exec (c k d) s = .next (descriptor k op d (f k d) s)

/-- The commands of the opcode table, one for each scope or action of an opcode. -/
def descriptorCommands : List (Nat × (Ctx → Desc → Instr)) :=
  [(0, .nop), (1, .moveAbs), (2, .moveRel), (3, .jog), (4, .stop), (5, .hold), (6, .release), (7, .followStep), (8, .home),
    (9, .barrier), (10, .wait), (0x10, .configAxis), (0x11, .configBank), (0x12, .budget), (0x13, .quota),
    (0x18, .telemetryStart), (0x18, .telemetryStop), (0x19, .snapshot), (0x1A, .convert), (0x1B, .calibrateSlice),
    (0x1B, .calibrateFull), (0x1B, .calibrateIdentify), (0x20, .ledgerRead), (0x28, .fwStage), (0x29, .fwSwap),
    (0x2A, .lcTransit)]

theorem descriptorCommands_bring : ∀ x ∈ descriptorCommands, ∃ f, Brings x.2 x.1 f := by
  unfold descriptorCommands Brings
  simp only [List.forall_mem_cons, List.not_mem_nil, false_imp_iff, implies_true, and_true]
  repeat' apply And.intro
  all_goals exact ⟨_, fun _ _ _ => rfl⟩

theorem exec_badOpcode {op : Byte} (h : op.toNat ∉ opcodes) : exec (.badOpcode k op d) s =
    .next (descriptor k op.toNat d (fun s i => s.refuse k op.toNat d i (.badOpcode, op.toNat)) s) := by
  change execBadOpcode k op d s = _
  rw [execBadOpcode, if_neg (by simpa using h)]

/-- A descriptor in flight, whatever decides it: taken in ring order, by phase bit, and before the cut-off. -/
theorem descriptor_in_order {c : Instr} (hc : exec c s = .next (descriptor k op d f s)) :
    let i := s.rd (F.HIF_CTX_CONS_CONS k)
    (¬ s.expects k → exec c s = .next s) ∧
    (s.expects k → phaseBit i (dqSize s k) ≠ d.phase → Alone s k → exec c s =
      .next ((s.wr (F.HIF_CTX_STAT_PHASE_WAIT k) 1).setCtx k { s.ctx k with due := 0, waits := (s.ctx k).waits + 1 })) ∧
    (s.expects k → phaseBit i (dqSize s k) = d.phase → s.cutoff → Alone s k →
      Gives c s (Refused k op d i (.decisionLate, 0) (taken s k))) := by
  dsimp only
  refine ⟨fun h => ?_, fun h hp ha => ?_, fun h hp hl ha => ⟨_, hc, ?_⟩⟩
  · rw [hc, descriptor_unasked h]
  · rw [hc, descriptor_off_phase h ha hp]
  · have hr := (taken s k).refuse_refused k op d (s.rd (F.HIF_CTX_CONS_CONS k)) (.decisionLate, 0) (taken_alone ha).1
    rw [descriptor_taken h hp, if_pos hl, State.fetchEnd_alone _ _ (hr.members.trans (taken_alone ha).1)]
    exact hr

/-- A descriptor that arrives alone and is decided with one record is answered in that decision. -/
theorem gives_of_arrives {c : Instr} (hc : exec c s = .next (descriptor k op d f s)) (h : Arrives s k d) {P : State → Prop}
    (hp : P (f (taken s k) (s.rd (F.HIF_CTX_CONS_CONS k))))
    (hm : ((f (taken s k) (s.rd (F.HIF_CTX_CONS_CONS k))).ctx k).members = []) : Gives c s P :=
  ⟨_, hc, by rwa [descriptor_arrives h, State.fetchEnd_alone _ _ hm]⟩

theorem gives_refused {c : Instr} (hc : exec c s = .next (descriptor k op d f s)) (h : Arrives s k d) (ha : Alone s k)
    (hf : f (taken s k) (s.rd (F.HIF_CTX_CONS_CONS k)) = (taken s k).refuse k op d (s.rd (F.HIF_CTX_CONS_CONS k)) r) :
    Gives c s (Refused k op d (s.rd (F.HIF_CTX_CONS_CONS k)) r (taken s k)) := by
  have hr := (taken s k).refuse_refused k op d (s.rd (F.HIF_CTX_CONS_CONS k)) r (taken_alone ha).1
  refine gives_of_arrives hc h ?_ ?_ <;> rw [hf]
  · exact hr
  · exact hr.members.trans (taken_alone ha).1

theorem gives_recorded {c : Instr} {ws : List Word} (hc : exec c s = .next (descriptor k op d f s)) (h : Arrives s k d)
    (ha : Alone s k) (hf : f (taken s k) (s.rd (F.HIF_CTX_CONS_CONS k)) =
      (taken s k).decide k (s.rd (F.HIF_CTX_CONS_CONS k)) ws) : Gives c s (Recorded k ws (taken s k)) := by
  have hr := (taken s k).decide_recorded k (s.rd (F.HIF_CTX_CONS_CONS k)) ws (taken_alone ha).1
  refine gives_of_arrives hc h ?_ ?_ <;> rw [hf]
  · exact hr
  · exact hr.members.trans (taken_alone ha).1

/-- Settles O29: every descriptor command brings its descriptor to the same three tests; NOP and unknown opcodes are then
decided at once. -/
theorem descriptorsAreTakenInOrder : Obligations.DescriptorsAreTakenInOrder := by
  unfold Obligations.DescriptorsAreTakenInOrder
  intro s k d u i rule
  refine ⟨fun x hx => ?_, fun op hop => ⟨descriptor_in_order (exec_badOpcode hop), fun h ha => ?_⟩, fun h ha => ⟨?_, ?_⟩⟩
  · obtain ⟨f, hf⟩ := descriptorCommands_bring x hx
    exact descriptor_in_order (hf k d s)
  · exact gives_refused (exec_badOpcode hop) h ha rfl
  · intro hp
    refine gives_recorded (f := decideNop k d) rfl h ha ?_
    rw [decideNop, show preCheck (taken s k) k 0 d = none from hp, ← taken_tickNs s k]
  · intro r hp
    refine gives_refused (f := decideNop k d) rfl h ha ?_
    rw [decideNop, show preCheck (taken s k) k 0 d = some r from hp]

end Sys2Proof.Machine

namespace Sys2Proof.Machine

variable {s u : State} {k : Ctx} {op i tag t : Nat} {d : Desc} {useStart : Bool} {r : Refuse}
  {adm : State → Nat → Nat → Except Refuse (State × List Word)}

/-! ### The checks before admission (R53, R55) -/

/-- The first of the checks before R55 and of checks 1 to 4 that fails refuses with r. -/
def FailsEarly (u : State) (k : Ctx) (op : Nat) (d : Desc) (useStart : Bool) (r : Refuse) : Prop :=
  preCheck u k op d = some r ∨ (preCheck u k op d = none ∧ (tagCheck u k = .error r ∨ ∃ tag, tagCheck u k = .ok tag ∧
    (galleyCheck u op d = some r ∨
      (galleyCheck u op d = none ∧ useStart ∧ startCheck u op d (effStart u op d) = some r))))

theorem decideWith_early (h : FailsEarly u k op d useStart r) :
    decideWith k op d useStart adm u i = u.refuse k op d i r := by
  unfold decideWith
  obtain hp | ⟨hp, ht | ⟨tag, ht, hg | ⟨hg, hu, hs⟩⟩⟩ := h
  · rw [hp]
  · rw [hp]; dsimp only; rw [ht]
  · rw [hp]; dsimp only; rw [ht]; dsimp only; rw [hg]
  · rw [hp]; dsimp only; rw [ht]; dsimp only; rw [hg]; dsimp only; rw [if_pos hu, hs]

/-- What passes those checks is decided by its admission. -/
theorem decideWith_passes (h : Passes u k op d useStart tag) : decideWith k op d useStart adm u i =
    match adm u tag (effStart u op d) with
    | .error r => u.refuse k op d i r
    | .ok x => x.1.decide k i x.2 := by
  obtain ⟨hp, ht, hg, hs⟩ := h
  have hstart : (if useStart then startCheck u op d (effStart u op d) else none) = none := by
    split
    · next hu => exact hs hu
    · rfl
  unfold decideWith
  dsimp only
  rw [hp]
  dsimp only
  rw [ht]
  dsimp only
  rw [hg]
  dsimp only
  rw [hstart]
  dsimp only
  cases adm u tag (effStart u op d) <;> rfl

theorem decideWith_error (h : Passes u k op d useStart tag) (he : adm u tag (effStart u op d) = .error r) :
    decideWith k op d useStart adm u i = u.refuse k op d i r := by
  rw [decideWith_passes h, he]

theorem decideWith_ok {x : State × List Word} (h : Passes u k op d useStart tag)
    (he : adm u tag (effStart u op d) = .ok x) : decideWith k op d useStart adm u i = x.1.decide k i x.2 := by
  rw [decideWith_passes h, he]

/-! ### Admission of a galley motion (R155, R171, R176, R182, R415) -/

variable {p : Planned} {l : Limits}

/-- The book of an axis as a galley motion from T on would have it. -/
def motionBooks (u : State) (op : Nat) (d : Desc) (p : Planned) (l : Limits) (T : Nat) : List Booking :=
  closeBook (u.plan d.axis).book T ++ motionBook u d.axis op d p l T

/-- A planned galley motion is refused with r by its Headland, the power of its bank, the mode or the state of its axis. -/
def MotionBlocked (u : State) (k : Ctx) (op : Nat) (d : Desc) (p : Planned) (l : Limits) (T : Nat) (r : Refuse) : Prop :=
  headlandCheck u d.axis op d p l = some r ∨ (headlandCheck u d.axis op d p l = none ∧
    (powerCheck u d.axis (motionBooks u op d p l T) = some r ∨ (powerCheck u d.axis (motionBooks u op d p l T) = none ∧
      (modeCheck u k op d).or (axisStateCheck u d.axis true) = some r)))

/-- The operation of an accepted galley motion, and its entry. -/
def motionOp (tag : Nat) (k : Ctx) (op : Nat) (d : Desc) (i T : Nat) (p : Planned) : Op :=
  mkOp tag k op d i [d.axis] T (if op = 7 ∧ d.u32 28 = 0 then none else some (T + p.durNs))

def motionSeg (tag : Nat) (k : Ctx) (op : Nat) (d : Desc) (T : Nat) (p : Planned) (l : Limits) : Seg :=
  ⟨tag, op, k, d, T, if op = 7 ∧ d.u32 28 = 0 then none else some (T + p.durNs), false, p.mo, p.vPeak, l.f⟩

theorem admitMotion_limit (h : motionCheck u d.axis op d t = .error r) : admitMotion u k op d i tag t = .error r := by
  unfold admitMotion
  dsimp only
  rw [h]

theorem admitMotion_blocked (h : motionCheck u d.axis op d t = .ok (p, l)) (hb : MotionBlocked u k op d p l t r) :
    admitMotion u k op d i tag t = .error r := by
  unfold MotionBlocked motionBooks at hb
  unfold admitMotion
  dsimp only
  rw [h]
  dsimp only
  obtain hh | ⟨hh, hp | ⟨hp, hm⟩⟩ := hb
  · rw [hh]
  · rw [hh]; dsimp only; rw [hp]
  · rw [hh]; dsimp only; rw [hp]; dsimp only; rw [hm]

theorem admitMotion_accepts (h : motionCheck u d.axis op d t = .ok (p, l)) (hh : headlandCheck u d.axis op d p l = none)
    (hp : powerCheck u d.axis (motionBooks u op d p l t) = none) (hm : modeCheck u k op d = none)
    (ha : axisStateCheck u d.axis true = none) : admitMotion u k op d i tag t =
      .ok (State.takeEntry { u with ops := u.ops ++ [motionOp tag k op d i t p] } d.axis (motionSeg tag k op d t p l)
        (motionBooks u op d p l t), motionOp tag k op d i t p) := by
  unfold motionBooks at *
  unfold admitMotion
  dsimp only
  rw [h]
  dsimp only
  rw [hh]
  dsimp only
  rw [hp]
  dsimp only
  rw [hm, ha]
  simp [motionOp, motionSeg]

/-! ### Admission of HOLD, RELEASE and WAIT (R134) -/

theorem admitStand_limit (h : u.rd (F.MPL_FMAX_IMAX d.axis) < d.u16 16 ∨ coilsReady u d.axis = false ∨ noSource u d.axis) :
    admitStand u k 5 d i tag t = .error (.limit, 7 + 256 * d.axis.val) := by
  unfold admitStand
  dsimp only
  rw [if_pos]
  · rfl
  · obtain h | h | h := h <;> simp [h]

theorem admitStand_state (ho : op ≠ 5) (h : (modeCheck u k op d).or (axisStateCheck u d.axis false) = some r) :
    admitStand u k op d i tag t = .error r := by
  unfold admitStand
  dsimp only
  rw [if_neg (by simp [ho]), if_neg ho]
  simp only [ho, decide_false, h]

/-- The commands that stand on the axis without a current of their own. -/
theorem waitingCommands_bring : ∀ x ∈ [(6, Instr.release), (10, Instr.wait)],
    x.1 ≠ 5 ∧ Brings x.2 x.1 fun k d => decideStand k x.1 d := by
  unfold Brings
  simp only [List.forall_mem_cons, List.not_mem_nil, false_imp_iff, implies_true, and_true]
  exact ⟨⟨by decide, fun _ _ _ => rfl⟩, by decide, fun _ _ _ => rfl⟩

/-! ### The commands that are decided by an admission -/

/-- A command's descriptor is decided by an admission, which looks at the mode of the device first where the command is
neither a galley motion nor HOLD (R415, R430). -/
def Weighs (c : Ctx → Desc → Instr) (op : Nat) (useStart : Bool) (k : Ctx) (d : Desc) : Prop :=
  ∃ adm : Nat → State → Nat → Nat → Except Refuse (State × List Word),
    (∀ s, exec (c k d) s = .next (descriptor k op d (fun u i => decideWith k op d useStart (adm i) u i) s)) ∧
    (¬ isMotion op → op ≠ 5 → ∀ i u tag t r, modeCheck u k op d = some r → adm i u tag t = .error r)

theorem Brings.weighs_by {c : Ctx → Desc → Instr} {chk : State → Nat → Option Refuse}
    {acc : Nat → State → Nat → Nat → State × List Word}
    (h : ∀ s, exec (c k d) s = .next (descriptor k op d (fun u i => decideBy k op d useStart chk (acc i) u i) s)) :
    Weighs c op useStart k d :=
  ⟨_, h, fun _ _ i u tag t r hm => by rw [hm]⟩

theorem Brings.weighs_stand {c : Ctx → Desc → Instr} (h : Brings c op fun k d => decideStand k op d) :
    Weighs c op true k d := by
  refine ⟨_, h k d, fun _ h5 i u tag t r hm => ?_⟩
  rw [admitStand_state h5 (by rw [hm]; rfl)]

/-- A galley motion that is no member of a barrier group. -/
def Single (op : Nat) (d : Desc) : Prop := ¬ (isMotion op ∧ d.grouped ∧ d.group ≠ 0#16)

/-- The admission of a galley motion with its decision record. -/
def weighMotion (k : Ctx) (op : Nat) (d : Desc) (i : Nat) (u : State) (tag t : Nat) : Except Refuse (State × List Word) :=
  match admitMotion u k op d i tag t with
  | .error r => .error r
  | .ok (s', o) => .ok (s', acceptWords o)

theorem Brings.motion {c : Ctx → Desc → Instr} (hm : isMotion op) (h : Brings c op fun k d => decideMotion k op d)
    (hs : Single op d) (s : State) : exec (c k d) s =
      .next (descriptor k op d (fun u i => decideWith k op d true (weighMotion k op d i) u i) s) := by
  have e : decideMotion k op d = fun u i => decideWith k op d true (weighMotion k op d i) u i :=
    funext fun u => funext fun i => if_neg fun x => hs ⟨hm, x⟩
  exact (h k d s).trans (by rw [← e])

theorem Brings.weighs_motion {c : Ctx → Desc → Instr} (hm : isMotion op) (h : Brings c op fun k d => decideMotion k op d)
    (hs : Single op d) : Weighs c op true k d :=
  ⟨_, h.motion hm hs, fun hn => absurd hm hn⟩

/-- The galley motions of the opcode table. -/
def motionCommands : List (Nat × (Ctx → Desc → Instr)) :=
  [(1, .moveAbs), (2, .moveRel), (3, .jog), (7, .followStep), (8, .home)]

theorem motionCommands_bring : ∀ x ∈ motionCommands, isMotion x.1 ∧ Brings x.2 x.1 fun k d => decideMotion k x.1 d := by
  unfold motionCommands Brings
  simp only [List.forall_mem_cons, List.not_mem_nil, false_imp_iff, implies_true, and_true]
  refine ⟨?_, ?_, ?_, ?_, ?_⟩ <;> exact ⟨rfl, fun _ _ _ => rfl⟩

/-- The commands that are decided by themselves, without NOP, BARRIER and LC_TRANSIT, with whether their START counts. -/
def weighedCommands : List (Nat × (Ctx → Desc → Instr) × Bool) :=
  [(1, .moveAbs, true), (2, .moveRel, true), (3, .jog, true), (4, .stop, true), (5, .hold, true), (6, .release, true),
    (7, .followStep, true), (8, .home, true), (10, .wait, true), (0x10, .configAxis, true), (0x11, .configBank, true),
    (0x12, .budget, false), (0x13, .quota, false), (0x18, .telemetryStart, true), (0x18, .telemetryStop, true),
    (0x19, .snapshot, true), (0x1A, .convert, true), (0x1B, .calibrateSlice, true), (0x1B, .calibrateFull, true),
    (0x1B, .calibrateIdentify, true), (0x20, .ledgerRead, true), (0x28, .fwStage, true), (0x29, .fwSwap, true)]

theorem weighedCommands_weigh : ∀ x ∈ weighedCommands, Single x.1 d → Weighs x.2.1 x.1 x.2.2 k d := by
  have motion : ∀ x ∈ motionCommands, Single x.1 d → Weighs x.2 x.1 true k d := fun x hx =>
    (motionCommands_bring x hx).2.weighs_motion (motionCommands_bring x hx).1
  have stand : ∀ {c op}, (Brings c op fun k d => decideStand k op d) → Single op d → Weighs c op true k d := fun h _ =>
    h.weighs_stand
  unfold weighedCommands
  unfold motionCommands at motion
  simp only [List.forall_mem_cons, List.not_mem_nil, false_imp_iff, implies_true, and_true] at motion ⊢
  obtain ⟨h1, h2, h3, h7, h8⟩ := motion
  refine ⟨h1, h2, h3, ?_, stand fun _ _ _ => rfl, stand fun _ _ _ => rfl, h7, h8, stand fun _ _ _ => rfl, ?_, ?_, ?_, ?_,
    ?_, ?_, ?_, ?_, ?_, ?_, ?_, ?_, ?_, ?_⟩ <;>
  exact fun _ => Brings.weighs_by fun _ => rfl

/-! ### LC_TRANSIT (R144, R419) -/

/-- What weighs an LC_TRANSIT. -/
def weighTransit (k : Ctx) (d : Desc) (u : State) (i : Nat) : State :=
  decideBy k 0x2A d true (fun s _ => transitCheck s (d.u8 16))
    (fun s tag t =>
      let t1 := tickFrom s t
      acceptOp s { mkOp tag k 0x2A d i [] t1 (some (t1 + s.tfNs)) with data := [s.lcs.nonce] }) u i

theorem exec_lcTransit (k : Ctx) (d : Desc) (s : State) : exec (.lcTransit k d) s =
    .next (descriptor k 0x2A d (fun u i => (weighTransit k d u i).redraw) s) := rfl

theorem lcTransit_refused (h : Arrives s k d) (ha : Alone s k)
    (hf : weighTransit k d (taken s k) (s.rd (F.HIF_CTX_CONS_CONS k)) =
      (taken s k).refuse k 0x2A d (s.rd (F.HIF_CTX_CONS_CONS k)) r) :
    Gives (.lcTransit k d) s fun t => ∃ v, Refused k 0x2A d (s.rd (F.HIF_CTX_CONS_CONS k)) r (taken s k) v ∧ t = { v with
      lcs := { s.lcs with nonce := Config.entropy s.lcs.draws, draws := s.lcs.draws + 1 } } := by
  have hr := (taken s k).refuse_refused k 0x2A d (s.rd (F.HIF_CTX_CONS_CONS k)) r (taken_alone ha).1
  refine gives_of_arrives (exec_lcTransit k d s) h ?_ ?_ <;> rw [hf]
  · refine ⟨_, hr, ?_⟩
    rw [State.redraw, hr.lcs, taken_lcs]
  · exact hr.members.trans (taken_alone ha).1

/-! ### The first failing check decides -/

/-- Settles O30: each command is weighed by its admission behind the same checks, so the first that fails is the one that
decides. -/
theorem firstFailingCheckRefuses : Obligations.FirstFailingCheckRefuses := by
  unfold Obligations.FirstFailingCheckRefuses
  intro s k d h ha u i n early singly
  have stands : ∀ {c op}, (Brings c op fun k d => decideStand k op d) → ∀ {tag r}, Passes u k op d true tag →
      admitStand u k op d i tag (effStart u op d) = .error r → Gives (c k d) s (Refused k op d i r u) :=
    fun hc tag r hp he => gives_refused (hc k d s) h ha (decideWith_error hp (by rw [he]))
  refine ⟨fun x hx hs r => ?_, fun x hx hs tag hp => ?_, fun tag hp hb => ?_, fun x hx tag r hp hm hb => ?_, fun r hr => ?_⟩
  · obtain ⟨adm, he, hm⟩ := weighedCommands_weigh x hx hs
    exact ⟨fun hr => gives_refused (he s) h ha (decideWith_early hr), fun tag hp h1 h5 hr =>
      gives_refused (he s) h ha (decideWith_error hp (hm h1 h5 _ _ _ _ _ hr))⟩
  · obtain ⟨hm, hb⟩ := motionCommands_bring x hx
    have refused : ∀ r, admitMotion u k x.1 d i tag (effStart u x.1 d) = .error r →
        Gives (x.2 k d) s (Refused k x.1 d i r u) := fun r he =>
      gives_refused (hb.motion hm hs s) h ha (decideWith_error hp (by rw [weighMotion, he]))
    exact ⟨fun r he => refused r (admitMotion_limit he), fun p l hc r hr => refused r (admitMotion_blocked hc hr)⟩
  · exact stands (c := .hold) (fun _ _ _ => rfl) hp (admitStand_limit hb)
  · obtain ⟨h5, hc⟩ := waitingCommands_bring x hx
    exact stands hc hp (admitStand_state h5 (by rw [hm]; exact hb))
  · refine lcTransit_refused h ha ?_
    rw [weighTransit, decideBy]
    obtain hr | ⟨tag, hp, hm⟩ := hr
    · rw [decideWith_early hr]
    · rw [decideWith_error hp (by dsimp only; rw [hm])]

/-! ### Accepted galley motions (R53, R132, R135 to R137, R155) -/

theorem State.takeEntry_accepted {o : Op} {n : Axis} {x : Seg} {b : List Booking} (ho : o.axes = [n])
    (hm : (u.ctx o.ctx).members = []) (i : Nat) :
    Accepted o (fun _ => x) (fun _ => b) u ((State.takeEntry { u with ops := u.ops ++ [o] } n x b).decide o.ctx i (acceptWords o)) := by
  refine ⟨_, fun m hm => ?_, fun m hm => ?_, rfl, State.decide_recorded _ _ _ _ hm⟩
  · obtain rfl : m = n := by simpa [ho] using hm
    rw [State.takeEntry, State.plan_setPlan_self]
    rfl
  · have hne : m ≠ n := by simpa [ho] using hm
    simp [State.takeEntry, State.plan_setPlan_ne, hne]
    rfl

/-- Settles O31: a member only joins its group; any other motion that passes every check takes its entry and its record. -/
theorem motionsAreAccepted : Obligations.MotionsAreAccepted := by
  unfold Obligations.MotionsAreAccepted
  intro s k d h x hx u i op n T
  obtain ⟨hm, hb⟩ := motionCommands_bring x hx
  refine ⟨fun hg hn hd => ⟨_, hb k d s, ?_⟩, fun ha hg tag p l hp hc hh hw hmode haxis => ?_⟩
  · rw [descriptor_arrives h]
    dsimp only
    rw [decideMotion, if_pos ⟨hg, hn⟩, taken_ctx]
    exact State.fetchEnd_due _ _ (by simp; omega)
  · have hs : Single op d := fun hx => by
      obtain hg | hg := hg
      · exact absurd (hg ▸ hx.2.1) (by decide)
      · exact hx.2.2 hg
    have hf : decideWith k op d true (weighMotion k op d i) u i = _ :=
      decideWith_ok hp (by rw [weighMotion, admitMotion_accepts hc hh hw hmode haxis])
    have hacc := State.takeEntry_accepted (o := motionOp tag k op d i T p) (x := motionSeg tag k op d T p l)
      (b := motionBooks u op d p l T) rfl (taken_alone ha).1 i
    refine gives_of_arrives (hb.motion hm hs s) h ?_ ?_
    · exact hf ▸ hacc
    · obtain ⟨v, -, -, hv, hr⟩ := hf ▸ hacc
      exact hr.members.trans (by rw [hv]; exact (taken_alone ha).1)

end Sys2Proof.Machine

namespace Sys2Proof.Machine

section Fetching

variable {s t u : State} {k j : Ctx} {p : Port} {page : Vector Word 64} {g : Fld}

/-! ### The flags of a context's status that no record writes (R107, R110) -/

/-- A field of context k's status below the bits that records and drops of events write. -/
def StatusFlag (k : Ctx) (g : Fld) : Prop := g.off = Reg.HIF_CTX_STAT k ∧ g.ok = true ∧ g.hi < 5

theorem StatusFlag.overrun (k : Ctx) : StatusFlag k (F.HIF_CTX_STAT_OVERRUN k) := ⟨rfl, rfl, Nat.zero_lt_succ 4⟩
theorem StatusFlag.cqWait (k : Ctx) : StatusFlag k (F.HIF_CTX_STAT_CQ_WAIT k) := ⟨rfl, rfl, Nat.lt_succ_self 4⟩

/-- A field elsewhere, or of this word's bits from 5 up, may be written. -/
theorem StatusFlag.rd_wr (h : StatusFlag k g) {f : Fld} (hf : f.off ≠ Reg.HIF_CTX_STAT k ∨ (f.ok = true ∧ 5 ≤ f.lo))
    (s : State) (v : Nat) : (s.wr f v).rd g = s.rd g := by
  obtain ⟨ho, hok, hhi⟩ := h
  refine State.rd_wr_ne s v (hf.imp (fun h => by rw [ho]; exact Ne.symm h) fun h => ⟨h.1, hok, ?_⟩)
  simp only [Fld.apart, Bool.or_eq_true, decide_eq_true_eq]
  omega

theorem eqTail_ne_stat (j k : Ctx) : (F.HIF_CTX_EQ_TAIL_TAIL j).off ≠ Reg.HIF_CTX_STAT k := by
  change 0x40014 + 0x1000 * j.val ≠ 0x4001c + 0x1000 * k.val
  omega

theorem msixPend_ne_stat (p : Port) (j k : Ctx) : (msixPend p j).off ≠ Reg.HIF_CTX_STAT k := by
  have h1 : j.val / 32 < 2 := by omega
  have h2 : Reg.HIF_CTX_STAT k = 0x4001c + 0x1000 * k.val := rfl
  cases p <;> · unfold msixPend portOff portBBase; dsimp only; omega

theorem StatusFlag.rd_place (h : StatusFlag k g) (s : State) (j : Ctx) (cls : Dma) (i a : Nat) (ws : List Word) (b : Bool) :
    (s.place j cls i a ws b).rd g = s.rd g := by
  have message : ∀ (s : State) p j, (s.message p j).rd g = s.rd g := fun s p j => by
    unfold State.message
    split <;> rfl
  have signal : ∀ (s : State) j, (s.signal j).rd g = s.rd g := fun s j => by
    unfold State.signal
    extract_lets p
    split
    · exact h.rd_wr (.inl (msixPend_ne_stat _ j k)) s 1
    · exact message s _ j
  have issued : ∀ (s : State) j b, (s.issued j b).rd g = s.rd g := fun s j b => by
    unfold State.issued
    extract_lets c m c' s'
    split
    · exact signal s' j
    · rfl
  unfold State.place
  extract_lets q
  split
  · exact issued _ j b
  · rw [h.rd_wr (.inr ⟨rfl, Nat.le_refl 5⟩)]
    cases q <;> rfl

theorem StatusFlag.rd_eventTo (h : StatusFlag k g) (s : State) (j : Ctx) (e : Event) :
    (s.eventTo j e).rd g = s.rd g := by
  have put : ∀ (s : State) e, (s.putEvent j e).rd g = s.rd g := fun s e =>
    (h.rd_place _ j _ _ _ _ _).trans (h.rd_wr (.inl (eqTail_ne_stat j k)) s _)
  have drop : ∀ s : State, (s.dropEvent j).rd g = s.rd g := fun s =>
    h.rd_wr (f := F.HIF_CTX_STAT_EV_DROP j) (.inr ⟨rfl, Nat.le_add_left 5 3⟩) (s.noteCnt _ 1) _
  have flush : ∀ s : State, (s.flushLost j).rd g = s.rd g := fun s => by
    unfold State.flushLost
    split
    · exact put _ _
    · rfl
  unfold State.eventTo
  extract_lets v
  split
  · split
    · rw [put, flush]
    · rw [drop, flush]
  · rfl

theorem State.ctx_sqc (s : State) (f : Fld) (k : Ctx) : (s.sqc f).ctx k = s.ctx k := by
  rw [State.ctx, State.sqc_ctxs]
  rfl

theorem State.flag_setCtx (s : State) (k : Ctx) (x : CtxS) (f : Fld) : (s.setCtx k x).flag f = s.flag f := rfl

theorem State.setOverrun_keeps (s : State) (k : Ctx) (n : Option Nat) :
    ((s.setCtx k { s.ctx k with overrunAt := n }).ctx k).due = (s.ctx k).due ∧
      ∀ f, (s.setCtx k { s.ctx k with overrunAt := n }).flag f = s.flag f :=
  ⟨by rw [State.ctx_setCtx_self], s.flag_setCtx k _⟩

/-! ### Serving the contexts of a port, one by one (R108, R110) -/

/-- From s to t contexts have been served: what that may touch. -/
structure Fetches (s t : State) : Prop where
  rest : t = { s with
    regs := t.regs, portA := t.portA, portB := t.portB, ctxs := t.ctxs, sent := t.sent, seqDone := t.seqDone
    cntNow := t.cntNow }
  regs : ∀ o, eventReg o = false → t.reg o = s.reg o
  page : ∀ p, (t.port p).page = (s.port p).page

theorem Fetches.refl (s : State) : Fetches s s := ⟨rfl, fun _ _ => rfl, fun _ => rfl⟩

theorem Fetches.trans (h : Fetches s t) (h' : Fetches t u) : Fetches s u where
  rest := by
    have e := h'.rest
    rw [h.rest] at e
    exact e
  regs o e := (h'.regs o e).trans (h.regs o e)
  page p := (h'.page p).trans (h.page p)

theorem Reports.fetches (h : Reports eventReg s t) : Fetches s t := by
  refine ⟨?_, h.regs, fun p => by rw [h.port p]⟩
  have e := h.unstored (by decide +kernel)
  rw [e]

theorem State.setCtx_fetches (s : State) (k : Ctx) (x : CtxS) : Fetches s (s.setCtx k x) :=
  ⟨rfl, fun _ _ => rfl, fun p => by cases p <;> rfl⟩

theorem serveCtx_fetches (p : Port) (page : Vector Word 64) (s : State) (k : Ctx) : Fetches s (serveCtx p page s k) := by
  unfold serveCtx
  extract_lets _ cons _ size _ _ s1 e c s2 _ base w _ v
  have h1 : Fetches s s1 := (State.sqc_reports _ (eventReg_ctxStat k)).fetches
  have h2 : Fetches s s2 := (h1.trans (State.eventTo_reports 0 e).fetches).trans (State.setCtx_fetches _ _ _)
  have hw : Fetches s w := (State.wr_reports _ _ (eventReg_ctxStat k)).fetches
  have hv : Fetches s v := hw.trans (w.setCtx_fetches _ _)
  split
  · split
    · split
      · exact h2
      · exact h2.trans (State.eventTo_reports k e).fetches
    · exact h1
  · exact hv.trans (Reports.each fun s _ => State.emit_reports _).fetches

/-- Serving another context leaves alone what counts for context k: how it stands, and the flags of its status. -/
structure Spares (k : Ctx) (s t : State) : Prop extends Fetches s t where
  ctx : t.ctx k = { s.ctx k with
    unsig := (t.ctx k).unsig, unsigAt := (t.ctx k).unsigAt, modTime := (t.ctx k).modTime, lost := (t.ctx k).lost }
  status : ∀ g, StatusFlag k g → t.rd g = s.rd g
  sent : s.sent <+: t.sent

theorem Spares.refl (s : State) : Spares k s s := ⟨Fetches.refl s, rfl, fun _ _ => rfl, List.prefix_rfl⟩

theorem Spares.trans (h : Spares k s t) (h' : Spares k t u) : Spares k s u where
  toFetches := h.toFetches.trans h'.toFetches
  ctx := by rw [h'.ctx, h.ctx]
  status g e := (h'.status g e).trans (h.status g e)
  sent := h.sent.trans h'.sent

theorem Spares.due (h : Spares k s t) : (t.ctx k).due = (s.ctx k).due := by rw [h.ctx]

theorem Spares.flag (h : Spares k s t) (hg : StatusFlag k g) : t.flag g = s.flag g := by
  rw [State.flag, h.status g hg]
  rfl

theorem State.eventTo_spares (s : State) (j : Ctx) (e : Event) : Spares k s (s.eventTo j e) :=
  ⟨(State.eventTo_reports j e).fetches, (State.eventTo_reports j e).ctx k, fun _ h => h.rd_eventTo s j e,
    (State.eventTo_keeps j e s (Keeps.refl s)).out⟩

theorem State.setCtx_spares (s : State) (hj : k ≠ j) (x : CtxS) : Spares k s (s.setCtx j x) :=
  ⟨s.setCtx_fetches j x, by rw [State.ctx_setCtx_ne _ _ hj], fun _ _ => rfl, List.prefix_rfl⟩

theorem ctxStat_ne (hj : k ≠ j) : Reg.HIF_CTX_STAT k ≠ Reg.HIF_CTX_STAT j := by
  have : k.val ≠ j.val := fun h => hj (Fin.ext h)
  change 0x4001c + 0x1000 * k.val ≠ 0x4001c + 0x1000 * j.val
  omega

theorem State.sqc_spares (s : State) (hj : k ≠ j) : Spares k s (s.sqc (F.HIF_CTX_STAT_OVERRUN j)) := by
  have h := State.sqc_reports (s := s) (F.HIF_CTX_STAT_OVERRUN j) (eventReg_ctxStat j)
  refine ⟨h.fetches, h.ctx k, fun g h => ?_, by rw [State.sqc_sent]⟩
  rw [State.rd, State.rd, State.reg_sqc_ne]
  rw [h.1]
  exact ctxStat_ne hj

theorem State.wrB_spares (s : State) (hj : k ≠ j) (b : Bool) : Spares k s (s.wrB (F.HIF_CTX_STAT_CQ_WAIT j) b) :=
  have h := State.wr_reports (s := s) (F.HIF_CTX_STAT_CQ_WAIT j) (if b then 1 else 0) (eventReg_ctxStat j)
  ⟨h.fetches, h.ctx k, fun _ h => h.rd_wr (.inl (ctxStat_ne (Ne.symm hj))) s _, List.prefix_rfl⟩

theorem emits_spares {α : Type} (f : α → Out) (l : List α) (s : State) : Spares k s (each l (fun s x => s.emit (f x)) s) := by
  have h := (Reports.each (R := eventReg) (l := l) (s := s) fun s x => State.emit_reports (f x)).fetches
  have hs := emits_sent f l s
  obtain ⟨o, e⟩ := emits_frame f l s
  rw [e] at h hs ⊢
  exact ⟨h, rfl, fun _ _ => rfl, by rw [hs]; exact List.prefix_append _ _⟩

theorem serveCtx_spares (p : Port) (page : Vector Word 64) (s : State) (hj : j ≠ k) : Spares k s (serveCtx p page s j) := by
  unfold serveCtx
  extract_lets _ cons _ size _ _ s1 e c s2 _ base w _ v
  have h1 : Spares k s s1 := s.sqc_spares hj.symm
  have h2 : Spares k s s2 := (h1.trans (s1.eventTo_spares 0 e)).trans (State.setCtx_spares _ hj.symm _)
  have hv : Spares k s v := (s.wrB_spares hj.symm _).trans (w.setCtx_spares hj.symm _)
  split
  · split
    · split
      · exact h2
      · exact h2.trans (s2.eventTo_spares j e)
    · exact h1
  · exact hv.trans (emits_spares (fun i => Out.read p .fetch (base + 64 * ((cons + i) % 2 ^ 32 % size)) 64) _ v)

/-! ### What serving gives a context (R108, R110) -/

/-- The descriptors the producer index is ahead, the most of them the context may take, and those it has room for. -/
def ahead (s : State) (k : Ctx) (page : Vector Word 64) : Nat := idxDiff (producer s k page) (s.rd (F.HIF_CTX_CONS_CONS k))
def wanted (s : State) (k : Ctx) (page : Vector Word 64) : Nat := min (ahead s k page) (s.rd (F.HIF_CTX_CFG_FETCH_MAX k))
def ringRoom (s : State) (k : Ctx) : Nat := ((s.ctx k).snapF - (s.ctx k).snapI) / 2

/-- The read of the slot of the j-th descriptor to come. -/
def slotRead (s : State) (p : Port) (k : Ctx) (j : Nat) : Out :=
  .read p .fetch (s.rd64 (Reg.HIF_CTX_DQB_LO k) + 64 * ((s.rd (F.HIF_CTX_CONS_CONS k) + j) % 2 ^ 32 % dqSize s k)) 64

/-- From s to t context k of port p has been served its page. -/
structure Served (p : Port) (page : Vector Word 64) (k : Ctx) (s t : State) : Prop where
  within : ahead s k page ≤ dqSize s k → (t.ctx k).due = min (wanted s k page) (ringRoom s k) ∧
    t.flag (F.HIF_CTX_STAT_CQ_WAIT k) = decide (0 < ahead s k page ∧ ringRoom s k < wanted s k page) ∧
    ∀ j, j < min (wanted s k page) (ringRoom s k) → slotRead s p k j ∈ t.sent.drop s.sent.length
  beyond : dqSize s k < ahead s k page → t.flag (F.HIF_CTX_STAT_OVERRUN k) ∧ (t.ctx k).due = (s.ctx k).due

theorem serveCtx_within (h : ahead s k page ≤ dqSize s k) : serveCtx p page s k =
    each (List.range (min (wanted s k page) (ringRoom s k))) (fun t j => t.emit (slotRead s p k j))
      ((s.wrB (F.HIF_CTX_STAT_CQ_WAIT k) (decide (0 < ahead s k page ∧ ringRoom s k < wanted s k page))).setCtx k
        { s.ctx k with due := min (wanted s k page) (ringRoom s k) }) := by
  unfold serveCtx
  extract_lets _ cons a size room want _ _ _ _ m base w _ v
  have h' : ¬ size < a := Nat.not_lt.2 h
  rw [if_neg h']
  have hw : w = s.wrB (F.HIF_CTX_STAT_CQ_WAIT k) (decide (0 < a ∧ room < want)) := by rw [Bool.decide_and]
  have hc : w.ctx k = s.ctx k := State.ctx_wr s k (F.HIF_CTX_STAT_CQ_WAIT k) _
  have hv : v = w.setCtx k { s.ctx k with due := m } := by rw [← hc]
  rw [hv, hw]
  rfl

theorem serveCtx_beyond (h : dqSize s k < ahead s k page) : ∃ t, Spares k (s.sqc (F.HIF_CTX_STAT_OVERRUN k)) t ∧
    ((serveCtx p page s k).ctx k).due = (t.ctx k).due ∧
    (serveCtx p page s k).flag (F.HIF_CTX_STAT_OVERRUN k) = t.flag (F.HIF_CTX_STAT_OVERRUN k) := by
  unfold ahead at h
  unfold serveCtx
  dsimp only
  rw [if_pos h]
  generalize hw : State.eventTo 0 _ _ = w
  have hs : Spares k (s.sqc (F.HIF_CTX_STAT_OVERRUN k)) w := hw ▸ State.eventTo_spares _ 0 _
  generalize some (s.rd F.TBS_FRAME_CNT_FRAME) = n
  obtain ⟨hd, hf⟩ := w.setOverrun_keeps k n
  split
  · split
    · exact ⟨w, hs, hd, hf _⟩
    · generalize hv : w.setCtx k _ = v at hd hf ⊢
      have ha := v.eventTo_spares (k := k) k
      exact ⟨w, hs, (ha _).due.trans hd, ((ha _).flag (.overrun k)).trans (hf _)⟩
  · exact ⟨_, Spares.refl _, rfl, rfl⟩

theorem serveCtx_served (p : Port) (page : Vector Word 64) (s : State) (k : Ctx) :
    Served p page k s (serveCtx p page s k) := by
  refine ⟨fun h => ?_, fun h => ?_⟩
  · rw [serveCtx_within h]
    generalize hw : (s.wrB (F.HIF_CTX_STAT_CQ_WAIT k) _).setCtx k _ = w
    have he := emits_spares (k := k) (slotRead s p k) (List.range (min (wanted s k page) (ringRoom s k))) w
    refine ⟨?_, ?_, fun j hj => ?_⟩
    · rw [he.due, ← hw, State.ctx_setCtx_self]
    · rw [he.flag (.cqWait k), ← hw, State.flag_setCtx]
      exact flag_wrB_self s rfl _
    · have hs : w.sent = s.sent := by rw [← hw, State.setCtx_sent, State.wrB_sent]
      rw [emits_sent, hs, List.drop_left]
      exact List.mem_map.2 ⟨j, List.mem_range.2 hj, rfl⟩
  · obtain ⟨t, ht, hd, hf⟩ := serveCtx_beyond (p := p) h
    rw [hd, hf, ht.due, ht.flag (.overrun k)]
    exact ⟨State.flag_sqc s rfl (by show 0 < 24; omega), by rw [State.ctx_sqc]⟩

/-! ### A page returns: each context of the port is served once (R108, R110) -/

theorem eventReg_low {o : Nat} (h : o < 0x40000) : eventReg o = false := by
  simp only [Bool.eq_false_iff, eventReg, ne_eq, Bool.or_eq_true, Bool.and_eq_true, decide_eq_true_eq]
  omega

theorem eventReg_cfg (k : Ctx) : eventReg (Reg.HIF_CTX_CFG k) = false ∧ eventReg (Reg.HIF_CTX_DQB_LO k) = false ∧
    eventReg (Reg.HIF_CTX_DQB_LO k + 4) = false ∧ eventReg (Reg.HIF_CTX_CONS k) = false := by
  refine ⟨eventReg_low ?_, eventReg_low ?_, eventReg_low ?_, ?_⟩
  · change 0x2000 + 0x40 * k.val < _; omega
  · change 0x2010 + 0x40 * k.val < _; omega
  · change 0x2010 + 0x40 * k.val + 4 < _; omega
  · change eventReg (0x4000c + 0x1000 * k.val) = false
    simp only [Bool.eq_false_iff, eventReg, ne_eq, Bool.or_eq_true, Bool.and_eq_true, decide_eq_true_eq]
    omega

/-- Context k's fetching is counted alike at s and at t. -/
structure CountsAlike (k : Ctx) (s t : State) : Prop where
  ahead : ∀ page, ahead t k page = ahead s k page
  wanted : ∀ page, wanted t k page = wanted s k page
  room : ringRoom t k = ringRoom s k
  size : dqSize t k = dqSize s k
  slots : ∀ p j, slotRead t p k j = slotRead s p k j

theorem CountsAlike.of (hr : ∀ o, eventReg o = false → t.reg o = s.reg o) (hd : (t.ctx k).snapDb = (s.ctx k).snapDb)
    (hf : (t.ctx k).snapF = (s.ctx k).snapF) (hi : (t.ctx k).snapI = (s.ctx k).snapI) : CountsAlike k s t := by
  obtain ⟨h1, h2, h3, h4⟩ := eventReg_cfg k
  have cfg : ∀ a b, t.rd ⟨Reg.HIF_CTX_CFG k, a, b⟩ = s.rd ⟨Reg.HIF_CTX_CFG k, a, b⟩ := fun a b => State.rd_of_reg (hr _ h1)
  have mode : t.flag (F.HIF_CTX_CFG_DB_MODE k) = s.flag (F.HIF_CTX_CFG_DB_MODE k) := State.flag_of_reg (hr _ h1)
  have cons : t.rd (F.HIF_CTX_CONS_CONS k) = s.rd (F.HIF_CTX_CONS_CONS k) := State.rd_of_reg (hr _ h4)
  have size : dqSize t k = dqSize s k := congrArg (2 ^ ·) (cfg _ _)
  have base : t.rd64 (Reg.HIF_CTX_DQB_LO k) = s.rd64 (Reg.HIF_CTX_DQB_LO k) := by
    rw [State.rd64, State.rd64, hr _ h2, hr _ h3]
  have ah : ∀ page, Machine.ahead t k page = Machine.ahead s k page := fun page => by
    rw [Machine.ahead, Machine.ahead, producer, producer, mode, cons, hd]
  refine ⟨ah, fun page => ?_, ?_, size, fun p j => ?_⟩
  · rw [Machine.wanted, Machine.wanted, ah, F.HIF_CTX_CFG_FETCH_MAX, cfg]
  · rw [ringRoom, ringRoom, hf, hi]
  · rw [slotRead, slotRead, base, cons, size]

theorem Spares.alike (h : Spares k s t) : CountsAlike k s t := by
  refine CountsAlike.of h.regs ?_ ?_ ?_ <;> rw [h.ctx]

theorem State.setPort_alike (s : State) (p : Port) (x : PortS) : CountsAlike k s (s.setPort p x) := by
  cases p <;> exact CountsAlike.of (fun _ _ => rfl) rfl rfl rfl

/-- What a context was given, as counted where it stood before. -/
theorem Served.alike (h : Served p page k u t) (e : CountsAlike k s u) (hd : (u.ctx k).due = (s.ctx k).due)
    (hs : s.sent <+: u.sent) : Served p page k s t := by
  obtain ⟨e1, e2, e3, e4, e5⟩ := e
  obtain ⟨h1, h2⟩ := h
  refine ⟨fun ha => ?_, fun hb => ?_⟩
  · obtain ⟨hx, hw, hr⟩ := h1 (by rwa [e1, e4])
    rw [e2, e3] at hx hr
    rw [e1, e2, e3] at hw
    exact ⟨hx, hw, fun j hj => mem_drop_of_le hs.length_le (e5 p j ▸ hr j hj)⟩
  · obtain ⟨ho, hx⟩ := h2 (by rwa [e1, e4])
    exact ⟨ho, hx.trans hd⟩

/-- Others served after leave a context with what it was given. -/
theorem Served.spared (h : Served p page k s u) (ht : Spares k u t) : Served p page k s t := by
  obtain ⟨h1, h2⟩ := h
  refine ⟨fun ha => ?_, fun hb => ?_⟩
  · obtain ⟨hx, hw, hr⟩ := h1 ha
    exact ⟨ht.due.trans hx, (ht.flag (.cqWait k)).trans hw, fun j hj => mem_drop_of_prefix ht.sent (hr j hj)⟩
  · obtain ⟨ho, hx⟩ := h2 hb
    exact ⟨(ht.flag (.overrun k)).trans ho, ht.due.trans hx⟩

/-- Putting what was sent in order takes nothing of what was given. -/
theorem Served.arranged (h : Served p page k s t) (hs : s.sent <+: t.sent) : Served p page k s (State.arranged s t) := by
  obtain ⟨h1, h2⟩ := h
  refine ⟨fun ha => ?_, h2⟩
  obtain ⟨hd, hw, hr⟩ := h1 ha
  exact ⟨hd, hw, fun j hj => State.arranged_sent_mem hs.length_le rfl (hr j hj)⟩

/-- What the port's contexts are served, before it is put in order. -/
def servedAll (p : Port) (page : Vector Word 64) (s : State) : State :=
  each (allCtxs.filter fun k => s.ctxOn k && s.ctxPort k = p && true) (serveCtx p page) s

theorem servePort_eq (p : Port) (page : Vector Word 64) (s : State) :
    servePort p page (fun _ _ => true) s = State.arranged s (servedAll p page s) := rfl

theorem servedAll_fetches (p : Port) (page : Vector Word 64) (s : State) : Fetches s (servedAll p page s) :=
  each_keep (p := Fetches s) (fun u h j _ => h.trans (serveCtx_fetches p page u j)) (Fetches.refl s)

theorem servedAll_sent (p : Port) (page : Vector Word 64) (s : State) : s.sent <+: (servedAll p page s).sent :=
  Keeps.out (Keeps.each (fun u j h => serveCtx_keeps p page u j h) (Keeps.refl s))

theorem servedAll_served (h : s.ctxOn k ∧ s.ctxPort k = p) : Served p page k s (servedAll p page s) := by
  have hk : k ∈ allCtxs.filter fun k => s.ctxOn k && s.ctxPort k = p && true := by simp [allCtxs, h.1, h.2]
  have hn : (allCtxs.filter fun k => s.ctxOn k && s.ctxPort k = p && true).Nodup := (List.nodup_finRange 64).filter _
  obtain ⟨u, hu, ht⟩ := each_at (T := Spares k) Spares.refl (fun _ _ _ => Spares.trans)
    (fun s _ hj => serveCtx_spares p page s hj) hk hn s
  exact ((serveCtx_served p page u k).alike hu.alike hu.due hu.sent).spared ht

theorem servedAll_spares (h : ¬ (s.ctxOn k ∧ s.ctxPort k = p)) : Spares k s (servedAll p page s) := by
  refine each_keep (p := Spares k s) (fun u hu j hj => hu.trans (serveCtx_spares p page u ?_)) (Spares.refl s)
  rintro rfl
  exact h (by simpa [allCtxs] using hj)

end Fetching

end Sys2Proof.Machine

namespace Sys2Proof.Machine

variable {s t : State} {k j : Ctx} {p : Port} {page : Vector Word 64} {r : Refuse}

/-! ### Members are refused at the cut-off (R35, R137, R188) -/

theorem State.setCtx_ctx (s : State) (k : Ctx) : s.setCtx k (s.ctx k) = s := by
  simp [State.setCtx, State.ctx]

theorem Reports.waiting {R : Nat → Bool} (h : Reports R s t) (j : Ctx) :
    (t.ctx j).members = (s.ctx j).members ∧ (t.ctx j).due = (s.ctx j).due := by
  rw [h.ctx j]
  exact ⟨rfl, rfl⟩

theorem State.setCtx_waiting (s : State) {x : CtxS} (h : x.due = (s.ctx k).due) (j : Ctx) :
    ((s.setCtx k x).ctx j).due = (s.ctx j).due ∧
      ((s.setCtx k x).ctx j).members = if j = k then x.members else (s.ctx j).members := by
  by_cases e : j = k
  · subst e
    rw [State.ctx_setCtx_self, if_pos rfl]
    exact ⟨h, rfl⟩
  · rw [State.ctx_setCtx_ne _ _ e, if_neg e]
    exact ⟨rfl, rfl⟩

/-- A context's kept records go out once no member waits. -/
theorem State.flushKept_waiting (s : State) (k j : Ctx) :
    ((s.flushKept k).ctx j).members = (s.ctx j).members ∧ ((s.flushKept k).ctx j).due = (s.ctx j).due := by
  unfold State.flushKept
  extract_lets ks
  split
  · have hc := Reports.waiting (Reports.each (R := ringReg) (l := ks) (s := s.setCtx k { s.ctx k with kept := [] })
      fun s x => State.complete_reports k x.2) j
    obtain ⟨hd, hm⟩ := s.setCtx_waiting (k := k) (x := { s.ctx k with kept := [] }) rfl j
    refine ⟨hc.1.trans (hm.trans ?_), hc.2.trans hd⟩
    split
    · next e => rw [e]
    · rfl
  · exact ⟨rfl, rfl⟩

/-- Refusing a context's members leaves none, and nothing else of how the contexts wait. -/
theorem State.refuseMembers_waiting (s : State) (k : Ctx) (r : Refuse) (j : Ctx) :
    ((s.refuseMembers k r).ctx j).due = (s.ctx j).due ∧
      ((s.refuseMembers k r).ctx j).members = if j = k then [] else (s.ctx j).members := by
  unfold State.refuseMembers
  extract_lets ms _ u
  have hk := State.flushKept_waiting (each ms (fun s m => s.complete k (refuseWords s m.op m.d m.index r)) u) k j
  have hc := Reports.waiting (Reports.each (R := ringReg) (l := ms) (s := u)
    fun s m => State.complete_reports k (refuseWords s m.op m.d m.index r)) j
  obtain ⟨hd, hm⟩ := s.setCtx_waiting (k := k) (x := { s.ctx k with members := [] }) rfl j
  exact ⟨(hk.2.trans hc.2).trans hd, (hk.1.trans hc.1).trans hm⟩

/-- A lone member, with no record kept behind it, has its refusal record. -/
theorem State.refuseMembers_single {m : Member} (hm : (s.ctx k).members = [m]) (hk : (s.ctx k).kept = []) :
    Recorded k (refuseWords s m.op m.d m.index r) (s.setCtx k { s.ctx k with members := [] }) (s.refuseMembers k r) := by
  have hr := (s.setCtx k { s.ctx k with members := [] }).complete_recorded k (refuseWords s m.op m.d m.index r)
  have hq : (((s.setCtx k { s.ctx k with members := [] }).complete k (refuseWords s m.op m.d m.index r)).ctx k).kept = [] := by
    rw [hr.own, State.ctx_wr, State.ctx_setCtx_self]
    exact hk
  have hf : s.refuseMembers k r =
      (s.setCtx k { s.ctx k with members := [] }).complete k (refuseWords s m.op m.d m.index r) := by
    rw [State.refuseMembers, hm]
    change State.flushKept ((s.setCtx k { s.ctx k with members := [] }).complete k (refuseWords s m.op m.d m.index r)) k = _
    generalize (s.setCtx k { s.ctx k with members := [] }).complete k (refuseWords s m.op m.d m.index r) = v at hq
    unfold State.flushKept
    rw [hq]
    split
    · have hv : v.setCtx k { v.ctx k with kept := [] } = v := by rw [← hq]; exact v.setCtx_ctx k
      exact hv
    · rfl
  rw [hf]
  exact hr

/-- The members of context k that still wait are refused as late. -/
def refuseLate (s : State) (k : Ctx) : State :=
  if (s.ctx k).members = [] then s else s.refuseMembers k (.decisionLate, 0)

theorem refuseLate_waiting (s : State) (k j : Ctx) : ((refuseLate s k).ctx j).due = (s.ctx j).due ∧
    ((refuseLate s k).ctx j).members = if j = k then [] else (s.ctx j).members := by
  unfold refuseLate
  split
  · next h =>
    refine ⟨rfl, ?_⟩
    split
    · next e => rw [e, h]
    · rfl
  · exact s.refuseMembers_waiting k _ j

theorem completes_cutoff {α : Type} (k : Ctx) (f : State → α → List Word) (l : List α) (s : State) :
    (each l (fun s x => s.complete k (f s x)) s).cutoff = s.cutoff := by
  have h : Reports ringReg s (each l (fun s x => s.complete k (f s x)) s) :=
    Reports.each fun s x => State.complete_reports k (f s x)
  rw [h.rest]

theorem State.flushKept_cutoff (s : State) (k : Ctx) : (s.flushKept k).cutoff = s.cutoff := by
  unfold State.flushKept
  extract_lets ks
  split
  · have h := completes_cutoff k (fun _ (x : Nat × List Word) => x.2) ks (s.setCtx k { s.ctx k with kept := [] })
    exact h
  · rfl

theorem State.refuseMembers_cutoff (s : State) (k : Ctx) (r : Refuse) : (s.refuseMembers k r).cutoff = s.cutoff := by
  unfold State.refuseMembers
  extract_lets ms _ u
  have h := completes_cutoff k (fun s (m : Member) => refuseWords s m.op m.d m.index r) ms u
  exact (State.flushKept_cutoff _ k).trans h

theorem refuseLate_cutoff (s : State) (k : Ctx) : (refuseLate s k).cutoff = s.cutoff := by
  unfold refuseLate
  split
  · rfl
  · exact s.refuseMembers_cutoff k _

theorem refuseLate_none (h : (s.ctx k).members = []) : refuseLate s k = s := if_pos h

theorem refuseLates_waiting (s : State) (k : Ctx) :
    ((each allCtxs refuseLate s).ctx k).members = [] ∧ ((each allCtxs refuseLate s).ctx k).due = (s.ctx k).due := by
  refine ⟨?_, ?_⟩
  · refine each_reaches (I := fun _ => True) (p := fun t => (t.ctx k).members = []) (b := k) (fun _ _ _ => trivial)
      (fun t _ => ?_) (fun t a ha _ h => ?_) (List.mem_finRange k) trivial
    · rw [(refuseLate_waiting t k k).2, if_pos rfl]
    · rw [(refuseLate_waiting t a k).2, if_neg ha.symm, h]
  · exact each_keep (p := fun t => (t.ctx k).due = (s.ctx k).due)
      (fun t h a _ => (refuseLate_waiting t a k).1.trans h) rfl

/-- Where members wait in context k alone, they are all that is refused. -/
theorem refuseLates_only (h : ∀ j, j ≠ k → (s.ctx j).members = []) : each allCtxs refuseLate s = refuseLate s k := by
  refine each_only (List.mem_finRange k) (List.nodup_finRange 64) (fun j hj => refuseLate_none (h j hj)) fun j hj => ?_
  refine refuseLate_none ?_
  rw [(refuseLate_waiting s k j).2, if_neg hj, h j hj]

theorem exec_admissionCutoff (h : s.ticking) (hc : s.cutoff = false) : exec .admissionCutoff s =
    .next (each allCtxs refuseLate { s.advTo (s.tickClk + s.period - 375) with cutoff := true }) := by
  change Host.Outcome.next (admissionCutoff s) = _
  rw [admissionCutoff, if_pos (by simp [h, hc])]
  rfl

/-! ### A doorbell page returns (R108, R110) -/

theorem exec_doorbellPageReturn (h : (s.port p).page) (hh : ¬ s.half) (hs : s.canSend p) :
    exec (.doorbellPageReturn p page) s = .next (State.arranged (s.setPort p { s.port p with page := false })
      (servedAll p page (s.setPort p { s.port p with page := false }))) := by
  change Host.Outcome.next (doorbellPageReturn p page s) = _
  rw [doorbellPageReturn, if_pos (by simp [h, hh, State.fetches, hs]), servePort_eq]

/-- What a returned page brings about, from the state with the page no longer out. -/
theorem pageServed_fetches (p : Port) (page : Vector Word 64) (u : State) :
    Fetches u (State.arranged u (servedAll p page u)) :=
  (servedAll_fetches p page u).trans (State.arranged_reports u).fetches

theorem pageServed_served (h : s.ctxOn k ∧ s.ctxPort k = p) (x : PortS) :
    Served p page k s (State.arranged (s.setPort p x) (servedAll p page (s.setPort p x))) := by
  have hu : (s.setPort p x).ctxOn k ∧ (s.setPort p x).ctxPort k = p := by cases p <;> exact h
  refine ((servedAll_served hu).arranged (servedAll_sent p page _)).alike (s.setPort_alike p x) ?_ ?_
  · cases p <;> rfl
  · rw [State.setPort_sent]

theorem pageServed_spared (h : ¬ (s.ctxOn k ∧ s.ctxPort k = p)) (x : PortS) :
    ((State.arranged (s.setPort p x) (servedAll p page (s.setPort p x))).ctx k).due = (s.ctx k).due := by
  have hu : ¬ ((s.setPort p x).ctxOn k ∧ (s.setPort p x).ctxPort k = p) := by cases p <;> exact h
  rw [((State.arranged_reports (R := eventReg) (s.setPort p x)).waiting k).2, (servedAll_spares hu).due]
  cases p <;> rfl

/-- Settles O37: contexts are served one by one, each sparing the others; the cut-off refuses context by context. -/
theorem fetchingIsCounted : Obligations.FetchingIsCounted := by
  unfold Obligations.FetchingIsCounted
  intro s
  refine ⟨fun p page hp hh hs => ⟨_, exec_doorbellPageReturn hp hh hs, ?_⟩, fun k hw hl hn => ?_, fun ht hc => ?_⟩
  · have hf := pageServed_fetches p page (s.setPort p { s.port p with page := false })
    refine ⟨?_, fun k hk hkp => ?_, fun k hk => pageServed_spared hk _, fun o ho => ?_, ?_⟩
    · rw [hf.page p, State.port_setPort_self]
    · obtain ⟨h1, h2⟩ := pageServed_served (page := page) ⟨hk, hkp⟩ { s.port p with page := false }
      refine ⟨fun ha => ?_, h2⟩
      obtain ⟨hd, hq, hr⟩ := h1 ha
      exact ⟨hd, hq, fun j hj => List.mem_of_mem_drop (hr j hj)⟩
    · rw [hf.regs o (eventReg_low ho)]
      cases p <;> rfl
    · have e := hf.rest
      cases p <;> exact e
  · refine ⟨_, rfl, ?_⟩
    rw [phaseStall, if_pos (by simp [hw, hl])]
    obtain ⟨h1, h2, h3⟩ := hn
    exact State.eventTo_notified _ k _ ⟨h1, by rw [State.ctx_setCtx_self]; exact h2, h3⟩
  · refine ⟨_, exec_admissionCutoff ht hc, ?_⟩
    generalize hu : ({ s.advTo (s.tickClk + s.period - 375) with cutoff := true } : State) = u
    have hx : ∀ k, u.ctx k = s.ctx k := fun k => by simp [← hu, State.ctx]
    refine ⟨?_, fun k => ?_, fun k hk hq m hm => ?_, fun h => ?_⟩
    · exact each_keep (p := fun t => t.cutoff) (fun t h k _ => by rwa [refuseLate_cutoff]) (by rw [← hu])
    · rw [← hx k]
      exact refuseLates_waiting u k
    · have others : ∀ j, j ≠ k → (u.ctx j).members = [] := fun j hj => by rw [hx, hk j hj]
      rw [refuseLates_only others, refuseLate, hx, if_neg (by simp [hm]), ← hx k]
      exact State.refuseMembers_single (by rw [hx, hm]) (by rw [hx, hq])
    · exact each_idle fun k _ => refuseLate_none (by rw [hx, h])

end Sys2Proof.Machine

namespace Sys2Proof.Machine

variable {s t u z : State} {f : Fld} {o : Int}

/-! ### Signed fields -/

theorem toSigned_ofSigned {n : Nat} {v : Int} (hl : -(2 ^ n : Int) ≤ 2 * v) (hh : 2 * v < 2 ^ n) :
    toSigned n (ofSigned n v) = v := by
  have hm : (0 : Int) < 2 ^ n := by positivity
  have hu : ((ofSigned n v : Nat) : Int) = v % 2 ^ n := Int.toNat_of_nonneg (Int.emod_nonneg _ hm.ne')
  have hlt : ofSigned n v < 2 ^ n := by
    have := Int.emod_lt_of_pos v hm
    zify
    omega
  unfold toSigned
  dsimp only
  rw [Nat.mod_eq_of_lt hlt]
  by_cases h : 0 ≤ v
  · have e := Int.emod_eq_of_lt h (by omega : v < 2 ^ n)
    rw [if_pos (by zify; omega)]
    omega
  · have e := Int.emod_eq_of_lt (a := v + 2 ^ n) (b := 2 ^ n) (by omega) (by omega)
    rw [Int.add_emod_right] at e
    rw [if_neg (by zify; omega)]
    omega

theorem toSigned_mod (n v : Nat) : toSigned n (v % 2 ^ n) = toSigned n v := by
  unfold toSigned
  rw [Nat.mod_mod]

/-- A signed field reads back what was put there, where it holds it. -/
theorem State.rdS_wrS_self (s : State) (hf : f.ok = true) {v : Int} (hl : -(2 ^ (f.hi + 1 - f.lo) : Int) ≤ 2 * v)
    (hh : 2 * v < 2 ^ (f.hi + 1 - f.lo)) : (s.wrS f v).rdS f = v := by
  rw [State.rdS, State.wrS, State.rd_wr_self s hf, toSigned_mod, toSigned_ofSigned hl hh]

theorem State.rdS_of_reg (h : t.reg f.off = s.reg f.off) : t.rdS f = s.rdS f := by
  rw [State.rdS, State.rd_of_reg h]
  rfl

theorem clampInt_mem {lo hi : Int} (h : lo ≤ hi) (v : Int) : lo ≤ clampInt lo hi v ∧ clampInt lo hi v ≤ hi := by
  unfold clampInt
  split
  · omega
  · split <;> omega

/-! ### What may follow a fault of the time base (R39, R44, R48) -/

/-- From s to t a fault may have tripped: the sources aside, no more than a reaction. -/
def Aftermath (s t : State) : Prop := Reaction s { t with fcs := { t.fcs with srcs := s.fcs.srcs } }

theorem Aftermath.refl (s : State) : Aftermath s s := Reaction.refl s

theorem Aftermath.step (h : Aftermath s t) (r : Reaction t u) : Aftermath s u := h.trans (r.withSrcs _)

theorem State.trip_aftermath (s : State) (k : Nat) (act : Bool) (ob : Option Nat) (loc : Bool) :
    Aftermath s (s.trip k act ob loc) := by
  obtain h | h := s.trip_cases k act ob loc
  · rw [h]; exact Aftermath.refl s
  · exact h.reaction

theorem Aftermath.tbs (h : Aftermath s t) : t.tbs = s.tbs := (congrArg State.tbs h.rest :)
theorem Aftermath.reqs (h : Aftermath s t) : t.reqs = s.reqs := (congrArg State.reqs h.rest :)
theorem Aftermath.clk (h : Aftermath s t) : t.clk = s.clk := (congrArg State.clk h.rest :)
theorem Aftermath.flag (h : Aftermath s t) (hf : faultReg f.off = false) : t.flag f = s.flag f :=
  State.flag_of_reg (h.regs _ hf)

theorem State.devEvent_reaction (s : State) (kind d0 d1 d2 : Nat) (fault : Bool) :
    Reaction s (s.devEvent kind d0 d1 d2 fault) := State.eventTo_reacts 0 _ s (Reaction.refl s)

/-! ### PTM LOCK clears (R44, R59) -/

/-- LOCK has cleared, LOST is set, and every operation accepted and not yet begun is flagged. -/
def ptmUnlocked (s : State) : State :=
  { (s.wr F.TBS_PTM_STAT_LOCK 0).sqc F.TBS_PTM_STAT_LOST with
    ops := s.ops.map fun o : Op => if o.begun then o else { o with unaligned := true } }

theorem ptmUnlocked_reg (s : State) {o : Nat} (h : o ≠ Reg.TBS_PTM_STAT) : (ptmUnlocked s).reg o = s.reg o :=
  (State.reg_sqc_ne _ h).trans (State.reg_wr_ne s 0 h)

theorem ptmUnlocked_lock (s : State) : (ptmUnlocked s).flag F.TBS_PTM_STAT_LOCK = false := by
  have h : ((s.wr F.TBS_PTM_STAT_LOCK 0).sqc F.TBS_PTM_STAT_LOST).flag F.TBS_PTM_STAT_LOCK = false := by
    rw [State.flag_sqc_apart _ (f := F.TBS_PTM_STAT_LOST) (g := F.TBS_PTM_STAT_LOCK) (by decide) (by decide) rfl (by decide),
      State.flag_wr_self s (by decide)]
    rfl
  exact h

theorem ptmUnlocked_powered (s : State) (d : Nat) : (ptmUnlocked s).powered d = s.powered d :=
  State.powered_congr (by simp [ptmUnlocked]) (ptmUnlocked_reg s (by decide)) d

/-- The state with the run of good dialogues ended. -/
def ptmRunEnds (s : State) : State := { s with tbs := { s.tbs with ptmGood := 0 } }

theorem State.ptmLose_unlocked (h : s.flag F.TBS_PTM_STAT_LOCK = false) : s.ptmLose = ptmRunEnds s := by
  have h' : ¬ (ptmRunEnds s).flag F.TBS_PTM_STAT_LOCK = true := fun x => Bool.false_ne_true (h.symm.trans x)
  exact if_neg h'

/-- Where LOCK was set, source 21 trips and its event goes out. -/
theorem State.ptmLose_locked (h : s.flag F.TBS_PTM_STAT_LOCK = true) :
    ∃ d0 d1, s.ptmLose = ((ptmUnlocked (ptmRunEnds s)).trip 21).devEvent 0x0004 d0 d1 0 true := by
  rw [State.ptmLose]
  extract_lets _ u v
  have hv : v = ptmUnlocked (ptmRunEnds s) := by
    have ho : u.ops = s.ops := by simp [u]
    unfold v
    rw [ho]
    rfl
  split
  · exact ⟨_, _, by rw [hv]⟩
  · next hn => exact absurd h hn

theorem State.ptmLose_tripped (h : s.flag F.TBS_PTM_STAT_LOCK = true) (hp : s.powered 1) :
    Tripped 21 false (ptmUnlocked (ptmRunEnds s)) s.ptmLose := by
  obtain ⟨d0, d1, e⟩ := s.ptmLose_locked h
  rw [e]
  have hu : (ptmUnlocked (ptmRunEnds s)).powered 1 := by rw [ptmUnlocked_powered]; exact hp
  exact (State.trip_tripped _ 21 false none false (by decide) hu).step (State.devEvent_reaction _ _ _ _ _ _)

/-! ### The end of a dialogue: what LOCK's changes leave -/

/-- From s to t LOCK may have changed, with what follows it. -/
structure PtmSettles (s t : State) : Prop where
  tbs : t.tbs = { s.tbs with ptmGood := t.tbs.ptmGood }
  reqs : t.reqs = s.reqs
  clk : t.clk = s.clk
  regs : ∀ o, faultReg o = false → o ≠ Reg.TBS_PTM_STAT → t.reg o = s.reg o

theorem Aftermath.ptmSettles (h : Aftermath u t) (hu : PtmSettles s u) : PtmSettles s t where
  tbs := by rw [h.tbs, hu.tbs]
  reqs := h.reqs.trans hu.reqs
  clk := h.clk.trans hu.clk
  regs o h1 h2 := (h.regs o h1).trans (hu.regs o h1 h2)

theorem ptmUnlocked_settles (s : State) : PtmSettles s (ptmUnlocked (ptmRunEnds s)) := by
  refine ⟨?_, ?_, ?_, fun o _ h => ptmUnlocked_reg (ptmRunEnds s) h⟩ <;> simp [ptmUnlocked, ptmRunEnds]

theorem State.ptmLose_settles (s : State) : PtmSettles s s.ptmLose ∧ s.ptmLose.tbs.ptmGood = 0 ∧
    s.ptmLose.flag F.TBS_PTM_STAT_LOCK = false := by
  cases h : s.flag F.TBS_PTM_STAT_LOCK with
  | false =>
    rw [State.ptmLose_unlocked h]
    exact ⟨⟨rfl, rfl, rfl, fun _ _ _ => rfl⟩, rfl, h⟩
  | true =>
    obtain ⟨d0, d1, e⟩ := s.ptmLose_locked h
    have ha := (State.trip_aftermath (ptmUnlocked (ptmRunEnds s)) 21 false none false).step
      (State.devEvent_reaction _ 0x0004 d0 d1 0 true)
    rw [e]
    refine ⟨ha.ptmSettles (ptmUnlocked_settles s), ?_, ?_⟩
    · rw [ha.tbs]
      simp [ptmUnlocked, ptmRunEnds]
    · rw [ha.flag (by decide +kernel), ptmUnlocked_lock]

/-! ### The offset acts on the GTC (R42, R43) -/

/-- A step is asked for by this offset. -/
def ptmSteps (s : State) (o : Int) : Prop :=
  o < 0 ∧ s.rd F.TBS_PTM_CTRL_STEP_THR ≠ 0 ∧ 1000 * s.rd F.TBS_PTM_CTRL_STEP_THR ≤ o.natAbs ∧ stepAllowed s

/-- RATE as R42 computes it from this offset. -/
def ptmRated (s : State) (o : Int) : Int :=
  ptmRate (s.rdS F.TBS_GTC_RATE_RATE) o s.tbs.ptmPrev (s.tbs.ptmFirst || s.tbs.slew) (s.rd F.TBS_PTM_CTRL_INTERVAL)

/-- From s to t the offset has acted. -/
structure Steered (s t : State) (o : Int) : Prop where
  rest : t = { s with regs := t.regs, reqs := t.reqs, tbs := { s.tbs with slew := t.tbs.slew, ptmFirst := t.tbs.ptmFirst } }
  regs : RegsBut [Reg.TBS_GTC_RATE] s t
  computed : o.natAbs < 1000 ∨ ptmSteps s o → t.rdS F.TBS_GTC_RATE_RATE = ptmRated s o ∧ t.tbs.slew = false
  asked : ptmSteps s o → t.has (.gtcStep o.natAbs)
  unasked : ¬ ptmSteps s o → t.reqs = s.reqs
  slewed : 1000 ≤ o.natAbs → ¬ ptmSteps s o →
    t.tbs.slew ∧ t.rdS F.TBS_GTC_RATE_RATE = if o < 0 then 32767 else -32768

theorem State.wrS_regsBut (s : State) (f : Fld) (v : Int) : RegsBut [f.off] s (s.wrS f v) := fun o h =>
  State.reg_wr_ne s _ (by simpa using h)

theorem rate_wrS (s : State) {v : Int} (hl : -32768 ≤ v) (hh : v ≤ 32767) :
    (s.wrS F.TBS_GTC_RATE_RATE v).rdS F.TBS_GTC_RATE_RATE = v := by
  refine State.rdS_wrS_self s (by decide) ?_ ?_
  · change -(2 ^ 16 : Int) ≤ 2 * v; omega
  · change 2 * v < (2 ^ 16 : Int); omega

theorem ptmTune_rate (s : State) (o : Int) : (ptmTune s o).rdS F.TBS_GTC_RATE_RATE = ptmRated s o := by
  have h := clampInt_mem (lo := -32768) (hi := 32767) (by decide)
  have hr : ∀ v, (s.wrS F.TBS_GTC_RATE_RATE (clampInt (-32768) 32767 v)).rdS F.TBS_GTC_RATE_RATE = clampInt (-32768) 32767 v :=
    fun v => rate_wrS s (h v).1 (h v).2
  exact hr _

theorem ptmSteer_steps (h : ptmSteps s o) : ptmSteer s o =
    (ptmTune { s with reqs := s.reqs.filter fun x => match x.1 with | .gtcStep _ => false | _ => true } o).post
      (.gtcStep o.natAbs) := by
  obtain ⟨h1, h2, h3, h4⟩ := h
  exact if_pos ⟨h1, by omega, h3, h4⟩

theorem ptmSteer_stays (h : ¬ ptmSteps s o) : ptmSteer s o = if 1000 ≤ o.natAbs then
    { s.wrS F.TBS_GTC_RATE_RATE (if o < 0 then 32767 else -32768) with tbs := { s.tbs with slew := true } }
    else ptmTune s o :=
  if_neg fun ⟨h1, h2, h3, h4⟩ => h ⟨h1, by omega, h3, h4⟩

theorem ptmSteer_steered (s : State) (o : Int) : Steered s (ptmSteer s o) o := by
  by_cases h : ptmSteps s o
  · rw [ptmSteer_steps h]
    refine ⟨rfl, s.wrS_regsBut F.TBS_GTC_RATE_RATE _, fun _ => ⟨ptmTune_rate _ o, rfl⟩, fun _ => ?_, fun hn => absurd h hn,
      fun _ hn => absurd h hn⟩
    simp [State.has, State.post]
  · rw [ptmSteer_stays h]
    split
    · next hb =>
      refine ⟨rfl, s.wrS_regsBut F.TBS_GTC_RATE_RATE _, fun hc => ?_, fun hs => absurd hs h, fun _ => rfl, fun _ _ =>
        ⟨rfl, ?_⟩⟩
      · obtain hc | hc := hc
        · omega
        · exact absurd hc h
      · have hr := rate_wrS s (v := if o < 0 then 32767 else -32768) (by split <;> decide) (by split <;> decide)
        exact hr
    · next hb =>
      exact ⟨rfl, s.wrS_regsBut F.TBS_GTC_RATE_RATE _, fun _ => ⟨ptmTune_rate s o, rfl⟩, fun hs => absurd hs h, fun _ => rfl,
        fun hc => absurd hc hb⟩

end Sys2Proof.Machine

namespace Sys2Proof.Machine

variable {s t u z : State} {o : Int}

/-! ### A dialogue starts (R42, R44, R45) -/

/-- A dialogue is open on the selected port. -/
def ptmOpened (s : State) : State :=
  let u := s.advTo (s.tbs.ptmAt + msClk (s.rd F.TBS_PTM_CTRL_INTERVAL))
  { u with tbs := { s.tbs with
    ptmAt := u.clk, ptmT1 := u.now, ptmBusy := true, ptmPort := s.rd F.TBS_PTM_CTRL_PORT
    ptmFirst := s.tbs.ptmFirst || decide (s.rd F.TBS_PTM_CTRL_PORT ≠ s.tbs.ptmPort) } }

/-- The request goes out where the port can carry one. -/
def ptmAsks (p : Nat) (z : State) : State := if ptmAnswers z then z.emit (.ptm (portOf p)) else z

theorem exec_ptmDialogueStart (h : ptmRuns s) (hb : ¬ s.tbs.ptmBusy) : exec .ptmDialogueStart s =
    .next (ptmAsks (s.rd F.TBS_PTM_CTRL_PORT)
      (if s.rd F.TBS_PTM_CTRL_PORT ≠ s.tbs.ptmPort then (ptmOpened s).ptmLose else ptmOpened s)) := by
  have hn : ¬ (!ptmRuns s || s.tbs.ptmBusy) = true := by simp [h, hb]
  change execPtmDialogueStart s = _
  rw [execPtmDialogueStart, if_neg hn]
  dsimp only
  rw [State.advTo_tbs, State.advTo_rd]
  rfl

theorem ptmAsks_request (p : Nat) (z : State) (h : ptmAnswers (ptmAsks p z)) :
    ∃ l, (ptmAsks p z).sent = l ++ [.ptm (portOf p)] := by
  unfold ptmAsks at h ⊢
  split
  · exact ⟨z.sent, rfl⟩
  · next hn => rw [if_neg hn] at h; exact absurd h hn

theorem ptmAsks_reaction (p : Nat) (z : State) : Reaction z (ptmAsks p z) := by
  unfold ptmAsks
  exact Reaction.ite (State.emit_reacts z _ (Reaction.refl z)) (Reaction.refl z)

theorem ptmOpened_lock (s : State) : (ptmOpened s).flag F.TBS_PTM_STAT_LOCK = s.flag F.TBS_PTM_STAT_LOCK :=
  State.advTo_flag s _ _

theorem ptmOpened_powered (s : State) : (ptmOpened s).powered 1 = s.powered 1 :=
  State.powered_congr (congrArg PmuS.vaon (State.advTo_pmu s _)) (State.advTo_reg s _ _) 1

/-! ### A dialogue is done (R42 to R44) -/

/-- The offset is shown, and has acted. -/
def ptmActed (s : State) (o : Int) : State :=
  ptmSteer (s.wrS F.TBS_PTM_OFFSET_OFFSET (clampInt (-2147483647) 2147483647 o)) o

/-- The dialogue is closed, with the run of good ones. -/
def ptmClosed (s : State) (o : Int) : State :=
  { ptmActed s o with tbs := { (ptmActed s o).tbs with
    ptmBusy := false, ptmPrev := o, ptmBad := 0, ptmGood := if o.natAbs ≤ 100 then (ptmActed s o).tbs.ptmGood + 1 else 0 } }

/-- LOCK, after it. -/
def ptmLocks (z : State) (o : Int) : State :=
  if 250 < o.natAbs then z.ptmLose
  else if 4 ≤ z.tbs.ptmGood && !z.flag F.TBS_PTM_STAT_LOCK then
    (z.wr F.TBS_PTM_STAT_LOCK 1).devEvent 0x0003 0 (ptmOfs z) 0 false
  else z

theorem exec_ptmDialogueDone (h : ptmRuns s) (hb : s.tbs.ptmBusy) (ha : ptmAnswers s) (r : PtmReply) :
    exec (.ptmDialogueDone r) s = .next (ptmLocks (ptmClosed s (ptmOffset s r.host r.wait)) (ptmOffset s r.host r.wait)) := by
  have hn : ¬ (!ptmRuns s || !s.tbs.ptmBusy || !ptmAnswers s) = true := by simp [h, hb, ha]
  change execPtmDialogueDone r s = _
  rw [execPtmDialogueDone, if_neg hn]
  rfl

theorem ptmSteps_shown (s : State) (v o : Int) : ptmSteps (s.wrS F.TBS_PTM_OFFSET_OFFSET v) o ↔ ptmSteps s o := by
  have ht : (s.wrS F.TBS_PTM_OFFSET_OFFSET v).rd F.TBS_PTM_CTRL_STEP_THR = s.rd F.TBS_PTM_CTRL_STEP_THR :=
    State.rd_wr_off s _ (by decide)
  rw [ptmSteps, ptmSteps, ht]
  rfl

theorem ptmRated_shown (s : State) (v o : Int) : ptmRated (s.wrS F.TBS_PTM_OFFSET_OFFSET v) o = ptmRated s o := by
  have hr : (s.wrS F.TBS_PTM_OFFSET_OFFSET v).rdS F.TBS_GTC_RATE_RATE = s.rdS F.TBS_GTC_RATE_RATE :=
    State.rdS_of_reg (State.reg_wr_ne s _ (by decide))
  have hi : (s.wrS F.TBS_PTM_OFFSET_OFFSET v).rd F.TBS_PTM_CTRL_INTERVAL = s.rd F.TBS_PTM_CTRL_INTERVAL :=
    State.rd_wr_off s _ (by decide)
  rw [ptmRated, ptmRated, hr, hi]
  rfl

theorem ptmActed_steered (s : State) (o : Int) :
    Steered (s.wrS F.TBS_PTM_OFFSET_OFFSET (clampInt (-2147483647) 2147483647 o)) (ptmActed s o) o :=
  ptmSteer_steered _ o

theorem ptmClosed_regs (s : State) (o : Int) : RegsBut [Reg.TBS_PTM_OFFSET, Reg.TBS_GTC_RATE] s (ptmClosed s o) := by
  intro x hx
  simp only [List.mem_cons, List.not_mem_nil, or_false, not_or] at hx
  exact ((ptmActed_steered s o).regs x (by simpa using hx.2)).trans (State.reg_wr_ne s _ hx.1)

theorem ptmClosed_good (s : State) (o : Int) :
    (ptmClosed s o).tbs.ptmGood = if o.natAbs ≤ 100 then s.tbs.ptmGood + 1 else 0 := by
  have h : (ptmActed s o).tbs.ptmGood = s.tbs.ptmGood := by rw [(ptmActed_steered s o).rest]; rfl
  rw [← h]
  rfl

theorem ptmClosed_lock (s : State) (o : Int) : (ptmClosed s o).flag F.TBS_PTM_STAT_LOCK = s.flag F.TBS_PTM_STAT_LOCK :=
  State.flag_of_reg (ptmClosed_regs s o _ (by decide))

theorem ptmClosed_offset (s : State) (o : Int) :
    (ptmClosed s o).rdS F.TBS_PTM_OFFSET_OFFSET = clampInt (-2147483647) 2147483647 o := by
  have hc := clampInt_mem (lo := -2147483647) (hi := 2147483647) (by decide) o
  have hr := s.rdS_wrS_self (f := F.TBS_PTM_OFFSET_OFFSET) (v := clampInt (-2147483647) 2147483647 o) (by decide)
    (by change -(2 ^ 32 : Int) ≤ _; omega) (by change _ < (2 ^ 32 : Int); omega)
  rw [← hr]
  exact State.rdS_of_reg ((ptmActed_steered s o).regs _ (by decide))

/-- What of the offset's action stands when the dialogue has been closed. -/
structure ClosedOn (s t : State) (o : Int) : Prop where
  closed : t.tbs.ptmBusy = false ∧ t.tbs.ptmPrev = o ∧ t.tbs.ptmBad = 0 ∧ t.clk = s.clk
  offset : t.rdS F.TBS_PTM_OFFSET_OFFSET = clampInt (-2147483647) 2147483647 o
  computed : o.natAbs < 1000 ∨ ptmSteps s o → t.rdS F.TBS_GTC_RATE_RATE = ptmRated s o ∧ t.tbs.slew = false
  asked : ptmSteps s o → t.has (.gtcStep o.natAbs)
  slewed : 1000 ≤ o.natAbs → ¬ ptmSteps s o → t.reqs = s.reqs ∧ t.tbs.slew ∧
    t.rdS F.TBS_GTC_RATE_RATE = if o < 0 then 32767 else -32768

theorem ptmClosed_closedOn (s : State) (o : Int) : ClosedOn s (ptmClosed s o) o := by
  have h := ptmActed_steered s o
  refine ⟨⟨rfl, rfl, rfl, ?_⟩, ptmClosed_offset s o, fun hc => ?_, fun hs => ?_, fun h1 h2 => ?_⟩
  · change (ptmActed s o).clk = s.clk
    rw [h.rest]
    rfl
  · rw [← ptmRated_shown s]
    exact h.computed (hc.imp_right (ptmSteps_shown s _ o).2)
  · exact h.asked ((ptmSteps_shown s _ o).2 hs)
  · have hn := mt (ptmSteps_shown s (clampInt (-2147483647) 2147483647 o) o).1 h2
    exact ⟨h.unasked hn, h.slewed h1 hn⟩

/-- LOCK's changes leave it all. -/
theorem PtmSettles.closedOn (h : PtmSettles u t) (hc : ClosedOn s u o) : ClosedOn s t o := by
  obtain ⟨⟨h1, h2, h3, h4⟩, h5, h6, h7, h8⟩ := hc
  have rate : t.rdS F.TBS_GTC_RATE_RATE = u.rdS F.TBS_GTC_RATE_RATE :=
    State.rdS_of_reg (h.regs _ (by decide +kernel) (by decide))
  have slew : t.tbs.slew = u.tbs.slew := by rw [h.tbs]
  refine ⟨⟨?_, ?_, ?_, h.clk.trans h4⟩, ?_, ?_, fun hs => ?_, ?_⟩
  · rw [h.tbs]; exact h1
  · rw [h.tbs]; exact h2
  · rw [h.tbs]; exact h3
  · rw [← h5]
    exact State.rdS_of_reg (h.regs _ (by decide +kernel) (by decide))
  · rw [rate, slew]; exact h6
  · rw [State.has, h.reqs]; exact h7 hs
  · rw [rate, slew, h.reqs]; exact h8

/-- LOCK sets, with its event. -/
def ptmGains (z : State) : State := (z.wr F.TBS_PTM_STAT_LOCK 1).devEvent 0x0003 0 (ptmOfs z) 0 false

theorem ptmGains_reaction (z : State) : Reaction (z.wr F.TBS_PTM_STAT_LOCK 1) (ptmGains z) :=
  State.devEvent_reaction _ _ _ _ _ _

theorem ptmGains_lock (z : State) : (ptmGains z).flag F.TBS_PTM_STAT_LOCK = true := by
  rw [State.flag_of_reg ((ptmGains_reaction z).regs _ (by decide +kernel)), State.flag_wr_self z (by decide)]
  rfl

theorem ptmLocks_far (z : State) (h : 250 < o.natAbs) : ptmLocks z o = z.ptmLose := if_pos h

theorem ptmLocks_near (z : State) (h : ¬ 250 < o.natAbs) : ptmLocks z o =
    if 4 ≤ z.tbs.ptmGood ∧ z.flag F.TBS_PTM_STAT_LOCK = false then ptmGains z else z := by
  rw [ptmLocks, if_neg h]
  simp only [Bool.and_eq_true, decide_eq_true_eq, Bool.not_eq_true']
  rfl

theorem ptmLocks_settles (z : State) (o : Int) : PtmSettles z (ptmLocks z o) := by
  by_cases h : 250 < o.natAbs
  · rw [ptmLocks_far z h]
    exact z.ptmLose_settles.1
  · rw [ptmLocks_near z h]
    split
    · exact ((Aftermath.refl _).step (ptmGains_reaction z)).ptmSettles
        ⟨rfl, rfl, rfl, fun o _ h => State.reg_wr_ne z 1 h⟩
    · exact ⟨rfl, rfl, rfl, fun _ _ _ => rfl⟩

/-- Within 100 ns no step is asked for: the run of good dialogues grows, and nothing else has changed but registers. -/
theorem ptmClosed_near (h : o.natAbs ≤ 100) : ptmClosed s o = { s with
    regs := (ptmClosed s o).regs, tbs := (ptmClosed s o).tbs } := by
  have hn : ¬ ptmSteps s o := fun ⟨_, h1, h2, _⟩ => by omega
  have ha := ptmActed_steered s o
  have e := ha.rest
  rw [ha.unasked (mt (ptmSteps_shown s _ o).1 hn)] at e
  unfold ptmClosed
  rw [e]
  rfl

/-- A dialogue within 100 ns counts, and from the fourth in a row sets LOCK. -/
theorem ptmLocks_good (h : o.natAbs ≤ 100) :
    (ptmLocks (ptmClosed s o) o).tbs.ptmGood = s.tbs.ptmGood + 1 ∧
    (ptmLocks (ptmClosed s o) o).flag F.TBS_PTM_STAT_LOCK =
      (s.flag F.TBS_PTM_STAT_LOCK || decide (3 ≤ s.tbs.ptmGood)) ∧
    ∃ u, u = { s with regs := u.regs, tbs := u.tbs } ∧
      RegsBut [Reg.TBS_PTM_OFFSET, Reg.TBS_GTC_RATE, Reg.TBS_PTM_STAT] s u ∧
      (if 3 ≤ s.tbs.ptmGood ∧ ¬ s.flag F.TBS_PTM_STAT_LOCK then Reaction u (ptmLocks (ptmClosed s o) o)
        else ptmLocks (ptmClosed s o) o = u) := by
  have hg := ptmClosed_good s o
  rw [if_pos h] at hg
  have hr := ptmClosed_regs s o
  have hc := ptmClosed_near (s := s) h
  have hl := ptmClosed_lock s o
  rw [ptmLocks_near _ (by omega), hg, hl]
  generalize ptmClosed s o = z at *
  by_cases hk : 3 ≤ s.tbs.ptmGood ∧ s.flag F.TBS_PTM_STAT_LOCK = false
  · have ha := ptmGains_reaction z
    rw [if_pos ⟨by omega, hk.2⟩, ptmGains_lock]
    refine ⟨?_, by simp [hk.1], z.wr F.TBS_PTM_STAT_LOCK 1, ?_, fun x hx => ?_, ?_⟩
    · rw [show (ptmGains z).tbs = z.tbs from (congrArg State.tbs ha.rest :), hg]
    · rw [hc]
      rfl
    · simp only [List.mem_cons, List.not_mem_nil, or_false, not_or] at hx
      exact (State.reg_wr_ne z 1 hx.2.2).trans (hr x (by simp [hx.1, hx.2.1]))
    · rw [if_pos (by simpa using hk)]
      exact ha
  · rw [if_neg fun x => hk ⟨by omega, x.2⟩, hg, hl]
    refine ⟨rfl, ?_, z, hc, fun x hx => hr x ?_, ?_⟩
    · cases hf : s.flag F.TBS_PTM_STAT_LOCK with
      | true => rfl
      | false => simpa [hf] using hk
    · simp only [List.mem_cons, List.not_mem_nil, or_false, not_or] at hx ⊢
      exact ⟨hx.1, hx.2.1⟩
    · rw [if_neg (by simpa using hk)]

/-! ### A dialogue fails (R44, R45) -/

/-- It counts in MISSED and ends the run of good ones. -/
def ptmMissed (s : State) : State :=
  { s.cnt F.TBS_PTM_STAT_MISSED with tbs := { s.tbs with
    ptmBusy := false, ptmFirst := true, ptmBad := s.tbs.ptmBad + 1, ptmGood := 0 } }

theorem exec_ptmDialogueFailed (h : ptmRuns s) (hb : s.tbs.ptmBusy) :
    exec .ptmDialogueFailed s = .next (if 3 ≤ s.tbs.ptmBad + 1 then (ptmMissed s).ptmLose else ptmMissed s) := by
  have hn : ¬ (!ptmRuns s || !s.tbs.ptmBusy) = true := by simp [h, hb]
  change execPtmDialogueFailed s = _
  rw [execPtmDialogueFailed, if_neg hn]
  rfl

theorem ptmMissed_lock (s : State) : (ptmMissed s).flag F.TBS_PTM_STAT_LOCK = s.flag F.TBS_PTM_STAT_LOCK := by
  have h : (s.cnt F.TBS_PTM_STAT_MISSED).rd F.TBS_PTM_STAT_LOCK = s.rd F.TBS_PTM_STAT_LOCK :=
    State.rd_cnt_ne s 1 (.inr (by decide))
  exact congrArg (fun n : Nat => decide (n % 2 = 1)) h

theorem ptmMissed_powered (s : State) : (ptmMissed s).powered 1 = s.powered 1 := by
  have hr : (ptmMissed s).reg Reg.PMU_DOM_STAT = s.reg Reg.PMU_DOM_STAT :=
    State.reg_wr_ne (f := F.TBS_PTM_STAT_MISSED) (s.noteCnt F.TBS_PTM_STAT_MISSED 1) _ (by decide)
  exact State.powered_congr (s := s) (t := ptmMissed s) rfl hr 1

/-- Settles O6: the start, the answer and the failure of a dialogue, each with what LOCK's change brings. -/
theorem ptmDialogues : Obligations.PtmDialogues := by
  unfold Obligations.PtmDialogues
  intro s hr unlock
  refine ⟨fun hb => ?_, fun hb ha host wait => ?_, fun hb => ?_⟩
  · intro p u v asks
    refine ⟨_, exec_ptmDialogueStart hr hb, ptmAsks_request _ _, fun hp => ?_, fun hp hl => ?_, fun hp hl h1 => ?_⟩
    · rw [if_neg (by simpa using hp)]
      rfl
    · rw [if_pos hp, State.ptmLose_unlocked (by rw [ptmOpened_lock]; simpa using hl)]
      rfl
    · rw [if_pos hp]
      have ht := State.ptmLose_tripped ((ptmOpened_lock s).trans hl) ((ptmOpened_powered s).trans h1)
      exact ht.step (ptmAsks_reaction _ _)
  · intro o thr steps rate
    have hs := ptmLocks_settles (ptmClosed s o) o
    obtain ⟨h1, h2, h3, h4, h5⟩ := hs.closedOn (ptmClosed_closedOn s o)
    obtain ⟨hbusy, hprev, hbad, hclk⟩ := h1
    refine ⟨_, exec_ptmDialogueDone hr hb ha _, hbusy, hprev, hbad, hclk, h2, h3, h4, h5, ptmLocks_good, fun hf => ?_⟩
    have hl := (ptmClosed s o).ptmLose_settles
    exact (ptmLocks_far (ptmClosed s o) hf) ▸ hl.2
  · intro u
    refine ⟨_, exec_ptmDialogueFailed hr hb, fun h => ?_, fun h2 hl h1 => ?_⟩
    · by_cases h2 : s.tbs.ptmBad < 2
      · exact if_neg (by omega)
      · rw [State.ptmLose_unlocked (by rw [ptmMissed_lock]; simpa using h.resolve_left h2)]
        exact ite_self _
    · rw [if_pos (by omega)]
      exact State.ptmLose_tripped ((ptmMissed_lock s).trans hl) ((ptmMissed_powered s).trans h1)

end Sys2Proof.Machine

namespace Sys2Proof.Machine

variable {s t u z : State} {at_ n ns : Nat} {e : Int} {m : Bool}

/-! ### A GTC step at its frame tick (R40, R43) -/

/-- The GTC reads g, ns later than it did, and so does the tick's. -/
def gtcMoved (s : State) (g ns : Nat) : State :=
  { s with gtc := g, tickGtc := g, tbs := { s.tbs with ptmFirst := true, ptmT1 := s.tbs.ptmT1 + ns } }

/-- The tick's GTC is shown as the GTC now reads. -/
def gtcShown (z : State) : State := z.wr64 Reg.TBS_TICK_GTC_LO z.now

theorem gtcShown_shows (z : State) : gtcShown z = { z with regs := (gtcShown z).regs } ∧
    (gtcShown z).rd64 Reg.TBS_TICK_GTC_LO = (gtcShown z).now ∧
    RegsBut [Reg.TBS_TICK_GTC_LO, Reg.TBS_TICK_GTC_LO + 4] z (gtcShown z) := by
  refine ⟨rfl, State.rd64_wr64 _ _ _ z.now_lt, fun o ho => ?_⟩
  simp only [List.mem_cons, List.not_mem_nil, or_false, not_or] at ho
  exact (State.reg_setReg_ne _ _ ho.2).trans (State.reg_setReg_ne _ _ ho.1)

/-- The step does not take place, and RATE is held at v. -/
def rateHeld (s : State) (v : Int) : State := { s.wrS F.TBS_GTC_RATE_RATE v with tbs := { s.tbs with slew := true } }

theorem exec_gtcStep (ht : s.atTick) (hn : n < s.tickClk) (h : s.reqs.head? = some (.gtcStep ns, n)) :
    exec .gtcStep s = .next (if stepAllowed s then gtcShown (gtcMoved (s.drop (.gtcStep ns)) (s.gtc + ns * 2 ^ 24) ns)
      else rateHeld (s.drop (.gtcStep ns)) 32767) := by
  obtain ⟨l, hl⟩ : ∃ l, s.reqs = (.gtcStep ns, n) :: l := by
    cases hr : s.reqs with
    | nil => simp [hr] at h
    | cons x l => simp only [hr, List.head?_cons, Option.some.injEq] at h; exact ⟨l, by rw [h]⟩
  change execGtcStep s = _
  rw [execGtcStep, hl, List.find?_cons_of_pos (by simpa using hn)]
  dsimp only
  rw [if_neg (by simp [ht])]
  rfl

theorem State.drop_unripe (s : State) (r : Req) : (s.drop r).ripe r = false := by
  simp only [State.ripe, State.drop, List.any_filter, List.any_eq_false]
  intro x _
  simp only [Bool.and_eq_true, Bool.or_eq_true, decide_eq_true_eq]
  rintro ⟨hx, he, hl⟩
  have hl : x.2 < s.tickClk := of_decide_eq_true hl
  obtain hx | hx := hx
  · exact hx he
  · omega

/-- What a step at its tick brings about, the GTC being g after it. -/
theorem gtcMoved_steps (u : State) (g ns : Nat) :
    let t := gtcShown (gtcMoved u g ns)
    t.gtc = g ∧ t.tickGtc = t.gtc ∧ t.rd64 Reg.TBS_TICK_GTC_LO = t.now ∧
      RegsBut [Reg.TBS_TICK_GTC_LO, Reg.TBS_TICK_GTC_LO + 4] u t ∧
      t = { u with
        regs := t.regs, gtc := t.gtc, tickGtc := t.tickGtc
        tbs := { u.tbs with ptmFirst := true, ptmT1 := u.tbs.ptmT1 + ns } } := by
  obtain ⟨h, h1, h2⟩ := gtcShown_shows (gtcMoved u g ns)
  intro t
  have hg : t.gtc = g := (congrArg State.gtc h :)
  have hk : t.tickGtc = g := (congrArg State.tickGtc h :)
  exact ⟨hg, hk.trans hg.symm, h1, h2, by rw [hg, hk]; exact h⟩

theorem rateHeld_holds (u : State) {v : Int} (hl : -32768 ≤ v) (hh : v ≤ 32767) :
    (rateHeld u v).rdS F.TBS_GTC_RATE_RATE = v ∧ RegsBut [Reg.TBS_GTC_RATE] u (rateHeld u v) ∧
      rateHeld u v = { u with regs := (rateHeld u v).regs, tbs := { u.tbs with slew := true } } :=
  ⟨rate_wrS u hl hh, u.wrS_regsBut F.TBS_GTC_RATE_RATE v, rfl⟩

/-! ### A SYNC edge (R47, R48) -/

/-- The edge is noted. -/
def syncNoted (s : State) (at_ : Nat) : State := { s with tbs := { s.tbs with syncEdge := some at_ } }

/-- The edge's distance from the one before shows another period. -/
def syncApart (s : State) (at_ : Nat) : Prop :=
  ∃ x, s.tbs.syncEdge = some x ∧ (s.tfNs + 1000 < at_ - x ∨ at_ - x + 1000 < s.tfNs)

/-- MISMATCH sets, and the run of good frames ends. -/
def syncMismatched (s : State) : State := { s.sqc F.TBS_SYNC_STAT_MISMATCH with tbs := { s.tbs with syncGood := 0 } }

theorem syncMismatched_flag (s : State) {g : Fld} (hg : g.ok = true) (hi : g.hi < 24) (ho : g.off = Reg.TBS_SYNC_STAT)
    (h : 2 < g.lo ∨ g.hi < 2) : (syncMismatched s).flag g = s.flag g :=
  State.flag_sqc_apart s (f := F.TBS_SYNC_STAT_MISMATCH) hg hi ho h

theorem syncMismatched_reg (s : State) {o : Nat} (h : o ≠ Reg.TBS_SYNC_STAT) : (syncMismatched s).reg o = s.reg o :=
  State.reg_sqc_ne s h

theorem syncUsable_mismatched (s : State) (at_ : Nat) (e : Int) :
    syncUsable (syncMismatched (syncNoted s at_)) at_ e = syncUsable s at_ e := by
  have hl : (syncMismatched (syncNoted s at_)).flag F.TBS_SYNC_STAT_LOCK = s.flag F.TBS_SYNC_STAT_LOCK :=
    syncMismatched_flag _ (by decide) (by decide) rfl (by decide)
  have ht : (syncMismatched (syncNoted s at_)).tfNs = s.tfNs :=
    congrArg (4 * ·) (State.rd_of_reg (syncMismatched_reg _ (by decide)))
  rw [syncUsable, syncUsable, hl, ht]
  rfl

theorem exec_syncInEdge_apart (hf : isFollower s) (ht : s.ticking) (hp : s.powered 5) (late : Fin 4)
    (h : syncApart s (4 * s.clk + late.val)) : exec (.syncInEdge late) s =
      .next (if syncUsable s (4 * s.clk + late.val) (syncTickOf s late.val).2 then
          (syncMismatched (syncNoted s (4 * s.clk + late.val))).syncUse (4 * s.clk + late.val) (syncTickOf s late.val).1
            (syncTickOf s late.val).2 true
        else syncMismatched (syncNoted s (4 * s.clk + late.val))) := by
  obtain ⟨x, hx, hc⟩ := h
  change execSyncInEdge late s = _
  rw [execSyncInEdge, if_neg (by simp [hf, ht, hp]), hx]
  dsimp only
  rw [decide_eq_true hc, if_pos rfl, ← syncUsable_mismatched s (4 * s.clk + late.val) (syncTickOf s late.val).2]
  rfl

theorem exec_syncInEdge_together (hf : isFollower s) (ht : s.ticking) (hp : s.powered 5) (late : Fin 4)
    (h : ¬ syncApart s (4 * s.clk + late.val)) : exec (.syncInEdge late) s =
      .next (if syncUsable s (4 * s.clk + late.val) (syncTickOf s late.val).2 then
          (syncNoted s (4 * s.clk + late.val)).syncUse (4 * s.clk + late.val) (syncTickOf s late.val).1
            (syncTickOf s late.val).2 false
        else syncNoted s (4 * s.clk + late.val)) := by
  change execSyncInEdge late s = _
  rw [execSyncInEdge, if_neg (by simp [hf, ht, hp])]
  cases hx : s.tbs.syncEdge with
  | none => rfl
  | some x =>
    have hc : ¬ (s.tfNs + 1000 < 4 * s.clk + late.val - x ∨ 4 * s.clk + late.val - x + 1000 < s.tfNs) := fun hc =>
      h ⟨x, hx, hc⟩
    dsimp only
    rw [decide_eq_false hc]
    rfl

/-! ### A usable edge (R47, R48) -/

/-- The phase error in clocks. -/
def phaseOf (e : Int) : Int := roundRat ((e : Rat) / 4)

/-- What the edge of tick n leaves of the phase error, past what this frame's own change of length removes. -/
def syncLeft (s : State) (n : Nat) (e : Int) : Int :=
  -phaseOf e - (if n = s.rd F.TBS_FRAME_CNT_FRAME then s.tbs.trim else 0)

/-- The run of good frames, with the edge of tick n. -/
def syncRun (s : State) (n : Nat) (e : Int) (m : Bool) : Nat :=
  if m ∨ 12 < e.natAbs then 0 else if n = s.tbs.syncGoodNo then s.tbs.syncGood
  else if n = (s.tbs.syncGoodNo + 1) % 2 ^ 32 then s.tbs.syncGood + 1 else 1

/-- The edge has been used: its phase shows, and the error left is taken in this frame or in those to come. -/
def syncTaken (s : State) (at_ n : Nat) (e : Int) (m : Bool) : State :=
  { s.wrS F.TBS_SYNC_STAT_PHASE (clampInt (-127) 127 (phaseOf e)) with tbs := { s.tbs with
    syncUsed := some at_, edgeSeen := true, syncMiss := 0, syncGood := syncRun s n e m, syncGoodNo := n
    syncErr := if n = s.rd F.TBS_FRAME_CNT_FRAME ∧ ¬ s.anyEnergised then 0 else syncLeft s n e
    trim := s.tbs.trim + if n = s.rd F.TBS_FRAME_CNT_FRAME ∧ ¬ s.anyEnergised then syncLeft s n e else 0 } }

/-- LOCK sets, with its event. -/
def syncGains (z : State) : State :=
  (z.wr F.TBS_SYNC_STAT_LOCK 1).devEvent 0x0005 (z.rd F.TBS_SYNC_STAT_PHASE) 0 0 false

theorem State.syncUse_eq (s : State) (at_ n : Nat) (e : Int) (m : Bool) : s.syncUse at_ n e m =
    if 16 ≤ syncRun s n e m ∧ (syncTaken s at_ n e m).flag F.TBS_SYNC_STAT_LOCK = false then
      syncGains (syncTaken s at_ n e m) else syncTaken s at_ n e m := by
  have hn : (s.wrS F.TBS_SYNC_STAT_PHASE (clampInt (-127) 127 (phaseOf e))).rd F.TBS_FRAME_CNT_FRAME =
    s.rd F.TBS_FRAME_CNT_FRAME := State.rd_wr_off s _ (by decide)
  have ht : s.syncUse at_ n e m = if (16 ≤ syncRun s n e m && !(syncTaken s at_ n e m).flag F.TBS_SYNC_STAT_LOCK) = true then
      syncGains (syncTaken s at_ n e m) else syncTaken s at_ n e m := by
    unfold State.syncUse
    extract_lets u good own left now _ v
    have hv : v = syncTaken s at_ n e m := by
      have ho : (own = true) = (n = s.rd F.TBS_FRAME_CNT_FRAME) := by rw [← hn]; exact propext beq_iff_eq
      have hw : (now = true) = (n = s.rd F.TBS_FRAME_CNT_FRAME ∧ ¬ s.anyEnergised = true) := by
        rw [← ho]
        simp only [now, Bool.and_eq_true, Bool.not_eq_true', Bool.not_eq_true]
        rfl
      simp only [v, left, hw, ho]
      rfl
    rw [← hv]
    rfl
  rw [ht]
  simp only [Bool.and_eq_true, decide_eq_true_eq, Bool.not_eq_true']

theorem syncTaken_flag (s : State) (at_ n : Nat) (e : Int) (m : Bool) {g : Fld} (hg : g.ok = true)
    (h : F.TBS_SYNC_STAT_PHASE.apart g = true) : (syncTaken s at_ n e m).flag g = s.flag g := by
  have hr : (syncTaken s at_ n e m).rd g = s.rd g := State.rd_wr_ne s _ (.inr ⟨by decide, hg, h⟩)
  rw [State.flag, hr]
  rfl

theorem syncTaken_phase (s : State) (at_ n : Nat) (e : Int) (m : Bool) :
    (syncTaken s at_ n e m).rdS F.TBS_SYNC_STAT_PHASE = clampInt (-127) 127 (phaseOf e) := by
  have hc := clampInt_mem (lo := -127) (hi := 127) (by decide) (phaseOf e)
  exact s.rdS_wrS_self (f := F.TBS_SYNC_STAT_PHASE) (by decide) (by change -(2 ^ 8 : Int) ≤ _; omega)
    (by change _ < (2 ^ 8 : Int); omega)

theorem syncGains_reaction (z : State) : Reaction (z.wr F.TBS_SYNC_STAT_LOCK 1) (syncGains z) :=
  State.devEvent_reaction _ _ _ _ _ _

theorem syncGains_lock (z : State) : (syncGains z).flag F.TBS_SYNC_STAT_LOCK = true := by
  rw [State.flag_of_reg ((syncGains_reaction z).regs _ (by decide +kernel)), State.flag_wr_self z (by decide)]
  rfl

theorem syncGains_phase (z : State) : (syncGains z).rdS F.TBS_SYNC_STAT_PHASE = z.rdS F.TBS_SYNC_STAT_PHASE := by
  rw [State.rdS_of_reg ((syncGains_reaction z).regs _ (by decide +kernel)), State.rdS, State.rd_wr_ne z _ (.inr (by decide))]
  rfl

theorem State.syncUse_phase (s : State) (at_ n : Nat) (e : Int) (m : Bool) :
    (s.syncUse at_ n e m).rdS F.TBS_SYNC_STAT_PHASE = clampInt (-127) 127 (phaseOf e) := by
  rw [State.syncUse_eq]
  split
  · rw [syncGains_phase, syncTaken_phase]
  · rw [syncTaken_phase]

theorem syncRun_mismatched (s : State) (n : Nat) (e : Int) : syncRun s n e true = 0 := if_pos (.inl rfl)

/-- An edge that shows another period ends the run, so it never sets LOCK. -/
theorem State.syncUse_mismatched (s : State) (at_ n : Nat) (e : Int) : s.syncUse at_ n e true = syncTaken s at_ n e true := by
  have h := syncRun_mismatched s n e
  rw [State.syncUse_eq, if_neg fun x => by omega]

theorem syncMismatched_shows (z : State) : (syncMismatched z).flag F.TBS_SYNC_STAT_MISMATCH ∧
    (syncMismatched z).tbs.syncGood = 0 ∧ (syncMismatched z).flag F.TBS_SYNC_STAT_LOCK = z.flag F.TBS_SYNC_STAT_LOCK :=
  ⟨State.flag_sqc z (f := F.TBS_SYNC_STAT_MISMATCH) (by decide) (by decide), rfl,
    syncMismatched_flag z (by decide) (by decide) rfl (by decide)⟩

/-- Used or not, such an edge leaves MISMATCH set, no run, and LOCK as it was. -/
theorem syncApart_ends (s : State) (at_ n : Nat) (e : Int) :
    let z := syncMismatched (syncNoted s at_)
    let t := if syncUsable s at_ e then z.syncUse at_ n e true else z
    t.flag F.TBS_SYNC_STAT_MISMATCH ∧ t.tbs.syncGood = 0 ∧ t.flag F.TBS_SYNC_STAT_LOCK = s.flag F.TBS_SYNC_STAT_LOCK := by
  intro z t
  obtain ⟨h1, h2, h3⟩ := syncMismatched_shows (syncNoted s at_)
  by_cases hu : syncUsable s at_ e = true
  · have ht : t = syncTaken z at_ n e true := (if_pos hu).trans (z.syncUse_mismatched at_ n e)
    rw [ht, syncTaken_flag _ _ _ _ _ (by decide) (by decide), syncTaken_flag _ _ _ _ _ (by decide) (by decide)]
    exact ⟨h1, syncRun_mismatched z n e, h3⟩
  · have ht : t = z := if_neg hu
    rw [ht]
    exact ⟨h1, h2, h3⟩

/-- An edge within the period takes LOCK by its sixteenth good frame in a row. -/
theorem syncUse_noted (s : State) (at_ n : Nat) (e : Int) :
    ((syncNoted s at_).syncUse at_ n e false).flag F.TBS_SYNC_STAT_LOCK =
      (s.flag F.TBS_SYNC_STAT_LOCK || decide (16 ≤ syncRun s n e false)) ∧
    ∃ u, RegsBut [Reg.TBS_SYNC_STAT] s u ∧
      u = { s with regs := u.regs, tbs := (syncTaken (syncNoted s at_) at_ n e false).tbs } ∧
      (if 16 ≤ syncRun s n e false ∧ ¬ s.flag F.TBS_SYNC_STAT_LOCK then Reaction u ((syncNoted s at_).syncUse at_ n e false)
        else (syncNoted s at_).syncUse at_ n e false = u) := by
  have hl : (syncTaken (syncNoted s at_) at_ n e false).flag F.TBS_SYNC_STAT_LOCK = s.flag F.TBS_SYNC_STAT_LOCK :=
    syncTaken_flag _ at_ n e false (by decide) (by decide)
  have hreg : RegsBut [Reg.TBS_SYNC_STAT] s (syncTaken (syncNoted s at_) at_ n e false) := fun o ho =>
    State.reg_wr_ne s _ (List.ne_of_not_mem_cons ho)
  have hz : syncTaken (syncNoted s at_) at_ n e false = { s with
      regs := (syncTaken (syncNoted s at_) at_ n e false).regs
      tbs := (syncTaken (syncNoted s at_) at_ n e false).tbs } := rfl
  rw [State.syncUse_eq, hl, show syncRun (syncNoted s at_) n e false = syncRun s n e false from rfl]
  generalize syncTaken (syncNoted s at_) at_ n e false = z at *
  by_cases hk : 16 ≤ syncRun s n e false ∧ s.flag F.TBS_SYNC_STAT_LOCK = false
  · rw [if_pos hk, syncGains_lock]
    refine ⟨by simp [hk.1], z.wr F.TBS_SYNC_STAT_LOCK 1, fun o ho => ?_, ?_, ?_⟩
    · exact (State.reg_wr_ne z 1 (List.ne_of_not_mem_cons ho)).trans (hreg o ho)
    · rw [hz]
      rfl
    · rw [if_pos (by simpa using hk)]
      exact syncGains_reaction z
  · rw [if_neg hk, hl]
    refine ⟨?_, z, hreg, hz, ?_⟩
    · cases hf : s.flag F.TBS_SYNC_STAT_LOCK with
      | true => rfl
      | false => simpa [hf] using hk
    · rw [if_neg (by simpa using hk)]

/-! ### SYNC is lost (R48) -/

theorem State.sqc_withTbs (s : State) (x : TbsS) (f : Fld) : ({ s with tbs := x } : State).sqc f = { s.sqc f with tbs := x } := by
  unfold State.sqc State.sqcMask
  dsimp only
  split <;> rfl

/-- LOCK has cleared and LOST is set. -/
def syncUnlocked (s : State) : State :=
  { (s.wr F.TBS_SYNC_STAT_LOCK 0).sqc F.TBS_SYNC_STAT_LOST with tbs := { s.tbs with syncGood := 0 } }

theorem State.syncLose_locked (h : s.flag F.TBS_SYNC_STAT_LOCK = true) :
    ∃ d0, s.syncLose = ((syncUnlocked s).trip 20).devEvent 0x0006 d0 0 0 true := by
  rw [State.syncLose]
  extract_lets _ u
  have hu : u = (syncUnlocked s).trip 20 := by
    unfold u syncUnlocked
    rw [← State.sqc_withTbs]
    rfl
  split
  · exact ⟨_, by rw [hu]⟩
  · next hn => exact absurd h hn

theorem State.syncLose_tripped (h : s.flag F.TBS_SYNC_STAT_LOCK = true) (hp : s.powered 1) :
    Tripped 20 false (syncUnlocked s) s.syncLose := by
  obtain ⟨d0, e⟩ := s.syncLose_locked h
  have hr : (syncUnlocked s).reg Reg.PMU_DOM_STAT = s.reg Reg.PMU_DOM_STAT :=
    (State.reg_sqc_ne _ (by decide)).trans (State.reg_wr_ne s 0 (by decide))
  have hu : (syncUnlocked s).powered 1 :=
    (State.powered_congr (s := s) (t := syncUnlocked s) (by simp [syncUnlocked]) hr 1).trans hp
  rw [e]
  exact (State.trip_tripped _ 20 false none false (by decide) hu).step (State.devEvent_reaction _ _ _ _ _ _)

/-- Settles O7: a step at its tick, an edge with and without a period's mismatch, and the loss of SYNC. -/
theorem gtcStepsAndSyncEdges : Obligations.GtcStepsAndSyncEdges := by
  unfold Obligations.GtcStepsAndSyncEdges
  intro s
  refine ⟨fun ns n ht hn hr => ?_, fun late hf ht hp => ?_, fun hf hl hm hp => ?_⟩
  · intro u
    refine ⟨_, exec_gtcStep ht hn hr, ?_, fun ha => ?_, fun ha => ?_⟩
    · have hd : ∀ v : State, v.reqs = (s.drop (.gtcStep ns)).reqs → v.tickClk = s.tickClk → ¬ v.ripe (.gtcStep ns) = true := by
        intro v h1 h2
        rw [State.ripe, h1, h2]
        exact Bool.eq_false_iff.1 (s.drop_unripe _)
      split
      · have h := (gtcMoved_steps (s.drop (.gtcStep ns)) (s.gtc + ns * 2 ^ 24) ns).2.2.2.2
        exact hd _ (congrArg State.reqs h :) (congrArg State.tickClk h :)
      · have h := (rateHeld_holds (s.drop (.gtcStep ns)) (v := 32767) (by decide) (by decide)).2.2
        exact hd _ (congrArg State.reqs h :) (congrArg State.tickClk h :)
    · rw [if_pos ha]
      exact gtcMoved_steps (s.drop (.gtcStep ns)) _ ns
    · rw [if_neg ha]
      exact rateHeld_holds (s.drop (.gtcStep ns)) (by decide) (by decide)
  · intro a n e apart shift own left good
    by_cases ha : syncApart s a
    · refine ⟨_, exec_syncInEdge_apart hf ht hp late ha, fun _ hn => absurd ha hn, fun _ => ?_, fun hu => ?_, fun _ hn => absurd ha hn⟩
      · exact syncApart_ends s a n e
      · rw [if_pos hu]
        exact State.syncUse_phase _ _ _ _ _
    · refine ⟨_, exec_syncInEdge_together hf ht hp late ha, fun hu _ => ?_, fun hx => absurd hx ha, fun hu => ?_, fun hu _ => ?_⟩
      · rw [if_neg hu]
        rfl
      · rw [if_pos hu]
        exact State.syncUse_phase _ _ _ _ _
      · rw [if_pos hu]
        have hg : syncRun s n e false = good := by simp [syncRun, good]
        obtain ⟨h1, v, h2, h3, h4⟩ := syncUse_noted s a n e
        rw [hg] at h1 h4
        refine ⟨h1, v, h2, h3.trans ?_, h4⟩
        rw [← hg]
        rfl
  · intro u
    refine ⟨_, rfl, ?_⟩
    rw [if_pos (by simp [hf, hl, hm])]
    exact State.syncLose_tripped hl hp

end Sys2Proof.Machine

namespace Sys2Proof.Machine

section Pairs

variable {s t u v : State} {b c : Bank} {p q : Coil} {i : Fin 16} {hold : Nat}

/-! ### The auxiliary sequence up to a reservation (R293, R301) -/

/-- From s to t bank b's converter has at most started conversions of its auxiliary sequence. -/
structure Converts (b : Bank) (s t : State) : Prop where
  rest : t = { s with adcs := t.adcs }
  others : ∀ c, c ≠ b → t.adc c = s.adc c
  own : t.adc b = { s.adc b with
    lfsr := (t.adc b).lfsr, busy := (t.adc b).busy, auxAt := (t.adc b).auxAt, auxPicks := (t.adc b).auxPicks }

theorem Converts.refl (s : State) : Converts b s s := ⟨rfl, fun _ _ => rfl, rfl⟩

theorem Converts.trans (h : Converts b s t) (h' : Converts b t u) : Converts b s u where
  rest := by
    have e := h'.rest
    rw [h.rest] at e
    exact e
  others c hc := (h'.others c hc).trans (h.others c hc)
  own := by
    have e := h'.own
    rw [h.own] at e
    exact e

/-- Writing the four parts of the bank's converter that a conversion changes. -/
theorem Converts.set (s : State) (b : Bank) {x : AdcS}
    (h : x = { s.adc b with lfsr := x.lfsr, busy := x.busy, auxAt := x.auxAt, auxPicks := x.auxPicks }) :
    Converts b s (s.setAdc b x) :=
  ⟨rfl, fun _ hc => State.adc_setAdc_ne s x hc, by rw [State.adc_setAdc_self]; exact h⟩

theorem pickSlice_converts (s : State) (b : Bank) (e : List (Fin 5)) (c : Nat) : Converts b s (pickSlice s b e c).1 := by
  unfold pickSlice
  dsimp only
  split
  · exact .refl s
  · exact .set s b rfl

theorem auxStart_converts (wins : List Nat) (b : Bank) (lim : Nat) (s : State) (k : Fin 16) :
    Converts b s (auxStart wins b lim s k) := by
  unfold auxStart
  extract_lets ts c at_
  clear_value at_
  obtain _ | ⟨t, l⟩ := at_
  · exact .set s b rfl
  · dsimp only
    split
    · exact .refl s
    · exact (pickSlice_converts s b _ _).trans (.set _ b rfl)

theorem auxRun_converts (s : State) (b : Bank) (lim : Nat) : Converts b s (auxRun s b lim) := by
  have fold : ∀ (f : State → Fin 16 → State), (∀ s k, Converts b s (f s k)) →
      ∀ (l : List (Fin 16)) (s : State), Converts b s (l.foldl f s) := by
    intro f hf l
    induction l with
    | nil => exact .refl
    | cons k l ih => exact fun s => (hf s k).trans (ih _)
  unfold auxRun
  split
  · exact fold _ (auxStart_converts _ b lim) _ s
  · exact .refl s

/-- A slice is picked while one is eligible: the LFSR advances once and names it (R292). -/
theorem pickSlice_some {e : List (Fin 5)} (h : 0 < e.length) (s : State) (b : Bank) (c : Nat) :
    ∃ q, e[lfsrNext (s.adc b).lfsr % e.length]? = some q ∧ pickSlice s b e c =
      (s.setAdc b { s.adc b with lfsr := lfsrNext (s.adc b).lfsr, busy := (s.adc b).busy.set q c }, some q) := by
  have hi : lfsrNext (s.adc b).lfsr % e.length < e.length := Nat.mod_lt _ h
  refine ⟨_, List.getElem?_eq_getElem hi, ?_⟩
  unfold pickSlice
  simp only [Nat.max_eq_right h, List.getElem?_eq_getElem hi]

/-! ### One coil's conversion (R299, R300, R308) -/

/-- At t coil p has no result from its instant: the record is absent and the sample not usable. -/
def Absent (s : State) (hold : Nat) (p : Coil) (t : State) : Prop :=
  t.reg (Reg.ADC_SYNC p) = BitVec.ofNat 32 (absentWord (p.val % 16)) ∧
  t.coil p = { s.coil p with sampledAt := hold, syncOld := s.reg (Reg.ADC_SYNC p), waiting := some ⟨hold, 0, false⟩ }

/-- At t coil p of bank b, its amplifier i, has its result from slice q with raw code r, as the converter a gives it. -/
def Taken (s : State) (a : AdcS) (hold : Nat) (p : Coil) (b : Bank) (i : Fin 16) (q : Fin 5) (r : Raw) (t : State) : Prop :=
  let v := signedValue (corrected s b q r.code.toNat) a.offset[i]
  let tag := if clippedRaw r then 2 else if 0 < a.settle[i] then 1 else 0
  let den := 32768 * ampGain s p * s.rd (F.ADC_CS_SHUNT p)
  t.reg (Reg.ADC_SYNC p) = BitVec.ofNat 32 (resultWord tag i v) ∧
  (∃ m, t.coil p = { s.coil p with
      sampledAt := hold, syncOld := s.reg (Reg.ADC_SYNC p), waiting := some ⟨hold, m, decide (tag = 0)⟩ } ∧
    (den ≠ 0 → m = (v : Rat) * 100000000 / den)) ∧
  (t.adc b).settle[i] = a.settle[i] - 1 ∧ (tag = 2 → t.flag (F.ADC_STAT_CLIP b))

/-- What sampling coil p, amplifier i of bank b, may touch. -/
structure Samples (p : Coil) (b : Bank) (i : Fin 16) (s t : State) : Prop where
  rest : t = { s with
    regs := t.regs, adcs := t.adcs, coils := t.coils, freeCtr := t.freeCtr, seqDone := t.seqDone }
  regs : RegsBut [Reg.ADC_SYNC p, Reg.ADC_STAT b] s t
  clip : s.flag (F.ADC_STAT_CLIP b) → t.flag (F.ADC_STAT_CLIP b)
  coils : ∀ q, q ≠ p → t.coil q = s.coil q
  adcs : ∀ c, c ≠ b → t.adc c = s.adc c
  own : t.adc b = { s.adc b with settle := (t.adc b).settle }
  settle : ∀ j : Fin 16, j ≠ i → (t.adc b).settle[j] = (s.adc b).settle[j]

theorem sync_ne_stat (p : Coil) (b : Bank) : Reg.ADC_STAT b ≠ Reg.ADC_SYNC p := by
  change 0x100c4 + 0x2000 * b.val ≠ 0x10204 + 0x2000 * (p.val / 16) + 0x10 * (p.val % 16)
  omega

theorem Samples.refl (s : State) : Samples p b i s s :=
  ⟨rfl, fun _ _ => rfl, id, fun _ _ => rfl, fun _ _ => rfl, rfl, fun _ _ => rfl⟩

theorem sampling_trans
    (h : t = { s with regs := t.regs, adcs := t.adcs, coils := t.coils, freeCtr := t.freeCtr, seqDone := t.seqDone })
    (h' : u = { t with regs := u.regs, adcs := u.adcs, coils := u.coils, freeCtr := u.freeCtr, seqDone := u.seqDone }) :
    u = { s with regs := u.regs, adcs := u.adcs, coils := u.coils, freeCtr := u.freeCtr, seqDone := u.seqDone } := by
  rw [h] at h'
  exact h'

theorem Samples.trans (h : Samples p b i s t) (h' : Samples p b i t u) : Samples p b i s u where
  rest := sampling_trans h.rest h'.rest
  regs o ho := (h'.regs o ho).trans (h.regs o ho)
  clip := h'.clip ∘ h.clip
  coils q hq := (h'.coils q hq).trans (h.coils q hq)
  adcs c hc := (h'.adcs c hc).trans (h.adcs c hc)
  own := by
    have e := h'.own
    rw [h.own] at e
    exact e
  settle j hj := (h'.settle j hj).trans (h.settle j hj)

theorem State.setReg_samples (s : State) (p : Coil) (b : Bank) (i : Fin 16) (w : Word) :
    Samples p b i s (s.setReg (Reg.ADC_SYNC p) w) :=
  ⟨rfl, fun _ ho => State.reg_setReg_ne s w (List.ne_of_not_mem_cons ho),
    fun h => by rw [State.flag, State.rd_setReg_off s w (sync_ne_stat p b)]; exact h,
    fun _ _ => rfl, fun _ _ => rfl, rfl, fun _ _ => rfl⟩

theorem State.setCoil_samples (s : State) (p : Coil) (b : Bank) (i : Fin 16) (x : CoilS) :
    Samples p b i s (s.setCoil p x) :=
  ⟨rfl, fun _ _ => rfl, id, fun _ hq => State.coil_setCoil_ne s x hq, fun _ _ => rfl, rfl, fun _ _ => rfl⟩

theorem State.sqc_samples (s : State) (p : Coil) (b : Bank) (i : Fin 16) :
    Samples p b i s (s.sqc (F.ADC_STAT_CLIP b)) := by
  have coil : ∀ q, (s.sqc (F.ADC_STAT_CLIP b)).coil q = s.coil q := fun q =>
    congrArg (·[q]) (s.sqc_coils (F.ADC_STAT_CLIP b))
  have adc : ∀ c, (s.sqc (F.ADC_STAT_CLIP b)).adc c = s.adc c := fun c => congrArg (·[c]) (s.sqc_adcs (F.ADC_STAT_CLIP b))
  obtain ⟨w, k, e⟩ := s.sqcMask_shape (F.ADC_STAT_CLIP b).off (2 ^ (F.ADC_STAT_CLIP b).lo)
  refine ⟨by rw [State.sqc, e]; rfl, fun o ho => State.reg_sqc_ne s fun h => ho (h ▸ by simp [F.ADC_STAT_CLIP]),
    fun _ => State.flag_sqc s rfl (Nat.zero_lt_succ 23), fun q _ => coil q, fun c _ => adc c, ?_, fun j _ => by rw [adc b]⟩
  rw [adc b]

theorem State.settle_samples (s : State) (p : Coil) (b : Bank) (i : Fin 16) (n : Nat) :
    Samples p b i s (s.setAdc b { s.adc b with settle := (s.adc b).settle.set i n }) :=
  ⟨rfl, fun _ _ => rfl, id, fun _ _ => rfl, fun _ hc => State.adc_setAdc_ne s _ hc,
    by rw [State.adc_setAdc_self], fun j hj => by
      rw [State.adc_setAdc_self]
      exact Vector.getElem_set_ne i.isLt j.isLt fun h => hj (Fin.ext h.symm)⟩

theorem Samples.ite {x y : State} {P : Prop} [Decidable P] (hx : Samples p b i s x) (hy : Samples p b i s y) :
    Samples p b i s (if P then x else y) := by
  split
  · exact hx
  · exact hy

/-- A coil's record and sample put in place, whatever they are. -/
def State.putSync (s : State) (p : Coil) (hold : Nat) (w : Word) (x : Sample) : State :=
  (s.setReg (Reg.ADC_SYNC p) w).setCoil p { s.coil p with
    sampledAt := hold, syncOld := s.reg (Reg.ADC_SYNC p), waiting := some x }

theorem State.putSync_reg (s : State) (p : Coil) (hold : Nat) (w : Word) (x : Sample) :
    (s.putSync p hold w x).reg (Reg.ADC_SYNC p) = w := State.reg_setReg_self s _ w

theorem State.putSync_coil (s : State) (p : Coil) (hold : Nat) (w : Word) (x : Sample) :
    (s.putSync p hold w x).coil p = { s.coil p with
      sampledAt := hold, syncOld := s.reg (Reg.ADC_SYNC p), waiting := some x } := State.coil_setCoil_self _ p _

theorem State.putSync_adcs (s : State) (p : Coil) (hold : Nat) (w : Word) (x : Sample) :
    (s.putSync p hold w x).adcs = s.adcs := rfl

theorem State.putSync_samples (s : State) (p : Coil) (b : Bank) (i : Fin 16) (hold : Nat) (w : Word) (x : Sample) :
    Samples p b i s (s.putSync p hold w x) :=
  (s.setReg_samples p b i w).trans (State.setCoil_samples _ p b i _)

theorem syncCoil_none_eq (s : State) (p : Coil) (hold : Nat) (r : Raw) : syncCoil s p none hold r =
    s.putSync p hold (BitVec.ofNat 32 (absentWord (⟨p.val % 16, by omega⟩ : Fin 16))) ⟨hold, 0, false⟩ := rfl

theorem State.putSync_absent (s : State) (p : Coil) (hold : Nat) {w : Word}
    (h : w = BitVec.ofNat 32 (absentWord (p.val % 16))) : Absent s hold p (s.putSync p hold w ⟨hold, 0, false⟩) :=
  ⟨(s.putSync_reg p hold w _).trans h, s.putSync_coil p hold w _⟩

theorem syncCoil_none (s : State) (p : Coil) (b : Bank) (i : Fin 16) (hold : Nat) (r : Raw) :
    Absent s hold p (syncCoil s p none hold r) ∧ (syncCoil s p none hold r).adcs = s.adcs ∧
      Samples p b i s (syncCoil s p none hold r) := by
  rw [syncCoil_none_eq]
  exact ⟨s.putSync_absent p hold (by rw []), s.putSync_adcs p hold _ _, s.putSync_samples p b i hold _ _⟩

/-- Amplifier i of bank b has one settling result less to give, and a clipped one sets its flag (R308). -/
def State.settled (s : State) (b : Bank) (i : Fin 16) (clipped : Prop) [Decidable clipped] : State :=
  let v := s.setAdc b { s.adc b with settle := (s.adc b).settle.set i ((s.adc b).settle[i] - 1) }
  if clipped then v.sqc (F.ADC_STAT_CLIP b) else v

theorem State.settled_samples (s : State) (p : Coil) (b : Bank) (i : Fin 16) (c : Prop) [Decidable c] :
    Samples p b i s (s.settled b i c) :=
  (s.settle_samples p b i _).trans (.ite (State.sqc_samples _ p b i) (.refl _))

theorem State.draw_samples (s : State) (p : Coil) (b : Bank) (i : Fin 16) : Samples p b i s s.draw :=
  ⟨rfl, fun _ _ => rfl, id, fun _ _ => rfl, fun _ _ => rfl, rfl, fun _ _ => rfl⟩

/-- Coil p's result w with its sample, whose current is drawn where the coil has no shunt. -/
def State.takeSync (s : State) (p : Coil) (hold : Nat) (w : Word) (v : Rat) (old : Word) (ok : Prop) [Decidable ok] : State :=
  let s := s.setReg (Reg.ADC_SYNC p) w
  let den := 32768 * ampGain s p * s.rd (F.ADC_CS_SHUNT p)
  let mA : Rat := if den = 0 then (s.drawn : Rat) else v / den
  let s := if den = 0 then s.draw else s
  s.setCoil p { s.coil p with sampledAt := hold, syncOld := old, waiting := some ⟨hold, mA, ok⟩ }

theorem syncCoil_some_eq (s : State) (p : Coil) (q : Fin 5) (hold : Nat) (r : Raw) (hb : bankOfCoil p = b)
    (hi : p.val % 16 = i.val) :
    let v := signedValue (corrected s b q r.code.toNat) (s.adc b).offset[i]
    let tag := if clippedRaw r then 2 else if 0 < (s.adc b).settle[i] then 1 else 0
    syncCoil s p (some q) hold r = (s.settled b i (tag = 2)).takeSync p hold (BitVec.ofNat 32 (resultWord tag i v))
      ((v : Rat) * 100000000) (s.reg (Reg.ADC_SYNC p)) (tag = 0) := by
  obtain rfl : i = ⟨p.val % 16, Nat.mod_lt _ (Nat.zero_lt_succ 15)⟩ := Fin.ext hi.symm
  subst hb
  unfold syncCoil State.settled State.takeSync
  rfl

theorem shunt_ne_sync (p q : Coil) : Reg.ADC_CS p ≠ Reg.ADC_SYNC q := by
  change 0x10200 + 0x2000 * (p.val / 16) + 0x10 * (p.val % 16) ≠ 0x10204 + 0x2000 * (q.val / 16) + 0x10 * (q.val % 16)
  omega

theorem shunt_ne_stat (p : Coil) (b : Bank) : Reg.ADC_CS p ≠ Reg.ADC_STAT b := by
  change 0x10200 + 0x2000 * (p.val / 16) + 0x10 * (p.val % 16) ≠ 0x100c4 + 0x2000 * b.val
  omega

theorem shunt_apart (p q : Coil) (b : Bank) : Reg.ADC_CS p ∉ [Reg.ADC_SYNC q, Reg.ADC_STAT b] :=
  List.not_mem_cons_of_ne_of_not_mem (shunt_ne_sync p q)
    (List.not_mem_cons_of_ne_of_not_mem (shunt_ne_stat p b) List.not_mem_nil)

theorem slice_apart (q : Coil) (b : Bank) (k : Fin 5) : Reg.ADC_SLC_OG (slice b k) ∉ [Reg.ADC_SYNC q, Reg.ADC_STAT b] := by
  have h1 : slice b k / 5 = b.val := by unfold slice; omega
  have h2 : slice b k % 5 = k.val := by unfold slice; omega
  have e : Reg.ADC_SLC_OG (slice b k) = 0x10140 + 0x2000 * b.val + 0x8 * k.val := by rw [Reg.ADC_SLC_OG, h1, h2]
  have e1 : Reg.ADC_SYNC q = 0x10204 + 0x2000 * (q.val / 16) + 0x10 * (q.val % 16) := rfl
  have e2 : Reg.ADC_STAT b = 0x100c4 + 0x2000 * b.val := rfl
  simp only [List.mem_cons, List.not_mem_nil, or_false, e, e1, e2]
  omega

section Range

variable {v : Rat} {w old : Word} {ok : Prop} [Decidable ok]

theorem State.takeSync_samples (s : State) (p : Coil) (b : Bank) (i : Fin 16) :
    Samples p b i s (s.takeSync p hold w v old ok) := by
  unfold State.takeSync
  extract_lets u den mA u'
  exact ((s.setReg_samples p b i w).trans (.ite (u.draw_samples p b i) (.refl u))).trans (u'.setCoil_samples p b i _)

theorem State.takeSync_reg (s : State) (p : Coil) : (s.takeSync p hold w v old ok).reg (Reg.ADC_SYNC p) = w := by
  unfold State.takeSync
  extract_lets u den mA u'
  have h : u'.reg (Reg.ADC_SYNC p) = u.reg (Reg.ADC_SYNC p) := by
    unfold u'
    split <;> rfl
  exact h.trans (s.reg_setReg_self _ w)

theorem State.takeSync_adcs (s : State) (p : Coil) : (s.takeSync p hold w v old ok).adcs = s.adcs := by
  unfold State.takeSync
  extract_lets u den mA u'
  unfold u'
  split <;> rfl

theorem State.takeSync_coil (s : State) (p : Coil) : ∃ m, (s.takeSync p hold w v old ok).coil p =
    { s.coil p with sampledAt := hold, syncOld := old, waiting := some ⟨hold, m, Decidable.decide ok⟩ } ∧
    (32768 * ampGain s p * s.rd (F.ADC_CS_SHUNT p) ≠ 0 →
      m = v / (32768 * ampGain s p * s.rd (F.ADC_CS_SHUNT p) : Nat)) := by
  unfold State.takeSync
  extract_lets u den mA u'
  have hu : u'.coil p = s.coil p := by
    unfold u'
    split <;> rfl
  have rd : ∀ f : Fld, f.off = Reg.ADC_CS p → u.rd f = s.rd f := fun f hf =>
    State.rd_setReg_off s w (by rw [hf]; exact shunt_ne_sync p p)
  have hd : 32768 * ampGain s p * s.rd (F.ADC_CS_SHUNT p) = den := by
    unfold den ampGain
    rw [rd (F.ADC_CS_GAIN p) rfl, rd (F.ADC_CS_SHUNT p) rfl]
  refine ⟨mA, ?_, fun h => ?_⟩
  · exact (State.coil_setCoil_self _ p _).trans (congrArg (fun k : CoilS =>
      { k with sampledAt := hold, syncOld := old, waiting := some ⟨hold, mA, Decidable.decide ok⟩ }) hu)
  · rw [hd] at h ⊢
    exact if_neg h

end Range

/-- What a coil's conversion reads besides its record (R294, R300). -/
theorem Samples.reads (h : Samples p b i s t) (q : Coil) (k : Fin 5) (c : Nat) : corrected t b k c = corrected s b k c ∧
    ampGain t q = ampGain s q ∧ t.rd (F.ADC_CS_SHUNT q) = s.rd (F.ADC_CS_SHUNT q) := by
  have cs := h.regs _ (shunt_apart q p b)
  have og := h.regs _ (slice_apart p b k)
  refine ⟨?_, ?_, State.rd_of_reg cs⟩
  · unfold corrected State.rdS
    rw [State.rd_of_reg (f := F.ADC_SLC_OG_OFS (slice b k)) og, State.rd_of_reg (f := F.ADC_SLC_OG_GERR (slice b k)) og]
  · unfold ampGain
    rw [State.rd_of_reg (f := F.ADC_CS_GAIN q) cs]

theorem State.settled_coil (s : State) (p : Coil) (b : Bank) (i : Fin 16) (c : Prop) [Decidable c] :
    (s.settled b i c).coil p = s.coil p := by
  unfold State.settled
  extract_lets _ v
  split
  · exact congrArg (·[p]) (v.sqc_coils (F.ADC_STAT_CLIP b))
  · rfl

theorem State.settled_settle (s : State) (b : Bank) (i : Fin 16) (c : Prop) [Decidable c] :
    ((s.settled b i c).adc b).settle[i] = (s.adc b).settle[i] - 1 := by
  unfold State.settled
  extract_lets _ v
  have hv : (v.adc b).settle[i] = (s.adc b).settle[i] - 1 := by
    rw [State.adc_setAdc_self]
    exact Vector.getElem_set_self i.isLt
  split
  · exact (congrArg (fun x : Vector AdcS 4 => x[b].settle[i]) (v.sqc_adcs (F.ADC_STAT_CLIP b))).trans hv
  · exact hv

theorem syncCoil_samples (s : State) (p : Coil) (q : Fin 5) (hold : Nat) (r : Raw) (hb : bankOfCoil p = b)
    (hi : p.val % 16 = i.val) : Samples p b i s (syncCoil s p (some q) hold r) := by
  rw [syncCoil_some_eq s p q hold r hb hi]
  exact (s.settled_samples p b i _).trans (State.takeSync_samples _ p b i)

theorem syncCoil_some (s : State) (p : Coil) (q : Fin 5) (hold : Nat) (r : Raw) (hb : bankOfCoil p = b)
    (hi : p.val % 16 = i.val) : Taken s (s.adc b) hold p b i q r (syncCoil s p (some q) hold r) := by
  rw [syncCoil_some_eq s p q hold r hb hi]
  unfold Taken
  extract_lets v tag den
  obtain ⟨_, hg, hsh⟩ := (s.settled_samples p b i (tag = 2)).reads p q 0
  obtain ⟨m, hm, hm'⟩ := State.takeSync_coil (s.settled b i (tag = 2)) p (hold := hold)
    (w := BitVec.ofNat 32 (resultWord tag i v)) (v := (v : Rat) * 100000000) (old := s.reg (Reg.ADC_SYNC p)) (ok := tag = 0)
  rw [hg, hsh] at hm'
  rw [State.settled_coil] at hm
  refine ⟨State.takeSync_reg _ p, ⟨m, hm, hm'⟩, ?_, fun h => ?_⟩
  · exact (congrArg (fun x : Vector AdcS 4 => x[b].settle[i]) (State.takeSync_adcs _ p)).trans (s.settled_settle b i _)
  · refine (State.takeSync_samples (s.settled b i (tag = 2)) p b i).clip ?_
    unfold State.settled
    rw [if_pos h]
    exact State.flag_sqc _ rfl (Nat.zero_lt_succ 23)

/-! ### A pair of coils (R30, R299) -/

/-- What coil p has at t from its instant: a result from the slice it was given, or none. -/
def Result (s : State) (a : AdcS) (hold : Nat) (p : Coil) (b : Bank) (i : Fin 16) (r : Raw) (t : State) : Option (Fin 5) → Prop
  | none => Absent s hold p t
  | some q => Taken s a hold p b i q r t

variable {a : AdcS} {r : Raw} {k : Option (Fin 5)} {j : Fin 16}

theorem Result.ite {P : Prop} [Decidable P] {q : Fin 5} (h : Result s a hold p b i r t (if P then none else some q)) :
    if P then Absent s hold p t else Taken s a hold p b i q r t := by
  by_cases hP : P
  · rw [if_pos hP] at h ⊢
    exact h
  · rw [if_neg hP] at h ⊢
    exact h

theorem syncCoil_result (s : State) (p : Coil) (k : Option (Fin 5)) (hold : Nat) (r : Raw) (hb : bankOfCoil p = b)
    (hi : p.val % 16 = i.val) : Result s (s.adc b) hold p b i r (syncCoil s p k hold r) k ∧
      Samples p b i s (syncCoil s p k hold r) := by
  cases k with
  | none => exact ⟨(syncCoil_none s p b i hold r).1, (syncCoil_none s p b i hold r).2.2⟩
  | some q => exact ⟨syncCoil_some s p q hold r hb hi, syncCoil_samples s p q hold r hb hi⟩

theorem sync_apart {p q : Coil} (h : p ≠ q) (b : Bank) : Reg.ADC_SYNC p ∉ [Reg.ADC_SYNC q, Reg.ADC_STAT b] := by
  have hv : p.val ≠ q.val := fun e => h (Fin.ext e)
  have e : Reg.ADC_SYNC p = 0x10204 + 0x2000 * (p.val / 16) + 0x10 * (p.val % 16) := rfl
  have e1 : Reg.ADC_SYNC q = 0x10204 + 0x2000 * (q.val / 16) + 0x10 * (q.val % 16) := rfl
  have e2 : Reg.ADC_STAT b = 0x100c4 + 0x2000 * b.val := rfl
  simp only [List.mem_cons, List.not_mem_nil, or_false, e, e1, e2]
  omega

/-- Sampling the pair's other coil leaves the result. -/
theorem Result.later (h : Result s a hold p b i r t k) (ht : Samples q b j t u) (hp : p ≠ q) (hi : i ≠ j) :
    Result s a hold p b i r u k := by
  have reg := ht.regs _ (sync_apart hp b)
  have coil := ht.coils p hp
  cases k with
  | none =>
    obtain ⟨h1, h2⟩ := h
    exact ⟨reg.trans h1, coil.trans h2⟩
  | some q =>
    obtain ⟨h1, ⟨m, h2, hm⟩, h3, h4⟩ := h
    exact ⟨reg.trans h1, ⟨m, coil.trans h2, hm⟩, (ht.settle i hi).trans h3, ht.clip ∘ h4⟩

/-- What a result of coil p with amplifier i is computed from is the same in v as in s. -/
structure Alike (s : State) (a : AdcS) (p : Coil) (b : Bank) (i : Fin 16) (v : State) : Prop where
  coil : v.coil p = s.coil p
  reg : v.reg (Reg.ADC_SYNC p) = s.reg (Reg.ADC_SYNC p)
  corrected : ∀ k c, corrected v b k c = Machine.corrected s b k c
  gain : ampGain v p = ampGain s p
  shunt : v.rd (F.ADC_CS_SHUNT p) = s.rd (F.ADC_CS_SHUNT p)
  offset : (v.adc b).offset[i] = a.offset[i]
  settle : (v.adc b).settle[i] = a.settle[i]

theorem Result.alike (h : Result v (v.adc b) hold p b i r t k) (hv : Alike s a p b i v) : Result s a hold p b i r t k := by
  cases k with
  | none =>
    obtain ⟨h1, h2⟩ := h
    rw [hv.coil, hv.reg] at h2
    exact ⟨h1, h2⟩
  | some q =>
    unfold Result Taken at h ⊢
    simp only [hv.coil, hv.reg, hv.corrected, hv.gain, hv.shunt, hv.offset, hv.settle] at h
    exact h

theorem Samples.alike (h : Samples q b j s t) (hp : p ≠ q) (hi : i ≠ j) (ha : Alike u a p b i s) : Alike u a p b i t where
  coil := (h.coils p hp).trans ha.coil
  reg := (h.regs _ (sync_apart hp b)).trans ha.reg
  corrected k c := (h.reads p k c).1.trans (ha.corrected k c)
  gain := (h.reads p 0 0).2.1.trans ha.gain
  shunt := (h.reads p 0 0).2.2.trans ha.shunt
  offset := by rw [h.own]; exact ha.offset
  settle := (h.settle i hi).trans ha.settle

theorem Alike.of_reg (hr : ∀ o, v.reg o = s.reg o) (hc : v.coils = s.coils) (ho : (v.adc b).offset = a.offset)
    (hs : (v.adc b).settle = a.settle) : Alike s a p b i v where
  coil := congrArg (·[p]) hc
  reg := hr _
  corrected k c := by
    unfold Machine.corrected State.rdS
    rw [State.rd_of_reg (f := F.ADC_SLC_OG_OFS (slice b k)) (hr _), State.rd_of_reg (f := F.ADC_SLC_OG_GERR (slice b k)) (hr _)]
  gain := by rw [ampGain, State.rd_of_reg (f := F.ADC_CS_GAIN p) (hr _)]; rfl
  shunt := State.rd_of_reg (hr _)
  offset := by rw [ho]
  settle := by rw [hs]

/-- What the state of the pair's instant must share with s and its converter a. -/
structure Instant (s : State) (a : AdcS) (b : Bank) (v : State) : Prop where
  reg : ∀ o, v.reg o = s.reg o
  coils : v.coils = s.coils
  own : v.adc b = { a with lfsr := (v.adc b).lfsr, busy := (v.adc b).busy }
  others : ∀ c, c ≠ b → v.adc c = s.adc c

/-- Both coils of the pair of lines i and j, sampled one after the other from v. -/
theorem pair_sampled (hv : Instant s a b v) (hp : p ≠ q) (hij : i ≠ j) (hb1 : bankOfCoil p = b) (hb2 : bankOfCoil q = b)
    (hi : p.val % 16 = i.val) (hj : q.val % 16 = j.val) (k l : Option (Fin 5)) (r r' : Raw) :
    let t := syncCoil (syncCoil v p k hold r) q l hold r'
    Result s a hold p b i r t k ∧ Result s a hold q b j r' t l ∧
      t.adc b = { v.adc b with settle := (t.adc b).settle } ∧
      RegsBut [Reg.ADC_SYNC p, Reg.ADC_SYNC q, Reg.ADC_STAT b] s t ∧
      (∀ m, m ≠ p → m ≠ q → t.coil m = s.coil m) ∧ (∀ c, c ≠ b → t.adc c = s.adc c) ∧
      t = { v with regs := t.regs, adcs := t.adcs, coils := t.coils, freeCtr := t.freeCtr, seqDone := t.seqDone } := by
  intro t
  obtain ⟨h1, f1⟩ := syncCoil_result v p k hold r hb1 hi
  obtain ⟨h2, f2⟩ := syncCoil_result (syncCoil v p k hold r) q l hold r' hb2 hj
  have ho : (v.adc b).offset = a.offset := by rw [hv.own]
  have hs : (v.adc b).settle = a.settle := by rw [hv.own]
  have alike : ∀ m (y : Fin 16), Alike s a m b y v := fun m y => .of_reg hv.reg hv.coils ho hs
  refine ⟨(h1.alike (alike p i)).later f2 hp hij, h2.alike (f1.alike hp.symm hij.symm (alike q j)), ?_, fun o hm => ?_,
    fun m h h' => ?_, fun c hc => ?_, ?_⟩
  · have e := f2.own
    rw [f1.own] at e
    exact e
  · simp only [List.mem_cons, List.not_mem_nil, or_false, not_or] at hm
    obtain ⟨m1, m2, m3⟩ := hm
    rw [f2.regs o (by simp [m2, m3]), f1.regs o (by simp [m1, m3]), hv.reg]
  · rw [f2.coils m h', f1.coils m h]
    exact congrArg (·[m]) hv.coils
  · rw [f2.adcs c hc, f1.adcs c hc, hv.others c hc]
  · exact sampling_trans f1.rest f2.rest

/-- The state of the pair's instant, from the state z in which the auxiliary sequence has run (R293). -/
theorem Converts.instant {z : State} (hz : Converts b s z) (hold c : Nat) :
    let u := z.advTo hold
    Instant s (z.adc b) b u ∧ adcLive u b = adcLive s b ∧ inService u b = inService s b ∧
      freeSlices u b c = freeSlices z b c ∧ ∀ p, bankOfCoil p = b → owtCovers u p = owtCovers s p := by
  intro u
  have hreg : ∀ o, u.reg o = s.reg o := fun o => (z.advTo_reg hold o).trans (by rw [hz.rest]; rfl)
  have hadc : ∀ c, u.adc c = z.adc c := fun c => congrArg (·[c]) (z.advTo_adcs hold)
  have hown : u.adc b = { s.adc b with
      lfsr := (z.adc b).lfsr, busy := (z.adc b).busy, auxAt := (z.adc b).auxAt, auxPicks := (z.adc b).auxPicks } :=
    (hadc b).trans hz.own
  have serves : inService u b = inService s b := by rw [inService, State.rd_of_reg (hreg _)]; rfl
  refine ⟨⟨hreg, (z.advTo_coils hold).trans (by rw [hz.rest]), by rw [hadc], fun c hc => (hadc c).trans (hz.others c hc)⟩,
    ?_, serves, ?_, fun p hp => ?_⟩
  · have hp : u.powered (12 + b.val) = s.powered (12 + b.val) := (z.powered_advTo hold _).trans (by rw [hz.rest]; rfl)
    rw [adcLive, hown, hp]
    rfl
  · have hz' : inService z b = inService s b := by rw [hz.rest]; rfl
    rw [freeSlices, freeSlices, hadc b, serves, hz']
  · subst hp
    have hen : ∀ n, u.energised n = s.energised n := fun n => by
      have e : u.plans = s.plans := (z.advTo_plans hold).trans (by rw [hz.rest])
      exact congrArg (fun x : Vector AxisPlan 32 => decide (x[n].st ≠ .off)) e
    rw [owtCovers, hown, hen]
    rfl

/-- A slice picked at the pair's instant: what else of the converter stands. -/
theorem Instant.picked (h : Instant s a b v) (l : Nat) (y : Vector Nat 5) :
    Instant s a b (v.setAdc b { v.adc b with lfsr := l, busy := y }) := by
  refine ⟨h.reg, h.coils, ?_, fun c hc => (State.adc_setAdc_ne v _ hc).trans (h.others c hc)⟩
  have e := h.own
  rw [State.adc_setAdc_self]
  generalize v.adc b = x at e
  rw [e]

/-- SYNC_SAMPLE at the pair's instant, without a conversion (R308). -/
theorem execSyncSample_absent {j : Fin 8} {r1 r2 : Raw} (hb : s.powered (12 + b.val))
    (hn : nextSync s ⟨16 * b.val + j.val, by omega⟩ = some hold)
    (h : (adcLive ((auxRun s b (hold - 20)).advTo hold) b &&
      decide (3 ≤ (inService ((auxRun s b (hold - 20)).advTo hold) b).length)) = false) :
    execSyncSample b j r1 r2 s = .next (syncCoil (syncCoil ((auxRun s b (hold - 20)).advTo hold)
      ⟨16 * b.val + j.val, by omega⟩ none hold r1) ⟨16 * b.val + j.val + 8, by omega⟩ none hold r2) := by
  unfold execSyncSample
  simp only [hn, hb, h, Bool.not_true, Bool.false_eq_true, if_false, ite_self]

theorem execSyncSample_picks {j : Fin 8} {r1 r2 : Raw} {q1 q2 : Fin 5} {w1 w2 : State} (hb : s.powered (12 + b.val))
    (hn : nextSync s ⟨16 * b.val + j.val, by omega⟩ = some hold)
    (h : (adcLive ((auxRun s b (hold - 20)).advTo hold) b &&
      decide (3 ≤ (inService ((auxRun s b (hold - 20)).advTo hold) b).length)) = true)
    (h1 : pickSlice ((auxRun s b (hold - 20)).advTo hold) b
      (freeSlices ((auxRun s b (hold - 20)).advTo hold) b (hold - 20)) (hold + 80) = (w1, some q1))
    (h2 : pickSlice w1 b ((freeSlices ((auxRun s b (hold - 20)).advTo hold) b (hold - 20)).filter (· ≠ q1))
      (hold + 80) = (w2, some q2)) :
    let u := (auxRun s b (hold - 20)).advTo hold
    let p1 : Coil := ⟨16 * b.val + j.val, by omega⟩
    let p2 : Coil := ⟨16 * b.val + j.val + 8, by omega⟩
    execSyncSample b j r1 r2 s = .next (syncCoil (syncCoil w2 p1 (if owtCovers u p1 then none else some q1) hold r1) p2
      (if owtCovers u p2 then none else some q2) hold r2) := by
  unfold execSyncSample
  simp only [hn, hb, h, h1, h2, Bool.not_true, Bool.false_eq_true, if_false, if_true]

/-- The converters are among what sampling may touch. -/
theorem sampling_of_setAdc {x : AdcS} (h : t = { s.setAdc b x with
      regs := t.regs, adcs := t.adcs, coils := t.coils, freeCtr := t.freeCtr, seqDone := t.seqDone }) :
    t = { s with regs := t.regs, adcs := t.adcs, coils := t.coils, freeCtr := t.freeCtr, seqDone := t.seqDone } := h

theorem freeSlices_others (s : State) (b : Bank) (c : Nat) {q : Fin 5} (hq : q ∈ freeSlices s b c) :
    ((freeSlices s b c).filter (· ≠ q)).length = (freeSlices s b c).length - 1 := by
  have hn : (freeSlices s b c).Nodup := ((List.nodup_finRange 5).filter _).filter _
  have e : (freeSlices s b c).filter (· ≠ q) = (freeSlices s b c).erase q := by
    rw [hn.erase_eq_filter]
    exact List.filter_congr fun x _ => by simp [bne, beq_eq_decide]
  rw [e, List.length_erase_of_mem hq]

end Pairs

/-- Settles O51: both coils of the pair go through one conversion, each from the state the one before it left. -/
theorem pairsAreSampled : Obligations.PairsAreSampled := by
  intro s b j r1 r2 hold p1 p2 hn hp z u a frame lost taken e l
  have hb1 : bankOfCoil p1 = b := Fin.ext (show (16 * b.val + j.val) / 16 = b.val by omega)
  have hb2 : bankOfCoil p2 = b := Fin.ext (show (16 * b.val + j.val + 8) / 16 = b.val by omega)
  have hi1 : p1.val % 16 = j.val := show (16 * b.val + j.val) % 16 = j.val by omega
  have hi2 : p2.val % 16 = j.val + 8 := show (16 * b.val + j.val + 8) % 16 = j.val + 8 by omega
  have hne : p1 ≠ p2 := fun h => by simpa [p1, p2] using congrArg Fin.val h
  let i1 : Fin 16 := ⟨j.val, by omega⟩
  let i2 : Fin 16 := ⟨j.val + 8, by omega⟩
  have hij : i1 ≠ i2 := fun h => by simpa [i1, i2] using congrArg Fin.val h
  obtain ⟨hu, hlive, hserve, hfree, howt⟩ := (auxRun_converts s b (hold - 20)).instant hold (hold - 20)
  refine ⟨fun h => ?_, fun hl h3 h2 => ?_⟩
  · have hok : (adcLive u b && decide (3 ≤ (inService u b).length)) = false := by
      rw [hlive, hserve]
      rcases h with h | h
      · rw [h]; rfl
      · simp [Nat.not_le.mpr h]
    obtain ⟨k1, k2, ho, hr, hc, ha, ht⟩ := pair_sampled hu hne hij hb1 hb2 hi1 hi2 none none r1 r2 (hold := hold)
    have hadcs := (syncCoil_none (syncCoil u p1 none hold r1) p2 b i2 hold r2).2.1.trans
      ((syncCoil_none u p1 b i1 hold r1).2.1.trans (z.advTo_adcs hold))
    exact ⟨_, execSyncSample_absent hp hn hok, k1, k2, congrArg (·[b]) hadcs, hr, hc, ha, ht⟩
  · have hok : (adcLive u b && decide (3 ≤ (inService u b).length)) = true := by
      rw [hlive, hserve, hl, decide_eq_true h3]
      rfl
    have hel : 0 < e.length := Nat.lt_of_lt_of_le Nat.two_pos h2
    obtain ⟨q1, hq1, e1⟩ := pickSlice_some hel u b (hold + 80)
    have hua : u.adc b = a := congrArg (·[b]) (z.advTo_adcs hold)
    rw [hua] at hq1 e1
    let w := u.setAdc b { a with lfsr := l, busy := a.busy.set q1 (hold + 80) }
    have hw : w.adc b = { a with lfsr := l, busy := a.busy.set q1 (hold + 80) } := State.adc_setAdc_self u b _
    have hrest : (e.filter (· ≠ q1)).length = e.length - 1 := freeSlices_others z b _ (List.mem_of_getElem? hq1)
    obtain ⟨q2, hq2, e2⟩ := pickSlice_some (hrest ▸ Nat.sub_pos_of_lt h2) w b (hold + 80)
    rw [hw] at hq2 e2
    rw [hrest] at hq2
    dsimp only at hq2
    let y := (a.busy.set q1 (hold + 80)).set q2 (hold + 80)
    let v := w.setAdc b { a with lfsr := lfsrNext l, busy := y }
    have hvb : v.adc b = { a with lfsr := lfsrNext l, busy := y } := State.adc_setAdc_self w b _
    have hv : Instant s a b v := by
      have h1 := hu.picked l (a.busy.set q1 (hold + 80))
      rw [hua] at h1
      have h2 := h1.picked (lfsrNext l) y
      rw [show (u.setAdc b _).adc b = _ from hw] at h2
      exact h2
    obtain ⟨k1, k2, ho, hr, hc, ha, ht⟩ := pair_sampled hv hne hij hb1 hb2 hi1 hi2
      (if owtCovers s p1 then none else some q1) (if owtCovers s p2 then none else some q2) r1 r2 (hold := hold)
    rw [hvb] at ho
    have g1 : pickSlice u b (freeSlices u b (hold - 20)) (hold + 80) = (w, some q1) := by rw [hfree]; exact e1
    have g2 : pickSlice w b ((freeSlices u b (hold - 20)).filter (· ≠ q1)) (hold + 80) = (v, some q2) := by
      rw [hfree]
      exact e2
    have hex : execSyncSample b j r1 r2 s = .next (syncCoil (syncCoil v p1
        (if owtCovers s p1 then none else some q1) hold r1) p2 (if owtCovers s p2 then none else some q2) hold r2) := by
      rw [← howt p1 hb1, ← howt p2 hb2]
      exact execSyncSample_picks hp hn hok g1 g2
    refine ⟨_, hex, q1, q2, hq1, hq2, k1.ite, k2.ite, (congrArg AdcS.lfsr ho :), (congrArg AdcS.busy ho :), ?_, hr, hc, ha,
      sampling_of_setAdc (sampling_of_setAdc ht)⟩
    rw [ho]

end Sys2Proof.Machine

namespace Sys2Proof.Machine

section Abiding

variable {s t u z a : State} {R : Nat → Bool}

/-! ### What no reaction does to the ports, the contexts and the axes (R19, R96, R124, R193) -/

/-- From s to t what the ports hold has grown and nothing else of them has changed, the contexts fetch as they did, and no
axis has changed its active source, its estimate or the memory of its travel limits, nor come to be homed. -/
structure Abides (s t : State) : Prop where
  port : ∀ p, t.port p = { s.port p with held := (t.port p).held }
  held : ∀ p, (s.port p).held <+: (t.port p).held
  due : ∀ k, (t.ctx k).due = (s.ctx k).due
  source : ∀ n, (t.plan n).useLes = (s.plan n).useLes
  travel : ∀ n, (t.plan n).travelOut = (s.plan n).travelOut
  homed : ∀ n, (t.plan n).homed = true → (s.plan n).homed = true
  est : ∀ n, (t.les n).xEst = (s.les n).xEst ∧ (t.les n).w = (s.les n).w

theorem Abides.refl (s : State) : Abides s s :=
  ⟨fun _ => rfl, fun _ => List.prefix_rfl, fun _ => rfl, fun _ => rfl, fun _ => rfl, fun _ => id, fun _ => ⟨rfl, rfl⟩⟩

theorem Abides.trans (h : Abides s t) (k : Abides t u) : Abides s u where
  port p := by rw [k.port p, h.port p]
  held p := (h.held p).trans (k.held p)
  due c := (k.due c).trans (h.due c)
  source n := (k.source n).trans (h.source n)
  travel n := (k.travel n).trans (h.travel n)
  homed n := h.homed n ∘ k.homed n
  est n := ⟨(k.est n).1.trans (h.est n).1, (k.est n).2.trans (h.est n).2⟩

theorem Abides.after (k : Abides t u) (h : Abides s t) : Abides s u := h.trans k

theorem Abides.ite {c : Prop} [Decidable c] {a b : State} (h : Abides z a) (k : Abides z b) : Abides z (if c then a else b) := by
  split <;> assumption

theorem Abides.each {α : Type} {l : List α} {f : State → α → State} (hf : ∀ s a, Abides s (f s a)) :
    Abides s (Machine.each l f s) := by
  induction l generalizing s with
  | nil => exact Abides.refl s
  | cons a l ih => exact (hf s a).trans ih

/-- Steps that reach none of these parts. -/
theorem Abides.quiet (hA : t.portA = s.portA) (hB : t.portB = s.portB) (hc : t.ctxs = s.ctxs) (hp : t.plans = s.plans)
    (hl : t.less = s.less) : Abides s t := by
  have port : ∀ p, t.port p = s.port p := fun p => by cases p; exacts [hA, hB]
  have plan : ∀ n, t.plan n = s.plan n := fun n => congrArg (·[n]) hp
  have les : ∀ n, t.les n = s.les n := fun n => congrArg (·[n]) hl
  exact ⟨fun p => by rw [port], fun p => by rw [port], fun k => congrArg (fun x : Vector CtxS 64 => x[k].due) hc,
    fun n => by rw [plan], fun n => by rw [plan], fun n h => by rwa [plan] at h, fun n => by rw [les]; exact ⟨rfl, rfl⟩⟩

theorem Reports.abides (h : Reports R s t) (hh : ∀ p, (s.port p).held <+: (t.port p).held) : Abides s t := by
  have hl : t.less = s.less := by rw [h.rest]
  have plan : ∀ n, t.plan n = s.plan n := fun n => congrArg (·[n]) h.plans
  have les : ∀ n, t.les n = s.les n := fun n => congrArg (·[n]) hl
  exact ⟨h.port, hh, fun k => (h.waiting k).2, fun n => by rw [plan], fun n => by rw [plan], fun n e => by rwa [plan] at e,
    fun n => by rw [les]; exact ⟨rfl, rfl⟩⟩

theorem State.port_wr (s : State) (f : Fld) (v : Nat) (p : Port) : (s.wr f v).port p = s.port p := by cases p <;> rfl

theorem State.wr_abides (s : State) (f : Fld) (v : Nat) : Abides s (s.wr f v) := .quiet rfl rfl rfl rfl rfl

theorem State.setPlan_abides (s : State) (n : Axis) {x : AxisPlan} (hu : x.useLes = (s.plan n).useLes)
    (ht : x.travelOut = (s.plan n).travelOut) (hh : x.homed = true → (s.plan n).homed = true) : Abides s (s.setPlan n x) := by
  have plan : ∀ {α : Type} (g : AxisPlan → α), g x = g (s.plan n) → ∀ m, g ((s.setPlan n x).plan m) = g (s.plan m) := by
    intro α g e m
    by_cases h : m = n
    · subst h; rw [State.plan_setPlan_self]; exact e
    · rw [State.plan_setPlan_ne _ _ h]
  refine ⟨fun _ => rfl, fun _ => List.prefix_rfl, fun _ => rfl, plan _ hu, plan _ ht, fun m => ?_, fun _ => ⟨rfl, rfl⟩⟩
  by_cases h : m = n
  · subst h; rw [State.plan_setPlan_self]; exact hh
  · rw [State.plan_setPlan_ne _ _ h]; exact id

theorem State.setLes_abides (s : State) (n : Axis) {x : LesS} (hx : x.xEst = (s.les n).xEst) (hw : x.w = (s.les n).w) :
    Abides s (s.setLes n x) := by
  refine ⟨fun _ => rfl, fun _ => List.prefix_rfl, fun _ => rfl, fun _ => rfl, fun _ => rfl, fun _ => id, fun m => ?_⟩
  by_cases h : m = n
  · subst h; rw [State.les_setLes_self]; exact ⟨hx, hw⟩
  · rw [State.les_setLes_ne _ _ h]; exact ⟨rfl, rfl⟩

/-! Records. -/

theorem State.issued_ports (s : State) (k : Ctx) (b : Bool) (p : Port) : (s.issued k b).port p = s.port p := by
  have message : ∀ (s : State) q k, (s.message q k).port p = s.port p := fun s q k => by
    unfold State.message
    split <;> rfl
  have signal : ∀ (s : State) k, (s.signal k).port p = s.port p := fun s k => by
    unfold State.signal
    extract_lets q
    split
    · rfl
    · exact message s q k
  unfold State.issued
  extract_lets c m c' s'
  split
  · exact signal s' k
  · rfl

theorem State.place_abides (s : State) (k : Ctx) (cls : Dma) (i ad : Nat) (ws : List Word) (b : Bool) :
    Abides s (s.place k cls i ad ws b) := by
  refine (State.place_reports k cls i ad ws b).abides fun p => ?_
  unfold State.place
  extract_lets q
  split
  · rw [State.issued_ports]
    exact List.prefix_rfl
  · rw [State.port_wr]
    by_cases h : p = q
    · rw [h, State.port_setPort_self]
      exact List.prefix_append _ _
    · rw [State.port_setPort_ne _ _ h]

theorem State.complete_abides (s : State) (k : Ctx) (ws : List Word) : Abides s (s.complete k ws) :=
  (s.wr_abides _ _).trans (State.place_abides _ k .completion _ _ _ false)

theorem State.putEvent_abides (s : State) (k : Ctx) (e : Event) : Abides s (s.putEvent k e) :=
  (s.wr_abides _ _).trans (State.place_abides _ k .event _ _ _ e.fault)

theorem State.eventTo_abides (s : State) (k : Ctx) (e : Event) : Abides s (s.eventTo k e) := by
  have lost : ∀ (s : State) n, Abides s (s.setCtx k { s.ctx k with lost := n }) := fun s n =>
    (State.setCtx_reports (R := eventReg) k _ rfl).abides fun p => List.prefix_rfl
  have flush : Abides s (s.flushLost k) := .ite ((lost s 0).trans (State.putEvent_abides _ k _)) (.refl s)
  have drop : ∀ s : State, Abides s (s.dropEvent k) := fun s =>
    Abides.trans (t := s.cnt (F.HIF_CTX_STAT_EV_DROP k)) (.quiet rfl rfl rfl rfl rfl) (lost _ _)
  exact .ite (flush.trans (.ite (State.putEvent_abides _ k e) (drop _))) (.refl s)

/-! Operations that end (R111, R133, R186). -/

theorem State.finish_abides (s : State) (tag : Nat) (st : Status) (t1 t2 detail fl : Nat) :
    Abides s (s.finish tag st t1 t2 detail fl) := by
  unfold State.finish
  split
  · exact .refl s
  · rename_i o _
    refine Abides.after (State.complete_abides _ o.ctx _) ?_
    rw [State.countEnd_rest]
    exact ⟨fun _ => rfl, fun _ => List.prefix_rfl, fun _ => rfl, fun n => by simp [State.plan],
      fun n => by simp [State.plan], fun n h => by simpa [State.plan] using h, fun _ => ⟨rfl, rfl⟩⟩

theorem State.stopStood_abides (s : State) (n : Axis) (t2 : Nat) : Abides s (s.stopStood n t2) :=
  .each fun s o =>
    have hs : Abides s (s.setOp { o with left := o.left.filter (· ≠ n) }) := .quiet rfl rfl rfl rfl rfl
    .ite (hs.trans (State.finish_abides _ _ _ _ _ _ _)) hs

theorem State.curtSettle_abides (s : State) (b : Bank) : Abides s (s.curtSettle b) :=
  .ite (s.wr_abides _ _) (.refl s)

theorem State.uncurtail_abides (s : State) (n : Axis) : Abides s (s.uncurtail n) :=
  Abides.after (State.curtSettle_abides _ _) (.quiet rfl rfl rfl rfl rfl)

/-! Axes that are turned off, or marked (R160, R351, R361). -/

theorem State.setHb_abides (s : State) (h : HalfBridge) (x : HbS) : Abides s (s.setHb h x) := .quiet rfl rfl rfl rfl rfl

theorem State.softStart_abides (s : State) (h : HalfBridge) : Abides s (s.softStart h) :=
  .ite (State.setHb_abides _ _ _) (.refl s)

theorem State.softSto_abides (s : State) (h : HalfBridge) : Abides s (s.softSto h) := by
  unfold State.softSto
  split
  · exact State.setHb_abides _ _ _
  · exact State.softStart_abides _ _

theorem State.reactOff_abides (s : State) (h : HalfBridge) : Abides s (s.reactOff h) :=
  (s.softStart_abides h).trans (State.setHb_abides _ _ _)

theorem State.setSs1_abides (s : State) (n : Axis) (x : Option Ss1) : Abides s (s.setSs1 n x) := .quiet rfl rfl rfl rfl rfl

theorem State.deenergise_abides (s : State) (n : Axis) : Abides s (s.deenergise n) := by
  unfold State.deenergise
  extract_lets p x v _ w _ y dem z'
  have hv : Abides s v := s.setPlan_abides n rfl rfl fun h => by
    obtain ⟨h, -⟩ := Bool.and_eq_true_iff.mp h
    exact h
  have hw : Abides s w := hv.trans (v.setLes_abides n rfl rfl)
  have hy : Abides s y := hw.trans (.quiet rfl rfl rfl rfl rfl)
  exact Abides.after (State.setSs1_abides _ _ _) (hy.trans (.ite (.quiet rfl rfl rfl rfl rfl) (.refl y)))

theorem State.unbook_abides (s : State) (n : Axis) : Abides s (s.unbook n) := s.setPlan_abides n rfl rfl id

theorem State.turnOff_abides (s : State) (n : Axis) (c : Cause) : Abides s (s.turnOff n c) := by
  unfold State.turnOff
  extract_lets isSto prog u own r v w x
  have hu : Abides s u := by
    unfold u
    cases prog
    · exact .refl s
    · exact State.finish_abides _ _ _ _ _ _ _
  have hv : Abides s v := hu.trans (.each fun _ _ => State.finish_abides _ _ _ _ _ _ _)
  have hw : Abides s w := hv.trans (.each fun _ _ => .ite (State.softSto_abides _ _) (State.reactOff_abides _ _))
  have hx : Abides s x := (hw.trans (State.deenergise_abides _ _)).trans (State.unbook_abides _ _)
  exact (hx.trans (State.stopStood_abides _ _ _)).trans (State.uncurtail_abides _ _)

theorem State.clearObs_abides (s : State) (n : Axis) : Abides s (s.clearObs n) := s.setLes_abides n rfl rfl

theorem State.reach_abides (s : State) (n : Axis) (c : Cause) (g : Bool) (due : Nat) : Abides s (s.reach n c g due) := by
  unfold State.reach
  extract_lets p fresh
  split
  · exact Abides.after (State.clearObs_abides _ _) (s.setPlan_abides n rfl rfl id)
  · exact .ite (.ite (s.setPlan_abides n rfl rfl id) (.ite (s.setPlan_abides n rfl rfl id) (.refl s)))
      (s.setPlan_abides n rfl rfl id)

theorem State.markSs1_abides (s : State) (n : Axis) (c : Cause) : Abides s (s.markSs1 n c) :=
  Abides.after (State.reach_abides _ _ _ _ _) (.ite (State.setSs1_abides _ _ _) (.refl s))

/-! Trips (R344 to R359). -/

theorem State.launch_abides (s : State) (src scope : Nat) (ob : Option Nat) : Abides s (s.launch src scope ob) :=
  .ite (.refl s) (.ite (.each fun _ _ => State.markSs1_abides _ _ _) (.each fun _ _ => State.turnOff_abides _ _ _))

theorem State.openWindow_abides (s : State) (src : Nat) (axes : List Axis) : Abides s (s.openWindow src axes) :=
  .ite (.refl s) (.quiet rfl rfl rfl rfl rfl)

theorem State.ledPush_abides (s : State) (typ : Nat) (data : List Word) (src : Option Nat) :
    Abides s (s.ledPush typ data src) := by
  obtain ⟨⟨r, q, l, e⟩, -⟩ := s.ledPush_shape typ data src
  rw [e]
  exact .quiet rfl rfl rfl rfl rfl

theorem State.faultRecord_abides (s : State) (src : Nat) (ob : Option Nat) (r : FaultRec) :
    Abides s (s.faultRecord src ob r) := by
  unfold State.faultRecord
  refine .ite (.refl s) ?_
  extract_lets d0 e i ws full _ u v w x
  have hu : Abides s u := .quiet rfl rfl rfl rfl rfl
  have hv : Abides s v := hu.trans (.ite (.quiet (by simp) (by simp) (by simp) (by simp) (by simp)) (.refl u))
  have hw : Abides s w := Abides.trans (t := v.cntWrap F.FCS_REC_CNT_RECS) (hv.trans (.quiet rfl rfl rfl rfl rfl))
    (State.wr_abides _ _ _)
  have hx : Abides s x := hw.trans (State.eventTo_abides _ 0 e)
  exact .ite (hx.trans (State.ledPush_abides _ _ _ _)) hx

theorem tripPrimary_abides (s : State) (x : SrcS) (ob : Option Nat) (loc : Bool) : Abides s (tripPrimary s x ob loc) := by
  unfold tripPrimary
  extract_lets src tag count st scope u v w
  have set : ∀ y, Abides s (s.setSrc y) := fun y => .quiet rfl rfl rfl rfl rfl
  exact .ite ((((set _).trans (State.openWindow_abides _ _ _)).trans (State.launch_abides _ _ _ _)).trans
    (State.faultRecord_abides _ _ _ _)) (.ite ((set _).trans (State.faultRecord_abides _ _ _ _)) (set _))

theorem tripSecondary_abides (s : State) (x : SrcS) (w : Win) (ob : Option Nat) (loc : Bool) :
    Abides s (tripSecondary s x w ob loc) := by
  unfold tripSecondary
  extract_lets src tag scope axes u v w'
  have set : ∀ y, Abides s (s.setSrc y) := fun y => .quiet rfl rfl rfl rfl rfl
  have seen : ∀ (s : State), Abides s (s.markSeen w src) := fun s => .quiet rfl rfl rfl rfl rfl
  exact .ite (((((set _).trans (seen _)).trans (State.openWindow_abides _ _ _)).trans (State.launch_abides _ _ _ _)).trans
    (State.faultRecord_abides _ _ _ _)) (.ite (set _) (((set _).trans (seen _)).trans (State.faultRecord_abides _ _ _ _)))

theorem tripLatched_abides (s : State) (x : SrcS) (ob : Option Nat) (loc : Bool) : Abides s (tripLatched s x ob loc) := by
  unfold tripLatched
  extract_lets since
  have set : ∀ y, Abides s (s.setSrc y) := fun y => .quiet rfl rfl rfl rfl rfl
  exact .ite ((set _).trans (State.faultRecord_abides _ _ _ _)) (set _)

theorem demandWindow_abides (a s : State) (k : Nat) : Abides s (demandWindow a s k) :=
  .ite (.refl s) (.ite (.quiet rfl rfl rfl rfl rfl) (State.openWindow_abides _ _ _))

theorem State.fcsStat_abides (s : State) : Abides s s.fcsStat := by
  obtain ⟨r, e⟩ := s.fcsStat_regs
  rw [e]
  exact .quiet rfl rfl rfl rfl rfl

/-- What a row writes comes behind what the ports held before it (R126). -/
theorem State.arranged_abides (h : Abides a s) : Abides a (State.arranged a s) := by
  have hold : ∀ p, ((State.arranged a s).port p).held = (s.port p).held.take (a.port p).held.length ++
      orderStreams Held.stream Held.words Held.withWords a.ops ((s.port p).held.drop (a.port p).held.length) := fun p => by
    cases p <;> rfl
  have port : ∀ p, (State.arranged a s).port p = { s.port p with held := ((State.arranged a s).port p).held } := fun p => by
    cases p <;> rfl
  refine ⟨fun p => by rw [port p, h.port p], fun p => ?_, h.due, h.source, h.travel, h.homed, h.est⟩
  rw [hold p, ← List.prefix_iff_eq_take.mp (h.held p)]
  exact List.prefix_append _ _

theorem State.trip_abides (s : State) (k : Nat) (act : Bool) (ob : Option Nat) (loc : Bool) :
    Abides s (s.trip k act ob loc) := by
  unfold State.trip
  extract_lets x x' u
  have hu : Abides s u := by
    refine .ite (tripLatched_abides _ _ _ _) ?_
    split
    · exact tripSecondary_abides _ _ _ _ _
    · exact tripPrimary_abides _ _ _ _
  exact .ite (.refl s) (State.arranged_abides ((hu.trans (demandWindow_abides _ _ _)).trans (State.fcsStat_abides _)))

end Abiding

end Sys2Proof.Machine

namespace Sys2Proof.Machine

section Latching

variable {s t u z : State} {n m : Axis} {f : Fld}

/-! ### Signed values of 64 bits (R76) -/

theorem State.rdS64_wrS64 (s : State) (o : Nat) (v : Int) : (s.wrS64 o v).rdS64 o = toSigned 64 (ofSigned 64 v) := by
  have h : ofSigned 64 v < 2 ^ 64 := by
    have := Int.emod_lt_of_pos v (show (0 : Int) < 2 ^ 64 by decide)
    unfold ofSigned
    omega
  rw [State.rdS64, State.wrS64, State.rd64_wr64 s o _ h]

/-- A value that a register pair holds is in its range. -/
theorem State.rdS64_fits (s : State) (o : Nat) : toSigned 64 (ofSigned 64 (s.rdS64 o)) = s.rdS64 o := by
  have hl := (s.reg o).isLt
  have hh := (s.reg (o + 4)).isLt
  have h : s.rd64 o < 2 ^ 64 := by
    unfold State.rd64
    omega
  refine toSigned_ofSigned ?_ ?_ <;> · unfold State.rdS64 toSigned; dsimp only; split <;> omega

theorem State.rdS64_of_reg {o : Nat} (h : t.reg o = s.reg o) (h' : t.reg (o + 4) = s.reg (o + 4)) : t.rdS64 o = s.rdS64 o := by
  unfold State.rdS64 State.rd64
  rw [h, h']

theorem State.reg_wrS64_ne (s : State) {o j : Nat} (v : Int) (h : j ≠ o) (h' : j ≠ o + 4) : (s.wrS64 o v).reg j = s.reg j :=
  (State.reg_setReg_ne _ _ h').trans (State.reg_setReg_ne _ _ h)

/-! ### FBK latches an axis (R327, R334 to R337) -/

/-- From s to t FBK has latched axis n: no more than its position, speed and status, and its own part, where what the compare
keeps stands. -/
structure Feeds (n : Axis) (s t : State) : Prop where
  rest : t = { s with regs := t.regs, seqDone := t.seqDone, cntNow := t.cntNow, fbks := t.fbks }
  regs : RegsBut [Reg.FBK_POS_LO n, Reg.FBK_POS_LO n + 4, Reg.FBK_SPEED n, Reg.FBK_STAT n] s t
  others : ∀ m, m ≠ n → t.fbk m = s.fbk m
  own : (t.fbk n).xPrev = (s.fbk n).xPrev

theorem Feeds.refl (s : State) : Feeds n s s := ⟨rfl, fun _ _ => rfl, fun _ _ => rfl, rfl⟩

theorem Feeds.trans (h : Feeds n s t) (k : Feeds n t u) : Feeds n s u where
  rest := by
    have e := k.rest
    rw [h.rest] at e
    exact e
  regs o ho := (k.regs o ho).trans (h.regs o ho)
  others m hm := (k.others m hm).trans (h.others m hm)
  own := k.own.trans h.own

theorem Feeds.ite {c : Prop} [Decidable c] {a b : State} (h : Feeds n z a) (k : Feeds n z b) :
    Feeds n z (if c then a else b) := by
  split <;> assumption

theorem State.setFbk_feeds (s : State) (n : Axis) {x : FbkS} (h : x.xPrev = (s.fbk n).xPrev) : Feeds n s (s.setFbk n x) :=
  ⟨rfl, fun _ _ => rfl, fun _ hm => State.fbk_setFbk_ne s x hm, by rw [State.fbk_setFbk_self]; exact h⟩

theorem State.setReg_feeds (s : State) (n : Axis) {o : Nat} (w : Word)
    (h : o ∈ [Reg.FBK_POS_LO n, Reg.FBK_POS_LO n + 4, Reg.FBK_SPEED n, Reg.FBK_STAT n]) : Feeds n s (s.setReg o w) :=
  ⟨rfl, fun _ ho => State.reg_setReg_ne s w fun e => ho (e ▸ h), fun _ _ => rfl, rfl⟩

theorem State.wrStat_feeds (s : State) (n : Axis) {f : Fld} (v : Nat) (h : f.off = Reg.FBK_STAT n) : Feeds n s (s.wr f v) :=
  s.setReg_feeds n _ (by rw [h]; simp)

theorem State.sqcStat_feeds (s : State) (n : Axis) {f : Fld} (h : f.off = Reg.FBK_STAT n) : Feeds n s (s.sqc f) := by
  obtain ⟨w, b, e⟩ := s.sqcMask_shape f.off (2 ^ f.lo)
  rw [State.sqc, e]
  exact (s.setReg_feeds n w (by rw [h]; simp)).trans ⟨rfl, fun _ _ => rfl, fun _ _ => rfl, rfl⟩

theorem State.cntStat_feeds (s : State) (n : Axis) {f : Fld} (k : Nat) (h : f.off = Reg.FBK_STAT n) : Feeds n s (s.cnt f k) :=
  Feeds.trans (t := s.noteCnt f k) ⟨rfl, fun _ _ => rfl, fun _ _ => rfl, rfl⟩ (State.wrStat_feeds _ n _ h)

theorem State.wrPos_feeds (s : State) (n : Axis) (v : Int) : Feeds n s (s.wrS64 (Reg.FBK_POS_LO n) v) :=
  (s.setReg_feeds n _ (by simp)).trans (State.setReg_feeds _ n _ (by simp))

theorem State.wrSpeed_feeds (s : State) (n : Axis) (v : Int) : Feeds n s (s.wrS (F.FBK_SPEED_SPEED n) v) :=
  s.setReg_feeds n _ (by simp [F.FBK_SPEED_SPEED])

/-- The unfinished word that a latch point abandons (R326). -/
def State.wordLate (s : State) (n : Axis) : State :=
  if (s.fbk n).word.isSome then (s.sqc (F.FBK_STAT_LATE n)).wordError n else s

/-- The half-frame of axis n is an error half-frame (R327). -/
def State.latchError (s : State) (n : Axis) (pos : Int) (f : FbkS) : State :=
  ((s.carryOn n pos).setFbk n f).cnt (F.FBK_STAT_ERRCNT n)

/-- The position and speed of axis n are good (R334, R335). -/
def State.latchGood (s : State) (n : Axis) (pos speed : Int) (f : FbkS) : State :=
  ((s.wrS64 (Reg.FBK_POS_LO n) pos).wrS (F.FBK_SPEED_SPEED n) speed).setFbk n f

/-- The standstill flag of a quadrature axis (R335). -/
def State.stillShown (s : State) (n : Axis) (b : Option Bool) : State :=
  match b with | some b => s.wrB (F.FBK_STAT_STILL n) b | none => s

theorem latchAxis_eq (s : State) (n : Axis) : latchAxis s n =
    let pos := s.rdS64 (Reg.FBK_POS_LO n)
    if isSerial s n then
      let s := s.wordLate n
      let f := s.fbk n
      match f.fresh with
      | some t =>
        let v := serialSpeed f.words
        let x : Int := match f.words.head? with | some w => w.1 | none => pos
        s.latchGood n (roundRat (x + v * ((s.clk : Rat) - t) / clkHz)) (satSpeed v)
          { f with fresh := none, errRun := 0, err := false, bad := false }
      | none => s.latchError n pos { f with errRun := f.errRun + 1, err := false, bad := true }
    else if isQuad s n then
      let r := quadSpeed (s.fbk n) s.clk (usClk (s.rd (F.FBK_SPD_SST n)))
      let f := r.1
      let s := s.stillShown n r.2
      if f.err then s.latchError n pos { f with vEdge := (s.fbk n).vEdge, errRun := f.errRun + 1, err := false, bad := true }
      else s.latchGood n (xEnc s n f.u) (satSpeed (f.vEdge * s.rd (F.FBK_RATIO_RATIO n) / 65536)) { f with errRun := 0, bad := false }
    else s := by
  unfold latchAxis State.wordLate State.latchGood State.latchError State.stillShown
  rfl

theorem quadSpeed_keeps (f : FbkS) (c k : Nat) : (quadSpeed f c k).1 = { f with
    vEdge := (quadSpeed f c k).1.vEdge, eRef := (quadSpeed f c k).1.eRef } := by
  unfold quadSpeed
  extract_lets idle
  split
  · rfl
  · split
    · split <;> rfl
    · rfl

theorem State.wordLate_feeds (s : State) (n : Axis) : Feeds n s (s.wordLate n) :=
  .ite ((s.sqcStat_feeds n rfl).trans (State.setFbk_feeds _ n rfl)) (.refl s)

theorem State.latchError_feeds (s : State) (n : Axis) (pos : Int) {f : FbkS} (h : f.xPrev = (s.fbk n).xPrev) :
    Feeds n s (s.latchError n pos f) :=
  ((s.wrPos_feeds n _).trans (State.setFbk_feeds _ n h)).trans (State.cntStat_feeds _ n 1 rfl)

theorem State.latchGood_feeds (s : State) (n : Axis) (pos v : Int) {f : FbkS} (h : f.xPrev = (s.fbk n).xPrev) :
    Feeds n s (s.latchGood n pos v f) :=
  ((s.wrPos_feeds n _).trans (State.wrSpeed_feeds _ n _)).trans (State.setFbk_feeds _ n h)

theorem State.stillShown_feeds (s : State) (n : Axis) (b : Option Bool) : Feeds n s (s.stillShown n b) := by
  cases b with
  | none => exact .refl s
  | some b => exact s.wrStat_feeds n _ rfl

theorem State.stillShown_fbk (s : State) (n : Axis) (b : Option Bool) : (s.stillShown n b).fbk n = s.fbk n := by
  cases b <;> rfl

theorem latchAxis_feeds (s : State) (n : Axis) : Feeds n s (latchAxis s n) := by
  rw [latchAxis_eq]
  extract_lets pos u f v x r g w
  refine .ite ?_ (.ite (.ite ?_ ?_) (.refl s))
  · have hu : Feeds n s u := s.wordLate_feeds n
    split
    · exact hu.trans (u.latchGood_feeds n _ _ rfl)
    · exact hu.trans (u.latchError_feeds n _ rfl)
  all_goals
    have hw : Feeds n s w := s.stillShown_feeds n _
    have hg : g.xPrev = (w.fbk n).xPrev := by
      rw [s.stillShown_fbk, show g = _ from quadSpeed_keeps _ _ _]
  · exact hw.trans (w.latchError_feeds n _ hg)
  · exact hw.trans (w.latchGood_feeds n _ _ hg)

theorem satSpeed_fits (q : Rat) : -(2 ^ 32 : Int) ≤ 2 * satSpeed q ∧ 2 * satSpeed q < 2 ^ 32 := by
  obtain ⟨h1, h2⟩ := clampInt_mem (lo := -2147483648) (hi := 2147483647) (by decide) (roundRat q)
  unfold satSpeed
  omega

section Facts

variable (s : State) (n : Axis) (pos : Int) (x : FbkS)

theorem State.latchError_fbk : (s.latchError n pos x).fbk n = x := State.fbk_setFbk_self (s.carryOn n pos) n x

theorem State.latchError_pos : (s.latchError n pos x).rdS64 (Reg.FBK_POS_LO n) =
    toSigned 64 (ofSigned 64 (roundRat (pos + (s.rdS (F.FBK_SPEED_SPEED n) : Rat) * s.halfSec))) := by
  have h : ∀ {k}, k = 0 ∨ k = 4 → (s.latchError n pos x).reg (Reg.FBK_POS_LO n + k) =
      (s.carryOn n pos).reg (Reg.FBK_POS_LO n + k) := fun {k} hk => State.reg_cnt_ne _ 1 (by
    change 0x201b0 + 0x400 * n.val + k ≠ 0x201cc + 0x400 * n.val
    omega)
  exact (State.rdS64_of_reg (h (.inl rfl)) (h (.inr rfl))).trans (State.rdS64_wrS64 s _ _)

theorem State.latchError_rd {f : Fld} (h : f.off = Reg.FBK_SPEED n ∨ f.off = Reg.FBK_STAT n ∧ f.ok = true ∧ f.hi < 16) :
    (s.latchError n pos x).rd f = s.rd f := by
  have hpos : (s.carryOn n pos).rd f = s.rd f := State.rd_of_reg (State.reg_wrS64_ne s _
    (by rcases h with h | ⟨h, -⟩ <;> rw [h] <;> simp [Reg.FBK_SPEED, Reg.FBK_STAT, Reg.FBK_POS_LO])
    (by rcases h with h | ⟨h, -⟩ <;> · rw [h]; simp only [Reg.FBK_SPEED, Reg.FBK_STAT, Reg.FBK_POS_LO]; omega))
  refine (State.rd_cnt_ne _ 1 ?_).trans hpos
  rcases h with h | ⟨-, h, hi⟩
  · exact .inl (by rw [h]; simp [F.FBK_STAT_ERRCNT, Reg.FBK_SPEED, Reg.FBK_STAT])
  · refine .inr ⟨rfl, h, ?_⟩
    simp [Fld.apart, F.FBK_STAT_ERRCNT, hi]

theorem State.latchError_count : (s.latchError n pos x).rd (F.FBK_STAT_ERRCNT n) = min 255 (s.rd (F.FBK_STAT_ERRCNT n) + 1) := by
  have hpos : (s.carryOn n pos).rd (F.FBK_STAT_ERRCNT n) = s.rd (F.FBK_STAT_ERRCNT n) := State.rd_of_reg (State.reg_wrS64_ne s _
    (by simp [F.FBK_STAT_ERRCNT, Reg.FBK_STAT, Reg.FBK_POS_LO]) (by simp [F.FBK_STAT_ERRCNT, Reg.FBK_STAT, Reg.FBK_POS_LO]; omega))
  refine (State.rd_cnt_self _ (f := F.FBK_STAT_ERRCNT n) rfl 1).trans ?_
  rw [show ((s.carryOn n pos).setFbk n x).rd (F.FBK_STAT_ERRCNT n) = s.rd (F.FBK_STAT_ERRCNT n) from hpos, Nat.min_comm]
  rfl

variable {v : Int}

theorem State.latchGood_fbk : (s.latchGood n pos v x).fbk n = x := by
  unfold State.latchGood
  exact State.fbk_setFbk_self _ n x

theorem State.latchGood_pos : (s.latchGood n pos v x).rdS64 (Reg.FBK_POS_LO n) = toSigned 64 (ofSigned 64 pos) := by
  have h : ∀ {k}, k = 0 ∨ k = 4 → (s.latchGood n pos v x).reg (Reg.FBK_POS_LO n + k) =
      (s.wrS64 (Reg.FBK_POS_LO n) pos).reg (Reg.FBK_POS_LO n + k) := fun {k} hk => State.reg_setReg_ne _ _ (by
    change 0x201b0 + 0x400 * n.val + k ≠ 0x201c0 + 0x400 * n.val
    omega)
  exact (State.rdS64_of_reg (h (.inl rfl)) (h (.inr rfl))).trans (State.rdS64_wrS64 s _ _)

theorem State.latchGood_speed (q : Rat) : (s.latchGood n pos (satSpeed q) x).rdS (F.FBK_SPEED_SPEED n) = satSpeed q :=
  (State.rdS_of_reg rfl).trans (State.rdS_wrS_self (f := F.FBK_SPEED_SPEED n) (s.wrS64 (Reg.FBK_POS_LO n) pos) rfl
    (satSpeed_fits q).1 (satSpeed_fits q).2)

end Facts

/-! ### The kinds of half-frame (R327, R334, R335) -/

theorem State.wordLate_none (h : (s.fbk n).word = none) : s.wordLate n = s := if_neg (by rw [h]; decide)

/-- A serial axis with a good word. -/
theorem latchAxis_serial {a : Rat} (hs : isSerial s n = true) (hw : (s.fbk n).word = none) (hf : (s.fbk n).fresh = some a) :
    latchAxis s n = s.latchGood n
      (roundRat (((match (s.fbk n).words.head? with | some w => w.1 | none => s.rdS64 (Reg.FBK_POS_LO n) : Int) : Rat) +
        serialSpeed (s.fbk n).words * ((s.clk : Rat) - a) / clkHz))
      (satSpeed (serialSpeed (s.fbk n).words)) { s.fbk n with fresh := none, errRun := 0, err := false, bad := false } := by
  rw [latchAxis_eq]
  dsimp only
  rw [if_pos hs, State.wordLate_none hw, hf]

/-- A serial axis without one, its unfinished word abandoned. -/
theorem latchAxis_serial_error (hs : isSerial s n = true) (h : (s.fbk n).word.isSome = true ∨ (s.fbk n).fresh = none) :
    latchAxis s n = (s.wordLate n).latchError n (s.rdS64 (Reg.FBK_POS_LO n))
      { (s.wordLate n).fbk n with errRun := ((s.wordLate n).fbk n).errRun + 1, err := false, bad := true } := by
  have hf : ((s.wordLate n).fbk n).fresh = none := by
    unfold State.wordLate
    split
    · unfold State.wordError
      rw [State.fbk_setFbk_self]
    · rename_i hw
      exact h.resolve_left hw
  rw [latchAxis_eq]
  dsimp only
  rw [if_pos hs, hf]

theorem serial_not_quad (h : isQuad s n = true) : isSerial s n = false := by
  unfold isQuad at h
  unfold isSerial
  rw [of_decide_eq_true h]
  rfl

/-- The part of a quadrature axis with its speed from the edges, and its standstill shown. -/
def quadNow (s : State) (n : Axis) : FbkS := (quadSpeed (s.fbk n) s.clk (usClk (s.rd (F.FBK_SPD_SST n)))).1
def State.quadStill (s : State) (n : Axis) : State :=
  s.stillShown n (quadSpeed (s.fbk n) s.clk (usClk (s.rd (F.FBK_SPD_SST n)))).2

theorem quadNow_keeps (s : State) (n : Axis) : quadNow s n = { s.fbk n with
    vEdge := (quadNow s n).vEdge, eRef := (quadNow s n).eRef } := quadSpeed_keeps _ _ _

/-- A quadrature axis in whose half-frame an edge was illegal. -/
theorem latchAxis_quad_error (hq : isQuad s n = true) (he : (s.fbk n).err = true) :
    latchAxis s n = (s.quadStill n).latchError n (s.rdS64 (Reg.FBK_POS_LO n))
      { quadNow s n with
        vEdge := ((s.quadStill n).fbk n).vEdge, errRun := (quadNow s n).errRun + 1, err := false, bad := true } := by
  have h : (quadNow s n).err = true := by rw [quadNow_keeps]; exact he
  rw [latchAxis_eq]
  dsimp only
  rw [if_neg (by rw [serial_not_quad hq]; decide), if_pos hq]
  exact if_pos h

theorem latchAxis_quad (hq : isQuad s n = true) (he : (s.fbk n).err = false) :
    latchAxis s n = (s.quadStill n).latchGood n (xEnc (s.quadStill n) n (quadNow s n).u)
      (satSpeed ((quadNow s n).vEdge * (s.quadStill n).rd (F.FBK_RATIO_RATIO n) / 65536))
      { quadNow s n with errRun := 0, bad := false } := by
  have h : (quadNow s n).err = false := by rw [quadNow_keeps]; exact he
  rw [latchAxis_eq]
  dsimp only
  rw [if_neg (by rw [serial_not_quad hq]; decide), if_pos hq]
  exact if_neg (by rw [show (quadSpeed _ _ _).1.err = false from h]; decide)

/-! What the two steps before it leave. -/

theorem State.wordLate_rd (s : State) (n : Axis) {f : Fld} (h : f.off ≠ Reg.FBK_STAT n ∨
    f.ok = true ∧ f.hi < 24 ∧ f.off = Reg.FBK_STAT n ∧ 4 < f.lo) : (s.wordLate n).rd f = s.rd f := by
  unfold State.wordLate
  split
  · rcases h with h | ⟨h1, h2, h3, h4⟩
    · exact State.rd_sqc_off s h
    · exact State.rd_sqc_apart s h1 h2 h3 (.inl h4)
  · rfl

theorem State.wordLate_errRun (s : State) (n : Axis) : ((s.wordLate n).fbk n).errRun = (s.fbk n).errRun := by
  unfold State.wordLate
  split
  · unfold State.wordError
    rw [State.fbk_setFbk_self]
    exact congrArg (fun x : Vector FbkS 32 => x[n].errRun) (s.sqc_fbks (F.FBK_STAT_LATE n))
  · rfl

theorem State.wordLate_word (s : State) (n : Axis) : ((s.wordLate n).fbk n).word = none ∧
    ((s.fbk n).word.isSome → (s.wordLate n).flag (F.FBK_STAT_LATE n)) := by
  unfold State.wordLate
  split
  · unfold State.wordError
    rw [State.fbk_setFbk_self]
    exact ⟨rfl, fun _ => State.flag_sqc s (f := F.FBK_STAT_LATE n) rfl (show 4 < 24 by decide)⟩
  · rename_i h
    exact ⟨by simpa using h, fun h' => absurd h' h⟩

theorem State.quadStill_rd (s : State) (n : Axis) {f : Fld} (h : f.off ≠ Reg.FBK_STAT n ∨ f.ok = true ∧ 8 < f.lo) :
    (s.quadStill n).rd f = s.rd f := by
  unfold State.quadStill State.stillShown
  split
  · exact State.rd_wr_ne s _ (h.imp_right fun h => ⟨rfl, h.1, by simp [Fld.apart, F.FBK_STAT_STILL, h.2]⟩)
  · rfl

end Latching

end Sys2Proof.Machine

namespace Sys2Proof.Machine

section Comparing

variable {s t u z : State} {n m : Axis} {t0 : Nat}

/-! ### The work of a latch point on one axis (R333, R339, R361) -/

/-- The registers of axis n that a latch point may write: those of its feedback, from FBK_POS_LO on. -/
def fedReg (n : Axis) (o : Nat) : Bool := 0x201b0 + 0x400 * n.val ≤ o && o < 0x20200 + 0x400 * n.val

theorem fedReg_mem (n : Axis) {b : Nat} (h : 0x201b0 ≤ b) (h' : b < 0x20200) : fedReg n (b + 0x400 * n.val) = true := by
  simp only [fedReg, Bool.and_eq_true, decide_eq_true_eq]
  omega

/-- From s to t the latch point has worked on axis n alone: its feedback, its CLP, its references and its SS1 monitor, the
events of its compare, and the sources it has found. -/
structure Works (n : Axis) (s t : State) : Prop where
  rest : t = { s with
    regs := t.regs, seqDone := t.seqDone, cntNow := t.cntNow, inClk := { s.inClk with trips := t.inClk.trips }
    portA := t.portA, portB := t.portB, ctxs := t.ctxs, sent := t.sent, plans := t.plans, clps := t.clps, fbks := t.fbks
    fcs := { s.fcs with ss1 := t.fcs.ss1 } }
  regs : ∀ o, fedReg n o = false → eventReg o = false → t.reg o = s.reg o
  others : ∀ m, m ≠ n → t.plan m = s.plan m ∧ t.clp m = s.clp m ∧ t.fbk m = s.fbk m
  plan : t.plan n = { s.plan n with homed := (t.plan n).homed, travelOut := (t.plan n).travelOut }
  trips : ∃ l, t.inClk.trips = s.inClk.trips ++ l ∧ ∀ x ∈ l, x.src = 36 ∨ x.src = 128 + 16 * n.val + 10

theorem Works.refl (s : State) : Works n s s := ⟨rfl, fun _ _ _ => rfl, fun _ _ => ⟨rfl, rfl, rfl⟩, rfl, [], by simp⟩

theorem Works.trans (h : Works n s t) (k : Works n t u) : Works n s u where
  rest := by
    have e := k.rest
    rw [h.rest] at e
    exact e
  regs o ho he := (k.regs o ho he).trans (h.regs o ho he)
  others m hm := by
    obtain ⟨h1, h2, h3⟩ := h.others m hm
    obtain ⟨k1, k2, k3⟩ := k.others m hm
    exact ⟨k1.trans h1, k2.trans h2, k3.trans h3⟩
  plan := by
    have e := k.plan
    rw [h.plan] at e
    exact e
  trips := by
    obtain ⟨l, e1, h1⟩ := h.trips
    obtain ⟨m, e2, h2⟩ := k.trips
    refine ⟨l ++ m, by rw [e2, e1, List.append_assoc], fun x hx => ?_⟩
    exact (List.mem_append.1 hx).elim (h1 x) (h2 x)

theorem Works.ite {c : Prop} [Decidable c] {a b : State} (h : Works n z a) (k : Works n z b) : Works n z (if c then a else b) := by
  split <;> assumption

theorem Feeds.works (h : Feeds n s t) : Works n s t where
  rest := by
    rw [h.rest]
  regs o ho _ := h.regs o fun hm => by
    have : ∀ x, x ∈ [Reg.FBK_POS_LO n, Reg.FBK_POS_LO n + 4, Reg.FBK_SPEED n, Reg.FBK_STAT n] → fedReg n x = true := by
      simp only [fedReg, Reg.FBK_POS_LO, Reg.FBK_SPEED, Reg.FBK_STAT, List.mem_cons, List.not_mem_nil, or_false,
        Bool.and_eq_true, decide_eq_true_eq]
      omega
    rw [this o hm] at ho
    cases ho
  others m hm := ⟨by rw [h.rest]; rfl, by rw [h.rest]; rfl, h.others m hm⟩
  plan := by rw [h.rest]; rfl
  trips := ⟨[], by rw [h.rest]; simp⟩

theorem Reports.works (h : Reports eventReg s t) : Works n s t where
  rest := by
    have e := h.unstored (by decide +kernel)
    rw [e]
  regs o _ he := h.regs o he
  others m _ := ⟨by rw [h.rest]; rfl, by rw [h.rest]; rfl, by rw [h.rest]; rfl⟩
  plan := by rw [h.rest]; rfl
  trips := ⟨[], by rw [h.rest]; simp⟩

theorem State.setReg_works (s : State) {o : Nat} (w : Word) (h : fedReg n o = true) : Works n s (s.setReg o w) :=
  ⟨rfl, fun j hj _ => State.reg_setReg_ne s w fun e => Bool.false_ne_true (hj.symm.trans (e ▸ h)),
    fun _ _ => ⟨rfl, rfl, rfl⟩, rfl, [], by simp⟩

theorem State.wr_works (s : State) {f : Fld} (v : Nat) (h : fedReg n f.off = true) : Works n s (s.wr f v) := s.setReg_works _ h

theorem State.cnt_works (s : State) {f : Fld} (k : Nat) (h : fedReg n f.off = true) : Works n s (s.cnt f k) :=
  Works.trans (t := s.noteCnt f k) ⟨rfl, fun _ _ _ => rfl, fun _ _ => ⟨rfl, rfl, rfl⟩, rfl, [], by simp [State.noteCnt]⟩
    (State.wr_works _ _ h)

theorem State.cntWrap_works (s : State) {f : Fld} (k : Nat) (h : fedReg n f.off = true) : Works n s (s.cntWrap f k) :=
  Works.trans (t := s.noteCnt f k) ⟨rfl, fun _ _ _ => rfl, fun _ _ => ⟨rfl, rfl, rfl⟩, rfl, [], by simp [State.noteCnt]⟩
    (State.wr_works _ _ h)

theorem State.sqc_works (s : State) {f : Fld} (h : fedReg n f.off = true) : Works n s (s.sqc f) := by
  obtain ⟨w, b, e⟩ := s.sqcMask_shape f.off (2 ^ f.lo)
  rw [State.sqc, e]
  exact (s.setReg_works w h).trans ⟨rfl, fun _ _ _ => rfl, fun _ _ => ⟨rfl, rfl, rfl⟩, rfl, [], by simp⟩

theorem State.wrS64_works (s : State) {o : Nat} (v : Int) (h : fedReg n o = true) (h' : fedReg n (o + 4) = true) :
    Works n s (s.wrS64 o v) := (s.setReg_works _ h).trans (State.setReg_works _ _ h')

theorem State.setFbk_works (s : State) (x : FbkS) : Works n s (s.setFbk n x) :=
  ⟨rfl, fun _ _ _ => rfl, fun _ hm => ⟨rfl, rfl, State.fbk_setFbk_ne s x hm⟩, rfl, [], by simp⟩

theorem State.setClp_works (s : State) (x : ClpS) : Works n s (s.setClp n x) :=
  ⟨rfl, fun _ _ _ => rfl, fun _ hm => ⟨rfl, State.clp_setClp_ne s x hm, rfl⟩, rfl, [], by simp⟩

theorem State.setPlan_works (s : State) {x : AxisPlan}
    (h : x = { s.plan n with homed := x.homed, travelOut := x.travelOut }) : Works n s (s.setPlan n x) :=
  ⟨rfl, fun _ _ _ => rfl, fun _ hm => ⟨State.plan_setPlan_ne s x hm, rfl, rfl⟩, by rw [State.plan_setPlan_self]; exact h, [],
    by simp⟩

theorem State.setSs1_works (s : State) (x : Option Ss1) : Works n s (s.setSs1 n x) :=
  ⟨rfl, fun _ _ _ => rfl, fun _ _ => ⟨rfl, rfl, rfl⟩, rfl, [], by simp [State.setSs1]⟩

theorem State.detect_works (s : State) (k : Nat) (act : Bool) (ob : Option Nat) (h : k = 36 ∨ k = 128 + 16 * n.val + 10) :
    Works n s (s.detect k act ob) :=
  ⟨rfl, fun _ _ _ => rfl, fun _ _ => ⟨rfl, rfl, rfl⟩, rfl, [⟨k, act, ob, false⟩], rfl,
    fun x hx => by rw [List.mem_singleton.1 hx]; exact h⟩

/-! ### The compare (R339, R340) -/

/-- The axis at the compare: it keeps the position of this latch point. -/
def State.compared (s : State) (n : Axis) : State := s.setFbk n { s.fbk n with xPrev := actX s n, hit := false }

theorem State.flag_setFbk (s : State) (n : Axis) (x : FbkS) (f : Fld) : (s.setFbk n x).flag f = s.flag f := rfl

/-- The compare arms: its next position is its register's. -/
def State.armed (s : State) (n : Axis) (x : Rat) : State :=
  let next := s.rdS64 (Reg.FBK_CMP_LO n)
  let v := actV s n
  ((s.wrS64 (Reg.FBK_CMP_NEXT_LO n) next).wr (F.FBK_CMP_STAT_ARMED n) 1).wrB (F.FBK_CMP_STAT_BEHIND n)
    (Decidable.decide ((0 < v ∧ (next : Rat) ≤ x) ∨ (v < 0 ∧ x < next)))

theorem compareAxis_arms (h : s.flag (F.FBK_CMP_CTRL_ARM n) = true) : compareAxis s n t0 =
    let v := (s.compared n).goEnd (F.FBK_CMP_CTRL_ARM n) id
    if s.flag (F.FBK_CMP_CTRL_EN n) then v.armed n (actX s n) else v.wr (F.FBK_CMP_STAT_ARMED n) 0 := by
  unfold compareAxis
  dsimp only
  rw [State.flag_setFbk, if_pos h]
  cases s.flag (F.FBK_CMP_CTRL_EN n) <;> rfl

theorem compareAxis_off (h : s.flag (F.FBK_CMP_CTRL_ARM n) = false) (he : s.flag (F.FBK_CMP_CTRL_EN n) = false) :
    compareAxis s n t0 = (s.compared n).wr (F.FBK_CMP_STAT_ARMED n) 0 := by
  unfold compareAxis
  dsimp only
  rw [State.flag_setFbk, h, he]
  rfl

/-- How many positions of the compare were crossed up to this latch point (R339). -/
def crossings (s : State) (n : Axis) : Nat :=
  hitCount (s.fbk n).xPrev (actX s n) (s.rdS64 (Reg.FBK_CMP_NEXT_LO n)) (s.rd (F.FBK_CMP_SPACE_SPACE n))

theorem compareAxis_waits (h : s.flag (F.FBK_CMP_CTRL_ARM n) = false) (he : s.flag (F.FBK_CMP_CTRL_EN n) = true)
    (hk : s.flag (F.FBK_CMP_STAT_ARMED n) = false ∨ crossings s n = 0) : compareAxis s n t0 = s.compared n := by
  unfold compareAxis
  dsimp only
  rw [State.flag_setFbk, State.flag_setFbk, h, he, if_neg (by decide), if_neg (by decide)]
  split
  · rfl
  · rename_i ha
    have hk : crossings s n = 0 := hk.resolve_left fun e => ha (by rw [e]; rfl)
    exact if_pos hk

/-- The compare has counted k crossings. -/
def State.crossed (s : State) (n : Axis) (k : Nat) : State :=
  let v := (((s.cntWrap (F.FBK_CMP_HITS_HITS n) k).cnt (F.FBK_CMP_STAT_MISSED n) (k - 4)).sqc (F.FBK_CMP_STAT_HIT n)).wr
    (F.FBK_CMP_STAT_BEHIND n) 0
  v.setFbk n { v.fbk n with hit := true }

theorem compareAxis_crosses (h : s.flag (F.FBK_CMP_CTRL_ARM n) = false) (he : s.flag (F.FBK_CMP_CTRL_EN n) = true)
    (ha : s.flag (F.FBK_CMP_STAT_ARMED n) = true) (hk : crossings s n ≠ 0) :
    ∃ e, Reports eventReg (s.compared n) e ∧ compareAxis s n t0 =
      let space := s.rd (F.FBK_CMP_SPACE_SPACE n)
      let d : Int := if (s.fbk n).xPrev < actX s n then 1 else -1
      if space = 0 then (e.crossed n (crossings s n)).wr (F.FBK_CMP_STAT_ARMED n) 0
      else (e.crossed n (crossings s n)).wrS64 (Reg.FBK_CMP_NEXT_LO n)
        (s.rdS64 (Reg.FBK_CMP_NEXT_LO n) + d * (crossings s n * space : Nat)) := by
  unfold compareAxis
  dsimp only
  rw [State.flag_setFbk, State.flag_setFbk, h, he, if_neg (by decide), if_neg (by decide), ha,
    if_neg (by decide)]
  refine ⟨_, ?_, if_neg hk⟩
  exact Reports.each fun s i => Reports.each fun s k => State.eventTo_reports k _

/-- The registers of the compare of axis n. -/
def cmpRegs (n : Axis) : List Nat :=
  [Reg.FBK_CMP_CTRL n, Reg.FBK_CMP_STAT n, Reg.FBK_CMP_NEXT_LO n, Reg.FBK_CMP_NEXT_LO n + 4, Reg.FBK_CMP_HITS n]

theorem cmpRegs_fed {o : Nat} (h : o ∈ cmpRegs n) : fedReg n o = true := by
  have h : o = 0x201e4 + 0x400 * n.val ∨ o = 0x201f4 + 0x400 * n.val ∨ o = 0x201e8 + 0x400 * n.val ∨
      o = 0x201e8 + 0x400 * n.val + 4 ∨ o = 0x201f0 + 0x400 * n.val := by
    simpa only [cmpRegs, List.mem_cons, List.not_mem_nil, or_false, Reg.FBK_CMP_CTRL, Reg.FBK_CMP_STAT, Reg.FBK_CMP_NEXT_LO,
      Reg.FBK_CMP_HITS] using h
  simp only [fedReg, Bool.and_eq_true, decide_eq_true_eq]
  omega

/-- From s to t the compare of axis n has worked: its registers, its events, and that it hit. -/
structure Marks (n : Axis) (s t : State) : Prop where
  works : Works n s t
  regs : ∀ o, o ∉ cmpRegs n → eventReg o = false → t.reg o = s.reg o
  fbk : t.fbk n = { s.fbk n with hit := (t.fbk n).hit }
  same : t.plans = s.plans ∧ t.clps = s.clps ∧ t.inClk = s.inClk

theorem Marks.refl (s : State) : Marks n s s := ⟨.refl s, fun _ _ _ => rfl, rfl, rfl, rfl, rfl⟩

theorem Marks.trans (h : Marks n s t) (k : Marks n t u) : Marks n s u where
  works := h.works.trans k.works
  regs o ho he := (k.regs o ho he).trans (h.regs o ho he)
  fbk := by
    have e := k.fbk
    rw [h.fbk] at e
    exact e
  same := by
    obtain ⟨h1, h2, h3⟩ := h.same
    obtain ⟨k1, k2, k3⟩ := k.same
    exact ⟨k1.trans h1, k2.trans h2, k3.trans h3⟩

theorem Marks.ite {c : Prop} [Decidable c] {a b : State} (h : Marks n z a) (k : Marks n z b) : Marks n z (if c then a else b) := by
  split <;> assumption

theorem Reports.marks (h : Reports eventReg s t) : Marks n s t :=
  ⟨h.works, fun o _ he => h.regs o he, by rw [h.rest]; rfl, by rw [h.rest], by rw [h.rest], by rw [h.rest]⟩

theorem State.setReg_marks (s : State) {o : Nat} (w : Word) (h : o ∈ cmpRegs n) : Marks n s (s.setReg o w) :=
  ⟨s.setReg_works w (cmpRegs_fed h), fun _ hj _ => State.reg_setReg_ne s w fun e => hj (e ▸ h), rfl, rfl, rfl, rfl⟩

theorem State.wr_marks (s : State) {f : Fld} (v : Nat) (h : f.off ∈ cmpRegs n) : Marks n s (s.wr f v) := s.setReg_marks _ h

theorem State.note_marks (s : State) (q : List (Nat × Word)) (c : List (Nat × Nat × Nat)) :
    Marks n s { s with seqDone := q, cntNow := c } :=
  ⟨⟨rfl, fun _ _ _ => rfl, fun _ _ => ⟨rfl, rfl, rfl⟩, rfl, [], by simp⟩, fun _ _ _ => rfl, rfl, rfl, rfl, rfl⟩

theorem State.cnt_marks (s : State) {f : Fld} (k : Nat) (h : f.off ∈ cmpRegs n) : Marks n s (s.cnt f k) :=
  (s.note_marks s.seqDone (s.noteCnt f k).cntNow).trans (State.wr_marks _ _ h)

theorem State.cntWrap_marks (s : State) {f : Fld} (k : Nat) (h : f.off ∈ cmpRegs n) : Marks n s (s.cntWrap f k) :=
  (s.note_marks s.seqDone (s.noteCnt f k).cntNow).trans (State.wr_marks _ _ h)

theorem State.sqc_marks (s : State) {f : Fld} (h : f.off ∈ cmpRegs n) : Marks n s (s.sqc f) := by
  obtain ⟨w, b, e⟩ := s.sqcMask_shape f.off (2 ^ f.lo)
  rw [State.sqc, e]
  exact (s.setReg_marks w h).trans (State.note_marks _ b _)

theorem State.wrNext_marks (s : State) (v : Int) : Marks n s (s.wrS64 (Reg.FBK_CMP_NEXT_LO n) v) :=
  (s.setReg_marks _ (by simp [cmpRegs])).trans (State.setReg_marks _ _ (by simp [cmpRegs]))

theorem State.hit_marks (s : State) (b : Bool) : Marks n s (s.setFbk n { s.fbk n with hit := b }) :=
  ⟨s.setFbk_works _, fun _ _ _ => rfl, by rw [State.fbk_setFbk_self], rfl, rfl, rfl⟩

theorem cmpStat_mem : Reg.FBK_CMP_STAT n ∈ cmpRegs n := by simp [cmpRegs]

theorem State.goEnd_marks (s : State) : Marks n s (s.goEnd (F.FBK_CMP_CTRL_ARM n) id) :=
  .ite (.refl s) (s.wr_marks 0 (by simp [cmpRegs, F.FBK_CMP_CTRL_ARM]))

theorem State.armed_marks (s : State) (x : Rat) : Marks n s (s.armed n x) :=
  ((s.wrNext_marks _).trans (State.wr_marks _ 1 cmpStat_mem)).trans (State.wr_marks _ _ cmpStat_mem)

theorem State.crossed_marks (s : State) (k : Nat) : Marks n s (s.crossed n k) :=
  ((((s.cntWrap_marks k (by simp [cmpRegs, F.FBK_CMP_HITS_HITS])).trans (State.cnt_marks _ _ cmpStat_mem)).trans
    (State.sqc_marks _ cmpStat_mem)).trans (State.wr_marks _ 0 cmpStat_mem)).trans (State.hit_marks _ true)

theorem compareAxis_marks (s : State) (n : Axis) (t0 : Nat) : Marks n (s.compared n) (compareAxis s n t0) := by
  cases h : s.flag (F.FBK_CMP_CTRL_ARM n) with
  | true =>
    rw [compareAxis_arms h]
    exact (State.goEnd_marks _).trans (.ite (State.armed_marks _ _) (State.wr_marks _ 0 cmpStat_mem))
  | false =>
    cases he : s.flag (F.FBK_CMP_CTRL_EN n) with
    | false =>
      rw [compareAxis_off h he]
      exact State.wr_marks _ 0 cmpStat_mem
    | true =>
      by_cases hk : s.flag (F.FBK_CMP_STAT_ARMED n) = false ∨ crossings s n = 0
      · rw [compareAxis_waits h he hk]
        exact .refl _
      · simp only [not_or, Bool.not_eq_false] at hk
        obtain ⟨e, hr, hc⟩ := compareAxis_crosses h he hk.1 hk.2 (t0 := t0)
        rw [hc]
        exact (hr.marks.trans (State.crossed_marks e _)).trans (.ite (State.wr_marks _ 0 cmpStat_mem) (State.wrNext_marks _ _))

/-! What the compare shows. -/

theorem State.armed_shows (s : State) (x : Rat) : (s.armed n x).flag (F.FBK_CMP_STAT_ARMED n) = true ∧
    (s.armed n x).rdS64 (Reg.FBK_CMP_NEXT_LO n) = s.rdS64 (Reg.FBK_CMP_LO n) ∧
    ∀ f : Fld, f.off = Reg.FBK_CMP_CTRL n → (s.armed n x).flag f = s.flag f := by
  unfold State.armed
  extract_lets next v
  have apart : ∀ {o}, o ≠ Reg.FBK_CMP_STAT n → ∀ w : Nat, ∀ b : Bool, ∀ z : State,
      ((z.wr (F.FBK_CMP_STAT_ARMED n) w).wrB (F.FBK_CMP_STAT_BEHIND n) b).reg o = z.reg o := fun h w b z =>
    (State.reg_setReg_ne _ _ h).trans (State.reg_setReg_ne _ _ h)
  refine ⟨?_, ?_, fun f hf => ?_⟩
  · rw [State.flag, State.wrB, State.rd_wr_ne _ _ (.inr ⟨rfl, rfl, rfl⟩), State.rd_wr_self _ (f := F.FBK_CMP_STAT_ARMED n) rfl]
    rfl
  · refine (State.rdS64_of_reg (apart ?_ _ _ _) (apart ?_ _ _ _)).trans ((s.rdS64_wrS64 _ next).trans (s.rdS64_fits _))
    all_goals
      unfold Reg.FBK_CMP_NEXT_LO Reg.FBK_CMP_STAT
      omega
  · refine State.flag_of_reg ?_
    rw [hf]
    refine (apart ?_ _ _ _).trans (State.reg_wrS64_ne s _ ?_ ?_) <;>
      · simp only [Reg.FBK_CMP_CTRL, Reg.FBK_CMP_STAT, Reg.FBK_CMP_NEXT_LO]
        omega

theorem State.goEnd_shows (s : State) (h : s.flag (F.FBK_CMP_CTRL_ARM n) = true) :
    (s.goEnd (F.FBK_CMP_CTRL_ARM n) id).flag (F.FBK_CMP_CTRL_ARM n) = s.goNow (F.FBK_CMP_CTRL_ARM n) := by
  unfold State.goEnd
  cases hg : s.goNow (F.FBK_CMP_CTRL_ARM n) with
  | true => exact h
  | false =>
    rw [if_neg (by decide), State.flag, State.rd_wr_self _ (f := F.FBK_CMP_CTRL_ARM n) rfl]
    rfl

/-- ARM at a latch point (R340). -/
theorem compareAxis_armed (h : s.flag (F.FBK_CMP_CTRL_ARM n) = true) : let t := compareAxis s n t0
    (t.fbk n).hit = false ∧ t.flag (F.FBK_CMP_CTRL_ARM n) = s.goNow (F.FBK_CMP_CTRL_ARM n) ∧
      t.flag (F.FBK_CMP_STAT_ARMED n) = s.flag (F.FBK_CMP_CTRL_EN n) ∧
      (s.flag (F.FBK_CMP_CTRL_EN n) = true → t.rdS64 (Reg.FBK_CMP_NEXT_LO n) = s.rdS64 (Reg.FBK_CMP_LO n)) := by
  intro t
  have hg := (s.compared n).goEnd_shows (n := n) h
  have hm := State.goEnd_marks (n := n) (s.compared n)
  have hfbk : (((s.compared n).goEnd (F.FBK_CMP_CTRL_ARM n) id).fbk n).hit = false := by
    unfold State.goEnd
    have : ((s.compared n).fbk n).hit = false := by rw [State.compared, State.fbk_setFbk_self]
    split <;> exact this
  have ht : t = _ := compareAxis_arms h
  generalize (s.compared n).goEnd (F.FBK_CMP_CTRL_ARM n) id = v at *
  have lo : v.rdS64 (Reg.FBK_CMP_LO n) = s.rdS64 (Reg.FBK_CMP_LO n) := by
    have reg : ∀ k, k = 0 ∨ k = 4 → v.reg (0x201d8 + 0x400 * n.val + k) = (s.compared n).reg (0x201d8 + 0x400 * n.val + k) := by
      intro k hk
      refine hm.regs _ ?_ ?_
      · simp only [cmpRegs, Reg.FBK_CMP_CTRL, Reg.FBK_CMP_STAT, Reg.FBK_CMP_NEXT_LO, Reg.FBK_CMP_HITS, List.mem_cons,
          List.not_mem_nil, or_false]
        omega
      · exact eventReg_low (by omega)
    exact State.rdS64_of_reg (reg 0 (.inl rfl)) (reg 4 (.inr rfl))
  rw [ht]
  dsimp only
  cases he : s.flag (F.FBK_CMP_CTRL_EN n) with
  | true =>
    obtain ⟨h1, h2, h3⟩ := v.armed_shows (n := n) (actX s n)
    rw [if_pos rfl]
    refine ⟨?_, (h3 _ rfl).trans hg, h1, fun _ => h2.trans lo⟩
    exact hfbk
  | false =>
    rw [if_neg (by decide)]
    refine ⟨hfbk, (State.flag_wr_off v 0 ?_).trans hg, ?_, fun e => by cases e⟩
    · simp [F.FBK_CMP_CTRL_ARM, F.FBK_CMP_STAT_ARMED, Reg.FBK_CMP_CTRL, Reg.FBK_CMP_STAT]
    · rw [State.flag, State.rd_wr_self _ (f := F.FBK_CMP_STAT_ARMED n) rfl]
      rfl

theorem State.crossed_shows (s : State) (k : Nat) : let t := s.crossed n k
    t.rd (F.FBK_CMP_HITS_HITS n) = (s.rd (F.FBK_CMP_HITS_HITS n) + k) % 2 ^ 32 ∧ (t.fbk n).hit = true ∧
      t.flag (F.FBK_CMP_STAT_HIT n) = true ∧ t.flag (F.FBK_CMP_STAT_ARMED n) = s.flag (F.FBK_CMP_STAT_ARMED n) ∧
      t.rdS64 (Reg.FBK_CMP_NEXT_LO n) = s.rdS64 (Reg.FBK_CMP_NEXT_LO n) := by
  intro t
  let a := s.cntWrap (F.FBK_CMP_HITS_HITS n) k
  let b := a.cnt (F.FBK_CMP_STAT_MISSED n) (k - 4)
  let c := b.sqc (F.FBK_CMP_STAT_HIT n)
  have stat : ∀ {o}, o ≠ Reg.FBK_CMP_STAT n → t.reg o = a.reg o := fun h =>
    (State.reg_wr_ne c 0 h).trans ((State.reg_sqc_ne b h).trans (State.reg_cnt_ne a (k - 4) h))
  have hits : ∀ {o}, o ≠ Reg.FBK_CMP_STAT n → o ≠ Reg.FBK_CMP_HITS n → t.reg o = s.reg o := fun h h' =>
    (stat h).trans (State.reg_wr_ne (s.noteCnt _ k) _ h')
  have ha : a.rd (F.FBK_CMP_STAT_ARMED n) = s.rd (F.FBK_CMP_STAT_ARMED n) :=
    State.rd_wr_off (s.noteCnt (F.FBK_CMP_HITS_HITS n) k) _ (by
      simp only [F.FBK_CMP_STAT_ARMED, F.FBK_CMP_HITS_HITS, Reg.FBK_CMP_STAT, Reg.FBK_CMP_HITS]
      omega)
  refine ⟨?_, congrArg FbkS.hit (State.fbk_setFbk_self _ n _), ?_, ?_, State.rdS64_of_reg (hits ?_ ?_) (hits ?_ ?_)⟩
  · refine (State.rd_of_reg (stat ?_)).trans ((State.rd_wr_self (s.noteCnt (F.FBK_CMP_HITS_HITS n) k)
      (f := F.FBK_CMP_HITS_HITS n) rfl _).trans (Nat.mod_mod _ _))
    simp only [F.FBK_CMP_HITS_HITS, Reg.FBK_CMP_STAT, Reg.FBK_CMP_HITS]
    omega
  · have hc : c.flag (F.FBK_CMP_STAT_HIT n) = true := State.flag_sqc b rfl (show 2 < 24 by decide)
    rw [State.flag] at hc ⊢
    rw [← hc]
    exact congrArg (fun x => Decidable.decide (x % 2 = 1)) (State.rd_wr_ne c 0 (.inr ⟨rfl, rfl, rfl⟩))
  · have h : t.rd (F.FBK_CMP_STAT_ARMED n) = s.rd (F.FBK_CMP_STAT_ARMED n) := by
      refine (State.rd_wr_ne c 0 (.inr ⟨rfl, rfl, rfl⟩)).trans ((State.rd_sqc_apart b (f := F.FBK_CMP_STAT_HIT n) (g := F.FBK_CMP_STAT_ARMED n) rfl
        (show 0 < 24 by decide) rfl (.inr (show 0 < 2 by decide))).trans ((State.rd_cnt_ne a (k - 4) (.inr ⟨rfl, rfl, rfl⟩)).trans ha))
    rw [State.flag, h]
    rfl
  all_goals
    simp only [Reg.FBK_CMP_NEXT_LO, Reg.FBK_CMP_STAT, Reg.FBK_CMP_HITS]
    omega

/-- The crossings of a latch point (R339). -/
theorem compareAxis_counts (h : s.flag (F.FBK_CMP_CTRL_ARM n) = false) (he : s.flag (F.FBK_CMP_CTRL_EN n) = true)
    (ha : s.flag (F.FBK_CMP_STAT_ARMED n) = true) : let t := compareAxis s n t0
    let next := s.rdS64 (Reg.FBK_CMP_NEXT_LO n)
    let space := s.rd (F.FBK_CMP_SPACE_SPACE n)
    let k := crossings s n
    let d : Int := if (s.fbk n).xPrev < actX s n then 1 else -1
    t.rd (F.FBK_CMP_HITS_HITS n) = (s.rd (F.FBK_CMP_HITS_HITS n) + k) % 2 ^ 32 ∧
      (t.fbk n).hit = decide (k ≠ 0) ∧ (k ≠ 0 → t.flag (F.FBK_CMP_STAT_HIT n) = true) ∧
      t.flag (F.FBK_CMP_STAT_ARMED n) = decide (k = 0 ∨ space ≠ 0) ∧
      t.rdS64 (Reg.FBK_CMP_NEXT_LO n) = (if k = 0 ∨ space = 0 then next
        else toSigned 64 (ofSigned 64 (next + d * (k * space : Nat)))) := by
  intro t next space k d
  by_cases hk : k = 0
  · have ht : t = s.compared n := compareAxis_waits h he (.inr hk)
    rw [ht, hk]
    refine ⟨(Nat.mod_eq_of_lt (s.rd_lt (F.FBK_CMP_HITS_HITS n))).symm, ?_, fun e => absurd rfl e, ha, rfl⟩
    rw [State.compared, State.fbk_setFbk_self]
    rfl
  · obtain ⟨e, hr, ht⟩ := compareAxis_crosses h he ha hk (t0 := t0)
    have rd : ∀ {o}, o < 0x40000 → e.reg o = s.reg o := fun ho => hr.regs _ (eventReg_low ho)
    obtain ⟨c1, c2, c3, c4, c5⟩ := e.crossed_shows (n := n) k
    have e1 : e.rd (F.FBK_CMP_HITS_HITS n) = s.rd (F.FBK_CMP_HITS_HITS n) :=
      State.rd_of_reg (rd (show 0x201f0 + 0x400 * n.val < 0x40000 by omega))
    have e4 : e.flag (F.FBK_CMP_STAT_ARMED n) = true :=
      (State.flag_of_reg (rd (show 0x201f4 + 0x400 * n.val < 0x40000 by omega))).trans ha
    have e5 : e.rdS64 (Reg.FBK_CMP_NEXT_LO n) = next := State.rdS64_of_reg
      (rd (show 0x201e8 + 0x400 * n.val < 0x40000 by omega)) (rd (show 0x201e8 + 0x400 * n.val + 4 < 0x40000 by omega))
    rw [e1] at c1
    rw [e4] at c4
    rw [e5] at c5
    generalize e.crossed n k = w at *
    have hits : Reg.FBK_CMP_HITS n ≠ Reg.FBK_CMP_NEXT_LO n ∧ Reg.FBK_CMP_HITS n ≠ Reg.FBK_CMP_NEXT_LO n + 4 ∧
        Reg.FBK_CMP_STAT n ≠ Reg.FBK_CMP_NEXT_LO n ∧ Reg.FBK_CMP_STAT n ≠ Reg.FBK_CMP_NEXT_LO n + 4 ∧
        Reg.FBK_CMP_HITS n ≠ Reg.FBK_CMP_STAT n := by
      simp only [Reg.FBK_CMP_HITS, Reg.FBK_CMP_STAT, Reg.FBK_CMP_NEXT_LO]
      omega
    obtain ⟨n1, n2, n3, n4, n5⟩ := hits
    by_cases hs : space = 0
    · have ht : t = w.wr (F.FBK_CMP_STAT_ARMED n) 0 := ht.trans (if_pos hs)
      rw [ht, if_pos (.inr hs)]
      refine ⟨(State.rd_wr_off w 0 n5).trans c1, c2.trans (by simp [hk]), fun _ => ?_, ?_, ?_⟩
      · rw [State.flag, State.rd_wr_ne w 0 (.inr ⟨rfl, rfl, rfl⟩)]
        exact c3
      · rw [State.flag, State.rd_wr_self _ (f := F.FBK_CMP_STAT_ARMED n) rfl]
        simp [hk, hs]
      · exact (State.rdS64_of_reg (State.reg_wr_ne w 0 n3.symm) (State.reg_wr_ne w 0 n4.symm)).trans c5
    · have ht : t = w.wrS64 (Reg.FBK_CMP_NEXT_LO n) (next + d * (k * space : Nat)) := ht.trans (if_neg hs)
      rw [ht, if_neg (not_or.mpr ⟨hk, hs⟩)]
      refine ⟨(State.rd_of_reg (State.reg_wrS64_ne w _ n1 n2)).trans c1, c2.trans (by simp [hk]), fun _ => ?_, ?_,
        w.rdS64_wrS64 _ _⟩
      · exact (State.flag_of_reg (State.reg_wrS64_ne w _ n3 n4)).trans c3
      · exact (State.flag_of_reg (State.reg_wrS64_ne w _ n3 n4)).trans (c4.trans (by simp [hs]))

end Comparing

end Sys2Proof.Machine

namespace Sys2Proof.Machine

section Point

variable {s t u z : State} {n m : Axis} {t0 : Nat}

/-! ### One axis at a latch point (R198, R333, R339) -/

theorem homedByAbsolute_works (s : State) (n : Axis) : Works n s (homedByAbsolute s n) :=
  .ite (s.setPlan_works rfl) (.refl s)

theorem travelAxis_works (s : State) (n : Axis) : Works n s (travelAxis s n) := by
  unfold travelAxis
  extract_lets out was _ v
  have hv : Works n s v := s.setPlan_works rfl
  exact .ite (hv.trans (v.detect_works _ _ _ (.inr rfl))) hv

theorem ss1Axis_works (s : State) (n : Axis) : Works n s (ss1Axis s n) := by
  unfold ss1Axis
  split
  · exact .refl s
  · split
    · exact .refl s
    · extract_lets v ssv slow j hd t v0 d env bad w
      have hw : Works n s w := s.setSs1_works _
      exact .ite (hw.trans (w.detect_works _ _ _ (.inl rfl))) hw

/-- The axis as FBK has latched it and CLP has taken it. -/
def State.handed (s : State) (n : Axis) : State :=
  let s := homedByAbsolute (latchAxis s n) n
  let s := s.setFbk n { s.fbk n with steps := s.rdS (F.FBK_STEP_STEP n) }
  let c := s.clp n
  s.setClp n { c with xLat := actX s n, vLat := actV s n, tLat := s.clk, xLatOld := c.xLat, vLatOld := c.vLat, tLatOld := c.tLat }

theorem latchOne_on (h : fbkOn s n = true) : latchOne t0 s n = ss1Axis (travelAxis (compareAxis (s.handed n) n t0) n) n := by
  unfold latchOne
  rw [if_neg (by rw [h]; decide)]
  rfl

theorem latchOne_off (h : fbkOn s n = false) : latchOne t0 s n = s := if_pos (by rw [h]; rfl)

theorem State.handed_works (s : State) (n : Axis) : Works n s (s.handed n) :=
  (((latchAxis_feeds s n).works.trans (homedByAbsolute_works _ n)).trans (State.setFbk_works _ _)).trans (State.setClp_works _ _)

theorem State.compared_works (s : State) (n : Axis) : Works n s (s.compared n) := s.setFbk_works _

theorem latchOne_works (t0 : Nat) (s : State) (n : Axis) : Works n s (latchOne t0 s n) := by
  cases h : fbkOn s n with
  | false =>
    rw [latchOne_off h]
    exact .refl s
  | true =>
    rw [latchOne_on h]
    exact (((s.handed_works n).trans (State.compared_works _ n)).trans (compareAxis_marks _ n t0).works).trans
      ((travelAxis_works _ n).trans (ss1Axis_works _ n))

theorem homedByAbsolute_fbks (s : State) (n : Axis) : (homedByAbsolute s n).fbks = s.fbks ∧ (homedByAbsolute s n).clps = s.clps ∧
    (homedByAbsolute s n).regs = s.regs := by
  unfold homedByAbsolute
  split <;> exact ⟨rfl, rfl, rfl⟩

theorem travelAxis_regs (s : State) (n : Axis) : (travelAxis s n).regs = s.regs ∧ (travelAxis s n).fbks = s.fbks ∧
    (travelAxis s n).clps = s.clps := by
  unfold travelAxis
  extract_lets out was _ v
  split <;> exact ⟨rfl, rfl, rfl⟩

theorem ss1Axis_regs (s : State) (n : Axis) : (ss1Axis s n).regs = s.regs ∧ (ss1Axis s n).fbks = s.fbks ∧
    (ss1Axis s n).clps = s.clps ∧ (ss1Axis s n).plans = s.plans := by
  unfold ss1Axis
  split
  · exact ⟨rfl, rfl, rfl, rfl⟩
  · split
    · exact ⟨rfl, rfl, rfl, rfl⟩
    · extract_lets v ssv slow j hd t v0 d env bad w
      split <;> exact ⟨rfl, rfl, rfl, rfl⟩

/-- What the active position and speed of axis n are read from. -/
structure Shows (n : Axis) (s t : State) : Prop where
  page : ∀ b, 0x20000 ≤ b → b < 0x201e4 → t.reg (b + 0x400 * n.val) = s.reg (b + 0x400 * n.val)
  source : (t.plan n).useLes = (s.plan n).useLes
  est : (t.les n).xEst = (s.les n).xEst ∧ (t.les n).w = (s.les n).w

theorem cmpRegs_apart (n : Axis) {b : Nat} (h : b < 0x201e4) : b + 0x400 * n.val ∉ cmpRegs n := by
  simp only [cmpRegs, Reg.FBK_CMP_CTRL, Reg.FBK_CMP_STAT, Reg.FBK_CMP_NEXT_LO, Reg.FBK_CMP_HITS, List.mem_cons,
    List.not_mem_nil, or_false]
  omega

theorem Shows.pos (h : Shows n s t) : t.rdS64 (Reg.FBK_POS_LO n) = s.rdS64 (Reg.FBK_POS_LO n) :=
  State.rdS64_of_reg (h.page 0x201b0 (by decide) (by decide))
    (by rw [show Reg.FBK_POS_LO n + 4 = 0x201b4 + 0x400 * n.val by unfold Reg.FBK_POS_LO; omega]
        exact h.page _ (by decide) (by decide))

theorem Shows.actLes (h : Shows n s t) : actLes t n = actLes s n := by
  have e : t.rd (F.FBK_CFG_MODE n) = s.rd (F.FBK_CFG_MODE n) := State.rd_of_reg (h.page 0x20180 (by decide) (by decide))
  rw [Machine.actLes, encoder, e, h.source]
  rfl

theorem Shows.actX (h : Shows n s t) : actX t n = actX s n := by
  rw [Machine.actX, h.actLes, h.est.1, h.pos]
  rfl

theorem Shows.actV (h : Shows n s t) : actV t n = actV s n := by
  have e : t.rdS (F.FBK_SPEED_SPEED n) = s.rdS (F.FBK_SPEED_SPEED n) :=
    State.rdS_of_reg (h.page 0x201c0 (by decide) (by decide))
  rw [Machine.actV, h.actLes, h.est.2, e]
  rfl

theorem Works.est (h : Works n s t) : (t.les m).xEst = (s.les m).xEst ∧ (t.les m).w = (s.les m).w := by
  rw [h.rest]
  exact ⟨rfl, rfl⟩

theorem Works.source (h : Works n s t) : (t.plan n).useLes = (s.plan n).useLes := by rw [h.plan]

theorem Marks.shows (h : Marks n s t) : Shows n s t :=
  ⟨fun _ _ hb => h.regs _ (cmpRegs_apart n hb) (eventReg_low (by omega)), h.works.source, h.works.est⟩

theorem Works.shows (h : Works n s t) (hr : t.regs = s.regs) : Shows n s t :=
  ⟨fun _ _ _ => by rw [State.reg, hr]; rfl, h.source, h.est⟩

theorem Shows.trans (h : Shows n s t) (k : Shows n t u) : Shows n s u :=
  ⟨fun b h1 h2 => (k.page b h1 h2).trans (h.page b h1 h2), k.source.trans h.source,
    k.est.1.trans h.est.1, k.est.2.trans h.est.2⟩

/-! ### What a latch point leaves of an axis -/

/-- From s to t axis n has latched. -/
structure Latched (n : Axis) (s t : State) : Prop where
  works : Works n s t
  kept : ∀ o, o ∉ cmpRegs n → o < 0x40000 → t.reg o = (latchAxis s n).reg o
  fbk : t.fbk n = { (latchAxis s n).fbk n with
    steps := s.rdS (F.FBK_STEP_STEP n), xPrev := actX t n, hit := (t.fbk n).hit }
  clp : t.clp n = { s.clp n with
    xLat := actX t n, vLat := actV t n, tLat := s.clk, xLatOld := (s.clp n).xLat, vLatOld := (s.clp n).vLat
    tLatOld := (s.clp n).tLat }
  arms : s.flag (F.FBK_CMP_CTRL_ARM n) = true → (t.fbk n).hit = false ∧
    t.flag (F.FBK_CMP_CTRL_ARM n) = s.goNow (F.FBK_CMP_CTRL_ARM n) ∧
    t.flag (F.FBK_CMP_STAT_ARMED n) = s.flag (F.FBK_CMP_CTRL_EN n) ∧
    (s.flag (F.FBK_CMP_CTRL_EN n) = true → t.rdS64 (Reg.FBK_CMP_NEXT_LO n) = s.rdS64 (Reg.FBK_CMP_LO n))
  counts : s.flag (F.FBK_CMP_CTRL_ARM n) = false → s.flag (F.FBK_CMP_CTRL_EN n) = true →
    s.flag (F.FBK_CMP_STAT_ARMED n) = true →
    let next := s.rdS64 (Reg.FBK_CMP_NEXT_LO n)
    let space := s.rd (F.FBK_CMP_SPACE_SPACE n)
    let k := hitCount (s.fbk n).xPrev (actX t n) next space
    let d : Int := if (s.fbk n).xPrev < actX t n then 1 else -1
    t.rd (F.FBK_CMP_HITS_HITS n) = (s.rd (F.FBK_CMP_HITS_HITS n) + k) % 2 ^ 32 ∧
      (t.fbk n).hit = decide (k ≠ 0) ∧ (k ≠ 0 → t.flag (F.FBK_CMP_STAT_HIT n) = true) ∧
      t.flag (F.FBK_CMP_STAT_ARMED n) = decide (k = 0 ∨ space ≠ 0) ∧
      t.rdS64 (Reg.FBK_CMP_NEXT_LO n) = (if k = 0 ∨ space = 0 then next
        else toSigned 64 (ofSigned 64 (next + d * (k * space : Nat))))
  travel : s.energised n = true → (t.plan n).homed = true → (s.plan n).travelOut = false →
    inTravel t n (actX t n) = false →
    ∃ l, t.inClk.trips = s.inClk.trips ++ l ∧ (l.map (·.src)).count (128 + 16 * n.val + 10) = 1

/-- The axis before the compare, beside FBK's latching. -/
structure AtCompare (n : Axis) (s t : State) : Prop where
  regs : t.regs = (latchAxis s n).regs
  fbk : t.fbk n = { (latchAxis s n).fbk n with steps := s.rdS (F.FBK_STEP_STEP n) }
  clp : t.clp n = { s.clp n with
    xLat := actX t n, vLat := actV t n, tLat := s.clk, xLatOld := (s.clp n).xLat, vLatOld := (s.clp n).vLat
    tLatOld := (s.clp n).tLat }
  clock : t.inClk = s.inClk
  travel : (t.plan n).travelOut = (s.plan n).travelOut

theorem State.handed_at (s : State) (n : Axis) : AtCompare n s (s.handed n) := by
  have hf := latchAxis_feeds s n
  have hw := homedByAbsolute_works (latchAxis s n) n
  obtain ⟨e1, e2, e3⟩ := homedByAbsolute_fbks (latchAxis s n) n
  have hclk : (homedByAbsolute (latchAxis s n) n).inClk = (latchAxis s n).inClk := by
    unfold homedByAbsolute
    split <;> rfl
  unfold State.handed
  extract_lets a _ b c
  have hc : c = s.clp n := (congrArg (fun x : Vector ClpS 32 => x[n]) e2).trans (by rw [hf.rest]; rfl)
  have hb : b.fbk n = { a.fbk n with steps := a.rdS (F.FBK_STEP_STEP n) } := State.fbk_setFbk_self a n _
  have ha : a.fbk n = (latchAxis s n).fbk n := congrArg (fun x : Vector FbkS 32 => x[n]) e1
  have hreg : ∀ o, a.reg o = (latchAxis s n).reg o := fun o => congrArg (fun x => fileGet resetWord x o) e3
  have hsteps : a.rdS (F.FBK_STEP_STEP n) = s.rdS (F.FBK_STEP_STEP n) := by
    refine State.rdS_of_reg ((hreg _).trans (hf.regs _ ?_))
    simp [F.FBK_STEP_STEP, Reg.FBK_STEP, Reg.FBK_POS_LO, Reg.FBK_SPEED, Reg.FBK_STAT]
    omega
  have htime : b.clk = s.clk := by
    rw [show b.clk = (latchAxis s n).clk from (congrArg State.clk hw.rest :), hf.rest]
  have htravel : (a.plan n).travelOut = (s.plan n).travelOut := by
    have e : ((latchAxis s n).plan n).travelOut = (s.plan n).travelOut := by rw [hf.rest]; rfl
    unfold a homedByAbsolute
    split
    · rw [State.plan_setPlan_self]
      exact e
    · exact e
  refine ⟨e3, hb.trans (by rw [hsteps, ha]), ?_, hclk.trans (by rw [hf.rest]), htravel⟩
  refine (State.clp_setClp_self b n _).trans ?_
  rw [hc, htime]
  rfl

theorem AtCompare.flag (h : AtCompare n s t) {f : Fld} (hf : f.off ∉
    [Reg.FBK_POS_LO n, Reg.FBK_POS_LO n + 4, Reg.FBK_SPEED n, Reg.FBK_STAT n]) : t.reg f.off = s.reg f.off := by
  rw [State.reg, h.regs]
  exact (latchAxis_feeds s n).regs _ hf

theorem ss1Axis_trips (s : State) (n : Axis) :
    ∃ l, (ss1Axis s n).inClk.trips = s.inClk.trips ++ l ∧ ∀ x ∈ l, x.src = 36 := by
  unfold ss1Axis
  split
  · exact ⟨[], by simp⟩
  · split
    · exact ⟨[], by simp⟩
    · extract_lets v ssv slow j hd t v0 d env bad w
      have hw : w.inClk = s.inClk := rfl
      clear_value w
      split
      · exact ⟨[⟨36, false, some n.val, false⟩], by rw [← hw]; rfl, by simp⟩
      · exact ⟨[], by rw [hw]; simp⟩

/-- Crossing a travel limit is found once (R194). -/
theorem travelAxis_detects (he : s.energised n = true) (hh : ((travelAxis s n).plan n).homed = true)
    (hw : (s.plan n).travelOut = false) (hx : inTravel s n (actX s n) = false) :
    (travelAxis s n).inClk.trips = s.inClk.trips ++ [⟨128 + 16 * n.val + 10, false, none, false⟩] := by
  have homed : ((travelAxis s n).plan n).homed = (s.plan n).homed := by
    unfold travelAxis
    extract_lets out was _ v
    have hv : (v.plan n).homed = (s.plan n).homed := (congrArg AxisPlan.homed (State.plan_setPlan_self s n _)).trans rfl
    split <;> exact hv
  unfold travelAxis
  rw [he, ← homed, hh, hx, hw]
  rfl

theorem AtCompare.reads (h : AtCompare n s t) {b : Nat} (hb : b ∉ [0x201b0, 0x201b4, 0x201c0, 0x201cc]) :
    t.reg (b + 0x400 * n.val) = s.reg (b + 0x400 * n.val) := by
  simp only [List.mem_cons, List.not_mem_nil, or_false, not_or] at hb
  refine h.flag (f := ⟨b + 0x400 * n.val, 0, 0⟩) ?_
  simp only [Reg.FBK_POS_LO, Reg.FBK_SPEED, Reg.FBK_STAT, List.mem_cons, List.not_mem_nil, or_false]
  omega

theorem State.rdS64_page (h : ∀ b, b = 0x201d8 ∨ b = 0x201dc ∨ b = 0x201e8 ∨ b = 0x201ec →
      t.reg (b + 0x400 * n.val) = s.reg (b + 0x400 * n.val)) :
    t.rdS64 (Reg.FBK_CMP_LO n) = s.rdS64 (Reg.FBK_CMP_LO n) ∧
      t.rdS64 (Reg.FBK_CMP_NEXT_LO n) = s.rdS64 (Reg.FBK_CMP_NEXT_LO n) := by
  constructor
  · refine State.rdS64_of_reg (h _ (.inl rfl)) ?_
    rw [show Reg.FBK_CMP_LO n + 4 = 0x201dc + 0x400 * n.val by unfold Reg.FBK_CMP_LO; omega]
    exact h _ (.inr (.inl rfl))
  · refine State.rdS64_of_reg (h _ (.inr (.inr (.inl rfl)))) ?_
    rw [show Reg.FBK_CMP_NEXT_LO n + 4 = 0x201ec + 0x400 * n.val by unfold Reg.FBK_CMP_NEXT_LO; omega]
    exact h _ (.inr (.inr (.inr rfl)))

theorem latchOne_latched (t0 : Nat) (hon : fbkOn s n = true) : Latched n s (latchOne t0 s n) := by
  have hh := s.handed_at n
  have hm := compareAxis_marks (s.handed n) n t0
  have hw := travelAxis_works (compareAxis (s.handed n) n t0) n
  have hx := ss1Axis_works (travelAxis (compareAxis (s.handed n) n t0) n) n
  obtain ⟨w1, w2, w3⟩ := travelAxis_regs (compareAxis (s.handed n) n t0) n
  obtain ⟨x1, x2, x3, x4⟩ := ss1Axis_regs (travelAxis (compareAxis (s.handed n) n t0) n) n
  have hshow : Shows n (s.handed n) (compareAxis (s.handed n) n t0) :=
    (((s.handed n).compared_works n).shows rfl).trans hm.shows
  have hlast : Shows n (compareAxis (s.handed n) n t0) (latchOne t0 s n) := by
    rw [latchOne_on hon]
    exact (hw.shows w1).trans (hx.shows x1)
  have ht := latchOne_on (t0 := t0) hon
  have hall := hshow.trans hlast
  have hwork := latchOne_works t0 s n
  have harm := compareAxis_armed (s := s.handed n) (n := n) (t0 := t0)
  have hcount := compareAxis_counts (s := s.handed n) (n := n) (t0 := t0)
  have hc : crossings (s.handed n) n = hitCount (s.fbk n).xPrev (actX (s.handed n) n)
      ((s.handed n).rdS64 (Reg.FBK_CMP_NEXT_LO n)) ((s.handed n).rd (F.FBK_CMP_SPACE_SPACE n)) := by
    rw [crossings, hh.fbk, (latchAxis_feeds s n).own]
  have hx' : ((s.handed n).fbk n).xPrev = (s.fbk n).xPrev := by rw [hh.fbk, (latchAxis_feeds s n).own]
  rw [hc, hx'] at hcount
  have hcomp : (s.handed n).compared n = _ := rfl
  obtain ⟨m1, m2, m3⟩ := hm.same
  have hfbk : (compareAxis (s.handed n) n t0).fbk n = { (s.handed n).fbk n with
      xPrev := actX (s.handed n) n, hit := ((compareAxis (s.handed n) n t0).fbk n).hit } :=
    hm.fbk.trans (by rw [State.compared, State.fbk_setFbk_self])
  obtain ⟨rd1, rd2⟩ := State.rdS64_page (n := n) fun b hb => hh.reads (b := b) (by
    simp only [List.mem_cons, List.not_mem_nil, or_false, not_or]
    omega)
  have ctrl : (s.handed n).reg (Reg.FBK_CMP_CTRL n) = s.reg (Reg.FBK_CMP_CTRL n) := hh.reads (b := 0x201e4) (by decide)
  have stat : (s.handed n).reg (Reg.FBK_CMP_STAT n) = s.reg (Reg.FBK_CMP_STAT n) := hh.reads (b := 0x201f4) (by decide)
  have space : (s.handed n).reg (Reg.FBK_CMP_SPACE n) = s.reg (Reg.FBK_CMP_SPACE n) := hh.reads (b := 0x201e0) (by decide)
  have hits : (s.handed n).reg (Reg.FBK_CMP_HITS n) = s.reg (Reg.FBK_CMP_HITS n) := hh.reads (b := 0x201f0) (by decide)
  have go : (s.handed n).goNow (F.FBK_CMP_CTRL_ARM n) = s.goNow (F.FBK_CMP_CTRL_ARM n) := by
    rw [State.goNow, hh.clock]
    rfl
  rw [State.flag_of_reg (f := F.FBK_CMP_CTRL_ARM n) ctrl, State.flag_of_reg (f := F.FBK_CMP_CTRL_EN n) ctrl, go, rd1] at harm
  rw [State.flag_of_reg (f := F.FBK_CMP_CTRL_ARM n) ctrl, State.flag_of_reg (f := F.FBK_CMP_CTRL_EN n) ctrl,
    State.flag_of_reg (f := F.FBK_CMP_STAT_ARMED n) stat, rd2, State.rd_of_reg (f := F.FBK_CMP_SPACE_SPACE n) space,
    State.rd_of_reg (f := F.FBK_CMP_HITS_HITS n) hits, ← hall.actX] at hcount
  have tregs : (latchOne t0 s n).regs = (compareAxis (s.handed n) n t0).regs := by rw [ht, x1, w1]
  have tfbk : (latchOne t0 s n).fbk n = (compareAxis (s.handed n) n t0).fbk n := by rw [ht, State.fbk, x2, w2]; rfl
  have tclp : (latchOne t0 s n).clp n = (s.handed n).clp n := by rw [ht, State.clp, x3, w3, m2]; rfl
  have tr : ∀ o, (latchOne t0 s n).reg o = (compareAxis (s.handed n) n t0).reg o := fun o => by rw [State.reg, tregs]; rfl
  have treg : ∀ f : Fld, (latchOne t0 s n).rd f = (compareAxis (s.handed n) n t0).rd f := fun f => State.rd_of_reg (tr _)
  have tflag : ∀ f : Fld, (latchOne t0 s n).flag f = (compareAxis (s.handed n) n t0).flag f := fun f => State.flag_of_reg (tr _)
  have t64 : ∀ o, (latchOne t0 s n).rdS64 o = (compareAxis (s.handed n) n t0).rdS64 o := fun o =>
    State.rdS64_of_reg (tr _) (tr _)
  refine ⟨hwork, fun o ho hlt => ?_, ?_, ?_, fun h => ?_, fun h he ha => ?_, fun he hd hr hi => ?_⟩
  · rw [tr, hm.regs o ho (eventReg_low hlt)]
    exact (congrArg (fun x => fileGet resetWord x o) hh.regs :)
  · rw [tfbk, hfbk, hh.fbk, hall.actX]
  · rw [tclp, hh.clp, hall.actX, hall.actV]
  · rw [tfbk, tflag, tflag, t64]
    exact harm h
  · dsimp only
    rw [tfbk, treg, tflag, tflag, t64]
    exact hcount h he ha
  · have hc := ((s.handed_works n).trans (State.compared_works _ n)).trans hm.works
    have hon' : (compareAxis (s.handed n) n t0).energised n = true := by
      rw [State.energised, hc.plan]
      exact he
    have hd' : ((travelAxis (compareAxis (s.handed n) n t0) n).plan n).homed = true := by
      rw [← hd, ht, State.plan, ← x4]
      rfl
    have hr' : ((compareAxis (s.handed n) n t0).plan n).travelOut = false := by
      rw [State.plan, m1, ← hr]
      exact hh.travel
    have hi' : inTravel (compareAxis (s.handed n) n t0) n (actX (compareAxis (s.handed n) n t0) n) = false := by
      rw [← hlast.actX, ← hi, inTravel, inTravel, travelMin, travelMin, travelMax, travelMax, t64, t64]
    have e1 := travelAxis_detects hon' hd' hr' hi'
    obtain ⟨l, e2, hl⟩ := ss1Axis_trips (travelAxis (compareAxis (s.handed n) n t0) n) n
    refine ⟨⟨128 + 16 * n.val + 10, false, none, false⟩ :: l, ?_, ?_⟩
    · rw [ht, e2, e1, m3, show ((s.handed n).compared n).inClk = s.inClk from hh.clock, List.append_assoc]
      rfl
    · have none : (l.map (·.src)).count (128 + 16 * n.val + 10) = 0 := by
        refine List.count_eq_zero.2 fun hk => ?_
        obtain ⟨x, hx, e⟩ := List.mem_map.1 hk
        rw [hl x hx] at e
        omega
      rw [List.map_cons, List.count_cons, none]
      simp

end Point

end Sys2Proof.Machine

namespace Sys2Proof.Machine

section Points

variable {s t u z : State} {n m : Axis} {t0 : Nat}

/-! ### The other axes of a latch point, and the trips it has found -/

/-- What the work of a latch point leaves of the state. -/
def Swept (s t : State) : Prop :=
  t = { s with
    regs := t.regs, seqDone := t.seqDone, cntNow := t.cntNow, inClk := { s.inClk with trips := t.inClk.trips }
    portA := t.portA, portB := t.portB, ctxs := t.ctxs, sent := t.sent, plans := t.plans, clps := t.clps, fbks := t.fbks
    fcs := { s.fcs with ss1 := t.fcs.ss1 } }

theorem Swept.trans (h : Swept s t) (k : Swept t u) : Swept s u := by
  have e : _ = _ := k
  rw [show t = _ from h] at e
  exact e

/-- From s to t the latch point has worked on other axes than n. -/
structure Beside (n : Axis) (s t : State) : Prop where
  rest : Swept s t
  regs : ∀ o, (∀ m, m ≠ n → fedReg m o = false) → eventReg o = false → t.reg o = s.reg o
  same : t.plan n = s.plan n ∧ t.clp n = s.clp n ∧ t.fbk n = s.fbk n
  trips : ∃ l, t.inClk.trips = s.inClk.trips ++ l ∧ ∀ x ∈ l, x.src ≠ 128 + 16 * n.val + 10

theorem Beside.refl (n : Axis) (s : State) : Beside n s s := ⟨rfl, fun _ _ _ => rfl, ⟨rfl, rfl, rfl⟩, [], by simp⟩

theorem Beside.trans (h : Beside n s t) (k : Beside n t u) : Beside n s u where
  rest := Swept.trans h.rest k.rest
  regs o ho he := (k.regs o ho he).trans (h.regs o ho he)
  same := by
    obtain ⟨h1, h2, h3⟩ := h.same
    obtain ⟨k1, k2, k3⟩ := k.same
    exact ⟨k1.trans h1, k2.trans h2, k3.trans h3⟩
  trips := by
    obtain ⟨l, e1, h1⟩ := h.trips
    obtain ⟨m, e2, h2⟩ := k.trips
    refine ⟨l ++ m, by rw [e2, e1, List.append_assoc], fun x hx => ?_⟩
    exact (List.mem_append.1 hx).elim (h1 x) (h2 x)

theorem Works.beside (h : Works m s t) (hm : m ≠ n) : Beside n s t := by
  obtain ⟨l, e, hl⟩ := h.trips
  refine ⟨h.rest, fun o ho he => h.regs o (ho m hm) he, h.others n hm.symm, l, e, fun x hx => ?_⟩
  have hv : m.val ≠ n.val := fun e => hm (Fin.ext e)
  rcases hl x hx with h | h <;> omega

theorem Beside.low (h : Beside n s t) {o : Nat} (ho : o < 0x20000) : t.reg o = s.reg o :=
  h.regs o (fun m _ => by
    simp only [fedReg, Bool.and_eq_false_iff, decide_eq_false_iff_not]
    omega) (eventReg_low (by omega))

/-- Axis n latches between the axes before and after it. -/
theorem latchAll_at (t0 : Nat) (s : State) (n : Axis) :
    ∃ u, Beside n s u ∧ Beside n (latchOne t0 u n) (each allAxes (latchOne t0) s) :=
  each_at (Beside.refl n) (fun _ _ _ => Beside.trans) (fun s _ hm => (latchOne_works t0 s _).beside hm)
    (List.mem_finRange n) (List.nodup_finRange 32) s

/-- Axis n reads in t as it does in s. -/
structure Views (n : Axis) (s t : State) : Prop where
  page : ∀ b, 0x20000 ≤ b → b < 0x20400 → t.reg (b + 0x400 * n.val) = s.reg (b + 0x400 * n.val)
  fbk : t.fbk n = s.fbk n
  clp : t.clp n = { s.clp n with fresh := (t.clp n).fresh }
  source : (t.plan n).useLes = (s.plan n).useLes
  est : (t.les n).xEst = (s.les n).xEst ∧ (t.les n).w = (s.les n).w

theorem Views.trans (h : Views n s t) (k : Views n t u) : Views n s u where
  page b h1 h2 := (k.page b h1 h2).trans (h.page b h1 h2)
  fbk := k.fbk.trans h.fbk
  clp := by rw [k.clp, h.clp]
  source := k.source.trans h.source
  est := ⟨k.est.1.trans h.est.1, k.est.2.trans h.est.2⟩

theorem Beside.views (h : Beside n s t) : Views n s t where
  page b h1 h2 := h.regs _ (fun m hm => by
    have hv : m.val ≠ n.val := fun e => hm (Fin.ext e)
    simp only [fedReg, Bool.and_eq_false_iff, decide_eq_false_iff_not]
    omega) (eventReg_low (by omega))
  fbk := h.same.2.2
  clp := by rw [h.same.2.1]
  source := by rw [h.same.1]
  est := by
    rw [show t = _ from h.rest]
    exact ⟨rfl, rfl⟩

theorem Aftermath.trans (h : Aftermath s t) (k : Aftermath t u) : Aftermath s u := Reaction.trans h (Reaction.withSrcs k s.fcs.srcs)

theorem State.runEach_after (l : List TripReq) (s : State) :
    Aftermath s (s.runEach l) ∧ Abides s (s.runEach l) ∧ StaysOff s (s.runEach l) := by
  induction l generalizing s with
  | nil => exact ⟨.refl s, .refl s, .refl s⟩
  | cons x l ih =>
    obtain ⟨h1, h2, h3⟩ := ih (s.trip x.src x.active x.object x.loc)
    exact ⟨(s.trip_aftermath _ _ _ _).trans h1, (s.trip_abides _ _ _ _).trans h2, (s.trip_staysOff _ _ _ _).trans h3⟩

theorem faultReg_axis {o : Nat} (h : 0x20000 ≤ o) (h' : o < 0x28000) : faultReg o = false := by
  simp only [Bool.eq_false_iff, faultReg, ne_eq, Bool.or_eq_true, Bool.and_eq_true, decide_eq_true_eq]
  unfold Reg.FCS_STAT Reg.FCS_REC_CNT Reg.FCS_SS1_DEM Reg.CND_STAT portBBase
  omega

theorem Aftermath.views (h : Aftermath s t) (k : Abides s t) : Views n s t where
  page b h1 h2 := h.regs _ (faultReg_axis (by omega) (by omega))
  fbk := (congrArg (fun x : State => x.fbks[n]) h.rest :)
  clp := h.clps n
  source := k.source n
  est := k.est n

theorem State.noTrips_views (s : State) (n : Axis) : Views n s s.noTrips := ⟨fun _ _ _ => rfl, rfl, rfl, rfl, rfl, rfl⟩

theorem State.arranged_views (a s : State) (n : Axis) : Views n s (State.arranged a s) :=
  ⟨fun _ _ _ => rfl, rfl, rfl, rfl, rfl, rfl⟩

/-- What a latch point does to axis n, seen from its beginning and its end (R50). -/
theorem latchPoint_views (t0 : Nat) (s a : State) (n : Axis) : let t := State.arranged a (s.finding fun u => each allAxes (latchOne t0) u)
    ∃ u, Views n s u ∧ Views n (latchOne t0 u n) t ∧ Swept s u ∧ u.plan n = s.plan n ∧
      ∀ o, o < 0x20000 → u.reg o = s.reg o := by
  intro t
  obtain ⟨u, h1, h2⟩ := latchAll_at t0 s.noTrips n
  obtain ⟨k1, k2, -⟩ := State.runEach_after ((each allAxes (latchOne t0) s.noTrips).inClk.trips.insertionSort fun a b => a.src ≤ b.src)
    (each allAxes (latchOne t0) s.noTrips).noTrips
  exact ⟨u, (s.noTrips_views n).trans h1.views,
    ((h2.views.trans (State.noTrips_views _ n)).trans (k1.views k2)).trans (State.arranged_views a _ n), 
    Swept.trans (show Swept s s.noTrips from rfl) h1.rest, h1.same.1, fun _ ho => h1.low ho⟩

/-! ### The clauses of an axis, from its views -/

section Reads

variable (h : Views n s t)

include h

theorem Views.rd {f : Fld} {b : Nat} (hf : f.off = b + 0x400 * n.val) (h1 : 0x20000 ≤ b) (h2 : b < 0x20400) : t.rd f = s.rd f :=
  State.rd_of_reg (by rw [hf]; exact h.page b h1 h2)

theorem Views.flag {f : Fld} {b : Nat} (hf : f.off = b + 0x400 * n.val) (h1 : 0x20000 ≤ b) (h2 : b < 0x20400) :
    t.flag f = s.flag f := State.flag_of_reg (by rw [hf]; exact h.page b h1 h2)

theorem Views.rdS64 {o b : Nat} (ho : o = b + 0x400 * n.val) (h1 : 0x20000 ≤ b) (h2 : b + 4 < 0x20400) :
    t.rdS64 o = s.rdS64 o := by
  subst ho
  refine State.rdS64_of_reg (h.page b h1 (by omega)) ?_
  rw [show b + 0x400 * n.val + 4 = (b + 4) + 0x400 * n.val by omega]
  exact h.page (b + 4) (by omega) h2

theorem Views.rdS {f : Fld} {b : Nat} (hf : f.off = b + 0x400 * n.val) (h1 : 0x20000 ≤ b) (h2 : b < 0x20400) :
    t.rdS f = s.rdS f := State.rdS_of_reg (by rw [hf]; exact h.page b h1 h2)

theorem Views.shows : Shows n s t where
  page b h1 h2 := h.page b h1 (by omega)
  source := h.source
  est := h.est

end Reads

end Points

end Sys2Proof.Machine

namespace Sys2Proof.Machine

section Clauses

variable {s t u m : State} {n : Axis}

/-- Axis n latched between u, which reads there as s does, and m, as which t reads there. -/
structure Seen (n : Axis) (s u m t : State) : Prop where
  before : Views n s u
  latched : Latched n u m
  after : Views n m t
  time : u.halfSec = s.halfSec

variable (h : Seen n s u m t)

include h

theorem Seen.fed {b : Nat} (h1 : 0x20000 ≤ b) (h2 : b < 0x201e4) :
    t.reg (b + 0x400 * n.val) = (latchAxis u n).reg (b + 0x400 * n.val) :=
  (h.after.page b h1 (by omega)).trans (h.latched.kept _ (cmpRegs_apart n h2) (by omega))

theorem Seen.pos : t.rdS64 (Reg.FBK_POS_LO n) = (latchAxis u n).rdS64 (Reg.FBK_POS_LO n) := by
  refine State.rdS64_of_reg (h.fed (b := 0x201b0) (by decide) (by decide)) ?_
  rw [show Reg.FBK_POS_LO n + 4 = 0x201b4 + 0x400 * n.val by unfold Reg.FBK_POS_LO; omega]
  exact h.fed (by decide) (by decide)

theorem Seen.rdFed {f : Fld} {b : Nat} (hf : f.off = b + 0x400 * n.val) (h1 : 0x20000 ≤ b) (h2 : b < 0x201e4) :
    t.rd f = (latchAxis u n).rd f := State.rd_of_reg (by rw [hf]; exact h.fed h1 h2)

theorem Seen.actX : actX t n = actX m n := h.after.shows.actX
theorem Seen.actV : actV t n = actV m n := h.after.shows.actV

theorem Seen.fbk : t.fbk n = { (latchAxis u n).fbk n with
    steps := s.rdS (F.FBK_STEP_STEP n), xPrev := Machine.actX t n, hit := (t.fbk n).hit } := by
  have e := h.latched.fbk
  rw [← h.after.fbk, ← h.actX, h.before.rdS (f := F.FBK_STEP_STEP n) (b := 0x201c4) rfl (by decide) (by decide)] at e
  exact e

theorem Seen.step : t.rd (F.FBK_STEP_STEP n) = s.rd (F.FBK_STEP_STEP n) := by
  rw [h.rdFed (f := F.FBK_STEP_STEP n) (b := 0x201c4) rfl (by decide) (by decide)]
  refine (State.rd_of_reg ((latchAxis_feeds u n).regs _ ?_)).trans
    (h.before.rd (f := F.FBK_STEP_STEP n) (b := 0x201c4) rfl (by decide) (by decide))
  simp [F.FBK_STEP_STEP, Reg.FBK_STEP, Reg.FBK_POS_LO, Reg.FBK_SPEED, Reg.FBK_STAT]
  omega

theorem Seen.clp : t.clp n = { s.clp n with
    xLat := Machine.actX t n, vLat := Machine.actV t n, tLat := u.clk, xLatOld := (s.clp n).xLat, vLatOld := (s.clp n).vLat
    tLatOld := (s.clp n).tLat, fresh := (t.clp n).fresh } := by
  have e := h.after.clp
  rw [h.latched.clp, h.before.clp, ← h.actX, ← h.actV] at e
  exact e

theorem Seen.serial : isSerial u n = isSerial s n := by
  rw [isSerial, h.before.rd (f := F.FBK_CFG_MODE n) (b := 0x20180) rfl (by decide) (by decide)]
  rfl

theorem Seen.quad : isQuad u n = isQuad s n := by
  rw [isQuad, h.before.rd (f := F.FBK_CFG_MODE n) (b := 0x20180) rfl (by decide) (by decide)]
  rfl

theorem Seen.posBefore : u.rdS64 (Reg.FBK_POS_LO n) = s.rdS64 (Reg.FBK_POS_LO n) :=
  h.before.rdS64 (b := 0x201b0) rfl (by decide) (by decide)

/-- A serial axis with a good word (R327, R334). -/
theorem Seen.good {a : Rat} (hs : isSerial s n = true) (hw : (s.fbk n).word = none) (hf : (s.fbk n).fresh = some a) :
    let f := s.fbk n
    let v := serialSpeed f.words
    let x : Int := match f.words.head? with | some w => w.1 | none => s.rdS64 (Reg.FBK_POS_LO n)
    t.rdS64 (Reg.FBK_POS_LO n) = toSigned 64 (ofSigned 64 (roundRat (x + v * ((u.clk : Rat) - a) / clkHz))) ∧
      t.rdS (F.FBK_SPEED_SPEED n) = satSpeed v ∧ (t.fbk n).err = false ∧ (t.fbk n).bad = false ∧
      (t.fbk n).errRun = 0 ∧ (t.fbk n).fresh = none := by
  intro f v x
  have e := latchAxis_serial (s := u) (n := n) (h.serial.trans hs) (h.before.fbk.symm ▸ hw) (h.before.fbk.symm ▸ hf)
  rw [h.before.fbk, h.posBefore] at e
  have hp := h.pos
  have hv : t.rdS (F.FBK_SPEED_SPEED n) = (latchAxis u n).rdS (F.FBK_SPEED_SPEED n) :=
    State.rdS_of_reg (h.fed (b := 0x201c0) (by decide) (by decide))
  have hk := h.fbk
  rw [e] at hp hv hk
  rw [State.latchGood_fbk] at hk
  refine ⟨hp.trans (State.latchGood_pos ..), hv.trans (State.latchGood_speed ..), ?_⟩
  rw [hk]
  exact ⟨rfl, rfl, rfl, rfl⟩

omit h in
theorem Feeds.halfSec (h : Feeds n s t) : t.halfSec = s.halfSec := by
  have e : t.rd F.TBS_FRAME_PERIOD = s.rd F.TBS_FRAME_PERIOD := State.rd_of_reg (h.regs _ (by
    simp only [F.TBS_FRAME_PERIOD, Reg.TBS_FRAME, Reg.FBK_POS_LO, Reg.FBK_SPEED, Reg.FBK_STAT, List.mem_cons,
      List.not_mem_nil, or_false]
    omega))
  rw [State.halfSec, State.tfNs, e]
  rfl

/-- In an error half-frame the axis is carried on from v, and the error counted (R327). -/
theorem Seen.carried {v : State} {x : FbkS} (e : latchAxis u n = v.latchError n (u.rdS64 (Reg.FBK_POS_LO n)) x)
    (hv : Feeds n u v) (hs : v.rd (F.FBK_SPEED_SPEED n) = u.rd (F.FBK_SPEED_SPEED n))
    (hc : v.rd (F.FBK_STAT_ERRCNT n) = u.rd (F.FBK_STAT_ERRCNT n)) :
    t.rdS64 (Reg.FBK_POS_LO n) = toSigned 64 (ofSigned 64
      (roundRat (s.rdS64 (Reg.FBK_POS_LO n) + (s.rdS (F.FBK_SPEED_SPEED n) : Rat) * s.halfSec))) ∧
    t.rd (F.FBK_SPEED_SPEED n) = s.rd (F.FBK_SPEED_SPEED n) ∧
    t.rd (F.FBK_STAT_ERRCNT n) = min 255 (s.rd (F.FBK_STAT_ERRCNT n) + 1) := by
  have h1 := h.pos
  have h2 := h.rdFed (f := F.FBK_SPEED_SPEED n) (b := 0x201c0) rfl (by decide) (by decide)
  have h3 := h.rdFed (f := F.FBK_STAT_ERRCNT n) (b := 0x201cc) rfl (by decide) (by decide)
  have hs' := hs.trans (h.before.rd (f := F.FBK_SPEED_SPEED n) (b := 0x201c0) rfl (by decide) (by decide))
  have hss : v.rdS (F.FBK_SPEED_SPEED n) = s.rdS (F.FBK_SPEED_SPEED n) := by rw [State.rdS, hs']; rfl
  rw [e] at h1 h2 h3
  refine ⟨h1.trans ?_, h2.trans ((State.latchError_rd _ _ _ _ (.inl rfl)).trans hs'), h3.trans ?_⟩
  · rw [State.latchError_pos, hss, hv.halfSec, h.time, h.posBefore]
  · rw [State.latchError_count, hc, h.before.rd (f := F.FBK_STAT_ERRCNT n) (b := 0x201cc) rfl (by decide) (by decide)]

/-- A serial axis without a good word: one unfinished is abandoned as LATE (R326). -/
theorem Seen.serialError (hs : isSerial s n = true) (hw : (s.fbk n).word.isSome = true ∨ (s.fbk n).fresh = none) :
    t.rdS64 (Reg.FBK_POS_LO n) = toSigned 64 (ofSigned 64
      (roundRat (s.rdS64 (Reg.FBK_POS_LO n) + (s.rdS (F.FBK_SPEED_SPEED n) : Rat) * s.halfSec))) ∧
    t.rd (F.FBK_SPEED_SPEED n) = s.rd (F.FBK_SPEED_SPEED n) ∧ (t.fbk n).err = false ∧ (t.fbk n).bad = true ∧
    (t.fbk n).errRun = (s.fbk n).errRun + 1 ∧ t.rd (F.FBK_STAT_ERRCNT n) = min 255 (s.rd (F.FBK_STAT_ERRCNT n) + 1) ∧
    (t.fbk n).word = none ∧ ((s.fbk n).word.isSome = true → t.flag (F.FBK_STAT_LATE n) = true) := by
  have e := latchAxis_serial_error (s := u) (n := n) (h.serial.trans hs) (by rw [h.before.fbk]; exact hw)
  obtain ⟨c1, c2, c3⟩ := h.carried e (u.wordLate_feeds n)
    (u.wordLate_rd n (.inl (by simp [F.FBK_SPEED_SPEED, Reg.FBK_SPEED, Reg.FBK_STAT])))
    (u.wordLate_rd n (.inr ⟨rfl, show 23 < 24 by decide, rfl, show 4 < 16 by decide⟩))
  obtain ⟨w1, w2⟩ := u.wordLate_word n
  have hr : ((u.wordLate n).fbk n).errRun = (s.fbk n).errRun := (u.wordLate_errRun n).trans (by rw [h.before.fbk])
  have hk := h.fbk
  rw [e, State.latchError_fbk] at hk
  refine ⟨c1, c2, ?_, ?_, ?_, c3, ?_, fun hx => ?_⟩
  · rw [hk]
  · rw [hk]
  · rw [hk]
    exact congrArg (· + 1) hr
  · rw [hk]
    exact w1
  · have hl : t.flag (F.FBK_STAT_LATE n) = (latchAxis u n).flag (F.FBK_STAT_LATE n) :=
      State.flag_of_reg (h.fed (b := 0x201cc) (by decide) (by decide))
    rw [hl, e, State.flag, State.latchError_rd _ _ _ _ (.inr ⟨rfl, rfl, show 4 < 16 by decide⟩)]
    exact w2 (by rw [h.before.fbk]; exact hx)

/-- A quadrature axis in whose half-frame an edge was illegal (R327). -/
theorem Seen.quadError (hq : isQuad s n = true) (he : (s.fbk n).err = true) :
    t.rdS64 (Reg.FBK_POS_LO n) = toSigned 64 (ofSigned 64
      (roundRat (s.rdS64 (Reg.FBK_POS_LO n) + (s.rdS (F.FBK_SPEED_SPEED n) : Rat) * s.halfSec))) ∧
    t.rd (F.FBK_SPEED_SPEED n) = s.rd (F.FBK_SPEED_SPEED n) ∧ (t.fbk n).err = false ∧ (t.fbk n).bad = true ∧
    (t.fbk n).errRun = (s.fbk n).errRun + 1 ∧ t.rd (F.FBK_STAT_ERRCNT n) = min 255 (s.rd (F.FBK_STAT_ERRCNT n) + 1) := by
  have e := latchAxis_quad_error (s := u) (n := n) (h.quad.trans hq) (by rw [h.before.fbk]; exact he)
  obtain ⟨c1, c2, c3⟩ := h.carried e (u.stillShown_feeds n _)
    (u.quadStill_rd n (.inl (by simp [F.FBK_SPEED_SPEED, Reg.FBK_SPEED, Reg.FBK_STAT])))
    (u.quadStill_rd n (.inr ⟨rfl, show 8 < 16 by decide⟩))
  have hr : (quadNow u n).errRun = (s.fbk n).errRun := by rw [quadNow_keeps, h.before.fbk]
  have hk := h.fbk
  rw [e, State.latchError_fbk] at hk
  refine ⟨c1, c2, ?_, ?_, ?_, c3⟩
  · rw [hk]
  · rw [hk]
  · rw [hk]
    exact congrArg (· + 1) hr

/-- A quadrature axis in a half-frame without an error (R320, R335). -/
theorem Seen.quadGood (hq : isQuad s n = true) (he : (s.fbk n).err = false) :
    t.rdS64 (Reg.FBK_POS_LO n) = toSigned 64 (ofSigned 64 (xEnc s n (s.fbk n).u)) ∧
    t.rdS (F.FBK_SPEED_SPEED n) = satSpeed ((quadSpeed (s.fbk n) u.clk (usClk (s.rd (F.FBK_SPD_SST n)))).1.vEdge *
      s.rd (F.FBK_RATIO_RATIO n) / 65536) ∧
    (t.fbk n).u = (s.fbk n).u ∧ (t.fbk n).bad = false ∧ (t.fbk n).errRun = 0 := by
  have e := latchAxis_quad (s := u) (n := n) (h.quad.trans hq) (by rw [h.before.fbk]; exact he)
  have hu : (quadNow u n).u = (s.fbk n).u := by rw [quadNow_keeps, h.before.fbk]
  have still : ∀ {f : Fld} {b : Nat}, f.off = b + 0x400 * n.val → 0x20000 ≤ b → b < 0x201cc →
      (u.quadStill n).rd f = s.rd f := fun {f b} hf h1 h2 =>
    (u.quadStill_rd n (.inl (by rw [hf]; unfold Reg.FBK_STAT; omega))).trans (h.before.rd hf h1 (by omega))
  have still64 : ∀ {b : Nat}, 0x20000 ≤ b → b + 4 < 0x201b0 ∨ b = 0x201b8 →
      (u.quadStill n).rdS64 (b + 0x400 * n.val) = s.rdS64 (b + 0x400 * n.val) := fun {b} h1 h2 => by
    have hf := u.stillShown_feeds n (quadSpeed (u.fbk n) u.clk (usClk (u.rd (F.FBK_SPD_SST n)))).2
    refine (State.rdS64_of_reg (hf.regs _ ?_) (hf.regs _ ?_)).trans (h.before.rdS64 rfl h1 (by omega)) <;>
      · simp only [Reg.FBK_POS_LO, Reg.FBK_SPEED, Reg.FBK_STAT, List.mem_cons, List.not_mem_nil, or_false]
        omega
  have hx : xEnc (u.quadStill n) n (s.fbk n).u = xEnc s n (s.fbk n).u := by
    have h1 := still64 (b := 0x20188) (by decide) (.inl (by decide))
    have h2 := still64 (b := 0x201b8) (by decide) (.inr rfl)
    have h3 := still (f := F.FBK_RATIO_RATIO n) (b := 0x20184) rfl (by decide) (by decide)
    unfold xEnc
    rw [show Reg.FBK_OFS_LO n = 0x20188 + 0x400 * n.val from rfl, show Reg.FBK_ADJ_LO n = 0x201b8 + 0x400 * n.val from rfl,
      h1, h2, h3]
  have hsp : (quadNow u n).vEdge = (quadSpeed (s.fbk n) u.clk (usClk (s.rd (F.FBK_SPD_SST n)))).1.vEdge := by
    rw [quadNow, h.before.fbk, h.before.rd (f := F.FBK_SPD_SST n) (b := 0x201a8) rfl (by decide) (by decide)]
  have hp := h.pos
  have hv : t.rdS (F.FBK_SPEED_SPEED n) = (latchAxis u n).rdS (F.FBK_SPEED_SPEED n) :=
    State.rdS_of_reg (h.fed (b := 0x201c0) (by decide) (by decide))
  have hk := h.fbk
  rw [hu, hsp, hx, still (f := F.FBK_RATIO_RATIO n) (b := 0x20184) rfl (by decide) (by decide)] at e
  rw [e] at hp hv hk
  rw [State.latchGood_fbk] at hk
  refine ⟨hp.trans (State.latchGood_pos ..), hv.trans (State.latchGood_speed ..), ?_⟩
  rw [hk]
  exact ⟨hu, rfl, rfl⟩

/-- The compare of the axis (R339, R340). -/
theorem Seen.arms (ha : s.flag (F.FBK_CMP_CTRL_ARM n) = true) : (t.fbk n).hit = false ∧
    t.flag (F.FBK_CMP_CTRL_ARM n) = u.goNow (F.FBK_CMP_CTRL_ARM n) ∧
    t.flag (F.FBK_CMP_STAT_ARMED n) = s.flag (F.FBK_CMP_CTRL_EN n) ∧
    (s.flag (F.FBK_CMP_CTRL_EN n) = true → t.rdS64 (Reg.FBK_CMP_NEXT_LO n) = s.rdS64 (Reg.FBK_CMP_LO n)) := by
  have e := h.latched.arms
  rw [h.before.flag (f := F.FBK_CMP_CTRL_ARM n) (b := 0x201e4) rfl (by decide) (by decide),
    h.before.flag (f := F.FBK_CMP_CTRL_EN n) (b := 0x201e4) rfl (by decide) (by decide),
    h.before.rdS64 (o := Reg.FBK_CMP_LO n) (b := 0x201d8) rfl (by decide) (by decide)] at e
  rw [h.after.fbk, h.after.flag (f := F.FBK_CMP_CTRL_ARM n) (b := 0x201e4) rfl (by decide) (by decide),
    h.after.flag (f := F.FBK_CMP_STAT_ARMED n) (b := 0x201f4) rfl (by decide) (by decide),
    h.after.rdS64 (o := Reg.FBK_CMP_NEXT_LO n) (b := 0x201e8) rfl (by decide) (by decide)]
  exact e ha

theorem Seen.counts (ha : s.flag (F.FBK_CMP_CTRL_ARM n) = false) (he : s.flag (F.FBK_CMP_CTRL_EN n) = true)
    (hd : s.flag (F.FBK_CMP_STAT_ARMED n) = true) :
    let next := s.rdS64 (Reg.FBK_CMP_NEXT_LO n)
    let space := s.rd (F.FBK_CMP_SPACE_SPACE n)
    let k := hitCount (s.fbk n).xPrev (Machine.actX t n) next space
    let d : Int := if (s.fbk n).xPrev < Machine.actX t n then 1 else -1
    t.rd (F.FBK_CMP_HITS_HITS n) = (s.rd (F.FBK_CMP_HITS_HITS n) + k) % 2 ^ 32 ∧
      (t.fbk n).hit = decide (k ≠ 0) ∧ (k ≠ 0 → t.flag (F.FBK_CMP_STAT_HIT n) = true) ∧
      t.flag (F.FBK_CMP_STAT_ARMED n) = decide (k = 0 ∨ space ≠ 0) ∧
      t.rdS64 (Reg.FBK_CMP_NEXT_LO n) = (if k = 0 ∨ space = 0 then next
        else toSigned 64 (ofSigned 64 (next + d * (k * space : Nat)))) := by
  have e := h.latched.counts
  rw [h.before.flag (f := F.FBK_CMP_CTRL_ARM n) (b := 0x201e4) rfl (by decide) (by decide),
    h.before.flag (f := F.FBK_CMP_CTRL_EN n) (b := 0x201e4) rfl (by decide) (by decide),
    h.before.flag (f := F.FBK_CMP_STAT_ARMED n) (b := 0x201f4) rfl (by decide) (by decide),
    h.before.rdS64 (o := Reg.FBK_CMP_NEXT_LO n) (b := 0x201e8) rfl (by decide) (by decide),
    h.before.rd (f := F.FBK_CMP_SPACE_SPACE n) (b := 0x201e0) rfl (by decide) (by decide),
    h.before.rd (f := F.FBK_CMP_HITS_HITS n) (b := 0x201f0) rfl (by decide) (by decide), h.before.fbk, ← h.actX] at e
  rw [h.after.fbk, h.after.rd (f := F.FBK_CMP_HITS_HITS n) (b := 0x201f0) rfl (by decide) (by decide),
    h.after.flag (f := F.FBK_CMP_STAT_HIT n) (b := 0x201f4) rfl (by decide) (by decide),
    h.after.flag (f := F.FBK_CMP_STAT_ARMED n) (b := 0x201f4) rfl (by decide) (by decide),
    h.after.rdS64 (o := Reg.FBK_CMP_NEXT_LO n) (b := 0x201e8) rfl (by decide) (by decide)]
  exact e ha he hd

end Clauses

end Sys2Proof.Machine

namespace Sys2Proof.Machine

section Travel

variable {s t u w m : State} {n : Axis}

/-! ### A travel limit crossed at a latch point trips its source once (R194, R346) -/

theorem travelSrc_row : ∀ n : Axis, (sourceRow (128 + 16 * n.val + 10)).isSome = true := by decide +kernel

theorem Swept.src (h : Swept s t) (k : Nat) : t.src k = s.src k := by
  rw [show t = _ from h]
  rfl

theorem Swept.pmu (h : Swept s t) : t.pmu = s.pmu := (congrArg State.pmu (show t = _ from h) :)

theorem Beside.powered (h : Beside n s t) (d : Nat) : t.powered d = s.powered d :=
  State.powered_congr (by rw [Swept.pmu h.rest]) (h.low (by decide)) d

theorem Works.powered (h : Works n s t) (d : Nat) : t.powered d = s.powered d :=
  State.powered_congr (by rw [Swept.pmu h.rest]) (h.regs _ (by
    simp only [fedReg, Bool.and_eq_false_iff, decide_eq_false_iff_not]
    exact .inl (by unfold Reg.PMU_DOM_STAT; omega)) (eventReg_low (by decide))) d

/-- What the sources found on the other axes add to the count of axis n's travel source: nothing. -/
theorem Beside.finds (h : Beside n s t) : (t.inClk.trips.map (·.src)).count (128 + 16 * n.val + 10) =
    (s.inClk.trips.map (·.src)).count (128 + 16 * n.val + 10) := by
  obtain ⟨l, e, hl⟩ := h.trips
  have none : (l.map (·.src)).count (128 + 16 * n.val + 10) = 0 := by
    refine List.count_eq_zero.2 fun hk => ?_
    obtain ⟨x, hx, e⟩ := List.mem_map.1 hk
    exact hl x hx e
  rw [e, List.map_append, List.count_append, none, Nat.add_zero]

theorem Views.inTravel (h : Views n s t) : inTravel t n (actX t n) = inTravel s n (actX s n) := by
  rw [Machine.inTravel, Machine.inTravel, travelMin, travelMin, travelMax, travelMax, h.shows.actX,
    h.rdS64 (o := Reg.MPL_TRAVEL_MIN_LO n) (b := 0x20030) rfl (by decide) (by decide),
    h.rdS64 (o := Reg.MPL_TRAVEL_MAX_LO n) (b := 0x20038) rfl (by decide) (by decide)]

theorem StaysOff.energised (h : StaysOff s t) (he : t.energised n = true) : s.energised n = true := by
  simp only [State.energised, ne_eq, decide_eq_true_eq] at he ⊢
  exact fun e => he (h.off n e)

theorem latchPoint_travel (t0 : Nat) (s a : State) (n : Axis)
    (hp : s.powered 1 = true) (hon : fbkOn s n = true) (hw : (s.plan n).travelOut = false) :
    let t := State.arranged a (s.finding fun u => each allAxes (latchOne t0) u)
    t.energised n = true → (t.plan n).homed = true → inTravel t n (actX t n) = false →
      (t.src (128 + 16 * n.val + 10)).total = min 255 ((s.src (128 + 16 * n.val + 10)).total + 1) := by
  intro t he hh hx
  obtain ⟨u, h1, h2⟩ := latchAll_at t0 s.noTrips n
  have hon' : fbkOn u n = true := (h1.powered _).trans hon
  have hl := latchOne_latched t0 hon'
  have hwork := latchOne_works t0 u n
  generalize latchOne t0 u n = m at *
  generalize hwd : each allAxes (latchOne t0) s.noTrips = w at *
  obtain ⟨k1, k2, k3⟩ := State.runEach_after (w.inClk.trips.insertionSort fun a b => a.src ≤ b.src) w.noTrips
  have ht : t = State.arranged a (w.noTrips.runEach (w.inClk.trips.insertionSort fun a b => a.src ≤ b.src)) := by
    rw [← hwd]
    rfl
  have hmt : Views n m t := by
    rw [ht]
    exact ((h2.views.trans (w.noTrips_views n)).trans (k1.views k2)).trans (State.arranged_views a _ n)
  have he' : u.energised n = true := by
    rw [ht] at he
    have e : w.energised n = true := k3.energised (show (w.noTrips.runEach _).energised n = true from he)
    rwa [State.energised, h2.same.1, hwork.plan] at e
  have hh' : (m.plan n).homed = true := by
    rw [ht] at hh
    have e : (w.plan n).homed = true := k2.homed n hh
    rwa [h2.same.1] at e
  have hx' : inTravel m n (actX m n) = false := hmt.inTravel.symm.trans hx
  obtain ⟨l, e, hc⟩ := hl.travel he' hh' (by rw [h1.same.1]; exact hw) hx'
  have count : (w.inClk.trips.map (·.src)).count (128 + 16 * n.val + 10) = 1 := by
    rw [h2.finds, e, List.map_append, List.count_append, hc, h1.finds]
    rfl
  have hpw : w.noTrips.powered 1 = true := ((h2.powered 1).trans (hwork.powered 1)).trans ((h1.powered 1).trans hp)
  have hsrc : w.noTrips.src (128 + 16 * n.val + 10) = s.src (128 + 16 * n.val + 10) :=
    (Swept.src h2.rest _).trans ((Swept.src hwork.rest _).trans (Swept.src h1.rest _))
  rw [ht, ← hsrc]
  exact State.runEach_once _ _ ((((List.perm_insertionSort _ _).map _).count_eq _).trans count) (travelSrc_row n) hpw

/-! ### The latch point (R34, R198) -/

theorem fbkOn_latch (hr : ∀ o, o < 0x20000 → u.reg o = s.reg o) (hp : u.pmu = s.pmu) : fbkOn u n = fbkOn s n :=
  State.powered_congr (by rw [hp]) (hr _ (by decide)) _

/-- The parts of the state that stand through a latch point. -/
def State.standing (s : State) :=
  (s.clk, s.gtc, s.latches, s.tickClk, s.reqs, s.coils, s.gdrs, s.adcs, s.streams)

theorem Swept.standing (h : Swept s t) : t.standing = s.standing := by
  rw [show t = _ from h]
  rfl

theorem Aftermath.standing (h : Aftermath s t) : t.standing = s.standing := (congrArg State.standing h.rest :)

end Travel

/-- What else of the state a latch point leaves. -/
theorem latchPoint_rest (t0 : Nat) (s a : State) :
    (State.arranged a (s.finding fun u => each allAxes (latchOne t0) u)).standing = s.standing := by
  have h : Swept s.noTrips (each allAxes (latchOne t0) s.noTrips) :=
    each_keep (p := Swept s.noTrips) (fun u hu n _ => Swept.trans hu (latchOne_works t0 u n).rest) rfl
  obtain ⟨k, -, -⟩ := State.runEach_after ((each allAxes (latchOne t0) s.noTrips).inClk.trips.insertionSort fun a b => a.src ≤ b.src)
    (each allAxes (latchOne t0) s.noTrips).noTrips
  have e := Swept.standing h
  exact k.standing.trans e

/-- The state as the axes of a latch point find it. -/
def State.latchStart (s : State) (l : Nat) : State :=
  let u := s.advTo l
  { u with latches := u.latches + 1 }

theorem latchPoint_next {s : State} {l : Nat} (h : nextLatch s = some l) : exec .latchPoint s =
    .next (State.arranged s ((s.latchStart l).finding fun x =>
      each allAxes (latchOne ((s.latchStart l).now - 2 * (s.latchStart l).period)) x)) := by
  change execLatchPoint s = _
  unfold execLatchPoint
  rw [h]
  rfl

section Start

variable (s : State) (l : Nat)

theorem State.latchStart_reg (o : Nat) : (s.latchStart l).reg o = s.reg o := s.advTo_reg l o

theorem State.latchStart_plan (n : Axis) : (s.latchStart l).plan n = s.plan n :=
  congrArg (fun x : Vector AxisPlan 32 => x[n]) (s.advTo_plans l)

theorem State.latchStart_src (k : Nat) : (s.latchStart l).src k = s.src k :=
  congrArg (fun x : FcsS => { s with fcs := x }.src k) (s.advTo_fcs l)

theorem State.latchStart_powered (d : Nat) : (s.latchStart l).powered d = s.powered d := s.powered_advTo l d

theorem State.latchStart_views (n : Axis) : Views n s (s.latchStart l) := by
  have hf : (s.latchStart l).fbks = s.fbks := s.advTo_fbks l
  have hc : (s.latchStart l).clps = s.clps := s.advTo_clps l
  have hl : (s.latchStart l).less = s.less := s.advTo_less l
  refine ⟨fun _ _ _ => s.latchStart_reg l _, by rw [State.fbk, hf]; rfl, by rw [State.clp, hc]; rfl,
    by rw [s.latchStart_plan], ?_⟩
  rw [State.les, hl]
  exact ⟨rfl, rfl⟩

theorem State.latchStart_stands : (s.latchStart l).standing =
    ((s.advTo l).clk, (s.advTo l).gtc, s.latches + 1, s.tickClk, s.reqs, s.coils, s.gdrs, s.adcs, s.streams) := by
  simp [State.latchStart, State.standing]

end Start

theorem Swept.goNow {s t : State} (h : Swept s t) (f : Fld) : t.goNow f = s.goNow f := by
  rw [show t = _ from h]
  rfl

theorem Swept.clk {s t : State} (h : Swept s t) : t.clk = s.clk := (congrArg State.clk (show t = _ from h) :)

theorem State.halfSec_congr {s t : State} (h : t.reg Reg.TBS_FRAME = s.reg Reg.TBS_FRAME) : t.halfSec = s.halfSec := by
  rw [State.halfSec, State.tfNs, State.rd_of_reg (f := F.TBS_FRAME_PERIOD) h]
  rfl

/-- An axis whose feedback runs, at a latch point (R198, R333). -/
theorem latchPoint_seen (t0 : Nat) {s : State} {l : Nat} {n : Axis} (hon : fbkOn s n = true) :
    let t := State.arranged s ((s.latchStart l).finding fun x => each allAxes (latchOne t0) x)
    ∃ u m, Seen n s u m t ∧ u.clk = (s.advTo l).clk ∧ ∀ f, u.goNow f = (s.advTo l).goNow f := by
  intro t
  obtain ⟨u, h1, h2, h3, h4, h5⟩ := latchPoint_views t0 (s.latchStart l) s n
  have hr : ∀ o, o < 0x20000 → u.reg o = s.reg o := fun o ho => (h5 o ho).trans (s.latchStart_reg l o)
  have hu : fbkOn u n = true := (fbkOn_latch hr ((Swept.pmu h3).trans (s.advTo_pmu l))).trans hon
  have hclk := Swept.clk h3
  have hgo := Swept.goNow h3
  exact ⟨u, latchOne t0 u n, ⟨(s.latchStart_views l n).trans h1, latchOne_latched t0 hu, h2,
    State.halfSec_congr (hr _ (by decide))⟩, hclk, hgo⟩

/-- An axis whose feedback is off, at a latch point. -/
theorem latchPoint_off (t0 : Nat) {s : State} {l : Nat} {n : Axis} (hoff : fbkOn s n = false) :
    Views n s (State.arranged s ((s.latchStart l).finding fun x => each allAxes (latchOne t0) x)) := by
  obtain ⟨u, h1, h2, h3, h4, h5⟩ := latchPoint_views t0 (s.latchStart l) s n
  have hr : ∀ o, o < 0x20000 → u.reg o = s.reg o := fun o ho => (h5 o ho).trans (s.latchStart_reg l o)
  have hu : fbkOn u n = false := (fbkOn_latch hr ((Swept.pmu h3).trans (s.advTo_pmu l))).trans hoff
  rw [latchOne_off hu] at h2
  exact ((s.latchStart_views l n).trans h1).trans h2

/-- Settles O56: each axis latches between the others, and no reaction to what was found touches what it latched. -/
theorem latchPointsTakeThePosition : Obligations.LatchPointsTakeThePosition := by
  intro s l hl u
  refine ⟨_, latchPoint_next hl, ?_⟩
  have hrest := (latchPoint_rest ((s.latchStart l).now - 2 * (s.latchStart l).period) (s.latchStart l) s).trans
    (s.latchStart_stands l)
  simp only [State.standing, Prod.mk.injEq] at hrest
  obtain ⟨r1, r2, r3, r4, r5, r6, r7, r8, r9⟩ := hrest
  have hoff := fun n => latchPoint_off ((s.latchStart l).now - 2 * (s.latchStart l).period) (s := s) (l := l) (n := n)
  have hseen := fun n => latchPoint_seen ((s.latchStart l).now - 2 * (s.latchStart l).period) (s := s) (l := l) (n := n)
  have htravel := fun n => latchPoint_travel ((s.latchStart l).now - 2 * (s.latchStart l).period) (s.latchStart l) s n
  generalize State.arranged s _ = t at *
  refine ⟨r1, r2, r3, r4, r5, r6, r7, r8, r9, ?_⟩
  intro n f c
  refine ⟨fun h => ?_, fun h => ?_⟩
  · have hv := hoff n h
    exact ⟨hv.fbk, hv.clp, hv.page 0x201b0 (by decide) (by decide)⟩
  obtain ⟨v, m, k, hclk, hgo⟩ := hseen n h
  have hclp := k.clp
  have hword := fun a => k.good (a := a)
  have hquad := k.quadGood
  have harm := k.arms
  rw [hclk] at hclp hquad
  rw [hgo] at harm
  simp only [hclk] at hword
  refine ⟨?_, k.step, hclp, ?_, fun a => hword a, ?_, hquad, harm, k.counts, fun hp he hh hw hx => ?_⟩
  · rw [k.fbk]
  · rw [k.fbk]
  · rintro (⟨hs, hw⟩ | ⟨hq, he⟩)
    · obtain ⟨e1, e2, e3, e4, e5, e6, e7⟩ := k.serialError hs hw
      exact ⟨e1, e2, e3, e4, e5, e6, fun _ => e7⟩
    · obtain ⟨e1, e2, e3, e4, e5, e6⟩ := k.quadError hq he
      exact ⟨e1, e2, e3, e4, e5, e6, fun hs => absurd hs (by rw [serial_not_quad hq]; decide)⟩
  · rw [← s.latchStart_src l]
    exact htravel n ((s.latchStart_powered l 1).trans hp) ((s.powered_advTo l _).trans h)
      (by rw [s.latchStart_plan]; exact hw) he hh hx

end Sys2Proof.Machine

namespace Sys2Proof.Machine

section Severing

variable {s t u z : State} {xs ys : List Nat} {p : Port} {R : Nat → Bool}

/-! ### What follows the loss of a link (R96, R121, R124) -/

/-- The parts of the state that the loss of a link leaves. -/
def State.stands (s : State) :=
  (s.clk, s.gtc, s.reqs, s.coils, s.fbks, s.gdrs, s.adcs, s.lcs, s.bufs, s.dirty, s.pmu)

/-- From s to t fetching has ended and records have been made, and no more than the sources xs have tripped: of the ports only
what they hold has grown, and no context that was to fetch nothing is to fetch anything. -/
structure Severs (xs : List Nat) (s t : State) : Prop where
  port : ∀ p, t.port p = { s.port p with held := (t.port p).held }
  held : ∀ p, (s.port p).held <+: (t.port p).held
  due : ∀ k, (s.ctx k).due = 0 → (t.ctx k).due = 0
  regs : ∀ o, faultReg o = false → o ∉ [Reg.CLK_STAT, Reg.TBS_PTM_STAT] → t.reg o = s.reg o
  src : ∀ j, j ∉ xs → t.src j = s.src j
  streams : t.streams = s.streams
  stands : t.stands = s.stands

theorem Severs.refl (s : State) : Severs xs s s :=
  ⟨fun _ => rfl, fun _ => List.prefix_rfl, fun _ => id, fun _ _ _ => rfl, fun _ _ => rfl, rfl, rfl⟩

theorem Severs.trans (h : Severs xs s t) (k : Severs xs t u) : Severs xs s u where
  port p := by rw [k.port p, h.port p]
  held p := (h.held p).trans (k.held p)
  due c := k.due c ∘ h.due c
  regs o h1 h2 := (k.regs o h1 h2).trans (h.regs o h1 h2)
  src j hj := (k.src j hj).trans (h.src j hj)
  streams := k.streams.trans h.streams
  stands := k.stands.trans h.stands

theorem Severs.mono (h : Severs xs s t) (hx : ∀ j ∈ xs, j ∈ ys) : Severs ys s t :=
  ⟨h.port, h.held, h.due, h.regs, fun j hj => h.src j fun e => hj (hx j e), h.streams, h.stands⟩

theorem Severs.ite {c : Prop} [Decidable c] {a b : State} (h : Severs xs z a) (k : Severs xs z b) :
    Severs xs z (if c then a else b) := by
  split <;> assumption

theorem Severs.each {α : Type} {l : List α} {f : State → α → State} (hf : ∀ s a, Severs xs s (f s a)) :
    Severs xs s (Machine.each l f s) := by
  induction l generalizing s with
  | nil => exact Severs.refl s
  | cons a l ih => exact (hf s a).trans ih

/-- Registers that what follows the loss of a link may change. -/
def lossReg (o : Nat) : Prop := faultReg o = true ∨ o ∈ [Reg.CLK_STAT, Reg.TBS_PTM_STAT]

theorem Reports.severs (h : Reports R s t) (hr : ∀ o, R o = true → lossReg o)
    (hh : ∀ p, (s.port p).held <+: (t.port p).held) : Severs xs s t where
  port := h.port
  held := hh
  due k e := by rw [(h.waiting k).2, e]
  regs o h1 h2 := h.regs o (by
    by_contra hc
    obtain e | e := hr o (by simpa using hc)
    · exact absurd (h1.symm.trans e) (by decide)
    · exact h2 e)
  src j _ := h.src j
  streams := by rw [h.rest]
  stands := (congrArg State.stands h.rest :)

theorem lossReg_ring {o : Nat} (h : ringReg o = true) : lossReg o := .inl (faultReg_of_reportReg o (reportReg_of_ringReg o h))

theorem State.setCtx_severs (s : State) {k : Ctx} {x : CtxS} (hx : (s.ctx k).due = 0 → x.due = 0) : Severs xs s (s.setCtx k x) := by
  refine ⟨fun _ => rfl, fun _ => List.prefix_rfl, fun j => ?_, fun _ _ _ => rfl, fun _ _ => rfl, rfl, rfl⟩
  by_cases e : j = k
  · subst e
    rw [State.ctx_setCtx_self]
    exact hx
  · rw [State.ctx_setCtx_ne _ _ e]
    exact id

theorem State.complete_severs (s : State) (k : Ctx) (ws : List Word) : Severs xs s (s.complete k ws) :=
  (State.complete_reports k ws).severs (fun _ => lossReg_ring) (s.complete_abides k ws).held

theorem State.completes_severs {α : Type} (s : State) (k : Ctx) (l : List α) (f : State → α → List Word) :
    Severs xs s (each l (fun s x => s.complete k (f s x)) s) := .each fun s _ => s.complete_severs k _

theorem State.flushKept_severs (s : State) (k : Ctx) : Severs xs s (s.flushKept k) := by
  unfold State.flushKept
  extract_lets ks
  have h : Severs xs s (s.setCtx k { s.ctx k with kept := [] }) := s.setCtx_severs id
  exact .ite (h.trans (State.completes_severs _ k ks fun _ x => x.2)) (.refl s)

theorem State.fetchEnd_severs (s : State) (k : Ctx) : Severs xs s (s.fetchEnd k) := by
  refine .ite ?_ (.refl s)
  unfold State.refuseMembers
  extract_lets ms _ u
  have h : Severs xs s u := s.setCtx_severs id
  exact (h.trans (State.completes_severs u k ms _)).trans (State.flushKept_severs _ k)

/-- The fetching of one context ends. -/
theorem State.fetchCut_severs (s : State) (k : Ctx) : let t := (s.setCtx k { s.ctx k with due := 0 }).fetchEnd k
    Severs xs s t ∧ (t.ctx k).due = 0 := by
  intro t
  have h : Severs xs (s.setCtx k { s.ctx k with due := 0 }) t := State.fetchEnd_severs _ k
  refine ⟨(s.setCtx_severs fun _ => rfl).trans h, h.due k ?_⟩
  rw [State.ctx_setCtx_self]

theorem State.fetchStop_severs (s : State) (p : Port) : Severs xs (s.setPort p { s.port p with page := false }) (s.fetchStop p) :=
  .each fun s k => (s.fetchCut_severs k).1

theorem State.ctxPort_congr {k : Ctx} (h1 : t.reg Reg.HIF_MGMT = s.reg Reg.HIF_MGMT)
    (h2 : t.reg (Reg.HIF_CTX_CFG k) = s.reg (Reg.HIF_CTX_CFG k)) : t.ctxPort k = s.ctxPort k := by
  rw [State.ctxPort, State.rd_of_reg (f := F.HIF_MGMT_OWNER) h1, State.rd_of_reg (f := F.HIF_CTX_CFG_PORT k) h2]
  rfl

theorem State.reg_setPort (s : State) (p : Port) (x : PortS) (o : Nat) : (s.setPort p x).reg o = s.reg o := by cases p <;> rfl

theorem State.ctxPort_setPort (s : State) (p : Port) (x : PortS) (k : Ctx) : (s.setPort p x).ctxPort k = s.ctxPort k :=
  State.ctxPort_congr (s.reg_setPort p x _) (s.reg_setPort p x _)

/-- No context of the port fetches any more. -/
theorem State.fetchStop_due (s : State) {k : Ctx} (h : s.ctxPort k = p) : ((s.fetchStop p).ctx k).due = 0 := by
  have hm : k ∈ allCtxs.filter fun k => (s.setPort p { s.port p with page := false }).ctxPort k = p := by
    simp [s.ctxPort_setPort, h, allCtxs]
  obtain ⟨u, -, h2⟩ := each_at (T := Severs []) (f := fun s k => (s.setCtx k { s.ctx k with due := 0 }).fetchEnd k) Severs.refl
    (fun _ _ _ => Severs.trans) (fun s a _ => (s.fetchCut_severs a).1) hm ((List.nodup_finRange 64).filter _)
    (s.setPort p { s.port p with page := false })
  exact h2.due k (u.fetchCut_severs (xs := []) k).2

theorem State.recUpdate_severs (s : State) : Severs xs s s.recUpdate := by
  obtain ⟨⟨r, c, e⟩, hr, -⟩ := s.recGone_frame 3
  have e : s.recUpdate = _ := e
  have hr : ∀ o, _ → s.recUpdate.reg o = s.reg o := hr
  refine ⟨fun p => ?_, fun p => ?_, fun k => ?_, fun o _ h2 => hr o fun _ e => h2 (by simp [e]), fun j _ => ?_, ?_, ?_⟩
  · rw [e]
    cases p <;> rfl
  · rw [e]
    cases p <;> exact List.prefix_rfl
  · rw [e]
    exact id
  · rw [e]
    rfl
  · rw [e]
  · rw [e]
    rfl

theorem Aftermath.severs (h : Aftermath s t) (k : Abides s t) (hs : ∀ j, j ∉ xs → t.src j = s.src j) : Severs xs s t where
  port := k.port
  held := k.held
  due c e := (k.due c).trans e
  regs o h1 _ := h.regs o h1
  src := hs
  streams := (congrArg State.streams h.rest :)
  stands := (congrArg State.stands h.rest :)

theorem State.trip_severs (s : State) (k : Nat) (act : Bool) : Severs [k] s (s.trip k act) := by
  refine Aftermath.severs (s.trip_aftermath k act none false) (s.trip_abides k act none false) fun j hj => ?_
  have hj : j ≠ k := by simpa using hj
  obtain h | h := s.trip_cases k act none false
  · rw [h]
  · exact h.others j hj

theorem State.devEvent_severs (s : State) (kind d0 d1 d2 : Nat) (fault : Bool) : Severs xs s (s.devEvent kind d0 d1 d2 fault) :=
  (State.eventTo_reports 0 _).severs (fun o h => lossReg_ring (ringReg_of_eventReg o h)) (s.eventTo_abides 0 _).held

theorem ptmUnlocked_severs (s : State) : Severs xs s (ptmUnlocked s) := by
  have h : Reports (fun o => o = Reg.TBS_PTM_STAT) s ((s.wr F.TBS_PTM_STAT_LOCK 0).sqc F.TBS_PTM_STAT_LOST) :=
    (State.wr_reports _ _ (by decide)).trans (State.sqc_reports _ (by decide))
  have hs : Severs xs s ((s.wr F.TBS_PTM_STAT_LOCK 0).sqc F.TBS_PTM_STAT_LOST) :=
    h.severs (fun o e => .inr (by simp_all)) fun p => by cases p <;> simp [State.port]
  exact hs.trans ⟨fun _ => rfl, fun _ => List.prefix_rfl, fun _ => id, fun _ _ _ => rfl, fun _ _ => rfl, rfl, rfl⟩

theorem State.ptmLose_severs (s : State) : Severs [21] s s.ptmLose := by
  have hq : Severs [21] s (ptmRunEnds s) :=
    ⟨fun p => by cases p <;> rfl, fun p => by cases p <;> exact List.prefix_rfl, fun _ => id, fun _ _ _ => rfl,
      fun _ _ => rfl, rfl, rfl⟩
  cases h : s.flag F.TBS_PTM_STAT_LOCK with
  | false =>
    rw [State.ptmLose_unlocked h]
    exact hq
  | true =>
    obtain ⟨d0, d1, e⟩ := s.ptmLose_locked h
    have hu : Severs [21] (ptmRunEnds s) (ptmUnlocked (ptmRunEnds s)) := (ptmUnlocked_severs _)
    rw [e]
    exact ((hq.trans hu).trans (State.trip_severs _ 21 false)).trans (State.devEvent_severs _ _ _ _ _ _)

end Severing

end Sys2Proof.Machine

namespace Sys2Proof.Machine

section Holding

variable {s t u z : State} {xs : List Nat} {p : Port} {n : Nat} {us : List Unacked}

/-! ### What was not acknowledged is held again (R114, R121, R124) -/

theorem State.dropEvent_severs (s : State) (k : Ctx) : Severs xs s (s.dropEvent k) :=
  (State.dropEvent_reports k).severs (fun o h => lossReg_ring (ringReg_of_eventReg o h)) fun p => by
    cases p <;> exact List.prefix_rfl

/-- The records not acknowledged, without the ends of telemetry blocks. -/
def heldAgain (us : List Unacked) : List Held := us.filterMap fun | .hold h => some h | .block _ _ => none

/-- One write of the list, if it is the end of a telemetry block. -/
def dropEnded (s : State) (u : Unacked) : State := match u with | .block i true => s.dropBlock i | _ => s

/-- A held record shows in the status of its context. -/
def showHeld (s : State) (h : Held) : State := match h with | .record k _ _ _ _ => s.wr (F.HIF_CTX_STAT_HELD k) 1 | .data _ _ => s

/-- The port with its unacknowledged writes before what it held. -/
def State.takeBack (s : State) (p : Port) (n : Nat) : State :=
  s.setPort p { s.port p with held := (capEvents 256 (heldAgain (unacked s p n) ++ (s.port p).held)).1 }

theorem State.reHold_eq (s : State) (p : Port) (n : Nat) : s.reHold p n =
    each (capEvents 256 (heldAgain (unacked s p n) ++ (s.port p).held)).1 showHeld
      (each (unacked s p n) dropEnded
        (each (capEvents 256 (heldAgain (unacked s p n) ++ (s.port p).held)).2 State.dropEvent (s.takeBack p n))) := by
  have e : ∀ l : List Unacked, (l.filterMap fun | .hold h => some h | _ => none) = heldAgain l := fun l =>
    congrArg (List.filterMap · l) (funext fun u => by cases u <;> rfl)
  unfold State.reHold
  extract_lets us x _ a b c
  have hx : x = capEvents 256 (heldAgain us ++ (s.port p).held) := by
    unfold x
    rw [← e] <;> rfl
  have hs : dropEnded = fun s u => match u with | .block i true => State.dropBlock s i | _ => s := by
    funext s u
    unfold dropEnded
    split <;> rfl
  have hh : showHeld = fun s h => match h with | .record k _ _ _ _ => State.wr s (F.HIF_CTX_STAT_HELD k) 1 | .data _ _ => s := by
    funext s u
    unfold showHeld
    split <;> rfl
  unfold c b a State.takeBack
  rw [hx, hs, hh] <;> rfl

theorem showHeld_severs (s : State) (h : Held) : Severs xs s (showHeld s h) := by
  cases h with
  | record k =>
    exact (State.wr_reports (R := eventReg) _ 1 (eventReg_ctxStat k)).severs
      (fun o h => lossReg_ring (ringReg_of_eventReg o h)) fun p => by cases p <;> exact List.prefix_rfl
  | data => exact .refl s

/-- From s to t the ends of telemetry blocks us have been dropped: each counts, and its stream shows GAP. -/
structure Drops (us : List Unacked) (s t : State) : Prop where
  count : ∀ i : Fin 8, t.rd (F.HIF_TLM_STAT_DROP i.val) = min 65535 (s.rd (F.HIF_TLM_STAT_DROP i.val) + us.count (.block i true))
  gap : ∀ i : Fin 8, t.stream i = if Unacked.block i true ∈ us then { s.stream i with gap := true } else s.stream i
  regs : ∀ o, (∀ i : Fin 8, o ≠ (F.HIF_TLM_STAT_DROP i.val).off) → t.reg o = s.reg o
  rest : t = { s with regs := t.regs, cntNow := t.cntNow, streams := t.streams }

theorem State.dropped_le (s : State) (i : Fin 8) : s.rd (F.HIF_TLM_STAT_DROP i.val) ≤ 65535 :=
  Nat.le_of_lt_succ (s.rd_lt (F.HIF_TLM_STAT_DROP i.val))

theorem tlmStat_ne {i j : Fin 8} (h : j ≠ i) : (F.HIF_TLM_STAT_DROP j.val).off ≠ (F.HIF_TLM_STAT_DROP i.val).off := by
  revert i j
  decide +kernel

theorem State.dropBlock_drops (s : State) (i : Fin 8) : Drops [.block i true] s (s.dropBlock i) := by
  refine ⟨fun j => ?_, fun j => ?_, fun o h => State.reg_cnt_ne s 1 (h i), rfl⟩
  · have hj := s.dropped_le j
    by_cases h : j = i
    · subst h
      have e : (s.dropBlock j).rd (F.HIF_TLM_STAT_DROP j.val) = min (s.rd (F.HIF_TLM_STAT_DROP j.val) + 1) 65535 % 65536 :=
        State.rd_wr_self (s.noteCnt _ _) rfl _
      rw [e, List.count_singleton_self]
      omega
    · have e : (s.dropBlock i).rd (F.HIF_TLM_STAT_DROP j.val) = s.rd (F.HIF_TLM_STAT_DROP j.val) :=
        State.rd_of_reg (State.reg_cnt_ne s 1 (tlmStat_ne h))
      rw [e, List.count_eq_zero.2 (by simpa using h)]
      exact (Nat.min_eq_right hj).symm
  · by_cases h : j = i
    · subst h
      rw [if_pos (by simp)]
      exact State.stream_setStream_self _ j _
    · rw [if_neg (by simpa using h)]
      exact State.stream_setStream_ne _ _ h

theorem Drops.nil (s : State) : Drops [] s s :=
  ⟨fun i => (Nat.min_eq_right (s.dropped_le i)).symm, fun _ => rfl, fun _ _ => rfl, rfl⟩

theorem Drops.append {vs : List Unacked} (h : Drops us s t) (k : Drops vs t u) : Drops (us ++ vs) s u where
  count i := by
    rw [k.count, h.count, List.count_append]
    omega
  gap i := by
    rw [k.gap, h.gap]
    by_cases h1 : Unacked.block i true ∈ us <;> by_cases h2 : Unacked.block i true ∈ vs <;> simp [h1, h2]
  regs o ho := (k.regs o ho).trans (h.regs o ho)
  rest := by
    rw [k.rest, h.rest]

theorem Drops.other (s : State) {a : Unacked} (h : ∀ i, a ≠ .block i true) : Drops [a] s s where
  count i := by
    rw [List.count_eq_zero.2 (by simpa using (h i).symm)]
    exact (Drops.nil s).count i
  gap i := (if_neg (by simpa using (h i).symm)).symm
  regs _ _ := rfl
  rest := rfl

theorem dropEnded_drops (s : State) (a : Unacked) : Drops [a] s (dropEnded s a) := by
  cases a with
  | hold h => exact .other s fun i => by simp
  | block i last =>
    cases last with
    | true => exact s.dropBlock_drops i
    | false => exact .other s fun i => by simp

theorem dropsEnded_drops (us : List Unacked) (s : State) : Drops us s (each us dropEnded s) := by
  induction us generalizing s with
  | nil => exact .nil s
  | cons a l ih => exact (dropEnded_drops s a).append (ih _)

/-- From s to t port p holds its latest n writes again. -/
structure Reheld (p : Port) (us : List Unacked) (hs : List Held) (s t : State) : Prop where
  held : hs <+: (t.port p).held
  count : ∀ i : Fin 8, t.rd (F.HIF_TLM_STAT_DROP i.val) = min 65535 (s.rd (F.HIF_TLM_STAT_DROP i.val) + us.count (.block i true))
  gap : ∀ i : Fin 8, t.stream i = if Unacked.block i true ∈ us then { s.stream i with gap := true } else s.stream i
  regs : ∀ o, faultReg o = false → (∀ i : Fin 8, o ≠ (F.HIF_TLM_STAT_DROP i.val).off) →
    o ∉ [Reg.CLK_STAT, Reg.TBS_PTM_STAT] → t.reg o = s.reg o
  src : ∀ j, t.src j = s.src j
  stands : t.stands = s.stands

theorem tlmStat_apart (i : Fin 8) : faultReg (F.HIF_TLM_STAT_DROP i.val).off = false ∧
    (F.HIF_TLM_STAT_DROP i.val).off ∉ [Reg.CLK_STAT, Reg.TBS_PTM_STAT] := by
  revert i
  decide +kernel

theorem State.reHold_reheld (s : State) (p : Port) (n : Nat) :
    Reheld p (unacked s p n) (capEvents 256 (heldAgain (unacked s p n) ++ (s.port p).held)).1 s (s.reHold p n) := by
  rw [s.reHold_eq]
  generalize hx : capEvents 256 (heldAgain (unacked s p n) ++ (s.port p).held) = x
  have hv : ((s.takeBack p n).port p).held = x.1 := by
    rw [State.takeBack, State.port_setPort_self, hx]
  have hr : ∀ o, (s.takeBack p n).reg o = s.reg o := s.reg_setPort p _
  have hs : (s.takeBack p n).streams = s.streams ∧ (s.takeBack p n).stands = s.stands ∧ (s.takeBack p n).fcs = s.fcs := by
    unfold State.takeBack
    cases p <;> exact ⟨rfl, rfl, rfl⟩
  generalize s.takeBack p n = v at *
  have h1 : Severs [] v (each x.2 State.dropEvent v) := .each fun s k => s.dropEvent_severs k
  generalize each x.2 State.dropEvent v = w at *
  have h2 := dropsEnded_drops (unacked s p n) w
  generalize each (unacked s p n) dropEnded w = y at *
  have h3 : Severs [] y (each x.1 showHeld y) := .each showHeld_severs
  generalize each x.1 showHeld y = t at *
  obtain ⟨e1, e2, e3⟩ := hs
  have hw : ∀ i : Fin 8, w.rd (F.HIF_TLM_STAT_DROP i.val) = s.rd (F.HIF_TLM_STAT_DROP i.val) := fun i => by
    obtain ⟨a, b⟩ := tlmStat_apart i
    exact State.rd_of_reg ((h1.regs _ a b).trans (hr _))
  have hy : ∀ i : Fin 8, w.stream i = s.stream i := fun i => congrArg (·[i]) (h1.streams.trans e1)
  refine ⟨?_, fun i => ?_, fun i => ?_, fun o a b c => ?_, fun j => ?_, ?_⟩
  · have e : (y.port p).held = (w.port p).held := by
      rw [h2.rest]
      cases p <;> rfl
    rw [← hv]
    exact ((h1.held p).trans (by rw [e])).trans (h3.held p)
  · obtain ⟨a, b⟩ := tlmStat_apart i
    rw [State.rd_of_reg (h3.regs _ a b), h2.count, hw]
  · rw [show t.stream i = y.stream i from congrArg (·[i]) h3.streams, h2.gap, hy]
  · exact (h3.regs o a c).trans ((h2.regs o b).trans ((h1.regs o a c).trans (hr o)))
  · have e : y.src j = w.src j := by rw [h2.rest]; rfl
    have e' : v.src j = s.src j := by rw [State.src, e3]; rfl
    exact (h3.src j (by simp)).trans (e.trans ((h1.src j (by simp)).trans e'))
  · have e : y.stands = w.stands := by rw [h2.rest]; rfl
    exact h3.stands.trans (e.trans (h1.stands.trans e2))

end Holding

end Sys2Proof.Machine

namespace Sys2Proof.Machine

section Losing

variable {s t u w z : State} {p : Port} {n : Nat}

/-! ### A link goes down (R114, R121, R124) -/

/-- The port shows that its link has gone. -/
def State.linkOff (s : State) (p : Port) : State :=
  let u := (((s.wr (onPort p F.HIF_PORT_STAT_LINK_UP) 0).wr (onPort p F.HIF_PORT_STAT_SPEED) 0).wr
    (onPort p F.HIF_PORT_STAT_L1) 0).sqc (onPort p F.HIF_PORT_STAT_LOST)
  u.setPort p { u.port p with downAt := u.clk, d3 := false }

/-- Precision time goes with the port that it comes over (R44). -/
def State.ptmOff (s : State) (p : Port) : State := if s.rd F.TBS_PTM_CTRL_PORT = p.num then s.ptmLose else s

/-- What the port had written, where it could, is held again. -/
def State.heldBack (s : State) (p : Port) (n : Nat) : State := if (s.port p).master then s.reHold p n else s

theorem State.linkLost_eq (h : s.linkUp p = true) : s.linkLost p n =
    (((((s.heldBack p n).linkOff p).fetchStop p).recUpdate).trip (16 + p.num) true).ptmOff p := by
  unfold State.linkLost
  rw [if_neg (by simp [h])]
  rfl

theorem State.linkOff_reg (s : State) (p : Port) {o : Nat} (h : o ≠ portOff p Reg.HIF_PORT_STAT) : (s.linkOff p).reg o = s.reg o := by
  unfold State.linkOff
  extract_lets u _
  rw [State.reg_setPort]
  refine (State.reg_sqc_ne _ h).trans ?_
  rw [State.reg_wr_ne _ _ h, State.reg_wr_ne _ _ h, State.reg_wr_ne _ _ h]

/-- What the port's status shows. -/
theorem State.linkOff_shows (s : State) (p : Port) : (s.linkOff p).linkUp p = false ∧
    (s.linkOff p).rd (onPort p F.HIF_PORT_STAT_SPEED) = 0 ∧ (s.linkOff p).flag (onPort p F.HIF_PORT_STAT_L1) = false ∧
    (s.linkOff p).flag (onPort p F.HIF_PORT_STAT_LOST) = true := by
  have up : (onPort p F.HIF_PORT_STAT_LINK_UP).ok = true := rfl
  have speed : (onPort p F.HIF_PORT_STAT_SPEED).ok = true := rfl
  have l1 : (onPort p F.HIF_PORT_STAT_L1).ok = true := rfl
  have lost : (onPort p F.HIF_PORT_STAT_LOST).ok = true := rfl
  unfold State.linkOff
  extract_lets u _
  generalize ht : u.setPort p _ = t
  have hr : ∀ f, t.rd f = u.rd f := fun f => State.rd_of_reg (by rw [← ht, State.reg_setPort])
  have still : ∀ {v : State} {g : Fld}, g.ok = true → g.off = Reg.HIF_PORT_STAT → g.hi < 4 →
      (v.sqc (onPort p F.HIF_PORT_STAT_LOST)).rd (onPort p g) = v.rd (onPort p g) := fun {v g} h1 h2 h3 =>
    State.rd_sqc_apart v (f := onPort p F.HIF_PORT_STAT_LOST) (g := onPort p g) h1 (Nat.lt_trans h3 (by decide))
      (congrArg (portOff p) h2) (.inr h3)
  have e1 : u.rd (onPort p F.HIF_PORT_STAT_LINK_UP) = 0 := by
    rw [still rfl rfl (by decide), State.rd_wr_ne _ _ (.inr ⟨l1, up, rfl⟩), State.rd_wr_ne _ _ (.inr ⟨speed, up, rfl⟩),
      State.rd_wr_self _ up]
    exact Nat.zero_mod _
  have e2 : u.rd (onPort p F.HIF_PORT_STAT_SPEED) = 0 := by
    rw [still rfl rfl (by decide), State.rd_wr_ne _ _ (.inr ⟨l1, speed, rfl⟩), State.rd_wr_self _ speed]
    exact Nat.zero_mod _
  have e3 : u.rd (onPort p F.HIF_PORT_STAT_L1) = 0 := by
    rw [still rfl rfl (by decide), State.rd_wr_self _ l1]
    exact Nat.zero_mod _
  refine ⟨?_, (hr _).trans e2, ?_, ?_⟩
  · rw [State.linkUp, State.flag, hr, e1]
    rfl
  · rw [State.flag, hr, e3]
    rfl
  · rw [State.flag, hr]
    exact State.flag_sqc _ lost (show (4 : Nat) < 24 by decide)

theorem State.linkOff_rest (s : State) (p : Port) : (s.linkOff p).stands = s.stands ∧ (s.linkOff p).streams = s.streams ∧
    (s.linkOff p).fcs = s.fcs ∧ ((s.linkOff p).port p).held = (s.port p).held ∧ ((s.linkOff p).port p).downAt = s.clk := by
  have e : ∀ v : State, (v.setPort p { v.port p with downAt := v.clk, d3 := false }).stands = v.stands ∧
      (v.setPort p { v.port p with downAt := v.clk, d3 := false }).streams = v.streams ∧
      (v.setPort p { v.port p with downAt := v.clk, d3 := false }).fcs = v.fcs := fun v => by
    cases p <;> exact ⟨rfl, rfl, rfl⟩
  unfold State.linkOff
  extract_lets u _
  have hu : u.stands = s.stands ∧ u.streams = s.streams ∧ u.fcs = s.fcs ∧ u.port p = s.port p ∧ u.clk = s.clk := by
    unfold u
    cases p <;> simp [State.stands, State.port]
  obtain ⟨h1, h2, h3, h4, h5⟩ := hu
  obtain ⟨k1, k2, k3⟩ := e u
  rw [State.port_setPort_self]
  have held : (u.port p).held = (s.port p).held := congrArg PortS.held h4
  exact ⟨k1.trans h1, k2.trans h2, k3.trans h3, held, h5⟩

theorem State.heldBack_reheld (s : State) (p : Port) (n : Nat) :
    Reheld p (if (s.port p).master then unacked s p n else [])
      (let all := heldAgain (if (s.port p).master then unacked s p n else []) ++ (s.port p).held
       if (s.port p).master then (capEvents 256 all).1 else all) s (s.heldBack p n) := by
  unfold State.heldBack
  split
  · exact s.reHold_reheld p n
  · exact ⟨List.prefix_rfl, (Drops.nil s).count, (Drops.nil s).gap, fun _ _ _ _ => rfl, fun _ => rfl, rfl⟩

theorem State.ptmOff_severs (s : State) (p : Port) : Severs [21] s (s.ptmOff p) := .ite s.ptmLose_severs (.refl s)

/-- The port's source trips, and precision time is lost. -/
theorem State.tripLink (s : State) (p : Port) (hp : s.powered 1 = true) :
    let t := (s.trip (16 + p.num) true).ptmOff p
    Severs [16 + p.num, 21] s t ∧ (t.src (16 + p.num)).active = true ∧
      (t.src (16 + p.num)).total = min 255 ((s.src (16 + p.num)).total + 1) ∧
      (s.rd F.TBS_PTM_CTRL_PORT = p.num → t.flag F.TBS_PTM_STAT_LOCK = false) := by
  intro t
  have h1 := s.trip_severs (16 + p.num) true
  have h2 : Severs [21] (s.trip (16 + p.num) true) t := State.ptmOff_severs _ p
  have ht := State.trip_tripped s (16 + p.num) true none false (by cases p <;> decide +kernel) hp
  have hne : 16 + p.num ∉ [21] := by cases p <;> decide
  refine ⟨(h1.mono (by simp)).trans (h2.mono (by simp)), (congrArg SrcS.active (h2.src _ hne)).trans ht.active,
    (congrArg SrcS.total (h2.src _ hne)).trans ht.total, fun hc => ?_⟩
  have e : (s.trip (16 + p.num) true).rd F.TBS_PTM_CTRL_PORT = p.num :=
    (State.rd_of_reg (h1.regs _ (by decide +kernel) (by decide))).trans hc
  have e' : t = (s.trip (16 + p.num) true).ptmLose := if_pos e
  rw [e']
  exact (State.ptmLose_settles _).2.2

/-- The port's fetching ends, and what its clock gave goes. -/
theorem State.fetchLost_severs (s : State) (p : Port) : Severs [] (s.setPort p { s.port p with page := false })
    (s.fetchStop p).recUpdate ∧ ∀ k, s.ctxPort k = p → ((s.fetchStop p).recUpdate.ctx k).due = 0 :=
  have h := (s.fetchStop p).recUpdate_severs
  ⟨(s.fetchStop_severs p).trans h, fun k hk => h.due k (s.fetchStop_due hk)⟩

/-- What a lost link does after it has gone: fetching ends, the source trips and precision time is lost. -/
structure Lost (p : Port) (s t : State) : Prop where
  severs : Severs [16 + p.num, 21] (s.setPort p { s.port p with page := false }) t
  due : ∀ k, s.ctxPort k = p → (t.ctx k).due = 0
  active : (t.src (16 + p.num)).active = true
  total : (t.src (16 + p.num)).total = min 255 ((s.src (16 + p.num)).total + 1)
  lock : s.rd F.TBS_PTM_CTRL_PORT = p.num → t.flag F.TBS_PTM_STAT_LOCK = false

theorem State.lossEnds (s : State) (p : Port) (hp : s.powered 1 = true) :
    Lost p s ((((s.fetchStop p).recUpdate).trip (16 + p.num) true).ptmOff p) := by
  obtain ⟨h, hd⟩ := s.fetchLost_severs p
  have hr : ∀ o, faultReg o = false → o ∉ [Reg.CLK_STAT, Reg.TBS_PTM_STAT] → (s.fetchStop p).recUpdate.reg o = s.reg o :=
    fun o h1 h2 => (h.regs o h1 h2).trans (s.reg_setPort _ _ _)
  have hpmu : (s.fetchStop p).recUpdate.pmu = s.pmu := by
    have e : (s.fetchStop p).recUpdate.pmu = (s.setPort p { s.port p with page := false }).pmu :=
      congrArg (fun x => x.2.2.2.2.2.2.2.2.2.2) h.stands
    rw [e, State.setPort_pmu]
  have hsrc : (s.fetchStop p).recUpdate.src (16 + p.num) = s.src (16 + p.num) := by
    rw [h.src _ (by simp), State.src, State.setPort_fcs]
    rfl
  generalize (s.fetchStop p).recUpdate = v at *
  obtain ⟨k, k1, k2, k3⟩ := v.tripLink p ((State.powered_congr (by rw [hpmu]) (hr _ (by decide +kernel) (by decide)) 1).trans hp)
  refine ⟨(h.mono (by simp)).trans k, fun c hc => k.due c (hd c hc), k1, k2.trans (by rw [hsrc]), fun hc => k3 ?_⟩
  exact (State.rd_of_reg (hr _ (by decide +kernel) (by decide))).trans hc

end Losing

section Reset

variable {s : State} {p : Port} {n : Nat}

theorem portStat_kept (p : Port) : faultReg (portOff p Reg.HIF_PORT_STAT) = false ∧
    portOff p Reg.HIF_PORT_STAT ∉ [Reg.CLK_STAT, Reg.TBS_PTM_STAT] := by
  cases p <;> decide +kernel

theorem ctxCfg_kept (k : Ctx) : faultReg (Reg.HIF_CTX_CFG k) = false ∧
    (∀ i : Fin 8, Reg.HIF_CTX_CFG k ≠ (F.HIF_TLM_STAT_DROP i.val).off) ∧
    Reg.HIF_CTX_CFG k ∉ [Reg.CLK_STAT, Reg.TBS_PTM_STAT] ∧ ∀ p, Reg.HIF_CTX_CFG k ≠ portOff p Reg.HIF_PORT_STAT := by
  have apart : ∀ k : Ctx, Reg.HIF_CTX_CFG k ≠ portOff .A Reg.HIF_PORT_STAT ∧ Reg.HIF_CTX_CFG k ≠ portOff .B Reg.HIF_PORT_STAT := by
    decide +kernel
  refine ⟨?_, ?_, ?_, fun p => ?_⟩
  · revert k
    decide +kernel
  · revert k
    decide +kernel
  · revert k
    decide +kernel
  · cases p
    exacts [(apart k).1, (apart k).2]

/-- What a lost link leaves, from the state that has its writes back. -/
theorem State.linkLost_lost (s : State) (p : Port) (n : Nat) (hu : s.linkUp p = true) (hp : s.powered 1 = true) :
    Lost p ((s.heldBack p n).linkOff p) (s.linkLost p n) := by
  rw [s.linkLost_eq hu]
  refine State.lossEnds _ p ((State.powered_congr ?_ ?_ 1).trans hp)
  · have e : ((s.heldBack p n).linkOff p).pmu = s.pmu := congrArg (fun x => x.2.2.2.2.2.2.2.2.2.2)
      (((s.heldBack p n).linkOff_rest p).1.trans (s.heldBack_reheld p n).stands)
    rw [e]
  · rw [State.linkOff_reg _ _ (by cases p <;> decide)]
    exact (s.heldBack_reheld p n).regs _ (by decide +kernel) (by decide +kernel) (by decide)

/-- The registers that a reset of port p clears. -/
def clearedReg (p : Port) (o : Nat) : Bool :=
  (portOff p 0x80000 ≤ o && o < portOff p 0x80400) || (portOff p 0x81000 ≤ o && o < portOff p 0x81008) ||
    o = portOff p Reg.HIF_DB_BASE_LO || o = portOff p Reg.HIF_DB_BASE_HI

theorem clearedReg_iff (p : Port) (o : Nat) : clearedReg p o = true ↔ (portOff p 0x80000 ≤ o ∧ o < portOff p 0x80400) ∨
    (portOff p 0x81000 ≤ o ∧ o < portOff p 0x81008) ∨ o = portOff p Reg.HIF_DB_BASE_LO ∨ o = portOff p Reg.HIF_DB_BASE_HI := by
  simp only [clearedReg, Bool.or_eq_true, Bool.and_eq_true, decide_eq_true_eq, or_assoc]

theorem fileGet_filter (dflt : Nat → Word) (keep : Nat → Bool) (l : List (Nat × Word)) (o : Nat) :
    fileGet dflt (l.filter fun x => keep x.1) o = if keep o then fileGet dflt l o else dflt o := by
  have e : (l.filter fun x => keep x.1) = l.filterMap fun x => if keep x.1 then some x else none :=
    (List.filterMap_eq_filter (p := fun x : Nat × Word => keep x.1)).symm ▸ rfl
  have hk : ∀ x y : Nat × Word, (if keep x.1 then some x else none) = some y → y.1 = x.1 := by grind
  rw [e]
  split
  · next h => exact fileGet_filterMap_keep _ _ _ hk (fun w => if_pos h) _
  · next h => exact fileGet_filterMap_none _ _ _ hk (fun w => if_neg h) _

theorem State.clearPort_reg (s : State) (p : Port) (o : Nat) :
    (s.clearPort p).reg o = if clearedReg p o then resetWord o else s.reg o := by
  refine (fileGet_filter resetWord (fun o => !clearedReg p o) s.regs o).trans ?_
  cases clearedReg p o <;> rfl

/-- Where no member of a context waits, the end of its fetching is all that happens. -/
theorem fetchCut_still {l : List Ctx} (h : ∀ k ∈ l, (s.ctx k).members = []) :
    let t := each l (fun s k => (s.setCtx k { s.ctx k with due := 0 }).fetchEnd k) s
    (∀ k, t.ctx k = if k ∈ l then { s.ctx k with due := 0 } else s.ctx k) ∧ t = { s with ctxs := t.ctxs } := by
  induction l generalizing s with
  | nil => exact ⟨fun _ => rfl, rfl⟩
  | cons a l ih =>
    have ha : ∀ k, (s.setCtx a { s.ctx a with due := 0 }).ctx k = if k = a then { s.ctx k with due := 0 } else s.ctx k := fun k => by
      split
      · next e => subst e; exact State.ctx_setCtx_self _ _ _
      · next e => exact State.ctx_setCtx_ne _ _ e
    have e : (s.setCtx a { s.ctx a with due := 0 }).fetchEnd a = s.setCtx a { s.ctx a with due := 0 } := by
      refine if_neg fun hc => hc.2 ?_
      rw [ha, if_pos rfl]
      exact h a (by simp)
    have hm : ∀ k ∈ l, ((s.setCtx a { s.ctx a with due := 0 }).ctx k).members = [] := fun k hk => by
      rw [ha]
      split <;> exact h k (by simp [hk])
    intro t
    have et : t = each l (fun s k => (s.setCtx k { s.ctx k with due := 0 }).fetchEnd k) (s.setCtx a { s.ctx a with due := 0 }) :=
      congrArg (each l _) e
    obtain ⟨h1, h2⟩ := ih hm
    rw [← et] at h1 h2
    refine ⟨fun k => ?_, h2⟩
    rw [h1, ha]
    by_cases h3 : k = a <;> by_cases h4 : k ∈ l <;> simp [h3, h4]

theorem State.fetchStop_still (s : State) {p : Port} (h : ∀ k, s.ctxPort k = p → (s.ctx k).members = []) :
    (∀ k, (s.fetchStop p).ctx k = if s.ctxPort k = p then { s.ctx k with due := 0 } else s.ctx k) ∧
      s.fetchStop p = { s.setPort p { s.port p with page := false } with ctxs := (s.fetchStop p).ctxs } := by
  have hc : ∀ k, (s.setPort p { s.port p with page := false }).ctx k = s.ctx k := fun k => by cases p <;> rfl
  have hm : ∀ k, k ∈ (allCtxs.filter fun k => (s.setPort p { s.port p with page := false }).ctxPort k = p) ↔ s.ctxPort k = p :=
    fun k => by simp [s.ctxPort_setPort, allCtxs]
  obtain ⟨h1, h2⟩ := fetchCut_still (s := s.setPort p { s.port p with page := false }) fun k hk => (hc k).symm ▸ h k ((hm k).1 hk)
  refine ⟨fun k => (h1 k).trans ?_, h2⟩
  simp only [hm, hc]

/-- The configuration of a function as a function-level reset leaves it (R122). -/
def PortS.functionReset (x : PortS) : PortS :=
  { x with master := false, ptmOn := false, msixOn := false, fmask := false, maxRead := 2, maxPay := 0, d3 := false }

theorem exec_functionLevelReset (hu : s.linkUp p = true) : exec (.functionLevelReset p) s =
    .next (((s.setPort p (s.port p).functionReset).fetchStop p).clearPort p) :=
  congrArg Host.Outcome.next (if_neg (by simp [hu]))

/-- Fetching on a port that has been set ends, where no member waits. -/
theorem State.fetchStop_setPort (s : State) (x : PortS) (h : ∀ k, s.ctxPort k = p → (s.ctx k).members = []) :
    (∀ k, ((s.setPort p x).fetchStop p).ctx k = if s.ctxPort k = p then { s.ctx k with due := 0 } else s.ctx k) ∧
      (s.setPort p x).fetchStop p =
        { s.setPort p { x with page := false } with ctxs := ((s.setPort p x).fetchStop p).ctxs } := by
  have hp : ∀ k, (s.setPort p x).ctx k = s.ctx k := fun k => by cases p <;> rfl
  have hk : ∀ k, (s.setPort p x).ctxPort k = s.ctxPort k := s.ctxPort_setPort p x
  obtain ⟨h1, h2⟩ := State.fetchStop_still (s.setPort p x) (p := p) fun k e => by
    rw [hp]
    exact h k ((hk k).symm.trans e)
  refine ⟨fun k => (h1 k).trans (by rw [hk, hp]), ?_⟩
  rw [State.port_setPort_self] at h2
  refine h2.trans ?_
  cases p <;> rfl

end Reset

section Gone

variable {s z w t : State} {p : Port} {us : List Unacked} {hs : List Held}

/-! ### What a lost link leaves, part by part -/

theorem Lost.reg (h : Lost p w t) {o : Nat} (h1 : faultReg o = false) (h2 : o ∉ [Reg.CLK_STAT, Reg.TBS_PTM_STAT]) :
    t.reg o = w.reg o := (h.severs.regs o h1 h2).trans (w.reg_setPort _ _ _)

theorem Lost.shows (h : Lost p (z.linkOff p) t) : t.linkUp p = false ∧ t.rd (onPort p F.HIF_PORT_STAT_SPEED) = 0 ∧
    t.flag (onPort p F.HIF_PORT_STAT_L1) = false ∧ t.flag (onPort p F.HIF_PORT_STAT_LOST) = true := by
  obtain ⟨o1, o2, o3, o4⟩ := z.linkOff_shows p
  have hrd : ∀ f : Fld, f.off = Reg.HIF_PORT_STAT → t.rd (onPort p f) = (z.linkOff p).rd (onPort p f) := fun f e =>
    State.rd_of_reg (by rw [onPort, e]; exact h.reg (portStat_kept p).1 (portStat_kept p).2)
  have hflag : ∀ f : Fld, f.off = Reg.HIF_PORT_STAT → t.flag (onPort p f) = (z.linkOff p).flag (onPort p f) := fun f e => by
    rw [State.flag, hrd f e]
    rfl
  exact ⟨(hflag _ rfl).trans o1, (hrd _ rfl).trans o2, (hflag _ rfl).trans o3, (hflag _ rfl).trans o4⟩

theorem Lost.port (h : Lost p (z.linkOff p) t) :
    (t.port p).downAt = z.clk ∧ (t.port p).page = false ∧ (z.port p).held <+: (t.port p).held := by
  obtain ⟨-, -, -, r4, r5⟩ := z.linkOff_rest p
  have e := h.severs.port p
  have e' := h.severs.held p
  rw [State.port_setPort_self] at e e'
  rw [← r5, ← r4]
  have e1 := congrArg PortS.downAt e
  have e2 := congrArg PortS.page e
  exact ⟨e1, e2, e'⟩

theorem Lost.stream (h : Lost p (z.linkOff p) t) (i : Fin 8) :
    t.rd (F.HIF_TLM_STAT_DROP i.val) = z.rd (F.HIF_TLM_STAT_DROP i.val) ∧ t.stream i = z.stream i := by
  have hs : t.streams = z.streams := (h.severs.streams.trans (State.setPort_streams ..)).trans (z.linkOff_rest p).2.1
  obtain ⟨h1, h2⟩ := tlmStat_apart i
  refine ⟨State.rd_of_reg ((h.reg h1 h2).trans (z.linkOff_reg p ?_)), congrArg (·[i]) hs⟩
  revert i
  cases p <;> decide +kernel

theorem Lost.kept (h : Lost p (z.linkOff p) t) (hh : Reheld p us hs s z) {o : Nat} (h1 : faultReg o = false)
    (h2 : ∀ i : Fin 8, o ≠ (F.HIF_TLM_STAT_DROP i.val).off)
    (h3 : o ∉ [portOff p Reg.HIF_PORT_STAT, Reg.CLK_STAT, Reg.TBS_PTM_STAT]) : t.reg o = s.reg o := by
  rw [List.mem_cons, not_or] at h3
  obtain ⟨h3, h4⟩ := h3
  exact (h.reg h1 h4).trans ((z.linkOff_reg p h3).trans (hh.regs o h1 h2 h4))

theorem Lost.idle (h : Lost p (z.linkOff p) t) (hh : Reheld p us hs s z) {k : Ctx} (hk : s.ctxPort k = p) : (t.ctx k).due = 0 := by
  obtain ⟨c1, c2, c3, c4⟩ := ctxCfg_kept k
  refine h.due k ((State.ctxPort_congr ?_ ?_).trans hk)
  · exact (z.linkOff_reg p (by cases p <;> decide)).trans (hh.regs _ (by decide +kernel) (by decide +kernel) (by decide))
  · exact (z.linkOff_reg p (c4 p)).trans (hh.regs _ c1 c2 c3)

theorem Lost.source (h : Lost p (z.linkOff p) t) (hh : Reheld p us hs s z) :
    (t.src (16 + p.num)).total = min 255 ((s.src (16 + p.num)).total + 1) := by
  have e : (z.linkOff p).src (16 + p.num) = s.src (16 + p.num) := by
    rw [← hh.src, State.src, (z.linkOff_rest p).2.2.1]
    rfl
  rw [h.total, e]

theorem Lost.unlocks (h : Lost p (z.linkOff p) t) (hh : Reheld p us hs s z) (hc : s.rd F.TBS_PTM_CTRL_PORT = p.num) :
    t.flag F.TBS_PTM_STAT_LOCK = false :=
  h.lock ((State.rd_of_reg ((z.linkOff_reg p (by cases p <;> decide)).trans
    (hh.regs _ (by decide +kernel) (by decide +kernel) (by decide)))).trans hc)

theorem Lost.stands (h : Lost p (z.linkOff p) t) (hh : Reheld p us hs s z) : t.stands = s.stands := by
  have e : ∀ w : State, (w.setPort p { w.port p with page := false }).stands = w.stands := fun w => by cases p <;> rfl
  exact h.severs.stands.trans ((e _).trans ((z.linkOff_rest p).1.trans hh.stands))

end Gone

/-- Settles O20: what was written is held again before the link goes, and nothing that follows takes from it. -/
theorem linksGoDown : Obligations.LinksGoDown := by
  intro s p stat cleared
  refine ⟨fun n hu hp => ⟨_, rfl, ?_⟩, fun n c hon hc => ?_, fun hu hm => ?_⟩
  · have hl := s.linkLost_lost p n hu hp
    have hh := s.heldBack_reheld p n
    generalize s.heldBack p n = z at *
    generalize s.linkLost p n = t at *
    obtain ⟨o1, o2, o3, o4⟩ := hl.shows
    obtain ⟨d1, d2, d3⟩ := hl.port
    have hclk : z.clk = s.clk := congrArg (fun x => x.1) hh.stands
    have hstands := hl.stands hh
    simp only [State.stands, Prod.mk.injEq] at hstands
    obtain ⟨e1, e2, e3, e4, e5, e6, e7, e8, e9, e10, -⟩ := hstands
    exact ⟨o1, o2, o3, o4, d1.trans hclk, d2, fun k => hl.idle hh, hh.held.trans d3,
      fun i => ⟨(hl.stream i).1.trans (hh.count i), (hl.stream i).2.trans (hh.gap i)⟩, hl.active, hl.source hh,
      hl.unlocks hh, fun o => hl.kept hh, e1, e2, e3, e4, e5, e6, e7, e8, e9, e10⟩
  · have e : exec c s = .next ((s.linkLost p n).clearPort p) := by
      obtain rfl | rfl | rfl := hc <;> exact congrArg Host.Outcome.next (if_pos hon)
    refine ⟨_, e, s.linkLost p n, rfl, fun o h => ?_, fun o h => ?_, rfl⟩
    · rw [State.clearPort_reg, if_pos ((clearedReg_iff p o).2 h)]
    · rw [State.clearPort_reg, if_neg fun e => h ((clearedReg_iff p o).1 e)]
  · obtain ⟨h1, h2⟩ := s.fetchStop_setPort (s.port p).functionReset hm
    refine ⟨_, exec_functionLevelReset hu, ?_⟩
    generalize (s.setPort p (s.port p).functionReset).fetchStop p = v at *
    have hclear : ∀ o, (v.clearPort p).reg o = if clearedReg p o then resetWord o else s.reg o := fun o => by
      rw [v.clearPort_reg, show v.reg o = s.reg o by rw [h2]; exact s.reg_setPort p _ o]
    have hport : ∀ q, (v.clearPort p).port q = (s.setPort p { (s.port p).functionReset with page := false }).port q := fun q => by
      rw [h2]
      cases q <;> rfl
    refine ⟨?_, fun o h => ?_, fun o h => ?_, ?_, ?_, h1, ?_⟩
    · refine (State.flag_of_reg ((hclear _).trans (if_neg ?_))).trans hu
      cases p <;> decide
    · rw [hclear, if_pos ((clearedReg_iff p o).2 h)]
    · rw [hclear, if_neg fun e => h ((clearedReg_iff p o).1 e)]
    · rw [hport, State.port_setPort_self]
      rfl
    · rw [hport, State.port_setPort_ne _ _ (by cases p <;> decide)]
    · rw [h2]
      cases p <;> rfl

end Sys2Proof.Machine

namespace Sys2Proof.Machine

section Ends

variable {s t u v : State} {n m : Axis} {o : Op} {e : Nat}

/-! ### What time leaves of the axes (R29, R62) -/

theorem State.advToGtc_plan (s : State) (t : Nat) (n : Axis) : (s.advToGtc t).plan n = s.plan n :=
  congrArg (·[n]) (s.advToGtc_plans t)

theorem State.advToGtc_opOf (s : State) (t k : Nat) : (s.advToGtc t).opOf k = s.opOf k := by
  rw [State.opOf, State.advToGtc_ops]
  rfl

theorem State.energised_congr (h : t.plan n = s.plan n) : t.energised n = s.energised n := by
  rw [State.energised, h]
  rfl

theorem State.advToGtc_energised (s : State) (t : Nat) (n : Axis) : (s.advToGtc t).energised n = s.energised n :=
  State.energised_congr (s.advToGtc_plan t n)

/-! ### An axis is energised (R159, R231, R272) -/

/-- From s to t axis n has been energised, or not: what that leaves. -/
structure Energises (n : Axis) (s t : State) : Prop where
  rest : t = { s with
    regs := t.regs, plans := t.plans, less := t.less, clps := t.clps, gdrs := t.gdrs, hbs := t.hbs, fbks := t.fbks }
  regs : RegsBut [Reg.LES_STAT n] s t
  others : ∀ m, m ≠ n → t.plan m = s.plan m ∧ t.les m = s.les m ∧ t.clp m = s.clp m ∧ t.fbk m = s.fbk m
  plan : t.plan n = { s.plan n with
    st := (t.plan n).st, holdMa := (t.plan n).holdMa, travelOut := (t.plan n).travelOut, useLes := (t.plan n).useLes }
  fbk : t.fbk n = { s.fbk n with xPrev := (t.fbk n).xPrev }

theorem Energises.refl (s : State) : Energises n s s := ⟨rfl, fun _ _ => rfl, fun _ _ => ⟨rfl, rfl, rfl, rfl⟩, rfl, rfl⟩

theorem Energises.trans (h : Energises n s t) (k : Energises n t u) : Energises n s u where
  rest := by
    have e := k.rest
    rw [h.rest] at e
    exact e
  regs o ho := (k.regs o ho).trans (h.regs o ho)
  others m hm := by
    obtain ⟨h1, h2, h3, h4⟩ := h.others m hm
    obtain ⟨k1, k2, k3, k4⟩ := k.others m hm
    exact ⟨k1.trans h1, k2.trans h2, k3.trans h3, k4.trans h4⟩
  plan := by rw [k.plan, h.plan]
  fbk := by rw [k.fbk, h.fbk]

theorem State.setLes_energises (s : State) (x : LesS) : Energises n s (s.setLes n x) :=
  ⟨rfl, fun _ _ => rfl, fun _ hm => ⟨rfl, State.les_setLes_ne s x hm, rfl, rfl⟩, rfl, rfl⟩

theorem State.setClp_energises (s : State) (x : ClpS) : Energises n s (s.setClp n x) :=
  ⟨rfl, fun _ _ => rfl, fun _ hm => ⟨rfl, rfl, State.clp_setClp_ne s x hm, rfl⟩, rfl, rfl⟩

theorem State.wr_energises (s : State) {f : Fld} (v : Nat) (h : f.off = Reg.LES_STAT n) : Energises n s (s.wr f v) :=
  ⟨rfl, fun o ho => State.reg_wr_ne s v (by rw [h]; simpa using ho), fun _ _ => ⟨rfl, rfl, rfl, rfl⟩, rfl, rfl⟩

theorem State.setGdr_energises (s : State) (b : Bank) (x : GdrS) : Energises n s (s.setGdr b x) :=
  ⟨rfl, fun _ _ => rfl, fun _ _ => ⟨rfl, rfl, rfl, rfl⟩, rfl, rfl⟩

theorem State.setHb_energises (s : State) (h : HalfBridge) (x : HbS) : Energises n s (s.setHb h x) :=
  ⟨rfl, fun _ _ => rfl, fun _ _ => ⟨rfl, rfl, rfl, rfl⟩, rfl, rfl⟩

theorem State.setPlan_energises (s : State) {x : AxisPlan} (h : x = { s.plan n with
    st := x.st, holdMa := x.holdMa, travelOut := x.travelOut, useLes := x.useLes }) : Energises n s (s.setPlan n x) := by
  refine ⟨rfl, fun _ _ => rfl, fun _ hm => ⟨State.plan_setPlan_ne s x hm, rfl, rfl, rfl⟩, ?_, rfl⟩
  rw [State.plan_setPlan_self]
  exact h

theorem State.setFbk_energises (s : State) {x : FbkS} (h : x = { s.fbk n with xPrev := x.xPrev }) : Energises n s (s.setFbk n x) := by
  refine ⟨rfl, fun _ _ => rfl, fun _ hm => ⟨rfl, rfl, rfl, State.fbk_setFbk_ne s x hm⟩, rfl, ?_⟩
  rw [State.fbk_setFbk_self]
  exact h

/-- The gate stage and CLP of an axis that is energised. -/
def State.enabled (s : State) (n : Axis) : State :=
  let b := bankOfAxis n
  let s := (s.setLes n (lesStart s n)).setClp n { s.clp n with iv := 0, zd := 0, zq := 0 }
  let s := (s.wr (F.LES_STAT_VALID n) 0).wr (F.LES_STAT_LOWSPD n) 1
  let s := s.setGdr b { s.gdr b with uvArmed := true }
  each (hbsOfAxis n) (fun s h => s.setHb h { s.hb h with react := false }) s

/-- The plan of an axis that has just been energised. -/
def State.standingPlan (s : State) (n : Axis) : AxisPlan :=
  { s.plan n with st := .standing, holdMa := s.rd (F.MPL_IHOLD_IHOLD n), travelOut := false
                  useLes := encoder s n && !s.flag (F.FBK_STAT_VALID n) }

theorem State.energise_on (h : s.energised n = false) (hp : s.powered (12 + (bankOfAxis n).val) = true) :
    s.energise n = s.sourceMoved ((s.enabled n).setPlan n ((s.enabled n).standingPlan n)) n := by
  unfold State.energise
  rw [if_neg (by simp [h, hp])]
  rfl

theorem State.energise_idle (h : s.energised n = true ∨ s.powered (12 + (bankOfAxis n).val) = false) : s.energise n = s := by
  refine if_pos ?_
  obtain h | h := h <;> simp [h]

/-- The reaction holds of the half-bridges l end (R221). -/
theorem State.holdsEnd (s : State) (n : Axis) (l : List HalfBridge) :
    let t := each l (fun s h => s.setHb h { s.hb h with react := false }) s
    Energises n s t ∧ t.gdrs = s.gdrs ∧ (∀ h, (s.hb h).react = false → (t.hb h).react = false) ∧
      ∀ h ∈ l, (t.hb h).react = false := by
  induction l generalizing s with
  | nil => exact ⟨.refl s, rfl, fun _ => id, by simp⟩
  | cons a l ih =>
    have self : ((s.setHb a { s.hb a with react := false }).hb a).react = false :=
      congrArg HbS.react (State.hb_setHb_self s a _)
    have ne : ∀ h, h ≠ a → ((s.setHb a { s.hb a with react := false }).hb h).react = (s.hb h).react := fun h e =>
      congrArg HbS.react (State.hb_setHb_ne s _ e)
    obtain ⟨k1, k2, k3, k4⟩ := ih (s.setHb a { s.hb a with react := false })
    refine ⟨(s.setHb_energises a _).trans k1, k2, fun h e => k3 h ?_, fun h hh => ?_⟩
    · by_cases ha : h = a
      · rw [ha]
        exact self
      · exact (ne h ha).trans e
    · obtain rfl | hh := List.mem_cons.1 hh
      · exact k3 h self
      · exact k4 h hh

/-- The gate stage and CLP of the axis are ready: its supply monitor is armed and its reaction holds have ended. -/
theorem State.enabled_energises (s : State) (n : Axis) : Energises n s (s.enabled n) ∧
    ((s.enabled n).gdr (bankOfAxis n)).uvArmed = true ∧ ∀ h ∈ hbsOfAxis n, ((s.enabled n).hb h).react = false := by
  unfold State.enabled
  extract_lets b _ v w _ y
  have hv : Energises n s v := (s.setLes_energises _).trans (State.setClp_energises _ _)
  have hw : Energises n v w := (v.wr_energises 0 rfl).trans (State.wr_energises _ 1 rfl)
  have hy : Energises n w y := w.setGdr_energises b _
  have arm : (y.gdr b).uvArmed = true := congrArg GdrS.uvArmed (State.gdr_setGdr_self w b _)
  obtain ⟨k1, k2, -, k4⟩ := y.holdsEnd n (hbsOfAxis n)
  refine ⟨((hv.trans hw).trans hy).trans k1, ?_, k4⟩
  rw [State.gdr, k2]
  exact arm

theorem State.standingPlan_energises (s : State) (n : Axis) : Energises n s (s.setPlan n (s.standingPlan n)) :=
  s.setPlan_energises rfl

theorem State.sourceMoved_energises (a s : State) (n : Axis) : Energises n s (a.sourceMoved s n) := s.setFbk_energises rfl

theorem State.energise_energises (s : State) (n : Axis) : Energises n s (s.energise n) := by
  by_cases h : s.energised n = true ∨ s.powered (12 + (bankOfAxis n).val) = false
  · rw [s.energise_idle h]
    exact .refl s
  · simp only [not_or, Bool.not_eq_true, Bool.not_eq_false] at h
    rw [State.energise_on h.1 h.2]
    exact ((s.enabled_energises n).1.trans (State.standingPlan_energises _ n)).trans (State.sourceMoved_energises s _ n)

theorem State.sourceMoved_stands (a s : State) (n : Axis) (x : AxisPlan) :
    (a.sourceMoved (s.setPlan n x) n).plan n = x ∧ (a.sourceMoved (s.setPlan n x) n).gdrs = s.gdrs ∧
      (a.sourceMoved (s.setPlan n x) n).hbs = s.hbs := ⟨State.plan_setPlan_self _ _ _, rfl, rfl⟩

/-- An axis whose bank has power is energised, with its gate stage ready. -/
theorem State.energise_stands (s : State) (n : Axis) (hp : s.powered (12 + (bankOfAxis n).val) = true) :
    (s.energise n).energised n = true ∧ (s.energised n = false → ((s.energise n).gdr (bankOfAxis n)).uvArmed = true ∧
      ∀ h ∈ hbsOfAxis n, ((s.energise n).hb h).react = false) := by
  cases h : s.energised n with
  | true =>
    rw [s.energise_idle (.inl h)]
    exact ⟨h, fun e => absurd e (by decide)⟩
  | false =>
    obtain ⟨-, h2, h3⟩ := s.enabled_energises n
    rw [State.energise_on h hp]
    obtain ⟨e1, e2, e3⟩ := State.sourceMoved_stands s (s.enabled n) n ((s.enabled n).standingPlan n)
    refine ⟨?_, fun _ => ⟨(congrArg (fun x : Vector GdrS 4 => (x[bankOfAxis n]).uvArmed) e2).trans h2, fun h hh =>
      (congrArg (fun x : Vector HbS 128 => (x[h]).react) e3).trans (h3 h hh)⟩⟩
    rw [State.energised, e1]
    rfl

end Ends

end Sys2Proof.Machine

namespace Sys2Proof.Machine

section SegmentEnd

variable {s t u v : State} {n m : Axis} {o : Op} {e : Nat}

/-! ### The end of a galley operation (R59, R134, R138, R158, R241) -/

theorem State.keepArmed_rest (s : State) (n : Axis) : ∃ x, s.keepArmed n = { s with less := x } := by
  unfold State.keepArmed
  extract_lets start
  split
  · split
    · exact ⟨_, rfl⟩
    · exact ⟨_, rfl⟩
  · exact ⟨_, rfl⟩

theorem keepArmed_each (l : List Axis) (s : State) : ∃ x, each l State.keepArmed s = { s with less := x } := by
  induction l generalizing s with
  | nil => exact ⟨_, rfl⟩
  | cons a l ih =>
    obtain ⟨x, e⟩ := s.keepArmed_rest a
    obtain ⟨y, e'⟩ := ih (s.keepArmed a)
    exact ⟨y, e'.trans (by rw [e])⟩

/-- What the end of o does to one of its axes. -/
def endAxis (o : Op) (s : State) (n : Axis) : State := homedBy (endOn s n o) n o

/-- The state in which the final record of o is made. -/
def State.endWork (s : State) (o : Op) : State := each o.axes (endAxis o) (each o.axes State.keepArmed s)

theorem State.segEnd_eq (s : State) (o : Op) (t2 : Nat) :
    s.segEnd o t2 = (s.endWork o).finish o.tag (endStatus o).1 o.t1 t2 (endStatus o).2 0 := rfl

theorem exec_segmentEnd {tag : Fin 1024} (h : s.opOf tag = some o) (hg : isGalley o.op = true) (hb : o.begun = true)
    (hl : ∀ n ∈ o.axes, ∀ l, (s.plan n).leave = some l → l.begun = false)
    (he : o.axes.findSome? (fun n => ((s.plan n).galley.find? fun g => g.tag = tag.val).bind (·.t2)) = some e) :
    exec (.segmentEnd tag) s = .next ((s.advToGtc e).segEnd o e) := by
  have free : (o.axes.all fun n => match (s.plan n).leave with | none => true | some l => !l.begun) = true := by
    rw [List.all_eq_true]
    intro n hn
    split
    · rfl
    · next l e => rw [hl n hn l e]; rfl
  change execSegmentEnd tag s = _
  unfold execSegmentEnd
  rw [h]
  dsimp only
  rw [he]
  dsimp only
  rw [hg, hb]
  exact congrArg Host.Outcome.next (if_pos free)

theorem State.opOf_congr (h : t.ops = s.ops) (k : Nat) : t.opOf k = s.opOf k := by
  rw [State.opOf, h]
  rfl

/-- The operation that ends is still known as its axes' work is done. -/
theorem State.segEnd_ended (s : State) (t2 : Nat) (h : s.opOf o.tag = some o) (hk : (s.endWork o).ops = s.ops) :
    Ended o (endStatus o).1 o.t1 t2 (endStatus o).2 (opFlags o) (s.endWork o) (s.segEnd o t2) := by
  have hf := State.finish_ended (s.endWork o) o (endStatus o).1 o.t1 t2 (endStatus o).2 0
    ((State.opOf_congr hk o.tag).trans h)
  rw [Nat.zero_add] at hf
  exact hf

theorem State.setPlan_setPlan (s : State) (n : Axis) (x y : AxisPlan) : (s.setPlan n x).setPlan n y = s.setPlan n y := by
  simp [State.setPlan]

theorem homedBy_other (h : o.op ≠ 8) : homedBy s n o = s := if_neg (by simp [h])

theorem endAxis_single (h : o.axes = [n]) : s.endWork o = endAxis o (s.keepArmed n) n := by
  unfold State.endWork
  rw [h]
  rfl

/-- A motion or a HOLD leaves the axis standing, homed by a HOME that is done (R134, R193). -/
theorem endAxis_rests (hop : o.op ∈ [1, 2, 3, 5, 8]) (he : s.energised n = true) :
    endAxis o s n = s.setPlan n { s.plan n with
      st := .standing, ref := Motion.still (s.plan n).ref.xEnd, follow := none, holdMa := s.rd (F.MPL_IHOLD_IHOLD n)
      homed := (s.plan n).homed || (o.op = 8 && (endStatus o).1 = .done) } := by
  have hend : endOn s n o = s.setPlan n { s.plan n with
      st := .standing, ref := Motion.still (s.plan n).ref.xEnd, follow := none, holdMa := s.rd (F.MPL_IHOLD_IHOLD n) } := by
    simp only [List.mem_cons, List.not_mem_nil, or_false] at hop
    have hc : isConfig o.op = false := by
      unfold isConfig
      simp
      omega
    unfold endOn
    rw [if_neg (by omega), if_neg (by omega), if_neg (by omega), if_neg (by rw [hc]; decide)]
    exact if_pos he
  rw [endAxis, hend, homedBy]
  split
  · next h =>
    rw [h, Bool.or_true, State.setPlan_setPlan, State.plan_setPlan_self]
  · next h =>
    rw [Bool.eq_false_iff.2 h, Bool.or_false]

theorem endAxis_follow (hop : o.op = 7) : endAxis o s n = s.setPlan n { s.plan n with
    st := if s.energised n then .standing else .off, ref := Motion.still (refNow s n).1, follow := none } := by
  rw [endAxis, homedBy_other (by omega), endOn, if_neg (by omega), if_pos hop]

theorem endAxis_release (hop : o.op = 6) : endAxis o s n = s.deenergise n := by
  rw [endAxis, homedBy_other (by omega), endOn, if_pos hop]

theorem endAxis_wait (hop : o.op = 10) : endAxis o s n = s := by
  rw [endAxis, homedBy_other (by omega), endOn, if_neg (by omega), if_neg (by omega), if_pos hop]

theorem endAxis_config (hop : isConfig o.op = true) : endAxis o s n = if bit 0 (o.d.u8 49) then s.energise n else s := by
  have h : o.op = 16 ∨ o.op = 17 := by simpa [isConfig] using hop
  rw [endAxis, homedBy_other (by omega), endOn, if_neg (by omega), if_neg (by omega), if_neg (by omega), if_pos hop]

theorem deenergise_parts (s : State) (n : Axis) : RegsBut [Reg.FCS_SS1_DEM] s (s.deenergise n) ∧
    (s.deenergise n).ss1 n = none ∧ s.deenergise n = { s with
      regs := (s.deenergise n).regs, plans := (s.deenergise n).plans, less := (s.deenergise n).less
      clps := (s.deenergise n).clps, inClk := (s.deenergise n).inClk, fcs := { s.fcs with ss1 := (s.deenergise n).fcs.ss1 } } := by
  unfold State.deenergise
  extract_lets p x v _ w _ y dem z _ q _
  have hv : ∀ o, y.reg o = s.reg o := fun _ => rfl
  have ey : y = { s with plans := y.plans, less := y.less, clps := y.clps } := rfl
  have hq : ∃ r i, q = { y with regs := r, inClk := i } := by
    unfold q
    split
    · exact ⟨_, _, rfl⟩
    · exact ⟨_, _, rfl⟩
  have hz : RegsBut [Reg.FCS_SS1_DEM] y q := fun o ho => by
    have ho : o ≠ Reg.FCS_SS1_DEM := by simpa using ho
    unfold q
    split
    · exact State.reg_wr_ne y (f := F.FCS_SS1_DEM_AXES) _ ho
    · rfl
  refine ⟨fun o ho => (hz o ho).trans (hv o), State.ss1_setSs1_self q n none, ?_⟩
  obtain ⟨r, i, e⟩ := hq
  clear_value q y
  rw [e, ey]
  rfl

theorem State.deenergise_book (s : State) (n : Axis) : ((s.deenergise n).plan n).book = (s.plan n).book := by
  rw [State.plan, State.deenergise_plan]
  exact (congrArg AxisPlan.book (State.plan_setPlan_self _ _ _)).trans rfl

theorem State.rest_parts (s : State) (n : Axis) : (s.rest n).ops = s.ops ∧ ∀ m, m ≠ n → (s.rest n).plan m = s.plan m := by
  unfold State.rest
  extract_lets p
  split
  · exact ⟨rfl, fun m hm => State.plan_setPlan_ne _ _ hm⟩
  · exact ⟨rfl, fun _ _ => rfl⟩

/-- The work on one axis touches neither the operations nor another axis's plan. -/
theorem endAxis_parts (o : Op) (s : State) (n : Axis) :
    (endAxis o s n).ops = s.ops ∧ ∀ m, m ≠ n → (endAxis o s n).plan m = s.plan m := by
  have hend : (endOn s n o).ops = s.ops ∧ ∀ m, m ≠ n → (endOn s n o).plan m = s.plan m := by
    unfold endOn
    split
    · refine ⟨State.deenergise_ops s n, fun m hm => ?_⟩
      rw [State.plan, State.deenergise_plan]
      exact State.plan_setPlan_ne _ _ hm
    split
    · exact ⟨rfl, fun m hm => State.plan_setPlan_ne _ _ hm⟩
    split
    · exact ⟨rfl, fun _ _ => rfl⟩
    split
    · split
      · have h := s.energise_energises n
        exact ⟨(congrArg State.ops h.rest :), fun m hm => (h.others m hm).1⟩
      · exact ⟨rfl, fun _ _ => rfl⟩
    · exact s.rest_parts n
  unfold endAxis homedBy
  split
  · exact ⟨hend.1, fun m hm => (State.plan_setPlan_ne _ _ hm).trans (hend.2 m hm)⟩
  · exact hend

/-- What an armed segment is kept in. -/
structure OnlyLess (s t : State) : Prop where
  rest : t = { s with less := t.less }
  plan : ∀ n, t.plan n = s.plan n
  reg : ∀ o, t.reg o = s.reg o
  powered : ∀ d, t.powered d = s.powered d
  fcs : t.fcs = s.fcs

theorem OnlyLess.mk' (s : State) (x : Vector LesS 32) : OnlyLess s { s with less := x } := 
  ⟨rfl, fun _ => rfl, fun _ => rfl, fun _ => rfl, rfl⟩

theorem State.keepArmed_less (s : State) (n : Axis) : OnlyLess s (s.keepArmed n) := by
  obtain ⟨x, e⟩ := s.keepArmed_rest n
  rw [e]
  exact .mk' s x

theorem keepArmed_each_less (s : State) (l : List Axis) : OnlyLess s (each l State.keepArmed s) := by
  obtain ⟨x, e⟩ := keepArmed_each l s
  rw [e]
  exact .mk' s x

theorem State.endWork_ops (s : State) (o : Op) : (s.endWork o).ops = s.ops :=
  each_keep (p := fun u => u.ops = s.ops) (fun u hu n _ => (endAxis_parts o u n).1.trans hu)
    (congrArg State.ops (keepArmed_each_less s o.axes).rest :)

theorem Energises.powered (h : Energises n s t) (d : Nat) : t.powered d = s.powered d := by
  have hp : t.pmu = s.pmu := (congrArg State.pmu h.rest :)
  refine State.powered_congr (by rw [hp]) (h.regs _ ?_) d
  simp only [List.mem_singleton]
  unfold Reg.PMU_DOM_STAT Reg.LES_STAT
  omega

/-- Axes that are energised in turn stand in the end, with their galleys and bookings. -/
theorem energise_each (l : List Axis) (s : State) (hp : ∀ n ∈ l, s.powered (12 + (bankOfAxis n).val) = true) :
    let t := each l State.energise s
    (∀ n ∈ l, t.energised n = true) ∧ (∀ n, s.energised n = true → t.energised n = true) ∧
      (∀ n, (t.plan n).galley = (s.plan n).galley ∧ (t.plan n).book = (s.plan n).book) ∧
      ∀ n, n ∉ l → t.plan n = s.plan n := by
  induction l generalizing s with
  | nil => exact ⟨by simp, fun _ => id, fun _ => ⟨rfl, rfl⟩, fun _ _ => rfl⟩
  | cons a l ih =>
    have ha := s.energise_energises a
    obtain ⟨k1, k2, k3, k4⟩ := ih (s.energise a) fun n hn => (ha.powered _).trans (hp n (by simp [hn]))
    have hs := (s.energise_stands a (hp a (by simp))).1
    refine ⟨fun n hn => ?_, fun n he => k2 n ?_, fun n => ?_, fun n hn => ?_⟩
    · obtain rfl | hn := List.mem_cons.1 hn
      · exact k2 n hs
      · exact k1 n hn
    · by_cases e : n = a
      · rw [e]
        exact hs
      · exact (State.energised_congr (ha.others n e).1).trans he
    · obtain ⟨g, b⟩ := k3 n
      by_cases e : n = a
      · subst e
        rw [ha.plan] at g b
        exact ⟨g, b⟩
      · rw [(ha.others n e).1] at g b
        exact ⟨g, b⟩
    · simp only [List.mem_cons, not_or] at hn
      exact (k4 n hn.2).trans (ha.others n hn.1).1

end SegmentEnd

/-- Settles O39: the axes of an operation do their work one after the other, and its final record follows. -/
theorem segmentsEnd : Obligations.SegmentsEnd := by
  intro s tag o e ho hg hb hl he u0 ends
  have hex := exec_segmentEnd ho hg hb hl he
  have ho' : u0.opOf o.tag = some o := by
    have ht : o.tag = tag.val := by simpa using List.find?_some ho
    rw [ht, State.advToGtc_opOf]
    exact ho
  have make : ∀ {P : State → Prop}, P (u0.endWork o) → ends P := fun hp => ⟨_, hex, _, hp, u0.segEnd_ended e ho' (u0.endWork_ops o)⟩
  have hplan : ∀ n, u0.plan n = s.plan n := s.advToGtc_plan e
  have hreg : ∀ o, u0.reg o = s.reg o := s.advToGtc_reg e
  have hfcs : u0.fcs = s.fcs := s.advToGtc_fcs e
  have hpow : ∀ d, u0.powered d = s.powered d := State.powered_congr (by rw [State.advToGtc_pmu]) (hreg _)
  refine ⟨fun n hn => ?_, fun hc h0 => ?_, fun hc h1 hp => ?_⟩
  · intro u
    have hk : OnlyLess u0 u := u0.keepArmed_less n
    have hup : ∀ m, u.plan m = s.plan m := fun m => (hk.plan m).trans (hplan m)
    have hur : ∀ o, u.reg o = s.reg o := fun o => (hk.reg o).trans (hreg o)
    have huf : u.fcs = s.fcs := hk.fcs.trans hfcs
    have hue : u.energised n = s.energised n := State.energised_congr (hup n)
    have hw : u0.endWork o = endAxis o u n := endAxis_single hn
    refine make ?_
    rw [hw]
    clear_value u
    refine ⟨fun m hm => ((endAxis_parts o u n).2 m hm).trans (hup m), fun hop he => ?_, fun hop => ?_, fun hop => ?_, endAxis_wait⟩
    · rw [endAxis_rests hop (hue.trans he), hup, State.rd_of_reg (f := F.MPL_IHOLD_IHOLD n) (hur _)]
    · rw [endAxis_follow hop, hup, hue]
    · obtain ⟨d1, d2, d3⟩ := deenergise_parts u n
      rw [endAxis_release hop]
      refine ⟨State.deenergise_off u n, d2, ?_, fun o ho => (d1 o ho).trans (hur o), ?_⟩
      · rw [State.deenergise_book, hup]
      · rw [← huf]
        exact d3
  · refine make ?_
    have still : ∀ s n, endAxis o s n = s := fun s n => by rw [endAxis_config hc, h0]; rfl
    unfold State.endWork
    rw [each_idle fun n _ => still _ n]
    rfl
  · refine make ?_
    have on : endAxis o = State.energise := funext fun s => funext fun n => by rw [endAxis_config hc, h1]; rfl
    have hk := keepArmed_each_less u0 o.axes
    have hw : u0.endWork o = each o.axes State.energise (each o.axes State.keepArmed u0) := congrArg (each o.axes · _) on
    rw [hw]
    generalize each o.axes State.keepArmed u0 = w at *
    have hwp : ∀ n, w.plan n = s.plan n := fun n => (hk.plan n).trans (hplan n)
    obtain ⟨k1, -, k3, k4⟩ := energise_each o.axes w fun n hn => (hk.powered _).trans ((hpow _).trans (hp n hn))
    refine ⟨fun n hn => ⟨k1 n hn, ?_⟩, fun n hn => (k4 n hn).trans (hwp n)⟩
    rw [← hwp]
    exact k3 n

end Sys2Proof.Machine

namespace Sys2Proof.Machine

section Start

variable {s t u v a : State} {n m : Axis} {g : Seg}

/-! ### The start of a galley operation on one axis (R131, R134 to R136, R159, R168, R190) -/

/-- The registers that assigning a home position writes. -/
def homeRegs (n : Axis) : List Nat := [Reg.FBK_ADJ_LO n, Reg.FBK_ADJ_LO n + 4, Reg.FBK_POS_LO n, Reg.FBK_POS_LO n + 4]

/-- From s to t axis n has been set: its plan, its estimator, what CLP and FBK keep of it, and its position registers. -/
structure Sets (n : Axis) (s t : State) : Prop where
  rest : t = { s with regs := t.regs, plans := t.plans, less := t.less, clps := t.clps, fbks := t.fbks }
  regs : RegsBut (homeRegs n) s t
  others : ∀ m, m ≠ n → t.plan m = s.plan m ∧ t.les m = s.les m ∧ t.clp m = s.clp m ∧ t.fbk m = s.fbk m

theorem Sets.refl (s : State) : Sets n s s := ⟨rfl, fun _ _ => rfl, fun _ _ => ⟨rfl, rfl, rfl, rfl⟩⟩

theorem Sets.trans (h : Sets n s t) (k : Sets n t u) : Sets n s u where
  rest := by
    have e := k.rest
    rw [h.rest] at e
    exact e
  regs o ho := (k.regs o ho).trans (h.regs o ho)
  others m hm := by
    obtain ⟨h1, h2, h3, h4⟩ := h.others m hm
    obtain ⟨k1, k2, k3, k4⟩ := k.others m hm
    exact ⟨k1.trans h1, k2.trans h2, k3.trans h3, k4.trans h4⟩

theorem Sets.ite {c : Prop} [Decidable c] {x y : State} (h : Sets n s x) (k : Sets n s y) : Sets n s (if c then x else y) := by
  split <;> assumption

theorem State.setLes_sets (s : State) (x : LesS) : Sets n s (s.setLes n x) :=
  ⟨rfl, fun _ _ => rfl, fun _ hm => ⟨rfl, State.les_setLes_ne s x hm, rfl, rfl⟩⟩

theorem State.setClp_sets (s : State) (x : ClpS) : Sets n s (s.setClp n x) :=
  ⟨rfl, fun _ _ => rfl, fun _ hm => ⟨rfl, rfl, State.clp_setClp_ne s x hm, rfl⟩⟩

theorem State.setPlan_sets (s : State) (x : AxisPlan) : Sets n s (s.setPlan n x) :=
  ⟨rfl, fun _ _ => rfl, fun _ hm => ⟨State.plan_setPlan_ne s x hm, rfl, rfl, rfl⟩⟩

theorem State.setFbk_sets (s : State) (x : FbkS) : Sets n s (s.setFbk n x) :=
  ⟨rfl, fun _ _ => rfl, fun _ hm => ⟨rfl, rfl, rfl, State.fbk_setFbk_ne s x hm⟩⟩

theorem State.wrS64_sets (s : State) {o : Nat} (v : Int) (h : o ∈ homeRegs n) (h' : o + 4 ∈ homeRegs n) : Sets n s (s.wrS64 o v) :=
  ⟨rfl, fun _ hj => s.reg_wrS64_ne v (fun e => hj (e ▸ h)) fun e => hj (e ▸ h'), fun _ _ => ⟨rfl, rfl, rfl, rfl⟩⟩

/-- A step in which the plan of the axis and the stall flag of its estimator stand. -/
structure Homes (n : Axis) (s t : State) : Prop where
  sets : Sets n s t
  plan : t.plan n = s.plan n
  stall : (t.les n).stall = (s.les n).stall

theorem Homes.trans (h : Homes n s t) (k : Homes n t u) : Homes n s u :=
  ⟨h.sets.trans k.sets, k.plan.trans h.plan, k.stall.trans h.stall⟩

theorem Homes.ite {c : Prop} [Decidable c] (h : Homes n s t) : Homes n s (if c then t else s) := by
  split
  · exact h
  · exact ⟨.refl s, rfl, rfl⟩

theorem State.wrS64_homes (s : State) {o : Nat} (v : Int) (h : o ∈ homeRegs n) (h' : o + 4 ∈ homeRegs n) :
    Homes n s (s.wrS64 o v) := ⟨s.wrS64_sets v h h', rfl, rfl⟩

theorem State.shift_homes (s : State) (n : Axis) (q : Rat) : Homes n s (s.setLes n ((s.les n).shift q)) :=
  ⟨s.setLes_sets _, rfl, (congrArg LesS.stall (State.les_setLes_self s n _)).trans rfl⟩

/-- A home position moves the axis and its position registers; what else stands in its plan and its estimator is kept. -/
theorem State.assignHome_sets (s : State) (n : Axis) (x : Rat) (pos : Int) : Sets n s (s.assignHome n x pos) ∧
    ((s.assignHome n x pos).plan n).galley = (s.plan n).galley ∧ ((s.assignHome n x pos).plan n).st = (s.plan n).st ∧
    ((s.assignHome n x pos).les n).stall = (s.les n).stall := by
  unfold State.assignHome
  extract_lets step adj a b _ d e c w f p
  have ha : Homes n s a := .ite (s.wrS64_homes _ (by simp [homeRegs]) (by simp [homeRegs]))
  have hb : Homes n a b := .ite (a.wrS64_homes _ (by simp [homeRegs]) (by simp [homeRegs]))
  have hd : Homes n b d := ⟨b.setFbk_sets _, rfl, rfl⟩
  have he : Homes n d e := .ite (d.shift_homes n step)
  have hw : Homes n e w := ⟨e.setClp_sets _, rfl, rfl⟩
  obtain ⟨h1, h2, h3⟩ := (((ha.trans hb).trans hd).trans he).trans hw
  have hf : f = s.plan n := h2
  rw [State.plan_setPlan_self]
  dsimp only
  rw [hf]
  exact ⟨h1.trans (w.setPlan_sets _), rfl, rfl, h3⟩

/-! The steps of a start. -/

/-- The axis is energised for what needs it. -/
def State.readied (s : State) (n : Axis) (g : Seg) : State := if isMotion g.op || g.op = 5 then s.energise n else s

/-- The motion of the segment as it begins. -/
def startMotion (s : State) (n : Axis) (g : Seg) : Motion :=
  if g.op = 7 then ⟨timeZero g.t1, (refNow s n).1, 0, 0, [], (refNow s n).1⟩ else if isMotion g.op then runMotion s n g else g.mo

/-- The segment has begun. -/
def State.begunSeg (s : State) (n : Axis) (g : Seg) : State :=
  let l := s.les n
  (s.setLes n { l with stall := l.stall && (l.emfN ≠ 0 || l.angN ≠ 0) }).setSeg n g.tag fun y =>
    { y with begun := true, mo := startMotion s n g }

/-- What the axis does from here. -/
def State.goesOn (s : State) (n : Axis) (g : Seg) (x : Rat) (m : Motion) : State :=
  let p := s.plan n
  if g.op = 7 then
    s.setPlan n { p with st := .following, follow := some ⟨(s.fbk ⟨stepSource s n % 32, by omega⟩).steps, x, x, 0, 0, false⟩ }
  else if g.op = 5 then s.setPlan n { p with st := .standing, holdMa := g.d.u16 16 }
  else if g.op = 8 && g.d.u8 24 = 2 then
    let s := s.assignHome n (if encoder s n || actLes s n then actX s n else x) (g.d.i64 32)
    s.setPlan n { s.plan n with homed := true, ref := Motion.still (g.d.i64 32 : Rat) }
  else if isMotion g.op then
    let s := s.setFbk n { s.fbk n with homeIdx := none, homeHit := none }
    s.setPlan n { s.plan n with ref := m, st := if m.phases = [] then .standing else .moving }
  else s

theorem startOn_eq (s : State) (n : Axis) (g : Seg) : startOn s n g =
    (((s.readied n g).begunSeg n g).goesOn n g (refNow (s.readied n g) n).1 (startMotion (s.readied n g) n g)) := rfl

theorem State.readied_energises (s : State) (n : Axis) (g : Seg) : Energises n s (s.readied n g) := by
  unfold State.readied
  split
  · exact s.energise_energises n
  · exact .refl s

theorem State.begunSeg_sets (s : State) (n : Axis) (g : Seg) : Sets n s (s.begunSeg n g) :=
  (s.setLes_sets _).trans (State.setPlan_sets _ _)

theorem State.begunSeg_plan (s : State) (n : Axis) (g : Seg) : (s.begunSeg n g).plan n = { s.plan n with
    galley := (s.plan n).galley.map fun y => if y.tag = g.tag then { y with begun := true, mo := startMotion s n g } else y } :=
  (State.plan_setPlan_self _ n _).trans rfl

theorem State.begunSeg_les (s : State) (n : Axis) (g : Seg) : (s.begunSeg n g).les n = { s.les n with
    stall := (s.les n).stall && ((s.les n).emfN ≠ 0 || (s.les n).angN ≠ 0) } := State.les_setLes_self _ _ _

section Cases

variable {x : Rat} {mo : Motion}

theorem goesOn_follows (h : g.op = 7) : s.goesOn n g x mo = s.setPlan n { s.plan n with
    st := .following, follow := some ⟨(s.fbk ⟨stepSource s n % 32, by omega⟩).steps, x, x, 0, 0, false⟩ } := if_pos h

theorem goesOn_holds (h : g.op = 5) : s.goesOn n g x mo = s.setPlan n { s.plan n with st := .standing, holdMa := g.d.u16 16 } := by
  unfold State.goesOn
  rw [if_neg (by omega), if_pos h]

theorem goesOn_assigns (h : g.op = 8) (h' : g.d.u8 24 = 2) : ∃ q, s.goesOn n g x mo =
    (s.assignHome n q (g.d.i64 32)).setPlan n { (s.assignHome n q (g.d.i64 32)).plan n with
      homed := true, ref := Motion.still (g.d.i64 32 : Rat) } := by
  unfold State.goesOn
  rw [if_neg (by omega), if_neg (by omega), if_pos (by simp [h, h'])]
  exact ⟨_, rfl⟩

theorem goesOn_moves (h : isMotion g.op = true) (h7 : g.op ≠ 7) (ha : ¬ (g.op = 8 ∧ g.d.u8 24 = 2)) : s.goesOn n g x mo =
    (s.setFbk n { s.fbk n with homeIdx := none, homeHit := none }).setPlan n { s.plan n with
      ref := mo, st := if mo.phases = [] then .standing else .moving } := by
  have h5 : g.op ≠ 5 := fun e => by rw [e] at h; exact absurd h (by decide)
  unfold State.goesOn
  rw [if_neg h7, if_neg h5, if_neg (by simpa using ha), if_pos h]
  rfl

theorem goesOn_waits (h : isMotion g.op = false) (h5 : g.op ≠ 5) : s.goesOn n g x mo = s := by
  have h7 : g.op ≠ 7 := fun e => by rw [e] at h; exact absurd h (by decide)
  have h8 : g.op ≠ 8 := fun e => by rw [e] at h; exact absurd h (by decide)
  unfold State.goesOn
  rw [if_neg h7, if_neg h5, if_neg (by simp [h8]), if_neg (by rw [h]; decide)]

/-- Whatever it does, the axis alone is set, and its galley and the stall flag stand. -/
theorem State.goesOn_sets (s : State) (n : Axis) (g : Seg) (x : Rat) (mo : Motion) : Sets n s (s.goesOn n g x mo) ∧
    ((s.goesOn n g x mo).plan n).galley = (s.plan n).galley ∧ ((s.goesOn n g x mo).les n).stall = (s.les n).stall := by
  by_cases h7 : g.op = 7
  · rw [goesOn_follows h7, State.plan_setPlan_self]
    exact ⟨s.setPlan_sets _, rfl, rfl⟩
  by_cases h5 : g.op = 5
  · rw [goesOn_holds h5, State.plan_setPlan_self]
    exact ⟨s.setPlan_sets _, rfl, rfl⟩
  by_cases ha : g.op = 8 ∧ g.d.u8 24 = 2
  · obtain ⟨q, e⟩ := goesOn_assigns (s := s) (n := n) (x := x) (mo := mo) ha.1 ha.2
    obtain ⟨k1, k2, -, k4⟩ := s.assignHome_sets n q (g.d.i64 32)
    rw [e, State.plan_setPlan_self]
    exact ⟨k1.trans (State.setPlan_sets _ _), k2, k4⟩
  cases hm : isMotion g.op with
  | true =>
    rw [goesOn_moves hm h7 ha, State.plan_setPlan_self]
    exact ⟨(s.setFbk_sets _).trans (State.setPlan_sets _ _), rfl, rfl⟩
  | false =>
    rw [goesOn_waits hm h5]
    exact ⟨.refl s, rfl, rfl⟩

end Cases

/-! What is energised reads as before. -/

theorem Energises.refNow (h : Energises n s t) : refNow t n = refNow s n := by
  have hf : (t.plan n).follow = (s.plan n).follow := by rw [h.plan]
  have hr : (t.plan n).ref = (s.plan n).ref := by rw [h.plan]
  have hn : t.now = s.now := by rw [h.rest]; rfl
  rw [Machine.refNow, hf, hr, hn]
  rfl

theorem Energises.rd (h : Energises n s t) {f : Fld} {b : Nat} (hf : f.off = b + 0x400 * n.val) (hb : b ≠ 0x20118) :
    t.rd f = s.rd f := by
  refine State.rd_of_reg (h.regs _ ?_)
  rw [List.mem_singleton, hf]
  unfold Reg.LES_STAT
  omega

theorem Energises.limitsOf (h : Energises n s t) (op : Nat) (d : Desc) : limitsOf t n op d = limitsOf s n op d := by
  unfold Machine.limitsOf
  rw [h.rd (f := F.MPL_VMAX_VMAX n) rfl (by decide), h.rd (f := F.MPL_AMAX_AMAX n) rfl (by decide),
    h.rd (f := F.MPL_DMAX_DMAX n) rfl (by decide), h.rd (f := F.MPL_JMAX_JMAX n) rfl (by decide),
    h.rd (f := F.MPL_EMAX_EMAX n) rfl (by decide), h.rd (f := F.MPL_FMAX_FMAX n) rfl (by decide)]

theorem Energises.startMotion (h : Energises n s t) : startMotion t n g = startMotion s n g := by
  unfold Machine.startMotion runMotion
  rw [h.refNow, h.limitsOf]

/-- What the start of segment g on axis n leaves, and what it shows of it. -/
structure Begins (n : Axis) (g : Seg) (s t : State) : Prop where
  rest : t = { s with
    regs := t.regs, plans := t.plans, less := t.less, clps := t.clps, gdrs := t.gdrs, hbs := t.hbs, fbks := t.fbks }
  regs : RegsBut (Reg.LES_STAT n :: homeRegs n) s t
  others : ∀ m, m ≠ n → t.plan m = s.plan m ∧ t.les m = s.les m ∧ t.clp m = s.clp m ∧ t.fbk m = s.fbk m
  galley : (t.plan n).galley = (s.plan n).galley.map fun y =>
    if y.tag = g.tag then { y with begun := true, mo := startMotion s n g } else y
  stall : s.energised n = true ∨ (isMotion g.op = false ∧ g.op ≠ 5) →
    (t.les n).stall = ((s.les n).stall && ((s.les n).emfN ≠ 0 || (s.les n).angN ≠ 0))
  gates : t.gdrs = (s.readied n g).gdrs ∧ t.hbs = (s.readied n g).hbs

theorem readied_idle (h : s.energised n = true ∨ (isMotion g.op = false ∧ g.op ≠ 5)) : s.readied n g = s := by
  unfold State.readied
  obtain h | ⟨h, h'⟩ := h
  · split
    · exact s.energise_idle (.inl h)
    · rfl
  · rw [if_neg (by simp [h, h'])]

theorem Energises.restThen (h : Energises n s a) (k : Sets n a t) : t = { s with
    regs := t.regs, plans := t.plans, less := t.less, clps := t.clps, gdrs := t.gdrs, hbs := t.hbs, fbks := t.fbks } := by
  have hg : t.gdrs = a.gdrs := (congrArg State.gdrs k.rest :)
  have hh : t.hbs = a.hbs := (congrArg State.hbs k.rest :)
  have e := k.rest
  rw [h.rest] at e
  rw [hg, hh]
  exact e

theorem startOn_begins (s : State) (n : Axis) (g : Seg) : Begins n g s (startOn s n g) := by
  have h1 := s.readied_energises n g
  have h2 := (s.readied n g).begunSeg_sets n g
  obtain ⟨h3, h4, h5⟩ := ((s.readied n g).begunSeg n g).goesOn_sets n g (refNow (s.readied n g) n).1 (startMotion (s.readied n g) n g)
  have hp := (s.readied n g).begunSeg_plan n g
  have hl := (s.readied n g).begunSeg_les n g
  rw [← startOn_eq] at h3 h4 h5
  have h23 := h2.trans h3
  refine ⟨?_, fun o ho => ?_, fun m hm => ?_, ?_, fun hi => ?_, ?_, ?_⟩
  · exact h1.restThen h23
  · simp only [List.mem_cons, not_or] at ho
    exact (h23.regs o ho.2).trans (h1.regs o (by simpa using ho.1))
  · obtain ⟨a1, a2, a3, a4⟩ := h1.others m hm
    obtain ⟨b1, b2, b3, b4⟩ := h23.others m hm
    exact ⟨b1.trans a1, b2.trans a2, b3.trans a3, b4.trans a4⟩
  · have e : ((s.readied n g).plan n).galley = (s.plan n).galley := by rw [h1.plan]
    rw [h4, hp, e, h1.startMotion]
  · rw [h5, hl, readied_idle hi]
  · exact (congrArg State.gdrs h23.rest :)
  · exact (congrArg State.hbs h23.rest :)

end Start

end Sys2Proof.Machine

namespace Sys2Proof.Machine

section Starting

variable {s t u v w : State} {n m : Axis} {g h : Seg} {o ho : Op} {tag : Fin 1024}

/-! ### A start by its tag (R59, R62, R138, R168) -/

/-- The entry of the tag on one axis starts. -/
def startAt (tag : Nat) (s : State) (n : Axis) : State :=
  match (s.plan n).galley.find? fun g => g.tag = tag with
  | some g => startOn s n g
  | none => s

/-- What starts, once the operations before it have ended. -/
def startWork (o : Op) (tag : Nat) (u : State) : State :=
  each o.axes (startAt tag) ((each o.axes (fun s n => s.endBefore n tag o.t1) u).setOp { o with begun := true })

theorem startBlocked_advToGtc (s : State) (e : Nat) (n : Axis) (op : Nat) :
    startBlocked (s.advToGtc e) n op = startBlocked s n op := by
  have hp : ∀ d, (s.advToGtc e).powered d = s.powered d :=
    State.powered_congr (by rw [State.advToGtc_pmu]) (s.advToGtc_reg e _)
  have hb : ∀ b, (s.advToGtc e).bank b = s.bank b := fun b => congrArg (·[b]) (s.advToGtc_banks e)
  have ho : ∀ b, coreOf (s.advToGtc e) b = coreOf s b := fun b => by rw [coreOf, State.advToGtc_reg, coreOf]
  have hf : ∀ q, coreFailed (s.advToGtc e) q = coreFailed s q := fun q => by rw [coreFailed, State.advToGtc_rd, coreFailed]
  have hc : ∀ b, coreWorks (s.advToGtc e) b = coreWorks s b := fun b => by rw [coreWorks, ho, hf, coreWorks]
  simp only [startBlocked, hp, s.advToGtc_energised, hc, hb]

theorem exec_segmentStart (h : s.opOf tag = some o) (hg : isGalley o.op = true) (hb : o.begun = false)
    (hl : ∀ n ∈ o.axes, (s.plan n).leave = none) : exec (.segmentStart tag) s = .next (State.arranged s (
      match o.axes.findSome? fun n => (startBlocked (s.advToGtc (o.t1 - 2)) n o.op).map (n, ·) with
      | some (n, src) => (s.advToGtc (o.t1 - 2)).cancelStart n src
      | none => startWork o tag (s.advToGtc (o.t1 - 2)))) := by
  have free : (o.axes.all fun n => (s.plan n).leave.isNone) = true := by
    rw [List.all_eq_true]
    intro n hn
    rw [hl n hn]
    rfl
  change execSegmentStart tag s = _
  unfold execSegmentStart
  rw [h]
  dsimp only
  rw [if_neg (by simp [hg, hb, free])]
  rfl

theorem exec_segmentStart_works (h : s.opOf tag = some o) (hg : isGalley o.op = true) (hb : o.begun = false)
    (hl : ∀ n ∈ o.axes, (s.plan n).leave = none) (hs : ∀ n ∈ o.axes, startBlocked s n o.op = none) :
    exec (.segmentStart tag) s = .next (State.arranged s (startWork o tag (s.advToGtc (o.t1 - 2)))) := by
  have none : (o.axes.findSome? fun n => (startBlocked (s.advToGtc (o.t1 - 2)) n o.op).map (n, ·)) = none := by
    rw [List.findSome?_eq_none_iff]
    intro n hn
    rw [startBlocked_advToGtc, hs n hn]
    rfl
  rw [exec_segmentStart h hg hb hl, none]

theorem exec_segmentStart_cancels {src : Nat} (h : s.opOf tag = some o) (hg : isGalley o.op = true) (hb : o.begun = false)
    (hl : ∀ n ∈ o.axes, (s.plan n).leave = none) (hn : o.axes = [n]) (hs : startBlocked s n o.op = some src) :
    exec (.segmentStart tag) s = .next (State.arranged s ((s.advToGtc (o.t1 - 2)).cancelStart n src)) := by
  have some : (o.axes.findSome? fun n => (startBlocked (s.advToGtc (o.t1 - 2)) n o.op).map (n, ·)) = some (n, src) := by
    rw [hn, List.findSome?_cons, startBlocked_advToGtc, hs]
    rfl
  rw [exec_segmentStart h hg hb hl, some]

/-! ### What one axis shows of its start -/

/-- The step count that a FOLLOW_STEP follows from. -/
def stepsNow (s : State) (n : Axis) : Int := (s.fbk ⟨stepSource s n % 32, by omega⟩).steps

theorem Energises.stepsNow (h : Energises n s t) : stepsNow t n = stepsNow s n := by
  have e : stepSource t n = stepSource s n := by
    rw [stepSource, h.rd (f := F.FBK_CFG_STEP_SRC n) (b := 0x20180) rfl (by decide)]
    rfl
  have steps : ∀ j, (t.fbk j).steps = (s.fbk j).steps := fun j => by
    by_cases hj : j = n
    · rw [hj, h.fbk]
    · rw [(h.others j hj).2.2.2]
  unfold Machine.stepsNow
  rw [steps]
  simp only [e]

theorem State.begunSeg_steps (s : State) (n : Axis) (g : Seg) : stepsNow (s.begunSeg n g) n = stepsNow s n := rfl

theorem runMotion_planned (s : State) (n : Axis) (g : Seg) :
    (if g.mo.x0 = (refNow s n).1 then { g.mo with t0 := timeZero g.t1 } else runMotion s n g) = runMotion s n g := by
  split
  · next h => rw [runMotion, if_pos h]
  · rfl

theorem startMotion_runs (h : isMotion g.op = true) (h7 : g.op ≠ 7) : startMotion s n g = runMotion s n g := by
  rw [startMotion, if_neg h7, if_pos h]

/-- A motion runs from time zero. -/
theorem startOn_moves (h : isMotion g.op = true) (h7 : g.op ≠ 7) (ha : ¬ (g.op = 8 ∧ g.d.u8 24 = 2)) :
    ((startOn s n g).plan n).ref = runMotion s n g ∧
    ((startOn s n g).plan n).st = (if (runMotion s n g).phases = [] then .standing else .moving) ∧
    ((startOn s n g).fbk n).homeIdx = none ∧ ((startOn s n g).fbk n).homeHit = none := by
  have e := goesOn_moves (s := (s.readied n g).begunSeg n g) (n := n) (x := (refNow (s.readied n g) n).1)
    (mo := startMotion (s.readied n g) n g) h h7 ha
  rw [(s.readied_energises n g).startMotion, startMotion_runs h h7] at e
  have hs : ∀ (v : State) (x : FbkS) (y : AxisPlan), ((v.setFbk n x).setPlan n y).fbk n = x := fun v x y => State.fbk_setFbk_self v n x
  rw [startOn_eq, (s.readied_energises n g).startMotion, startMotion_runs h h7, e, State.plan_setPlan_self, hs]
  exact ⟨rfl, rfl, rfl, rfl⟩

theorem startOn_holds (h : g.op = 5) : ((startOn s n g).plan n).st = .standing ∧ ((startOn s n g).plan n).holdMa = g.d.u16 16 := by
  rw [startOn_eq, goesOn_holds h, State.plan_setPlan_self]
  exact ⟨rfl, rfl⟩

theorem startOn_follows (h : g.op = 7) : ((startOn s n g).plan n).st = .following ∧
    ((startOn s n g).plan n).follow = some ⟨stepsNow s n, (refNow s n).1, (refNow s n).1, 0, 0, false⟩ := by
  have he := s.readied_energises n g
  rw [startOn_eq, goesOn_follows h, State.plan_setPlan_self, ← he.refNow, ← he.stepsNow]
  exact ⟨rfl, rfl⟩

theorem startOn_assigns (h : g.op = 8) (h' : g.d.u8 24 = 2) : ((startOn s n g).plan n).homed = true ∧
    ((startOn s n g).plan n).ref = Motion.still (g.d.i64 32) ∧
    (startOn s n g).energised n = (s.readied n g).energised n := by
  obtain ⟨q, e⟩ := goesOn_assigns (s := (s.readied n g).begunSeg n g) (n := n) (x := (refNow (s.readied n g) n).1)
    (mo := startMotion (s.readied n g) n g) h h'
  obtain ⟨-, -, k, -⟩ := ((s.readied n g).begunSeg n g).assignHome_sets n q (g.d.i64 32)
  have hp := congrArg AxisPlan.st ((s.readied n g).begunSeg_plan n g)
  rw [State.energised, State.energised, startOn_eq, e, State.plan_setPlan_self]
  dsimp only
  rw [k, hp]
  exact ⟨rfl, rfl, rfl⟩

theorem startOn_waits (h : isMotion g.op = false) (h5 : g.op ≠ 5) :
    (startOn s n g).plan n = { s.plan n with galley := ((startOn s n g).plan n).galley } := by
  rw [startOn_eq, readied_idle (.inr ⟨h, h5⟩), goesOn_waits h h5, State.begunSeg_plan]

theorem startOn_config (h : isMotion g.op = false) (h5 : g.op ≠ 5) : startOn s n g = s.begunSeg n g := by
  rw [startOn_eq, readied_idle (.inr ⟨h, h5⟩), goesOn_waits h h5]

/-- An axis that is not kept from starting is energised by what needs it, with its gate stage ready. -/
theorem startOn_stands (h : isMotion g.op = true ∨ g.op = 5) (hs : startBlocked s n g.op = none) :
    (startOn s n g).energised n = true ∧ (s.energised n = false → ((startOn s n g).gdr (bankOfAxis n)).uvArmed = true ∧
      ∀ h ∈ hbsOfAxis n, ((startOn s n g).hb h).react = false) := by
  have on : s.readied n g = s.energise n := if_pos (by simpa using h)
  have he : (s.energise n).energised n = true ∧ (s.energised n = false → ((s.energise n).gdr (bankOfAxis n)).uvArmed = true ∧
      ∀ h ∈ hbsOfAxis n, ((s.energise n).hb h).react = false) := by
    cases hp : s.powered (12 + (bankOfAxis n).val) with
    | true => exact s.energise_stands n hp
    | false =>
      have e : s.energised n = true := by
        by_contra hc
        have : startBlocked s n g.op = some (64 + 16 * (bankOfAxis n).val + 12) := if_pos (by simp [hp, hc, h])
        rw [this] at hs
        cases hs
      rw [s.energise_idle (.inl e)]
      exact ⟨e, fun hc => absurd (e.symm.trans hc) (by decide)⟩
  obtain ⟨h1, h2⟩ := he
  obtain ⟨hg, hh⟩ := (startOn_begins s n g).gates
  rw [on] at hg hh
  refine ⟨?_, fun hn => ?_⟩
  · by_cases h7 : g.op = 7
    · rw [State.energised, (startOn_follows h7).1]
      rfl
    by_cases h5 : g.op = 5
    · rw [State.energised, (startOn_holds h5).1]
      rfl
    by_cases ha : g.op = 8 ∧ g.d.u8 24 = 2
    · rw [(startOn_assigns ha.1 ha.2).2.2, on]
      exact h1
    · rw [State.energised, (startOn_moves (h.resolve_right h5) h7 ha).2.1]
      split <;> rfl
  · obtain ⟨h3, h4⟩ := h2 hn
    rw [State.gdr, hg]
    refine ⟨h3, fun j hj => ?_⟩
    rw [State.hb, hh]
    exact h4 j hj

/-- Where the axis was energised and no position is assigned, only the plans, LES and the home points have changed. -/
theorem startOn_light (h : s.energised n = true) (ha : ¬ (g.op = 8 ∧ g.d.u8 24 = 2)) :
    startOn s n g = { s with plans := (startOn s n g).plans, less := (startOn s n g).less, fbks := (startOn s n g).fbks } := by
  have light : ∀ (v : State) (x : Rat) (mo : Motion), v.goesOn n g x mo =
      { v with plans := (v.goesOn n g x mo).plans, fbks := (v.goesOn n g x mo).fbks } := fun v x mo => by
    by_cases h7 : g.op = 7
    · rw [goesOn_follows h7]
      rfl
    by_cases h5 : g.op = 5
    · rw [goesOn_holds h5]
      rfl
    cases hm : isMotion g.op with
    | true =>
      rw [goesOn_moves hm h7 ha]
      rfl
    | false => rw [goesOn_waits hm h5]
  have e := light (s.begunSeg n g) (refNow s n).1 (startMotion s n g)
  rw [startOn_eq, readied_idle (.inl h)]
  generalize (s.begunSeg n g).goesOn n g (refNow s n).1 (startMotion s n g) = t at *
  have hl : t.less = (s.begunSeg n g).less := (congrArg State.less e :)
  rw [hl]
  exact e

end Starting

end Sys2Proof.Machine

namespace Sys2Proof.Machine

section Clauses

variable {s t u v w : State} {n m : Axis} {g h : Seg} {o ho : Op} {tag : Fin 1024}

/-! ### The start of one axis, of a CONFIG, behind another operation, and a start that is cancelled -/

/-- The state in which the entries of o start. -/
def State.opBegins (u : State) (o : Op) : State := u.setOp { o with begun := true }

theorem State.opBegins_rest (u : State) (o : Op) : u.opBegins o = { u with
    ops := u.ops.map fun y => if y.tag = o.tag then { o with begun := true } else y } := rfl

theorem State.opBegins_axis (u : State) (o : Op) (n : Axis) : (u.opBegins o).plan n = u.plan n ∧ (u.opBegins o).les n = u.les n ∧
    (u.opBegins o).clp n = u.clp n ∧ (u.opBegins o).fbk n = u.fbk n := ⟨rfl, rfl, rfl, rfl⟩

theorem State.opBegins_reads (u : State) (o : Op) (n : Axis) : refNow (u.opBegins o) n = refNow u n ∧
    (∀ g, startMotion (u.opBegins o) n g = startMotion u n g) ∧ (∀ g, runMotion (u.opBegins o) n g = runMotion u n g) ∧
    stepsNow (u.opBegins o) n = stepsNow u n ∧ (u.opBegins o).energised n = u.energised n ∧
    ∀ op, startBlocked (u.opBegins o) n op = startBlocked u n op := ⟨rfl, fun _ => rfl, fun _ => rfl, rfl, rfl, fun _ => rfl⟩

theorem State.endBefore_idle (h : inProg s n = none) (tag t : Nat) : s.endBefore n tag t = s := by
  unfold State.endBefore
  rw [h]

/-- Nothing is in progress on the axes of o: they start as they are. -/
theorem startWork_free (h : ∀ n ∈ o.axes, inProg u n = none) (tag : Nat) :
    startWork o tag u = each o.axes (startAt tag) (u.opBegins o) := by
  have e : each o.axes (fun s n => s.endBefore n tag o.t1) u = u :=
    each_idle fun n hn => State.endBefore_idle (h n hn) tag o.t1
  rw [startWork, e]
  rfl

theorem startWork_single (hn : o.axes = [n]) (h : inProg u n = none) (tag : Nat) :
    startWork o tag u = startAt tag (u.opBegins o) n := by
  rw [startWork_free (by simpa [hn] using h), hn]
  rfl

theorem startAt_found {tag : Nat} (h : (s.plan n).galley.find? (fun g => g.tag = tag) = some g) :
    startAt tag s n = startOn s n g := by
  unfold startAt
  rw [h]

/-- What the start of segment g shows in t, the state before it being u. -/
def BegunFrom (u : State) (n : Axis) (g : Seg) (t : State) : Prop :=
  (t.plan n).galley = ((u.plan n).galley.map fun y =>
    if y.tag = g.tag then { y with begun := true, mo := startMotion u n g } else y) ∧
  (u.energised n = true ∨ g.op ∈ [6, 10] ∨ isConfig g.op = true →
    (t.les n).stall = ((u.les n).stall && ((u.les n).emfN ≠ 0 || (u.les n).angN ≠ 0)))

theorem idleOp (h : g.op ∈ [6, 10] ∨ isConfig g.op = true) : isMotion g.op = false ∧ g.op ≠ 5 := by
  have ho : g.op = 6 ∨ g.op = 10 ∨ g.op = 16 ∨ g.op = 17 := by simpa [isConfig, or_assoc] using h
  obtain e | e | e | e := ho <;> rw [e] <;> decide

theorem startOn_begunFrom (u : State) (o : Op) (n : Axis) (g : Seg) : BegunFrom u n g (startOn (u.opBegins o) n g) := by
  have hb := startOn_begins (u.opBegins o) n g
  obtain ⟨-, h2, -, -, h5, -⟩ := u.opBegins_reads o n
  obtain ⟨a1, a2, -, -⟩ := u.opBegins_axis o n
  have hg := hb.galley
  have hs := hb.stall
  rw [a1, h2] at hg
  rw [h5, a2] at hs
  exact ⟨hg, fun hc => hs (hc.imp id idleOp)⟩

/-- From s to u no more than time has passed. -/
structure Timed (s u : State) : Prop where
  plan : ∀ n, u.plan n = s.plan n
  axis : ∀ n, u.les n = s.les n ∧ u.clp n = s.clp n ∧ u.fbk n = s.fbk n
  ops : u.ops = s.ops
  reg : ∀ o, u.reg o = s.reg o
  fbks : u.fbks = s.fbks
  energised : ∀ n, u.energised n = s.energised n
  blocked : ∀ n op, startBlocked u n op = startBlocked s n op
  sent : u.sent = s.sent
  ports : u.portA.held = s.portA.held ∧ u.portB.held = s.portB.held

theorem State.advToGtc_timed (s : State) (e : Nat) : Timed s (s.advToGtc e) where
  plan := s.advToGtc_plan e
  axis n := ⟨congrArg (·[n]) (s.advToGtc_less e), congrArg (·[n]) (s.advToGtc_clps e), congrArg (·[n]) (s.advToGtc_fbks e)⟩
  ops := s.advToGtc_ops e
  reg := s.advToGtc_reg e
  fbks := s.advToGtc_fbks e
  energised := s.advToGtc_energised e
  blocked := startBlocked_advToGtc s e
  sent := s.advToGtc_sent e
  ports := ⟨congrArg PortS.held (s.advToGtc_portA e), congrArg PortS.held (s.advToGtc_portB e)⟩

/-- A start that makes no record stands as it is. -/
theorem Timed.arranged (h : Timed s u) (hs : t.sent = u.sent) (hA : t.portA = u.portA) (hB : t.portB = u.portB) :
    State.arranged s t = t :=
  State.arranged_quiet s t (hs.trans h.sent) (by rw [hA]; exact h.ports.1) (by rw [hB]; exact h.ports.2)

theorem Begins.rest_opBegins (h : Begins n g (u.opBegins o) t) : t = { u with
    regs := t.regs, ops := t.ops, plans := t.plans, less := t.less, clps := t.clps, gdrs := t.gdrs, hbs := t.hbs
    fbks := t.fbks } := by
  have ho : t.ops = (u.opBegins o).ops := (congrArg State.ops h.rest :)
  rw [ho]
  exact h.rest

theorem Begins.arranged (h : Begins n g (u.opBegins o) t) (hu : Timed s u) : State.arranged s t = t :=
  hu.arranged (congrArg State.sent h.rest :) (congrArg State.portA h.rest :) (congrArg State.portB h.rest :)

theorem Begins.elsewhere (h : Begins n g (u.opBegins o) t) (hu : Timed s u) :
    RegsBut (Reg.LES_STAT n :: homeRegs n) s t ∧
      ∀ m, m ≠ n → t.plan m = s.plan m ∧ t.les m = s.les m ∧ t.clp m = s.clp m ∧ t.fbk m = s.fbk m := by
  refine ⟨fun j hj => (h.regs j hj).trans (hu.reg j), fun m hm => ?_⟩
  obtain ⟨b1, b2, b3, b4⟩ := h.others m hm
  obtain ⟨c1, c2, c3⟩ := hu.axis m
  exact ⟨b1.trans (hu.plan m), b2.trans c1, b3.trans c2, b4.trans c3⟩

theorem startOn_light_opBegins (h : u.energised n = true) (ha : ¬ (g.op = 8 ∧ g.d.u8 24 = 2)) :
    startOn (u.opBegins o) n g = { u with
      ops := (startOn (u.opBegins o) n g).ops, plans := (startOn (u.opBegins o) n g).plans
      less := (startOn (u.opBegins o) n g).less, fbks := (startOn (u.opBegins o) n g).fbks } := by
  have e := startOn_light (s := u.opBegins o) (n := n) (g := g) h ha
  have ho : (startOn (u.opBegins o) n g).ops = (u.opBegins o).ops := (congrArg State.ops e :)
  rw [ho]
  exact e

theorem BegunFrom.shows (h : BegunFrom u n g t) (hu : Timed s u) :
    let x := (refNow u n).1
    let m := if g.op = 7 then ⟨timeZero g.t1, x, 0, 0, [], x⟩ else if isMotion g.op then runMotion u n g else g.mo
    let l := s.les n
    (t.plan n).galley = ((s.plan n).galley.map fun y => if y.tag = g.tag then { y with begun := true, mo := m } else y) ∧
    (s.energised n ∨ g.op ∈ [6, 10] ∨ isConfig g.op → (t.les n).stall = (l.stall && (l.emfN ≠ 0 || l.angN ≠ 0))) := by
  intro x m l
  obtain ⟨h1, h2⟩ := h
  rw [hu.plan] at h1
  rw [hu.energised, (hu.axis n).1] at h2
  exact ⟨h1, h2⟩

theorem Timed.steps (h : Timed s u) (n : Axis) : stepsNow u n = stepsNow s n := by
  have e : stepSource u n = stepSource s n := by
    rw [stepSource, State.rd_of_reg (f := F.FBK_CFG_STEP_SRC n) (h.reg _)]
    rfl
  have steps : ∀ j, (u.fbk j).steps = (s.fbk j).steps := fun j => by rw [(h.axis j).2.2]
  unfold stepsNow
  rw [steps]
  simp only [e]

end Clauses

end Sys2Proof.Machine

namespace Sys2Proof.Machine

section Configs

variable {s t u v w : State} {n m : Axis} {g h : Seg} {o : Op} {tag : Nat}

/-! ### A CONFIG begins on every axis it names, once or more (R131, R168) -/

/-- The entry of the tag in the galley of one axis. -/
def segTagged (s : State) (n : Axis) (tag : Nat) : Option Seg := (s.plan n).galley.find? fun g => g.tag = tag

/-- The galley in which the entries of g's tag have begun with the motion mo. -/
def begunGalley (g : Seg) (mo : Motion) (l : List Seg) : List Seg :=
  l.map fun y => if y.tag = g.tag then { y with begun := true, mo } else y

theorem begunGalley_begunGalley (g : Seg) (mo : Motion) (l : List Seg) :
    begunGalley g mo (begunGalley g mo l) = begunGalley g mo l := by
  unfold begunGalley
  rw [List.map_map]
  refine List.map_congr_left fun y _ => ?_
  by_cases e : y.tag = g.tag <;> simp [e]

theorem begunGalley_find {l : List Seg} (mo : Motion) (h : l.find? (fun g => g.tag = tag) = some g) :
    (begunGalley g mo l).find? (fun g => g.tag = tag) = some { g with begun := true, mo } := by
  have same : ((fun y : Seg => decide (y.tag = tag)) ∘ fun y => if y.tag = g.tag then { y with begun := true, mo } else y) =
      fun y => decide (y.tag = tag) := by
    funext y
    dsimp only [Function.comp]
    split <;> rfl
  rw [begunGalley, List.find?_map, same, h]
  simp

/-- From v to w the CONFIG has begun on axis n. -/
def BegunOn (v : State) (n : Axis) (g : Seg) (w : State) : Prop :=
  w.plan n = { v.plan n with galley := begunGalley g g.mo (v.plan n).galley } ∧
  w.les n = { v.les n with stall := (v.les n).stall && ((v.les n).emfN ≠ 0 || (v.les n).angN ≠ 0) }

/-- Axis n is as in v, or its CONFIG has begun. -/
def BegunOrNot (v : State) (n : Axis) (tag : Nat) (w : State) : Prop :=
  (w.plan n = v.plan n ∧ w.les n = v.les n) ∨ ∃ g, segTagged v n tag = some g ∧ BegunOn v n g w

theorem config_still (h : isConfig g.op = true) : isMotion g.op = false ∧ g.op ≠ 5 ∧ ∀ s n, startMotion s n g = g.mo := by
  obtain ⟨h1, h2⟩ := idleOp (g := g) (.inr h)
  have h7 : g.op ≠ 7 := fun e => by rw [e] at h1; exact absurd h1 (by decide)
  exact ⟨h1, h2, fun s n => by rw [startMotion, if_neg h7, if_neg (by rw [h1]; decide)]⟩

theorem startOn_config_plan (h : isConfig g.op = true) : (startOn s n g).plan n = { s.plan n with
    galley := begunGalley g g.mo (s.plan n).galley } := by
  obtain ⟨h1, h2, h3⟩ := config_still h
  rw [startOn_config h1 h2, State.begunSeg_plan, h3]
  rfl

theorem startOn_config_les (h : isConfig g.op = true) : (startOn s n g).les n = { s.les n with
    stall := (s.les n).stall && ((s.les n).emfN ≠ 0 || (s.les n).angN ≠ 0) } := by
  obtain ⟨h1, h2, -⟩ := config_still h
  rw [startOn_config h1 h2, State.begunSeg_les]

/-- The entry starts, or has started already. -/
theorem startAt_config (hw : BegunOrNot v n tag w) (he : segTagged v n tag = some g) (hc : isConfig g.op = true) :
    BegunOn v n g (startAt tag w n) := by
  rcases hw with ⟨hp, hl⟩ | ⟨g', he', hp, hl⟩
  · have e : startAt tag w n = startOn w n g := startAt_found (by rw [hp]; exact he)
    rw [e, BegunOn, startOn_config_plan hc, startOn_config_les hc, hp, hl]
    exact ⟨rfl, rfl⟩
  · obtain rfl : g = g' := Option.some.inj (he.symm.trans he')
    have e : startAt tag w n = startOn w n { g with begun := true, mo := g.mo } := startAt_found (by
      rw [hp]
      exact begunGalley_find g.mo he)
    have hc' : isConfig { g with begun := true, mo := g.mo }.op = true := hc
    rw [e, BegunOn, startOn_config_plan hc', startOn_config_les hc', hp, hl]
    refine ⟨congrArg (fun x => { v.plan n with galley := x }) (begunGalley_begunGalley g g.mo _), ?_⟩
    simp only [Bool.and_assoc, Bool.and_self]

theorem startAt_absent (h : segTagged w n tag = none) : startAt tag w n = w := by
  unfold startAt
  rw [show ((w.plan n).galley.find? fun g => g.tag = tag) = none from h]

theorem startOn_config_rest (h : isConfig g.op = true) : startOn s n g = { s with
    plans := (startOn s n g).plans, less := (startOn s n g).less } := by
  obtain ⟨h1, h2, -⟩ := config_still h
  rw [startOn_config h1 h2]
  rfl

theorem State.startOn_plan_ne (s : State) (g : Seg) (hm : m ≠ n) : (startOn s n g).plan m = s.plan m ∧ (startOn s n g).les m = s.les m := by
  obtain ⟨h1, h2, -, -⟩ := (startOn_begins s n g).others m hm
  exact ⟨h1, h2⟩

/-- What the start at one axis of the list does: the axis begins, others stand, and so does the rest of the state. -/
theorem startAt_step (hw : BegunOrNot v n tag w) (hc : ∀ g, segTagged v n tag = some g → isConfig g.op = true) :
    (∀ g, segTagged v n tag = some g → BegunOn v n g (startAt tag w n)) ∧ BegunOrNot v n tag (startAt tag w n) ∧
    (∀ m, m ≠ n → (startAt tag w n).plan m = w.plan m ∧ (startAt tag w n).les m = w.les m) ∧
    startAt tag w n = { w with plans := (startAt tag w n).plans, less := (startAt tag w n).less } := by
  cases he : segTagged v n tag with
  | none =>
    have ho : w.plan n = v.plan n ∧ w.les n = v.les n := hw.resolve_right fun ⟨g, h, _⟩ => by rw [he] at h; cases h
    have e : startAt tag w n = w := startAt_absent (by rw [segTagged, ho.1]; exact he)
    rw [e]
    exact ⟨fun g h => (by cases h), .inl ho, fun _ _ => ⟨rfl, rfl⟩, rfl⟩
  | some g =>
    have hb := startAt_config hw he (hc g he)
    refine ⟨fun g' h => by cases h; exact hb, .inr ⟨g, he, hb⟩, ?_⟩
    obtain ⟨x, hx, hxc⟩ : ∃ x, segTagged w n tag = some x ∧ isConfig x.op = true := by
      obtain ⟨hp, -⟩ | ⟨g', he', hp, -⟩ := hw
      · exact ⟨g, by rw [segTagged, hp]; exact he, hc g he⟩
      · refine ⟨{ g' with begun := true, mo := g'.mo }, ?_, hc g' he'⟩
        rw [segTagged, hp]
        exact begunGalley_find g'.mo he'
    have e : startAt tag w n = startOn w n x := startAt_found hx
    rw [e]
    exact ⟨fun m hm => w.startOn_plan_ne x hm, startOn_config_rest hxc⟩

/-- From s to t plans and estimators alone have changed. -/
def Replans (s t : State) : Prop := t = { s with plans := t.plans, less := t.less }

theorem Replans.trans (h : Replans s t) (k : Replans t u) : Replans s u := by
  have e : _ = _ := k
  rw [show t = _ from h] at e
  exact e

/-- What the CONFIG leaves once it has begun on the axes of a list. -/
structure ConfigsBegun (v : State) (tag : Nat) (l : List Axis) (w t : State) : Prop where
  begun : ∀ n ∈ l, ∀ g, segTagged v n tag = some g → BegunOn v n g t
  still : ∀ n g, segTagged v n tag = some g → BegunOn v n g w → BegunOn v n g t
  each : ∀ n, BegunOrNot v n tag t
  others : ∀ n, n ∉ l → t.plan n = w.plan n ∧ t.les n = w.les n
  rest : Replans w t

/-- The state after a CONFIG has begun on all its axes. -/
theorem ConfigsBegun.shows {l : List Axis} (h : ConfigsBegun v tag l v t) :
    (∀ n ∈ l, ∀ g, segTagged v n tag = some g → BegunOn v n g t) ∧
    (∀ n, t.plan n = { v.plan n with galley := (t.plan n).galley }) ∧
    ∀ n, n ∉ l → t.plan n = v.plan n ∧ t.les n = v.les n := by
  refine ⟨h.begun, fun n => ?_, h.others⟩
  obtain ⟨e, -⟩ | ⟨g, -, e, -⟩ := h.each n
  · rw [e]
  · rw [e]

theorem startAt_each (l : List Axis) (hw : ∀ n, BegunOrNot v n tag w)
    (hc : ∀ n ∈ l, ∀ g, segTagged v n tag = some g → isConfig g.op = true) : ConfigsBegun v tag l w (each l (startAt tag) w) := by
  induction l generalizing w with
  | nil => exact ⟨by simp, fun _ _ _ => id, hw, fun _ _ => ⟨rfl, rfl⟩, rfl⟩
  | cons a l ih =>
    obtain ⟨h1, h2, h3, h4⟩ := startAt_step (hw a) (hc a (by simp))
    have keep : ∀ n g, n ≠ a → BegunOn v n g w → BegunOn v n g (startAt tag w a) := fun n g hn hb => by
      obtain ⟨e1, e2⟩ := h3 n hn
      rw [BegunOn, e1, e2]
      exact hb
    have hw' : ∀ n, BegunOrNot v n tag (startAt tag w a) := fun n => by
      by_cases e : n = a
      · rw [e]
        exact h2
      · obtain ⟨e1, e2⟩ := h3 n e
        rw [BegunOrNot, e1, e2]
        exact (hw n).imp id fun ⟨g, he, hb⟩ => ⟨g, he, keep n g e hb⟩
    obtain ⟨k1, k2, k3, k4, k5⟩ := ih hw' fun n hn => hc n (by simp [hn])
    refine ⟨fun n hn g he => ?_, fun n g he hb => k2 n g he ?_, k3, fun n hn => ?_, ?_⟩
    · obtain rfl | hn := List.mem_cons.1 hn
      · exact k2 n g he (h1 g he)
      · exact k1 n hn g he
    · by_cases e : n = a
      · subst e
        exact h1 g he
      · exact keep n g e hb
    · simp only [List.mem_cons, not_or] at hn
      obtain ⟨e1, e2⟩ := k4 n hn.2
      obtain ⟨e3, e4⟩ := h3 n hn.1
      exact ⟨e1.trans e3, e2.trans e4⟩
    · exact Replans.trans h4 k5

end Configs

section Others

variable {s t u v w : State} {n m : Axis} {g h : Seg} {o p : Op} {tag : Nat}

/-! ### What was in progress ends first (R134, R138) -/

theorem Ended.rest {st : Status} {t1 t2 d f : Nat} (h : Ended o st t1 t2 d f s t) :
    t.ops = s.ops.filter (fun x => x.tag ≠ o.tag) ∧
    ∀ n, t.plan n = { s.plan n with galley := (s.plan n).galley.filter fun g => g.tag ≠ o.tag } := by
  have e := Placed.rest h
  constructor
  · exact (congrArg State.ops e).trans rfl
  · intro n
    have e' := congrArg State.plans e
    rw [State.plan, e']
    exact (Vector.getElem_map ..).trans rfl

theorem State.endBefore_ends (s : State) (t : Nat) (h1 : inProg s n = some h) (h2 : h.tag ≠ tag) (h3 : s.opOf h.tag = some p) :
    (s.endBefore n tag t).ops = s.ops.filter fun x => x.tag ≠ h.tag := by
  have ht : p.tag = h.tag := by simpa using List.find?_some h3
  have e : s.endBefore n tag t = s.segEnd p (min t (h.t2.getD t)) := by
    unfold State.endBefore
    rw [h1]
    dsimp only
    rw [if_neg h2, h3]
  have he := (State.segEnd_ended s (min t (h.t2.getD t)) (ht.symm ▸ h3) (s.endWork_ops p)).rest.1
  rw [e, he, s.endWork_ops, ht]

theorem startAt_ops (s : State) (tag : Nat) (n : Axis) : (startAt tag s n).ops = s.ops := by
  unfold startAt
  split
  · exact (congrArg State.ops (startOn_begins s n _).rest :)
  · rfl

/-- The operation begins, and that which was in progress has gone. -/
theorem startWork_follows (hn : o.axes = [n]) (h1 : inProg u n = some h) (h2 : h.tag ≠ tag) (h3 : u.opOf h.tag = some p) :
    (startWork o tag u).ops = (u.ops.filter fun x => x.tag ≠ h.tag).map fun y => if y.tag = o.tag then { o with begun := true } else y := by
  have e : startWork o tag u = startAt tag ((u.endBefore n tag o.t1).opBegins o) n := by
    exact congrArg (fun l => each l (startAt tag) ((each l (fun s n => s.endBefore n tag o.t1) u).setOp { o with begun := true })) hn
  rw [e, startAt_ops, State.opBegins_rest, ← u.endBefore_ends o.t1 h1 h2 h3]

/-! ### A start that is cancelled (R22, R24) -/

theorem State.cancelQueued_single (c : Cause) (hq : (u.plan n).galley = [g]) (hb : g.begun = false) (h : u.opOf g.tag = some o)
    (hc : isConfig o.op = false) : ∃ own, u.cancelQueued n c =
      u.finish g.tag (causeQueued own c).1 0 u.now (causeQueued own c).2 0 := by
  have hu : u.unbookOthers n g.tag = u := by
    unfold State.unbookOthers
    rw [h]
    exact if_neg (by rw [hc]; decide)
  have hf : (u.plan n).galley.filter (fun g => !g.begun) = [g] := by simp [hq, hb]
  unfold State.cancelQueued
  extract_lets own r
  refine ⟨own, ?_⟩
  rw [hf]
  change (u.unbookOthers n g.tag).finish g.tag _ 0 u.now _ 0 = _
  rw [hu]

/-- The one entry of the axis ends as cancelled, and its galley is empty. -/
theorem State.cancelStart_single {src : Nat} (hq : (u.plan n).galley = [g]) (hb : g.begun = false) (h : u.opOf g.tag = some o)
    (hc : isConfig o.op = false) : ∃ v, Ended o .cancelled 0 u.now (src + 2 ^ 31) (opFlags o) u v ∧
      ((u.cancelStart n src).plan n).galley = [] ∧ (∀ m, m ≠ n → (u.cancelStart n src).plan m = v.plan m) ∧
      u.cancelStart n src = { v with plans := (u.cancelStart n src).plans } := by
  have ht : o.tag = g.tag := by simpa using List.find?_some h
  obtain ⟨own, e⟩ := State.cancelQueued_single (u := u) (n := n) (.fault src) hq hb h hc
  have hf := State.finish_ended u o .cancelled 0 u.now (src + 2 ^ 31) 0 (ht.symm ▸ h)
  rw [Nat.zero_add] at hf
  rw [ht] at hf
  have e : u.cancelQueued n (.fault src) = u.finish g.tag .cancelled 0 u.now (src + 2 ^ 31) 0 := e
  generalize u.finish g.tag .cancelled 0 u.now (src + 2 ^ 31) 0 = v at *
  have hv : (v.plan n).galley = [] := by
    rw [Ended.rest hf |>.2 n, hq]
    simp [ht]
  have hp : inProg v n = none := by rw [inProg, hv]; rfl
  unfold State.cancelStart
  extract_lets w stand
  have hw : w = v := e
  have hs : (w.plan n).galley = [] := by rw [hw]; exact hv
  rw [hw, hp]
  refine ⟨v, hf, ?_, fun m hm => State.plan_setPlan_ne v _ hm, rfl⟩
  rw [show (none : Option Seg).isSome = false from rfl, if_neg (by decide), State.plan_setPlan_self]
  exact hs

end Others

end Sys2Proof.Machine

namespace Sys2Proof.Machine

section Config

variable {s t u v w : State} {n m : Axis} {g h : Seg} {o p : Op} {tag : Nat}

theorem startBlocked_config {op : Nat} (h : isConfig op = true) : startBlocked s n op = none := by
  have ho : op = 16 ∨ op = 17 := by simpa [isConfig] using h
  have hm : isMotion op = false := by obtain e | e := ho <;> rw [e] <;> rfl
  have h5 : op ≠ 5 := by omega
  simp [startBlocked, hm, h5]

/-- From u to t a CONFIG has begun. -/
theorem ConfigsBegun.arranged {l : List Axis} (h : ConfigsBegun v tag l (u.opBegins o) t) (hu : Timed s u) : State.arranged s t = t :=
  hu.arranged (congrArg State.sent h.rest :) (congrArg State.portA h.rest :) (congrArg State.portB h.rest :)

theorem ConfigsBegun.rest_opBegins {l : List Axis} (h : ConfigsBegun v tag l (u.opBegins o) t) : t = { u with
    ops := t.ops, plans := t.plans, less := t.less } := by
  have ho : t.ops = (u.opBegins o).ops := (congrArg State.ops h.rest :)
  rw [ho]
  exact h.rest

theorem ConfigsBegun.ops {l : List Axis} (h : ConfigsBegun v tag l (u.opBegins o) t) (hu : Timed s u) :
    t.ops = s.ops.map fun y => if y.tag = o.tag then { o with begun := true } else y := by
  have ho : t.ops = (u.opBegins o).ops := (congrArg State.ops h.rest :)
  rw [ho, ← hu.ops]
  rfl

theorem BegunOn.begunFrom (h : BegunOn (u.opBegins o) n g t) (hc : isConfig g.op = true) : BegunFrom u n g t := by
  obtain ⟨h1, h2⟩ := h
  obtain ⟨a1, a2, -, -⟩ := u.opBegins_axis o n
  rw [a1] at h1
  rw [a2] at h2
  rw [BegunFrom, h1, h2, (config_still hc).2.2]
  exact ⟨rfl, fun _ => rfl⟩

end Config

/-- Settles O38: time passes to the start, what was in progress ends, and each axis begins on its own. -/
theorem segmentsBegin : Obligations.SegmentsBegin := by
  intro s tag o hop hg hb hl u begins
  have hu : Timed s u := s.advToGtc_timed _
  have hex : (∀ n ∈ o.axes, startBlocked s n o.op = none) →
      exec (.segmentStart tag) s = .next (State.arranged s (startWork o tag u)) := exec_segmentStart_works hop hg hb hl
  have hcan : ∀ n src, o.axes = [n] → startBlocked s n o.op = some src →
      exec (.segmentStart tag) s = .next (State.arranged s (u.cancelStart n src)) := fun n src =>
    exec_segmentStart_cancels hop hg hb hl
  have hbegin : ∀ n g t, BegunFrom u n g t → (s.plan n).galley.find? (fun g => g.tag = tag.val) = some g → begins n t :=
    fun n g t hbf hf g' hf' => by
      obtain rfl : g = g' := Option.some.inj (hf.symm.trans hf')
      exact hbf.shows hu
  clear_value u
  refine ⟨fun n hn hp hs g hf hgo => ?_, fun hc hp => ?_, fun n h ho hn hs hp ht hq hqn => ?_, fun n src g hn hs hq hqt hqb hc => ?_⟩
  · intro x abs
    have hw : startWork o tag u = startOn (u.opBegins o) n g := by
      rw [startWork_single hn (by rw [inProg, hu.plan]; exact hp)]
      exact startAt_found (by rw [(u.opBegins_axis o n).1, hu.plan]; exact hf)
    have hall := startOn_begins (u.opBegins o) n g
    obtain ⟨q1, q2, q3, q4, q5, q6⟩ := u.opBegins_reads o n
    have hrest := hall.rest_opBegins
    have hops : (startOn (u.opBegins o) n g).ops = s.ops.map fun y => if y.tag = o.tag then { o with begun := true } else y := by
      rw [← hu.ops]
      exact (congrArg State.ops hall.rest :)
    have hq : startBlocked (u.opBegins o) n g.op = none := by rw [q6, hu.blocked, hgo]; exact hs
    have he : exec (.segmentStart tag) s = .next (startOn (u.opBegins o) n g) := by
      rw [hex (by simpa [hn] using hs), hw, hall.arranged hu]
    have hst := fun h => startOn_stands (s := u.opBegins o) (n := n) (g := g) h hq
    refine ⟨_, he, hbegin n g _ (startOn_begunFrom u o n g) hf, hops, fun m hm => ?_, fun h h7 ha => ?_, startOn_holds, fun h => ?_,
      fun ha => ?_, fun h => ?_, fun h => ?_, fun o ho => ?_, hrest, fun he' ha => ?_⟩
    · exact (hall.elsewhere hu).2 m hm
    · obtain ⟨e1, e2, e3⟩ := startOn_moves (s := u.opBegins o) (n := n) h h7 ha
      rw [q3] at e1 e2
      exact ⟨e1.trans (runMotion_planned u n g).symm, e2.trans (by rw [e1]), e3⟩
    · obtain ⟨e1, e2⟩ := startOn_follows (s := u.opBegins o) (n := n) h
      rw [q4, q1, hu.steps] at e2
      exact ⟨e1, e2⟩
    · obtain ⟨e1, e2, -⟩ := startOn_assigns (s := u.opBegins o) (n := n) ha.1 ha.2
      exact ⟨e1, e2⟩
    · obtain ⟨e1, e2⟩ := idleOp (g := g) (by simpa [or_assoc] using h)
      have e := startOn_waits (s := u.opBegins o) (n := n) e1 e2
      rwa [(u.opBegins_axis o n).1, hu.plan] at e
    · obtain ⟨e1, e2⟩ := hst (by simpa using h)
      rw [q5, hu.energised] at e2
      exact ⟨e1, e2⟩
    · exact (hall.elsewhere hu).1 o ho
    · exact startOn_light_opBegins ((hu.energised n).trans he') ha
  · have hv : ∀ n, (u.opBegins o).plan n = s.plan n := fun n => ((u.opBegins_axis o n).1).trans (hu.plan n)
    have hw : startWork o tag u = each o.axes (startAt tag) (u.opBegins o) :=
      startWork_free (fun n hn => by rw [inProg, hu.plan]; exact (hp n hn).1) tag
    have hcfg : ∀ n ∈ o.axes, ∀ g, segTagged (u.opBegins o) n tag = some g → isConfig g.op = true := fun n hn g hg => by
      rw [segTagged, hv] at hg
      rw [(hp n hn).2 g hg]
      exact hc
    have hall := startAt_each (v := u.opBegins o) o.axes (fun n => .inl ⟨rfl, rfl⟩) hcfg
    obtain ⟨k1, k2, k3⟩ := hall.shows
    have hblock : ∀ n ∈ o.axes, startBlocked s n o.op = none := fun n _ => startBlocked_config hc
    have he : exec (.segmentStart tag) s = .next (each o.axes (startAt tag) (u.opBegins o)) := by
      rw [hex hblock, hw, hall.arranged hu]
    refine ⟨_, he, fun n hn g hg => ?_, fun n => ?_, fun n hn => ?_, ?_, hall.rest_opBegins⟩
    · have hv' : segTagged (u.opBegins o) n tag = some g := by rw [segTagged, hv]; exact hg
      exact hbegin n g _ ((k1 n hn g hv').begunFrom (hcfg n hn g hv')) hg g hg
    · rw [← hv]
      exact k2 n
    · obtain ⟨e1, e2⟩ := k3 n hn
      exact ⟨e1.trans (hv n), e2.trans (((u.opBegins_axis o n).2.1).trans (hu.axis n).1)⟩
    · exact hall.ops hu
  · have hot : o.tag = tag.val := by simpa using List.find?_some hop
    have hne : o.tag ≠ h.tag := fun e => ht (e.symm.trans hot)
    have hops : (State.arranged s (startWork o tag u)).ops = (s.ops.filter fun x => x.tag ≠ h.tag).map fun y =>
        if y.tag = o.tag then { o with begun := true } else y := by
      rw [← hu.ops]
      exact startWork_follows hn (by rw [inProg, hu.plan]; exact hp) ht (by rw [State.opOf, hu.ops]; exact hq)
    refine ⟨_, hex (by simpa [hn] using hs), fun y hy => ?_, ?_⟩
    · rw [hops] at hy
      obtain ⟨x, hx, rfl⟩ := List.mem_map.1 hy
      split
      · exact hne
      · simpa using (List.mem_filter.1 hx).2
    · refine ⟨{ o with begun := true }, ?_, rfl, rfl⟩
      rw [hops]
      exact List.mem_map.2 ⟨o, List.mem_filter.2 ⟨List.mem_of_find?_eq_some hop, by simpa using hne⟩, if_pos rfl⟩
  · obtain ⟨v, h1, h2, h3, h4⟩ := State.cancelStart_single (u := u) (o := o) (n := n) (g := g) (src := src) (by rw [hu.plan]; exact hq) hqb
      (by rw [State.opOf, hu.ops, hqt]; exact hop) hc
    exact ⟨_, hcan n src hn hs, v, _, h1, h2, h3, h4, rfl⟩

end Sys2Proof.Machine
